-- ==== Sys2Proof/Word.lean ====
section
/-! DEFINITION. Word.lean: the word and byte types of the VLG-4180 and their plainest arithmetic (R4, R5, R9). -/

namespace Sys2Proof

/-- A register, a core register or a memory word (R9, R116). -/
abbrev Word := BitVec 32

/-- The smallest addressable unit of memory (R4). -/
abbrev Byte := BitVec 8

end Sys2Proof
end

