-- ==== Sys2Proof/Syntax.lean ====
section
/-! DEFINITION. Syntax.lean: the commands of the block, one constructor per row of the opcode table.
A command names the domain, channel or engine it happens in, and carries what comes from outside the model:
the word written, the fields of an engine's instruction, a measured value, a verdict of hardware the spec gives
no arithmetic for. -/

namespace Sys2Proof

/-- The four channels (R17). -/
inductive Chan where
  | c0 | c1 | c2 | c3
deriving DecidableEq, Repr

/-- A domain: one of the four channels or the host domain (R17). -/
inductive Dom where
  | ch (c : Chan)
  | host
deriving DecidableEq, Repr

/-- The three Dziphor cores of a domain by local index, engine 5n + e or 20 + e (R25). -/
inductive Eng where
  | e0 | e1 | e2
deriving DecidableEq, Repr

/-- A general register number g0 to g31 (R116). -/
abbrev GReg := BitVec 5

/-- A Cascade vector register number v0 to v15 (R307). -/
abbrev VReg := BitVec 4

/-- How the fetch of a Dziphor instruction came out, beyond what the address alone decides: the word is the
command's instruction, or it is an illegal word (a non-zero field that R124 or R129 wants zero), or the
fetch met an uncorrectable ECC error (R133 codes 0x02 and 0x0E). -/
inductive Fetch where
  | good | illegal | ecc
deriving DecidableEq, Repr

/-- Where a Dziphor instruction executes and how its fetch came out. -/
structure At where
  d : Dom
  e : Eng
  f : Fetch
deriving DecidableEq, Repr

/-- The SECDED outcome of a memory read (R405, R406). -/
inductive Ecc where
  | clean | correctable | uncorrectable
deriving DecidableEq, Repr

/-- ORDN (order next) and ORDP (order previous) of an atomic instruction (R126, R127), and how the read of its word came
out. -/
structure AtomOrder where
  ordn : Bool
  ordp : Bool
  ecc : Ecc
deriving DecidableEq, Repr

/-- The four Weir threads (R191). -/
inductive Thread where
  | t0 | t1 | t2 | t3
deriving DecidableEq, Repr

/-- How the fetch of a Weir slot came out (R199): the slot holds the command's instruction with every unused
field zero; or an unlisted opcode; or a non-zero unused field; or an uncorrectable ECC error. -/
inductive SlotFetch where
  | good | badOpcode | badField | ecc
deriving DecidableEq, Repr

/-- The Weir thread that issues an instruction and how its slot was fetched. -/
structure WAt where
  c : Chan
  t : Thread
  f : SlotFetch
deriving DecidableEq, Repr

/-- How a Cascade instruction was fetched and its data read (R315, R319, R323): as the command says; illegal by an
unlisted opcode or a non-zero unused field; uncorrectable ECC on the fetch; uncorrectable ECC on a data read. -/
inductive CasFetch where
  | good | illegal | fetchEcc | dataEcc
deriving DecidableEq, Repr

/-- The channel whose Cascade engine executes an instruction and how it was fetched. -/
structure CAt where
  c : Chan
  f : CasFetch
deriving DecidableEq, Repr

/-- The rails with a supply monitor (R80, R82). -/
inductive Rail where
  | vcore | vnvm | vio | vring
  | vana (c : Chan)
deriving DecidableEq, Repr

/-- The banked blocks in the mask order of R130. -/
inductive Bank where
  | weir | pos | adc | pwm | gdi | cas | safe
deriving DecidableEq, Repr

/-- The RWL registers of R163. -/
inductive RwlReg where
  | casTref | casFref | casSref | casIlim | casTramp | pwmMimax | gdiBrkth | safeSlslim
deriving DecidableEq, Repr

/-- The memories with spare rows of kind 0x7 (R449, R454). -/
inductive RowMem where
  | sram | casProg | casData | weirProg
deriving DecidableEq, Repr

/-- The two ring ports (R465). -/
inductive Port where
  | a | b
deriving DecidableEq, Repr

/-- What a boot phase reports that the model does not compute (R108, R111): whether the phase's own hardware
check failed and with which code of R111; the cores that failed self-test in B8; the comparators and trip input
stages left on their spare by B9; the usable spare rows that B4 finds. -/
structure BootReport where
  fails : Bool
  code : BitVec 8
  coreFails : BitVec 3
  cmpSpare : BitVec 7
  tripSpare : BitVec 8
  rowsLeft : BitVec 8
deriving DecidableEq, Repr

/-- One pair of resolver samples with what demodulation and the tracking loop made of it (R222, R223, R265):
the discrete form of the loop is not in the spec, so its results are given. -/
structure ResolverPair where
  sin : BitVec 16
  cos : BitVec 16
  mag : BitVec 16
  err : BitVec 16
  angle : BitVec 16
  vel : BitVec 32
deriving DecidableEq, Repr

/-- What the converters see at a hold: the voltages at the first to third slots' inputs and at the rover's, in microvolts, the
output of the reference buffer in microvolts, and each converter's error in codes, zero in a sound one (R241; log 73). -/
structure Sample where
  v0 : Int
  v1 : Int
  v2 : Int
  vr : Int
  vref : Nat
  e0 : Int
  e1 : Int
  e2 : Int
  er : Int
deriving DecidableEq, Repr

/-- Three voltages at a hold, in microvolts (R241). -/
structure Volts3 where
  v0 : Int
  v1 : Int
  v2 : Int
deriving DecidableEq, Repr

/-- The errors of the four converters at a hold, in codes (R241). -/
structure CodeErrors where
  e0 : Int
  e1 : Int
  e2 : Int
  er : Int
deriving DecidableEq, Repr

/-- The sum of a demodulator's filter, and whether the bits it covers toggled (R262). -/
structure SdSum where
  sum : Nat
  toggled : Bool
deriving DecidableEq, Repr

/-- A node voltage in microvolts, and the tap of the cycle in which it comes (R290). -/
structure NodeLevel where
  v : Int
  tap : BitVec 5
deriving DecidableEq, Repr

/-- The ball Cn_VDC of a channel and its voltage in microvolts (R372). -/
structure VdcLevel where
  ch : Chan
  v : Int
deriving DecidableEq, Repr

/-- A register of a bank whose parity fails: its block and offset, in the plan bank or in the live one, and what it reads as
(R152). -/
structure ParityLoss where
  block : Bank
  off : BitVec 16
  plan : Bool
  v : BitVec 32
deriving DecidableEq, Repr

/-- The conversions of one slow round (R441): die sensors in 1/16 degree, rails in mV, ADC_HKSEL raw codes. -/
structure SlowRound where
  t0 : BitVec 16
  t1 : BitVec 16
  t2 : BitVec 16
  vcore : BitVec 16
  vnvm : BitVec 16
  vana : BitVec 16
  vio : BitVec 16
  vring : BitVec 16
  hk0 : BitVec 14
  hk1 : BitVec 14
  hk2 : BitVec 14
  hk3 : BitVec 14
deriving DecidableEq, Repr

/-- What the host boot ROM finds where the model has no arithmetic for it, SHA-256 and ECDSA (R506, R510, R511): the key
hash equals the fused one; the signature verifies; the entries whose digest of a staged part, or of a KEEP blob's active
slot, is wrong; the digests of the banks that a revert selects verify; the active host image's digest does (H10). And what
it reads in H6: ACT0 has an uncorrectable error (R501). -/
structure RomReport where
  actBad : Bool
  keyOk : Bool
  sigOk : Bool
  badDigest : BitVec 9
  revertOk : Bool
  imageOk : Bool
deriving DecidableEq, Repr

/-- A debug port request (R528): its space, tag and address, whether its check and OP are good, and whether the
domain holds the access past the response (BUSY). -/
structure DebugReq where
  space : BitVec 2
  tag : BitVec 4
  addr : BitVec 32
  checkOk : Bool
  held : Bool
deriving DecidableEq, Repr

/-- The commands: every row of spec/opcode_table.json, in the table's order. -/
inductive Instr where
  /-- SUPPLY_MONITOR_ASSERT (R86): A rail stays outside its monitor window for the filter time and the domains it covers enter reset. -/
  | supplyMonitorAssert (rail : Rail) (isOver : Bool)
  /-- SUPPLY_MONITOR_DEASSERT (R82): A rail returns inside its window by the hysteresis and its monitor deasserts, starting the reset extension. -/
  | supplyMonitorDeassert (rail : Rail)
  /-- RESET_EXTENSION_EXPIRY (R88): The 1.0 ms to 1.5 ms supply-reset extension ends and the covered domains leave reset. -/
  | resetExtensionExpiry (d : Dom)
  /-- POWER_ON_RESET (R90): VIO undervoltage puts the whole device in the Unpowered state and clears SYS_RSTSTAT except POR. -/
  | powerOnReset
  /-- WRITE_INHIBIT_CHANGE (R84): VNVM crosses the write-inhibit threshold and NVM controllers stop or resume starting writes. -/
  | writeInhibitChange (on : Bool)
  /-- CHANNEL_RESET_ASSERT (R87): A low pulse on Cn_RST_N passes the ball filter and channel n enters reset. -/
  | channelResetAssert (c : Chan)
  /-- CHANNEL_RESET_RELEASE (R86): 20 us after its reset source ends, channel n leaves reset and begins boot at B1. -/
  | channelResetRelease (c : Chan)
  /-- HOST_RESET_ASSERT (R31): HRST_N low past its filter resets the host domain while the channels continue. -/
  | hostResetAssert
  /-- HOST_RESET_RELEASE (R86): 20 us after HRST_N returns high the host domain leaves reset and boots. -/
  | hostResetRelease
  /-- SWRST (R92): A keyed write of SYS_RSTCTL with SWRST = 1 resets its own channel. -/
  | swrst (c : Chan) (w : Word)
  /-- HOST_REQUEST_RESET (R89): A write of one to bit n of HSYS_CHRST resets channel n if its HOSTRST_EN is 1. -/
  | hostRequestReset (w : Word)
  /-- BOOT_PHASE_DONE (R108): A boot phase completes and the boot controller starts the next phase, or completes boot and releases the cores at B10. -/
  | bootPhaseDone (d : Dom) (r : BootReport)
  /-- B3_REFERENCE_TIMEOUT (R108): The reference is not good within 1 ms in B3, so the channel stays on RC and boot continues. -/
  | b3ReferenceTimeout (d : Dom)
  /-- REFERENCE_LOST (R95): The clock monitor declares the reference lost and a locked PLL enters holdover and raises EV_REFLOSS. -/
  | referenceLost (d : Dom)
  /-- REFERENCE_GOOD (R93): After 100 us of valid edges the reference is declared good and a holdover loop resumes. -/
  | referenceGood (d : Dom)
  /-- HOLDOVER_EXPIRY (R96): HOLD_MAX expires and CCLK switches to the RC fallback, raising EV_CLKFBK and tripping PWM. -/
  | holdoverExpiry (d : Dom)
  /-- RC_FALLBACK_SWITCH (R96): Both VCOs having failed, CCLK switches glitch-free to the RC oscillator and the channel trips. -/
  | rcFallbackSwitch (d : Dom)
  /-- APPLY (R99): A write of PLL_CTL.APPLY applies the divider and spread settings with a band search, or is refused with APPLY_ERR. -/
  | apply (d : Dom) (w : Word) (fref : Nat)
  /-- RC_RETURN (R107): A write of PLL_CTL.RC_RETURN runs a band search and returns CCLK to the PLL, or is refused. -/
  | rcReturn (d : Dom) (w : Word)
  /-- PLL_BAND_SEARCH_DONE (R101): A band search finishes, writes its hop-table entry and the PLL proceeds to phase lock. -/
  | pllBandSearchDone (d : Dom) (spare : Bool) (band : BitVec 6)
  /-- PLL_LOCK (R100): The phase error stays below 1 ns for 256 phase-detector cycles and PLL_STAT.LOCK becomes 1. -/
  | pllLock (d : Dom)
  /-- PLL_UNLOCK (R100): The phase error exceeds 2 ns for four cycles, LOCK falls, UNLK_STICKY sets and EV_PLLUNLK is raised. -/
  | pllUnlock (d : Dom)
  /-- HOP (R101): A write of PLL_HOPCTL.GO hops to the named hop-table entry or is refused with HOP_REF. -/
  | hop (d : Dom) (w : Word)
  /-- VCO_SWITCH_OVER (R102): With SPARE_AUTO = 1 the running VCO out of lock for 4 cycles starts a switch-over to the idle VCO. -/
  | vcoSwitchOver (d : Dom)
  /-- VCO_SWITCH_OVER_DONE (R102): The idle VCO locks, the post-dividers align and the CCLK multiplexer changes source. -/
  | vcoSwitchOverDone (d : Dom) (locked : Bool)
  /-- SYNC_EDGE (R104): A rising edge on Cn_SYNC aligns the post-divider to the reference or is ignored with SYNC_IGN. -/
  | syncEdge (c : Chan)
  /-- ADD (R125): rd := rs1 + rs2. -/
  | add (k : At) (rd rs1 rs2 : GReg)
  /-- SUB (R125): rd := rs1 - rs2. -/
  | sub (k : At) (rd rs1 rs2 : GReg)
  /-- AND (R125): Bitwise AND of two registers. -/
  | bAnd (k : At) (rd rs1 rs2 : GReg)
  /-- OR (R125): Bitwise OR of two registers. -/
  | bOr (k : At) (rd rs1 rs2 : GReg)
  /-- XOR (R125): Bitwise XOR of two registers. -/
  | bXor (k : At) (rd rs1 rs2 : GReg)
  /-- SHL (R125): Shift rs1 left by rs2[4:0]. -/
  | shl (k : At) (rd rs1 rs2 : GReg)
  /-- SHR (R125): Shift rs1 right logical by rs2[4:0]. -/
  | shr (k : At) (rd rs1 rs2 : GReg)
  /-- SAR (R125): Shift rs1 right arithmetic by rs2[4:0]. -/
  | sar (k : At) (rd rs1 rs2 : GReg)
  /-- SETLT (R125): rd := 1 if rs1 < rs2 signed, else 0. -/
  | setlt (k : At) (rd rs1 rs2 : GReg)
  /-- SETLTU (R125): rd := 1 if rs1 < rs2 unsigned, else 0. -/
  | setltu (k : At) (rd rs1 rs2 : GReg)
  /-- MIN (R125): Signed minimum of two registers. -/
  | min (k : At) (rd rs1 rs2 : GReg)
  /-- MAX (R125): Signed maximum of two registers. -/
  | max (k : At) (rd rs1 rs2 : GReg)
  /-- MINU (R125): Unsigned minimum of two registers. -/
  | minu (k : At) (rd rs1 rs2 : GReg)
  /-- MAXU (R125): Unsigned maximum of two registers. -/
  | maxu (k : At) (rd rs1 rs2 : GReg)
  /-- ADDS (R125): Signed sum saturated to the 32-bit range. -/
  | adds (k : At) (rd rs1 rs2 : GReg)
  /-- SUBS (R125): Signed difference saturated to the 32-bit range. -/
  | subs (k : At) (rd rs1 rs2 : GReg)
  /-- MUL (R125): rd := low 32 bits of rs1 x rs2. -/
  | mul (k : At) (rd rs1 rs2 : GReg)
  /-- MULHI_SS (R125): rd := high 32 bits of the signed x signed product. -/
  | mulhiSs (k : At) (rd rs1 rs2 : GReg)
  /-- MULHI_UU (R125): rd := high 32 bits of the unsigned x unsigned product. -/
  | mulhiUu (k : At) (rd rs1 rs2 : GReg)
  /-- MULHI_SU (R125): rd := high 32 bits of the signed x unsigned product. -/
  | mulhiSu (k : At) (rd rs1 rs2 : GReg)
  /-- DIVS (R125): Signed quotient truncated towards zero, saturating on division by zero and overflow. -/
  | divs (k : At) (rd rs1 rs2 : GReg)
  /-- DIVU (R125): Unsigned quotient, 0xFFFF_FFFF on division by zero. -/
  | divu (k : At) (rd rs1 rs2 : GReg)
  /-- MODS (R125): Signed remainder with the sign of rs1. -/
  | mods (k : At) (rd rs1 rs2 : GReg)
  /-- MODU (R125): Unsigned remainder. -/
  | modu (k : At) (rd rs1 rs2 : GReg)
  /-- CLZ (R125): rd := leading zeros of rs1. -/
  | clz (k : At) (rd rs1 : GReg)
  /-- ADD_K (R125): rd := rs1 + sign-extended immediate. -/
  | addK (k : At) (rd rs1 : GReg) (imm : BitVec 16)
  /-- SETLT_K (R125): Signed compare with the sign-extended immediate. -/
  | setltK (k : At) (rd rs1 : GReg) (imm : BitVec 16)
  /-- SETLTU_K (R125): Unsigned compare with the sign-extended immediate. -/
  | setltuK (k : At) (rd rs1 : GReg) (imm : BitVec 16)
  /-- AND_K (R125): Bitwise AND with the zero-extended immediate. -/
  | andK (k : At) (rd rs1 : GReg) (imm : BitVec 16)
  /-- OR_K (R125): Bitwise OR with the zero-extended immediate. -/
  | orK (k : At) (rd rs1 : GReg) (imm : BitVec 16)
  /-- XOR_K (R125): Bitwise XOR with the zero-extended immediate. -/
  | xorK (k : At) (rd rs1 : GReg) (imm : BitVec 16)
  /-- LDHI (R125): rd := imm << 16. -/
  | ldhi (k : At) (rd : GReg) (imm : BitVec 16)
  /-- SHL_K (R125): Shift left by imm[4:0]. -/
  | shlK (k : At) (rd rs1 : GReg) (imm : BitVec 5)
  /-- SHR_K (R125): Shift right logical by imm[4:0]. -/
  | shrK (k : At) (rd rs1 : GReg) (imm : BitVec 5)
  /-- SAR_K (R125): Shift right arithmetic by imm[4:0]. -/
  | sarK (k : At) (rd rs1 : GReg) (imm : BitVec 5)
  /-- LD_W (R126): Issue a word load from rs1 + sext(imm). -/
  | ldW (k : At) (rd rs1 : GReg) (imm : BitVec 16)
  /-- LD_H (R126): Issue a sign-extended halfword load. -/
  | ldH (k : At) (rd rs1 : GReg) (imm : BitVec 16)
  /-- LD_HU (R126): Issue a zero-extended halfword load. -/
  | ldHu (k : At) (rd rs1 : GReg) (imm : BitVec 16)
  /-- LD_B (R126): Issue a sign-extended byte load. -/
  | ldB (k : At) (rd rs1 : GReg) (imm : BitVec 16)
  /-- LD_BU (R126): Issue a zero-extended byte load. -/
  | ldBu (k : At) (rd rs1 : GReg) (imm : BitVec 16)
  /-- ST_W (R126): Issue a word store into the store buffer or posted-write queue. -/
  | stW (k : At) (rs2 rs1 : GReg) (imm : BitVec 16)
  /-- ST_H (R126): Issue a halfword store. -/
  | stH (k : At) (rs2 rs1 : GReg) (imm : BitVec 16)
  /-- ST_B (R126): Issue a byte store. -/
  | stB (k : At) (rs2 rs1 : GReg) (imm : BitVec 16)
  /-- LD_RSV (R127): Load a word and reserve it for this core. -/
  | ldRsv (k : At) (rd rs1 : GReg) (ord : AtomOrder)
  /-- ST_RSV (R127): Store rs2 if the reservation holds and report success in rd. -/
  | stRsv (k : At) (rd rs1 rs2 : GReg) (ord : AtomOrder)
  /-- ATM_SWAP (R126): Indivisibly swap a register with an SRAM word. -/
  | atmSwap (k : At) (rd rs1 rs2 : GReg) (ord : AtomOrder)
  /-- ATM_ADD (R126): Indivisibly add a register to an SRAM word, returning the old value. -/
  | atmAdd (k : At) (rd rs1 rs2 : GReg) (ord : AtomOrder)
  /-- ATM_AND (R126): Indivisibly AND a register into an SRAM word. -/
  | atmAnd (k : At) (rd rs1 rs2 : GReg) (ord : AtomOrder)
  /-- ATM_OR (R126): Indivisibly OR a register into an SRAM word. -/
  | atmOr (k : At) (rd rs1 rs2 : GReg) (ord : AtomOrder)
  /-- ATM_MAX (R126): Indivisibly take the signed maximum into an SRAM word. -/
  | atmMax (k : At) (rd rs1 rs2 : GReg) (ord : AtomOrder)
  /-- ATM_MIN (R126): Indivisibly take the signed minimum into an SRAM word. -/
  | atmMin (k : At) (rd rs1 rs2 : GReg) (ord : AtomOrder)
  /-- LOAD_RESULT (R132): An outstanding load's result returns and is written to its register, or its bus error is raised. -/
  | loadResult (d : Dom) (e : Eng) (i : Nat) (ecc : Ecc)
  /-- STORE_PERFORMED (R141): A buffered store or posted device write is performed at its target and leaves the queue. -/
  | storePerformed (d : Dom) (e : Eng) (posted : Bool) (i : Nat) (ecc : Ecc)
  /-- POSTED_STORE_BUS_ERROR (R134): A failed posted store is taken as exception 0x07 at the first boundary with EXL and NEXL clear. -/
  | postedStoreBusError (d : Dom) (e : Eng)
  /-- BR_EQ (R128): Branch if rs1 equals rs2. -/
  | brEq (k : At) (rs1 rs2 : GReg) (off : BitVec 16)
  /-- BR_NE (R128): Branch if rs1 differs from rs2. -/
  | brNe (k : At) (rs1 rs2 : GReg) (off : BitVec 16)
  /-- BR_LT (R128): Branch if rs1 < rs2 signed. -/
  | brLt (k : At) (rs1 rs2 : GReg) (off : BitVec 16)
  /-- BR_GE (R128): Branch if rs1 >= rs2 signed. -/
  | brGe (k : At) (rs1 rs2 : GReg) (off : BitVec 16)
  /-- BR_LTU (R128): Branch if rs1 < rs2 unsigned. -/
  | brLtu (k : At) (rs1 rs2 : GReg) (off : BitVec 16)
  /-- BR_GEU (R128): Branch if rs1 >= rs2 unsigned. -/
  | brGeu (k : At) (rs1 rs2 : GReg) (off : BitVec 16)
  /-- CALL (R128): Jump pc-relative, saving the return address in rd. -/
  | call (k : At) (rd : GReg) (off : BitVec 21)
  /-- CALLR (R128): Jump to rs1 + sext(imm), saving the return address in rd. -/
  | callr (k : At) (rd rs1 : GReg) (imm : BitVec 16)
  /-- SYSREQ (R129): Raise exception 0x0B or 0x0C. -/
  | sysreq (k : At)
  /-- DBGBRK (R129): Halt for debug at the next boundary when DBRKEN = 1, otherwise raise exception 0x0D. -/
  | dbgbrk (k : At)
  /-- RETM (R135): Return from the maskable path restoring pc, IE, privilege and IPL. -/
  | retm (k : At)
  /-- RETN (R136): Return from the non-maskable path restoring STATUS and privilege. -/
  | retn (k : At)
  /-- IDLE (R129): Wait until an interrupt passing IPL is pending. -/
  | idle (k : At)
  /-- IDLE_WAKE (R129): An interrupt passing IPL becomes pending and an idling core continues. -/
  | idleWake (d : Dom) (e : Eng)
  /-- CTL_SWAP (R121): Exchange a CSR with a register. -/
  | ctlSwap (k : At) (rd rs1 : GReg) (csr : BitVec 12)
  /-- CTL_SET (R121): Set CSR bits from a register and return the old value. -/
  | ctlSet (k : At) (rd rs1 : GReg) (csr : BitVec 12)
  /-- CTL_CLR (R121): Clear CSR bits from a register and return the old value. -/
  | ctlClr (k : At) (rd rs1 : GReg) (csr : BitVec 12)
  /-- FENCE_M (R144): Stall until earlier Normal-memory accesses are performed and discard prefetched instructions. -/
  | fenceM (k : At) (others : BitVec 3)
  /-- FENCE_D (R144): Stall until earlier device accesses, posted writes included, are performed. -/
  | fenceD (k : At) (others : BitVec 2)
  /-- FENCE_P (R144): Stall until earlier plan writes are performed. -/
  | fenceP (k : At) (others : BitVec 1)
  /-- FENCE_N (R144): Stall until earlier ring accesses are returned or acknowledged. -/
  | fenceN (k : At)
  /-- FENCE_ALL (R144): Stall until accesses of all four classes are performed. -/
  | fenceAll (k : At)
  /-- FENCE_RETIRE (R144): The accesses a fence waits for have drained and the fence retires. -/
  | fenceRetire (d : Dom) (e : Eng)
  /-- PLAN_COMMIT (R130): Request one atomic commit of the named plan banks and stall for its status. -/
  | planCommit (k : At) (rd rs1 : GReg) (imm : BitVec 7)
  /-- COMMIT_SWAP (R153): At the edge ending Q + 10 an accepted commit copies the named plan banks to live, or the refusal is recorded. -/
  | commitSwap (c : Chan)
  /-- EV_WAIT (R129): Wait for an event with a limit, clearing its pending flag when found. -/
  | evWait (k : At) (rd rs1 rs2 : GReg)
  /-- EV_WAIT_EXPIRY (R129): An EV.WAIT limit expires and rd := 1. -/
  | evWaitExpiry (d : Dom) (e : Eng)
  /-- EV_WAIT_SATISFIED (R129): The awaited event becomes pending and EV.WAIT retires with rd := 0. -/
  | evWaitSatisfied (d : Dom) (e : Eng)
  /-- EV_FENCE (R145): Wait until every enabled source has delivered all events stamped earlier than t. -/
  | evFence (k : At) (rs1 rs2 : GReg)
  /-- EV_FENCE_RETIRE (R145): All watermarks pass t and EV.FENCE retires. -/
  | evFenceRetire (d : Dom) (e : Eng)
  /-- LS_SPLIT (R131): Request a split of the lockstep pair and return a status. -/
  | lsSplit (k : At) (rd : GReg)
  /-- LS_JOIN (R131): Request a join at the next period boundary and return a status. -/
  | lsJoin (k : At) (rd : GReg)
  /-- CKPT (R396): Transfer the core state to LSC as the new checkpoint and close the logs. -/
  | ckpt (k : At) (rs1 : GReg)
  /-- INTERRUPT_ENTRY (R138): A pending enabled maskable interrupt is taken at an instruction boundary. -/
  | interruptEntry (d : Dom) (e : Eng)
  /-- TRIP_NOTIFICATION_ENTRY (R136): A trip-class event enters the non-maskable path at the next boundary. -/
  | tripNotificationEntry (d : Dom) (e : Eng)
  /-- EVENT_DELIVERY (R169): An event passes arbitration and reaches Weir, counters, the log and, if enabled, its pending flag. -/
  | eventDelivery (d : Dom) (ev : BitVec 7)
  /-- EVT_CLAIM (R173): A read of EVT_CLAIM returns and clears the highest pending enabled event and captures its stamp. -/
  | evtClaim (d : Dom) (e : Eng)
  /-- CMTCNT_CLEAR (R161): A write to EVT_CMTCNT clears both commit counts. -/
  | cmtcntClear (c : Chan)
  /-- RWL_WRITE (R163): A write to an RWL register is held for the next carrier boundary or collected by the live hold. -/
  | rwlWrite (c : Chan) (r : RwlReg) (w : Word)
  /-- LIVE_HOLD_RELEASE (R166): A write of HOLD := 0 makes all collected RWL writes take effect at the next boundary. -/
  | liveHoldRelease (c : Chan) (w : Word)
  /-- LIVE_HOLD_TIMEOUT (R166): LIMIT boundaries pass with HOLD = 1, the collected writes are discarded and TMO is set. -/
  | liveHoldTimeout (c : Chan)
  /-- CARRIER_BOUNDARY (R183): A new carrier period begins: phi = 0, pending RWL values take effect and EV_CBND is raised. -/
  | carrierBoundary (c : Chan)
  /-- CARRIER_STOP (R279): After RUN is committed 0 the carrier stops in the cycle of the next boundary and the outputs go low. -/
  | carrierStop (c : Chan)
  /-- EXTRAPOLATION_STALE (R180): c - t_L exceeds EXTMAX, theta holds, STALE sets and EV_ASTALE is raised. -/
  | extrapolationStale (c : Chan)
  /-- WAITA (R186): Arm a wait for the angle coordinate to cross a target. -/
  | waita (k : WAt) (dir : BitVec 2) (past rel : Bool) (kr : BitVec 2) (lim : BitVec 3) (addr : BitVec 13) (imm : Word)
  /-- WAITC (R186): Arm a forward wait for the carrier coordinate to cross a target. -/
  | waitc (k : WAt) (dir : BitVec 2) (past rel : Bool) (kr : BitVec 2) (lim : BitVec 3) (addr : BitVec 13) (imm : Word)
  /-- WAITE (R196): Arm a wait for a channel event stamped at or after the arming cycle. -/
  | waite (k : WAt) (lim : BitVec 3) (addr : BitVec 13) (imm : Word)
  /-- WAIT_SATISFIED (R186): A coordinate or event wait is satisfied and its thread becomes ready. -/
  | waitSatisfied (c : Chan) (t : Thread)
  /-- WAIT_EXPIRY (R189): A wait's limit expires, the thread continues at ADDR and EV_WEXP is raised. -/
  | waitExpiry (c : Chan) (t : Thread)
  /-- STROBE (R198): Pulse the selected strobe lines for one CCLK. -/
  | strobe (k : WAt) (imm : Word)
  /-- WEIR_START (R196): Request Cascade to start at an entry without waiting. -/
  | weirStart (k : WAt) (imm : Word)
  /-- WEIR_COMMIT (R200): Issue a Weir commit of the masked banks with Q in the issue cycle. -/
  | weirCommit (k : WAt) (imm : Word)
  /-- WEIR_SIGNAL (R196): Raise EV_WSIGn with an argument. -/
  | weirSignal (k : WAt) (imm : Word)
  /-- LDK (R196): Load a k register with an immediate. -/
  | ldk (k : WAt) (kr : BitVec 2) (imm : Word)
  /-- ADDK (R196): Add an immediate to a k register modulo 2^32. -/
  | addk (k : WAt) (kr : BitVec 2) (imm : Word)
  /-- CAPK (R196): Capture theta or phi into a k register. -/
  | capk (k : WAt) (kr : BitVec 2) (imm : Word)
  /-- DJNZ (R196): Decrement a k register and branch if non-zero. -/
  | djnz (k : WAt) (kr : BitVec 2) (addr : BitVec 13)
  /-- JMP (R196): Jump the thread to ADDR. -/
  | jmp (k : WAt) (addr : BitVec 13)
  /-- WEIR_BR (R197): Branch the thread if a Weir condition holds. -/
  | weirBr (k : WAt) (cond : BitVec 4) (addr : BitVec 13)
  /-- CHKARM (R201): Consume an arm flag if set, otherwise branch to ADDR. -/
  | chkarm (k : WAt) (addr : BitVec 13) (imm : Word)
  /-- WEIR_STOP (R196): Stop the thread. -/
  | weirStop (k : WAt)
  /-- WEIR_ARM (R201): A W1S write to WEIR_ARM sets arm flags for CHKARM. -/
  | weirArm (c : Chan) (w : Word)
  /-- WEIR_DISARM (R201): A write to WEIR_DISARM clears arm flags without consuming them. -/
  | weirDisarm (c : Chan) (w : Word)
  /-- HANDOVER_COMMIT (R205): In the transition period the remaining angle falls within 11 omega and the hand-over commit is requested. -/
  | handoverCommit (c : Chan)
  /-- SYNC_EXIT_COMMIT (R207): In the last synchronous period phi nears 2^32 and the exit commit is requested. -/
  | syncExitCommit (c : Chan)
  /-- SYNC_PERIOD_TIMEOUT (R209): A synchronous period lasts STMAX CCLK and causes a forced exit with cause 0x5. -/
  | syncPeriodTimeout (c : Chan)
  /-- ENCODER_STEP (R218): A filtered A/B change moves the count or, on a double change, infers or holds with EV_QERR. -/
  | encoderStep (c : Chan) (ab : BitVec 2)
  /-- ENCODER_INDEX (R219): A rising filtered Z edge captures and may re-sync the count per ZMODE. -/
  | encoderIndex (c : Chan)
  /-- ENCODER_LINE_FAULT (R220): A pair stays below threshold for LFT x 100 CCLK, LFAULT sets and AVALID falls. -/
  | encoderLineFault (c : Chan) (pairs : BitVec 3)
  /-- ENCODER_LINE_FAULT_END (R220): The line fault ends and LFAULT clears. -/
  | encoderLineFaultEnd (c : Chan)
  /-- RESOLVER_PAIR (R223): An accepted resolver sample pair updates the tracking loop and its lock state. -/
  | resolverPair (c : Chan) (p : ResolverPair)
  /-- SSI_FRAME_END (R225): An SSI frame completes and delivers its latch or is discarded with EV_SSIERR. -/
  | ssiFrameEnd (c : Chan) (bits : BitVec 48) (lowAtStart : Bool)
  /-- HALL_CHANGE (R227): A filtered Hall code change moves the count by sector difference or raises EV_HALLERR. -/
  | hallChange (c : Chan) (code : BitVec 3)
  /-- POSITION_LATCH_STROBE (R228): A latch strobe reaches POS, which forms theta_L, omega_L and t_L or starts an SSI frame. -/
  | positionLatchStrobe (c : Chan)
  /-- POSITION_LATCH_DELIVERY (R228): POS delivers a latch to WEIR, writes the latch registers and raises EV_PLATCH. -/
  | positionLatchDelivery (c : Chan)
  /-- STANDSTILL_TIMEOUT (R233): No count edge for ZTMO CCLK makes omega_L zero and raises EV_PSTILL. -/
  | standstillTimeout (c : Chan)
  /-- POS_CNTSET (R220): A write of POS_CNTSET presets the encoder or resolver count. -/
  | posCntset (c : Chan) (w : Word)
  /-- POS_ERRCNT_CLEAR (R238): A write to POS_ERRCNT clears its four counts. -/
  | posErrcntClear (c : Chan)
  /-- EMULATION_STEP (R236): After EMMIN the next backlog step drives Cn_EMA/Cn_EMB. -/
  | emulationStep (c : Chan)
  /-- POSITION_COMPARE_FIRE (R246): phi reaches a trigger position and fires ADC line n. -/
  | positionCompareFire (c : Chan) (n : BitVec 3)
  /-- XCMP_FIRE (R294): An extra compare fires and is delivered to ADC trigger line n. -/
  | xcmpFire (c : Chan) (n : BitVec 3)
  /-- TRIGGER_FIRE (R254): A trigger line's firing reaches ADC and starts a group or becomes pending or is dropped. -/
  | triggerFire (c : Chan) (n : BitVec 3)
  /-- CONVERSION_STORE (R251): A conversion's calibrated result and rover check are stored in the result area. -/
  | conversionStore (c : Chan) (v : Volts3) (vr : Int) (vref : Nat) (e : CodeErrors)
  /-- GROUP_END (R251): A group ends, raises EV_GDONEn and a pending group starts. -/
  | groupEnd (c : Chan)
  /-- SUBCMD (R260): A write of ADC_SUBCMD.GO substitutes the rover for a slot from the next group. -/
  | subcmd (c : Chan) (w : Word)
  /-- REF_READY_RISE (R242): The reference buffer settles in its window for the required time and REF_READY rises. -/
  | refReadyRise (c : Chan)
  /-- REF_READY_FALL (R242): The reference leaves its window for 16 CCLK, REF_READY falls and REFLOST sets. -/
  | refReadyFall (c : Chan)
  /-- SD_WORD_COMPLETE (R262): A sigma-delta demodulator completes a decimated word. -/
  | sdWordComplete (c : Chan) (q : BitVec 3) (w : SdSum)
  /-- SD_STREAM_STUCK (R262): A stream holds one level for 64 bits and EV_SDFLT is raised. -/
  | sdStreamStuck (c : Chan) (q : BitVec 3)
  /-- FAST_COMPARATOR_CHANGE (R263): A fast comparator output changes and, when active, feeds the trip logic and raises EV_FCMPk. -/
  | fastComparatorChange (c : Chan) (q : BitVec 2) (v : Int)
  /-- COMPARATOR_SETTLE_END (R264): The 8 CCLK DAC settling hold after a threshold change ends and the output shows the new comparison. -/
  | comparatorSettleEnd (c : Chan) (q : BitVec 3) (v : Int)
  /-- CAL_ZERO_STEP (R268): An ADC_CALGO write with STEP = 0b01 starts a zero calibration step or is refused. -/
  | calZeroStep (c : Chan) (w : Word)
  /-- CAL_FULL_SCALE_STEP (R268): An ADC_CALGO write with STEP = 0b10 starts a full-scale calibration step or is refused. -/
  | calFullScaleStep (c : Chan) (w : Word)
  /-- CAL_STEP_DONE (R269): A calibration step ends, writing coefficients or reporting ERR. -/
  | calStepDone (c : Chan) (s0 s1 s2 s3 : Nat)
  /-- ADC_ERRCNT_CLEAR (R271): A write to ADC_ERRCNT clears its four counts. -/
  | adcErrcntClear (c : Chan)
  /-- SLOW_ROUND (R441): Every 20,000 safety-oscillator cycles THM converts sensors and supplies and updates the band. -/
  | slowRound (d : Dom) (m : SlowRound)
  /-- PULSE_DECISION (R286): A leg's pulse decision applies minimum pulse, carry and bootstrap limits. -/
  | pulseDecision (c : Chan) (leg : BitVec 3)
  /-- COMPARE_FIRE (R283): A compare instant fires a switch-off edge and starts the dead time of the partner. -/
  | compareFire (c : Chan) (leg : BitVec 3) (second : Bool)
  /-- DEAD_TIME_END (R289): The dead time ends and the incoming switch turns on through interlock and mask. -/
  | deadTimeEnd (c : Chan) (leg : BitVec 3)
  /-- NODE_CROSSING (R290): The switching node crosses its threshold and the adapted dead time is recomputed. -/
  | nodeCrossing (c : Chan) (leg : BitVec 3) (x : NodeLevel)
  /-- TRIP_INPUT_ASSERT (R371): A filtered trip input asserts and, if enabled and not blanked, reaches PWM. -/
  | tripInputAssert (c : Chan) (m : BitVec 3)
  /-- BLANKING_WINDOW_END (R296): A blanking window ends and a still-asserted request acts. -/
  | blankingWindowEnd (c : Chan) (m : BitVec 3)
  /-- ASC_SWITCH_ON (R299): An ASC-group switch turns on DT_MIN after its partner went off. -/
  | ascSwitchOn (c : Chan) (x : BitVec 5)
  /-- SWTRIP (R295): A write of PWM_TRIPCMD.SWTRIP sets the trip latch with request 14. -/
  | swtrip (c : Chan) (w : Word)
  /-- TRIP_CLEAR (R301): A write of PWM_TRIPCMD.CLR clears the trip latch or is refused with STILL. -/
  | tripClear (c : Chan) (w : Word)
  /-- PWM_ERRCNT_CLEAR (R306): A write to PWM_ERRCNT clears its four counts. -/
  | pwmErrcntClear (c : Chan)
  /-- CASCADE_START_REQUEST (R317): A start request reaches CAS and begins a run, becomes pending or is dropped. -/
  | cascadeStartRequest (c : Chan)
  /-- CAS_CMD_START (R317): A write of CAS_CMD.START issues a test start request at ENTRY. -/
  | casCmdStart (c : Chan) (w : Word)
  /-- RCSET (R330): A write of CAS_CMD.RCSET sets the bin index to BIN. -/
  | rcset (c : Chan) (w : Word)
  /-- CAPARM (R333): A write of CAS_CMD.CAPARM arms the capture buffer. -/
  | caparm (c : Chan) (w : Word)
  /-- CAPSTOP (R333): A write of CAS_CMD.CAPSTOP moves capture to Done. -/
  | capstop (c : Chan) (w : Word)
  /-- VLD (R325): Load 16 data words into a vector register. -/
  | vld (k : CAt) (vd : VReg) (x : BitVec 14)
  /-- VST (R325): Store a vector register into 16 data words. -/
  | vst (k : CAt) (va : VReg) (x : BitVec 14)
  /-- VLDS (R325): Load one data word into every lane. -/
  | vlds (k : CAt) (vd : VReg) (x : BitVec 14)
  /-- LDR (R325): Load an ADC result area half into lanes and set SST, TAG and CLIP. -/
  | ldr (k : CAt) (vd : VReg) (x : BitVec 14)
  /-- LDA (R325): Load theta, extrapolated theta, omega_L or phi into every lane. -/
  | lda (k : CAt) (vd : VReg) (x : BitVec 14)
  /-- LDREF (R325): Load a reference in use into every lane. -/
  | ldref (k : CAt) (vd : VReg) (x : BitVec 14)
  /-- MOV (R325): Copy a vector register. -/
  | mov (k : CAt) (vd va : VReg)
  /-- SPLAT (R325): Copy one lane into every lane. -/
  | splat (k : CAt) (vd va : VReg) (x : BitVec 14)
  /-- PERM (R325): Permute lanes by a table in data memory. -/
  | perm (k : CAt) (vd va : VReg) (x : BitVec 14)
  /-- SETE (R325): Set a register's exponent. -/
  | sete (k : CAt) (vd : VReg) (x : BitVec 14)
  /-- VADD (R325): Aligned lane-wise addition. -/
  | vadd (k : CAt) (vd va vb : VReg)
  /-- VSUB (R325): Aligned lane-wise subtraction. -/
  | vsub (k : CAt) (vd va vb : VReg)
  /-- VADDW (R325): Wrapping mantissa addition. -/
  | vaddw (k : CAt) (vd va vb : VReg)
  /-- VMUL (R325): Lane-wise multiplication. -/
  | vmul (k : CAt) (vd va vb : VReg)
  /-- VNEG (R325): Lane-wise negation. -/
  | vneg (k : CAt) (vd va : VReg)
  /-- VABS (R325): Lane-wise magnitude. -/
  | vabs (k : CAt) (vd va : VReg)
  /-- VMIN (R325): Lane-wise minimum. -/
  | vmin (k : CAt) (vd va vb : VReg)
  /-- VMAX (R325): Lane-wise maximum. -/
  | vmax (k : CAt) (vd va vb : VReg)
  /-- VMAC (R325): Multiply-accumulate into an accumulator. -/
  | vmac (k : CAt) (ac : BitVec 2) (va vb : VReg)
  /-- ACLR (R325): Clear an accumulator and set its exponent. -/
  | aclr (k : CAt) (ac : BitVec 2) (x : BitVec 14)
  /-- ACCR (R325): Round an accumulator into a vector register. -/
  | accr (k : CAt) (vd : VReg) (ac : BitVec 2)
  /-- NORM (R325): Normalise a vector register. -/
  | norm (k : CAt) (vd va : VReg)
  /-- NORMX (R325): Shift a vector register to a given exponent. -/
  | normx (k : CAt) (vd va : VReg) (x : BitVec 14)
  /-- TST (R325): Set T from the sign of one lane. -/
  | tst (k : CAt) (va : VReg) (x : BitVec 14)
  /-- CLARKE (R326): Clarke transform per quad. -/
  | clarke (k : CAt) (vd va : VReg)
  /-- ICLARKE (R326): Inverse Clarke transform per quad. -/
  | iclarke (k : CAt) (vd va : VReg)
  /-- PARK (R326): Park transform per quad. -/
  | park (k : CAt) (vd va vb : VReg)
  /-- IPARK (R326): Inverse Park transform per quad. -/
  | ipark (k : CAt) (vd va vb : VReg)
  /-- SINCOS (R326): CORDIC sine and cosine per quad. -/
  | sincos (k : CAt) (vd va : VReg)
  /-- PI (R326): Proportional-integral step with limits and anti-windup. -/
  | pi (k : CAt) (vd va vb : VReg) (x : BitVec 14)
  /-- TINT (R327): Table interpolation per lane. -/
  | tint (k : CAt) (vd va : VReg) (x : BitVec 14)
  /-- RCL (R330): Repetitive-controller learning step and output. -/
  | rcl (k : CAt) (vd va : VReg)
  /-- RCR (R330): Read the learned repetitive-controller outputs. -/
  | rcr (k : CAt) (vd : VReg)
  /-- INJ (R332): Add the injection signal at an enabled point. -/
  | inj (k : CAt) (vd va : VReg) (x : BitVec 14)
  /-- OUT (R328): Write leg references into PWM_REFk. -/
  | out (k : CAt) (va : VReg)
  /-- CAP (R333): Store one capture sample. -/
  | cap (k : CAt) (va : VReg)
  /-- PUTPOS (R329): Deliver observer angle, speed, stamp and validity to POS. -/
  | putpos (k : CAt) (va : VReg) (x : BitVec 14)
  /-- CAS_SIG (R326): Raise EV_CSIG. -/
  | casSig (k : CAt) (x : BitVec 14)
  /-- CAS_BR (R322): Branch the run on a Cascade condition. -/
  | casBr (k : CAt) (cond : BitVec 4) (x : BitVec 14)
  /-- NOP (R326): Do nothing for one cycle. -/
  | nop (k : CAt)
  /-- CAS_END (R318): End the run, record its length, raise EV_CDONE and take a pending request. -/
  | casEnd (k : CAt)
  /-- RUNMAX_EXPIRY (R319): A run lasts RUNMAX CCLK and aborts with code 0x5. -/
  | runmaxExpiry (c : Chan)
  /-- BIN_ADVANCE (R330): A bin-advance strobe steps the repetitive-controller bin index. -/
  | binAdvance (c : Chan)
  /-- INJECTION_STEP (R331): The injection generator takes one step. -/
  | injectionStep (c : Chan)
  /-- CAPTURE_TRIGGER (R333): A capture trigger strobe moves an armed capture to Triggered. -/
  | captureTrigger (c : Chan)
  /-- CAPD23_READ (R333): A read of CAS_CAPD23 returns signals 2 and 3 and advances CAPIDX. -/
  | capd23Read (c : Chan)
  /-- RUNPK_CLEAR (R336): A write to CAS_RUNPK clears the peak run length. -/
  | runpkClear (c : Chan)
  /-- RUNREQ (R345): A CAS_MSCMD write of RUNREQ is held and applied at the next boundary. -/
  | runreq (c : Chan) (w : Word)
  /-- STOPREQ (R345): A CAS_MSCMD write of STOPREQ is held and applied at the next boundary. -/
  | stopreq (c : Chan) (w : Word)
  /-- REQFWD (R348): A CAS_MSCMD write of REQFWD requests forward direction at the next boundary. -/
  | reqfwd (c : Chan) (w : Word)
  /-- REQREV (R348): A CAS_MSCMD write of REQREV requests backward direction at the next boundary. -/
  | reqrev (c : Chan) (w : Word)
  /-- LLACK (R354): A CAS_MSCMD write of LLACK ends the link-loss policy at the next boundary if the link is back. -/
  | llack (c : Chan) (w : Word)
  /-- LOCKED_ROTOR_DETECT (R349): The locked-rotor timer reaches LRWIN and LOCKED sets with the LRACT action. -/
  | lockedRotorDetect (c : Chan)
  /-- LINK_HOLD_EXPIRY (R354): The link-loss hold time elapses and the torque ramp to zero begins. -/
  | linkHoldExpiry (c : Chan)
  /-- CATCH_END (R344): CNT reaches NCATCH and the supervisor enters RUN with zero torque. -/
  | catchEnd (c : Chan)
  /-- COAST_EXPIRY (R344): CNT reaches NCOAST in COAST and the supervisor trips by safe(0x2). -/
  | coastExpiry (c : Chan)
  /-- CASCADE_WATCHDOG_EXPIRY (R355): No Cascade run completes within CDWIN and the supervisor trips by safe(0x7). -/
  | cascadeWatchdogExpiry (c : Chan)
  /-- MSCNT_CLEAR (R363): A write to CAS_MSCNT clears its four counts. -/
  | mscntClear (c : Chan)
  /-- THREE_PIN_MODE_ENTRY (R365): Filtered Cn_GSEL high with TPEN = 1 enters three-pin mode. -/
  | threePinModeEntry (c : Chan)
  /-- THREE_PIN_MODE_EXIT (R368): Three-pin mode ends, legs go to state 0 and modulation resumes at the next boundary. -/
  | threePinModeExit (c : Chan)
  /-- GIN_CODE_ACCEPT (R366): A GIN code held for 4 CCLK is accepted and applied or made to wait for TPMIN. -/
  | ginCodeAccept (c : Chan) (code : BitVec 3)
  /-- GIN_DWELL_END (R366): TPMIN after the last applied change, the last waiting code is applied. -/
  | ginDwellEnd (c : Chan)
  /-- GATE_FAULT_LATCH (R369): An active filtered driver fault sets the per-switch latch and forces the ball low. -/
  | gateFaultLatch (c : Chan) (x : BitVec 5)
  /-- OVERVOLTAGE_STAGE2 (R372): Stage 2 is active for OV2FLT + 1 CCLK and delivers trip request 12. -/
  | overvoltageStage2 (x : VdcLevel)
  /-- BRAKE_STAGE1_ON (R375): Stage 1 activates and Cn_BRK goes high per BRKMODE. -/
  | brakeStage1On (x : VdcLevel)
  /-- BRAKE_STAGE1_OFF (R375): Stage 1 deactivates and Cn_BRK goes low once BRKMIN has passed. -/
  | brakeStage1Off (x : VdcLevel)
  /-- BRAKE_INTERVAL_END (R375): A chopper on or off interval ends and Cn_BRK toggles. -/
  | brakeIntervalEnd (c : Chan)
  /-- DSTART (R377): A write of GDI_CMD.DSTART starts a discharge or is refused. -/
  | dstart (c : Chan) (w : Word)
  /-- DSTOP (R378): A write of GDI_CMD.DSTOP ends the discharge. -/
  | dstop (c : Chan) (w : Word)
  /-- DISCHARGE_FEEDBACK (R378): Cn_DSCHFB changes and moves the discharge phase or raises a feedback fault. -/
  | dischargeFeedback (c : Chan) (active : Bool)
  /-- DISCHARGE_FEEDBACK_TIMEOUT (R378): No feedback by d + 400 x DFBT sets DFBF. -/
  | dischargeFeedbackTimeout (c : Chan)
  /-- DISCHARGE_VOLTAGE_CHANGE (R378): The discharge comparator holds 16 CCLK and the phase moves between voltage wait and done. -/
  | dischargeVoltageChange (c : Chan) (v : Int)
  /-- DISCHARGE_VOLTAGE_TIMEOUT (R378): The voltage is not reached by DSCHT and DTMOF sets. -/
  | dischargeVoltageTimeout (c : Chan)
  /-- DISCHARGE_MAX_EXPIRY (R378): DSCHMAX ends the discharge. -/
  | dischargeMaxExpiry (c : Chan)
  /-- BOOTSTRAP_CHARGE_ENTRY (R381): The undervoltage count reaches BSUVN and the leg enters the charge state. -/
  | bootstrapChargeEntry (c : Chan) (leg : BitVec 3)
  /-- GDI_ERRCNT_CLEAR (R383): A write to GDI_ERRCNT clears its four counts. -/
  | gdiErrcntClear (c : Chan)
  /-- LOCKSTEP_MISMATCH (R389): A compared group differs, both cores are held and self-test begins. -/
  | lockstepMismatch (d : Dom) (grp : BitVec 6)
  /-- SELF_TEST_DONE (R390): The self-test verdict decides retirement, state load, transient rejoin or restoration. -/
  | selfTestDone (d : Dom) (mainFails shadowFails : Bool)
  /-- STATE_LOAD_DONE (R390): A state load or state comparison completes and execution resumes. -/
  | stateLoadDone (d : Dom) (equal : Bool)
  /-- RESTORATION_DONE (R392): Undo and replay from the checkpoint complete and normal execution resumes. -/
  | restorationDone (d : Dom) (journalEcc logEcc : Bool)
  /-- CHECKPOINT_OVERDUE (R398): No checkpoint becomes current for CKMAX CCLK and CKOLD sets. -/
  | checkpointOverdue (d : Dom)
  /-- SPLIT_EFFECT (R400): An accepted split takes effect and the former shadow starts as an independent core. -/
  | splitEffect (d : Dom)
  /-- JOIN_EFFECT (R401): An accepted join takes effect and the split core becomes shadow again. -/
  | joinEffect (d : Dom)
  /-- SPLITMAX_EXPIRY (R401): A split lasts SPLITMAX x 1,000 CCLK and LSC requests a join. -/
  | splitmaxExpiry (d : Dom)
  /-- CODE_CHECK_PASS (R407): A background CRC pass over the active code bank completes and a mismatch sets CODEERR. -/
  | codeCheckPass (d : Dom) (mismatch : Bool)
  /-- LSC_CNT_CLEAR (R409): A write to LSC_CNT clears its four counts. -/
  | lscCntClear (d : Dom)
  /-- STO_INPUT_CHANGE (R413): A filtered STO input changes level and the STO demand is re-evaluated. -/
  | stoInputChange (c : Chan) (inB level : Bool)
  /-- STO_DELAY_TIMER_EXPIRY (R413): An input delay timer reaches SS1T and asserts its disable element. -/
  | stoDelayTimerExpiry (c : Chan) (inB : Bool)
  /-- STO_DISCREPANCY (R416): The inputs differ for DISC ms, DISCF sets and EV_STO 0x3 is raised. -/
  | stoDiscrepancy (c : Chan)
  /-- STORST (R415): A write of SAFE_CMD.STORST clears RESTWAIT. -/
  | storst (c : Chan) (w : Word)
  /-- STOTEST (R418): A write of SAFE_CMD.STOTEST starts the readback test of the disable elements. -/
  | stotest (c : Chan) (w : Word)
  /-- STO_TEST_DONE (R418): The readback test ends and passes or sets STOTF. -/
  | stoTestDone (c : Chan) (pass : Bool)
  /-- SS1REQ (R419): A write of SAFE_CMD.SS1REQ starts safe stop 1. -/
  | ss1req (c : Chan) (w : Word)
  /-- SS1CLR (R421): A write of SAFE_CMD.SS1CLR ends a software SS1. -/
  | ss1clr (c : Chan) (w : Word)
  /-- SS1_TIMER_EXPIRY (R420): The SS1T timer expires and SS1 enters its STO phase. -/
  | ss1TimerExpiry (c : Chan)
  /-- CONTACTOR_CLOSE (R422): A SAFE_KCMD CLOSE bit drives Cn_KOUTk high or is refused while faulted. -/
  | contactorClose (c : Chan) (w : Word)
  /-- CONTACTOR_OPEN (R422): A SAFE_KCMD OPEN bit drives Cn_KOUTk low. -/
  | contactorOpen (c : Chan) (w : Word)
  /-- CONTACTOR_FEEDBACK_CHANGE (R423): Filtered feedback changes and confirms or reports a dropped-out or uncommanded contactor. -/
  | contactorFeedbackChange (c : Chan) (q : BitVec 2) (level : Bool)
  /-- CONTACTOR_TIME_LIMIT (R423): KCLT or KOPT expires without matching feedback and a fault is set. -/
  | contactorTimeLimit (c : Chan) (q : BitVec 2)
  /-- KCLR (R424): A write of SAFE_CMD.KCLR clears contactor faults whose feedback reports open. -/
  | kclr (c : Chan) (w : Word)
  /-- TORQUE_ESTIMATE (R427): The plausibility unit estimates torque and counts a failing comparison. -/
  | torqueEstimate (c : Chan)
  /-- TPSTALE_EXPIRY (R429): No estimate for TPSTALE x 1,000 CCLK suspends the unit and, with TPREQ, acts as a failure. -/
  | tpstaleExpiry (c : Chan)
  /-- HALT_GUARD_EXPIRY (R432): The halt guard reaches HGTIME, HGACT sets and the safe state is applied. -/
  | haltGuardExpiry (c : Chan)
  /-- HGCLR (R433): A write of SAFE_CMD.HGCLR clears HGACT outside debug halt. -/
  | hgclr (c : Chan) (w : Word)
  /-- SAFE_UNLOCK (R436): A write to SAFE_UNLOCK unlocks with the password or counts a failure toward lockout. -/
  | safeUnlock (c : Chan) (w : Word)
  /-- RELOCK (R436): A write of SAFE_LOCKCTL.RELOCK locks the configuration. -/
  | relock (c : Chan) (w : Word)
  /-- UNLOCK_TIMEOUT (R436): 60 s after unlock UNLOCKED clears. -/
  | unlockTimeout (c : Chan)
  /-- LABENTER (R434): A write of LABENTER while unlocked enters lab mode. -/
  | labenter (c : Chan) (w : Word)
  /-- LABEXIT (R434): A write of LABEXIT leaves lab mode. -/
  | labexit (c : Chan) (w : Word)
  /-- OSC_WINDOW_CHECK (R410): Each 1,000 safety-oscillator cycles the CCLK count is checked and OSCF set if off by 8 %. -/
  | oscWindowCheck (c : Chan) (first count : Nat)
  /-- LOG_ENTRY_WRITE (R438): A queued change-log entry is written to NVM and EV_SAFEDIAG 0x9 is raised. -/
  | logEntryWrite (c : Chan)
  /-- LOGD4_READ (R440): A read of SAFE_LOGD4 returns word D4 and advances LOGIDX. -/
  | logd4Read (c : Chan)
  /-- THERMAL_SHUTDOWN (R446): A die sensor exceeds 165 C and holds its domain in reset. -/
  | thermalShutdown (d : Dom) (sensor : BitVec 2)
  /-- THERMAL_RESTART (R447): Sensors below 145 C for 100 ms release the thermal reset if SDCNT allows. -/
  | thermalRestart (d : Dom)
  /-- SDCLR (R447): A write of THM_SDCFG.SDCLR clears SDCNT. -/
  | sdclr (d : Dom) (w : Word)
  /-- OUTPUT_STAGE_FAULT (R450): A ball mismatch for RBWIN CCLK switches to the spare stage or declares a ball fault. -/
  | outputStageFault (c : Chan) (x : BitVec 5)
  /-- OUTPUT_STAGE_CHANGE (R450): When command low and no edge due, a wear change moves drive to the other stage. -/
  | outputStageChange (c : Chan) (x : BitVec 5)
  /-- COMPARATOR_TEST_DONE (R451): The roving test ends, reconnecting or retiring the working cell. -/
  | comparatorTestDone (c : Chan) (offset : BitVec 16) (found : Bool)
  /-- ROW_REPAIR_DONE (R454): A row copy into a spare row completes and the address remaps. -/
  | rowRepairDone (d : Dom) (m : RowMem) (row : Nat)
  /-- MARGIN_READ_PASS (R455): A margin-read pass completes and failing rows join the repair list. -/
  | marginReadPass (d : Dom) (failing : List Nat)
  /-- LIVE_BANK_PARITY_ERROR (R456): A live-bank parity error sets LBPAR and may request a trip. -/
  | liveBankParityError (c : Chan) (x : ParityLoss)
  /-- WEAR_RECORD_SAVE (R459): Every 60 s or on a switch-in SPR saves the wear record. -/
  | wearRecordSave (d : Dom) (ok : Bool)
  /-- SPR_CHANGE_STAGE (R450): SPR_CMD ACT 0b001 requests an output-stage change. -/
  | sprChangeStage (c : Chan) (w : Word)
  /-- SPR_SPARE_CELL (R464): SPR_CMD ACT 0b010 puts the spare comparator cell in service. -/
  | sprSpareCell (c : Chan) (w : Word)
  /-- SPR_SAVE_RECORD (R459): SPR_CMD ACT 0b011 saves the wear record. -/
  | sprSaveRecord (d : Dom) (w : Word)
  /-- PORT_ENABLE (R468): A write of RING_CTL.PORTEN enables or disables both ring ports. -/
  | portEnable (w : Word)
  /-- BYPASS_CHANGE (R70): The ring by-pass opens or closes and interrupts the signal for up to 2 us. -/
  | bypassChange
  /-- LINK_UP (R467): A port receives 256 valid aligned code groups and goes UP. -/
  | linkUp (p : Port)
  /-- LINK_DOWN (R467): A port goes DOWN and, with WRAPEN, wraps. -/
  | linkDown (p : Port)
  /-- UNWRAP (R487): A port UP for UNWRAPT ends its wrap at the next frame gap. -/
  | unwrap (p : Port)
  /-- FRAME_RECEIVE (R472): A received frame's header is checked and it is stripped, taken, discarded or forwarded. -/
  | frameReceive (p : Port) (f : List Byte)
  /-- FRAME_SEND (R474): A node starts one of its own waiting frames on an idle transmitter. -/
  | frameSend (p : Port)
  /-- CYCLE_START (R475): The master's ring time reaches a multiple of CYCPER and it sends time and cyclic frames. -/
  | cycleStart
  /-- CYCLIC_TX_PREPARE (R478): CPREP before a cycle start a TX entry reads its source words. -/
  | cyclicTxPrepare
  /-- CYCLIC_FRAME (R478): A cyclic frame passes, TX entries overwrite slots and RX entries capture them. -/
  | cyclicFrame (p : Port) (f : List Byte)
  /-- CYCLIC_RX_COPY (R478): Captured slot words are copied to a mailbox or RING_CRX in descending order. -/
  | cyclicRxCopy (q : BitVec 4)
  /-- TIME_FRAME (R477): A time frame is corrected and forwarded, and the node's ring time is trimmed or stepped. -/
  | timeFrame (p : Port) (f : List Byte) (own : Nat)
  /-- RING_TIME_INVALID (R477): 16 cycles without a usable time frame clear RTVALID. -/
  | ringTimeInvalid
  /-- CYCLE_MISS (R479): No valid cyclic frame by the next cycle start counts a missed cycle and may set RLOST. -/
  | cycleMiss
  /-- REMOTE_READ (R482): A remote read request is performed or refused and answered with a response. -/
  | remoteRead (p : Port) (src : BitVec 4) (tag : BitVec 8) (addr : BitVec 32) (rcnt : Nat)
  /-- REMOTE_WRITE (R482): A remote write request is applied in descending order or refused and answered. -/
  | remoteWrite (p : Port) (src : BitVec 4) (tag : BitVec 8) (addr : BitVec 32) (data : List Word)
  /-- RESPONSE (R485): A response completes the outstanding ring access of its tag. -/
  | response (tag : BitVec 8) (stat : BitVec 4) (data : Word)
  /-- REMOTE_ACCESS_TIMEOUT (R484): No response within RATMO resends the request or completes it with status 0x4. -/
  | remoteAccessTimeout (tag : BitVec 8)
  /-- NEIGHBOUR_DELAY_REQUEST (R486): A neighbour delay request is answered by the packet engine. -/
  | neighbourDelayRequest (p : Port)
  /-- NEIGHBOUR_DELAY_REPLY (R477): A neighbour delay reply sets the measured link delay. -/
  | neighbourDelayReply (p : Port) (delay : BitVec 16)
  /-- LINK_DELAY_MEASURE (R477): Every 1 s a node starts a neighbour delay exchange on each link. -/
  | linkDelayMeasure (p : Port)
  /-- DISCOVERY (R486): A discovery broadcast is answered with the node information. -/
  | discovery (p : Port) (src : BitVec 4)
  /-- EVENT_REPORT (R486): An event-report management frame is taken for host software. -/
  | eventReport (p : Port) (src : BitVec 4) (events : List Nat)
  /-- UPDATE_CHUNK (R508): An update chunk is checked and queued for writing or refused. -/
  | updateChunk (p : Port) (src : BitVec 4) (tag : BitVec 8) (head : Word) (data : List Word)
  /-- UPDATE_CHUNK_WRITTEN (R508): A buffered chunk is written and answered with status 0x0. -/
  | updateChunkWritten
  /-- RING_TIME_CAPTURE (R489): A read of MBX_RTLO or RING_RTLO captures ring time and TIME together. -/
  | ringTimeCapture (d : Dom)
  /-- MBX_DOOR (R492): A write to MBX_DOOR raises EV_HCDOOR with the value. -/
  | mbxDoor (c : Chan) (w : Word)
  /-- RING_ERRCNT_CLEAR (R491): A write to RING_ERRCNT clears its four counts. -/
  | ringErrcntClear
  /-- STAGING_OPEN (R508): A keyed UPD_STGCTL.OPEN opens a staging session. -/
  | stagingOpen (w : Word)
  /-- STAGING_SEAL (R509): A keyed UPD_STGCTL.SEAL requests sealing once taken chunks are written. -/
  | stagingSeal (w : Word)
  /-- STAGING_SEAL_DONE (R509): All taken chunks are written, PENDING := 1 and STG becomes sealed. -/
  | stagingSealDone
  /-- STAGING_CLOSE (R509): A keyed UPD_STGCTL.CLOSE ends the session without pending. -/
  | stagingClose (w : Word)
  /-- REVERT (R514): A keyed UPD_CMD.REVERT sets REVPEND when a revert is possible. -/
  | revert (w : Word)
  /-- CANCEL (R518): A keyed UPD_CMD.CANCEL clears PENDING and REVPEND. -/
  | cancel (w : Word)
  /-- UPD_CNT_CLEAR (R518): A write to UPD_CNT clears its three counts. -/
  | updCntClear
  /-- HOST_ROM_PHASE_DONE (R510): A host ROM phase H6 to H11 completes and the next begins or the host cores are released. -/
  | hostRomPhaseDone (r : RomReport)
  /-- DEBUG_READ (R528): A debug port read transaction is performed and answered DONE, BUSY or REFUSED. -/
  | debugRead (d : Dom) (q : DebugReq)
  /-- DEBUG_WRITE (R528): A debug port write transaction is performed and answered. -/
  | debugWrite (d : Dom) (q : DebugReq) (data : Word)
  /-- DEBUG_PORT_ABORT (R528): 100 clocks of DBGIO held low end any transaction and idle the port. -/
  | debugPortAbort (d : Dom)
  /-- DEBUG_ACCESS_COMPLETE (R528): An access answered BUSY completes inside the domain and holds its result. -/
  | debugAccessComplete (d : Dom)
  /-- DBG_AUTH (R529): A write to DBG_AUTH authenticates the port or counts a failure toward lockout. -/
  | dbgAuth (d : Dom) (key : Word)
  /-- HALTREQ (R531): A write of DBG_CTL.HALTREQ requests a debug halt of the cores. -/
  | haltreq (d : Dom) (w : Word)
  /-- DEBUG_HALT_EFFECT (R531): The halt takes effect at an instruction boundary, freezing PWM and ending lockstep. -/
  | debugHaltEffect (d : Dom)
  /-- RESUME (R531): A write of DBG_CTL.RESUME continues the halted cores. -/
  | resume (d : Dom) (w : Word)
  /-- STEP (R531): A write of DBG_CTL.STEP executes one instruction of the halted cores. -/
  | step (d : Dom) (w : Word)
  /-- WHALT (R533): A write of DBG_CTL.WHALT stops Weir issue. -/
  | whalt (c : Chan) (w : Word)
  /-- WRESUME (R533): A write of DBG_CTL.WRESUME resumes Weir. -/
  | wresume (c : Chan) (w : Word)
  /-- CHALT (R533): A write of DBG_CTL.CHALT stops Cascade before its next instruction. -/
  | chalt (c : Chan) (w : Word)
  /-- CRESUME (R533): A write of DBG_CTL.CRESUME resumes Cascade. -/
  | cresume (c : Chan) (w : Word)
  /-- BREAKPOINT_HIT (R533): An instruction breakpoint halts the cores before the address. -/
  | breakpointHit (d : Dom) (q : BitVec 2)
  /-- WATCHPOINT_HIT (R533): A matching access retires and a watchpoint halts the cores. -/
  | watchpointHit (d : Dom) (q : Bool) (store : Bool) (addr : Word)
  /-- WEIR_BREAKPOINT_HIT (R533): Weir reaches its breakpoint slot and halts before issuing it. -/
  | weirBreakpointHit (c : Chan)
  /-- CASCADE_BREAKPOINT_HIT (R533): Cascade reaches its breakpoint address and halts. -/
  | cascadeBreakpointHit (c : Chan)
  /-- PERF_CNTLO_READ (R522): A read of PERF_CNTLOx samples counter x and captures its upper bits. -/
  | perfCntloRead (d : Dom) (e : Eng) (x : BitVec 9)
  /-- PERF_CNTCLR (R526): A write of PERF_CNTCLR clears one or every counter. -/
  | perfCntclr (d : Dom) (w : Word)
  /-- PERF_SAMPLE_CLEAR (R526): A write of PERF_SMPCTL.CLR empties the sample buffer. -/
  | perfSampleClear (d : Dom) (w : Word)
  /-- EXTEST (R535): The boundary-scan EXTEST drives groups A, B and D from the scan register. -/
  | extest (lo hi : BitVec 60)
  /-- FUSEOFF (R535): The FUSEOFF instruction blows the scan fuse within 2 ms. -/
  | fuseoff
  /-- REGISTER_WRITE (R12): A write to a register without a row of its own acts by its fields' access codes. -/
  | registerWrite (d : Dom) (addr : Word) (w : Word)
  /-- LINK_ALIGN (R467): A DOWN ring port returns to ALIGN by itself while PORTEN = 1, raising EV_RLINKA or EV_RLINKB. -/
  | linkAlign (p : Port)
  /-- SSI_MONO_END (R225): The MONO interval of clock held high after an SSI frame ends, SSIBUSY clears and a strobe may start a new frame. -/
  | ssiMonoEnd (c : Chan)
  /-- TRIP_INPUT_RELEASE (R371): A filtered Cn_TRIPm request becomes inactive, changing GDI_TRIPIN and whether a trip clear is refused. -/
  | tripInputRelease (c : Chan) (m : BitVec 3)
  /-- OVERVOLTAGE_STAGE2_RELEASE (R372): The stage-2 comparator falls below OV2TH less its hysteresis and withdraws request 12. -/
  | overvoltageStage2Release (x : VdcLevel)
  /-- GATE_FAULT_REPORT_RELEASE (R369): A filtered Cn_GFx driver fault report returns inactive, changing GDI_GFIN and allowing the latch to clear at the next commanded edge. -/
  | gateFaultReportRelease (c : Chan) (x : BitVec 5)
  /-- BOOTSTRAP_REPORT_CHANGE (R381): The filtered high-side undervoltage report on the upper switch's Cn_GF ball of a bootstrap leg changes level. -/
  | bootstrapReportChange (c : Chan) (leg : BitVec 3) (active : Bool)
deriving DecidableEq, Repr

end Sys2Proof
end

