-- ==== Sys2Proof/WellFormed.lean ====
section
/-! DEFINITION. WellFormed.lean: which commands make sense as they stand: operands that name something the block has, and
for the engines' instructions the field values that the spec calls legal (R195 to R199, R321 to R326). -/

namespace Sys2Proof

/-- A leg of the bridge (R272). -/
def legOk (leg : BitVec 3) : Bool := decide (leg.toNat < 6)

/-- A gate ball (R272); the brake's output stage is number 18 (R449). -/
def ballOk (x : BitVec 5) : Bool := decide (x.toNat < 18)
def stageOk (x : BitVec 5) : Bool := decide (x.toNat < 19)

/-- A selector, lane, exponent or point that uses only low bits of X (R321). -/
def laneBits (n : Nat) (x : BitVec 14) : Bool := decide (x.toNat < n)

/-- Frames a ring port can carry (R472): a header of 16 bytes, and at most 1,024 words with CRC behind it. -/
def frameOk (f : List Byte) : Bool := decide (16 ≤ f.length) && decide (f.length ≤ 4128)

/-- DIR and PAST of a coordinate wait (R199). -/
def waitOk (dir : BitVec 2) (past : Bool) : Bool := decide (dir ≠ 3) && !(past && decide (dir = 2))

/-- Ill-formed commands have an operand outside its range, or an instruction field outside its legal values. -/
def Instr.wf : Instr → Bool
  | .pulseDecision _ leg | .compareFire _ leg _ | .deadTimeEnd _ leg | .nodeCrossing _ leg _ | .bootstrapChargeEntry _ leg
  | .bootstrapReportChange _ leg _ => legOk leg
  | .ascSwitchOn _ x | .gateFaultLatch _ x | .gateFaultReportRelease _ x => ballOk x
  | .outputStageFault _ x | .outputStageChange _ x => stageOk x
  | .comparatorSettleEnd _ q _ => decide (q ≠ 7)
  | .contactorFeedbackChange _ q _ | .contactorTimeLimit _ q => decide (q ≠ 3)
  | .thermalShutdown d s => decide (s ≠ 3) && (match d with | .ch _ => true | .host => decide (s = 0))
  | .frameReceive _ f | .cyclicFrame _ f | .timeFrame _ f _ => frameOk f
  | .remoteWrite _ _ _ _ data => decide (0 < data.length)
  | .rowRepairDone d m _ => (match d with | .ch _ => true | .host => decide (m = .sram))
  | .waita _ dir past _ _ _ _ _ => waitOk dir past
  | .waitc _ dir _ _ _ _ _ _ => decide (dir = 0)
  | .waite _ _ _ imm => decide (imm.toNat < 128)
  | .strobe _ imm => decide (imm.toNat < 32768)
  | .weirStart _ imm => decide (imm.toNat < 16384)
  | .weirCommit _ imm => decide (imm.toNat < 128)
  | .weirSignal _ imm => decide (imm.toNat < 524288)
  | .capk _ _ imm => decide (imm.toNat < 2)
  | .weirBr _ cond _ => decide (cond.toNat < 7)
  | .chkarm _ _ imm => decide (imm.toNat < 4)
  | .fenceM _ others => decide (others ≠ 7)
  | .ldr _ _ x | .splat _ _ _ x | .tst _ _ x => laneBits 16 x
  | .lda _ _ x => laneBits 4 x
  | .ldref _ _ x => laneBits 5 x
  | .sete _ _ x | .aclr _ _ x | .normx _ _ _ x => laneBits 256 x
  | .inj _ _ _ x => laneBits 8 x
  | .putpos _ _ x => laneBits 2 x
  | .casBr _ cond _ => decide (cond.toNat < 10)
  | _ => true

end Sys2Proof
end

