-- ==== Sys2Proof/Decode.lean ====
section
/-! DEFINITION. Decode.lean: the command that a word of the opcode table spells, none since no row gives bits; and the
encodings of the three instruction sets of the engines: Dziphor words (R124 to R131), Weir slots (R195 to R197) and Cascade
words (R321 to R326), as decoders and encoders. -/

namespace Sys2Proof

/-- The command that a word of the opcode table spells: every row carries its operands outside any word. -/
def decodeTableWord (_nbits _w : Nat) : Option Instr := none

/-! ## Cascade (R321) -/

/-- The fields of a Cascade word: OP, D, A, B and X. -/
structure CasWord where
  op : BitVec 6
  d : BitVec 4
  a : BitVec 4
  b : BitVec 4
  x : BitVec 14
deriving DecidableEq, Repr

def CasWord.ofWord (w : Word) : CasWord :=
  ⟨w.extractLsb' 26 6, w.extractLsb' 22 4, w.extractLsb' 18 4, w.extractLsb' 14 4, w.extractLsb' 0 14⟩

def CasWord.toWord (f : CasWord) : Word := f.op ++ f.d ++ f.a ++ f.b ++ f.x

/-- An accumulator number stands in the low two bits of its field. -/
def accField (f : BitVec 4) : Option (BitVec 2) := if f.toNat < 4 then some (f.setWidth 2) else none

/-- An instruction whose unused fields are zero. -/
def onlyIf (p : Bool) (i : Instr) : Option Instr := if p then some i else none

/-- The instruction of a Cascade word by its opcode, before its X is judged. -/
def CasWord.instr (k : CAt) (f : CasWord) : Option Instr :=
  let dx := f.a == 0 && f.b == 0
  let da := f.b == 0 && f.x == 0
  let dab := f.x == 0
  match f.op.toNat with
  | 0x01 => onlyIf dx (.vld k f.d f.x)
  | 0x02 => onlyIf (f.d == 0 && f.b == 0) (.vst k f.a f.x)
  | 0x03 => onlyIf dx (.vlds k f.d f.x)
  | 0x04 => onlyIf dx (.ldr k f.d f.x)
  | 0x05 => onlyIf dx (.lda k f.d f.x)
  | 0x06 => onlyIf dx (.ldref k f.d f.x)
  | 0x07 => onlyIf da (.mov k f.d f.a)
  | 0x08 => onlyIf (f.b == 0) (.splat k f.d f.a f.x)
  | 0x09 => onlyIf (f.b == 0) (.perm k f.d f.a f.x)
  | 0x0A => onlyIf dx (.sete k f.d f.x)
  | 0x10 => onlyIf dab (.vadd k f.d f.a f.b)
  | 0x11 => onlyIf dab (.vsub k f.d f.a f.b)
  | 0x12 => onlyIf dab (.vaddw k f.d f.a f.b)
  | 0x13 => onlyIf dab (.vmul k f.d f.a f.b)
  | 0x14 => onlyIf da (.vneg k f.d f.a)
  | 0x15 => onlyIf da (.vabs k f.d f.a)
  | 0x16 => onlyIf dab (.vmin k f.d f.a f.b)
  | 0x17 => onlyIf dab (.vmax k f.d f.a f.b)
  | 0x18 => (accField f.d).bind fun ac => onlyIf dab (.vmac k ac f.a f.b)
  | 0x19 => (accField f.d).bind fun ac => onlyIf dx (.aclr k ac f.x)
  | 0x1A => (accField f.a).bind fun ac => onlyIf da (.accr k f.d ac)
  | 0x1B => onlyIf da (.norm k f.d f.a)
  | 0x1C => onlyIf (f.b == 0) (.normx k f.d f.a f.x)
  | 0x1D => onlyIf (f.d == 0 && f.b == 0) (.tst k f.a f.x)
  | 0x20 => onlyIf da (.clarke k f.d f.a)
  | 0x21 => onlyIf da (.iclarke k f.d f.a)
  | 0x22 => onlyIf dab (.park k f.d f.a f.b)
  | 0x23 => onlyIf dab (.ipark k f.d f.a f.b)
  | 0x24 => onlyIf da (.sincos k f.d f.a)
  | 0x28 => some (.pi k f.d f.a f.b f.x)
  | 0x29 => onlyIf (f.b == 0) (.tint k f.d f.a f.x)
  | 0x2A => onlyIf da (.rcl k f.d f.a)
  | 0x2B => onlyIf (f.a == 0 && da) (.rcr k f.d)
  | 0x2C => onlyIf (f.b == 0) (.inj k f.d f.a f.x)
  | 0x30 => onlyIf (f.d == 0 && da) (.out k f.a)
  | 0x31 => onlyIf (f.d == 0 && da) (.cap k f.a)
  | 0x32 => onlyIf (f.d == 0 && f.b == 0) (.putpos k f.a f.x)
  | 0x33 => onlyIf (f.d == 0 && dx) (.casSig k f.x)
  | 0x38 => onlyIf (f.d == 0 && f.a == 0) (.casBr k f.b f.x)
  | 0x3E => onlyIf (f.d == 0 && f.a == 0 && da) (.nop k)
  | 0x3F => onlyIf (f.d == 0 && f.a == 0 && da) (.casEnd k)
  | _ => none

/-- The instruction that a Cascade word holds; none is illegal (R323). -/
def decodeCascade (k : CAt) (w : Word) : Option Instr := ((CasWord.ofWord w).instr k).filter Instr.wf

/-- The word of a Cascade instruction, with where it executes. -/
def encodeCascade : Instr → Option (CAt × Word)
  | .vld k d x => some (k, CasWord.toWord ⟨0x01, d, 0, 0, x⟩)
  | .vst k a x => some (k, CasWord.toWord ⟨0x02, 0, a, 0, x⟩)
  | .vlds k d x => some (k, CasWord.toWord ⟨0x03, d, 0, 0, x⟩)
  | .ldr k d x => some (k, CasWord.toWord ⟨0x04, d, 0, 0, x⟩)
  | .lda k d x => some (k, CasWord.toWord ⟨0x05, d, 0, 0, x⟩)
  | .ldref k d x => some (k, CasWord.toWord ⟨0x06, d, 0, 0, x⟩)
  | .mov k d a => some (k, CasWord.toWord ⟨0x07, d, a, 0, 0⟩)
  | .splat k d a x => some (k, CasWord.toWord ⟨0x08, d, a, 0, x⟩)
  | .perm k d a x => some (k, CasWord.toWord ⟨0x09, d, a, 0, x⟩)
  | .sete k d x => some (k, CasWord.toWord ⟨0x0A, d, 0, 0, x⟩)
  | .vadd k d a b => some (k, CasWord.toWord ⟨0x10, d, a, b, 0⟩)
  | .vsub k d a b => some (k, CasWord.toWord ⟨0x11, d, a, b, 0⟩)
  | .vaddw k d a b => some (k, CasWord.toWord ⟨0x12, d, a, b, 0⟩)
  | .vmul k d a b => some (k, CasWord.toWord ⟨0x13, d, a, b, 0⟩)
  | .vneg k d a => some (k, CasWord.toWord ⟨0x14, d, a, 0, 0⟩)
  | .vabs k d a => some (k, CasWord.toWord ⟨0x15, d, a, 0, 0⟩)
  | .vmin k d a b => some (k, CasWord.toWord ⟨0x16, d, a, b, 0⟩)
  | .vmax k d a b => some (k, CasWord.toWord ⟨0x17, d, a, b, 0⟩)
  | .vmac k ac a b => some (k, CasWord.toWord ⟨0x18, ac.setWidth 4, a, b, 0⟩)
  | .aclr k ac x => some (k, CasWord.toWord ⟨0x19, ac.setWidth 4, 0, 0, x⟩)
  | .accr k d ac => some (k, CasWord.toWord ⟨0x1A, d, ac.setWidth 4, 0, 0⟩)
  | .norm k d a => some (k, CasWord.toWord ⟨0x1B, d, a, 0, 0⟩)
  | .normx k d a x => some (k, CasWord.toWord ⟨0x1C, d, a, 0, x⟩)
  | .tst k a x => some (k, CasWord.toWord ⟨0x1D, 0, a, 0, x⟩)
  | .clarke k d a => some (k, CasWord.toWord ⟨0x20, d, a, 0, 0⟩)
  | .iclarke k d a => some (k, CasWord.toWord ⟨0x21, d, a, 0, 0⟩)
  | .park k d a b => some (k, CasWord.toWord ⟨0x22, d, a, b, 0⟩)
  | .ipark k d a b => some (k, CasWord.toWord ⟨0x23, d, a, b, 0⟩)
  | .sincos k d a => some (k, CasWord.toWord ⟨0x24, d, a, 0, 0⟩)
  | .pi k d a b x => some (k, CasWord.toWord ⟨0x28, d, a, b, x⟩)
  | .tint k d a x => some (k, CasWord.toWord ⟨0x29, d, a, 0, x⟩)
  | .rcl k d a => some (k, CasWord.toWord ⟨0x2A, d, a, 0, 0⟩)
  | .rcr k d => some (k, CasWord.toWord ⟨0x2B, d, 0, 0, 0⟩)
  | .inj k d a x => some (k, CasWord.toWord ⟨0x2C, d, a, 0, x⟩)
  | .out k a => some (k, CasWord.toWord ⟨0x30, 0, a, 0, 0⟩)
  | .cap k a => some (k, CasWord.toWord ⟨0x31, 0, a, 0, 0⟩)
  | .putpos k a x => some (k, CasWord.toWord ⟨0x32, 0, a, 0, x⟩)
  | .casSig k x => some (k, CasWord.toWord ⟨0x33, 0, 0, 0, x⟩)
  | .casBr k b x => some (k, CasWord.toWord ⟨0x38, 0, 0, b, x⟩)
  | .nop k => some (k, CasWord.toWord ⟨0x3E, 0, 0, 0, 0⟩)
  | .casEnd k => some (k, CasWord.toWord ⟨0x3F, 0, 0, 0, 0⟩)
  | _ => none

/-! ## Weir (R195) -/

/-- The fields of a Weir slot. -/
structure WeirSlot where
  op : BitVec 6
  dir : BitVec 2
  past : BitVec 1
  rel : BitVec 1
  k : BitVec 2
  lim : BitVec 3
  addr : BitVec 13
  cond : BitVec 4
  imm : Word
deriving DecidableEq, Repr

def WeirSlot.ofSlot (w : BitVec 64) : WeirSlot :=
  ⟨w.extractLsb' 58 6, w.extractLsb' 56 2, w.extractLsb' 55 1, w.extractLsb' 54 1, w.extractLsb' 52 2, w.extractLsb' 49 3,
    w.extractLsb' 36 13, w.extractLsb' 32 4, w.extractLsb' 0 32⟩

def WeirSlot.toSlot (f : WeirSlot) : BitVec 64 :=
  f.op ++ f.dir ++ f.past ++ f.rel ++ f.k ++ f.lim ++ f.addr ++ f.cond ++ f.imm

/-- The fields of the wait instructions alone are zero. -/
def WeirSlot.noWait (f : WeirSlot) : Bool := f.dir == 0 && f.past == 0 && f.rel == 0 && f.lim == 0

/-- The instruction of a slot by its opcode, before the values of its fields are judged. -/
def WeirSlot.instr (at_ : WAt) (f : WeirSlot) : Option Instr :=
  let immOnly := f.noWait && f.k == 0 && f.addr == 0 && f.cond == 0
  let kImm := f.noWait && f.addr == 0 && f.cond == 0
  match f.op.toNat with
  | 0x01 => onlyIf (f.cond == 0) (.waita at_ f.dir (f.past == 1) (f.rel == 1) f.k f.lim f.addr f.imm)
  | 0x02 => onlyIf (f.cond == 0) (.waitc at_ f.dir (f.past == 1) (f.rel == 1) f.k f.lim f.addr f.imm)
  | 0x03 => onlyIf (f.dir == 0 && f.past == 0 && f.rel == 0 && f.k == 0 && f.cond == 0) (.waite at_ f.lim f.addr f.imm)
  | 0x08 => onlyIf immOnly (.strobe at_ f.imm)
  | 0x09 => onlyIf immOnly (.weirStart at_ f.imm)
  | 0x0A => onlyIf immOnly (.weirCommit at_ f.imm)
  | 0x0B => onlyIf immOnly (.weirSignal at_ f.imm)
  | 0x10 => onlyIf kImm (.ldk at_ f.k f.imm)
  | 0x11 => onlyIf kImm (.addk at_ f.k f.imm)
  | 0x12 => onlyIf kImm (.capk at_ f.k f.imm)
  | 0x18 => onlyIf (f.noWait && f.cond == 0 && f.imm == 0) (.djnz at_ f.k f.addr)
  | 0x19 => onlyIf (f.noWait && f.k == 0 && f.cond == 0 && f.imm == 0) (.jmp at_ f.addr)
  | 0x1A => onlyIf (f.noWait && f.k == 0 && f.imm == 0) (.weirBr at_ f.cond f.addr)
  | 0x1B => onlyIf (f.noWait && f.k == 0 && f.cond == 0) (.chkarm at_ f.addr f.imm)
  | 0x3F => onlyIf (immOnly && f.imm == 0) (.weirStop at_)
  | _ => none

/-- The instruction that a slot holds; none stops the thread (R199). -/
def decodeWeir (at_ : WAt) (w : BitVec 64) : Option Instr := ((WeirSlot.ofSlot w).instr at_).filter Instr.wf

/-- One bit of a truth value. -/
def bit1 (b : Bool) : BitVec 1 := if b then 1 else 0

/-- The slot of a Weir instruction, with where it executes. -/
def encodeWeir : Instr → Option (WAt × BitVec 64)
  | .waita at_ dir past rel k lim addr imm =>
    some (at_, WeirSlot.toSlot ⟨0x01, dir, bit1 past, bit1 rel, k, lim, addr, 0, imm⟩)
  | .waitc at_ dir past rel k lim addr imm =>
    some (at_, WeirSlot.toSlot ⟨0x02, dir, bit1 past, bit1 rel, k, lim, addr, 0, imm⟩)
  | .waite at_ lim addr imm => some (at_, WeirSlot.toSlot ⟨0x03, 0, 0, 0, 0, lim, addr, 0, imm⟩)
  | .strobe at_ imm => some (at_, WeirSlot.toSlot ⟨0x08, 0, 0, 0, 0, 0, 0, 0, imm⟩)
  | .weirStart at_ imm => some (at_, WeirSlot.toSlot ⟨0x09, 0, 0, 0, 0, 0, 0, 0, imm⟩)
  | .weirCommit at_ imm => some (at_, WeirSlot.toSlot ⟨0x0A, 0, 0, 0, 0, 0, 0, 0, imm⟩)
  | .weirSignal at_ imm => some (at_, WeirSlot.toSlot ⟨0x0B, 0, 0, 0, 0, 0, 0, 0, imm⟩)
  | .ldk at_ k imm => some (at_, WeirSlot.toSlot ⟨0x10, 0, 0, 0, k, 0, 0, 0, imm⟩)
  | .addk at_ k imm => some (at_, WeirSlot.toSlot ⟨0x11, 0, 0, 0, k, 0, 0, 0, imm⟩)
  | .capk at_ k imm => some (at_, WeirSlot.toSlot ⟨0x12, 0, 0, 0, k, 0, 0, 0, imm⟩)
  | .djnz at_ k addr => some (at_, WeirSlot.toSlot ⟨0x18, 0, 0, 0, k, 0, addr, 0, 0⟩)
  | .jmp at_ addr => some (at_, WeirSlot.toSlot ⟨0x19, 0, 0, 0, 0, 0, addr, 0, 0⟩)
  | .weirBr at_ cond addr => some (at_, WeirSlot.toSlot ⟨0x1A, 0, 0, 0, 0, 0, addr, cond, 0⟩)
  | .chkarm at_ addr imm => some (at_, WeirSlot.toSlot ⟨0x1B, 0, 0, 0, 0, 0, addr, 0, imm⟩)
  | .weirStop at_ => some (at_, WeirSlot.toSlot ⟨0x3F, 0, 0, 0, 0, 0, 0, 0, 0⟩)
  | _ => none

/-! ## Dziphor (R124) -/

/-- The fields of a Dziphor word by position: opcode, [25:21], [20:16], [15:11] and [10:0]. -/
structure DzWord where
  op : BitVec 6
  a : BitVec 5
  b : BitVec 5
  c : BitVec 5
  f : BitVec 11
deriving DecidableEq, Repr

def DzWord.ofWord (w : Word) : DzWord :=
  ⟨w.extractLsb' 26 6, w.extractLsb' 21 5, w.extractLsb' 16 5, w.extractLsb' 11 5, w.extractLsb' 0 11⟩

def DzWord.toWord (f : DzWord) : Word := f.op ++ f.a ++ f.b ++ f.c ++ f.f

/-- The 16-bit immediate or offset, and the 21-bit offset of CALL. -/
def DzWord.imm (f : DzWord) : BitVec 16 := f.c ++ f.f
def DzWord.off21 (f : DzWord) : BitVec 21 := f.b ++ f.c ++ f.f

/-- A word of format RRI, RRS or RRB, and one of format RJ. -/
def DzWord.ofImm (op : BitVec 6) (a b : BitVec 5) (i : BitVec 16) : DzWord := ⟨op, a, b, i.extractLsb' 11 5, i.extractLsb' 0 11⟩
def DzWord.ofOff (op : BitVec 6) (a : BitVec 5) (o : BitVec 21) : DzWord :=
  ⟨op, a, o.extractLsb' 16 5, o.extractLsb' 11 5, o.extractLsb' 0 11⟩

/-- Opcode 0x00: three registers (R125). -/
def DzWord.integer (k : At) (w : DzWord) : Option Instr :=
  match w.f.toNat with
  | 0x01 => some (.add k w.a w.b w.c)
  | 0x02 => some (.sub k w.a w.b w.c)
  | 0x03 => some (.bAnd k w.a w.b w.c)
  | 0x04 => some (.bOr k w.a w.b w.c)
  | 0x05 => some (.bXor k w.a w.b w.c)
  | 0x06 => some (.shl k w.a w.b w.c)
  | 0x07 => some (.shr k w.a w.b w.c)
  | 0x08 => some (.sar k w.a w.b w.c)
  | 0x09 => some (.setlt k w.a w.b w.c)
  | 0x0A => some (.setltu k w.a w.b w.c)
  | 0x0B => some (.min k w.a w.b w.c)
  | 0x0C => some (.max k w.a w.b w.c)
  | 0x0D => some (.minu k w.a w.b w.c)
  | 0x0E => some (.maxu k w.a w.b w.c)
  | 0x0F => some (.adds k w.a w.b w.c)
  | 0x10 => some (.subs k w.a w.b w.c)
  | 0x11 => some (.mul k w.a w.b w.c)
  | 0x12 => some (.mulhiSs k w.a w.b w.c)
  | 0x13 => some (.mulhiUu k w.a w.b w.c)
  | 0x14 => some (.mulhiSu k w.a w.b w.c)
  | 0x15 => some (.divs k w.a w.b w.c)
  | 0x16 => some (.divu k w.a w.b w.c)
  | 0x17 => some (.mods k w.a w.b w.c)
  | 0x18 => some (.modu k w.a w.b w.c)
  | 0x19 => onlyIf (w.c == 0) (.clz k w.a w.b)
  | _ => none

/-- Opcode 0x1C: atomics (R126). -/
def DzWord.atomic (k : At) (ecc : Ecc) (w : DzWord) : Option Instr :=
  let ord : AtomOrder := ⟨w.f.getLsbD 1, w.f.getLsbD 0, ecc⟩
  match w.f.toNat / 4 with
  | 0x0 => onlyIf (w.c == 0) (.ldRsv k w.a w.b ord)
  | 0x1 => some (.stRsv k w.a w.b w.c ord)
  | 0x2 => some (.atmSwap k w.a w.b w.c ord)
  | 0x3 => some (.atmAdd k w.a w.b w.c ord)
  | 0x4 => some (.atmAnd k w.a w.b w.c ord)
  | 0x5 => some (.atmOr k w.a w.b w.c ord)
  | 0x6 => some (.atmMax k w.a w.b w.c ord)
  | 0x7 => some (.atmMin k w.a w.b w.c ord)
  | _ => none

/-- Opcode 0x34: a fence of a mask (R129). -/
def fenceOf (k : At) (mask : BitVec 4) : Option Instr :=
  if mask = 15 then some (.fenceAll k)
  else if mask.getLsbD 0 then some (.fenceM k (mask.extractLsb' 1 3))
  else if mask.getLsbD 1 then some (.fenceD k (mask.extractLsb' 2 2))
  else if mask.getLsbD 2 then some (.fenceP k (mask.extractLsb' 3 1))
  else if mask.getLsbD 3 then some (.fenceN k)
  else none

/-- Opcodes 0x30 to 0x3C (R129 to R131). -/
def DzWord.system (k : At) (w : DzWord) : Option Instr :=
  let none3 := w.a == 0 && w.b == 0 && w.c == 0
  let csr : BitVec 12 := w.imm.setWidth 12
  match w.op.toNat, w.f.toNat with
  | 0x30, 0x01 => onlyIf none3 (.sysreq k)
  | 0x30, 0x02 => onlyIf none3 (.dbgbrk k)
  | 0x30, 0x03 => onlyIf none3 (.retm k)
  | 0x30, 0x04 => onlyIf none3 (.retn k)
  | 0x30, 0x05 => onlyIf none3 (.idle k)
  | 0x31, _ => onlyIf (decide (w.imm.toNat < 4096)) (.ctlSwap k w.a w.b csr)
  | 0x32, _ => onlyIf (decide (w.imm.toNat < 4096)) (.ctlSet k w.a w.b csr)
  | 0x33, _ => onlyIf (decide (w.imm.toNat < 4096)) (.ctlClr k w.a w.b csr)
  | 0x34, m => if none3 && decide (m < 16) then fenceOf k (w.f.setWidth 4) else none
  | 0x38, _ => onlyIf (decide (w.imm.toNat < 128)) (.planCommit k w.a w.b (w.imm.setWidth 7))
  | 0x3A, 0x01 => some (.evWait k w.a w.b w.c)
  | 0x3A, 0x02 => onlyIf (w.a == 0) (.evFence k w.b w.c)
  | 0x3C, 0x01 => onlyIf (w.b == 0 && w.c == 0) (.lsSplit k w.a)
  | 0x3C, 0x02 => onlyIf (w.b == 0 && w.c == 0) (.lsJoin k w.a)
  | 0x3C, 0x03 => onlyIf (w.a == 0 && w.c == 0) (.ckpt k w.b)
  | _, _ => none

/-- The instruction of a Dziphor word; `ecc` is the outcome of an atomic instruction's own read. -/
def DzWord.instr (k : At) (ecc : Ecc) (w : DzWord) : Option Instr :=
  match w.op.toNat with
  | 0x00 => w.integer k
  | 0x01 => some (.addK k w.a w.b w.imm)
  | 0x02 => some (.setltK k w.a w.b w.imm)
  | 0x03 => some (.setltuK k w.a w.b w.imm)
  | 0x04 => some (.andK k w.a w.b w.imm)
  | 0x05 => some (.orK k w.a w.b w.imm)
  | 0x06 => some (.xorK k w.a w.b w.imm)
  | 0x07 => onlyIf (w.b == 0) (.ldhi k w.a w.imm)
  | 0x08 => onlyIf (decide (w.imm.toNat < 32)) (.shlK k w.a w.b (w.imm.setWidth 5))
  | 0x09 => onlyIf (decide (w.imm.toNat < 32)) (.shrK k w.a w.b (w.imm.setWidth 5))
  | 0x0A => onlyIf (decide (w.imm.toNat < 32)) (.sarK k w.a w.b (w.imm.setWidth 5))
  | 0x10 => some (.ldW k w.a w.b w.imm)
  | 0x11 => some (.ldH k w.a w.b w.imm)
  | 0x12 => some (.ldHu k w.a w.b w.imm)
  | 0x13 => some (.ldB k w.a w.b w.imm)
  | 0x14 => some (.ldBu k w.a w.b w.imm)
  | 0x18 => some (.stW k w.a w.b w.imm)
  | 0x19 => some (.stH k w.a w.b w.imm)
  | 0x1A => some (.stB k w.a w.b w.imm)
  | 0x1C => w.atomic k ecc
  | 0x20 => some (.brEq k w.a w.b w.imm)
  | 0x21 => some (.brNe k w.a w.b w.imm)
  | 0x22 => some (.brLt k w.a w.b w.imm)
  | 0x23 => some (.brGe k w.a w.b w.imm)
  | 0x24 => some (.brLtu k w.a w.b w.imm)
  | 0x25 => some (.brGeu k w.a w.b w.imm)
  | 0x28 => some (.call k w.a w.off21)
  | 0x29 => some (.callr k w.a w.b w.imm)
  | _ => w.system k

/-- The instruction that a Dziphor word holds; none is an illegal instruction (R124). -/
def decodeDziphor (k : At) (ecc : Ecc) (w : Word) : Option Instr := (DzWord.ofWord w).instr k ecc

/-- An instruction of opcode 0x00. -/
def integerWord (k : At) (a b c : GReg) (func : BitVec 11) : Option (At × Ecc × Word) :=
  some (k, .clean, DzWord.toWord ⟨0, a, b, c, func⟩)

/-- An instruction with a 16-bit immediate or offset. -/
def immWord (k : At) (op : BitVec 6) (a b : GReg) (i : BitVec 16) : Option (At × Ecc × Word) :=
  some (k, .clean, (DzWord.ofImm op a b i).toWord)

/-- An atomic instruction: ORDN and ORDP in func[1:0]. -/
def atomicWord (k : At) (a b c : GReg) (op : BitVec 9) (ord : AtomOrder) : Option (At × Ecc × Word) :=
  some (k, ord.ecc, DzWord.toWord ⟨0x1C, a, b, c, op ++ bit1 ord.ordn ++ bit1 ord.ordp⟩)

/-- An instruction of opcodes 0x30 to 0x3C with three register fields. -/
def systemWord (k : At) (op : BitVec 6) (a b c : GReg) (func : BitVec 11) : Option (At × Ecc × Word) :=
  some (k, .clean, DzWord.toWord ⟨op, a, b, c, func⟩)

/-- The word of a Dziphor instruction, with where it executes and the outcome of an atomic's read. -/
def encodeDziphor : Instr → Option (At × Ecc × Word)
  | .add k d a b => integerWord k d a b 0x01
  | .sub k d a b => integerWord k d a b 0x02
  | .bAnd k d a b => integerWord k d a b 0x03
  | .bOr k d a b => integerWord k d a b 0x04
  | .bXor k d a b => integerWord k d a b 0x05
  | .shl k d a b => integerWord k d a b 0x06
  | .shr k d a b => integerWord k d a b 0x07
  | .sar k d a b => integerWord k d a b 0x08
  | .setlt k d a b => integerWord k d a b 0x09
  | .setltu k d a b => integerWord k d a b 0x0A
  | .min k d a b => integerWord k d a b 0x0B
  | .max k d a b => integerWord k d a b 0x0C
  | .minu k d a b => integerWord k d a b 0x0D
  | .maxu k d a b => integerWord k d a b 0x0E
  | .adds k d a b => integerWord k d a b 0x0F
  | .subs k d a b => integerWord k d a b 0x10
  | .mul k d a b => integerWord k d a b 0x11
  | .mulhiSs k d a b => integerWord k d a b 0x12
  | .mulhiUu k d a b => integerWord k d a b 0x13
  | .mulhiSu k d a b => integerWord k d a b 0x14
  | .divs k d a b => integerWord k d a b 0x15
  | .divu k d a b => integerWord k d a b 0x16
  | .mods k d a b => integerWord k d a b 0x17
  | .modu k d a b => integerWord k d a b 0x18
  | .clz k d a => integerWord k d a 0 0x19
  | .addK k d a i => immWord k 0x01 d a i
  | .setltK k d a i => immWord k 0x02 d a i
  | .setltuK k d a i => immWord k 0x03 d a i
  | .andK k d a i => immWord k 0x04 d a i
  | .orK k d a i => immWord k 0x05 d a i
  | .xorK k d a i => immWord k 0x06 d a i
  | .ldhi k d i => immWord k 0x07 d 0 i
  | .shlK k d a i => immWord k 0x08 d a (i.setWidth 16)
  | .shrK k d a i => immWord k 0x09 d a (i.setWidth 16)
  | .sarK k d a i => immWord k 0x0A d a (i.setWidth 16)
  | .ldW k d a i => immWord k 0x10 d a i
  | .ldH k d a i => immWord k 0x11 d a i
  | .ldHu k d a i => immWord k 0x12 d a i
  | .ldB k d a i => immWord k 0x13 d a i
  | .ldBu k d a i => immWord k 0x14 d a i
  | .stW k d a i => immWord k 0x18 d a i
  | .stH k d a i => immWord k 0x19 d a i
  | .stB k d a i => immWord k 0x1A d a i
  | .ldRsv k d a ord => atomicWord k d a 0 0 ord
  | .stRsv k d a b ord => atomicWord k d a b 1 ord
  | .atmSwap k d a b ord => atomicWord k d a b 2 ord
  | .atmAdd k d a b ord => atomicWord k d a b 3 ord
  | .atmAnd k d a b ord => atomicWord k d a b 4 ord
  | .atmOr k d a b ord => atomicWord k d a b 5 ord
  | .atmMax k d a b ord => atomicWord k d a b 6 ord
  | .atmMin k d a b ord => atomicWord k d a b 7 ord
  | .brEq k a b o => immWord k 0x20 a b o
  | .brNe k a b o => immWord k 0x21 a b o
  | .brLt k a b o => immWord k 0x22 a b o
  | .brGe k a b o => immWord k 0x23 a b o
  | .brLtu k a b o => immWord k 0x24 a b o
  | .brGeu k a b o => immWord k 0x25 a b o
  | .call k d o => some (k, .clean, (DzWord.ofOff 0x28 d o).toWord)
  | .callr k d a i => immWord k 0x29 d a i
  | .sysreq k => systemWord k 0x30 0 0 0 0x01
  | .dbgbrk k => systemWord k 0x30 0 0 0 0x02
  | .retm k => systemWord k 0x30 0 0 0 0x03
  | .retn k => systemWord k 0x30 0 0 0 0x04
  | .idle k => systemWord k 0x30 0 0 0 0x05
  | .ctlSwap k d a csr => immWord k 0x31 d a (csr.setWidth 16)
  | .ctlSet k d a csr => immWord k 0x32 d a (csr.setWidth 16)
  | .ctlClr k d a csr => immWord k 0x33 d a (csr.setWidth 16)
  | .fenceM k o => systemWord k 0x34 0 0 0 ((0 : BitVec 7) ++ o ++ (1 : BitVec 1))
  | .fenceD k o => systemWord k 0x34 0 0 0 ((0 : BitVec 7) ++ o ++ (2 : BitVec 2))
  | .fenceP k o => systemWord k 0x34 0 0 0 ((0 : BitVec 7) ++ o ++ (4 : BitVec 3))
  | .fenceN k => systemWord k 0x34 0 0 0 8
  | .fenceAll k => systemWord k 0x34 0 0 0 15
  | .planCommit k d a i => immWord k 0x38 d a (i.setWidth 16)
  | .evWait k d a b => systemWord k 0x3A d a b 0x01
  | .evFence k a b => systemWord k 0x3A 0 a b 0x02
  | .lsSplit k d => systemWord k 0x3C d 0 0 0x01
  | .lsJoin k d => systemWord k 0x3C d 0 0 0x02
  | .ckpt k a => systemWord k 0x3C 0 a 0 0x03
  | _ => none

end Sys2Proof
end

