-- ==== Sys2Proof/Config.lean ====
section
/-! DEFINITION. Config.lean: what one implementation fixes, and the free values. Each is an opaque constant: no
proof can see its value, so a statement holds whatever it is. -/

namespace Sys2Proof.Config

/-- A free word: where the spec gives an effect and leaves its value open, the value is this function of the place
that asks (a number naming the rule's site) and of the asking domain's counter, advanced at each use (log 3). -/
opaque freeWord : Nat → Nat → Word

/-- The stepping of the silicon: the code of its letter, and a number whose last decimal digit is its digit (R45; log 4). -/
opaque stepLetter : BitVec 4
opaque stepNumber : Nat

/-- The stepping digit, 0 to 9 (R45). -/
def stepDigit : BitVec 4 := BitVec.ofNat 4 (stepNumber % 10)

/-- The bytes of the host's boot ROM, by address: the spec gives the ROM no contents (R23; log 7). -/
opaque rom : Nat → BitVec 8

/-- Which of the mantissas within the error bound of R326 the CORDIC delivers, as a function of the angle and of which
of sine and cosine is asked (log 5). -/
opaque cordic : Bool → Word → Nat

/-- Whether the torque estimate of R427, whose formula the spec gives and whose rounding it does not, is rounded up or
down, as a function of the three sample values, their angles, KT and KR (log 9). -/
opaque torqueUp : List Word → Bool

/-- The latency in CCLK that a sampler records for a Dziphor instruction that does not wait (R524), which depends on the
pipeline, as a function of the cycle and the instruction's address (log 14). -/
opaque latency : Nat → Word → Nat

/-- One step of the exponential mean of R458, whose weight the spec states and whose rounding it does not: which of the
neighbouring values the field takes, from the field before the check and the new value (log 15). -/
opaque meanStep : Word → Int → Nat

/-- The half nanoseconds that ring time gains in one HCLK while a rate trim is in force (R477; log 16). -/
opaque ringStep : Word → Nat

end Sys2Proof.Config
end

