-- ==== Sys2Proof/Machine/Store.lean ====
section
/-! DEFINITION. Store.lean: sparse stores as lists of (key, value) pairs in one canonical form. Keys strictly
rise and no listed value equals what an unlisted key reads as, so that equal stores are equal data. Registers,
memories, counters and stamps are all held in such a store. -/

namespace Sys2Proof.Machine

/-- Read key `k`; an unlisted key reads as `d`. -/
def sget {α : Type} (d : α) : List (Nat × α) → Nat → α
  | [], _ => d
  | (k', v) :: m, k => if k' = k then v else sget d m k

/-- Remove every entry of key `k`. -/
def serase {α : Type} : List (Nat × α) → Nat → List (Nat × α)
  | [], _ => []
  | (k', v) :: m, k => if k' = k then serase m k else (k', v) :: serase m k

/-- Insert an entry before the first larger key. -/
def sinsert {α : Type} : List (Nat × α) → Nat → α → List (Nat × α)
  | [], k, v => [(k, v)]
  | (k', v') :: m, k, v => if k < k' then (k, v) :: (k', v') :: m else (k', v') :: sinsert m k v

/-- Write `v` at key `k`, where an unlisted `k` reads as `d`. -/
def sset {α : Type} [DecidableEq α] (d : α) (m : List (Nat × α)) (k : Nat) (v : α) : List (Nat × α) :=
  if v = d then serase m k else sinsert (serase m k) k v

/-- The first key of the rest is larger than `k`. -/
def sabove {α : Type} (k : Nat) : List (Nat × α) → Bool
  | [] => true
  | (k', _) :: _ => decide (k < k')

/-- The canonical form: keys strictly rise and no entry equals the default of its key. -/
def swf {α : Type} [DecidableEq α] (dflt : Nat → α) : List (Nat × α) → Bool
  | [] => true
  | (k, v) :: m => sabove k m && decide (v ≠ dflt k) && swf dflt m

/-- Forget every entry whose key lies in `[lo, hi)`. -/
def sclear {α : Type} (lo hi : Nat) : List (Nat × α) → List (Nat × α)
  | [] => []
  | (k, v) :: m => if lo ≤ k ∧ k < hi then sclear lo hi m else (k, v) :: sclear lo hi m

end Sys2Proof.Machine
end

