-- ==== Sys2Proof/Machine/RegMap.lean ====
section
/-! DEFINITION. RegMap.lean: every register of the spec's register tables: its key (block slot of R35 and offset),
its fields as bit ranges with the spec's names, its reset value and the bits of each access code (R9 to R13).
A key is the channel address less 0x4000_0000; the host's counterparts of channel registers (R42, R47, R106,
R175, R461, R527) share the key of their channel form, and the host's own blocks and the debug registers of R534
have slots 16 to 19 and 32, which no channel address reaches. -/

namespace Sys2Proof.Machine

/-- A field of a register: bits [hi:lo] of the register at key `reg` (R5, R9). -/
structure Fld where
  reg : Nat
  hi : Nat
  lo : Nat
deriving DecidableEq, Repr

/-- A register, or a run of `count` like registers `stride` apart: reset value and the bits of each access code. -/
structure RegRow where
  key : Nat
  stride : Nat
  count : Nat
  reset : Nat
  rw : Nat
  rwp : Nat
  rwl : Nat
  w1c : Nat
  w1s : Nat
deriving DecidableEq, Repr

abbrev SYS_ID_DEVICE : Fld := ⟨0x0, 31, 16⟩
abbrev SYS_ID_STEP_LETTER : Fld := ⟨0x0, 15, 12⟩
abbrev SYS_ID_STEP_DIGIT : Fld := ⟨0x0, 11, 8⟩
abbrev SYS_ID_DOMAIN : Fld := ⟨0x0, 7, 4⟩
abbrev SYS_CAP_DEGRADED : Fld := ⟨0x4, 3, 3⟩
abbrev SYS_CAP_LAB : Fld := ⟨0x4, 2, 2⟩
abbrev SYS_CAP_DUAL_CORE : Fld := ⟨0x4, 1, 1⟩
abbrev SYS_CAP_SAFE_CAP : Fld := ⟨0x4, 0, 0⟩
abbrev SYS_RSTSTAT_HOST : Fld := ⟨0x14, 8, 8⟩
abbrev SYS_RSTSTAT_SOFT : Fld := ⟨0x14, 7, 7⟩
abbrev SYS_RSTSTAT_THERM : Fld := ⟨0x14, 6, 6⟩
abbrev SYS_RSTSTAT_PIN : Fld := ⟨0x14, 5, 5⟩
abbrev SYS_RSTSTAT_VANA : Fld := ⟨0x14, 4, 4⟩
abbrev SYS_RSTSTAT_VNVM : Fld := ⟨0x14, 3, 3⟩
abbrev SYS_RSTSTAT_VCORE : Fld := ⟨0x14, 2, 2⟩
abbrev SYS_RSTSTAT_OV : Fld := ⟨0x14, 1, 1⟩
abbrev SYS_RSTSTAT_POR : Fld := ⟨0x14, 0, 0⟩
abbrev SYS_RSTCTL_KEY : Fld := ⟨0x18, 31, 16⟩
abbrev SYS_RSTCTL_HOSTRST_EN : Fld := ⟨0x18, 1, 1⟩
abbrev SYS_RSTCTL_SWRST : Fld := ⟨0x18, 0, 0⟩
abbrev PLL_CTL_SYNC_EN : Fld := ⟨0xB0000, 3, 3⟩
abbrev PLL_CTL_SPARE_AUTO : Fld := ⟨0xB0000, 2, 2⟩
abbrev PLL_CTL_APPLY : Fld := ⟨0xB0000, 1, 1⟩
abbrev PLL_CTL_RC_RETURN : Fld := ⟨0xB0000, 0, 0⟩
abbrev PLL_DIV_REFDIV : Fld := ⟨0xB0004, 9, 9⟩
abbrev PLL_DIV_NINT : Fld := ⟨0xB0004, 8, 0⟩
abbrev PLL_FRAC_NFRAC : Fld := ⟨0xB0008, 23, 0⟩
abbrev PLL_SSC_MODE : Fld := ⟨0xB000C, 17, 16⟩
abbrev PLL_SSC_DEPTH : Fld := ⟨0xB000C, 15, 8⟩
abbrev PLL_SSC_RATE : Fld := ⟨0xB000C, 7, 0⟩
abbrev PLL_STAT_HOP_IDX : Fld := ⟨0xB0010, 15, 13⟩
abbrev PLL_STAT_SYNC_IGN : Fld := ⟨0xB0010, 12, 12⟩
abbrev PLL_STAT_APPLY_ERR : Fld := ⟨0xB0010, 11, 11⟩
abbrev PLL_STAT_HOP_REF : Fld := ⟨0xB0010, 10, 10⟩
abbrev PLL_STAT_SPARE_FAIL : Fld := ⟨0xB0010, 9, 9⟩
abbrev PLL_STAT_VCO_SEL : Fld := ⟨0xB0010, 8, 8⟩
abbrev PLL_STAT_SSC_ON : Fld := ⟨0xB0010, 7, 7⟩
abbrev PLL_STAT_RC : Fld := ⟨0xB0010, 6, 6⟩
abbrev PLL_STAT_HOLD : Fld := ⟨0xB0010, 5, 5⟩
abbrev PLL_STAT_REF_OK : Fld := ⟨0xB0010, 4, 4⟩
abbrev PLL_STAT_UNLK_STICKY : Fld := ⟨0xB0010, 3, 3⟩
abbrev PLL_STAT_BAND_DONE : Fld := ⟨0xB0010, 2, 2⟩
abbrev PLL_STAT_LOCK : Fld := ⟨0xB0010, 0, 0⟩
abbrev PLL_HOPCTL_GO : Fld := ⟨0xB0014, 3, 3⟩
abbrev PLL_HOPCTL_IDX : Fld := ⟨0xB0014, 2, 0⟩
abbrev PLL_HOP_VALID (k : Nat) : Fld := ⟨0xB0020 + 4 * k, 31, 31⟩
abbrev PLL_HOP_VCO (k : Nat) : Fld := ⟨0xB0020 + 4 * k, 30, 30⟩
abbrev PLL_HOP_BAND (k : Nat) : Fld := ⟨0xB0020 + 4 * k, 29, 24⟩
abbrev PLL_HOP_TBAND (k : Nat) : Fld := ⟨0xB0020 + 4 * k, 23, 22⟩
abbrev PLL_HOP_REFDIV (k : Nat) : Fld := ⟨0xB0020 + 4 * k, 21, 21⟩
abbrev PLL_HOP_NINT (k : Nat) : Fld := ⟨0xB0020 + 4 * k, 20, 12⟩
abbrev PLL_CLKMON_HOLD_MAX : Fld := ⟨0xB0040, 15, 0⟩
abbrev SYS_BOOTSTAT_PHASE : Fld := ⟨0x10, 23, 16⟩
abbrev SYS_BOOTSTAT_FAIL : Fld := ⟨0x10, 15, 8⟩
abbrev SYS_BOOTSTAT_DONE : Fld := ⟨0x10, 0, 0⟩
abbrev SYS_BOOTCFG0_CORE1_VEC : Fld := ⟨0x8, 31, 22⟩
abbrev SYS_BOOTCFG0_NINT : Fld := ⟨0x8, 21, 13⟩
abbrev SYS_BOOTCFG0_REFDIV : Fld := ⟨0x8, 12, 12⟩
abbrev SYS_BOOTCFG0_DUAL_CORE : Fld := ⟨0x8, 0, 0⟩
abbrev SYS_BOOTCFG1_NFRAC : Fld := ⟨0xC, 23, 0⟩
abbrev EVT_CMTSTAT_RULE : Fld := ⟨0x100C0, 23, 16⟩
abbrev EVT_CMTSTAT_SRC : Fld := ⟨0x100C0, 15, 15⟩
abbrev EVT_CMTSTAT_BLOCKS : Fld := ⟨0x100C0, 14, 8⟩
abbrev EVT_CMTSTAT_REASON : Fld := ⟨0x100C0, 3, 0⟩
abbrev EVT_LHOLD_TMO : Fld := ⟨0x100D0, 8, 8⟩
abbrev EVT_LHOLD_LIMIT : Fld := ⟨0x100D0, 7, 4⟩
abbrev EVT_LHOLD_HOLD : Fld := ⟨0x100D0, 0, 0⟩
abbrev EVT_PEND_PEND (i : Nat) : Fld := ⟨0x10000 + 4 * i, 31, 0⟩
abbrev EVT_EN_EN (i : Nat) : Fld := ⟨0x10010 + 4 * i, 31, 0⟩
abbrev EVT_ROUTE_ROUTE (i : Nat) : Fld := ⟨0x10020 + 4 * i, 31, 0⟩
abbrev EVT_OVR_OVR (i : Nat) : Fld := ⟨0x10030 + 4 * i, 31, 0⟩
abbrev EVT_PRI_PRI (k : Nat) (j : Nat) : Fld := ⟨0x10040 + 4 * k, 3 + 4 * j, 0 + 4 * j⟩
abbrev EVT_CLAIM_NONE : Fld := ⟨0x10080, 31, 31⟩
abbrev EVT_CLAIM_CLASS : Fld := ⟨0x10080, 11, 8⟩
abbrev EVT_CLAIM_EVENT : Fld := ⟨0x10080, 6, 0⟩
abbrev WEIR_CTL_TEN : Fld := ⟨0x20000, 3, 0⟩
abbrev WEIR_ENTRY_ENTRY (i : Nat) : Fld := ⟨0x20004 + 4 * i, 12, 0⟩
abbrev WEIR_LIM_LIM (i : Nat) : Fld := ⟨0x20020 + 4 * i, 23, 0⟩
abbrev WEIR_EXT_EXTMAX : Fld := ⟨0x20040, 23, 0⟩
abbrev WEIR_JUMP_JTH : Fld := ⟨0x20044, 31, 0⟩
abbrev WEIR_SYNC_HO_EN : Fld := ⟨0x20050, 31, 31⟩
abbrev WEIR_SYNC_NPULSE : Fld := ⟨0x20050, 5, 0⟩
abbrev WEIR_HOANG_ANGLE : Fld := ⟨0x20054, 31, 0⟩
abbrev WEIR_SON_SON : Fld := ⟨0x20058, 31, 0⟩
abbrev WEIR_SHYS_SHYS : Fld := ⟨0x2005C, 31, 0⟩
abbrev WEIR_SMAX_SMAX : Fld := ⟨0x20060, 31, 0⟩
abbrev WEIR_STMAX_STMAX : Fld := ⟨0x20064, 23, 0⟩
abbrev WEIR_HOCMT_XMASK : Fld := ⟨0x20068, 14, 8⟩
abbrev WEIR_HOCMT_HMASK : Fld := ⟨0x20068, 6, 0⟩
abbrev WEIR_STAT_NUSE : Fld := ⟨0x20100, 17, 12⟩
abbrev WEIR_STAT_TWAIT : Fld := ⟨0x20100, 11, 8⟩
abbrev WEIR_STAT_TRUN : Fld := ⟨0x20100, 7, 4⟩
abbrev WEIR_STAT_STALE : Fld := ⟨0x20100, 3, 3⟩
abbrev WEIR_STAT_DIR : Fld := ⟨0x20100, 2, 2⟩
abbrev WEIR_STAT_MODE : Fld := ⟨0x20100, 1, 0⟩
abbrev WEIR_ANG_THETA : Fld := ⟨0x20104, 31, 0⟩
abbrev WEIR_CAR_PHI : Fld := ⟨0x20108, 31, 0⟩
abbrev WEIR_SPD_OMEGA : Fld := ⟨0x2010C, 31, 0⟩
abbrev WEIR_ARM_ARM : Fld := ⟨0x20114, 3, 0⟩
abbrev WEIR_DISARM_DISARM : Fld := ⟨0x20118, 3, 0⟩
abbrev WEIR_PC_PC (i : Nat) : Fld := ⟨0x20120 + 4 * i, 12, 0⟩
abbrev WEIR_K_K (i : Nat) : Fld := ⟨0x20130 + 4 * i, 31, 0⟩
abbrev WEIR_ERR_ADDR : Fld := ⟨0x20140, 28, 16⟩
abbrev WEIR_ERR_THREAD : Fld := ⟨0x20140, 15, 14⟩
abbrev WEIR_ERR_CODE : Fld := ⟨0x20140, 7, 4⟩
abbrev WEIR_ERR_VALID : Fld := ⟨0x20140, 0, 0⟩
abbrev POS_CTL_EMEN : Fld := ⟨0x30000, 15, 15⟩
abbrev POS_CTL_FAILOVER : Fld := ⟨0x30000, 14, 14⟩
abbrev POS_CTL_EXCEN : Fld := ⟨0x30000, 13, 13⟩
abbrev POS_CTL_RXEN : Fld := ⟨0x30000, 12, 12⟩
abbrev POS_CTL_TERM : Fld := ⟨0x30000, 11, 11⟩
abbrev POS_CTL_SSRC : Fld := ⟨0x30000, 6, 4⟩
abbrev POS_CTL_PSRC : Fld := ⟨0x30000, 2, 0⟩
abbrev POS_PP_PP : Fld := ⟨0x30004, 5, 0⟩
abbrev POS_ENCCPR_CPR : Fld := ⟨0x30008, 23, 0⟩
abbrev POS_OFFSE_OFFS : Fld := ⟨0x30010, 31, 0⟩
abbrev POS_OFFSR_OFFS : Fld := ⟨0x30014, 31, 0⟩
abbrev POS_OFFSS_OFFS : Fld := ⟨0x30018, 31, 0⟩
abbrev POS_OFFSH_OFFS : Fld := ⟨0x3001C, 31, 0⟩
abbrev POS_ENC_LFT : Fld := ⟨0x30020, 23, 16⟩
abbrev POS_ENC_ZMODE : Fld := ⟨0x30020, 9, 8⟩
abbrev POS_ENC_DSET : Fld := ⟨0x30020, 7, 4⟩
abbrev POS_ENC_FLEN : Fld := ⟨0x30020, 3, 0⟩
abbrev POS_ZPOS_ZPOS : Fld := ⟨0x30024, 23, 0⟩
abbrev POS_QINF_QINF : Fld := ⟨0x30028, 31, 0⟩
abbrev POS_SWLO_SWLO : Fld := ⟨0x3002C, 31, 0⟩
abbrev POS_SWHI_SWHI : Fld := ⟨0x30030, 31, 0⟩
abbrev POS_ZTMO_ZTMO : Fld := ⟨0x30034, 23, 0⟩
abbrev POS_RSLV_TBW : Fld := ⟨0x30038, 31, 24⟩
abbrev POS_RSLV_EXCAMP : Fld := ⟨0x30038, 23, 20⟩
abbrev POS_RSLV_SMODE : Fld := ⟨0x30038, 19, 19⟩
abbrev POS_RSLV_RPP : Fld := ⟨0x30038, 18, 16⟩
abbrev POS_RSLV_EXCF : Fld := ⟨0x30038, 15, 0⟩
abbrev POS_RSLV2_EXCPH : Fld := ⟨0x3003C, 15, 0⟩
abbrev POS_RAMP_AMAX : Fld := ⟨0x30040, 31, 16⟩
abbrev POS_RAMP_AMIN : Fld := ⟨0x30040, 15, 0⟩
abbrev POS_RTRK_TERR : Fld := ⟨0x30044, 15, 0⟩
abbrev POS_SSI_ERRB : Fld := ⟨0x30048, 25, 25⟩
abbrev POS_SSI_PAR : Fld := ⟨0x30048, 24, 24⟩
abbrev POS_SSI_GRAY : Fld := ⟨0x30048, 23, 23⟩
abbrev POS_SSI_STBITS : Fld := ⟨0x30048, 22, 18⟩
abbrev POS_SSI_FLEN : Fld := ⟨0x30048, 17, 12⟩
abbrev POS_SSI_CLKDIV : Fld := ⟨0x30048, 11, 0⟩
abbrev POS_SSI2_MONO : Fld := ⟨0x3004C, 31, 16⟩
abbrev POS_SSI2_TLAT : Fld := ⟨0x3004C, 15, 0⟩
abbrev POS_HALLMAP_MAP : Fld := ⟨0x30050, 23, 0⟩
abbrev POS_XCHK_XANG : Fld := ⟨0x30054, 31, 16⟩
abbrev POS_XCHK_XCNT : Fld := ⟨0x30054, 7, 0⟩
abbrev POS_XMIN_XMIN : Fld := ⟨0x30058, 31, 0⟩
abbrev POS_EMU_N : Fld := ⟨0x3005C, 31, 16⟩
abbrev POS_EMU_M : Fld := ⟨0x3005C, 15, 0⟩
abbrev POS_EMCTL_EMZPER : Fld := ⟨0x30060, 31, 16⟩
abbrev POS_EMCTL_EMMIN : Fld := ⟨0x30060, 7, 0⟩
abbrev POS_CNTSET_SRC : Fld := ⟨0x30080, 31, 29⟩
abbrev POS_CNTSET_VALUE : Fld := ⟨0x30080, 23, 0⟩
abbrev POS_STAT_DIR : Fld := ⟨0x30100, 17, 17⟩
abbrev POS_STAT_DIRSET : Fld := ⟨0x30100, 16, 16⟩
abbrev POS_STAT_SRCUSE : Fld := ⟨0x30100, 14, 12⟩
abbrev POS_STAT_EMERR : Fld := ⟨0x30100, 11, 11⟩
abbrev POS_STAT_EMOVF : Fld := ⟨0x30100, 10, 10⟩
abbrev POS_STAT_SSIBUSY : Fld := ⟨0x30100, 9, 9⟩
abbrev POS_STAT_HOMED : Fld := ⟨0x30100, 8, 8⟩
abbrev POS_STAT_LFAULT : Fld := ⟨0x30100, 7, 7⟩
abbrev POS_STAT_RLOCK : Fld := ⟨0x30100, 6, 6⟩
abbrev POS_STAT_XSUSP : Fld := ⟨0x30100, 5, 5⟩
abbrev POS_STAT_XFAIL : Fld := ⟨0x30100, 4, 4⟩
abbrev POS_STAT_CNTDBT : Fld := ⟨0x30100, 3, 3⟩
abbrev POS_STAT_METH : Fld := ⟨0x30100, 2, 2⟩
abbrev POS_STAT_ONSEC : Fld := ⟨0x30100, 1, 1⟩
abbrev POS_STAT_AVALID : Fld := ⟨0x30100, 0, 0⟩
abbrev POS_MPOSLO_P : Fld := ⟨0x30104, 31, 0⟩
abbrev POS_MPOSHI_P : Fld := ⟨0x30108, 15, 0⟩
abbrev POS_LANG_THETA : Fld := ⟨0x3010C, 31, 0⟩
abbrev POS_LSPD_OMEGA : Fld := ⟨0x30110, 31, 0⟩
abbrev POS_LTSLO_TS : Fld := ⟨0x30114, 31, 0⟩
abbrev POS_LTSHI_TS : Fld := ⟨0x30118, 31, 0⟩
abbrev POS_XERR_E : Fld := ⟨0x3011C, 31, 0⟩
abbrev POS_ZCAP_CAP : Fld := ⟨0x30120, 23, 0⟩
abbrev POS_ERRCNT_QERR : Fld := ⟨0x30124, 31, 24⟩
abbrev POS_ERRCNT_HALLERR : Fld := ⟨0x30124, 23, 16⟩
abbrev POS_ERRCNT_SSIERR : Fld := ⟨0x30124, 15, 8⟩
abbrev POS_ERRCNT_SKIP : Fld := ⟨0x30124, 7, 0⟩
abbrev POS_RVEC_RERR : Fld := ⟨0x30128, 31, 16⟩
abbrev POS_RVEC_RMAG : Fld := ⟨0x30128, 15, 0⟩
abbrev ADC_CTL_REFEN : Fld := ⟨0x40000, 7, 7⟩
abbrev ADC_CTL_PRESEL : Fld := ⟨0x40000, 6, 4⟩
abbrev ADC_CTL_ROVMODE : Fld := ⟨0x40000, 1, 0⟩
abbrev ADC_TSRC_SRC (n : Nat) : Fld := ⟨0x40004, 1 + 2 * n, 0 + 2 * n⟩
abbrev ADC_ROVE_RVEN : Fld := ⟨0x40008, 31, 24⟩
abbrev ADC_ROVE_REFN : Fld := ⟨0x40008, 23, 20⟩
abbrev ADC_ROVE_PLCNT : Fld := ⟨0x40008, 19, 16⟩
abbrev ADC_ROVE_PLTH : Fld := ⟨0x40008, 15, 0⟩
abbrev ADC_TRIG_POS (i : Nat) : Fld := ⟨0x40010 + 4 * i, 19, 0⟩
abbrev ADC_SEQ_CNT (n j : Nat) : Fld := ⟨0x40040 + 12 * n + 4 * j, 22, 20⟩
abbrev ADC_SEQ_IN3 (n j : Nat) : Fld := ⟨0x40040 + 12 * n + 4 * j, 19, 15⟩
abbrev ADC_SEQ_IN2 (n j : Nat) : Fld := ⟨0x40040 + 12 * n + 4 * j, 14, 10⟩
abbrev ADC_SEQ_IN1 (n j : Nat) : Fld := ⟨0x40040 + 12 * n + 4 * j, 9, 5⟩
abbrev ADC_SEQ_IN0 (n j : Nat) : Fld := ⟨0x40040 + 12 * n + 4 * j, 4, 0⟩
abbrev ADC_SDMASK_MASK (i : Nat) (q : Nat) : Fld := ⟨0x400A0 + 4 * i, 7 + 8 * q, 0 + 8 * q⟩
abbrev ADC_SDCFG_EN (i : Nat) : Fld := ⟨0x400C0 + 4 * i, 31, 31⟩
abbrev ADC_SDCFG_CLK (i : Nat) : Fld := ⟨0x400C0 + 4 * i, 30, 30⟩
abbrev ADC_SDCFG_DLY (i : Nat) : Fld := ⟨0x400C0 + 4 * i, 27, 24⟩
abbrev ADC_SDCFG_DEC (i : Nat) : Fld := ⟨0x400C0 + 4 * i, 8, 0⟩
abbrev ADC_SDCK_EN1 : Fld := ⟨0x400E0, 17, 17⟩
abbrev ADC_SDCK_EN0 : Fld := ⟨0x400E0, 16, 16⟩
abbrev ADC_SDCK_DIV1 : Fld := ⟨0x400E0, 15, 8⟩
abbrev ADC_SDCK_DIV0 : Fld := ⟨0x400E0, 7, 0⟩
abbrev ADC_FCMP_EN (i : Nat) : Fld := ⟨0x40100 + 4 * i, 31, 31⟩
abbrev ADC_FCMP_SEL (i : Nat) : Fld := ⟨0x40100 + 4 * i, 20, 16⟩
abbrev ADC_FCMP_POL (i : Nat) : Fld := ⟨0x40100 + 4 * i, 15, 15⟩
abbrev ADC_FCMP_HYS (i : Nat) : Fld := ⟨0x40100 + 4 * i, 13, 12⟩
abbrev ADC_FCMP_TH (i : Nat) : Fld := ⟨0x40100 + 4 * i, 9, 0⟩
abbrev ADC_HKSEL_CNT : Fld := ⟨0x40120, 22, 20⟩
abbrev ADC_HKSEL_IN : Fld := ⟨0x40120, 19, 0⟩
abbrev ADC_CALGO_STEP : Fld := ⟨0x40140, 31, 30⟩
abbrev ADC_CALGO_AVG : Fld := ⟨0x40140, 29, 26⟩
abbrev ADC_CALGO_INPUT : Fld := ⟨0x40140, 20, 16⟩
abbrev ADC_CALGO_TARGET : Fld := ⟨0x40140, 15, 0⟩
abbrev ADC_CALSTAT_ERR : Fld := ⟨0x40144, 15, 12⟩
abbrev ADC_CALSTAT_INPUT : Fld := ⟨0x40144, 8, 4⟩
abbrev ADC_CALSTAT_ERRF : Fld := ⟨0x40144, 2, 2⟩
abbrev ADC_CALSTAT_DONE : Fld := ⟨0x40144, 1, 1⟩
abbrev ADC_CALSTAT_BUSY : Fld := ⟨0x40144, 0, 0⟩
abbrev ADC_SUBCMD_GO : Fld := ⟨0x40150, 2, 2⟩
abbrev ADC_SUBCMD_SLOT : Fld := ⟨0x40150, 1, 0⟩
abbrev ADC_STAT_ROVPHY : Fld := ⟨0x40180, 13, 12⟩
abbrev ADC_STAT_W2PHY : Fld := ⟨0x40180, 11, 10⟩
abbrev ADC_STAT_W1PHY : Fld := ⟨0x40180, 9, 8⟩
abbrev ADC_STAT_W0PHY : Fld := ⟨0x40180, 7, 6⟩
abbrev ADC_STAT_NOROVE : Fld := ⟨0x40180, 5, 5⟩
abbrev ADC_STAT_REFLOST : Fld := ⟨0x40180, 2, 2⟩
abbrev ADC_STAT_REF_READY : Fld := ⟨0x40180, 1, 1⟩
abbrev ADC_ROVSTAT_FAILSLOT : Fld := ⟨0x40184, 22, 20⟩
abbrev ADC_ROVSTAT_STATE : Fld := ⟨0x40184, 17, 16⟩
abbrev ADC_ROVSTAT_TARGET : Fld := ⟨0x40184, 15, 14⟩
abbrev ADC_ROVSTAT_MISS : Fld := ⟨0x40184, 11, 0⟩
abbrev ADC_ERRCNT_TRGOVR : Fld := ⟨0x40188, 31, 24⟩
abbrev ADC_ERRCNT_TRGLATE : Fld := ⟨0x40188, 23, 16⟩
abbrev ADC_ERRCNT_PLMIS : Fld := ⟨0x40188, 15, 8⟩
abbrev ADC_ERRCNT_SDFLT : Fld := ⟨0x40188, 7, 0⟩
abbrev ADC_RSLV_COS : Fld := ⟨0x40190, 31, 16⟩
abbrev ADC_RSLV_SIN : Fld := ⟨0x40190, 15, 0⟩
abbrev ADC_RSLVTAG_INVALID : Fld := ⟨0x40194, 0, 0⟩
abbrev ADC_HKRES_INVALID (i : Nat) : Fld := ⟨0x401A0 + 4 * i, 31, 31⟩
abbrev ADC_HKRES_SEQ (i : Nat) : Fld := ⟨0x401A0 + 4 * i, 27, 24⟩
abbrev ADC_HKRES_CODE (i : Nat) : Fld := ⟨0x401A0 + 4 * i, 13, 0⟩
abbrev ADC_CGAIN_GAIN (i p : Nat) : Fld := ⟨0x40400 + 16 * i + 4 * p, 23, 0⟩
abbrev ADC_COFFS_OFFS (i p : Nat) : Fld := ⟨0x40600 + 16 * i + 4 * p, 23, 0⟩
abbrev PWM_CTL_DTMODE : Fld := ⟨0x50000, 18, 18⟩
abbrev PWM_CTL_CARRYEN : Fld := ⟨0x50000, 17, 17⟩
abbrev PWM_CTL_EXT : Fld := ⟨0x50000, 16, 16⟩
abbrev PWM_CTL_NLEG : Fld := ⟨0x50000, 10, 8⟩
abbrev PWM_CTL_TOPO : Fld := ⟨0x50000, 6, 4⟩
abbrev PWM_CTL_UPD : Fld := ⟨0x50000, 3, 3⟩
abbrev PWM_CTL_CMODE : Fld := ⟨0x50000, 2, 1⟩
abbrev PWM_CTL_RUN : Fld := ⟨0x50000, 0, 0⟩
abbrev PWM_CPER_PER : Fld := ⟨0x50004, 19, 0⟩
abbrev PWM_OEN_OEN : Fld := ⟨0x50008, 17, 0⟩
abbrev PWM_TMIN_TMIN : Fld := ⟨0x5000C, 17, 0⟩
abbrev PWM_DTMIN_DT_MIN : Fld := ⟨0x50010, 17, 0⟩
abbrev PWM_DTMAX_DT_MAX : Fld := ⟨0x50014, 17, 0⟩
abbrev PWM_DTDEF_DTDEF : Fld := ⟨0x50018, 17, 0⟩
abbrev PWM_DTGUARD_HOT : Fld := ⟨0x5001C, 31, 24⟩
abbrev PWM_DTGUARD_WARM : Fld := ⟨0x5001C, 23, 16⟩
abbrev PWM_DTGUARD_NORMAL : Fld := ⟨0x5001C, 15, 8⟩
abbrev PWM_DTGUARD_COLD : Fld := ⟨0x5001C, 7, 0⟩
abbrev PWM_VSWTH_THP : Fld := ⟨0x50020, 25, 16⟩
abbrev PWM_VSWTH_THN : Fld := ⟨0x50020, 9, 0⟩
abbrev PWM_DTCTL_FLTN : Fld := ⟨0x50024, 15, 8⟩
abbrev PWM_DTCTL_NOTR : Fld := ⟨0x50024, 7, 0⟩
abbrev PWM_CARRY_CMAX : Fld := ⟨0x50028, 17, 0⟩
abbrev PWM_TRIPPAT_AGRP : Fld := ⟨0x50030, 2, 2⟩
abbrev PWM_TRIPPAT_TPAT : Fld := ⟨0x50030, 1, 0⟩
abbrev PWM_ASCSPD_ASCSPD : Fld := ⟨0x50034, 31, 0⟩
abbrev PWM_TRIPEN_EN : Fld := ⟨0x50038, 12, 0⟩
abbrev PWM_TBLK_LEG (i : Nat) : Fld := ⟨0x50040 + 4 * i, 18, 16⟩
abbrev PWM_TBLK_BLK (i : Nat) : Fld := ⟨0x50040 + 4 * i, 11, 0⟩
abbrev PWM_OVRS_INV : Fld := ⟨0x50060, 24, 16⟩
abbrev PWM_OVRS_SWAP : Fld := ⟨0x50060, 8, 0⟩
abbrev PWM_OVRF_FORCE (p : Nat) : Fld := ⟨0x50064, 1 + 2 * p, 0 + 2 * p⟩
abbrev PWM_OVM_OVMLIM : Fld := ⟨0x50068, 23, 0⟩
abbrev PWM_LSM_LO_LSM (k : Nat) : Fld := ⟨0x50080 + 8 * k, 31, 0⟩
abbrev PWM_LSM_HI_LSM (k : Nat) : Fld := ⟨0x50084 + 8 * k, 31, 0⟩
abbrev PWM_XCMP_EN (i : Nat) : Fld := ⟨0x500C0 + 4 * i, 31, 31⟩
abbrev PWM_XCMP_POS (i : Nat) : Fld := ⟨0x500C0 + 4 * i, 19, 0⟩
abbrev PWM_MIMAX_MIMAX : Fld := ⟨0x500E0, 23, 0⟩
abbrev PWM_STAT_FROZEN : Fld := ⟨0x50100, 15, 15⟩
abbrev PWM_STAT_RUNNING : Fld := ⟨0x50100, 14, 14⟩
abbrev PWM_STAT_DTDEFL : Fld := ⟨0x50100, 13, 8⟩
abbrev PWM_STAT_MICLAMP : Fld := ⟨0x50100, 6, 6⟩
abbrev PWM_STAT_CARRYOVF : Fld := ⟨0x50100, 5, 5⟩
abbrev PWM_STAT_LSREF : Fld := ⟨0x50100, 4, 4⟩
abbrev PWM_STAT_SHOOT : Fld := ⟨0x50100, 3, 3⟩
abbrev PWM_STAT_VSWFLT : Fld := ⟨0x50100, 2, 2⟩
abbrev PWM_TRIP_LATCH : Fld := ⟨0x50104, 31, 31⟩
abbrev PWM_TRIP_STILL : Fld := ⟨0x50104, 30, 30⟩
abbrev PWM_TRIP_PAT : Fld := ⟨0x50104, 29, 28⟩
abbrev PWM_TRIP_SRC : Fld := ⟨0x50104, 14, 0⟩
abbrev PWM_TRIPCMD_SWTRIP : Fld := ⟨0x50108, 1, 1⟩
abbrev PWM_TRIPCMD_CLR : Fld := ⟨0x50108, 0, 0⟩
abbrev PWM_CNT_N : Fld := ⟨0x5010C, 19, 0⟩
abbrev PWM_REF_V (k : Nat) : Fld := ⟨0x50120 + 4 * k, 23, 0⟩
abbrev PWM_DTR_DT (k : Nat) : Fld := ⟨0x50140 + 8 * k, 17, 0⟩
abbrev PWM_DTF_DT (k : Nat) : Fld := ⟨0x50144 + 8 * k, 17, 0⟩
abbrev PWM_CARRY_C (k : Nat) : Fld := ⟨0x50180 + 4 * k, 23, 0⟩
abbrev PWM_ERRCNT_PDROP : Fld := ⟨0x501A0, 31, 24⟩
abbrev PWM_ERRCNT_SHOOT : Fld := ⟨0x501A0, 23, 16⟩
abbrev PWM_ERRCNT_LSREF : Fld := ⟨0x501A0, 15, 8⟩
abbrev PWM_ERRCNT_NOTR : Fld := ⟨0x501A0, 7, 0⟩
abbrev CAS_CTL_PBASE : Fld := ⟨0x70000, 29, 16⟩
abbrev CAS_CTL_OUTPH : Fld := ⟨0x70000, 10, 8⟩
abbrev CAS_CTL_OBSEN : Fld := ⟨0x70000, 5, 5⟩
abbrev CAS_CTL_PAGE : Fld := ⟨0x70000, 4, 4⟩
abbrev CAS_CTL_ERRSTOP : Fld := ⟨0x70000, 1, 1⟩
abbrev CAS_CTL_EN : Fld := ⟨0x70000, 0, 0⟩
abbrev CAS_RUNMAX_RUNMAX : Fld := ⟨0x70004, 19, 0⟩
abbrev CAS_RCCTL_EN : Fld := ⟨0x70010, 31, 31⟩
abbrev CAS_RCCTL_LEAD : Fld := ⟨0x70010, 26, 16⟩
abbrev CAS_RCGAIN_LGAIN : Fld := ⟨0x70014, 31, 16⟩
abbrev CAS_RCGAIN_FGT : Fld := ⟨0x70014, 15, 0⟩
abbrev CAS_INJCTL_EN : Fld := ⟨0x70030, 31, 31⟩
abbrev CAS_INJCTL_TYPE : Fld := ⟨0x70030, 30, 29⟩
abbrev CAS_INJCTL_STEPSRC : Fld := ⟨0x70030, 28, 28⟩
abbrev CAS_INJCTL_ORDER : Fld := ⟨0x70030, 26, 24⟩
abbrev CAS_INJCTL_PMASK : Fld := ⟨0x70030, 23, 16⟩
abbrev CAS_INJCTL_LANES : Fld := ⟨0x70030, 15, 0⟩
abbrev CAS_INJAMP_AMP : Fld := ⟨0x70034, 31, 0⟩
abbrev CAS_INJF0_F0 : Fld := ⟨0x70038, 23, 0⟩
abbrev CAS_INJFSTEP_FSTEP : Fld := ⟨0x7003C, 23, 0⟩
abbrev CAS_INJLEN_DWELL : Fld := ⟨0x70040, 31, 16⟩
abbrev CAS_INJLEN_NSTEP : Fld := ⟨0x70040, 15, 0⟩
abbrev CAS_CAPCTL_PRE : Fld := ⟨0x70050, 29, 16⟩
abbrev CAS_CAPCTL_SH3 : Fld := ⟨0x70050, 15, 12⟩
abbrev CAS_CAPCTL_SH2 : Fld := ⟨0x70050, 11, 8⟩
abbrev CAS_CAPCTL_SH1 : Fld := ⟨0x70050, 7, 4⟩
abbrev CAS_CAPCTL_SH0 : Fld := ⟨0x70050, 3, 0⟩
abbrev CAS_CAPLANE_L3 : Fld := ⟨0x70054, 15, 12⟩
abbrev CAS_CAPLANE_L2 : Fld := ⟨0x70054, 11, 8⟩
abbrev CAS_CAPLANE_L1 : Fld := ⟨0x70054, 7, 4⟩
abbrev CAS_CAPLANE_L0 : Fld := ⟨0x70054, 3, 0⟩
abbrev CAS_TREF_VALUE : Fld := ⟨0x70080, 31, 0⟩
abbrev CAS_FREF_VALUE : Fld := ⟨0x70084, 31, 0⟩
abbrev CAS_SREF_VALUE : Fld := ⟨0x70088, 31, 0⟩
abbrev CAS_ILIM_VALUE : Fld := ⟨0x7008C, 31, 0⟩
abbrev CAS_TRAMP_VALUE : Fld := ⟨0x70090, 31, 0⟩
abbrev CAS_TMAX_VALUE : Fld := ⟨0x700A0, 31, 0⟩
abbrev CAS_TMIN_VALUE : Fld := ⟨0x700A4, 31, 0⟩
abbrev CAS_FMAX_VALUE : Fld := ⟨0x700A8, 31, 0⟩
abbrev CAS_FMIN_VALUE : Fld := ⟨0x700AC, 31, 0⟩
abbrev CAS_SPMAX_VALUE : Fld := ⟨0x700B0, 31, 0⟩
abbrev CAS_SPMIN_VALUE : Fld := ⟨0x700B4, 31, 0⟩
abbrev CAS_ILIMHW_VALUE : Fld := ⟨0x700B8, 31, 0⟩
abbrev CAS_RAMPMAX_VALUE : Fld := ⟨0x700BC, 31, 0⟩
abbrev CAS_CMD_ENTRY : Fld := ⟨0x700C0, 29, 16⟩
abbrev CAS_CMD_BIN : Fld := ⟨0x700C0, 14, 4⟩
abbrev CAS_CMD_CAPSTOP : Fld := ⟨0x700C0, 3, 3⟩
abbrev CAS_CMD_CAPARM : Fld := ⟨0x700C0, 2, 2⟩
abbrev CAS_CMD_RCSET : Fld := ⟨0x700C0, 1, 1⟩
abbrev CAS_CMD_START : Fld := ⟨0x700C0, 0, 0⟩
abbrev CAS_STAT_BUSY : Fld := ⟨0x70100, 31, 31⟩
abbrev CAS_STAT_PEND : Fld := ⟨0x70100, 30, 30⟩
abbrev CAS_STAT_PC : Fld := ⟨0x70100, 29, 16⟩
abbrev CAS_STAT_OBSV : Fld := ⟨0x70100, 15, 15⟩
abbrev CAS_STAT_RCLAMP : Fld := ⟨0x70100, 14, 10⟩
abbrev CAS_STAT_STOPPED : Fld := ⟨0x70100, 9, 9⟩
abbrev CAS_STAT_OVR : Fld := ⟨0x70100, 8, 8⟩
abbrev CAS_STAT_ERR : Fld := ⟨0x70100, 7, 4⟩
abbrev CAS_STAT_SAT : Fld := ⟨0x70100, 3, 3⟩
abbrev CAS_STAT_OVF : Fld := ⟨0x70100, 2, 2⟩
abbrev CAS_STAT_ERRF : Fld := ⟨0x70100, 1, 1⟩
abbrev CAS_RUNLEN_LAST : Fld := ⟨0x70104, 19, 0⟩
abbrev CAS_RUNPK_PEAK : Fld := ⟨0x70108, 19, 0⟩
abbrev CAS_RCBIN_BIN : Fld := ⟨0x7010C, 10, 0⟩
abbrev CAS_OBSANG_THETA : Fld := ⟨0x70110, 31, 0⟩
abbrev CAS_OBSSPD_OMEGA : Fld := ⟨0x70114, 31, 0⟩
abbrev CAS_INJSTAT_RUN : Fld := ⟨0x70118, 31, 31⟩
abbrev CAS_INJSTAT_STEP : Fld := ⟨0x70118, 23, 0⟩
abbrev CAS_CAPSTAT_STATE : Fld := ⟨0x70120, 31, 30⟩
abbrev CAS_CAPSTAT_FIRST : Fld := ⟨0x70120, 29, 16⟩
abbrev CAS_CAPSTAT_COUNT : Fld := ⟨0x70120, 14, 0⟩
abbrev CAS_CAPIDX_IDX : Fld := ⟨0x70124, 13, 0⟩
abbrev CAS_CAPD01_S1 : Fld := ⟨0x70128, 31, 16⟩
abbrev CAS_CAPD01_S0 : Fld := ⟨0x70128, 15, 0⟩
abbrev CAS_CAPD23_S3 : Fld := ⟨0x7012C, 31, 16⟩
abbrev CAS_CAPD23_S2 : Fld := ⟨0x7012C, 15, 0⟩
abbrev CAS_ERRADDR_ADDR : Fld := ⟨0x70130, 13, 0⟩
abbrev CAS_MSCTL_EN : Fld := ⟨0x70180, 31, 31⟩
abbrev CAS_MSCTL_XACT : Fld := ⟨0x70180, 26, 25⟩
abbrev CAS_MSCTL_LRACT : Fld := ⟨0x70180, 24, 23⟩
abbrev CAS_MSCTL_LLEND : Fld := ⟨0x70180, 22, 22⟩
abbrev CAS_MSCTL_NCOAST : Fld := ⟨0x70180, 15, 8⟩
abbrev CAS_MSCTL_NCATCH : Fld := ⟨0x70180, 7, 0⟩
abbrev CAS_MSFSSPD_FSSPD : Fld := ⟨0x70184, 31, 0⟩
abbrev CAS_MSREVSPD_REVSPD : Fld := ⟨0x70188, 31, 0⟩
abbrev CAS_MSOLSPD_OLSPD : Fld := ⟨0x7018C, 31, 0⟩
abbrev CAS_MSLRWIN_LRWIN : Fld := ⟨0x70190, 23, 0⟩
abbrev CAS_MSLRTQ_LRTQ : Fld := ⟨0x70194, 31, 0⟩
abbrev CAS_MSLRILIM_LRILIM : Fld := ⟨0x70198, 31, 0⟩
abbrev CAS_MSLLHOLD_LLHOLD : Fld := ⟨0x7019C, 23, 0⟩
abbrev CAS_MSLLRAMP_LLRAMP : Fld := ⟨0x701A0, 31, 0⟩
abbrev CAS_MSCDWIN_CDWIN : Fld := ⟨0x701A4, 23, 0⟩
abbrev CAS_MSCMD_REQREV : Fld := ⟨0x701C0, 5, 5⟩
abbrev CAS_MSCMD_REQFWD : Fld := ⟨0x701C0, 4, 4⟩
abbrev CAS_MSCMD_LLACK : Fld := ⟨0x701C0, 3, 3⟩
abbrev CAS_MSCMD_STOPREQ : Fld := ⟨0x701C0, 2, 2⟩
abbrev CAS_MSCMD_RUNREQ : Fld := ⟨0x701C0, 1, 1⟩
abbrev CAS_MSSTAT_STATE : Fld := ⟨0x701C4, 31, 28⟩
abbrev CAS_MSSTAT_CAUSE : Fld := ⟨0x701C4, 27, 24⟩
abbrev CAS_MSSTAT_LLPH : Fld := ⟨0x701C4, 23, 22⟩
abbrev CAS_MSSTAT_DIRSEL : Fld := ⟨0x701C4, 21, 21⟩
abbrev CAS_MSSTAT_LOCKED : Fld := ⟨0x701C4, 20, 20⟩
abbrev CAS_MSSTAT_STOPPING : Fld := ⟨0x701C4, 19, 19⟩
abbrev CAS_MSSTAT_REVREF : Fld := ⟨0x701C4, 15, 15⟩
abbrev CAS_MSSTAT_RUNREF : Fld := ⟨0x701C4, 14, 14⟩
abbrev CAS_MSSTAT_LRDET : Fld := ⟨0x701C4, 13, 13⟩
abbrev CAS_MSSTAT_OLDET : Fld := ⟨0x701C4, 12, 12⟩
abbrev CAS_MSSTAT_LLDET : Fld := ⟨0x701C4, 11, 11⟩
abbrev CAS_MSSTAT_TRIPD : Fld := ⟨0x701C4, 10, 10⟩
abbrev CAS_MSSTAT_CNT : Fld := ⟨0x701C4, 7, 0⟩
abbrev CAS_MSTOUT_TOUT : Fld := ⟨0x701C8, 31, 0⟩
abbrev CAS_MSIOUT_IOUT : Fld := ⟨0x701CC, 31, 0⟩
abbrev CAS_MSCNT_TRIPS : Fld := ⟨0x701D0, 31, 24⟩
abbrev CAS_MSCNT_COASTS : Fld := ⟨0x701D0, 23, 16⟩
abbrev CAS_MSCNT_REVREF : Fld := ⟨0x701D0, 15, 8⟩
abbrev CAS_MSCNT_LOCKED : Fld := ⟨0x701D0, 7, 0⟩
abbrev GDI_CTL_BSEN : Fld := ⟨0x60000, 15, 10⟩
abbrev GDI_CTL_DSCHEN : Fld := ⟨0x60000, 7, 7⟩
abbrev GDI_CTL_BRKEN : Fld := ⟨0x60000, 6, 6⟩
abbrev GDI_CTL_BRKMODE : Fld := ⟨0x60000, 5, 5⟩
abbrev GDI_CTL_VDCEN : Fld := ⟨0x60000, 4, 4⟩
abbrev GDI_CTL_GFPOL : Fld := ⟨0x60000, 3, 3⟩
abbrev GDI_CTL_TPEN : Fld := ⟨0x60000, 0, 0⟩
abbrev GDI_TPOL_TPOL : Fld := ⟨0x60004, 7, 0⟩
abbrev GDI_TFLT_TFLT (i : Nat) (q : Nat) : Fld := ⟨0x60008 + 4 * i, 7 + 8 * q, 0 + 8 * q⟩
abbrev GDI_GFCFG_GFFLT : Fld := ⟨0x60010, 7, 0⟩
abbrev GDI_GFEN_GFEN : Fld := ⟨0x60014, 17, 0⟩
abbrev GDI_GINCFG_TPMIN : Fld := ⟨0x60018, 31, 16⟩
abbrev GDI_GINCFG_GINFLT : Fld := ⟨0x60018, 3, 0⟩
abbrev GDI_OVTH_OV2TH : Fld := ⟨0x60020, 25, 16⟩
abbrev GDI_OVTH_OV2FLT : Fld := ⟨0x60020, 15, 8⟩
abbrev GDI_OVTH_OV2HYS : Fld := ⟨0x60020, 1, 0⟩
abbrev GDI_DSCHLO_DLOTH : Fld := ⟨0x60024, 9, 0⟩
abbrev GDI_BRKPWM_BRKPER : Fld := ⟨0x60028, 31, 16⟩
abbrev GDI_BRKPWM_BRKON : Fld := ⟨0x60028, 15, 0⟩
abbrev GDI_BRKMIN_BRKMIN : Fld := ⟨0x6002C, 15, 0⟩
abbrev GDI_BS_BSK : Fld := ⟨0x60030, 31, 24⟩
abbrev GDI_BS_BSTREF : Fld := ⟨0x60030, 19, 0⟩
abbrev GDI_BSUV_BSUVN : Fld := ⟨0x60034, 15, 8⟩
abbrev GDI_BSUV_BSFLT : Fld := ⟨0x60034, 7, 0⟩
abbrev GDI_DSCH_DFBT : Fld := ⟨0x60038, 31, 24⟩
abbrev GDI_DSCH_DSCHT : Fld := ⟨0x60038, 23, 8⟩
abbrev GDI_DSCHMAX_DSCHMAX : Fld := ⟨0x6003C, 15, 0⟩
abbrev GDI_BRKTH_ON : Fld := ⟨0x60040, 25, 16⟩
abbrev GDI_BRKTH_HYS : Fld := ⟨0x60040, 9, 0⟩
abbrev GDI_CMD_DSTOP : Fld := ⟨0x60080, 2, 2⟩
abbrev GDI_CMD_DSTART : Fld := ⟨0x60080, 1, 1⟩
abbrev GDI_STAT_TPM : Fld := ⟨0x60100, 31, 31⟩
abbrev GDI_STAT_GSELREQ : Fld := ⟨0x60100, 30, 30⟩
abbrev GDI_STAT_GIN : Fld := ⟨0x60100, 29, 27⟩
abbrev GDI_STAT_BRK : Fld := ⟨0x60100, 25, 25⟩
abbrev GDI_STAT_OV2 : Fld := ⟨0x60100, 24, 24⟩
abbrev GDI_STAT_OV1 : Fld := ⟨0x60100, 23, 23⟩
abbrev GDI_STAT_BRKCLAMP : Fld := ⟨0x60100, 22, 22⟩
abbrev GDI_STAT_DPHASE : Fld := ⟨0x60100, 21, 20⟩
abbrev GDI_STAT_DFBF : Fld := ⟨0x60100, 19, 19⟩
abbrev GDI_STAT_DTMOF : Fld := ⟨0x60100, 18, 18⟩
abbrev GDI_STAT_DSREF : Fld := ⟨0x60100, 17, 17⟩
abbrev GDI_STAT_GINERR : Fld := ⟨0x60100, 16, 16⟩
abbrev GDI_STAT_BSCHG : Fld := ⟨0x60100, 15, 10⟩
abbrev GDI_STAT_BSLIM : Fld := ⟨0x60100, 7, 2⟩
abbrev GDI_GFLATCH_LATCH : Fld := ⟨0x60104, 17, 0⟩
abbrev GDI_GFSTKY_STKY : Fld := ⟨0x60108, 17, 0⟩
abbrev GDI_GFIN_ACT : Fld := ⟨0x6010C, 17, 0⟩
abbrev GDI_TRIPIN_ACT : Fld := ⟨0x60110, 7, 0⟩
abbrev GDI_DSCHTIME_T : Fld := ⟨0x60114, 23, 0⟩
abbrev GDI_ERRCNT_GF : Fld := ⟨0x60118, 31, 24⟩
abbrev GDI_ERRCNT_GINERR : Fld := ⟨0x60118, 23, 16⟩
abbrev GDI_ERRCNT_BSCHG : Fld := ⟨0x60118, 15, 8⟩
abbrev GDI_ERRCNT_OV1 : Fld := ⟨0x60118, 7, 0⟩
abbrev LSC_CTL_CODECHK : Fld := ⟨0x90000, 1, 1⟩
abbrev LSC_CTL_LOSTTRIP : Fld := ⟨0x90000, 0, 0⟩
abbrev LSC_CKMAX_CKMAX : Fld := ⟨0x90004, 23, 0⟩
abbrev LSC_SPLITVEC_VEC : Fld := ⟨0x90008, 9, 0⟩
abbrev LSC_SPLITMAX_SPLITMAX : Fld := ⟨0x9000C, 23, 0⟩
abbrev LSC_STAT_MAIN : Fld := ⟨0x90100, 31, 30⟩
abbrev LSC_STAT_SHADOW : Fld := ⟨0x90100, 29, 28⟩
abbrev LSC_STAT_SPARE : Fld := ⟨0x90100, 27, 26⟩
abbrev LSC_STAT_RETIRED : Fld := ⟨0x90100, 25, 23⟩
abbrev LSC_STAT_PHASE : Fld := ⟨0x90100, 22, 20⟩
abbrev LSC_STAT_SPLIT : Fld := ⟨0x90100, 19, 19⟩
abbrev LSC_STAT_JOINPEND : Fld := ⟨0x90100, 18, 18⟩
abbrev LSC_STAT_SPLITPEND : Fld := ⟨0x90100, 17, 17⟩
abbrev LSC_STAT_DBG_BROKEN : Fld := ⟨0x90100, 16, 16⟩
abbrev LSC_STAT_CKVALID : Fld := ⟨0x90100, 15, 15⟩
abbrev LSC_STAT_LOGOVF : Fld := ⟨0x90100, 14, 14⟩
abbrev LSC_STAT_CKOLD : Fld := ⟨0x90100, 13, 13⟩
abbrev LSC_STAT_CODEERR : Fld := ⟨0x90100, 12, 12⟩
abbrev LSC_STAT_MISGRP : Fld := ⟨0x90100, 11, 6⟩
abbrev LSC_CKTAG_TAG : Fld := ⟨0x90104, 31, 0⟩
abbrev LSC_CKTS_TS : Fld := ⟨0x90108, 31, 0⟩
abbrev LSC_LOGLVL_JRNL : Fld := ⟨0x9010C, 28, 16⟩
abbrev LSC_LOGLVL_RLOG : Fld := ⟨0x9010C, 12, 0⟩
abbrev LSC_CNT_MISMATCH : Fld := ⟨0x90110, 31, 24⟩
abbrev LSC_CNT_TRANSIENT : Fld := ⟨0x90110, 23, 16⟩
abbrev LSC_CNT_RETIRE : Fld := ⟨0x90110, 15, 8⟩
abbrev LSC_CNT_RESTORE : Fld := ⟨0x90110, 7, 0⟩
abbrev LSC_MISTS_TS : Fld := ⟨0x90114, 31, 0⟩
abbrev SAFE_STOCFG_STOFLT : Fld := ⟨0x80000, 19, 12⟩
abbrev SAFE_STOCFG_DISC : Fld := ⟨0x80000, 11, 3⟩
abbrev SAFE_STOCFG_MANREST : Fld := ⟨0x80000, 2, 2⟩
abbrev SAFE_STOCFG_INMODE : Fld := ⟨0x80000, 1, 1⟩
abbrev SAFE_SS1CFG_SS1T : Fld := ⟨0x80004, 31, 16⟩
abbrev SAFE_SS1SPD_SS1SPD : Fld := ⟨0x80008, 31, 0⟩
abbrev SAFE_SS1TOL_SS1TOL : Fld := ⟨0x8000C, 31, 0⟩
abbrev SAFE_KCFG_EN (k : Nat) : Fld := ⟨0x80010, 2 + 4 * k, 2 + 4 * k⟩
abbrev SAFE_KCFG_FBPOL (k : Nat) : Fld := ⟨0x80010, 1 + 4 * k, 1 + 4 * k⟩
abbrev SAFE_KCFG_KTRIP (k : Nat) : Fld := ⟨0x80010, 0 + 4 * k, 0 + 4 * k⟩
abbrev SAFE_KTIME_KFBFLT : Fld := ⟨0x80014, 31, 24⟩
abbrev SAFE_KTIME_KCLT : Fld := ⟨0x80014, 23, 12⟩
abbrev SAFE_KTIME_KOPT : Fld := ⟨0x80014, 11, 0⟩
abbrev SAFE_HG_HGEN : Fld := ⟨0x80018, 31, 31⟩
abbrev SAFE_HG_HGSTATE : Fld := ⟨0x80018, 11, 10⟩
abbrev SAFE_HG_HGTIME : Fld := ⟨0x80018, 9, 0⟩
abbrev SAFE_TPCFG_TPEN : Fld := ⟨0x80020, 31, 31⟩
abbrev SAFE_TPCFG_TPREQ : Fld := ⟨0x80020, 30, 30⟩
abbrev SAFE_TPCFG_TPWIN : Fld := ⟨0x80020, 29, 29⟩
abbrev SAFE_TPCFG_TPTRIP : Fld := ⟨0x80020, 28, 28⟩
abbrev SAFE_TPCFG_TPCNT : Fld := ⟨0x80020, 23, 16⟩
abbrev SAFE_TPCFG_TINW : Fld := ⟨0x80020, 14, 10⟩
abbrev SAFE_TPCFG_TINV : Fld := ⟨0x80020, 9, 5⟩
abbrev SAFE_TPCFG_TINU : Fld := ⟨0x80020, 4, 0⟩
abbrev SAFE_TPKT_KT : Fld := ⟨0x80024, 31, 0⟩
abbrev SAFE_TPKR_KR : Fld := ⟨0x80028, 31, 0⟩
abbrev SAFE_TPTOL_TPTOL : Fld := ⟨0x8002C, 31, 0⟩
abbrev SAFE_TPLIM_TPSPAN : Fld := ⟨0x80030, 31, 16⟩
abbrev SAFE_TPLIM_TPREL : Fld := ⟨0x80030, 15, 0⟩
abbrev SAFE_TPSTALE_TPSTALE : Fld := ⟨0x80034, 23, 0⟩
abbrev SAFE_SLSMIN_SLSMIN : Fld := ⟨0x80038, 31, 0⟩
abbrev SAFE_SLSMAX_SLSMAX : Fld := ⟨0x8003C, 31, 0⟩
abbrev SAFE_SLSLIM_SLSLIM : Fld := ⟨0x80040, 31, 0⟩
abbrev SAFE_CMD_STOTEST : Fld := ⟨0x80080, 6, 6⟩
abbrev SAFE_CMD_STORST : Fld := ⟨0x80080, 5, 5⟩
abbrev SAFE_CMD_SS1REQ : Fld := ⟨0x80080, 4, 4⟩
abbrev SAFE_CMD_SS1CLR : Fld := ⟨0x80080, 3, 3⟩
abbrev SAFE_CMD_KCLR : Fld := ⟨0x80080, 2, 2⟩
abbrev SAFE_CMD_HGCLR : Fld := ⟨0x80080, 1, 1⟩
abbrev SAFE_KCMD_OPEN : Fld := ⟨0x80084, 5, 3⟩
abbrev SAFE_KCMD_CLOSE : Fld := ⟨0x80084, 2, 0⟩
abbrev SAFE_UNLOCK_KEY : Fld := ⟨0x80090, 31, 0⟩
abbrev SAFE_LOCKCTL_LABEXIT : Fld := ⟨0x80094, 2, 2⟩
abbrev SAFE_LOCKCTL_LABENTER : Fld := ⟨0x80094, 1, 1⟩
abbrev SAFE_LOCKCTL_RELOCK : Fld := ⟨0x80094, 0, 0⟩
abbrev SAFE_STAT_STODEM : Fld := ⟨0x80100, 31, 31⟩
abbrev SAFE_STAT_STOA : Fld := ⟨0x80100, 30, 30⟩
abbrev SAFE_STAT_STOB : Fld := ⟨0x80100, 29, 29⟩
abbrev SAFE_STAT_DISCF : Fld := ⟨0x80100, 28, 28⟩
abbrev SAFE_STAT_RESTWAIT : Fld := ⟨0x80100, 27, 27⟩
abbrev SAFE_STAT_OSCF : Fld := ⟨0x80100, 26, 26⟩
abbrev SAFE_STAT_SS1PH : Fld := ⟨0x80100, 25, 24⟩
abbrev SAFE_STAT_HGACT : Fld := ⟨0x80100, 23, 23⟩
abbrev SAFE_STAT_LAB : Fld := ⟨0x80100, 22, 22⟩
abbrev SAFE_STAT_UNLOCKED : Fld := ⟨0x80100, 21, 21⟩
abbrev SAFE_STAT_LOCKOUT : Fld := ⟨0x80100, 20, 20⟩
abbrev SAFE_STAT_TPFAIL : Fld := ⟨0x80100, 19, 19⟩
abbrev SAFE_STAT_TPSUSP : Fld := ⟨0x80100, 18, 18⟩
abbrev SAFE_STAT_SLSOVR : Fld := ⟨0x80100, 17, 17⟩
abbrev SAFE_STAT_STOTF : Fld := ⟨0x80100, 16, 16⟩
abbrev SAFE_STAT_WINOPEN : Fld := ⟨0x80100, 15, 15⟩
abbrev SAFE_STAT_KFAULT : Fld := ⟨0x80100, 14, 12⟩
abbrev SAFE_STAT_KFB : Fld := ⟨0x80100, 11, 9⟩
abbrev SAFE_STAT_KCL : Fld := ⟨0x80100, 8, 6⟩
abbrev SAFE_STAT_FAILCNT : Fld := ⟨0x80100, 2, 0⟩
abbrev SAFE_KSTAT_KIND (k : Nat) : Fld := ⟨0x80104, 2 + 3 * k, 0 + 3 * k⟩
abbrev SAFE_TPEST_TEST : Fld := ⟨0x80108, 31, 0⟩
abbrev SAFE_LOGSTAT_TOTAL : Fld := ⟨0x8010C, 31, 16⟩
abbrev SAFE_LOGSTAT_LOST : Fld := ⟨0x8010C, 15, 8⟩
abbrev SAFE_LOGSTAT_NEXT : Fld := ⟨0x8010C, 7, 0⟩
abbrev SAFE_LOGIDX_IDX : Fld := ⟨0x80110, 7, 0⟩
abbrev SAFE_LOGD_D (i : Nat) : Fld := ⟨0x80114 + 4 * i, 31, 0⟩
abbrev THM_CTL_TDEV : Fld := ⟨0xA0000, 31, 24⟩
abbrev THM_CTL_RRWIN : Fld := ⟨0xA0000, 20, 16⟩
abbrev THM_CTL_RRTRIP : Fld := ⟨0xA0000, 10, 8⟩
abbrev THM_RRLIM_RRLIM (i : Nat) : Fld := ⟨0xA0004 + 4 * i, 15, 0⟩
abbrev THM_SDCFG_SDCLR : Fld := ⟨0xA0010, 8, 8⟩
abbrev THM_SDCFG_SDMAX : Fld := ⟨0xA0010, 3, 0⟩
abbrev THM_SDSTAT_LAST : Fld := ⟨0xA0014, 31, 16⟩
abbrev THM_SDSTAT_SENSOR : Fld := ⟨0xA0014, 9, 8⟩
abbrev THM_SDSTAT_SDCNT : Fld := ⟨0xA0014, 3, 0⟩
abbrev THM_STAT_SEQ : Fld := ⟨0xA0100, 31, 28⟩
abbrev THM_STAT_NOVALID : Fld := ⟨0xA0100, 10, 10⟩
abbrev THM_STAT_BAND : Fld := ⟨0xA0100, 9, 8⟩
abbrev THM_STAT_SUSP : Fld := ⟨0xA0100, 6, 4⟩
abbrev THM_STAT_RRF : Fld := ⟨0xA0100, 2, 0⟩
abbrev THM_TEMP_VALID (i : Nat) : Fld := ⟨0xA0104 + 4 * i, 31, 31⟩
abbrev THM_TEMP_SUSPECT (i : Nat) : Fld := ⟨0xA0104 + 4 * i, 30, 30⟩
abbrev THM_TEMP_SEQ (i : Nat) : Fld := ⟨0xA0104 + 4 * i, 27, 24⟩
abbrev THM_TEMP_T (i : Nat) : Fld := ⟨0xA0104 + 4 * i, 15, 0⟩
abbrev THM_SUP0_VNVM : Fld := ⟨0xA0110, 31, 16⟩
abbrev THM_SUP0_VCORE : Fld := ⟨0xA0110, 15, 0⟩
abbrev THM_SUP1_VIO : Fld := ⟨0xA0114, 31, 16⟩
abbrev THM_SUP1_VANA : Fld := ⟨0xA0114, 15, 0⟩
abbrev THM_SUP2_VRING : Fld := ⟨0xA0118, 15, 0⟩
abbrev SPR_CTL_LBTRIP : Fld := ⟨0xD0000, 9, 9⟩
abbrev SPR_CTL_BALLTRIP : Fld := ⟨0xD0000, 8, 8⟩
abbrev SPR_CTL_CVPOL : Fld := ⟨0xD0000, 5, 5⟩
abbrev SPR_CTL_OXPOL : Fld := ⟨0xD0000, 4, 4⟩
abbrev SPR_CTL_CMPTEST : Fld := ⟨0xD0000, 2, 2⟩
abbrev SPR_CTL_SRAMREP : Fld := ⟨0xD0000, 1, 1⟩
abbrev SPR_CTL_MARGIN : Fld := ⟨0xD0000, 0, 0⟩
abbrev SPR_CVLIM_CVGLIM : Fld := ⟨0xD0004, 31, 16⟩
abbrev SPR_CVLIM_CVOLIM : Fld := ⟨0xD0004, 15, 0⟩
abbrev SPR_LIM_CMPOLIM : Fld := ⟨0xD0008, 31, 24⟩
abbrev SPR_LIM_VCOBLIM : Fld := ⟨0xD0008, 23, 16⟩
abbrev SPR_LIM_CEROW : Fld := ⟨0xD0008, 15, 8⟩
abbrev SPR_LIM_RBWIN : Fld := ⟨0xD0008, 7, 0⟩
abbrev SPR_OXLIM_OXLIM : Fld := ⟨0xD000C, 31, 0⟩
abbrev SPR_MRPER_MRPER : Fld := ⟨0xD0010, 15, 0⟩
abbrev SPR_CMD_ACT : Fld := ⟨0xD0080, 10, 8⟩
abbrev SPR_CMD_INDEX : Fld := ⟨0xD0080, 4, 0⟩
abbrev SPR_STAT_LBPAR : Fld := ⟨0xD0100, 14, 8⟩
abbrev SPR_STAT_WEARALM : Fld := ⟨0xD0100, 7, 7⟩
abbrev SPR_STAT_RECERR : Fld := ⟨0xD0100, 6, 6⟩
abbrev SPR_GSTAGE_SPARE : Fld := ⟨0xD0104, 18, 0⟩
abbrev SPR_GRET_RET : Fld := ⟨0xD0108, 18, 0⟩
abbrev SPR_GFAIL_FAIL : Fld := ⟨0xD010C, 18, 0⟩
abbrev SPR_CMP_SPARE : Fld := ⟨0xD0110, 22, 16⟩
abbrev SPR_CMP_TESTING : Fld := ⟨0xD0110, 6, 0⟩
abbrev SPR_TRIPIN_SPARE : Fld := ⟨0xD0114, 7, 0⟩
abbrev SPR_VCO_LOSS1 : Fld := ⟨0xD0118, 31, 28⟩
abbrev SPR_VCO_LOSS0 : Fld := ⟨0xD0118, 27, 24⟩
abbrev SPR_VCO_DRIFT1 : Fld := ⟨0xD0118, 23, 16⟩
abbrev SPR_VCO_DRIFT0 : Fld := ⟨0xD0118, 15, 8⟩
abbrev SPR_VCO_RET1 : Fld := ⟨0xD0118, 1, 1⟩
abbrev SPR_VCO_RET0 : Fld := ⟨0xD0118, 0, 0⟩
abbrev SPR_ROWS_SRAMSP : Fld := ⟨0xD011C, 31, 24⟩
abbrev SPR_ROWS_PMSP : Fld := ⟨0xD011C, 23, 16⟩
abbrev SPR_ROWS_NVMPEND : Fld := ⟨0xD011C, 15, 8⟩
abbrev SPR_ROWS_MRFAIL : Fld := ⟨0xD011C, 7, 0⟩
abbrev SPR_CVDRIFT_GAIN (p : Nat) : Fld := ⟨0xD0120 + 4 * p, 31, 16⟩
abbrev SPR_CVDRIFT_OFFS (p : Nat) : Fld := ⟨0xD0120 + 4 * p, 15, 0⟩
abbrev SPR_CMPOFF_SPARE (c : Nat) : Fld := ⟨0xD0140 + 4 * c, 31, 16⟩
abbrev SPR_CMPOFF_WORK (c : Nat) : Fld := ⟨0xD0140 + 4 * c, 15, 0⟩
abbrev SPR_OXS_COUNT (x : Nat) : Fld := ⟨0xD0180 + 4 * x, 31, 0⟩
abbrev SPR_OXSS_COUNT (x : Nat) : Fld := ⟨0xD01D0 + 4 * x, 31, 0⟩
abbrev RING_CTL_LLFORCE : Fld := ⟨0x100000, 4, 4⟩
abbrev RING_CTL_WRAPEN : Fld := ⟨0x100000, 3, 3⟩
abbrev RING_CTL_CMASTER : Fld := ⟨0x100000, 2, 2⟩
abbrev RING_CTL_PORTEN : Fld := ⟨0x100000, 0, 0⟩
abbrev RING_NODE_ID : Fld := ⟨0x100004, 3, 0⟩
abbrev RING_CYC_LLCYC : Fld := ⟨0x100008, 31, 24⟩
abbrev RING_CYC_CYCPER : Fld := ⟨0x100008, 23, 0⟩
abbrev RING_CFRM_CLEN : Fld := ⟨0x10000C, 26, 16⟩
abbrev RING_CFRM_CPREP : Fld := ⟨0x10000C, 15, 0⟩
abbrev RING_GUARD_GUARD : Fld := ⟨0x100010, 15, 0⟩
abbrev RING_ROUTE_PATH : Fld := ⟨0x100014, 15, 0⟩
abbrev RING_RACFG_RETRY : Fld := ⟨0x100018, 19, 16⟩
abbrev RING_RACFG_RATMO : Fld := ⟨0x100018, 15, 0⟩
abbrev RING_UPDSRC_EN : Fld := ⟨0x10001C, 4, 4⟩
abbrev RING_UPDSRC_NODE : Fld := ⟨0x10001C, 3, 0⟩
abbrev RING_EQ_BAND (b : Nat) : Fld := ⟨0x100020, 7 + 8 * b, 0 + 8 * b⟩
abbrev RING_UNWRAP_UNWRAPT : Fld := ⟨0x100024, 23, 0⟩
abbrev RING_ACL_WR (n : Nat) : Fld := ⟨0x100040 + 4 * n, 31, 16⟩
abbrev RING_ACL_RD (n : Nat) : Fld := ⟨0x100040 + 4 * n, 15, 0⟩
abbrev RING_CMAP_A_EN (k : Nat) : Fld := ⟨0x100080 + 8 * k, 31, 31⟩
abbrev RING_CMAP_A_DIR (k : Nat) : Fld := ⟨0x100080 + 8 * k, 30, 30⟩
abbrev RING_CMAP_A_UNIT (k : Nat) : Fld := ⟨0x100080 + 8 * k, 29, 27⟩
abbrev RING_CMAP_A_PSEL (k : Nat) : Fld := ⟨0x100080 + 8 * k, 26, 25⟩
abbrev RING_CMAP_A_WOFF (k : Nat) : Fld := ⟨0x100080 + 8 * k, 13, 0⟩
abbrev RING_CMAP_B_NW (k : Nat) : Fld := ⟨0x100084 + 8 * k, 15, 8⟩
abbrev RING_CMAP_B_FOFF (k : Nat) : Fld := ⟨0x100084 + 8 * k, 7, 0⟩
abbrev RING_STAT_LINKB : Fld := ⟨0x100100, 27, 26⟩
abbrev RING_STAT_LINKA : Fld := ⟨0x100100, 25, 24⟩
abbrev RING_STAT_WRAPB : Fld := ⟨0x100100, 23, 23⟩
abbrev RING_STAT_WRAPA : Fld := ⟨0x100100, 22, 22⟩
abbrev RING_STAT_BYPASS : Fld := ⟨0x100100, 21, 21⟩
abbrev RING_STAT_RLOST : Fld := ⟨0x100100, 20, 20⟩
abbrev RING_STAT_RTVALID : Fld := ⟨0x100100, 19, 19⟩
abbrev RING_STAT_CMAPERR : Fld := ⟨0x100100, 13, 13⟩
abbrev RING_STAT_CLATE : Fld := ⟨0x100100, 12, 12⟩
abbrev RING_STAT_DUPID : Fld := ⟨0x100100, 11, 11⟩
abbrev RING_STAT_MCONF : Fld := ⟨0x100100, 10, 10⟩
abbrev RING_STAT_RAERR : Fld := ⟨0x100100, 9, 9⟩
abbrev RING_RAERR_STAT : Fld := ⟨0x100104, 31, 28⟩
abbrev RING_RAERR_ADDR : Fld := ⟨0x100104, 27, 0⟩
abbrev RING_ERRCNT_HCRC : Fld := ⟨0x100108, 31, 24⟩
abbrev RING_ERRCNT_PCRC : Fld := ⟨0x100108, 23, 16⟩
abbrev RING_ERRCNT_FMT : Fld := ⟨0x100108, 15, 8⟩
abbrev RING_ERRCNT_HOP : Fld := ⟨0x100108, 7, 0⟩
abbrev RING_LDLY_DLYB : Fld := ⟨0x10010C, 31, 16⟩
abbrev RING_LDLY_DLYA : Fld := ⟨0x10010C, 15, 0⟩
abbrev RING_RTLO_T : Fld := ⟨0x100110, 31, 0⟩
abbrev RING_RTHI_T : Fld := ⟨0x100114, 31, 0⟩
abbrev RING_RTTSLO_T : Fld := ⟨0x100118, 31, 0⟩
abbrev RING_RTTSHI_T : Fld := ⟨0x10011C, 31, 0⟩
abbrev RING_CYCNT_CYC : Fld := ⟨0x100120, 31, 0⟩
abbrev RING_RTOFS_OFFS : Fld := ⟨0x100124, 31, 0⟩
abbrev RING_CHEPOCH_EPOCH (n : Nat) : Fld := ⟨0x100140 + 4 * n, 31, 0⟩
abbrev RING_CTX_D (i : Nat) : Fld := ⟨0x101000 + 4 * i, 31, 0⟩
abbrev RING_CRX_D (i : Nat) : Fld := ⟨0x102000 + 4 * i, 31, 0⟩
abbrev MBX_STAT_RAERR : Fld := ⟨0xE0000, 2, 2⟩
abbrev MBX_STAT_RTV : Fld := ⟨0xE0000, 1, 1⟩
abbrev MBX_STAT_LLOST : Fld := ⟨0xE0000, 0, 0⟩
abbrev MBX_DOOR_VALUE : Fld := ⟨0xE0004, 15, 0⟩
abbrev MBX_RAERR_STAT : Fld := ⟨0xE0008, 31, 28⟩
abbrev MBX_RAERR_ADDR : Fld := ⟨0xE0008, 27, 0⟩
abbrev MBX_RTLO_T : Fld := ⟨0xE0010, 31, 0⟩
abbrev MBX_RTHI_T : Fld := ⟨0xE0014, 31, 0⟩
abbrev MBX_RTTSLO_T : Fld := ⟨0xE0018, 31, 0⟩
abbrev MBX_RTTSHI_T : Fld := ⟨0xE001C, 31, 0⟩
abbrev UPD_STGCTL_KEY : Fld := ⟨0x110000, 31, 16⟩
abbrev UPD_STGCTL_SEAL : Fld := ⟨0x110000, 2, 2⟩
abbrev UPD_STGCTL_CLOSE : Fld := ⟨0x110000, 1, 1⟩
abbrev UPD_STGCTL_OPEN : Fld := ⟨0x110000, 0, 0⟩
abbrev UPD_CMD_KEY : Fld := ⟨0x110004, 31, 16⟩
abbrev UPD_CMD_CANCEL : Fld := ⟨0x110004, 1, 1⟩
abbrev UPD_CMD_REVERT : Fld := ⟨0x110004, 0, 0⟩
abbrev UPD_STAT_RESULT : Fld := ⟨0x110100, 31, 28⟩
abbrev UPD_STAT_PART : Fld := ⟨0x110100, 27, 24⟩
abbrev UPD_STAT_GEN : Fld := ⟨0x110100, 15, 10⟩
abbrev UPD_STAT_ROMGATE : Fld := ⟨0x110100, 9, 9⟩
abbrev UPD_STAT_REVOK : Fld := ⟨0x110100, 8, 8⟩
abbrev UPD_STAT_REVPEND : Fld := ⟨0x110100, 7, 7⟩
abbrev UPD_STAT_PENDING : Fld := ⟨0x110100, 6, 6⟩
abbrev UPD_STAT_STG : Fld := ⟨0x110100, 5, 4⟩
abbrev UPD_ACT_ACT : Fld := ⟨0x110104, 31, 0⟩
abbrev UPD_PREV_PREV : Fld := ⟨0x110108, 31, 0⟩
abbrev UPD_FLOOR_REV0 : Fld := ⟨0x11010C, 31, 31⟩
abbrev UPD_FLOOR_KP1 : Fld := ⟨0x11010C, 30, 30⟩
abbrev UPD_FLOOR_KP0 : Fld := ⟨0x11010C, 29, 29⟩
abbrev UPD_FLOOR_FUSE : Fld := ⟨0x11010C, 21, 16⟩
abbrev UPD_FLOOR_NVMCNT : Fld := ⟨0x11010C, 15, 0⟩
abbrev UPD_CHBOOT_INRESET (i : Nat) : Fld := ⟨0x110110 + 4 * i, 31, 31⟩
abbrev UPD_CHBOOT_RUNBANK (i : Nat) : Fld := ⟨0x110110 + 4 * i, 30, 30⟩
abbrev UPD_CHBOOT_SELBANK (i : Nat) : Fld := ⟨0x110110 + 4 * i, 29, 29⟩
abbrev UPD_CHBOOT_BOOT (i : Nat) : Fld := ⟨0x110110 + 4 * i, 23, 0⟩
abbrev UPD_CNT_TAKEN : Fld := ⟨0x110120, 31, 16⟩
abbrev UPD_CNT_REFUSED : Fld := ⟨0x110120, 15, 8⟩
abbrev UPD_CNT_DROPPED : Fld := ⟨0x110120, 7, 0⟩
abbrev BOOT_STAT_PHASE : Fld := ⟨0x120100, 23, 16⟩
abbrev BOOT_STAT_FAIL : Fld := ⟨0x120100, 15, 8⟩
abbrev BOOT_STAT_DONE : Fld := ⟨0x120100, 0, 0⟩
abbrev BOOT_ROWS_LEFT : Fld := ⟨0x120104, 23, 16⟩
abbrev BOOT_ROWS_NEW : Fld := ⟨0x120104, 15, 8⟩
abbrev BOOT_ROWS_LIST : Fld := ⟨0x120104, 7, 0⟩
abbrev PERF_CTL_UREAD : Fld := ⟨0xC0000, 0, 0⟩
abbrev PERF_MODE_MODE (k : Nat) (j : Nat) : Fld := ⟨0xC0010 + 4 * k, 1 + 2 * j, 0 + 2 * j⟩
abbrev PERF_SMP_EN (k : Nat) : Fld := ⟨0xC0040 + 4 * k, 31, 31⟩
abbrev PERF_SMP_EVENT (k : Nat) : Fld := ⟨0xC0040 + 4 * k, 24, 16⟩
abbrev PERF_SMP_PERIOD (k : Nat) : Fld := ⟨0xC0040 + 4 * k, 15, 0⟩
abbrev PERF_SMPCTL_CLR : Fld := ⟨0xC0050, 1, 1⟩
abbrev PERF_SMPCTL_WRAP : Fld := ⟨0xC0050, 0, 0⟩
abbrev PERF_SMPSTAT_LOST : Fld := ⟨0xC0054, 31, 24⟩
abbrev PERF_SMPSTAT_COUNT : Fld := ⟨0xC0054, 22, 16⟩
abbrev PERF_SMPSTAT_NEXT : Fld := ⟨0xC0054, 5, 0⟩
abbrev PERF_CNTCLR_ALL : Fld := ⟨0xC0060, 31, 31⟩
abbrev PERF_CNTCLR_NUMBER : Fld := ⟨0xC0060, 8, 0⟩
abbrev PERF_WRAP_WRAP (r : Nat) : Fld := ⟨0xC0080 + 4 * r, 31, 0⟩
abbrev PERF_CNTLO_COUNT (x : Nat) : Fld := ⟨0xC1000 + 8 * x, 31, 0⟩
abbrev PERF_CNTHI_COUNT (x : Nat) : Fld := ⟨0xC1004 + 8 * x, 15, 0⟩
abbrev DBG_ID_ID : Fld := ⟨0x200000, 31, 0⟩
abbrev DBG_AUTH_KEY : Fld := ⟨0x200004, 31, 0⟩
abbrev DBG_CTL_XCAS : Fld := ⟨0x200008, 11, 11⟩
abbrev DBG_CTL_XWEIR : Fld := ⟨0x200008, 10, 10⟩
abbrev DBG_CTL_STEPIE : Fld := ⟨0x200008, 9, 9⟩
abbrev DBG_CTL_DBRKEN : Fld := ⟨0x200008, 8, 8⟩
abbrev DBG_CTL_CRESUME : Fld := ⟨0x200008, 6, 6⟩
abbrev DBG_CTL_CHALT : Fld := ⟨0x200008, 5, 5⟩
abbrev DBG_CTL_WRESUME : Fld := ⟨0x200008, 4, 4⟩
abbrev DBG_CTL_WHALT : Fld := ⟨0x200008, 3, 3⟩
abbrev DBG_CTL_STEP : Fld := ⟨0x200008, 2, 2⟩
abbrev DBG_CTL_RESUME : Fld := ⟨0x200008, 1, 1⟩
abbrev DBG_CTL_HALTREQ : Fld := ⟨0x200008, 0, 0⟩
abbrev DBG_STAT_FLT : Fld := ⟨0x20000C, 23, 20⟩
abbrev DBG_STAT_FAILCNT : Fld := ⟨0x20000C, 18, 16⟩
abbrev DBG_STAT_CBPHIT : Fld := ⟨0x20000C, 15, 15⟩
abbrev DBG_STAT_WBPHIT : Fld := ⟨0x20000C, 14, 14⟩
abbrev DBG_STAT_WPHIT : Fld := ⟨0x20000C, 13, 12⟩
abbrev DBG_STAT_BPHIT : Fld := ⟨0x20000C, 11, 8⟩
abbrev DBG_STAT_CAUSE : Fld := ⟨0x20000C, 7, 5⟩
abbrev DBG_STAT_CHALTED : Fld := ⟨0x20000C, 4, 4⟩
abbrev DBG_STAT_WHALTED : Fld := ⟨0x20000C, 3, 3⟩
abbrev DBG_STAT_HALTED : Fld := ⟨0x20000C, 2, 2⟩
abbrev DBG_STAT_LOCKOUT : Fld := ⟨0x20000C, 1, 1⟩
abbrev DBG_STAT_AUTH : Fld := ⟨0x20000C, 0, 0⟩
abbrev DBG_BP_ADDR (k : Nat) : Fld := ⟨0x200020 + 4 * k, 31, 2⟩
abbrev DBG_BP_EN (k : Nat) : Fld := ⟨0x200020 + 4 * k, 0, 0⟩
abbrev DBG_WP_A_ADDR (w : Nat) : Fld := ⟨0x200030 + 8 * w, 31, 0⟩
abbrev DBG_WP_M_MASK (w : Nat) : Fld := ⟨0x200034 + 8 * w, 31, 2⟩
abbrev DBG_WP_M_STORE (w : Nat) : Fld := ⟨0x200034 + 8 * w, 1, 1⟩
abbrev DBG_WP_M_LOAD (w : Nat) : Fld := ⟨0x200034 + 8 * w, 0, 0⟩
abbrev DBG_WBP_EN : Fld := ⟨0x200040, 31, 31⟩
abbrev DBG_WBP_SLOT : Fld := ⟨0x200040, 12, 0⟩
abbrev DBG_CBP_EN : Fld := ⟨0x200044, 31, 31⟩
abbrev DBG_CBP_ADDR : Fld := ⟨0x200044, 13, 0⟩
abbrev EVT_CLTSLO_TS : Fld := ⟨0x10084, 31, 0⟩
abbrev EVT_CLTSHI_TS : Fld := ⟨0x10088, 31, 0⟩
abbrev EVT_CMTTS_TS : Fld := ⟨0x100C4, 31, 0⟩
abbrev EVT_CMTCNT_REFUSED : Fld := ⟨0x100C8, 31, 16⟩
abbrev EVT_CMTCNT_ACCEPTED : Fld := ⟨0x100C8, 15, 0⟩
abbrev HSYS_CHRST_CH : Fld := ⟨0x130010, 3, 0⟩
abbrev HPERF_XSEL_NUM (j : Nat) : Fld := ⟨0xC00C0 + 4 * j, 9, 0⟩

/-- The registers of SYS. -/
def rowsSys : List RegRow :=
  [ ⟨0x0, 4, 1, 0x41800000, 0x0, 0x0, 0x0, 0x0, 0x0⟩,
    ⟨0x4, 4, 1, 0x0, 0x0, 0x0, 0x0, 0x0, 0x0⟩,
    ⟨0x8, 4, 1, 0x0, 0x0, 0x0, 0x0, 0x0, 0x0⟩,
    ⟨0xC, 4, 1, 0x0, 0x0, 0x0, 0x0, 0x0, 0x0⟩,
    ⟨0x10, 4, 1, 0x10000, 0x0, 0x0, 0x0, 0x0, 0x0⟩,
    ⟨0x14, 4, 1, 0x1, 0x0, 0x0, 0x0, 0x1FF, 0x0⟩,
    ⟨0x18, 4, 1, 0x0, 0x2, 0x0, 0x0, 0x0, 0x0⟩ ]

/-- The registers of PLL. -/
def rowsPll : List RegRow :=
  [ ⟨0xB0000, 4, 1, 0x4, 0xC, 0x0, 0x0, 0x0, 0x0⟩,
    ⟨0xB0004, 4, 1, 0x0, 0x3FF, 0x0, 0x0, 0x0, 0x0⟩,
    ⟨0xB0008, 4, 1, 0x0, 0xFFFFFF, 0x0, 0x0, 0x0, 0x0⟩,
    ⟨0xB000C, 4, 1, 0x1E, 0x3FFFF, 0x0, 0x0, 0x0, 0x0⟩,
    ⟨0xB0010, 4, 1, 0x40, 0x0, 0x0, 0x0, 0x1C08, 0x0⟩,
    ⟨0xB0014, 4, 1, 0x0, 0x7, 0x0, 0x0, 0x0, 0x0⟩,
    ⟨0xB0020, 4, 8, 0x0, 0xFFFFF000, 0x0, 0x0, 0x0, 0x0⟩,
    ⟨0xB0040, 4, 1, 0x3E8, 0xFFFF, 0x0, 0x0, 0x0, 0x0⟩ ]

/-- The registers of EVT. -/
def rowsEvt : List RegRow :=
  [ ⟨0x10000, 4, 4, 0x0, 0x0, 0x0, 0x0, 0xFFFFFFFF, 0x0⟩,
    ⟨0x10010, 4, 4, 0x0, 0xFFFFFFFF, 0x0, 0x0, 0x0, 0x0⟩,
    ⟨0x10020, 4, 4, 0x0, 0xFFFFFFFF, 0x0, 0x0, 0x0, 0x0⟩,
    ⟨0x10030, 4, 4, 0x0, 0x0, 0x0, 0x0, 0xFFFFFFFF, 0x0⟩,
    ⟨0x10040, 4, 16, 0xFFFFFFFF, 0xFFFFFFFF, 0x0, 0x0, 0x0, 0x0⟩,
    ⟨0x10080, 4, 1, 0x80000000, 0x0, 0x0, 0x0, 0x0, 0x0⟩,
    ⟨0x10084, 4, 1, 0x0, 0x0, 0x0, 0x0, 0x0, 0x0⟩,
    ⟨0x10088, 4, 1, 0x0, 0x0, 0x0, 0x0, 0x0, 0x0⟩,
    ⟨0x100C0, 4, 1, 0x0, 0x0, 0x0, 0x0, 0x0, 0x0⟩,
    ⟨0x100C4, 4, 1, 0x0, 0x0, 0x0, 0x0, 0x0, 0x0⟩,
    ⟨0x100C8, 4, 1, 0x0, 0x0, 0x0, 0x0, 0x0, 0x0⟩,
    ⟨0x100D0, 4, 1, 0x40, 0xF1, 0x0, 0x0, 0x100, 0x0⟩ ]

/-- The registers of WEIR. -/
def rowsWeir : List RegRow :=
  [ ⟨0x20000, 4, 1, 0x0, 0x0, 0xF, 0x0, 0x0, 0x0⟩,
    ⟨0x20004, 4, 4, 0x0, 0x0, 0x1FFF, 0x0, 0x0, 0x0⟩,
    ⟨0x20020, 4, 8, 0x0, 0x0, 0xFFFFFF, 0x0, 0x0, 0x0⟩,
    ⟨0x20040, 4, 1, 0x61A80, 0x0, 0xFFFFFF, 0x0, 0x0, 0x0⟩,
    ⟨0x20044, 4, 1, 0xB60B61, 0x0, 0xFFFFFFFF, 0x0, 0x0, 0x0⟩,
    ⟨0x20050, 4, 1, 0x9, 0x0, 0x8000003F, 0x0, 0x0, 0x0⟩,
    ⟨0x20054, 4, 1, 0x0, 0x0, 0xFFFFFFFF, 0x0, 0x0, 0x0⟩,
    ⟨0x20058, 4, 1, 0x0, 0x0, 0xFFFFFFFF, 0x0, 0x0, 0x0⟩,
    ⟨0x2005C, 4, 1, 0x0, 0x0, 0xFFFFFFFF, 0x0, 0x0, 0x0⟩,
    ⟨0x20060, 4, 1, 0x0, 0x0, 0xFFFFFFFF, 0x0, 0x0, 0x0⟩,
    ⟨0x20064, 4, 1, 0xC3500, 0x0, 0xFFFFFF, 0x0, 0x0, 0x0⟩,
    ⟨0x20068, 4, 1, 0x101, 0x0, 0x7F7F, 0x0, 0x0, 0x0⟩,
    ⟨0x20100, 4, 1, 0x8, 0x0, 0x0, 0x0, 0x0, 0x0⟩,
    ⟨0x20104, 4, 1, 0x0, 0x0, 0x0, 0x0, 0x0, 0x0⟩,
    ⟨0x20108, 4, 1, 0x0, 0x0, 0x0, 0x0, 0x0, 0x0⟩,
    ⟨0x2010C, 4, 1, 0x0, 0x0, 0x0, 0x0, 0x0, 0x0⟩,
    ⟨0x20114, 4, 1, 0x0, 0x0, 0x0, 0x0, 0x0, 0xF⟩,
    ⟨0x20118, 4, 1, 0x0, 0x0, 0x0, 0x0, 0x0, 0x0⟩,
    ⟨0x20120, 4, 4, 0x0, 0x0, 0x0, 0x0, 0x0, 0x0⟩,
    ⟨0x20130, 4, 4, 0x0, 0x0, 0x0, 0x0, 0x0, 0x0⟩,
    ⟨0x20140, 4, 1, 0x0, 0x0, 0x0, 0x0, 0x1, 0x0⟩ ]

/-- Registers of POS, part 0. -/
def rowsPos0 : List RegRow :=
  [ ⟨0x30000, 4, 1, 0x0, 0x0, 0xF877, 0x0, 0x0, 0x0⟩,
    ⟨0x30004, 4, 1, 0x1, 0x0, 0x3F, 0x0, 0x0, 0x0⟩,
    ⟨0x30008, 4, 1, 0x4, 0x0, 0xFFFFFF, 0x0, 0x0, 0x0⟩,
    ⟨0x30010, 4, 1, 0x0, 0x0, 0xFFFFFFFF, 0x0, 0x0, 0x0⟩,
    ⟨0x30014, 4, 1, 0x0, 0x0, 0xFFFFFFFF, 0x0, 0x0, 0x0⟩,
    ⟨0x30018, 4, 1, 0x0, 0x0, 0xFFFFFFFF, 0x0, 0x0, 0x0⟩,
    ⟨0x3001C, 4, 1, 0x0, 0x0, 0xFFFFFFFF, 0x0, 0x0, 0x0⟩,
    ⟨0x30020, 4, 1, 0xA0043, 0x0, 0xFF03FF, 0x0, 0x0, 0x0⟩,
    ⟨0x30024, 4, 1, 0x0, 0x0, 0xFFFFFF, 0x0, 0x0, 0x0⟩,
    ⟨0x30028, 4, 1, 0xFFFFFFFF, 0x0, 0xFFFFFFFF, 0x0, 0x0, 0x0⟩,
    ⟨0x3002C, 4, 1, 0x0, 0x0, 0xFFFFFFFF, 0x0, 0x0, 0x0⟩,
    ⟨0x30030, 4, 1, 0x0, 0x0, 0xFFFFFFFF, 0x0, 0x0, 0x0⟩,
    ⟨0x30034, 4, 1, 0x3D0900, 0x0, 0xFFFFFF, 0x0, 0x0, 0x0⟩,
    ⟨0x30038, 4, 1, 0x28912710, 0x0, 0xFFFFFFFF, 0x0, 0x0, 0x0⟩,
    ⟨0x3003C, 4, 1, 0x0, 0x0, 0xFFFF, 0x0, 0x0, 0x0⟩,
    ⟨0x30040, 4, 1, 0x7D002000, 0x0, 0xFFFFFFFF, 0x0, 0x0, 0x0⟩,
    ⟨0x30044, 4, 1, 0x16C, 0x0, 0xFFFF, 0x0, 0x0, 0x0⟩,
    ⟨0x30048, 4, 1, 0x35918F, 0x0, 0x3FFFFFF, 0x0, 0x0, 0x0⟩,
    ⟨0x3004C, 4, 1, 0x1F400000, 0x0, 0xFFFFFFFF, 0x0, 0x0, 0x0⟩,
    ⟨0x30050, 4, 1, 0x0, 0x0, 0xFFFFFF, 0x0, 0x0, 0x0⟩,
    ⟨0x30054, 4, 1, 0xAAB0008, 0x0, 0xFFFF00FF, 0x0, 0x0, 0x0⟩,
    ⟨0x30058, 4, 1, 0x0, 0x0, 0xFFFFFFFF, 0x0, 0x0, 0x0⟩,
    ⟨0x3005C, 4, 1, 0x10001, 0x0, 0xFFFFFFFF, 0x0, 0x0, 0x0⟩,
    ⟨0x30060, 4, 1, 0xA, 0x0, 0xFFFF00FF, 0x0, 0x0, 0x0⟩ ]

/-- Registers of POS, part 1. -/
def rowsPos1 : List RegRow :=
  [ ⟨0x30080, 4, 1, 0x0, 0x0, 0x0, 0x0, 0x0, 0x0⟩,
    ⟨0x30100, 4, 1, 0x20, 0x0, 0x0, 0x0, 0x410, 0x0⟩,
    ⟨0x30104, 4, 1, 0x0, 0x0, 0x0, 0x0, 0x0, 0x0⟩,
    ⟨0x30108, 4, 1, 0x0, 0x0, 0x0, 0x0, 0x0, 0x0⟩,
    ⟨0x3010C, 4, 1, 0x0, 0x0, 0x0, 0x0, 0x0, 0x0⟩,
    ⟨0x30110, 4, 1, 0x0, 0x0, 0x0, 0x0, 0x0, 0x0⟩,
    ⟨0x30114, 4, 1, 0x0, 0x0, 0x0, 0x0, 0x0, 0x0⟩,
    ⟨0x30118, 4, 1, 0x0, 0x0, 0x0, 0x0, 0x0, 0x0⟩,
    ⟨0x3011C, 4, 1, 0x0, 0x0, 0x0, 0x0, 0x0, 0x0⟩,
    ⟨0x30120, 4, 1, 0x0, 0x0, 0x0, 0x0, 0x0, 0x0⟩,
    ⟨0x30124, 4, 1, 0x0, 0x0, 0x0, 0x0, 0x0, 0x0⟩,
    ⟨0x30128, 4, 1, 0x0, 0x0, 0x0, 0x0, 0x0, 0x0⟩ ]

/-- The registers of POS. -/
def rowsPos : List RegRow := rowsPos0 ++ rowsPos1

/-- The registers of ADC. -/
def rowsAdc : List RegRow :=
  [ ⟨0x40000, 4, 1, 0x0, 0x0, 0xF3, 0x0, 0x0, 0x0⟩,
    ⟨0x40004, 4, 1, 0x0, 0x0, 0xFFFF, 0x0, 0x0, 0x0⟩,
    ⟨0x40008, 4, 1, 0x830100, 0x0, 0xFFFFFFFF, 0x0, 0x0, 0x0⟩,
    ⟨0x40010, 4, 8, 0x0, 0x0, 0xFFFFF, 0x0, 0x0, 0x0⟩,
    ⟨0x40040, 4, 24, 0x0, 0x0, 0x7FFFFF, 0x0, 0x0, 0x0⟩,
    ⟨0x400A0, 4, 2, 0x0, 0x0, 0xFFFFFFFF, 0x0, 0x0, 0x0⟩,
    ⟨0x400C0, 4, 8, 0x40, 0x0, 0xCF0001FF, 0x0, 0x0, 0x0⟩,
    ⟨0x400E0, 4, 1, 0x1313, 0x0, 0x3FFFF, 0x0, 0x0, 0x0⟩,
    ⟨0x40100, 4, 4, 0x13FF, 0x0, 0x801FB3FF, 0x0, 0x0, 0x0⟩,
    ⟨0x40120, 4, 1, 0x0, 0x0, 0x7FFFFF, 0x0, 0x0, 0x0⟩,
    ⟨0x40140, 4, 1, 0x0, 0x0, 0x0, 0x0, 0x0, 0x0⟩,
    ⟨0x40144, 4, 1, 0x0, 0x0, 0x0, 0x0, 0x6, 0x0⟩,
    ⟨0x40150, 4, 1, 0x0, 0x0, 0x0, 0x0, 0x0, 0x0⟩,
    ⟨0x40180, 4, 1, 0x3900, 0x0, 0x0, 0x0, 0x4, 0x0⟩,
    ⟨0x40184, 4, 1, 0x20000, 0x0, 0x0, 0x0, 0x0, 0x0⟩,
    ⟨0x40188, 4, 1, 0x0, 0x0, 0x0, 0x0, 0x0, 0x0⟩,
    ⟨0x40190, 4, 1, 0x0, 0x0, 0x0, 0x0, 0x0, 0x0⟩,
    ⟨0x40194, 4, 1, 0x1, 0x0, 0x0, 0x0, 0x0, 0x0⟩,
    ⟨0x401A0, 4, 4, 0x80000000, 0x0, 0x0, 0x0, 0x0, 0x0⟩,
    ⟨0x40400, 4, 96, 0x400000, 0x0, 0xFFFFFF, 0x0, 0x0, 0x0⟩,
    ⟨0x40600, 4, 96, 0x0, 0x0, 0xFFFFFF, 0x0, 0x0, 0x0⟩ ]

/-- Registers of PWM, part 0. -/
def rowsPwm0 : List RegRow :=
  [ ⟨0x50000, 4, 1, 0x300, 0x0, 0x7077F, 0x0, 0x0, 0x0⟩,
    ⟨0x50004, 4, 1, 0x9C40, 0x0, 0xFFFFF, 0x0, 0x0, 0x0⟩,
    ⟨0x50008, 4, 1, 0x0, 0x0, 0x3FFFF, 0x0, 0x0, 0x0⟩,
    ⟨0x5000C, 4, 1, 0xFA00, 0x0, 0x3FFFF, 0x0, 0x0, 0x0⟩,
    ⟨0x50010, 4, 1, 0x3200, 0x0, 0x3FFFF, 0x0, 0x0, 0x0⟩,
    ⟨0x50014, 4, 1, 0xC800, 0x0, 0x3FFFF, 0x0, 0x0, 0x0⟩,
    ⟨0x50018, 4, 1, 0x9600, 0x0, 0x3FFFF, 0x0, 0x0, 0x0⟩,
    ⟨0x5001C, 4, 1, 0x50505050, 0x0, 0xFFFFFFFF, 0x0, 0x0, 0x0⟩,
    ⟨0x50020, 4, 1, 0x3000100, 0x0, 0x3FF03FF, 0x0, 0x0, 0x0⟩,
    ⟨0x50024, 4, 1, 0x408, 0x0, 0xFFFF, 0x0, 0x0, 0x0⟩,
    ⟨0x50028, 4, 1, 0x0, 0x0, 0x3FFFF, 0x0, 0x0, 0x0⟩,
    ⟨0x50030, 4, 1, 0x0, 0x0, 0x7, 0x0, 0x0, 0x0⟩,
    ⟨0x50034, 4, 1, 0x0, 0x0, 0xFFFFFFFF, 0x0, 0x0, 0x0⟩,
    ⟨0x50038, 4, 1, 0x1FFF, 0x0, 0x1FFF, 0x0, 0x0, 0x0⟩,
    ⟨0x50040, 4, 8, 0x70000, 0x0, 0x70FFF, 0x0, 0x0, 0x0⟩,
    ⟨0x50060, 4, 1, 0x0, 0x0, 0x1FF01FF, 0x0, 0x0, 0x0⟩,
    ⟨0x50064, 4, 1, 0x0, 0x0, 0x3FFFF, 0x0, 0x0, 0x0⟩,
    ⟨0x50068, 4, 1, 0x400000, 0x0, 0xFFFFFF, 0x0, 0x0, 0x0⟩,
    ⟨0x50080, 8, 6, 0x1, 0x0, 0xFFFFFFFF, 0x0, 0x0, 0x0⟩,
    ⟨0x50084, 8, 6, 0x0, 0x0, 0xFFFFFFFF, 0x0, 0x0, 0x0⟩,
    ⟨0x500C0, 4, 8, 0x0, 0x0, 0x800FFFFF, 0x0, 0x0, 0x0⟩,
    ⟨0x500E0, 4, 1, 0x400000, 0x0, 0x0, 0xFFFFFF, 0x0, 0x0⟩,
    ⟨0x50100, 4, 1, 0x0, 0x0, 0x0, 0x0, 0x7C, 0x0⟩,
    ⟨0x50104, 4, 1, 0x30000000, 0x0, 0x0, 0x0, 0x40000000, 0x0⟩ ]

/-- Registers of PWM, part 1. -/
def rowsPwm1 : List RegRow :=
  [ ⟨0x50108, 4, 1, 0x0, 0x0, 0x0, 0x0, 0x0, 0x0⟩,
    ⟨0x5010C, 4, 1, 0x0, 0x0, 0x0, 0x0, 0x0, 0x0⟩,
    ⟨0x50120, 4, 6, 0x0, 0x0, 0x0, 0x0, 0x0, 0x0⟩,
    ⟨0x50140, 8, 6, 0x9600, 0x0, 0x0, 0x0, 0x0, 0x0⟩,
    ⟨0x50144, 8, 6, 0x9600, 0x0, 0x0, 0x0, 0x0, 0x0⟩,
    ⟨0x50180, 4, 6, 0x0, 0x0, 0x0, 0x0, 0x0, 0x0⟩,
    ⟨0x501A0, 4, 1, 0x0, 0x0, 0x0, 0x0, 0x0, 0x0⟩ ]

/-- The registers of PWM. -/
def rowsPwm : List RegRow := rowsPwm0 ++ rowsPwm1

/-- Registers of CAS, part 0. -/
def rowsCas0 : List RegRow :=
  [ ⟨0x70000, 4, 1, 0x300, 0x0, 0x3FFF0733, 0x0, 0x0, 0x0⟩,
    ⟨0x70004, 4, 1, 0xC80, 0x0, 0xFFFFF, 0x0, 0x0, 0x0⟩,
    ⟨0x70010, 4, 1, 0x0, 0x0, 0x87FF0000, 0x0, 0x0, 0x0⟩,
    ⟨0x70014, 4, 1, 0x0, 0x0, 0xFFFFFFFF, 0x0, 0x0, 0x0⟩,
    ⟨0x70030, 4, 1, 0x0, 0x0, 0xF7FFFFFF, 0x0, 0x0, 0x0⟩,
    ⟨0x70034, 4, 1, 0x0, 0x0, 0xFFFFFFFF, 0x0, 0x0, 0x0⟩,
    ⟨0x70038, 4, 1, 0x0, 0x0, 0xFFFFFF, 0x0, 0x0, 0x0⟩,
    ⟨0x7003C, 4, 1, 0x0, 0x0, 0xFFFFFF, 0x0, 0x0, 0x0⟩,
    ⟨0x70040, 4, 1, 0x10000, 0x0, 0xFFFFFFFF, 0x0, 0x0, 0x0⟩,
    ⟨0x70050, 4, 1, 0x0, 0x0, 0x3FFFFFFF, 0x0, 0x0, 0x0⟩,
    ⟨0x70054, 4, 1, 0x0, 0x0, 0xFFFF, 0x0, 0x0, 0x0⟩,
    ⟨0x70080, 4, 1, 0x0, 0x0, 0x0, 0xFFFFFFFF, 0x0, 0x0⟩,
    ⟨0x70084, 4, 1, 0x0, 0x0, 0x0, 0xFFFFFFFF, 0x0, 0x0⟩,
    ⟨0x70088, 4, 1, 0x0, 0x0, 0x0, 0xFFFFFFFF, 0x0, 0x0⟩,
    ⟨0x7008C, 4, 1, 0x0, 0x0, 0x0, 0xFFFFFFFF, 0x0, 0x0⟩,
    ⟨0x70090, 4, 1, 0x0, 0x0, 0x0, 0xFFFFFFFF, 0x0, 0x0⟩,
    ⟨0x700A0, 4, 1, 0x0, 0x0, 0xFFFFFFFF, 0x0, 0x0, 0x0⟩,
    ⟨0x700A4, 4, 1, 0x0, 0x0, 0xFFFFFFFF, 0x0, 0x0, 0x0⟩,
    ⟨0x700A8, 4, 1, 0x0, 0x0, 0xFFFFFFFF, 0x0, 0x0, 0x0⟩,
    ⟨0x700AC, 4, 1, 0x0, 0x0, 0xFFFFFFFF, 0x0, 0x0, 0x0⟩,
    ⟨0x700B0, 4, 1, 0x0, 0x0, 0xFFFFFFFF, 0x0, 0x0, 0x0⟩,
    ⟨0x700B4, 4, 1, 0x0, 0x0, 0xFFFFFFFF, 0x0, 0x0, 0x0⟩,
    ⟨0x700B8, 4, 1, 0x0, 0x0, 0xFFFFFFFF, 0x0, 0x0, 0x0⟩,
    ⟨0x700BC, 4, 1, 0x0, 0x0, 0xFFFFFFFF, 0x0, 0x0, 0x0⟩ ]

/-- Registers of CAS, part 1. -/
def rowsCas1 : List RegRow :=
  [ ⟨0x700C0, 4, 1, 0x0, 0x0, 0x0, 0x0, 0x0, 0x0⟩,
    ⟨0x70100, 4, 1, 0x0, 0x0, 0x0, 0x0, 0x10E, 0x0⟩,
    ⟨0x70104, 4, 1, 0x0, 0x0, 0x0, 0x0, 0x0, 0x0⟩,
    ⟨0x70108, 4, 1, 0x0, 0x0, 0x0, 0x0, 0x0, 0x0⟩,
    ⟨0x7010C, 4, 1, 0x0, 0x0, 0x0, 0x0, 0x0, 0x0⟩,
    ⟨0x70110, 4, 1, 0x0, 0x0, 0x0, 0x0, 0x0, 0x0⟩,
    ⟨0x70114, 4, 1, 0x0, 0x0, 0x0, 0x0, 0x0, 0x0⟩,
    ⟨0x70118, 4, 1, 0x0, 0x0, 0x0, 0x0, 0x0, 0x0⟩,
    ⟨0x70120, 4, 1, 0x0, 0x0, 0x0, 0x0, 0x0, 0x0⟩,
    ⟨0x70124, 4, 1, 0x0, 0x3FFF, 0x0, 0x0, 0x0, 0x0⟩,
    ⟨0x70128, 4, 1, 0x0, 0x0, 0x0, 0x0, 0x0, 0x0⟩,
    ⟨0x7012C, 4, 1, 0x0, 0x0, 0x0, 0x0, 0x0, 0x0⟩,
    ⟨0x70130, 4, 1, 0x0, 0x0, 0x0, 0x0, 0x0, 0x0⟩,
    ⟨0x70180, 4, 1, 0x804, 0x0, 0x87C0FFFF, 0x0, 0x0, 0x0⟩,
    ⟨0x70184, 4, 1, 0x0, 0x0, 0xFFFFFFFF, 0x0, 0x0, 0x0⟩,
    ⟨0x70188, 4, 1, 0x0, 0x0, 0xFFFFFFFF, 0x0, 0x0, 0x0⟩,
    ⟨0x7018C, 4, 1, 0xFFFFFFFF, 0x0, 0xFFFFFFFF, 0x0, 0x0, 0x0⟩,
    ⟨0x70190, 4, 1, 0x0, 0x0, 0xFFFFFF, 0x0, 0x0, 0x0⟩,
    ⟨0x70194, 4, 1, 0x0, 0x0, 0xFFFFFFFF, 0x0, 0x0, 0x0⟩,
    ⟨0x70198, 4, 1, 0x0, 0x0, 0xFFFFFFFF, 0x0, 0x0, 0x0⟩,
    ⟨0x7019C, 4, 1, 0x0, 0x0, 0xFFFFFF, 0x0, 0x0, 0x0⟩,
    ⟨0x701A0, 4, 1, 0x0, 0x0, 0xFFFFFFFF, 0x0, 0x0, 0x0⟩,
    ⟨0x701A4, 4, 1, 0x0, 0x0, 0xFFFFFF, 0x0, 0x0, 0x0⟩,
    ⟨0x701C0, 4, 1, 0x0, 0x0, 0x0, 0x0, 0x0, 0x0⟩ ]

/-- Registers of CAS, part 2. -/
def rowsCas2 : List RegRow :=
  [ ⟨0x701C4, 4, 1, 0x0, 0x0, 0x0, 0x0, 0xFC00, 0x0⟩,
    ⟨0x701C8, 4, 1, 0x0, 0x0, 0x0, 0x0, 0x0, 0x0⟩,
    ⟨0x701CC, 4, 1, 0x0, 0x0, 0x0, 0x0, 0x0, 0x0⟩,
    ⟨0x701D0, 4, 1, 0x0, 0x0, 0x0, 0x0, 0x0, 0x0⟩ ]

/-- The registers of CAS. -/
def rowsCas : List RegRow := rowsCas0 ++ rowsCas1 ++ rowsCas2

/-- The registers of GDI. -/
def rowsGdi : List RegRow :=
  [ ⟨0x60000, 4, 1, 0x0, 0x0, 0xFCF9, 0x0, 0x0, 0x0⟩,
    ⟨0x60004, 4, 1, 0xFF, 0x0, 0xFF, 0x0, 0x0, 0x0⟩,
    ⟨0x60008, 4, 2, 0x2020202, 0x0, 0xFFFFFFFF, 0x0, 0x0, 0x0⟩,
    ⟨0x60010, 4, 1, 0x4, 0x0, 0xFF, 0x0, 0x0, 0x0⟩,
    ⟨0x60014, 4, 1, 0x0, 0x0, 0x3FFFF, 0x0, 0x0, 0x0⟩,
    ⟨0x60018, 4, 1, 0x1900003, 0x0, 0xFFFF000F, 0x0, 0x0, 0x0⟩,
    ⟨0x60020, 4, 1, 0x3FF0801, 0x0, 0x3FFFF03, 0x0, 0x0, 0x0⟩,
    ⟨0x60024, 4, 1, 0x0, 0x0, 0x3FF, 0x0, 0x0, 0x0⟩,
    ⟨0x60028, 4, 1, 0x3E801F4, 0x0, 0xFFFFFFFF, 0x0, 0x0, 0x0⟩,
    ⟨0x6002C, 4, 1, 0xFA0, 0x0, 0xFFFF, 0x0, 0x0, 0x0⟩,
    ⟨0x60030, 4, 1, 0x80007D0, 0x0, 0xFF0FFFFF, 0x0, 0x0, 0x0⟩,
    ⟨0x60034, 4, 1, 0x228, 0x0, 0xFFFF, 0x0, 0x0, 0x0⟩,
    ⟨0x60038, 4, 1, 0x644E2000, 0x0, 0xFFFFFF00, 0x0, 0x0, 0x0⟩,
    ⟨0x6003C, 4, 1, 0xC350, 0x0, 0xFFFF, 0x0, 0x0, 0x0⟩,
    ⟨0x60040, 4, 1, 0x3FF0010, 0x0, 0x0, 0x3FF03FF, 0x0, 0x0⟩,
    ⟨0x60080, 4, 1, 0x0, 0x0, 0x0, 0x0, 0x0, 0x0⟩,
    ⟨0x60100, 4, 1, 0x0, 0x0, 0x0, 0x0, 0x4F00FC, 0x0⟩,
    ⟨0x60104, 4, 1, 0x0, 0x0, 0x0, 0x0, 0x0, 0x0⟩,
    ⟨0x60108, 4, 1, 0x0, 0x0, 0x0, 0x0, 0x3FFFF, 0x0⟩,
    ⟨0x6010C, 4, 1, 0x0, 0x0, 0x0, 0x0, 0x0, 0x0⟩,
    ⟨0x60110, 4, 1, 0x0, 0x0, 0x0, 0x0, 0x0, 0x0⟩,
    ⟨0x60114, 4, 1, 0x0, 0x0, 0x0, 0x0, 0x0, 0x0⟩,
    ⟨0x60118, 4, 1, 0x0, 0x0, 0x0, 0x0, 0x0, 0x0⟩ ]

/-- The registers of LSC. -/
def rowsLsc : List RegRow :=
  [ ⟨0x90000, 4, 1, 0x3, 0x3, 0x0, 0x0, 0x0, 0x0⟩,
    ⟨0x90004, 4, 1, 0xC3500, 0xFFFFFF, 0x0, 0x0, 0x0, 0x0⟩,
    ⟨0x90008, 4, 1, 0x0, 0x3FF, 0x0, 0x0, 0x0, 0x0⟩,
    ⟨0x9000C, 4, 1, 0x0, 0xFFFFFF, 0x0, 0x0, 0x0, 0x0⟩,
    ⟨0x90100, 4, 1, 0x18000000, 0x0, 0x0, 0x0, 0x3000, 0x0⟩,
    ⟨0x90104, 4, 1, 0x0, 0x0, 0x0, 0x0, 0x0, 0x0⟩,
    ⟨0x90108, 4, 1, 0x0, 0x0, 0x0, 0x0, 0x0, 0x0⟩,
    ⟨0x9010C, 4, 1, 0x0, 0x0, 0x0, 0x0, 0x0, 0x0⟩,
    ⟨0x90110, 4, 1, 0x0, 0x0, 0x0, 0x0, 0x0, 0x0⟩,
    ⟨0x90114, 4, 1, 0x0, 0x0, 0x0, 0x0, 0x0, 0x0⟩ ]

/-- Registers of SAFE, part 0. -/
def rowsSafe0 : List RegRow :=
  [ ⟨0x80000, 4, 1, 0xA320, 0x0, 0xFFFFE, 0x0, 0x0, 0x0⟩,
    ⟨0x80004, 4, 1, 0x7D00000, 0x0, 0xFFFF0000, 0x0, 0x0, 0x0⟩,
    ⟨0x80008, 4, 1, 0x0, 0x0, 0xFFFFFFFF, 0x0, 0x0, 0x0⟩,
    ⟨0x8000C, 4, 1, 0xFFFFFFFF, 0x0, 0xFFFFFFFF, 0x0, 0x0, 0x0⟩,
    ⟨0x80010, 4, 1, 0x0, 0x0, 0x777, 0x0, 0x0, 0x0⟩,
    ⟨0x80014, 4, 1, 0x5064064, 0x0, 0xFFFFFFFF, 0x0, 0x0, 0x0⟩,
    ⟨0x80018, 4, 1, 0x80000032, 0x0, 0x80000FFF, 0x0, 0x0, 0x0⟩,
    ⟨0x80020, 4, 1, 0x40820, 0x0, 0xF0FF7FFF, 0x0, 0x0, 0x0⟩,
    ⟨0x80024, 4, 1, 0x0, 0x0, 0xFFFFFFFF, 0x0, 0x0, 0x0⟩,
    ⟨0x80028, 4, 1, 0x0, 0x0, 0xFFFFFFFF, 0x0, 0x0, 0x0⟩,
    ⟨0x8002C, 4, 1, 0x0, 0x0, 0xFFFFFFFF, 0x0, 0x0, 0x0⟩,
    ⟨0x80030, 4, 1, 0xC82000, 0x0, 0xFFFFFFFF, 0x0, 0x0, 0x0⟩,
    ⟨0x80034, 4, 1, 0xFA0, 0x0, 0xFFFFFF, 0x0, 0x0, 0x0⟩,
    ⟨0x80038, 4, 1, 0x0, 0x0, 0xFFFFFFFF, 0x0, 0x0, 0x0⟩,
    ⟨0x8003C, 4, 1, 0x0, 0x0, 0xFFFFFFFF, 0x0, 0x0, 0x0⟩,
    ⟨0x80040, 4, 1, 0x0, 0x0, 0x0, 0xFFFFFFFF, 0x0, 0x0⟩,
    ⟨0x80080, 4, 1, 0x0, 0x0, 0x0, 0x0, 0x0, 0x0⟩,
    ⟨0x80084, 4, 1, 0x0, 0x0, 0x0, 0x0, 0x0, 0x0⟩,
    ⟨0x80090, 4, 1, 0x0, 0x0, 0x0, 0x0, 0x0, 0x0⟩,
    ⟨0x80094, 4, 1, 0x0, 0x0, 0x0, 0x0, 0x0, 0x0⟩,
    ⟨0x80100, 4, 1, 0x80040000, 0x0, 0x0, 0x0, 0x80000, 0x0⟩,
    ⟨0x80104, 4, 1, 0x0, 0x0, 0x0, 0x0, 0x0, 0x0⟩,
    ⟨0x80108, 4, 1, 0x0, 0x0, 0x0, 0x0, 0x0, 0x0⟩,
    ⟨0x8010C, 4, 1, 0x0, 0x0, 0x0, 0x0, 0x0, 0x0⟩ ]

/-- Registers of SAFE, part 1. -/
def rowsSafe1 : List RegRow :=
  [ ⟨0x80110, 4, 1, 0x0, 0xFF, 0x0, 0x0, 0x0, 0x0⟩,
    ⟨0x80114, 4, 5, 0x0, 0x0, 0x0, 0x0, 0x0, 0x0⟩ ]

/-- The registers of SAFE. -/
def rowsSafe : List RegRow := rowsSafe0 ++ rowsSafe1

/-- The registers of THM. -/
def rowsThm : List RegRow :=
  [ ⟨0xA0000, 4, 1, 0xA0A0000, 0xFF1F0700, 0x0, 0x0, 0x0, 0x0⟩,
    ⟨0xA0004, 4, 3, 0x0, 0xFFFF, 0x0, 0x0, 0x0, 0x0⟩,
    ⟨0xA0010, 4, 1, 0x3, 0xF, 0x0, 0x0, 0x0, 0x0⟩,
    ⟨0xA0014, 4, 1, 0x0, 0x0, 0x0, 0x0, 0x0, 0x0⟩,
    ⟨0xA0100, 4, 1, 0x300, 0x0, 0x0, 0x0, 0x7, 0x0⟩,
    ⟨0xA0104, 4, 3, 0x0, 0x0, 0x0, 0x0, 0x0, 0x0⟩,
    ⟨0xA0110, 4, 1, 0x0, 0x0, 0x0, 0x0, 0x0, 0x0⟩,
    ⟨0xA0114, 4, 1, 0x0, 0x0, 0x0, 0x0, 0x0, 0x0⟩,
    ⟨0xA0118, 4, 1, 0x0, 0x0, 0x0, 0x0, 0x0, 0x0⟩ ]

/-- The registers of SPR. -/
def rowsSpr : List RegRow :=
  [ ⟨0xD0000, 4, 1, 0x107, 0x337, 0x0, 0x0, 0x0, 0x0⟩,
    ⟨0xD0004, 4, 1, 0x0, 0xFFFFFFFF, 0x0, 0x0, 0x0, 0x0⟩,
    ⟨0xD0008, 4, 1, 0x28080420, 0xFFFFFFFF, 0x0, 0x0, 0x0, 0x0⟩,
    ⟨0xD000C, 4, 1, 0xFFFFFFFF, 0xFFFFFFFF, 0x0, 0x0, 0x0, 0x0⟩,
    ⟨0xD0010, 4, 1, 0x18, 0xFFFF, 0x0, 0x0, 0x0, 0x0⟩,
    ⟨0xD0080, 4, 1, 0x0, 0x0, 0x0, 0x0, 0x0, 0x0⟩,
    ⟨0xD0100, 4, 1, 0x0, 0x0, 0x0, 0x0, 0x7FC0, 0x0⟩,
    ⟨0xD0104, 4, 1, 0x0, 0x0, 0x0, 0x0, 0x0, 0x0⟩,
    ⟨0xD0108, 4, 1, 0x0, 0x0, 0x0, 0x0, 0x0, 0x0⟩,
    ⟨0xD010C, 4, 1, 0x0, 0x0, 0x0, 0x0, 0x0, 0x0⟩,
    ⟨0xD0110, 4, 1, 0x0, 0x0, 0x0, 0x0, 0x0, 0x0⟩,
    ⟨0xD0114, 4, 1, 0x0, 0x0, 0x0, 0x0, 0x0, 0x0⟩,
    ⟨0xD0118, 4, 1, 0x0, 0x0, 0x0, 0x0, 0x0, 0x0⟩,
    ⟨0xD011C, 4, 1, 0x0, 0x0, 0x0, 0x0, 0x0, 0x0⟩,
    ⟨0xD0120, 4, 4, 0x0, 0x0, 0x0, 0x0, 0x0, 0x0⟩,
    ⟨0xD0140, 4, 7, 0x0, 0x0, 0x0, 0x0, 0x0, 0x0⟩,
    ⟨0xD0180, 4, 19, 0x0, 0x0, 0x0, 0x0, 0x0, 0x0⟩,
    ⟨0xD01D0, 4, 19, 0x0, 0x0, 0x0, 0x0, 0x0, 0x0⟩ ]

/-- Registers of RING, part 0. -/
def rowsRing0 : List RegRow :=
  [ ⟨0x100000, 4, 1, 0x8, 0x1D, 0x0, 0x0, 0x0, 0x0⟩,
    ⟨0x100004, 4, 1, 0x0, 0xF, 0x0, 0x0, 0x0, 0x0⟩,
    ⟨0x100008, 4, 1, 0x40186A0, 0xFFFFFFFF, 0x0, 0x0, 0x0, 0x0⟩,
    ⟨0x10000C, 4, 1, 0x1140FA0, 0x7FFFFFF, 0x0, 0x0, 0x0, 0x0⟩,
    ⟨0x100010, 4, 1, 0x2EE0, 0xFFFF, 0x0, 0x0, 0x0, 0x0⟩,
    ⟨0x100014, 4, 1, 0x0, 0xFFFF, 0x0, 0x0, 0x0, 0x0⟩,
    ⟨0x100018, 4, 1, 0x207D0, 0xFFFFF, 0x0, 0x0, 0x0, 0x0⟩,
    ⟨0x10001C, 4, 1, 0x0, 0x1F, 0x0, 0x0, 0x0, 0x0⟩,
    ⟨0x100020, 4, 1, 0x88776666, 0xFFFFFFFF, 0x0, 0x0, 0x0, 0x0⟩,
    ⟨0x100024, 4, 1, 0x2710, 0xFFFFFF, 0x0, 0x0, 0x0, 0x0⟩,
    ⟨0x100040, 4, 4, 0xFFFF, 0xFFFFFFFF, 0x0, 0x0, 0x0, 0x0⟩,
    ⟨0x100080, 8, 16, 0x0, 0xFE003FFF, 0x0, 0x0, 0x0, 0x0⟩,
    ⟨0x100084, 8, 16, 0x0, 0xFFFF, 0x0, 0x0, 0x0, 0x0⟩,
    ⟨0x100100, 4, 1, 0x300000, 0x0, 0x0, 0x0, 0x3E00, 0x0⟩,
    ⟨0x100104, 4, 1, 0x0, 0x0, 0x0, 0x0, 0x0, 0x0⟩,
    ⟨0x100108, 4, 1, 0x0, 0x0, 0x0, 0x0, 0x0, 0x0⟩,
    ⟨0x10010C, 4, 1, 0x0, 0x0, 0x0, 0x0, 0x0, 0x0⟩,
    ⟨0x100110, 4, 1, 0x0, 0x0, 0x0, 0x0, 0x0, 0x0⟩,
    ⟨0x100114, 4, 1, 0x0, 0x0, 0x0, 0x0, 0x0, 0x0⟩,
    ⟨0x100118, 4, 1, 0x0, 0x0, 0x0, 0x0, 0x0, 0x0⟩,
    ⟨0x10011C, 4, 1, 0x0, 0x0, 0x0, 0x0, 0x0, 0x0⟩,
    ⟨0x100120, 4, 1, 0x0, 0x0, 0x0, 0x0, 0x0, 0x0⟩,
    ⟨0x100124, 4, 1, 0x0, 0x0, 0x0, 0x0, 0x0, 0x0⟩,
    ⟨0x100140, 4, 4, 0x0, 0x0, 0x0, 0x0, 0x0, 0x0⟩ ]

/-- Registers of RING, part 1. -/
def rowsRing1 : List RegRow :=
  [ ⟨0x101000, 4, 251, 0x0, 0xFFFFFFFF, 0x0, 0x0, 0x0, 0x0⟩,
    ⟨0x102000, 4, 251, 0x0, 0x0, 0x0, 0x0, 0x0, 0x0⟩ ]

/-- The registers of RING. -/
def rowsRing : List RegRow := rowsRing0 ++ rowsRing1

/-- The registers of MBX. -/
def rowsMbx : List RegRow :=
  [ ⟨0xE0000, 4, 1, 0x1, 0x0, 0x0, 0x0, 0x4, 0x0⟩,
    ⟨0xE0004, 4, 1, 0x0, 0x0, 0x0, 0x0, 0x0, 0x0⟩,
    ⟨0xE0008, 4, 1, 0x0, 0x0, 0x0, 0x0, 0x0, 0x0⟩,
    ⟨0xE0010, 4, 1, 0x0, 0x0, 0x0, 0x0, 0x0, 0x0⟩,
    ⟨0xE0014, 4, 1, 0x0, 0x0, 0x0, 0x0, 0x0, 0x0⟩,
    ⟨0xE0018, 4, 1, 0x0, 0x0, 0x0, 0x0, 0x0, 0x0⟩,
    ⟨0xE001C, 4, 1, 0x0, 0x0, 0x0, 0x0, 0x0, 0x0⟩ ]

/-- The registers of UPD. -/
def rowsUpd : List RegRow :=
  [ ⟨0x110000, 4, 1, 0x0, 0x0, 0x0, 0x0, 0x0, 0x0⟩,
    ⟨0x110004, 4, 1, 0x0, 0x0, 0x0, 0x0, 0x0, 0x0⟩,
    ⟨0x110100, 4, 1, 0x200, 0x0, 0x0, 0x0, 0x0, 0x0⟩,
    ⟨0x110104, 4, 1, 0x0, 0x0, 0x0, 0x0, 0x0, 0x0⟩,
    ⟨0x110108, 4, 1, 0x0, 0x0, 0x0, 0x0, 0x0, 0x0⟩,
    ⟨0x11010C, 4, 1, 0x0, 0x0, 0x0, 0x0, 0x0, 0x0⟩,
    ⟨0x110110, 4, 4, 0x0, 0x0, 0x0, 0x0, 0x0, 0x0⟩,
    ⟨0x110120, 4, 1, 0x0, 0x0, 0x0, 0x0, 0x0, 0x0⟩ ]

/-- The registers of BOOT. -/
def rowsBoot : List RegRow :=
  [ ⟨0x120100, 4, 1, 0x10000, 0x0, 0x0, 0x0, 0x0, 0x0⟩,
    ⟨0x120104, 4, 1, 0x0, 0x0, 0x0, 0x0, 0x0, 0x0⟩ ]

/-- The registers of PERF. -/
def rowsPerf : List RegRow :=
  [ ⟨0xC0000, 4, 1, 0x0, 0x1, 0x0, 0x0, 0x0, 0x0⟩,
    ⟨0xC0010, 4, 8, 0x0, 0xFFFFFFFF, 0x0, 0x0, 0x0, 0x0⟩,
    ⟨0xC0040, 4, 4, 0x1, 0x81FFFFFF, 0x0, 0x0, 0x0, 0x0⟩,
    ⟨0xC0050, 4, 1, 0x0, 0x1, 0x0, 0x0, 0x0, 0x0⟩,
    ⟨0xC0054, 4, 1, 0x0, 0x0, 0x0, 0x0, 0x0, 0x0⟩,
    ⟨0xC0060, 4, 1, 0x0, 0x0, 0x0, 0x0, 0x0, 0x0⟩,
    ⟨0xC0080, 4, 12, 0x0, 0x0, 0x0, 0x0, 0xFFFFFFFF, 0x0⟩,
    ⟨0xC00C0, 4, 8, 0x0, 0x3FF, 0x0, 0x0, 0x0, 0x0⟩,
    ⟨0xC1000, 8, 384, 0x0, 0x0, 0x0, 0x0, 0x0, 0x0⟩,
    ⟨0xC1004, 8, 384, 0x0, 0x0, 0x0, 0x0, 0x0, 0x0⟩ ]

/-- The registers of DBG. -/
def rowsDbg : List RegRow :=
  [ ⟨0x200000, 4, 1, 0x0, 0x0, 0x0, 0x0, 0x0, 0x0⟩,
    ⟨0x200004, 4, 1, 0x0, 0x0, 0x0, 0x0, 0x0, 0x0⟩,
    ⟨0x200008, 4, 1, 0x0, 0xF00, 0x0, 0x0, 0x0, 0x0⟩,
    ⟨0x20000C, 4, 1, 0x0, 0x0, 0x0, 0x0, 0x0, 0x0⟩,
    ⟨0x200020, 4, 4, 0x0, 0xFFFFFFFD, 0x0, 0x0, 0x0, 0x0⟩,
    ⟨0x200030, 8, 2, 0x0, 0xFFFFFFFF, 0x0, 0x0, 0x0, 0x0⟩,
    ⟨0x200034, 8, 2, 0x0, 0xFFFFFFFF, 0x0, 0x0, 0x0, 0x0⟩,
    ⟨0x200040, 4, 1, 0x0, 0x80001FFF, 0x0, 0x0, 0x0, 0x0⟩,
    ⟨0x200044, 4, 1, 0x0, 0x80003FFF, 0x0, 0x0, 0x0, 0x0⟩ ]

/-- The registers of HSYS. -/
def rowsHsys : List RegRow :=
  [ ⟨0x130010, 4, 1, 0x0, 0x0, 0x0, 0x0, 0x0, 0x0⟩ ]

/-- The rows of a block slot. -/
def blockRows (slot : Nat) : List RegRow :=
  match slot with
  | 0 => rowsSys
  | 1 => rowsEvt
  | 2 => rowsWeir
  | 3 => rowsPos
  | 4 => rowsAdc
  | 5 => rowsPwm
  | 6 => rowsGdi
  | 7 => rowsCas
  | 8 => rowsSafe
  | 9 => rowsLsc
  | 10 => rowsThm
  | 11 => rowsPll
  | 12 => rowsPerf
  | 13 => rowsSpr
  | 14 => rowsMbx
  | 16 => rowsRing
  | 17 => rowsUpd
  | 18 => rowsBoot
  | 19 => rowsHsys
  | 32 => rowsDbg
  | _ => []

/-- A row covers a key. -/
def RegRow.covers (r : RegRow) (k : Nat) : Bool :=
  r.key ≤ k && (k - r.key) % r.stride == 0 && (k - r.key) / r.stride < r.count

/-- The row of a key, if the key is an assigned register (R36). -/
def rowOf (k : Nat) : Option RegRow :=
  (blockRows (k / 65536)).find? (fun r => r.covers k)

/-- The reset value of the register at a key (R13); what an unlisted key of a register store reads as. -/
def resetOf (k : Nat) : Word :=
  match rowOf k with
  | some r => BitVec.ofNat 32 r.reset
  | none => 0

end Sys2Proof.Machine
end

