-- ==== Sys2Proof/Machine/State.lean ====
section
/-! DEFINITION. State.lean: everything the spec gives the machine, as plain data: four channels and a host domain
(R17), the commands waiting, and the counter that selects free values. Registers live in sparse stores keyed as
RegMap.lean says; what a register table does not hold (queues, runs in progress, timers, pins, the cores' own
registers, the memories) has a field of its own. -/

namespace Sys2Proof.Machine

/-! ## A Dziphor core (R116 to R145) -/

/-- Privilege level (R117). -/
inductive Priv where
  | user | system
deriving DecidableEq, Repr

/-- Whether a core executes: held by boot, by LSC or as an idle standby; running; or stopped by an exception
raised while NEXL = 1 (R137). -/
inductive CoreRun where
  | held | running | stopped
deriving DecidableEq, Repr

/-- Memory attribute (R142). -/
inductive Attr where
  | normal | normalOrdered | deviceRelaxed | deviceOrdered
deriving DecidableEq, Repr

/-- What a core waits for at its program counter (R129, R130, R132, R140, R144, R145): a fence with its mask; an
interrupt; an event until a deadline; the watermarks; a commit's status; the result of its own device or ring load; a
result that its next instruction needs; room in a queue. -/
inductive Wait where
  | none
  | fence (mask : BitVec 4)
  | idle
  | evWait (ev : BitVec 7) (deadline : Nat) (rd : GReg)
  | evFence (t : Nat)
  | commit (rd : GReg)
  | load (seq : Nat)
  | ring (seq : Nat)
  | result (seq : Nat)
  | full
deriving DecidableEq, Repr

/-- An outstanding load (R126, R132): its order, its instruction's address, destination, effective address, size in
bytes, sign extension and attribute. -/
structure LoadReq where
  seq : Nat
  pc : Word
  rd : GReg
  addr : Word
  size : Nat
  signed : Bool
  attr : Attr
deriving DecidableEq, Repr

/-- A store not yet performed, in the store buffer or the posted-write queue (R132, R142). -/
structure StoreReq where
  seq : Nat
  addr : Word
  size : Nat
  data : Word
  attr : Attr
deriving DecidableEq, Repr

/-- One Dziphor core: general registers, program counter, privilege, CSRs (R116, R121), its memory queues, its
reservation with the instructions it still outlives (R127), its claim capture (R173), the instructions it has retired,
the cycle in which it began to wait, and the ring accesses that a reset of the host domain found outstanding (R31). -/
structure Core where
  g : List (Nat × Word)
  pc : Word
  priv : Priv
  run : CoreRun
  status : Word
  epc : Word
  cause : Word
  xval : Word
  vbase : Word
  xsave : Word
  nstatus : Word
  nepc : Word
  ncause : Word
  timeh : Word
  mpuBase : List (Nat × Word)
  mpuLim : List (Nat × Word)
  mpuCtl : Word
  wait : Wait
  loads : List LoadReq
  stores : List StoreReq
  posted : List StoreReq
  postedErrs : List Word
  seq : Nat
  rsv : Option (Nat × Nat)
  claimStamp : Nat
  retired : Nat
  since : Nat
  lost : List Nat
deriving DecidableEq, Repr

/-- A core at release (R118; CSR reset values of R121 and R122). -/
def Core.reset : Core :=
  { g := [], pc := 0, priv := .system, run := .held
    status := 0x10, epc := 0, cause := 0, xval := 0, vbase := 0x400, xsave := 0
    nstatus := 0x4000, nepc := 0, ncause := 0, timeh := 0
    mpuBase := [], mpuLim := [], mpuCtl := 0
    wait := .none, loads := [], stores := [], posted := [], postedErrs := [], seq := 0
    rsv := none, claimStamp := 0, retired := 0, since := 0, lost := [] }

/-! ## What every domain has -/

/-- An event raised and not yet delivered (R167, R168). -/
structure Event where
  src : BitVec 7
  stamp : Nat
  arg : BitVec 16
deriving DecidableEq, Repr

/-- What has happened in the present cycle of a domain, for the same-cycle rules of R12, R170 and R521 to R524: the bits that
hardware has set, by register; the registers that software has written; the ranges of R49 that arbitration has granted; what
each counter has gained; the words of PERF_MODE from before a write; whether PERF has served a counter read; the sample
entries to be written, by sampler; and the loads (false) and stores (true) that retired, by address. -/
structure Cycle where
  set : List (Nat × Word)
  wrote : List Nat
  granted : List Nat
  gained : List (Nat × Nat)
  modes : List (Nat × Word)
  counted : Bool
  entries : List (Nat × List Word)
  accesses : List (Bool × Word)
deriving DecidableEq, Repr

def Cycle.reset : Cycle :=
  { set := [], wrote := [], granted := [], gained := [], modes := [], counted := false, entries := [], accesses := [] }

/-- The reset sources that hold a domain (R86): a supply reset from its monitor's assertion to the end of the
extension (R88); the reset ball; a software or host request; hardware thermal shutdown. -/
structure ResetSrc where
  supply : Bool
  pin : Bool
  soft : Bool
  thermal : Bool
deriving DecidableEq, Repr

/-- The PLL beyond its registers (R95 to R104): the VCOs still to be searched, in order, with the hop-table entry that
software named for the search; whether lock returns CCLK to the PLL; the RC fallback in force; a hop or switch-over in
progress, and whether the idle VCO failed to lock at its last; the settings the loop runs with and the bands of the two VCOs;
a SYNC alignment in progress; the source of CCLK (on the RC oscillator, and the VCO) and the cycle of its last change
(R410). -/
structure Pll where
  searches : List (Bool × Option Nat)
  returnOnLock : Bool
  fallback : Bool
  hop : Option (BitVec 3)
  switching : Bool
  idleFailed : Bool
  aligning : Bool
  refdiv : Bool
  nint : BitVec 9
  nfrac : BitVec 24
  ssc : Word
  band0 : BitVec 6
  band1 : BitVec 6
  srcWas : Bool × Bool
  srcAt : Nat
deriving DecidableEq, Repr

def Pll.reset : Pll :=
  { searches := [], returnOnLock := false, fallback := false, hop := none, switching := false
    idleFailed := false, aligning := false, refdiv := false, nint := 0, nfrac := 0, ssc := 0x1E, band0 := 0, band1 := 0
    srcWas := (true, false), srcAt := 0 }

/-! ## The commit controller and the live writes of a channel (R153 to R166) -/

/-- Who asked for a commit (R153, R200, R205, R207). -/
inductive CommitBy where
  | core (e : Eng)
  | thread
  | handover
  | exit
deriving DecidableEq, Repr

/-- A commit request between its request cycle Q and the edge that ends Q + 10: what was decided in cycle Q
(the status of R160, zero when accepted) and the snapshot of the named plan banks (R153). -/
structure CommitReq where
  by_ : CommitBy
  mask : BitVec 7
  q : Nat
  status : Word
  snapshot : List (Nat × Word)
deriving DecidableEq, Repr

/-! ## The Weir sequencer and its coordinates (R177 to R212) -/

/-- Direction of a coordinate wait (R186, R195). -/
inductive WDir where
  | forward | backward | either
deriving DecidableEq, Repr

/-- What a thread waits for (R196). -/
inductive WaitFor where
  | angle (dir : WDir) (x : Word)
  | carrier (x : Word)
  | event (ev : BitVec 7)
deriving DecidableEq, Repr

/-- An armed wait: target, arming cycle, slot, expiry slot, limit (0 = none), and whether it has been satisfied,
late (R187) or on a jump (R179). -/
structure Armed where
  what : WaitFor
  cycle : Nat
  slot : BitVec 13
  addr : BitVec 13
  limit : Nat
  hit : Bool
  late : Bool
  jump : Bool
deriving DecidableEq, Repr

/-- A Weir thread (R191): stopped, running or waiting. -/
inductive TState where
  | stopped | running | waiting (w : Armed)
deriving DecidableEq, Repr

structure WThread where
  st : TState
  pc : BitVec 13
  late : Bool
  jump : Bool
deriving DecidableEq, Repr

def WThread.reset : WThread := { st := .stopped, pc := 0, late := false, jump := false }

/-- Carrier modulation mode (R202). -/
inductive WMode where
  | async | transition | sync
deriving DecidableEq, Repr

/-- Weir beyond its registers: threads, the latch in use (R177), the two coordinates, the modulation mode with the
anchor, direction and pulse number in use (R184), the transition's prediction (R204), whether its commit has been
requested (R205, R207), the start of the synchronous period (R209), whether
the present boundary also passed the anchor (R208), the cause of a forced exit detected and not yet acted on (R209),
whether a thread has issued in the present cycle (R192), the arm flags as the cycle began and those written in it (R201),
strobes issued in the present cycle and those that reach their destinations in it (R192, R198), the halt of R533 with a WHALT that acts
from the next cycle, and the breakpoint slot before which Weir has halted. -/
structure Weir where
  t0 : WThread
  t1 : WThread
  t2 : WThread
  t3 : WThread
  last : Thread
  thL : Word
  omL : Word
  tL : Nat
  latched : Bool
  lastDir : Option Bool
  theta : Word
  phi : Word
  mode : WMode
  anchor : Word
  back : Bool
  nUse : Nat
  trPhi : Word
  trStart : Nat
  trLen : Nat
  requested : Bool
  lastPeriod : Bool
  syncStart : Nat
  anchorCross : Bool
  fx : Nat
  issued : Bool
  arm0 : BitVec 4
  armed : BitVec 4
  strobes : BitVec 16
  arrived : BitVec 16
  halted : Bool
  haltReq : Bool
  past : Option (BitVec 13)
deriving DecidableEq, Repr

/-- R182, R185, R191. -/
def Weir.reset : Weir :=
  { t0 := .reset, t1 := .reset, t2 := .reset, t3 := .reset, last := .t3
    thL := 0, omL := 0, tL := 0, latched := false, lastDir := none, theta := 0, phi := 0
    mode := .async, anchor := 0, back := false, nUse := 0, trPhi := 0, trStart := 0, trLen := 0
    requested := false, lastPeriod := false, syncStart := 0, anchorCross := false, fx := 0, issued := false
    arm0 := 0, armed := 0, strobes := 0, arrived := 0, halted := false, haltReq := false, past := none }

/-! ## Position and speed feedback (R213 to R238) -/

/-- A count edge of the encoder or the Hall sensors: its cycle at the filter output, the boundary crossed and
its direction (R216, R228, R231). -/
structure Edge where
  cycle : Nat
  bound : BitVec 48
  back : Bool
deriving DecidableEq, Repr

/-- A latch formed and on its way to WEIR (R228). -/
structure Latch where
  theta : Word
  omega : Word
  stamp : Nat
  due : Nat
  count : BitVec 48
  src : BitVec 3
deriving DecidableEq, Repr

/-- Standstill of an edge-counting source (R233): since when no count edge has occurred, whether that is standstill and
EV_PSTILL has told it, the edges since it ended (up to two), and whether the next latch is the first after it. -/
structure Still where
  from_ : Nat
  on : Bool
  told : Bool
  edges : Nat
  first : Bool
deriving DecidableEq, Repr

def Still.reset : Still := { from_ := 0, on := false, told := true, edges := 2, first := false }

/-- POS beyond its registers: the 48-bit counts (R215) and validity of each source, the encoder's A/B reference and
direction run (R218), its last edges and the correction of a re-sync in the present cycle (R230), the phase of the
excitation in 1/400,000,000 of its cycle (R221), the resolver's runs (R223), the SSI frame with the POS live bank of its
strobe, whether it serves a latch, and the last accepted frame (R224, R230, R231), the Hall code and sector (R226), the
observer's delivery (R215), latches in flight, the previous latch for the count method (R231), the speed method to
come into use (R232), standstill of the two edge-counting sources (R233), the cross-check run (R234), and the emulation
backlog and balls (R236). -/
structure Pos where
  encP : BitVec 48
  encAv : Bool
  encRef : Option (BitVec 2)
  encRun : Nat
  encRunBack : Bool
  encEdges : List Edge
  zShift : BitVec 48
  synced : Bool
  excPhase : Nat
  resP : BitVec 48
  resVel : Word
  resStamp : Nat
  resBad : Nat
  resGood : Nat
  resPreset : Bool
  ssiP : BitVec 48
  ssiAv : Bool
  ssiStart : Option Nat
  ssiMono : Option Nat
  ssiBank : List (Nat × Word)
  ssiUse : Bool
  ssiPrim : BitVec 48
  ssiPrev : Option (BitVec 48 × Nat)
  ssiStamp : Nat
  ssiOmega : Word
  hallP : BitVec 48
  hallCode : BitVec 3
  hallSector : Option (BitVec 3)
  hallEdges : List Edge
  obsTheta : Word
  obsOmega : Word
  obsStamp : Nat
  inFlight : List Latch
  prevCount : Option (BitVec 48 × Nat)
  methNext : Option Bool
  encStill : Still
  hallStill : Still
  xRun : Nat
  emCount : Int
  emBacklog : Int
  emPhase : BitVec 2
  emLast : Nat
deriving DecidableEq, Repr

/-- R215: every count 0 and every AVALID 0 after channel reset. -/
def Pos.reset : Pos :=
  { encP := 0, encAv := false, encRef := none, encRun := 0, encRunBack := false, encEdges := [], zShift := 0, synced := false
    excPhase := 0
    resP := 0, resVel := 0, resStamp := 0, resBad := 0, resGood := 0, resPreset := false
    ssiP := 0, ssiAv := false, ssiStart := none, ssiMono := none, ssiBank := [], ssiUse := false, ssiPrim := 0
    ssiPrev := none, ssiStamp := 0, ssiOmega := 0
    hallP := 0, hallCode := 0, hallSector := none, hallEdges := []
    obsTheta := 0, obsOmega := 0, obsStamp := 0, inFlight := [], prevCount := none, methNext := none
    encStill := .reset, hallStill := .reset, xRun := 0
    emCount := 0, emBacklog := 0, emPhase := 0, emLast := 0 }

/-! ## Current and voltage sensing (R239 to R271) -/

/-- What the rover checks: a working slot or the reference midpoint (R258). -/
inductive Check where
  | slot (j : Nat)
  | reference
deriving DecidableEq, Repr

/-- A conversion group in progress (R248 to R255): its line, start cycle, first hold cycle, sample time, lateness and
sequence number, the ADC live bank and converter map of its start cycle, the rover's check, the ΣΔ words taken at the
start, the next conversion, and what has been stored. -/
structure Group where
  line : Nat
  start : Nat
  hold0 : Nat
  ts : Nat
  late : Bool
  seq : Nat
  bank : List (Nat × Word)
  phys : List Nat
  rover : Nat
  check : Option Check
  sdWords : List (Nat × Word)
  conv : Nat
  total : Nat
  stored : Nat
  invalid : Bool
deriving DecidableEq, Repr

/-- A ΣΔ demodulator: its last word, whether that word is valid, whether it was saturated, and the cycle in which its last
bit was taken; the words still to be marked invalid, and whether its stream is stuck; the bits taken of the word in
progress, those taken since the stream began (up to 64), and whether the word that ends in this cycle is complete (R262). -/
structure SdState where
  word : BitVec 16
  valid : Bool
  clip : Bool
  stamp : Nat
  skip : Nat
  stuck : Bool
  bits : Nat
  seen : Nat
  done : Bool
deriving DecidableEq, Repr

/-- A zero capture of the calibration engine: its target, averaging exponent and the four sums (R268). -/
structure ZeroCap where
  target : Int
  avg : Nat
  sums : List Nat
deriving DecidableEq, Repr

/-- A calibration step in progress (R267, R268). -/
structure CalStep where
  full : Bool
  avg : Nat
  input : Nat
  target : Int
  due : Nat
deriving DecidableEq, Repr

/-- ADC beyond its registers: the running group, the pending lines, and whether a group ends in this cycle (R254), group
counts per line, the result area (R255), the input that each physical converter's multiplexer rests on and the cycle since
which it does (R252), the cycle in which the reference buffer was switched on and the one before which its output was last
outside the window, with the latest changes of REF_READY (R242, R243), the rover's rotation (R259), a substitution that is
due with the cycle of its request, slots on a substitute and converters retired (R260), the demodulators and the first
rising edge of each running modulator clock, plus one (R261), the voltages last told of the balls in microvolts (the 24 analogue
inputs, then Cn_VDC), the outputs of the seven comparators (fast 0 to 3, then DC-link stage 1, stage 2 and discharge) with
their settling holds (R263, R264, R372), the resolver holds whose pair is not yet written (R265), calibration, and
position compares fired this period (R246). -/
structure Adc where
  grp : Option Group
  pend : BitVec 8
  ending : Bool
  seqs : List (Nat × Nat)
  results : List (Nat × Word)
  muxIn : List (Nat × Nat)
  muxFrom : List (Nat × Nat)
  refOn : Nat
  refOut : Nat
  refLog : List (Nat × Bool)
  target : Nat
  confirm : Option Nat
  refRun : Nat
  checks : Nat
  subPend : Option (Nat × Nat)
  sub : BitVec 3
  retired : BitVec 4
  sd : List (Nat × SdState)
  sdck : List (Nat × Nat)
  ain : List (Nat × Int)
  cmpOut : BitVec 7
  settle : List (Nat × Nat)
  resHold : List Nat
  cal : Option CalStep
  zeros : List (Nat × ZeroCap)
  posFired : BitVec 8
deriving DecidableEq, Repr

def SdState.reset : SdState :=
  { word := 0, valid := false, clip := false, stamp := 0, skip := 3, stuck := false, bits := 0, seen := 0, done := false }

def ZeroCap.none : ZeroCap := { target := 0, avg := 0, sums := [] }

def Adc.reset : Adc :=
  { grp := none, pend := 0, ending := false, seqs := [], results := [], muxIn := [], muxFrom := [], refOn := 0
    refOut := 0, refLog := [], target := 0, confirm := none, refRun := 0, checks := 0, subPend := none, sub := 0
    retired := 0, sd := [], sdck := [], ain := [], cmpOut := 0, settle := [], resHold := [], cal := none, zeros := []
    posFired := 0 }

/-! ## Bridge modulation (R272 to R306) -/

/-- The outcome of a leg's pulse decision (R286). -/
inductive PulseKind where
  | none | pulse | whole
deriving DecidableEq, Repr

/-- A pair of switches of a leg, bit 0 the first and bit 1 the second switch of R273. Dead time: the commands asked for, those
given, when a waiting switch-on is due, and when each switch last went off, in 1/32 CCLK of the channel's time (R289).
Interlock: the cycles in which the two commands last rose, the switches held off, when one let go may turn on, and the
output (R292). -/
structure Pair where
  want : BitVec 2
  on : BitVec 2
  due : Option Nat
  offA : Nat
  offB : Nat
  riseA : Nat
  riseB : Nat
  held : BitVec 2
  freeAt : Option Nat
  out : BitVec 2
deriving DecidableEq, Repr

def Pair.reset : Pair :=
  { want := 0, on := 0, due := none, offA := 0, offB := 0, riseA := 0, riseB := 0, held := 0, freeAt := none, out := 0 }

/-- The adaptation of one direction of a leg: the last four valid measurements, the temperature band of the last
computation, and the run of invalid measurements (R290, R291). -/
structure Adapt where
  hist : List Nat
  band : Nat
  run : Nat
deriving DecidableEq, Repr

def Adapt.reset : Adapt := { hist := [], band := 0, run := 0 }

/-- A transition being measured: its pair, its direction, its switch-off edge in 1/32 CCLK, whether the switch-on edge has
come, and, after the first crossing, the direction's adaptation and the leg's sense faults before it (R290, R291). -/
structure Meas where
  pair : Nat
  rising : Bool
  off : Nat
  ended : Bool
  was : Option (Adapt × Nat)
deriving DecidableEq, Repr

/-- A leg of the bridge: the half in force (R284); the state after stages 1 and 2 of R272; the period's decision with its
cycle, the compare instants in units of 1/pt of the period with the cycles in which they fired, the actual switch-on edge in
the same units, and the carry left by the decision (R280, R285 to R287); its pairs; the commanded state after the
interlock and that after the mask (R276); the cycle in which a dead time last ended; the measurement in progress, the
adaptation of both directions, consecutive sense faults and their declaration (R290, R291); the node's voltage in microvolts; and
the last edge at a ball of the leg, with the last one before this cycle (R296). -/
structure Leg where
  neg : Bool
  s2 : BitVec 6
  decided : Option Nat
  kind : PulseKind
  ta : Int
  tb : Int
  pt : Nat
  firedOn : Option Nat
  firedOff : Option Nat
  onPos : Int
  carryDec : Int
  pairs : List (Nat × Pair)
  cmd : BitVec 6
  out : BitVec 6
  deadEnd : Option Nat
  meas : Option Meas
  rise : Adapt
  fall : Adapt
  faults : Nat
  faulted : Bool
  vsw : Int
  lastEdge : Option Nat
  edgeWas : Option Nat
deriving DecidableEq, Repr

def Leg.reset : Leg :=
  { neg := false, s2 := 0, decided := none, kind := .none, ta := 0, tb := 0, pt := 0, firedOn := none, firedOff := none
    onPos := 0, carryDec := 0, pairs := [], cmd := 0, out := 0, deadEnd := none, meas := none, rise := .reset
    fall := .reset, faults := 0, faulted := false, vsw := 0, lastEdge := none, edgeWas := none }

/-- PWM beyond its registers: the period counter, the cycles of the period in progress, φ in the cycle before and whether a
period began in this one (R280, R294), the fields in use since the last boundary (R279, R304), running,
stop and freeze, a boundary that has been reached and not yet acted on, the legs, the switch commands after stage 6 of R272
(R370) and after stage 7, when each switch last had an edge there in 1/32 CCLK, the gate balls with the same, what both times
were before this cycle, the balls that rose and fell in it and the edges of stage 6 in it (R281, R297), the halt guard's
pattern, a pattern held to the next boundary, modulation waiting to resume there, a release to be told there (R302), a
clear requested in this cycle, events that requested a trip in it, and requests for the next cycle (R301), the extra compares fired this period and those that ADC receives in this cycle
(R294), and the level of Cn_GEN with the cycle of its last change (R450). -/
structure Pwm where
  n : Nat
  cycles : Nat
  phiWas : Word
  begun : Bool
  per : Nat
  ctl : Word
  ovrs : Word
  ovrf : Word
  oen : Word
  running : Bool
  stopping : Bool
  frozen : Bool
  bndDue : Bool
  legs : List (Nat × Leg)
  cmd6 : BitVec 18
  sw : BitVec 18
  swAt : List (Nat × Nat)
  gate : BitVec 18
  gateAt : List (Nat × Nat)
  swWas : List (Nat × Nat)
  gateWas : List (Nat × Nat)
  rose : BitVec 18
  fell : BitVec 18
  ev6 : List (Nat × Nat)
  hg : Option Nat
  hold : Bool
  resume : Bool
  relDue : Bool
  clrReq : Bool
  tripNow : Word
  tripNext : Word
  xFired : BitVec 8
  xSent : BitVec 8
  genWas : Bool
  genAt : Nat
deriving DecidableEq, Repr

def Pwm.reset : Pwm :=
  { n := 0, cycles := 0, phiWas := 0, begun := false, per := 40000, ctl := 0x300, ovrs := 0, ovrf := 0, oen := 0
    running := false, stopping := false, frozen := false, bndDue := false, legs := [], cmd6 := 0, sw := 0, swAt := []
    gate := 0, gateAt := [], swWas := [], gateWas := [], rose := 0, fell := 0, ev6 := [], hg := none, hold := false
    resume := true, relDue := false, clrReq := false, tripNow := 0, tripNext := 0, xFired := 0, xSent := 0
    genWas := false, genAt := 0 }

/-! ## The Cascade engine and the motor supervisor (R307 to R363) -/

/-- A vector register or accumulator: one exponent and sixteen lanes (R307, R308). -/
structure Vec where
  exp : Int
  m : List Int
deriving DecidableEq, Repr

def Vec.zero : Vec := { exp := 0, m := [] }

/-- A run in progress: program address, base and CAS live bank of its first cycle, cycles used, the run's flags and
the sample stamp, and whether the instruction at work saturated or block-shifted (R312, R316, R318, R322, R520). -/
structure Run where
  pc : BitVec 14
  start : Nat
  len : Nat
  bank : List (Nat × Word)
  tag : Bool
  clip : Bool
  sat : Bool
  ovf : Bool
  t : Bool
  rcskip : Bool
  sst : Nat
  satNow : Bool
  shiftNow : Bool
deriving DecidableEq, Repr

/-- The injection generator: steps taken, phase, shift register and the output held (R331). -/
structure Inj where
  k : Nat
  phase : Nat
  reg : Nat
  outM : Int
  outE : Int
deriving DecidableEq, Repr

def Inj.reset : Inj := { k := 0, phase := 0, reg := 2147483647, outM := 0, outE := 0 }

/-- The motor supervisor beyond its registers: held commands, those written in a boundary cycle (R338), the boundary
or stop of this cycle that it acts in, with the length of the period ended (R337, R342), the torque held through a link loss
and for how long, the locked-rotor timer, what happened since the last boundary, t_CD of R355, whether a latch followed the
entry to COAST, the sector of the last latch, and a trip request on its way to PWM (R340). -/
structure Sup where
  held : Word
  late : Word
  due : Option Nat
  stop : Bool
  tHold : Word
  holdTime : Nat
  lrTimer : Nat
  comm : Bool
  xchk : Bool
  tcd : Nat
  latchSince : Bool
  sector : Option Nat
  tripReq : Bool
deriving DecidableEq, Repr

def Sup.reset : Sup :=
  { held := 0, late := 0, due := none, stop := false, tHold := 0, holdTime := 0, lrTimer := 0, comm := false
    xchk := false, tcd := 0, latchSince := false, sector := none, tripReq := false }

/-- A delivery of PUTPOS: angle, speed, stamp and validity (R329). -/
structure Observed where
  theta : Word
  omega : Word
  stamp : Nat
  valid : Bool
deriving DecidableEq, Repr

/-- CAS beyond its registers: vector registers and accumulators, the run, the pending request's entry, Weir requests
on their way (R317), the bin of the previous RCL, the samples and trigger count of the capture buffer (R333), the
generator, the supervisor, the halt of R533 and the breakpoint address it stands before, the first cycle in which the engine is idle again, and the leg references and
the delivery that an OUT and a PUTPOS of this cycle write in the next (R328, R329). -/
structure Cas where
  v : List (Nat × Vec)
  ac : List (Nat × Vec)
  run : Option Run
  pend : Option (BitVec 14)
  starts : List (BitVec 14)
  bR : Nat
  capH : Nat
  cap01 : List (Nat × Word)
  cap23 : List (Nat × Word)
  inj : Inj
  sup : Sup
  halted : Bool
  past : Option (BitVec 14)
  freeAt : Nat
  outs : List (Nat × Word)
  obs : Option Observed
deriving DecidableEq, Repr

def Cas.reset : Cas :=
  { v := [], ac := [], run := none, pend := none, starts := [], bR := 0, capH := 0, cap01 := [], cap23 := []
    inj := .reset, sup := .reset, halted := false, past := none, freeAt := 0, outs := [], obs := none }

/-! ## Gate interface and power-stage protection (R364 to R383) -/

/-- A leg's bootstrap supply: since when and for how long its lower switch has been on in this period, the periods
without a refresh (R380), whether the high-side report has been active, or inactive, throughout this period, and the
undervoltage count (R381). -/
structure Boot where
  lowSince : Option Nat
  lowAcc : Nat
  lacking : Nat
  allAct : Bool
  noneAct : Bool
  uv : Nat
deriving DecidableEq, Repr

def Boot.reset : Boot :=
  { lowSince := none, lowAcc := 0, lacking := 0, allAct := false, noneAct := true, uv := 0 }

/-- GDI beyond its registers: the GIN code accepted last and one that waits for TPMIN, the cycle of the last applied
change, commutation waiting for a boundary after a trip, whether the legs are to set off towards the code, and each leg's
switching steps to come with their times in 1/32 CCLK (R366 to R368); the cycles for which stage 2 has been active and whether it has
delivered its request (R372); the start of the brake interval in progress (R375); the discharge's start, its voltage
limit's start, what it has seen, and the cycles for which its comparator has held its level (R378); the bootstrap fields in
use and the legs' bootstrap supplies. -/
structure Gdi where
  ginAcc : Option (BitVec 3)
  ginWait : Option (BitVec 3)
  ginAt : Nat
  tpWait : Bool
  tpDo : Bool
  tpSeq : List (Nat × List (Nat × BitVec 6))
  ov2Run : Nat
  ov2Req : Bool
  brkStart : Nat
  dStart : Nat
  dRef : Nat
  dSeen : Bool
  dReached : Bool
  dLate : Bool
  dvRun : Nat
  dfb : Bool
  dfbRun : Nat
  bsen : Word
  bsk : Nat
  bstref : Nat
  boot : List (Nat × Boot)
deriving DecidableEq, Repr

def Gdi.reset : Gdi :=
  { ginAcc := none, ginWait := none, ginAt := 0, tpWait := false, tpDo := false, tpSeq := [], ov2Run := 0, ov2Req := false
    brkStart := 0, dStart := 0, dRef := 0, dSeen := false, dReached := false, dLate := false, dvRun := 0, dfb := false
    dfbRun := 0, bsen := 0, bsk := 8, bstref := 2000, boot := [] }

/-! ## Redundant execution (R384 to R409) -/

/-- The current checkpoint (R396): the core's state, tag, retired-instruction count and TIME. -/
structure Ckpt where
  core : Core
  tag : Word
  retired : Nat
  time : Nat
deriving DecidableEq, Repr

/-- A store-journal entry (R397): word address and the word before the store. -/
structure Journal where
  addr : Nat
  old : Word
deriving DecidableEq, Repr

/-- A kind of replay-log entry (R397). -/
inductive LogKind where
  | value | wait | entry | effect | fault
deriving DecidableEq, Repr

/-- A replay-log entry: its kind, and its address, count or number with its value, cause or code. -/
structure LogRec where
  kind : LogKind
  a : Word
  v : Word
deriving DecidableEq, Repr

/-- LSC beyond its registers: the cycle of the last mismatch, the recovery's outcome code and its earliest end (R390),
the engine it retired (3 = none), the checkpoint, the two logs, the cycle from which the checkpoint interval counts,
whether an overdue checkpoint or an overflow has been told, the rest of the replay log while a restoration runs (R398), the
cycle of a request of LS.SPLIT or LS.JOIN and of the first carrier boundary since (R399), the split core and the split's
start (R400), whether a join was forced (R401), and the trip request of R388 on its way. -/
structure Lsc where
  m : Nat
  outcome : Nat
  due : Nat
  lost : BitVec 2
  ck : Option Ckpt
  journal : List Journal
  rlog : List LogRec
  ckFrom : Nat
  ckTold : Bool
  ovfTold : Bool
  replay : Option (List LogRec)
  reqAt : Nat
  bndAt : Option Nat
  split : Option Eng
  splitSince : Nat
  forced : Bool
  tripReq : Bool
deriving DecidableEq, Repr

def Lsc.reset : Lsc :=
  { m := 0, outcome := 0, due := 0, lost := 3, ck := none, journal := [], rlog := [], ckFrom := 0, ckTold := false
    ovfTold := false, replay := none, reqAt := 0, bndAt := none, split := none, splitSince := 0, forced := false, tripReq := false }

/-! ## Counters, samplers and debug (R520 to R535) -/

/-- PERF beyond its registers (R520 to R525): the counts, the value each engine captured last, the occurrences each
sampler has seen since its last entry, and the words of the sample buffer. -/
structure Perf where
  cnt : List (Nat × Nat)
  cap : List (Nat × Nat)
  smp : List (Nat × Nat)
  buf : List (Nat × Word)
deriving DecidableEq, Repr

def Perf.reset : Perf := { cnt := [], cap := [], smp := [], buf := [] }

/-- A debug port access held in the domain (R528): the request, whether it writes and its data, and its result once
complete: none where it was refused. -/
structure HeldAccess where
  req : DebugReq
  write : Bool
  data : Word
  result : Option (Option Word)
deriving DecidableEq, Repr

/-- The debug port of a domain beyond its registers (R528, R531): whether the cores are in debug halt; a halt requested
with its cause; the engines that have yet to execute their step; the breakpoint before which an engine has halted; an access held; the last response and the data sent with it. -/
structure Dbg where
  halted : Bool
  want : Option (BitVec 3)
  stepping : List Eng
  past : List (Eng × Word)
  held : Option HeldAccess
  resp : BitVec 4
  data : Word
deriving DecidableEq, Repr

def Dbg.reset : Dbg := { halted := false, want := none, stepping := [], past := [], held := none, resp := 0xF, data := 0 }

/-! ## Heat and spares (R441 to R464) -/

/-- THM beyond its registers: rounds since reset, each sensor's last readings (newest first), its runs outside and
inside TDEV (R442), rate excursions in progress (R445), and a trip request on its way. -/
structure Thm where
  rounds : Nat
  hist : List (Nat × List Int)
  dev : List (Nat × Nat)
  good : List (Nat × Nat)
  exc : BitVec 3
  tripReq : Bool
deriving DecidableEq, Repr

def Thm.reset : Thm := { rounds := 0, hist := [], dev := [], good := [], exc := 0, tripReq := false }

/-- A row of a repairable memory with its correctable errors (R454). -/
structure RowCount where
  row : Nat
  n : Nat
deriving DecidableEq, Repr

/-- SPR beyond its registers: output stages named for a change, those found faulty in this cycle and the cycle from which
each drives (R450), the comparator under test with the test's first
cycle and the next of the rotation (R451), working cells retired, the row tables of the four memories (R454; the entry
changed last comes last), rows that wait for a repair for an uncorrectable error, rows under repair and rows repaired, the NVM rows' correctable errors and the repair list
(R455), the rows of the field repair map and the spare rows left usable (R495, R496), the stress accumulated below one
second per stage (R458), the wear record last saved, the counts of each
kind and action (key 8 kind + action) and whether a save is due (R459). -/
structure Spr where
  change : BitVec 19
  bad : BitVec 19
  stageAt : List (Nat × Nat)
  test : Option (Nat × Nat)
  next : Nat
  cmpRet : BitVec 7
  rows : List (Nat × List RowCount)
  hard : List (Nat × Nat)
  fixing : List (Nat × Nat)
  fixed : List (Nat × Nat)
  nvm : List (Nat × Nat)
  list : List Nat
  map : List Nat
  spares : Nat
  stress : List (Nat × Nat)
  record : List (Nat × Word)
  recRows : List (Nat × Nat)
  recList : List Nat
  counts : List (Nat × Nat)
  saveReq : Bool
deriving DecidableEq, Repr

def Spr.reset : Spr :=
  { change := 0, bad := 0, stageAt := [], test := none, next := 0, cmpRet := 0, rows := [], hard := [], fixing := [], fixed := [], nvm := [], list := []
    map := [], spares := 164, stress := [], record := [], recRows := [], recList := [], counts := [], saveReq := false }

/-! ## Machine safety functions (R410 to R440) -/

/-- A sample of the torque plausibility unit: value, electrical angle of its phase, h_0, and whether the diagnostic window
was open then (R426, R427). -/
structure TpSample where
  value : Int
  angle : Word
  h : Nat
  win : Bool
deriving DecidableEq, Repr

/-- SAFE beyond its registers: whether the start demand has ended, the other conditions of R414 as last seen, a
release that waits for a boundary; the two delay timers and elements asserted by their own inputs (R413); a readback
test in progress (R418); an SS1 started from the inputs, and its start speed (R419); contactors confirmed (R423);
the held torque samples, whether they are new, the run of failing estimates, the last estimate, its staleness and
the suspension (R427 to R429); the diagnostic window at the last first hold of a group; the change-log queue (R438);
the password (R435). -/
structure Safe where
  started : Bool
  cond : BitVec 6
  relPend : Bool
  timerA : Option Nat
  timerB : Option Nat
  dirA : Bool
  dirB : Bool
  testing : Bool
  ss1In : Bool
  ss1Start : Nat
  ss1T : Nat
  conf : BitVec 3
  tpU : Option TpSample
  tpV : Option TpSample
  tpW : Option TpSample
  tpNew : Option Nat
  tpRun : Nat
  tpLast : Nat
  tpSince : Nat
  tpTold : Bool
  winHold : Bool
  logQ : List (List Word)
  password : Word
deriving DecidableEq, Repr

def Safe.reset : Safe :=
  { started := false, cond := 32, relPend := false, timerA := none, timerB := none, dirA := false, dirB := false
    testing := false, ss1In := false, ss1Start := 0, ss1T := 0, conf := 7, tpU := none, tpV := none, tpW := none
    tpNew := none, tpRun := 0, tpLast := 0, tpSince := 0, tpTold := false, winHold := false
    logQ := [], password := 0 }

/-- What every domain has: time (R122), reset sources, registers, memories, events (R167 to R173), the three cores,
the PLL, redundancy, counters, debug, heat and spares; the code bank it booted from (R502), the cores that failed their
self-test in B8, whether EV_CLKFBK or a thermal restart is still to be reported when the cores run (R111, R448), the
counter that selects free values; for each source the first cycle in which it may raise its next event (R167), for each
range the source granted last (R170), and what has happened in the present cycle. -/
structure Domain where
  id : Nat
  time : Nat
  fresh : Nat
  rs : ResetSrc
  regs : List (Nat × Word)
  mem : List Host.Cell
  evq : List Event
  stamps : List (Nat × Nat)
  evNext : List (Nat × Nat)
  evTurn : List (Nat × Nat)
  cyc : Cycle
  e0 : Core
  e1 : Core
  e2 : Core
  pll : Pll
  lsc : Lsc
  perf : Perf
  dbg : Dbg
  thm : Thm
  spr : Spr
  bank : Bool
  onRc : Bool
  warm : Bool
deriving DecidableEq, Repr

/-- A domain after reset (R13, R90, R118, R122). -/
def Domain.reset (id : Nat) : Domain :=
  { id := id, time := 0, fresh := 0, rs := { supply := false, pin := false, soft := false, thermal := false }
    regs := [], mem := [], evq := [], stamps := [], evNext := [], evTurn := [], cyc := .reset, e0 := .reset, e1 := .reset, e2 := .reset, pll := .reset
    lsc := .reset, perf := .reset, dbg := .reset, thm := .reset, spr := .reset, bank := false, onRc := false
    warm := false }

/-- A channel (R18, R20): its domain, plan and live banks (R148), the commit in progress, refused
requests whose status is not yet recorded, plan writes held for it
(R155), what the plan registers written in the present cycle held before it (R12), the plan registers whose parity fails
(R152), RWL values waiting and collected (R163, R166) with the boundaries of the live hold, its blocks; the ring
time that the host domain shows it (R489), and the output drivers that have been enabled since reset (R58). -/
structure Channel where
  dom : Domain
  plan : List (Nat × Word)
  live : List (Nat × Word)
  cmt : Option CommitReq
  refusals : List CommitReq
  retiring : List CommitReq
  heldPlan : List (Nat × Word)
  planOld : List (Nat × Word)
  planBad : List Nat
  rwlNext : List (Nat × Word)
  rwlHeld : List (Nat × Word)
  holdBoundaries : Nat
  weir : Weir
  pos : Pos
  adc : Adc
  pwm : Pwm
  gdi : Gdi
  cas : Cas
  safe : Safe
  rt : Nat
  drivers : BitVec 10
deriving DecidableEq, Repr

/-- A channel after reset (R90). -/
def Channel.reset (id : Nat) : Channel :=
  { dom := .reset id, plan := [], live := [], cmt := none, refusals := [], retiring := [], heldPlan := [], planOld := [], planBad := [], rwlNext := [], rwlHeld := []
    holdBoundaries := 0, weir := .reset, pos := .reset, adc := .reset, pwm := .reset, gdi := .reset, cas := .reset
    safe := .reset, rt := 0, drivers := 0 }

/-! ## The Runnel ring (R465 to R492) -/

/-- A ring access of a core that needs a response (R484, R485): tag, the domain, engine and order of the access, its
kind, node and offset, its data, when it was sent last, how often it has been sent again, and the status and data that
completed it. -/
structure RingReq where
  tag : Nat
  d : Dom
  e : Eng
  seq : Nat
  write : Bool
  node : Nat
  off : Nat
  data : Word
  sent : Option Nat
  tries : Nat
  reply : Option (BitVec 4 × Word)
deriving DecidableEq, Repr

/-- A ring port beyond its registers: the frames that leave next, in order (R474), the frame on the transmitter and the HCLK
cycle in which it has left, since when the port has been UP (R487), and the ring time at which the last cyclic frame leaves it
(R480). -/
structure PortSt where
  fwd : List (List Byte)
  out : List Byte
  free : Nat
  upAt : Nat
  cycOut : Nat
deriving DecidableEq, Repr

def PortSt.reset : PortSt := { fwd := [], out := [], free := 0, upAt := 0, cycOut := 0 }

/-- The last request a source node made, with the response it got (R484). -/
structure LastReq where
  src : Nat
  tag : Nat
  stat : BitVec 4
  data : List Word
deriving DecidableEq, Repr

/-- RING beyond its registers: ring time in half nanoseconds (R476) and the rate trim in force (R477), the ports, the
node's own waiting frames per port (R474), requests of cores and the next tag (R484), the last request and response of
each source node, each path's last returned cyclic words (R479), the prepared TX words, whether they have been prepared
for the next cycle and were for this one, and captured RX words (R478),
whether a valid cyclic frame and a usable time frame have arrived in this cycle, and the runs of R477 and R479. -/
structure Ring where
  t2 : Nat
  trim : Option Word
  a : PortSt
  b : PortSt
  mine : List (Port × List Byte)
  reqs : List RingReq
  nextTag : Nat
  last : List LastReq
  prevA : List Word
  prevB : List Word
  tx : List (Nat × List Word)
  txReady : Bool
  txFresh : Bool
  rx : List (Nat × List Word)
  seen : Bool
  timed : Bool
  missed : Nat
  noTime : Nat
  goodOfs : Nat
deriving DecidableEq, Repr

def Ring.reset : Ring :=
  { t2 := 0, trim := none, a := .reset, b := .reset, mine := [], reqs := [], nextTag := 0, last := [], prevA := []
    prevB := [], tx := [], txReady := false, txFresh := false, rx := [], seen := false, timed := false, missed := 0, noTime := 0
    goodOfs := 0 }

/-! ## The update manager and the boot ROM (R493 to R519) -/

/-- An update chunk taken and not yet written (R508): its port, source node and tag, area, offset and data. -/
structure Chunk where
  port : Port
  src : Nat
  tag : Nat
  area : Nat
  off : Nat
  data : List Word
deriving DecidableEq, Repr

/-- UPD and BOOT beyond their registers: chunk buffers, whether SEAL waits for them (R509), the writes of UPD_STGCTL, and of
UPD_CMD (marked true), that wait for the end of write-inhibit (log 81), whether the ROM has decided something and the floor
before it, both told at release (R517). -/
structure Upd where
  bufs : List Chunk
  sealing : Bool
  waiting : List (Bool × Word)
  decided : Bool
  floor0 : Nat
deriving DecidableEq, Repr

def Upd.reset : Upd := { bufs := [], sealing := false, waiting := [], decided := false, floor0 := 0 }

/-- The host domain (R23). -/
structure HostDom where
  dom : Domain
  ring : Ring
  upd : Upd
deriving DecidableEq, Repr

def HostDom.reset : HostDom := { dom := .reset 4, ring := .reset, upd := .reset }

/-! ## The device -/

/-- What belongs to the device as a whole: rails whose monitor is asserted (R82), the write-inhibit threshold (R84), the
fuses of R506 and R507, how many entries the update log has had (R498), the host debug key (R529), the scan fuse and
the levels that EXTEST puts on the outputs of groups A, B and D, thirty of each channel (R535). -/
structure Dev where
  bad : List Rail
  inhibit : Bool
  floorFuses : Nat
  key0 : Bool
  key1 : Bool
  revoked0 : Bool
  updLog : Nat
  debugKey : Word
  scanFuse : Bool
  extest : Option (BitVec 120)
deriving DecidableEq, Repr

/-- The whole device (R17), and the commands that wait, first in, first out. -/
structure State where
  c0 : Channel
  c1 : Channel
  c2 : Channel
  c3 : Channel
  host : HostDom
  dev : Dev
  pending : List Instr
deriving DecidableEq, Repr

/-- The device as it leaves power-on reset, boot about to begin (R90, R108): every rail good, fuses as shipped with both
key slots programmed (log 20), no command waiting. -/
def State.reset : State :=
  { c0 := .reset 0, c1 := .reset 1, c2 := .reset 2, c3 := .reset 3, host := .reset
    dev := { bad := [], inhibit := false, floorFuses := 0, key0 := true, key1 := true, revoked0 := false, updLog := 0
             debugKey := 0, scanFuse := true, extest := none }
    pending := [] }

/-- A stop that is not a refusal. The block has none: a command that its state does not admit leaves the state unchanged
(log 2), so no constructor is raised. -/
inductive Fault where
  /-- Raised by no command: a command that the state does not admit changes nothing. Safe. -/
  | none
deriving DecidableEq, Repr

/-- Why a command is refused. -/
inductive Refusal where
  /-- Raised by an arm of the dispatch whose meaning is not written: safe. -/
  | notModelled (mnemonic : String)
deriving DecidableEq, Repr

end Sys2Proof.Machine
end

