-- ==== Sys2Proof/Machine/Ops.lean ====
section
/-! DEFINITION. Ops.lean: the named operations every block shares: bit fields, register fields in the three stores
of a block (current, plan, live), saturating counts, signed numbers, events, and the lifting of a channel's or a
domain's change to the whole state. -/

namespace Sys2Proof

def Thread.idx : Thread → Nat
  | .t0 => 0 | .t1 => 1 | .t2 => 2 | .t3 => 3

def Chan.idx : Chan → Nat
  | .c0 => 0 | .c1 => 1 | .c2 => 2 | .c3 => 3

def Eng.idx : Eng → Nat
  | .e0 => 0 | .e1 => 1 | .e2 => 2

end Sys2Proof

namespace Sys2Proof.Machine

/-! ## Bit fields and numbers -/

/-- Ones in the `n` low bits. -/
def lowMask (n : Nat) : Word := BitVec.ofNat 32 (2 ^ n - 1)

/-- Bits [hi:lo] of a word (R5). -/
def fget (w : Word) (hi lo : Nat) : Word := (w >>> lo) &&& lowMask (hi + 1 - lo)

/-- A word with bits [hi:lo] replaced by the low bits of `v`. -/
def fput (w : Word) (hi lo : Nat) (v : Word) : Word :=
  (w &&& ~~~(lowMask (hi + 1 - lo) <<< lo)) ||| ((v &&& lowMask (hi + 1 - lo)) <<< lo)

/-- A bit of a word as a truth value. -/
def bitOf (w : Word) (i : Nat) : Bool := w.getLsbD i

/-- A truth value as a one-bit number. -/
def ofB (b : Bool) : Word := if b then 1 else 0

/-- The signed number that the `n` low bits of a natural number hold in two's complement. -/
def sgn (n : Nat) (v : Nat) : Int :=
  if 2 ^ (n - 1) ≤ v % 2 ^ n then (v % 2 ^ n : Nat) - (2 ^ n : Nat) else (v % 2 ^ n : Nat)

/-- An integer kept to the range of an `n`-bit signed number. -/
def satS (n : Nat) (x : Int) : Int :=
  if x < -(2 ^ (n - 1) : Nat) then -(2 ^ (n - 1) : Nat)
  else if x > (2 ^ (n - 1) : Nat) - 1 then (2 ^ (n - 1) : Nat) - 1 else x

/-- A natural number kept below a ceiling. -/
def satN (m x : Nat) : Nat := if x ≤ m then x else m

/-- An integer as a word, modulo 2^32. -/
def wordOfInt (x : Int) : Word := BitVec.ofInt 32 x

/-- Division truncated towards zero. -/
def tdivZ (a : Int) (b : Int) : Int := Int.tdiv a b

/-! ## Register stores -/

/-- The register at a key; an unlisted key reads as its reset value (R13). -/
def rget (m : List (Nat × Word)) (k : Nat) : Word := sget (resetOf k) m k

/-- Write the register at a key. -/
def rput (m : List (Nat × Word)) (k : Nat) (v : Word) : List (Nat × Word) := sset (resetOf k) m k v

/-- A field of a register store. -/
def fld (m : List (Nat × Word)) (f : Fld) : Word := fget (rget m f.reg) f.hi f.lo

/-- A register store with a field replaced. -/
def setFld (m : List (Nat × Word)) (f : Fld) (v : Word) : List (Nat × Word) :=
  rput m f.reg (fput (rget m f.reg) f.hi f.lo v)

/-- The width of a field. -/
def Fld.width (f : Fld) : Nat := f.hi + 1 - f.lo

/-- One bit of a field as a field of its own. -/
def Fld.bit (f : Fld) (i : Nat) : Fld := ⟨f.reg, f.lo + i, f.lo + i⟩

/-! ## Fields of a domain -/

def Domain.rg (d : Domain) (f : Fld) : Word := fld d.regs f
def Domain.rgN (d : Domain) (f : Fld) : Nat := (d.rg f).toNat
def Domain.rgB (d : Domain) (f : Fld) : Bool := d.rg f != 0
def Domain.rgI (d : Domain) (f : Fld) : Int := sgn f.width (d.rgN f)
def Domain.set (d : Domain) (f : Fld) (v : Word) : Domain := { d with regs := setFld d.regs f v }
def Domain.setN (d : Domain) (f : Fld) (v : Nat) : Domain := d.set f (BitVec.ofNat 32 v)

/-- The source of CCLK: on the RC oscillator, and the VCO in use (R410). -/
def Domain.source (d : Domain) : Bool × Bool := (d.rgB PLL_STAT_RC, d.rgB PLL_STAT_VCO_SEL)

/-- The bits that hardware has set in this cycle, with those of a field set now joined to them (R12). -/
def Cycle.note (y : Cycle) (f : Fld) (b : Bool) : Cycle :=
  if b then { y with set := sset 0 y.set f.reg (sget 0 y.set f.reg ||| (lowMask (f.hi + 1 - f.lo) <<< f.lo)) } else y

/-- Hardware sets or clears a flag. -/
def Domain.setB (d : Domain) (f : Fld) (b : Bool) : Domain := { d.set f (ofB b) with cyc := d.cyc.note f b }

/-- A write of ones to the bits `w` of a register of write-one-to-clear flags: a bit that hardware has set in the same
cycle stays (R12). -/
def Domain.w1c (d : Domain) (k : Nat) (w : Word) : Domain :=
  { d with regs := rput d.regs k (rget d.regs k &&& ~~~(w &&& ~~~(sget 0 d.cyc.set k))) }

/-- Increment a count field, saturating at its largest value. -/
def Domain.count (d : Domain) (f : Fld) : Domain := d.setN f (satN (2 ^ f.width - 1) (d.rgN f + 1))

/-- The cycle of the domain as its time counter shows it (R122). -/
def Domain.now (d : Domain) : Nat := d.time

/-- Raise an event stamped with cycle `t`: it joins its source's queue. A source raises at most one event in a cycle, so a
second one has the next cycle for its stamp (R167; log 46); a source that already holds four drops the event and sets its
EVT_OVR bit (R168). -/
def Domain.raiseAt (d : Domain) (t ev arg : Nat) : Domain :=
  if (d.evq.filter (fun e => e.src == BitVec.ofNat 7 ev)).length < 4 then
    { d with evq := d.evq ++ [⟨BitVec.ofNat 7 ev, max t (sget 0 d.evNext ev), BitVec.ofNat 16 arg⟩]
             evNext := sset 0 d.evNext ev (max t (sget 0 d.evNext ev) + 1) }
  else d.setB ((EVT_OVR_OVR (ev / 32)).bit (ev % 32)) true

/-- Raise an event stamped with the present cycle. -/
def Domain.raise (d : Domain) (ev : Nat) (arg : Nat) : Domain := d.raiseAt d.time ev arg

/-- Take a free word and advance the counter that selects it (log 3). -/
def Domain.free (d : Domain) (site : Nat) : Word × Domain :=
  (Config.freeWord (8 * site + d.id) d.fresh, { d with fresh := d.fresh + 1 })

/-! ## Fields of a channel -/

def Channel.rg (c : Channel) (f : Fld) : Word := fld c.dom.regs f
def Channel.rgN (c : Channel) (f : Fld) : Nat := (c.rg f).toNat
def Channel.rgB (c : Channel) (f : Fld) : Bool := c.rg f != 0
def Channel.set (c : Channel) (f : Fld) (v : Word) : Channel := { c with dom := c.dom.set f v }
def Channel.setN (c : Channel) (f : Fld) (v : Nat) : Channel := { c with dom := c.dom.setN f v }
def Channel.setB (c : Channel) (f : Fld) (b : Bool) : Channel := { c with dom := c.dom.setB f b }
def Channel.count (c : Channel) (f : Fld) : Channel := { c with dom := c.dom.count f }
def Channel.raise (c : Channel) (ev : Nat) (arg : Nat := 0) : Channel := { c with dom := c.dom.raise ev arg }
def Channel.raiseAt (c : Channel) (t ev : Nat) (arg : Nat := 0) : Channel := { c with dom := c.dom.raiseAt t ev arg }
def Channel.w1c (c : Channel) (k : Nat) (w : Word) : Channel := { c with dom := c.dom.w1c k w }
def Channel.now (c : Channel) : Nat := c.dom.time

/-- A live-bank field (R148), or an RWL value in use (R163). -/
def Channel.lv (c : Channel) (f : Fld) : Word := fld c.live f
def Channel.lvN (c : Channel) (f : Fld) : Nat := (c.lv f).toNat
def Channel.lvB (c : Channel) (f : Fld) : Bool := c.lv f != 0

/-- Clear every field of a register: the four counts of an error-count register (R238, R271, R306, R383). -/
def Channel.clearReg (c : Channel) (k : Nat) : Channel := { c with dom := { c.dom with regs := rput c.dom.regs k 0 } }

/-- Do something only if a condition holds; otherwise the event does not come about and nothing changes (log 2). -/
def Channel.when (c : Channel) (p : Bool) (f : Channel → Channel) : Channel := if p then f c else c

/-- A free word for a channel. -/
def Channel.free (c : Channel) (site : Nat) : Word × Channel :=
  ((c.dom.free site).1, { c with dom := (c.dom.free site).2 })

/-! ## Plan banks -/

/-- The number of a banked block in the mask order of R130, from a register key. -/
def bankOfKey (k : Nat) : Option Nat := if 0x20000 ≤ k ∧ k < 0x90000 then some (k / 65536 - 2) else none

def named (mask : BitVec 7) (k : Nat) : Bool := match bankOfKey k with | some b => mask.getLsbD b | none => false

/-- The register at a key holds an RWP field. -/
def isPlanKey (k : Nat) : Bool := match rowOf k with | some r => r.rwp != 0 | none => false

/-- A plan register takes a value; what it held before the cycle's writes is kept for a commit of the same cycle (R12). -/
def Channel.planPut (c : Channel) (k : Nat) (v : Word) : Channel :=
  { c with plan := rput c.plan k v
           planOld := if c.planOld.any (fun e => e.1 == k) then c.planOld else (k, rget c.plan k) :: c.planOld }

/-- A commit in its window Q to Q + 10. -/
def Channel.inWindow (c : Channel) : Option CommitReq :=
  match c.cmt with
  | some r => if c.now ≤ r.q + 10 then some r else none
  | none => none

/-- A write of a plan register performed in the window of a commit that names its block is held (R155). -/
def Channel.writePlan (c : Channel) (k : Nat) (v : Word) : Channel :=
  match c.inWindow with
  | some r =>
    if decide (r.q < c.now) && named r.mask k then
      { c with heldPlan := c.heldPlan.filter (fun e => e.1 != k) ++ [(k, v)] }
    else { c with heldPlan := c.heldPlan.filter (fun e => e.1 != k) }.planPut k v
  | none => { c with heldPlan := c.heldPlan.filter (fun e => e.1 != k) }.planPut k v

end Sys2Proof.Machine
end

