-- ==== Sys2Proof/Machine/Mem.lean ====
section
/-! DEFINITION. Mem.lean: the memories of a domain as bytes at physical keys (R4, R21, R24, R311, R193): SRAM, data
NVM and the program and data memories of Weir and Cascade at their addresses, the two code banks at keys of their
own. Bytes are in little-endian order. A byte that nothing has written reads as 0 (log 7). -/

namespace Sys2Proof.Machine

/-- The canonical form of a memory: addresses strictly rising, no listed byte 0. -/
abbrev Memory.wf (m : List Host.Cell) : Bool := swf (fun _ => (0 : BitVec 8)) m

/-- Read and write one byte. -/
def memByte (m : List Host.Cell) (a : Nat) : Byte := sget 0 m a
def memPut (m : List Host.Cell) (a : Nat) (b : Byte) : List Host.Cell := sset 0 m a b

/-- Read `n` bytes from `a` as one number, least significant byte first (R4). -/
def memRead (m : List Host.Cell) (a : Nat) : Nat → Nat
  | 0 => 0
  | n + 1 => (memByte m a).toNat + 256 * memRead m (a + 1) n

/-- Write the `n` low bytes of a number from `a`. -/
def memWrite (m : List Host.Cell) (a : Nat) : Nat → Nat → List Host.Cell
  | 0, _ => m
  | n + 1, v => memWrite (memPut m a (BitVec.ofNat 8 v)) (a + 1) n (v / 256)

def memWord (m : List Host.Cell) (a : Nat) : Word := BitVec.ofNat 32 (memRead m a 4)
def memPutWord (m : List Host.Cell) (a : Nat) (w : Word) : List Host.Cell := memWrite m a 4 w.toNat

def Channel.word (c : Channel) (a : Nat) : Word := memWord c.dom.mem a
def Channel.putWord (c : Channel) (a : Nat) (w : Word) : Channel :=
  { c with dom := { c.dom with mem := memPutWord c.dom.mem a w } }

end Sys2Proof.Machine
end

