-- ==== Sys2Proof/Machine/Crc.lean ====
section
/-! DEFINITION. Crc.lean: the CRC-32 of IEEE 802.3 (R407, R470): polynomial 0x04C1_1DB7 processed reflected, from all ones,
complemented at the end. -/

namespace Sys2Proof.Machine

/-- One bit of the division, least significant bit first. -/
def crcBit (c : Word) : Word := if bitOf c 0 then (c >>> 1) ^^^ 0xEDB88320 else c >>> 1

def crcByte (c : Word) (b : Byte) : Word :=
  (List.range 8).foldl (fun c _ => crcBit c) (c ^^^ b.setWidth 32)

def crc32 (bs : List Byte) : Word := ~~~(bs.foldl crcByte 0xFFFFFFFF)

/-- `n` bytes of memory from key `a`. -/
def memBytes (m : List Host.Cell) (a n : Nat) : List Byte := (List.range n).map (fun i => memByte m (a + i))

/-- The four bytes of a word, least significant first (R4). -/
def bytesOf (w : Word) : List Byte := [w.setWidth 8, (w >>> 8).setWidth 8, (w >>> 16).setWidth 8, (w >>> 24).setWidth 8]

end Sys2Proof.Machine
end

