-- ==== Sys2Proof/Machine/Coord.lean ====
section
/-! DEFINITION. Coord.lean: the angle and carrier coordinates, the waits on them and Weir's threads (R177 to R194),
and the modes of the carrier (R202 to R209). -/

namespace Sys2Proof.Machine

/-! ## Threads -/

def Weir.th (w : Weir) : Thread → WThread
  | .t0 => w.t0 | .t1 => w.t1 | .t2 => w.t2 | .t3 => w.t3

def Weir.setTh (w : Weir) (t : Thread) (x : WThread) : Weir :=
  match t with
  | .t0 => { w with t0 := x } | .t1 => { w with t1 := x } | .t2 => { w with t2 := x } | .t3 => { w with t3 := x }

def Weir.mapTh (w : Weir) (f : WThread → WThread) : Weir :=
  { w with t0 := f w.t0, t1 := f w.t1, t2 := f w.t2, t3 := f w.t3 }

def WMode.code : WMode → Nat
  | .async => 0 | .transition => 1 | .sync => 2

/-- The argument of a thread's event: [15:14] thread, [12:0] slot (R211). -/
def threadArg (t : Thread) (slot : BitVec 13) : Nat := t.idx * 16384 + slot.toNat

/-! ## Movement and crossing -/

/-- The movement from `a` to `b` as a signed 32-bit value, in which exactly 2^31 counts as positive (R179, R186). -/
def movement (a b : Word) : Int :=
  if (b - a).toNat ≤ 2147483648 then ((b - a).toNat : Int) else ((b - a).toNat : Int) - 4294967296

/-- Movement `m` from `x` carries a coordinate forward to or through `target` (R186). -/
def crossesForward (x target : Word) (m : Int) : Bool :=
  decide (0 < m) && decide (0 < (target - x).toNat) && decide (((target - x).toNat : Int) ≤ m)

/-- Movement `m` from `x` carries a coordinate backward to or through `target` (R186). -/
def crossesBackward (x target : Word) (m : Int) : Bool :=
  decide (m < 0) && decide (0 < (x - target).toNat) && decide (((x - target).toNat : Int) ≤ -m)

def crosses (d : WDir) (x target : Word) (m : Int) : Bool :=
  match d with
  | .forward => crossesForward x target m
  | .backward => crossesBackward x target m
  | .either => crossesForward x target m || crossesBackward x target m

/-- What a cycle's movements do to one thread's wait: an armed wait whose arming cycle is over is satisfied by a
movement through its target in its direction; a jump is remembered (R186, R190). -/
def WThread.observe (now : Nat) (th th' ph ph' : Word) (jump : Bool) (x : WThread) : WThread :=
  match x.st with
  | .waiting w =>
    if w.hit || decide (now ≤ w.cycle) then x
    else
      match w.what with
      | .angle d t =>
        if crosses d th t (movement th th') then { x with st := .waiting { w with hit := true, jump := jump } } else x
      | .carrier t =>
        if crossesForward ph t (movement ph ph') then { x with st := .waiting { w with hit := true } } else x
      | .event _ => x
  | _ => x

/-- Let every thread see a cycle's movement of θ and φ, and take the new coordinates. -/
def Weir.move (w : Weir) (now : Nat) (th' ph' : Word) (jump : Bool) : Weir :=
  { w.mapTh (WThread.observe now w.theta th' w.phi ph' jump) with theta := th', phi := ph' }

/-- What a switch of the mode does to one thread's wait: φ passes forward through 0, so that a wait for 0 is satisfied and
one for any other target waits (R190). -/
def WThread.passZero (now : Nat) (x : WThread) : WThread :=
  match x.st with
  | .waiting w =>
    match w.what with
    | .carrier t => if t = 0 ∧ w.cycle < now then { x with st := .waiting { w with hit := true } } else x
    | .angle _ _ | .event _ => x
  | _ => x

/-- φ is put to a value by a switch of the mode (R190, R205, R207). -/
def Weir.switchPhi (w : Weir) (now : Nat) (ph : Word) : Weir := { w.mapTh (WThread.passZero now) with phi := ph }

/-- An event reaches Weir: a thread that waits for it, armed no later than its stamp, is satisfied (R169, R196). -/
def WThread.seeEvent (ev : BitVec 7) (stamp : Nat) (x : WThread) : WThread :=
  match x.st with
  | .waiting w =>
    match w.what with
    | .event e => if e = ev ∧ w.cycle ≤ stamp then { x with st := .waiting { w with hit := true } } else x
    | _ => x
  | _ => x

/-! ## The angle coordinate -/

/-- The speed of the latch in use as a signed Q16.16 number (R178). -/
def Weir.omega (w : Weir) : Int := sgn 32 w.omL.toNat

/-- |ω_L| in Q16.16. -/
def Weir.absOmega (w : Weir) : Nat := w.omega.natAbs

/-- θ in cycle `now` by R177 and R180: the extrapolation from the latch, held at EXTMAX, or θ_L where EXTMAX is 0. -/
def angleAt (thL omL : Word) (tL ext now : Nat) : Word :=
  if ext = 0 then thL
  else thL + wordOfInt (Int.fdiv (sgn 32 omL.toNat * (satN ext (now - tL) : Nat)) 65536)

/-- s × (θ_H − θ) mod 2^32: the angle that remains to the anchor (R203, R205). -/
def Weir.remaining (w : Weir) : Nat :=
  if w.back then (w.theta - w.anchor).toNat else (w.anchor - w.theta).toNat

/-- ⌈a / b⌉, and 0 where b is 0. -/
def cdiv (a b : Nat) : Nat := if b = 0 then 0 else (a + b - 1) / b

/-! ## The carrier coordinate -/

/-- φ of asynchronous modulation (R183). -/
def phiAsync (n p : Nat) : Word := if p = 0 then 0 else BitVec.ofNat 32 (n * 4294967296 / p)

/-- The counter position that corresponds to φ, ⌊φ × P / 2^32⌋ (R206, R209, R280). -/
def counterOf (phi : Word) (p : Nat) : Nat := phi.toNat * p / 4294967296

/-- φ of a transition period: the rate that reaches 2^32 at the predicted crossing, holding at 0xFFFF_FFFF (R204). -/
def phiTransition (phi0 : Word) (start len now : Nat) : Word :=
  if len = 0 then phi0
  else BitVec.ofNat 32 (satN 4294967295 (phi0.toNat + (4294967296 - phi0.toNat) * (now - start) / len))

/-- The formula of R184 for φ in synchronous modulation. -/
def phiSync (n : Nat) (back : Bool) (theta anchor : Word) : Word :=
  BitVec.ofNat 32 n * (if back then anchor - theta else theta - anchor)

/-- The formula of R184 for the angle in use. -/
def Weir.formula (w : Weir) : Word := phiSync w.nUse w.back w.theta w.anchor

/-- s × (θ − θ_H), which passes forward through 0 where the rotor reaches the anchor (R208). -/
def Weir.fromAnchor (w : Weir) : Word := if w.back then w.anchor - w.theta else w.theta - w.anchor

/-! ## Leaving the transition or the synchronous mode (R206, R209) -/

/-- The carrier becomes asynchronous and continues from the counter position that corresponds to φ. -/
def Channel.toAsyncHere (c : Channel) : Channel :=
  { c with weir := { c.weir with mode := .async, nUse := 0, requested := false, lastPeriod := false, fx := 0 }
           pwm := { c.pwm with n := counterOf c.weir.phi c.pwm.per } }

/-- The transition is abandoned and EV_HOREF raised with REASON 0xF (R206, R211). -/
def Channel.abandonTransition (c : Channel) : Channel :=
  if c.weir.mode = .transition then c.toAsyncHere.raise 0x20 0xF000 else c

/-- A cause of a forced exit is detected: EV_SYNCFX in this cycle, the exit in the next (R209). -/
def Channel.detectExit (c : Channel) (cause : Nat) : Channel :=
  { c with weir := { c.weir with fx := cause } }.raise 0x23 cause

/-- The synchronous period has lasted STMAX (R209). -/
def Channel.syncOver (c : Channel) : Bool :=
  decide (c.weir.mode = .sync) && decide (c.weir.syncStart + c.lvN WEIR_STMAX_STMAX ≤ c.now)

/-! ## The angle in a cycle (R177 to R182) -/

/-- The jump threshold; values above 2^31 act as 2^31 (R212). -/
def Channel.jumpLimit (c : Channel) : Nat := satN 2147483648 (c.lvN WEIR_JUMP_JTH)

/-- The extrapolation from the latch in use. -/
def Channel.angleNow (c : Channel) : Word :=
  if c.weir.latched then angleAt c.weir.thL c.weir.omL c.weir.tL (c.lvN WEIR_EXT_EXTMAX) c.now else c.weir.theta

/-- A latch delivered in this cycle comes into use and clears STALE; EV_AJUMP where the step it makes exceeds the threshold,
EV_AREV where ω_L changes its sign (R179 to R181). -/
def Channel.useLatch (c : Channel) (theta omega : Word) (stamp : Nat) : Channel × Bool × Bool :=
  let om := sgn 32 omega.toNat
  let was := c.angleNow
  let rev := match c.weir.lastDir with
    | some b => decide (om ≠ 0) && (b != decide (om < 0))
    | none => false
  let c := { c with weir := { c.weir with
              thL := theta, omL := omega, tL := stamp, latched := true
              lastDir := if om = 0 then c.weir.lastDir else some (decide (om < 0)) } }
  let step := movement was c.angleNow
  let jump := decide (c.jumpLimit < step.natAbs)
  let c := c.setB WEIR_STAT_STALE false
  let c := if jump then c.raise 0x1B ((wordOfInt step).toNat / 65536) else c
  let c := if rev then c.raise 0x1C (if om < 0 then 1 else 0) else c
  (c, jump, rev)

/-- c − t_L exceeds a non-zero EXTMAX and STALE is not yet set for it (R180). -/
def Channel.staleDue (c : Channel) : Bool :=
  c.weir.latched && !c.rgB WEIR_STAT_STALE && decide (c.lvN WEIR_EXT_EXTMAX ≠ 0)
    && decide (c.lvN WEIR_EXT_EXTMAX < c.now - c.weir.tL)

/-- The first held cycle: STALE set and EV_ASTALE raised (R180). -/
def Channel.stale (c : Channel) : Channel := (c.setB WEIR_STAT_STALE true).raise 0x1D

/-! ## The coordinates in a cycle (R177 to R186, R204, R209) -/

/-- A transition's rate is computed again at each latch (R204). -/
def Channel.newRate (c : Channel) : Channel :=
  { c with weir := { c.weir with
      trPhi := c.weir.phi, trStart := c.now, trLen := cdiv (c.weir.remaining * 65536) c.weir.absOmega } }

/-- φ and the period counter reach a new cycle in which θ is `th`. A boundary that a commit brings takes place (R205 to
R207, R279); otherwise φ advances in the mode in force, a forced exit detected in the cycle before taking effect first,
and a boundary is reached where φ, or in synchronous modulation its formula, passes 0; where the rotor passes the anchor
there, a new pulse number comes into use with EV_NCHG (R208). A stopped or frozen carrier holds
(R183 to R185, R204, R209, R303). Waits see one movement of each coordinate (R186). -/
def Channel.advance (c : Channel) (th : Word) (jump : Bool) : Channel :=
  let w := c.weir
  let now := c.now
  let goes := c.pwm.running && !c.pwm.frozen
  let count (n : Nat) (due : Bool) (w : Weir) : Channel :=
    { c with weir := w, pwm := { c.pwm with n := n, cycles := c.pwm.cycles + 1, bndDue := due } }
  if w.mode = .sync ∧ w.fx ≠ 0 then
    let c := { c with weir := w.move now th w.phi jump }.toAsyncHere
    if goes then { c with pwm := { c.pwm with cycles := c.pwm.cycles + 1 } } else c
  else if goes then
    if c.pwm.bndDue then
      match w.mode with
      | .sync =>
        let v := phiSync w.nUse w.back th w.anchor
        count 0 true { w.move now th w.phi jump with phi := if v.toNat < 2147483648 then v else 0 }
      | .async | .transition => count 0 true (w.move now th 0 jump)
    else
      match w.mode with
      | .async =>
        let wraps := decide (c.pwm.per ≤ c.pwm.n + 1)
        let n' := if wraps then 0 else c.pwm.n + 1
        count n' wraps (w.move now th (phiAsync n' c.pwm.per) jump)
      | .transition =>
        count (c.pwm.n + 1) false (w.move now th (phiTransition w.trPhi w.trStart w.trLen now) jump)
      | .sync =>
        let w' := { w with theta := th }
        let passes := crossesForward w.formula 0 (movement w.formula w'.formula)
        let cross := crossesForward w.fromAnchor 0 (movement w.fromAnchor w'.fromAnchor)
        let n := if passes && cross && !c.pwm.stopping then c.lvN WEIR_SYNC_NPULSE else w.nUse
        let v := if passes && c.pwm.stopping then 0 else phiSync n w.back th w.anchor
        let ph' := if passes || decide ((v - w.phi).toNat ≤ 2147483648) then v else w.phi
        let c := count (if passes then 0 else c.pwm.n + 1) passes { w.move now th ph' jump with nUse := n, anchorCross := cross }
        if n = w.nUse then c else c.raise 0x24 n
  else { c with weir := w.move now th w.phi jump }

/-- The coordinates of a new cycle: the latch of this cycle, if there is one, comes into use; STALE is set where the
extrapolation has lasted too long; a transition that has become impossible is abandoned; then θ and φ move, and a latch in
a transition gives it a new rate. Beside the channel: whether the latch was a jump and whether it changed the sign of ω_L. -/
def Channel.coordinates (c : Channel) (l : Option (Word × Word × Nat)) : Channel × Bool × Bool :=
  let u := match l with
    | some (theta, omega, stamp) => c.useLatch theta omega stamp
    | none => (c, false, false)
  let c := if u.1.staleDue then u.1.stale else u.1
  let c := if u.2.2 || (u.1.staleDue) then c.abandonTransition else c
  let c := c.advance c.angleNow u.2.1
  let c := if l.isSome && decide (c.weir.mode = .transition) then c.newRate else c
  (c, u.2.1, u.2.2)

/-- A cause of R209 detected in synchronous modulation in this cycle, the lowest first; 0 where there is none. -/
def Channel.exitCause (c : Channel) (jump rev : Bool) : Nat :=
  if c.weir.mode ≠ .sync ∨ c.weir.fx ≠ 0 then 0
  else if rev then 1
  else if c.rgB WEIR_STAT_STALE then 2
  else if jump then 3
  else if c.lvN WEIR_SMAX_SMAX < c.weir.absOmega then 4
  else if c.syncOver then 5
  else 0

/-! ## Threads through commits (R191, R194) -/

/-- A thread restarted: it abandons its wait and begins at its live ENTRY if enabled, and otherwise stops. -/
def Channel.restartThread (c : Channel) (t : Thread) : Channel :=
  let x := { c.weir.th t with
    st := if c.lvB (WEIR_CTL_TEN.bit t.idx) then TState.running else .stopped
    pc := (c.lv (WEIR_ENTRY_ENTRY t.idx)).setWidth 13 }
  { c with weir := c.weir.setTh t x }

/-- What an accepted commit naming WEIR does to one thread: restart where TEN or ENTRY changed, or where it is
enabled but stopped. `old` is the live bank before the swap. -/
def Channel.commitThread (old : List (Nat × Word)) (c : Channel) (t : Thread) : Channel :=
  if fld old (WEIR_CTL_TEN.bit t.idx) ≠ c.lv (WEIR_CTL_TEN.bit t.idx)
      ∨ fld old (WEIR_ENTRY_ENTRY t.idx) ≠ c.lv (WEIR_ENTRY_ENTRY t.idx)
      ∨ (c.lvB (WEIR_CTL_TEN.bit t.idx) = true ∧ (c.weir.th t).st = .stopped)
  then c.restartThread t else c

/-- WEIR's part of an accepted commit; the hand-over commit itself abandons nothing (R194, R205, R206). -/
def Channel.commitWeir (old : List (Nat × Word)) (handover : Bool) (c : Channel) : Channel :=
  let c := [Thread.t0, .t1, .t2, .t3].foldl (Channel.commitThread old) c
  if c.lvB WEIR_SYNC_HO_EN || handover then c else c.abandonTransition

/-! ## The modes at a carrier boundary (R203, R207, R208) -/

/-- |ω_L| ≥ SON, HO_EN = 1 and STALE = 0 in asynchronous modulation (R203). -/
def Channel.handoverReady (c : Channel) : Bool :=
  c.lvB WEIR_SYNC_HO_EN && decide (c.lvN WEIR_SON_SON ≤ c.weir.absOmega) && !c.rgB WEIR_STAT_STALE
    && decide (c.weir.omega ≠ 0)

/-- The exit speed SOFF = SON − SHYS, saturated at 0 (R202). -/
def Channel.soff (c : Channel) : Nat := c.lvN WEIR_SON_SON - c.lvN WEIR_SHYS_SHYS

/-- The period that begins here is a transition period of predicted length `t` (R203). -/
def isTransition (t p : Nat) : Bool :=
  decide (p ≤ 2 * t) && decide (6400 ≤ t) && decide (2 * t < 3 * p) && decide (t ≤ 800000)

/-- Weir's decisions at a carrier boundary: a transition begins, or the last synchronous period begins. -/
def Channel.boundaryMode (c : Channel) : Channel :=
  match c.weir.mode with
  | .async | .transition =>
    if c.handoverReady then
      let w := { c.weir with back := decide (c.weir.omega < 0), anchor := c.lv WEIR_HOANG_ANGLE }
      let t := cdiv (w.remaining * 65536) w.absOmega
      if isTransition t c.pwm.per then
        ({ c with weir := { w with mode := .transition, trPhi := 0, trStart := c.now, trLen := t
                                   requested := false } }).raise 0x1E (satN 0xFFFF (t / 16))
      else c
    else c
  | .sync =>
    { c with weir := { c.weir with
      syncStart := c.now, requested := false
      lastPeriod := decide (c.weir.absOmega < c.soff) || !c.lvB WEIR_SYNC_HO_EN } }

/-- The hand-over commit is accepted at the edge that ends cycle `q10` = Q + 10: the synchronous mode comes into use with the
live anchor and pulse number, and the next cycle is a boundary; EV_HO carries N. A transition abandoned after Q has no mode
to hand over (R205, R206; log 68). -/
def Channel.enterSync (c : Channel) (q10 : Nat) : Channel :=
  if c.weir.mode = .transition then
    let n := c.lvN WEIR_SYNC_NPULSE
    ({ c with weir := { c.weir.switchPhi c.now 0 with
                mode := .sync, anchor := c.lv WEIR_HOANG_ANGLE, nUse := n, requested := false, lastPeriod := false
                syncStart := c.now, anchorCross := false, fx := 0 }
              pwm := { c.pwm with bndDue := true } }).raiseAt q10 0x1F n
  else c

/-- The exit commit is accepted: asynchronous, φ = 0 and a boundary in the next cycle; EV_SYNCX (R207). After a forced exit
there is no mode left to leave (log 68). -/
def Channel.exitSync (c : Channel) (q10 : Nat) : Channel :=
  if c.weir.mode = .sync then
    ({ c with weir := { c.weir.switchPhi c.now 0 with
                mode := .async, nUse := 0, requested := false, lastPeriod := false, fx := 0 }
              pwm := { c.pwm with bndDue := true } }).raiseAt q10 0x21
  else c

/-- The argument of EV_HOREF and EV_SYNCXREF: REASON and RULE of R160. -/
def refusalArg (status : Word) : Nat := (fget status 3 0).toNat * 4096 + (fget status 23 16).toNat

/-- A refused hand-over commit: the transition period still ends at Q + 11, a boundary, and the mode is asynchronous
(R206). -/
def Channel.handoverRefused (c : Channel) (q10 : Nat) (status : Word) : Channel :=
  if c.weir.mode = .transition then
    ({ c with weir := { c.weir with mode := .async, nUse := 0, requested := false }
              pwm := { c.pwm with bndDue := true } }).raiseAt q10 0x20 (refusalArg status)
  else c

/-- A refused exit commit: EV_SYNCXREF; the mode stays synchronous (R207). -/
def Channel.exitRefused (c : Channel) (q10 : Nat) (status : Word) : Channel := c.raiseAt q10 0x22 (refusalArg status)

/-- The remaining angle is within 11 ω in a transition period whose commit has not been requested (R205). -/
def Channel.handoverDue (c : Channel) : Bool :=
  decide (c.weir.mode = .transition) && !c.weir.requested
    && decide (c.weir.remaining * 65536 ≤ 11 * c.weir.absOmega)

/-- φ nears 2^32 in the last synchronous period (R207). -/
def Channel.exitDue (c : Channel) : Bool :=
  decide (c.weir.mode = .sync) && c.weir.lastPeriod && !c.weir.requested
    && decide (c.weir.fx = 0)
    && decide ((4294967296 - c.weir.phi.toNat) * 65536 ≤ 11 * c.weir.nUse * c.weir.absOmega)

end Sys2Proof.Machine
end

