-- ==== Sys2Proof/Machine/Evt.lean ====
section
/-! DEFINITION. Evt.lean: the counters and samplers (R520 to R525), the roles of the cores (R387), and the event fabric:
delivery, priorities, routing and claims (R167 to R175). -/

namespace Sys2Proof

def engOf : Nat → Option Eng
  | 0 => some .e0 | 1 => some .e1 | 2 => some .e2 | _ => none

end Sys2Proof

namespace Sys2Proof.Machine

/-! ## Counters and samplers -/

/-- Counter x gains n, wrapping modulo 2^48 and recording the wrap (R520). -/
def Domain.bump (d : Domain) (x n : Nat) : Domain :=
  let v := sget 0 d.perf.cnt x + n
  let d := { d with perf := { d.perf with cnt := sset 0 d.perf.cnt x (v % 281474976710656) }
                    cyc := { d.cyc with gained := sset 0 d.cyc.gained x (sget 0 d.cyc.gained x + n) } }
  if 281474976710656 ≤ v then d.setB ((PERF_WRAP_WRAP (x / 32)).bit (x % 32)) true else d

/-- Counter x as a read samples it: without what it has gained in this cycle (R522). -/
def Domain.sampled (d : Domain) (x : Nat) : Nat :=
  (sget 0 d.perf.cnt x + 281474976710656 - sget 0 d.cyc.gained x % 281474976710656) % 281474976710656

/-- The mode of signal 0x080 + i: a change acts from the cycle after the write (R521). -/
def Domain.sigMode (d : Domain) (i : Nat) : Nat :=
  let f := PERF_MODE_MODE (i / 16) (i % 16)
  match d.cyc.modes.find? (fun p => p.1 == f.reg) with
  | some p => (fget p.2 f.hi f.lo).toNat
  | none => d.rgN f

/-- The instruction an occurrence is attributed to (R524, R525): address, instruction words and latency in CCLK. -/
structure Occ where
  pc : Word
  w0 : Word
  w1 : Word
  lat : Nat
deriving DecidableEq, Repr

/-- The words of an entry of the sample buffer for an occurrence in this cycle (R525). -/
def Domain.entryWords (d : Domain) (k x : Nat) (o : Occ) : List Word :=
  [BitVec.ofNat 32 (k * 1073741824 + (x - 256) / 16 * 134217728 + x * 262144), o.pc, o.w0, o.w1,
    BitVec.ofNat 32 (satN 1048575 o.lat), BitVec.ofNat 32 d.time, BitVec.ofNat 32 (d.time / 4294967296), 0]

/-- An entry is written at NEXT; with WRAP = 0 a full buffer discards it (R524). -/
def Domain.putEntry (d : Domain) (ws : List Word) : Domain :=
  let full := decide (d.rgN PERF_SMPSTAT_COUNT = 64)
  if full && !d.rgB PERF_SMPCTL_WRAP then d.count PERF_SMPSTAT_LOST
  else
    let i := d.rgN PERF_SMPSTAT_NEXT
    let buf := ((List.range 8).zip ws).foldl (fun b p => sset 0 b (8 * i + p.1) p.2) d.perf.buf
    let d := { d with perf := { d.perf with buf := buf } }
    (d.setN PERF_SMPSTAT_NEXT ((i + 1) % 64)).setN PERF_SMPSTAT_COUNT (if full then 64 else d.rgN PERF_SMPSTAT_COUNT + 1)

/-- The entries of a cycle are written at its end, in sampler order (R524). -/
def Domain.putEntries (d : Domain) : Domain :=
  let of := fun (k : Nat) => d.cyc.entries.filter (fun x => x.1 == k)
  (of 0 ++ of 1 ++ of 2 ++ of 3).foldl (fun d x => d.putEntry x.2) { d with cyc := { d.cyc with entries := [] } }

/-- Sampler k makes an entry, to be written in this cycle. -/
def Domain.smpEntry (d : Domain) (k x : Nat) (o : Occ) : Domain :=
  { d with cyc := { d.cyc with entries := d.cyc.entries ++ [(k, d.entryWords k x o)] } }

/-- Sampler k sees an occurrence of event x: every PERIOD-th one makes an entry (R524). -/
def Domain.sample (x : Nat) (o : Occ) (d : Domain) (k : Nat) : Domain :=
  if d.rgB (PERF_SMP_EN k) && d.rgN (PERF_SMP_EVENT k) == x then
    let n := sget 0 d.perf.smp k + 1
    let period := if d.rgN (PERF_SMP_PERIOD k) = 0 then 1 else d.rgN (PERF_SMP_PERIOD k)
    if period ≤ n then ({ d with perf := { d.perf with smp := sset 0 d.perf.smp k 0 } }).smpEntry k x o
    else { d with perf := { d.perf with smp := sset 0 d.perf.smp k n } }
  else d

/-- One occurrence of item j of the engine with local index e: its counter and the samplers that select it. -/
def Domain.item (d : Domain) (e j : Nat) (o : Occ) : Domain :=
  let x := 256 + 16 * e + j
  [0, 1, 2, 3].foldl (Domain.sample x o) (d.bump x 1)

def Channel.bump (c : Channel) (x n : Nat) : Channel := { c with dom := c.dom.bump x n }
def Channel.item (c : Channel) (e j : Nat) (o : Occ) : Channel := { c with dom := c.dom.item e j o }

/-- EV_SPR or EV_HSPR with kind, action and index, counted for the wear record (R457, R459, R461, R462). -/
def Domain.evSpr (d : Domain) (kind action idx : Nat) : Domain :=
  let d := d.raise (if d.id = 4 then 0x7F else 0x7D) (kind + 16 * action + 256 * (idx % 32))
  let k := 8 * kind + action
  { d with spr := { d.spr with
      counts := sset 0 d.spr.counts k (sget 0 d.spr.counts k + 1)
      saveReq := d.spr.saveReq || action == 1 || action == 2 || action == 5 } }

/-! ## Cores and roles -/

def Domain.core (d : Domain) : Eng → Core
  | .e0 => d.e0 | .e1 => d.e1 | .e2 => d.e2

def Domain.setCore (d : Domain) (e : Eng) (x : Core) : Domain :=
  match e with
  | .e0 => { d with e0 := x } | .e1 => { d with e1 := x } | .e2 => { d with e2 := x }

def Domain.main (d : Domain) : Option Eng := engOf (d.rgN LSC_STAT_MAIN)
def Domain.shadow (d : Domain) : Option Eng := engOf (d.rgN LSC_STAT_SHADOW)
def Domain.spare (d : Domain) : Option Eng := engOf (d.rgN LSC_STAT_SPARE)
def Domain.phase (d : Domain) : Nat := d.rgN LSC_STAT_PHASE
def Domain.dual (d : Domain) : Bool := d.rgB SYS_CAP_DUAL_CORE
def Domain.broken (d : Domain) : Bool := d.rgB LSC_STAT_DBG_BROKEN

/-- A lockstep pair is executing and compared (R384, R387). -/
def Domain.pairing (d : Domain) : Bool := decide (d.phase = 0) && !d.dual && d.main.isSome && d.shadow.isSome

/-- A pair is whole: it compares, or is held, loaded or restored after a mismatch (R389 to R391). -/
def Domain.paired (d : Domain) : Bool :=
  decide (d.phase ≤ 3) && !d.dual && !d.broken && d.main.isSome && d.shadow.isSome

/-- The shadow of a pair follows main in everything but accesses outside the pair, which main alone issues (R120, R384). -/
def Core.mirror (h x : Core) : Core :=
  { x with stores := h.stores, posted := h.posted, loads := h.loads, lost := h.lost, seq := h.seq }

/-- Write a core's state. What main of a pair does, shadow does too. -/
def Domain.putCore (d : Domain) (e : Eng) (x : Core) : Domain :=
  let d' := d.setCore e x
  match d.shadow with
  | some h => if d.paired && d.main == some e then d'.setCore h ((d'.core h).mirror x) else d'
  | none => d'

def Domain.mapCore (d : Domain) (e : Eng) (f : Core → Core) : Domain := d.putCore e (f (d.core e))

/-- The cycle in which a pending LS.SPLIT or LS.JOIN took effect: the first carrier boundary after the request, or
400,000 cycles after it where none came (R399). -/
def Domain.effectCycle (d : Domain) : Option Nat :=
  if d.rgB LSC_STAT_SPLITPEND || d.rgB LSC_STAT_JOINPEND then
    match d.lsc.bndAt with
    | some t => some (min t (d.lsc.reqAt + 400000))
    | none => if d.lsc.reqAt + 400000 ≤ d.time then some (d.lsc.reqAt + 400000) else none
  else none

/-- Main is held while a core is loaded with its state for a split or a join (R400, R401). -/
def Domain.transferring (d : Domain) : Bool :=
  d.pairing && d.effectCycle.isSome && (d.rgB LSC_STAT_JOINPEND || d.spare.isSome)

/-- What the replay log holds next for the engine that replays (R398); nothing outside a replay. -/
def Domain.expected (d : Domain) (e : Eng) : Option LogRec :=
  if decide (d.phase = 3) && d.main == some e && decide (d.lsc.due ≤ d.time) then
    match d.lsc.replay with
    | some (r :: _) => some r
    | _ => none
  else none

/-- The engine replays its log. -/
def Domain.replays (d : Domain) (e : Eng) : Bool := (d.expected e).isSome

/-- The engine executes instructions: it has been released, is not stopped or in debug halt (a step excepted), and is
main of a pair that compares, replays or runs alone, an independent core of dual-core mode, or the split core until its
join takes effect (R120, R387, R389, R393, R398, R400, R401, R403, R531). -/
def Domain.runs (d : Domain) (e : Eng) : Bool :=
  decide ((d.core e).run = .running) && (!d.dbg.halted || d.dbg.stepping.contains e)
    && ((d.lsc.split == some e && !(d.transferring && d.rgB LSC_STAT_JOINPEND)) || d.dual
      || (d.main == some e && ((decide (d.phase = 0) && !d.transferring) || decide (d.phase = 4) || d.replays e)))

/-- COREID of an engine (R122): PAIR, ROLE and ENGINE. -/
def Domain.coreId (d : Domain) (e : Eng) : Word :=
  let engine := (if d.id = 4 then 20 else 5 * d.id) + e.idx
  let indep := if d.dual then e != .e2 else d.lsc.split == some e || (d.main == some e && d.rgB SYS_CAP_DEGRADED)
  let role := if indep then 3 else if d.main == some e then 0 else if d.shadow == some e then 1 else 2
  let pair := d.pairing && (d.main == some e || d.shadow == some e)
  BitVec.ofNat 32 ((if pair then 1024 else 0) + 256 * role + engine)

/-! ## The event fabric -/

def Domain.evBit (d : Domain) (f : Nat → Fld) (ev : Nat) : Bool := d.rgB ((f (ev / 32)).bit (ev % 32))

/-- The priority field of an event (R171). -/
def Domain.pri (d : Domain) (ev : Nat) : Nat := d.rgN (EVT_PRI_PRI (ev / 8) (ev % 8))

/-- What a write of a priority stores: 0x8 only for events 0x00 to 0x0F, and 0x9 to 0xE never (R171). -/
def priStored (ev v : Nat) : Nat := if v ≤ 7 then v else if v = 8 ∧ ev < 16 then 8 else 15

/-- Set an event's pending flag; the flag keeps the stamp of the occurrence that set it (R173). -/
def Domain.setPending (d : Domain) (ev stamp : Nat) : Domain :=
  if d.evBit EVT_PEND_PEND ev then d
  else { d.setB ((EVT_PEND_PEND (ev / 32)).bit (ev % 32)) true with stamps := sset 0 d.stamps ev stamp }

/-- Clear an event's pending flag and discard its stamp. -/
def Domain.clearPending (d : Domain) (ev : Nat) : Domain :=
  { d.setB ((EVT_PEND_PEND (ev / 32)).bit (ev % 32)) false with stamps := sset 0 d.stamps ev 0 }

/-- The oldest undelivered event of a source, raised by now. -/
def Domain.oldest (d : Domain) (ev : BitVec 7) : Option Event :=
  d.evq.find? (fun x => x.src == ev && decide (x.stamp ≤ d.time))

/-- The eight ranges of R49 by their last numbers. -/
def rangeOf (host : Bool) (ev : Nat) : Nat :=
  let tops := if host then [0x0F, 0x2F, 0x3F, 0x4F, 0x5F, 0x6F, 0x77, 0x7F] else [0x0F, 0x2F, 0x3F, 0x57, 0x67, 0x6F, 0x77, 0x7F]
  (tops.filter (fun t => t < ev)).length

/-- The sources of a range with an event to deliver, in the order of the round robin: from the one after the source
granted last (R170). -/
def Domain.contenders (d : Domain) (r : Nat) : List Nat :=
  let from_ := sget 0 d.evTurn r
  ((List.range 128).map (fun i => (from_ + i) % 128)).filter fun ev =>
    rangeOf (d.id == 4) ev == r && (d.oldest (BitVec.ofNat 7 ev)).isSome

/-- The source that arbitration grants in a range: a trip-class source before any other, equals by round robin (R170). -/
def Domain.granted (d : Domain) (r : Nat) : Option Nat :=
  match (d.contenders r).find? (fun ev => d.pri ev == 8) with
  | some ev => some ev
  | none => (d.contenders r).head?

/-- Arbitration grants a source: one grant in each range in a cycle (R170). -/
def Domain.admits (d : Domain) (ev : Nat) : Bool :=
  let r := rangeOf (d.id == 4) ev
  !d.cyc.granted.contains r && d.granted r == some ev

/-- EVENT_DELIVERY in a domain: the event leaves its source's queue, counts, and sets its pending flag if enabled
(R169, R170, R520). -/
def Domain.deliver (d : Domain) (x : Event) : Domain :=
  let r := rangeOf (d.id == 4) x.src.toNat
  let d := { d with evq := d.evq.erase x, evTurn := sset 0 d.evTurn r ((x.src.toNat + 1) % 128)
                    cyc := { d.cyc with granted := r :: d.cyc.granted } }
  let d := d.bump x.src.toNat 1
  if d.evBit EVT_EN_EN x.src.toNat then d.setPending x.src.toNat x.stamp else d

/-- Events are routed to an engine: to main, which stands for its pair; in dual-core mode by EVT_ROUTE; never to a
spare or a split core (R172, R174, R400). -/
def Domain.routed (d : Domain) (e : Eng) (ev : Nat) : Bool :=
  if d.dual then
    match e with
    | .e0 => !d.evBit EVT_ROUTE_ROUTE ev
    | .e1 => d.evBit EVT_ROUTE_ROUTE ev
    | .e2 => false
  else d.main == some e

/-- The lowest pending enabled event of a class routed to an engine. -/
def Domain.pendingOf (d : Domain) (e : Eng) (cls : Nat) : Option Nat :=
  (List.range 128).find? (fun ev => d.evBit EVT_PEND_PEND ev && d.evBit EVT_EN_EN ev && d.pri ev == cls && d.routed e ev)

/-- The highest class, 8 down to 0, with a pending enabled event routed to an engine (R172). -/
def Domain.topClass (d : Domain) (e : Eng) : Option Nat :=
  [8, 7, 6, 5, 4, 3, 2, 1, 0].find? (fun p => (d.pendingOf e p).isSome)

/-- The highest maskable class pending for an engine. -/
def Domain.topLevel (d : Domain) (e : Eng) : Option Nat :=
  [7, 6, 5, 4, 3, 2, 1, 0].find? (fun p => (d.pendingOf e p).isSome)

/-- A trip notification is pending for an engine. -/
def Domain.tripPending (d : Domain) (e : Eng) : Bool := (d.pendingOf e 8).isSome

/-- A read of EVT_CLAIM by an engine (R173): the event of the highest class, its flag cleared and its stamp captured. -/
def Domain.claim (d : Domain) (e : Eng) : Word × Domain :=
  match d.topClass e with
  | none => (0x80000000, d)
  | some p =>
    match d.pendingOf e p with
    | none => (0x80000000, d)
    | some ev =>
      (BitVec.ofNat 32 (256 * p + ev),
        (d.clearPending ev).mapCore e (fun x => { x with claimStamp := sget 0 d.stamps ev }))

/-- No enabled source still holds an event stamped earlier than t, and TIME has reached t (R145). -/
def Domain.watermarks (d : Domain) (t : Nat) : Bool :=
  decide (t ≤ d.time) && !d.evq.any (fun x => decide (x.stamp < t) && d.evBit EVT_EN_EN x.src.toNat)

end Sys2Proof.Machine
end

