-- ==== Sys2Proof/Machine/Trig.lean ====
section
/-! DEFINITION. Trig.lean: sine and cosine of an angle in eAU (R7), in units of 2^−60, from their Taylor series. Their
own error is below 2^−56, far below every bound that the spec states. -/

namespace Sys2Proof.Machine

/-- `n` terms of a Taylor series of sine or cosine, from the term t of degree k on, with the square of the argument; all
in units of 2^−60. -/
def taylor (sq : Int) : Nat → Int → Int → Int
  | 0, _, _ => 0
  | n + 1, k, t => t + taylor sq n (k + 2) (-(t * sq) / 1152921504606846976 / ((k + 1) * (k + 2)))

/-- The sine of an angle, 2^32 to a turn: the quadrant, and the series at the rest of the angle. -/
def sin60 (a : Word) : Int :=
  let x : Int := (a.toNat % 1073741824 * 7244019458077122842 / 4294967296 : Nat)
  let sq := x * x / 1152921504606846976
  match a.toNat / 1073741824 with
  | 0 => taylor sq 14 1 x
  | 1 => taylor sq 14 0 1152921504606846976
  | 2 => -taylor sq 14 1 x
  | _ => -taylor sq 14 0 1152921504606846976

def cos60 (a : Word) : Int := sin60 (a + 0x40000000)

/-- The mantissas at exponent 0 that lie within 2^−22 of a value, in units of 2^−60, run from the first to the second; the
value's own error is allowed for (R326). -/
def cordicLo (x : Int) : Int := -((-(x - 274877972480)) / 137438953472)
def cordicHi (x : Int) : Int := (x + 274877972480) / 137438953472

/-- One of these mantissas, the choice being free, with +1.0 delivered as the largest mantissa (R326, log 5). -/
def cordicPick (x : Int) (choice : Nat) : Int :=
  let y := cordicLo x + Int.emod (choice : Int) (cordicHi x - cordicLo x + 1)
  if y < -8388608 then -8388608 else if 8388607 < y then 8388607 else y

end Sys2Proof.Machine
end

