-- ==== Sys2Proof/Machine/Pos.lean ====
section
/-! DEFINITION. Pos.lean: position and speed feedback (R213 to R238): the sources, the latch, speed, the
cross-check, fail-over and encoder emulation. -/

namespace Sys2Proof.Machine

/-! ## Settings as they act after their saturations (R213, R238) -/

def Channel.polePairs (c : Channel) : Nat :=
  if c.lvN POS_PP_PP = 0 ∨ 32 < c.lvN POS_PP_PP then 1 else c.lvN POS_PP_PP
def Channel.encCpr (c : Channel) : Nat := if c.lvN POS_ENCCPR_CPR < 4 then 4 else c.lvN POS_ENCCPR_CPR
def Channel.resPoles (c : Channel) : Nat := if c.lvN POS_RSLV_RPP = 0 then 1 else c.lvN POS_RSLV_RPP
def Channel.stBits (c : Channel) : Nat := if c.lvN POS_SSI_STBITS < 8 then 8 else c.lvN POS_SSI_STBITS
def Channel.ssiLen (c : Channel) : Nat :=
  if c.lvN POS_SSI_FLEN < 8 then 8 else satN 48 (c.lvN POS_SSI_FLEN)
def Channel.ssiDiv (c : Channel) : Nat :=
  if c.lvN POS_SSI_CLKDIV < 19 then 19 else satN 1999 (c.lvN POS_SSI_CLKDIV)
def Channel.dset (c : Channel) : Nat := if c.lvN POS_ENC_DSET = 0 then 1 else c.lvN POS_ENC_DSET
def atLeast1 (n : Nat) : Nat := if n = 0 then 1 else n

/-- The path delay from encoder ball to filtered level, D = FLEN + 3 (R217). -/
def Channel.encDelay (c : Channel) : Nat := c.lvN POS_ENC_FLEN + 3

/-- Counts per mechanical revolution of a source (R213). -/
def Channel.cprOf (c : Channel) (src : Nat) : Nat :=
  match src with
  | 1 => c.encCpr
  | 2 => c.resPoles * 65536
  | 3 => 2 ^ c.stBits
  | 4 => 6 * c.polePairs
  | _ => 1

/-! ## Sources (R213 to R215) -/

def Channel.psrc (c : Channel) : Nat := c.lvN POS_CTL_PSRC
def Channel.ssrc (c : Channel) : Nat := c.lvN POS_CTL_SSRC

/-- A source is active while PSRC or SSRC names it (R214). -/
def Channel.active (c : Channel) (src : Nat) : Bool := c.psrc == src || c.ssrc == src

/-- The source in use: the primary, or the secondary after a fail-over (R213, R235). -/
def Channel.srcUse (c : Channel) : Nat := if c.rgB POS_STAT_ONSEC then c.ssrc else c.psrc

/-- A Hall code that names a sector (R226). -/
def Channel.hallPossible (c : Channel) (h : BitVec 3) : Bool :=
  h != 0 && h != 7 && decide ((fget (c.lv POS_HALLMAP_MAP) (3 * h.toNat + 2) (3 * h.toNat)).toNat < 6)

/-- AVALID of a source (R214, R215, R220, R223, R227; for the SSI log 12). -/
def Channel.avalid (c : Channel) (src : Nat) : Bool :=
  c.active src &&
  match src with
  | 1 => c.pos.encAv
  | 2 => c.rgB POS_STAT_RLOCK && (c.polePairs % c.resPoles == 0 || c.pos.resPreset)
  | 3 => c.pos.ssiAv
  | 4 => c.hallPossible c.pos.hallCode
  | 5 => c.rgB CAS_STAT_OBSV
  | _ => false

/-- The 48-bit count of a source (R215); the observer has none. -/
def Channel.countOf (c : Channel) (src : Nat) : BitVec 48 :=
  match src with
  | 1 => c.pos.encP | 2 => c.pos.resP | 3 => c.pos.ssiP | 4 => c.pos.hallP | _ => 0

def Channel.offsOf (c : Channel) (src : Nat) : Word :=
  match src with
  | 1 => c.lv POS_OFFSE_OFFS | 2 => c.lv POS_OFFSR_OFFS | 3 => c.lv POS_OFFSS_OFFS | _ => c.lv POS_OFFSH_OFFS

/-- A signed 48-bit count. -/
def countI (p : BitVec 48) : Int := sgn 48 p.toNat

/-- P mod CPR, in 0 to CPR − 1 for negative P as well (R216). -/
def countMod (p : BitVec 48) (cpr : Nat) : Nat := (Int.emod (countI p) (cpr : Int)).toNat

/-- The electrical angle of a count; `h` is 1 within a count interval and 0 at a boundary (R216). -/
def Channel.elecAngle (c : Channel) (src : Nat) (p : BitVec 48) (h : Nat) : Word :=
  c.offsOf src + BitVec.ofNat 32
    ((2 * countMod p (c.cprOf src) + h) * c.polePairs * 2147483648 / c.cprOf src)

/-! ## Encoder emulation (R236) -/

/-- N = 0 or N > M. -/
def Channel.emErr (c : Channel) : Bool :=
  c.lvN POS_EMU_N == 0 || decide (c.lvN POS_EMU_M < c.lvN POS_EMU_N)

/-- The emulated count ⌊P × N / M⌋ of the primary source. -/
def Channel.emTarget (c : Channel) : Int :=
  Int.fdiv (countI (c.countOf c.psrc) * (c.lvN POS_EMU_N : Int)) (c.lvN POS_EMU_M : Int)

/-- A change of the emulated count joins the backlog, which keeps within 32,767 and sets EMOVF beyond it. -/
def Channel.emUpdate (c : Channel) : Channel :=
  if c.lvB POS_CTL_EMEN && !c.emErr then
    let b := c.pos.emBacklog + (c.emTarget - c.pos.emCount)
    let exceeds := decide (32767 < b.natAbs)
    let b' := if b > 32767 then 32767 else if b < -32767 then -32767 else b
    let c' := { c with pos := { c.pos with emCount := c.emTarget, emBacklog := b' } }
    if exceeds then c'.setB POS_STAT_EMOVF true else c'
  else c

/-- The next backlog step may leave: the last state has lasted EMMIN. -/
def Channel.emStepDue (c : Channel) : Bool :=
  let minLen := if c.lvN POS_EMCTL_EMMIN < 2 then 2 else c.lvN POS_EMCTL_EMMIN
  c.lvB POS_CTL_EMEN && !c.emErr && decide (c.pos.emBacklog ≠ 0) && decide (c.pos.emLast + minLen ≤ c.now)

/-- The next backlog step drives Cn_EMA and Cn_EMB. -/
def Channel.emStep (c : Channel) : Channel :=
  if 0 < c.pos.emBacklog then
    { c with pos := { c.pos with emBacklog := c.pos.emBacklog - 1, emPhase := c.pos.emPhase + 1, emLast := c.now } }
  else
    { c with pos := { c.pos with emBacklog := c.pos.emBacklog + 1, emPhase := c.pos.emPhase - 1, emLast := c.now } }

/-- Levels of Cn_EMA, Cn_EMB and Cn_EMZ: the sequence 00, 01, 11, 10, and Z where the emulated count is a multiple of
EMZPER; all low while EMEN = 0 or EMERR. -/
def Channel.emPins (c : Channel) : Bool × Bool × Bool :=
  if c.lvB POS_CTL_EMEN && !c.emErr then
    (c.pos.emPhase == 2 || c.pos.emPhase == 3, c.pos.emPhase == 1 || c.pos.emPhase == 2,
     c.lvB POS_EMCTL_EMZPER && Int.emod c.emTarget (c.lvN POS_EMCTL_EMZPER : Int) == 0)
  else (false, false, false)

/-! ## Incremental encoder (R217 to R220) -/

/-- The place of an A/B state in the forward sequence 00, 01, 11, 10. -/
def quadIndex (ab : BitVec 2) : Nat := if ab = 0 then 0 else if ab = 1 then 1 else if ab = 3 then 2 else 3

/-- The boundary crossed by a step that ends at count `p` (R216). -/
def stepBoundary (p : BitVec 48) (back : Bool) : BitVec 48 := if back then p + 1 else p

/-- A count edge of a source's list: the last two are kept. -/
def pushEdge (es : List Edge) (e : Edge) : List Edge := (e :: es).take 2

/-- An edge ends standstill and counts towards the first speed after it (R233). -/
def Still.edge (x : Still) (now : Nat) : Still :=
  { x with from_ := now, on := false, edges := satN 2 (if x.on then 1 else x.edges + 1), first := x.first || x.on }

/-- One count of the encoder, forward or backward. -/
def Channel.encMove (c : Channel) (back : Bool) : Channel :=
  let p' := if back then c.pos.encP - 1 else c.pos.encP + 1
  { c with pos := { c.pos with
      encP := p', encStill := c.pos.encStill.edge c.now
      encEdges := pushEdge c.pos.encEdges ⟨c.now, stepBoundary p' back, back⟩ } }

/-- The encoder count changes by a correction or a preset, and with it the boundaries of the edges it is counted from. -/
def Channel.encShift (c : Channel) (e : BitVec 48) : Channel :=
  { c with pos := { c.pos with
      encP := c.pos.encP + e, encEdges := c.pos.encEdges.map (fun x => { x with bound := x.bound + e }) } }

/-- The encoder's AVALID is set; where it rises, edges from before do not count (R220, R228). -/
def Channel.encValid (c : Channel) (b : Bool) : Channel :=
  { c with pos := { c.pos with encAv := c.pos.encAv || b
                               encEdges := if b && !c.pos.encAv then [] else c.pos.encEdges } }

/-- The direction is settled when the last DSET steps had the same direction (R218). -/
def Channel.direction (c : Channel) (back : Bool) : Channel :=
  let run := if c.pos.encRunBack = back ∧ 0 < c.pos.encRun then satN 15 (c.pos.encRun + 1) else 1
  let settled := decide (c.dset ≤ run)
  let c := { c with pos := { c.pos with encRun := run, encRunBack := back } }
  let c := c.setB POS_STAT_DIRSET settled
  if settled then c.setB POS_STAT_DIR back else c

/-- ENCODER_STEP: a change of the filtered A/B state, which is followed whatever the source fields name (R557) and counted
while the encoder is active (R214, R217, R218). -/
def Channel.encoderStep (c : Channel) (ab : BitVec 2) : Channel :=
  c.when (c.lvB POS_CTL_RXEN) fun c =>
    match c.pos.encRef with
    | none => { c with pos := { c.pos with encRef := some ab } }
    | some r =>
      let d := (4 + quadIndex ab - quadIndex r) % 4
      let c := { c with pos := { c.pos with encRef := some ab } }
      if !c.active 1 then c
      else if d = 1 then ((c.encMove false).direction false).emUpdate
      else if d = 3 then ((c.encMove true).direction true).emUpdate
      else if d = 2 then
        if c.lvN POS_QINF_QINF < c.weir.absOmega ∧ c.rgB POS_STAT_DIRSET = true then
          let b := c.rgB POS_STAT_DIR
          (((c.encMove b).encMove b).emUpdate).raise 0x31 (if b then 1 else 0)
        else
          (((c.setB POS_STAT_CNTDBT true).count POS_ERRCNT_QERR)).raise 0x32 ab.toNat
      else c

/-- e = ZPOS − (P mod CPR) reduced to −CPR/2 < e ≤ CPR/2 (R219). -/
def zError (zpos p cpr : Nat) : Int :=
  let e := Int.emod ((zpos : Int) - (p : Int)) (cpr : Int)
  if (cpr : Int) < 2 * e then e - (cpr : Int) else e

/-- ENCODER_INDEX: an accepted rising edge of the filtered Z level (R217, R219, R220). -/
def Channel.encoderIndex (c : Channel) : Channel :=
  c.when (c.active 1 && c.lvB POS_CTL_RXEN && c.lvB POS_ENC_ZMODE) fun c =>
    let cpr := c.encCpr
    let pm := countMod c.pos.encP cpr
    let c := (c.setN POS_ZCAP_CAP pm).raise 0x33 (pm % 65536)
    if c.lvN POS_ENC_ZMODE = 2 then
      let e := zError (c.lvN POS_ZPOS_ZPOS) pm cpr
      let faulty := c.rgB POS_STAT_LFAULT
      let first := !c.pos.synced
      let c := (c.encShift (BitVec.ofInt 48 e)).encValid (!faulty)
      let c := { c with pos := { c.pos with
        synced := c.pos.synced || !faulty, zShift := c.pos.zShift + BitVec.ofInt 48 e } }
      let c := (c.setB POS_STAT_CNTDBT false).emUpdate
      let c := if faulty then c else c.setB POS_STAT_HOMED true
      if !first && decide (e ≠ 0) then c.raise 0x34 ((wordOfInt (satS 16 e)).toNat % 65536) else c
    else c

/-- ENCODER_LINE_FAULT: LFAULT sets, AVALID falls, EV_ENCLF names the pairs (R217, R220). -/
def Channel.encoderLineFault (c : Channel) (pairs : BitVec 3) : Channel :=
  c.when (c.lvB POS_CTL_RXEN && !c.rgB POS_STAT_LFAULT) fun c =>
    ({ c with pos := { c.pos with encAv := false } }.setB POS_STAT_LFAULT true).raise 0x3C pairs.toNat

/-- ENCODER_LINE_FAULT_END (R220). -/
def Channel.encoderLineFaultEnd (c : Channel) : Channel := c.setB POS_STAT_LFAULT false

/-! ## Resolver (R222, R223, R265) -/

/-- RLOCK falls, and with it the preset that AVALID needs (R223). -/
def Channel.resUnlock (c : Channel) : Channel :=
  { c with pos := { c.pos with resPreset := c.pos.resPreset && !c.rgB POS_STAT_RLOCK } }.setB POS_STAT_RLOCK false

/-- The lock table of R223 for one accepted pair. -/
def Channel.resLock (c : Channel) (mag err : BitVec 16) : Channel :=
  let out := decide (mag.toNat < c.lvN POS_RAMP_AMIN) || decide (c.lvN POS_RAMP_AMAX < mag.toNat)
  let ae := (sgn 16 err.toNat).natAbs
  let terr := c.lvN POS_RTRK_TERR
  let bad := if out then satN 16 (c.pos.resBad + 1) else 0
  let good := if !out && decide (4 * ae < terr) then satN 1024 (c.pos.resGood + 1) else 0
  let lost := decide (bad = 16) && decide (c.pos.resBad < 16)
  let c := { c with pos := { c.pos with resBad := bad, resGood := good } }
  let c := if lost then (c.resUnlock).raise 0x39 mag.toNat else c
  let c := if terr < ae then (c.resUnlock).raise 0x3A err.toNat else c
  if good = 1024 then c.setB POS_STAT_RLOCK true else c

/-- The excitation reference, compensated by EXCPH, in a cycle `ago` cycles back, as an angle of 2^32 to a turn: the
excitation runs by EXCF / 400,000,000 of a cycle in each CCLK (R221; log 70). -/
def Channel.excReference (c : Channel) (ago : Nat) : Word :=
  let back := ago * c.lvN POS_RSLV_EXCF % 400000000
  BitVec.ofNat 32 ((c.pos.excPhase + 400000000 - back) % 400000000 * 4294967296 / 400000000)
    - (c.lv POS_RSLV2_EXCPH <<< 16)

/-- The compensated reference has at least 0.25 of its peak at a sampling instant (R222). -/
def Channel.excUsable (c : Channel) (ago : Nat) : Bool := decide (288230376151711744 ≤ (sin60 (c.excReference ago)).natAbs)

/-- A resolver pair held in cycle `hold`, with the reference ready or not then, reaches POS: discarded and counted in SKIP
where strobed sampling finds too little reference; otherwise accepted, it updates the loop, its lock state and the count,
which the loop angle extends. The loop's results are given (R222, R223; log 6). -/
def Channel.resolverTake (c : Channel) (hold : Nat) (p : ResolverPair) : Channel :=
  if !c.active 2 then c
  else if c.lvB POS_RSLV_SMODE && !c.excUsable (c.now - hold) then c.count POS_ERRCNT_SKIP
  else
    let P := c.pos.resP + (p.angle - c.pos.resP.setWidth 16).signExtend 48
    let c := { c with pos := { c.pos with resP := P, resVel := p.vel, resStamp := hold } }
    let c := (c.set POS_RVEC_RMAG (p.mag.setWidth 32)).set POS_RVEC_RERR (p.err.setWidth 32)
    (c.resLock p.mag p.err).emUpdate

/-! ## SSI (R224, R225) -/

/-- Binary from Gray code: each bit is the parity of the Gray bits at and above it. -/
def grayDecode (n : Nat) (g : BitVec 48) : BitVec 48 :=
  (List.range n).foldl (fun acc k => acc ^^^ (g >>> k)) 0

/-- Parity of the `n` low bits. -/
def oddOnes (n : Nat) (b : BitVec 48) : Bool := ((List.range n).filter (fun i => b.getLsbD i)).length % 2 == 1

/-- The live bank of POS, as a strobe finds it (R230). -/
def Channel.posBank (c : Channel) : List (Nat × Word) := c.live.filter (fun e => e.1 / 65536 == 3)

/-- The channel with the POS live bank that a frame's strobe found. -/
def Channel.withPosBank (c : Channel) (bank : List (Nat × Word)) : Channel :=
  { c with live := bank.foldl (fun m e => rput m e.1 e.2) (c.live.filter (fun e => e.1 / 65536 != 3)) }

/-- A strobe starts a frame where none and no MONO interval is in progress; `use` says that the SSI is the source in use
with AVALID = 1, so that the frame serves a latch (R224, R225, R229). -/
def Channel.ssiStrobe (c : Channel) (use : Bool) : Channel :=
  if c.pos.ssiStart.isNone && c.pos.ssiMono.isNone then
    { c with pos := { c.pos with
        ssiStart := some c.now, ssiBank := c.posBank, ssiUse := use
        ssiPrim := c.countOf c.psrc - (if c.psrc = 1 then c.pos.zShift else 0) } }.setB POS_STAT_SSIBUSY true
  else c.count POS_ERRCNT_SKIP

/-- The cycles of a frame's clocks. -/
def Channel.ssiFrameTime (c : Channel) : Nat := c.ssiLen * (2 * (c.ssiDiv + 1))

/-- MONO of clock high has passed since the frame. -/
def Channel.ssiMonoDue (c : Channel) : Bool :=
  match c.pos.ssiMono with
  | some t => decide (t + c.lvN POS_SSI2_MONO ≤ c.now)
  | none => false

/-- Cn_SSI_CLK: high at rest; each clock of a frame is low for its first half (R224; log 71). -/
def Channel.ssiClk (c : Channel) : Bool :=
  match c.pos.ssiStart with
  | some s => let f := c.withPosBank c.pos.ssiBank
    decide (s + f.ssiFrameTime ≤ c.now) || (c.now - s) / (f.ssiDiv + 1) % 2 == 1
  | none => true

/-! ## Speed (R231 to R233) -/

/-- ω in Q16.16 for `d` counts of a source in `t` cycles, towards zero and saturated (R231). -/
def Channel.speedOf (c : Channel) (src : Nat) (d : Int) (t : Int) : Word :=
  wordOfInt (satS 32 (tdivZ (d * ((c.polePairs : Int) * 281474976710656)) ((c.cprOf src : Int) * t)))

/-- The standstill record of a source that counts edges. -/
def Pos.stillOf (p : Pos) (src : Nat) : Still := if src = 1 then p.encStill else p.hallStill

/-- The period method from the last two edges: 0 with fewer than two, or where they differ in direction, or at
standstill; the bound by the time since the last edge, but for the first speed after standstill; two edges in one cycle
give a free value (R231, R233, log 3). -/
def Channel.periodSpeed (c : Channel) (src : Nat) (es : List Edge) : Word × Channel :=
  let z := c.pos.stillOf src
  match es with
  | e1 :: e0 :: _ =>
    if z.on ∨ z.edges < 2 ∨ e1.back ≠ e0.back then (0, c)
    else if e1.cycle = e0.cycle then c.free 231
    else
      let between := e1.cycle - e0.cycle
      let dt := if between < c.now - e1.cycle ∧ z.first = false then c.now - e1.cycle else between
      (c.speedOf src (if e1.back then -1 else 1) dt, c)
  | _ => (0, c)

/-- The count method: the distance since the previous latch over the time between their stamps; without an earlier
latch, or in no time, a free value (R231, log 3). -/
def Channel.countSpeed (c : Channel) (src : Nat) (prev : Option (BitVec 48 × Nat)) (p : BitVec 48) (t : Nat) : Word × Channel :=
  match prev with
  | some (p0, t0) => if t = t0 then c.free 231 else (c.speedOf src (countI (p - p0)) ((t : Int) - (t0 : Int)), c)
  | none => c.free 231

/-! ## The latch (R228 to R235) -/

/-- The encoder count and its edges as a latch of this cycle takes them: before a re-sync of this cycle (R230). -/
def Channel.encLatchP (c : Channel) : BitVec 48 := c.pos.encP - c.pos.zShift
def Channel.encLatchEdges (c : Channel) : List Edge :=
  c.pos.encEdges.map (fun x => { x with bound := x.bound - c.pos.zShift })

/-- θ, ω and t of a source at a strobe in this cycle (table of R228). -/
def Channel.formLatch (c : Channel) (src : Nat) : (Word × Word × Nat) × Channel :=
  match src with
  | 1 =>
    let z := c.pos.encStill
    if c.rgB POS_STAT_METH then
      let t := c.now - c.encDelay
      let r := if z.on then (0, c) else if z.first then c.periodSpeed 1 c.pos.encEdges
        else c.countSpeed 1 c.pos.prevCount c.encLatchP t
      ((c.elecAngle 1 c.encLatchP 1, r.1, t), r.2)
    else
      let r := c.periodSpeed 1 c.pos.encEdges
      match c.encLatchEdges with
      | e :: _ => ((c.elecAngle 1 e.bound 0, r.1, e.cycle - c.encDelay), r.2)
      | [] => ((c.elecAngle 1 c.encLatchP 0, 0, c.now - c.encDelay), c)
  | 2 => ((c.elecAngle 2 c.pos.resP 0, c.pos.resVel, c.pos.resStamp), c)
  | 3 => ((c.elecAngle 3 c.pos.ssiP 1, c.pos.ssiOmega, c.pos.ssiStamp), c)
  | 4 =>
    let r := c.periodSpeed 4 c.pos.hallEdges
    match c.pos.hallEdges with
    | e :: _ => ((c.elecAngle 4 e.bound 0, r.1, e.cycle - 6), r.2)
    | [] => ((c.elecAngle 4 c.pos.hallP 0, 0, c.now - 6), c)
  | _ => ((c.pos.obsTheta, c.pos.obsOmega, c.pos.obsStamp), c)

/-- The cross-check at a latch of cycle `s`: the secondary extrapolated to t_L against θ_L; a run of XCNT differences fails
it; it is suspended where R234 says so, below XMIN with the difference written all the same. -/
def Channel.crossCheck (c : Channel) (s : Nat) (theta omega : Word) (t : Nat) : Channel :=
  let off := fun (c : Channel) => { c with pos := { c.pos with xRun := 0 } }.setB POS_STAT_XSUSP true
  if c.rgB POS_STAT_ONSEC ∨ c.ssrc = 0 ∨ 5 < c.ssrc ∨ c.avalid c.psrc = false ∨ c.avalid c.ssrc = false then off c
  else
    let r := c.formLatch c.ssrc
    let x := r.1
    let thSec := x.1 + wordOfInt (Int.fdiv (sgn 32 x.2.1.toNat * ((t : Int) - (x.2.2 : Int))) 65536)
    let e := thSec - theta
    let c := r.2.set POS_XERR_E e
    if (sgn 32 omega.toNat).natAbs < c.lvN POS_XMIN_XMIN then off c
    else
      let c := c.setB POS_STAT_XSUSP false
      if (c.lvN POS_XCHK_XANG) * 65536 < (sgn 32 e.toNat).natAbs then
        if atLeast1 (c.lvN POS_XCHK_XCNT) ≤ c.pos.xRun + 1 then
          let sup := { c.cas.sup with xchk := true }
          ({ c with pos := { c.pos with xRun := 0 }, cas := { c.cas with sup := sup } }.setB POS_STAT_XFAIL true).raiseAt s
            0x3D (e.toNat / 65536)
        else { c with pos := { c.pos with xRun := c.pos.xRun + 1 } }
      else { c with pos := { c.pos with xRun := 0 } }

/-- The encoder's method change decided at this latch, to come into use at the next (R232). -/
def Channel.methodDecide (c : Channel) (omega : Word) : Channel :=
  let a := (sgn 32 omega.toNat).natAbs
  let lo := c.lvN POS_SWLO_SWLO
  let hi := c.lvN POS_SWHI_SWHI
  if c.rgB POS_STAT_METH then
    if a < lo ∨ hi ≤ lo then { c with pos := { c.pos with methNext := some false } } else c
  else if hi < a ∧ lo < hi then { c with pos := { c.pos with methNext := some true } } else c

/-- A method change comes into use: METH and EV_SPDSW (R232). -/
def Channel.methodApply (c : Channel) : Channel :=
  match c.pos.methNext with
  | some m => ({ c with pos := { c.pos with methNext := none } }.setB POS_STAT_METH m).raise 0x38 (if m then 1 else 0)
  | none => c

/-- Fail-over to the secondary at a strobe (R235). -/
def Channel.failover (c : Channel) : Channel :=
  if c.lvB POS_CTL_FAILOVER && !c.rgB POS_STAT_ONSEC && !c.avalid c.psrc && c.avalid c.ssrc then
    ((({ c with pos := { c.pos with xRun := 0, prevCount := none } }.setB POS_STAT_ONSEC true).setB
      POS_STAT_XSUSP true).raise 0x3E c.ssrc)
  else c

/-- Change the standstill record of the source in use. -/
def Channel.mapStill (c : Channel) (f : Still → Still) : Channel :=
  if c.srcUse = 1 then { c with pos := { c.pos with encStill := f c.pos.encStill } }
  else if c.srcUse = 4 then { c with pos := { c.pos with hallStill := f c.pos.hallStill } }
  else c

/-- EV_PSTILL once, at the first latch of a standstill of an edge-counting source (R233). -/
def Channel.tellStill (c : Channel) : Channel :=
  let z := c.pos.stillOf c.srcUse
  if (c.srcUse = 1 ∨ c.srcUse = 4) ∧ z.on ∧ z.told = false then (c.mapStill (fun x => { x with told := true })).raise 0x3F
  else c

/-- A latch of cycle `s` from the source in use joins those in flight, due in cycle `due`; the next count-method speed
starts from it, and with a speed from edges the first one after standstill has been given (R228, R231, R233). -/
def Channel.latchFrom (c : Channel) (src s due : Nat) (prim : BitVec 48) : Channel :=
  let c := if src = 1 then c.methodApply else c
  let c := c.tellStill
  let r := c.formLatch src
  let l := r.1
  let c := r.2.crossCheck s l.1 l.2.1 l.2.2
  let c := if src = 1 then c.methodDecide l.2.1 else c
  let c := if (c.pos.stillOf src).on then c else c.mapStill (fun x => { x with first := false })
  { c with pos := { c.pos with
      inFlight := c.pos.inFlight ++ [⟨l.1, l.2.1, l.2.2, due, prim, BitVec.ofNat 3 src⟩]
      prevCount := if src = 1 then some (c.encLatchP, l.2.2) else c.pos.prevCount } }

/-- A position-latch strobe in POS in this cycle: fail-over, a frame of an active SSI, and the latch of the source in use; a
strobe that finds no valid source in use is counted in SKIP (R224, R228, R229, R235). -/
def Channel.latchStrobe (c : Channel) : Channel :=
  let c := c.failover
  let valid := c.avalid c.srcUse
  let busy := c.pos.ssiStart.isSome || c.pos.ssiMono.isSome
  let c := if c.active 3 then c.ssiStrobe (decide (c.srcUse = 3) && valid) else c
  if c.srcUse = 3 then (if valid || busy then c else c.count POS_ERRCNT_SKIP)
  else if valid then
    c.latchFrom c.srcUse c.now (c.now + 4) (c.countOf c.psrc - (if c.psrc = 1 then c.pos.zShift else 0))
  else c.count POS_ERRCNT_SKIP

/-- The end of a cycle in POS: a latch strobe that reached it in the cycle is served, with the count edges of the cycle and
before a re-sync of the cycle (R228, R230). -/
def Channel.endPosCycle (c : Channel) : Channel :=
  let c := if c.weir.arrived.getLsbD 8 then c.latchStrobe else c
  { c with pos := { c.pos with zShift := 0 } }

/-- The latch registers written at delivery (R228, R238). -/
def Channel.writeLatch (c : Channel) (l : Latch) : Channel :=
  ((((((c.set POS_MPOSLO_P (l.count.setWidth 32)).set POS_MPOSHI_P ((l.count >>> 32).setWidth 32)).set
    POS_LANG_THETA l.theta).set POS_LSPD_OMEGA l.omega).setN POS_LTSLO_TS (l.stamp % 4294967296)).setN
    POS_LTSHI_TS (l.stamp / 4294967296 % 4294967296))

/-- The oldest latch in flight, where it is due in this cycle, with the latch registers written and EV_PLATCH raised
(R228). With AVALID of the source in use 0 by now it is not delivered, and its strobe is counted in SKIP (R229). -/
def Channel.latchDue (c : Channel) : Channel × Option (Word × Word × Nat) :=
  match c.pos.inFlight with
  | l :: ls =>
    if c.now < l.due then (c, none)
    else if c.avalid c.srcUse then
      (({ c with pos := { c.pos with inFlight := ls } }.writeLatch l).raise 0x30 l.src.toNat, some (l.theta, l.omega, l.stamp))
    else ({ c with pos := { c.pos with inFlight := ls } }.count POS_ERRCNT_SKIP, none)
  | [] => (c, none)

/-- A completed frame of an active SSI: discarded with EV_SSIERR, or decoded into P, with the speed since the frame
accepted before; under the POS live bank of its strobe, and where the frame serves a latch that is formed (R214, R224,
R225, R228, R230). -/
def Channel.ssiDecode (c : Channel) (start ends : Nat) (bits : BitVec 48) (low : Bool) : Channel :=
  let f := c.withPosBank c.pos.ssiBank
  let par := f.lvB POS_SSI_PAR
  let err := f.lvB POS_SSI_ERRB
  let n := f.ssiLen
  let badPar := par && oddOnes n bits
  let badErr := err && bits.getLsbD (if par then 1 else 0)
  if badPar || badErr || low then
    ({ c with pos := { c.pos with ssiAv := false } }.count POS_ERRCNT_SSIERR).raiseAt ends 0x3B
      ((if badPar then 1 else 0) + (if badErr then 2 else 0) + (if low then 4 else 0))
  else
    let drop := (if par then 1 else 0) + (if err then 1 else 0)
    let m := n - drop
    let raw := (bits >>> drop) &&& BitVec.ofNat 48 (2 ^ m - 1)
    let p := if f.lvB POS_SSI_GRAY then grayDecode m raw else raw
    let t := start + f.lvN POS_SSI2_TLAT
    let r := f.countSpeed 3 c.pos.ssiPrev p t
    let pos := { r.2.pos with ssiP := p, ssiAv := true, ssiStamp := t, ssiOmega := r.1, ssiPrev := some (p, t) }
    let c := if c.pos.ssiUse then
        { ({ r.2 with pos := pos }.latchFrom 3 start (ends + 4) pos.ssiPrim) with live := c.live }
      else { r.2 with pos := pos, live := c.live }
    c.emUpdate

/-- A frame's clocks have run: the MONO interval begins; a frame of a source no longer active leaves its count (R214). -/
def Channel.ssiFinish (c : Channel) (start : Nat) (bits : BitVec 48) (low : Bool) : Channel :=
  let ends := start + (c.withPosBank c.pos.ssiBank).ssiFrameTime
  let on := c.active 3
  let c := { c with pos := { c.pos with ssiStart := none, ssiMono := some ends } }
  if on then c.ssiDecode start ends bits low else c

/-- SSI_FRAME_END: the frame's clocks have run. -/
def Channel.ssiFrameEnd (c : Channel) (bits : BitVec 48) (low : Bool) : Channel :=
  match c.pos.ssiStart with
  | some s =>
    c.when (decide (s + (c.withPosBank c.pos.ssiBank).ssiFrameTime ≤ c.now)) fun c => c.ssiFinish s bits low
  | none => c

/-! ## Hall sensors (R226, R227) -/

/-- P moves by `m` Hall counts with one edge. -/
def Channel.hallMove (c : Channel) (m : Int) : Channel :=
  if m = 0 then c else
  let p' := c.pos.hallP + BitVec.ofInt 48 m
  { c with pos := { c.pos with
      hallP := p', hallStill := c.pos.hallStill.edge c.now
      hallEdges := pushEdge c.pos.hallEdges ⟨c.now, stepBoundary p' (decide (m < 0)), decide (m < 0)⟩ } }

/-- HALL_CHANGE: a filtered change of the Hall code, which is followed whatever the source fields name (R557) and counted
while the sensors are active; where the code becomes possible AVALID rises and edges from before do not count (R214, R226
to R228). -/
def Channel.hallChange (c : Channel) (h : BitVec 3) : Channel :=
  let was := c.hallPossible c.pos.hallCode
  let c := { c with pos := { c.pos with hallCode := h } }
  if c.hallPossible h then
    let b := fget (c.lv POS_HALLMAP_MAP) (3 * h.toNat + 2) (3 * h.toNat)
    let old := c.pos.hallSector
    let c := { c with pos := { c.pos with
      hallSector := some (b.setWidth 3), hallEdges := if was then c.pos.hallEdges else [] } }
    match old with
    | none => c
    | some a =>
      let d := (6 + b.toNat - a.toNat) % 6
      if d = 0 ∨ c.active 4 = false then c
      else
        let c := { c with cas := { c.cas with sup := { c.cas.sup with comm := true } } }.raise 0x35 b.toNat
        let c := if d = 2 ∨ d = 3 ∨ d = 4 then c.raise 0x37 d else c
        let m : Int :=
          if d = 3 then
            (if c.rgB POS_STAT_DIRSET then (if c.rgB POS_STAT_DIR then -3 else 3) else 0)
          else if d < 3 then (d : Int) else (d : Int) - 6
        (c.hallMove m).emUpdate
  else if c.active 4 then (c.count POS_ERRCNT_HALLERR).raise 0x36 h.toNat
  else c

/-! ## Standstill, presets and counts -/

/-- No count edge of the source in use has come for ZTMO (R233). -/
def Channel.stillDue (c : Channel) : Bool :=
  let z := c.pos.stillOf c.srcUse
  (c.srcUse == 1 || c.srcUse == 4) && !z.on && decide (z.from_ + atLeast1 (c.lvN POS_ZTMO_ZTMO) ≤ c.now)

/-- A cycle of POS beside the latch: the excitation's phase, standstill, an emulation step, and the end of a MONO interval
(R221, R225, R233, R236). -/
def Channel.tickPos (c : Channel) : Channel :=
  let c := if c.stillDue then c.mapStill (fun x => { x with on := true, told := false, first := false }) else c
  let c := if c.emStepDue then c.emStep else c
  let c := if c.ssiMonoDue then { c with pos := { c.pos with ssiMono := none } }.setB POS_STAT_SSIBUSY false else c
  { c with pos := { c.pos with
      excPhase := if c.lvB POS_CTL_EXCEN then (c.pos.excPhase + c.lvN POS_RSLV_EXCF) % 400000000 else 0 } }

/-- A write of POS_CNTSET (R220, R223, R238). -/
def Channel.cntset (c : Channel) (w : Word) : Channel :=
  let v := (fget w 23 0).toNat
  let src := (fget w 31 29).toNat
  if src = 1 then
    let cpr := c.encCpr
    let c := c.encShift (BitVec.ofInt 48 (((v % cpr : Nat) : Int) - ((countMod c.pos.encP cpr : Nat) : Int)))
    let c := c.encValid (c.active 1 && c.lvB POS_CTL_RXEN && !c.rgB POS_STAT_LFAULT)
    (c.setB POS_STAT_CNTDBT false).emUpdate
  else if src = 2 then
    let cyc := v % (c.resPoles * 65536) / 65536
    let old := countMod c.pos.resP (c.resPoles * 65536) / 65536
    { c with pos := { c.pos with
      resP := c.pos.resP + BitVec.ofInt 48 (((cyc : Int) - (old : Int)) * 65536), resPreset := true } }.emUpdate
  else c

/-! ## POS at an accepted commit (R214, R219, R220, R232, R235, R236) -/

/-- POS's part of an accepted commit that names it; `old` is the live bank before the swap. -/
def Channel.commitPos (old : List (Nat × Word)) (c : Channel) : Channel :=
  let ps := fld old POS_CTL_PSRC ≠ c.lv POS_CTL_PSRC
  let rx := fld old POS_CTL_RXEN ≠ c.lv POS_CTL_RXEN
  let resync := ps ∨ rx ∨ fld old POS_CTL_SSRC ≠ c.lv POS_CTL_SSRC ∨ fld old POS_ENCCPR_CPR ≠ c.lv POS_ENCCPR_CPR
  let back := c.rgB POS_STAT_ONSEC
  let c := c.setB POS_STAT_ONSEC false
  let c := if back then { c with pos := { c.pos with prevCount := none } } else c
  let c := if resync then
      { c with pos := { c.pos with synced := false } }.setB POS_STAT_HOMED false else c
  let fresh : Still := { Still.reset with from_ := c.now }
  let c := if ps then
      { c with pos := { c.pos with
          methNext := none, prevCount := none, encStill := fresh, hallStill := fresh } }.setB POS_STAT_METH false
    else c
  let picked (src : Nat) : Bool :=
    ((fld old POS_CTL_PSRC).toNat ≠ src ∧ c.psrc = src) ∨ ((fld old POS_CTL_SSRC).toNat ≠ src ∧ c.ssrc = src)
  let c := if picked 1 then { c with pos := { c.pos with encEdges := [] } } else c
  let c := if picked 4 then { c with pos := { c.pos with hallEdges := [] } } else c
  let c := if rx then
      (if c.lvB POS_CTL_RXEN then { c with pos := { c.pos with encRef := none } }
       else ({ c with pos := { c.pos with encAv := false } }.setB POS_STAT_HOMED false).setB POS_STAT_LFAULT false)
    else c
  let c := { c with pos := { c.pos with
    encAv := c.pos.encAv && c.active 1, ssiAv := c.pos.ssiAv && c.active 3 } }
  let c := c.setB POS_STAT_DIRSET (decide (c.dset ≤ c.pos.encRun))
  let c := if c.rgB POS_STAT_DIRSET then c.setB POS_STAT_DIR c.pos.encRunBack else c
  if c.lvB POS_CTL_EMEN && !c.emErr && (fld old POS_CTL_EMEN == 0) then
    { c with pos := { c.pos with emCount := c.emTarget, emBacklog := 0, emPhase := 0, emLast := c.now } }
  else c.emUpdate

end Sys2Proof.Machine
end

