-- ==== Sys2Proof/Machine/Adc.lean ====
section
/-! DEFINITION. Adc.lean: conversion groups, calibration, the rover's checks and substitution, the sigma-delta
demodulators, the reference buffer and the calibration engine (R239 to R271). -/

namespace Sys2Proof.Machine

/-! ## The map of converters (R240) -/

def physFld (j : Nat) : Fld := ⟨ADC_STAT_W0PHY.reg, 7 + 2 * j, 6 + 2 * j⟩

/-- The physical converter in working slot j. -/
def Channel.physOf (c : Channel) (j : Nat) : Nat := c.rgN (physFld j)
def Channel.roverPhys (c : Channel) : Nat := c.rgN ADC_STAT_ROVPHY

/-- Sample time TS by temperature band (R249). -/
def Channel.sampleTime (c : Channel) : Nat :=
  match c.rgN THM_STAT_BAND with
  | 2 => 28
  | 3 => 32
  | _ => 24

/-- An entry of slot j's sequence on line n, in a bank (R250). -/
def seqEntry (bank : List (Nat × Word)) (n j k : Nat) : Nat :=
  (fget (rget bank (ADC_SEQ_IN0 n j).reg) (5 * k + 4) (5 * k)).toNat

/-- The active entries of slot j on line n; values above 4 act as 4 (R271). -/
def seqCount (bank : List (Nat × Word)) (n j : Nat) : Nat := satN 4 (fld bank (ADC_SEQ_CNT n j)).toNat

/-! ## Raw codes (R241) -/

/-- The raw code of a voltage: its floor, limited to 16 bits, and 0 for none (R241); a converter's error moves the code
within its range (log 73). -/
def rawCode (v : Int) (vref : Nat) (err : Int) : Nat :=
  let r : Int := if v ≤ 0 then 0 else min (v.toNat * 65536 / atLeast1 vref : Nat) 65535
  (min (max (r + err) 0) 65535).toNat

/-- The raw code of an entry: a ball, the midpoint V_REF / 2, or ground (R250). -/
def entryCode (i : Nat) (v : Int) (vref : Nat) (err : Int) : Nat :=
  if i < 24 then rawCode v vref err else if i = 24 then (min (max (32768 + err) 0) 65535).toNat else 0

/-- The code that slot j's converter makes of an entry. -/
def slotCode (q : Sample) (j i : Nat) : Nat :=
  entryCode i ([q.v0, q.v1, q.v2].getD j 0) q.vref ([q.e0, q.e1, q.e2].getD j 0)

/-- The code that the rover makes of an entry. -/
def roverCode (q : Sample) (i : Nat) : Nat := entryCode i q.vr q.vref q.er

/-! ## Calibration of a result (R257) -/

/-- y of a raw code, before saturation. -/
def calibrate (bank : List (Nat × Word)) (p i r : Nat) : Int :=
  let g : Int := if i < 24 then sgn 24 (fld bank (ADC_CGAIN_GAIN i p)).toNat else 4194304
  let o : Int := if i < 24 then sgn 24 (fld bank (ADC_COFFS_OFFS i p)).toNat else 0
  Int.fdiv (((r : Int) - 32768) * g + o * 16384 + 2097152) 4194304

/-- A result word of R256. -/
def resultWord (seq : Nat) (invalid sub suspect clip late : Bool) (input : Nat) (y : Int) : Word :=
  BitVec.ofNat 32 (seq % 16 * 268435456 + (if invalid then 134217728 else 0) + (if sub then 67108864 else 0)
    + (if suspect then 33554432 else 0) + (if clip then 16777216 else 0) + (if late then 8388608 else 0)
    + input % 32 * 65536 + (wordOfInt y).toNat % 65536)

def Channel.putResult (c : Channel) (line word : Nat) (v : Word) : Channel :=
  { c with adc := { c.adc with results := sset 0 c.adc.results (32 * line + word) v } }

/-- Whether REF_READY was 1 in a past cycle, from its latest changes (R243, R254). -/
def Channel.readyAt (c : Channel) (h : Nat) : Bool :=
  match c.adc.refLog.find? (fun e => decide (e.1 ≤ h)) with
  | some e => e.2
  | none => false

/-- REF_READY takes a level. -/
def Channel.setReady (c : Channel) (b : Bool) : Channel :=
  { c with adc := { c.adc with refLog := (c.now, b) :: c.adc.refLog.take 3 } }.setB ADC_STAT_REF_READY b

/-! ## The rover (R258 to R260) -/

/-- The mode of the rover's checks in a bank: 0 none, 1 check, 2 check and substitute; 3 acts as 1 (R271). -/
def roverMode (bank : List (Nat × Word)) : Nat :=
  if (fld bank ADC_CTL_ROVMODE).toNat = 3 then 1 else (fld bank ADC_CTL_ROVMODE).toNat

def Channel.rovMode (c : Channel) : Nat := roverMode c.live

def missFld (j : Nat) : Fld := ⟨ADC_ROVSTAT_MISS.reg, 4 * j + 3, 4 * j⟩

/-- A slot the rotation may check on a line: it has an active entry and is not declared failed. -/
def Channel.checkable (c : Channel) (bank : List (Nat × Word)) (line j : Nat) : Bool :=
  decide (0 < seqCount bank line j) && !c.rgB (ADC_ROVSTAT_FAILSLOT.bit j)

/-- The first checkable slot from `j` on, in the rotation W0, W1, W2. -/
def Channel.slotFrom (c : Channel) (bank : List (Nat × Word)) (line j : Nat) : Option Nat :=
  [j % 3, (j + 1) % 3, (j + 2) % 3].find? (c.checkable bank line)

/-- A rover exists and its checks are on (R258). -/
def Channel.checksOn (c : Channel) (bank : List (Nat × Word)) : Bool := roverMode bank != 0 && !c.rgB ADC_STAT_NOROVE

/-- The check that comes next on a line: in Confirm(j) the next slot of the rotation, or the reference if no other slot is
present; else every REFN-th time the reference, and otherwise the target (R258, R259; log 74). -/
def Channel.nextCheck (c : Channel) (bank : List (Nat × Word)) (line : Nat) : Option Check :=
  match c.adc.confirm with
  | some j =>
    match [(j + 1) % 3, (j + 2) % 3].find? (c.checkable bank line) with
    | some j' => some (.slot j')
    | none => some .reference
  | none =>
    let n := (fld bank ADC_ROVE_REFN).toNat
    if n ≠ 0 ∧ (c.adc.checks + 1) % n = 0 then some .reference
    else (c.slotFrom bank line c.adc.target).map Check.slot

/-- The check the rover makes in a group of a line, if any (R258). -/
def Channel.chooseCheck (c : Channel) (line : Nat) : Option Check :=
  if c.checksOn c.live && c.lvB (ADC_ROVE_RVEN.bit line) then c.nextCheck c.live line else none

/-- The first entry that a check converts (R258). -/
def Check.entry (bank : List (Nat × Word)) (line : Nat) : Check → Nat
  | .slot j => seqEntry bank line j 0
  | .reference => 24

/-- The rover declared failed: EV_ROVFAIL, no rover remains, every MISS cleared, checks stop. -/
def Channel.roverFailed (c : Channel) : Channel :=
  (((c.setB ADC_STAT_NOROVE true).setN ADC_ROVSTAT_MISS 0).raise 0x4C c.roverPhys) |> fun c =>
    { c with adc := { c.adc with confirm := none, refRun := 0 } }

/-- Slot j declared failed: EV_CONVFAIL, and a substitution follows under ROVMODE 0b10 (R259, R260). -/
def Channel.slotFailed (c : Channel) (bank : List (Nat × Word)) (j : Nat) : Channel :=
  let c := (c.raise 0x4B (c.physOf j * 4 + j)).setB (ADC_ROVSTAT_FAILSLOT.bit j) true
  { c with adc := { c.adc with
      confirm := none, subPend := if roverMode bank = 2 then some (j, c.now) else c.adc.subPend } }

/-- The mismatch run limit PLCNT; 0 acts as 1. -/
def runLimit (bank : List (Nat × Word)) : Nat := atLeast1 (fld bank ADC_ROVE_PLCNT).toNat

/-- The table of R259 for the outcome of one check, under the bank of the check's group (R249). -/
def Channel.roverOutcome (c : Channel) (bank : List (Nat × Word)) (k : Check) (miss : Bool) : Channel :=
  match c.adc.confirm with
  | some j => if miss then c.roverFailed else c.slotFailed bank j
  | none =>
    match k with
    | .slot j =>
      if miss then
        if runLimit bank ≤ c.rgN (missFld j) + 1 then
          { c with adc := { c.adc with confirm := some j } }.setN (missFld j) (satN 15 (c.rgN (missFld j) + 1))
        else { c with adc := { c.adc with target := j } }.setN (missFld j) (c.rgN (missFld j) + 1)
      else { c with adc := { c.adc with target := (j + 1) % 3 } }.setN (missFld j) 0
    | .reference =>
      if miss then
        if runLimit bank ≤ c.adc.refRun + 1 then c.roverFailed
        else { c with adc := { c.adc with refRun := c.adc.refRun + 1 } }
      else { c with adc := { c.adc with refRun := 0 } }

/-- A substitution takes effect at the start of a group (R260): the rover fills slot j, whose mismatch run ends with its
converter (log 74), the replaced converter is retired, no rover remains; EV_SPR records kind 0x2, action 0x1 (R457). -/
def Channel.substitute (c : Channel) (j : Nat) : Channel :=
  let old := c.physOf j
  let c := (c.setN (physFld j) c.roverPhys).setB ADC_STAT_NOROVE true
  let c := (c.setB (ADC_ROVSTAT_FAILSLOT.bit j) false).setN (missFld j) 0
  let c := { c with adc := { c.adc with
    subPend := none, sub := c.adc.sub ||| BitVec.ofNat 3 (2 ^ j), retired := c.adc.retired ||| BitVec.ofNat 4 (2 ^ old) } }
  { c.raise 0x4D (old * 4 + j) with dom := (c.raise 0x4D (old * 4 + j)).dom.evSpr 2 1 old }

/-- A substitution of slot j is asked for in this cycle, for the first group that starts after it (R260). -/
def Channel.askSub (c : Channel) (j : Nat) : Channel := { c with adc := { c.adc with subPend := some (j, c.now) } }

/-- A substitution asked for before this cycle takes effect, if a rover remains (R260). -/
def Channel.subDue (c : Channel) : Channel :=
  match c.adc.subPend with
  | some (j, t) => if t < c.now ∧ c.rgB ADC_STAT_NOROVE = false then c.substitute j else c
  | none => c

/-- SUBCMD: GO substitutes the rover for SLOT from the next group; nothing with SLOT 3 or without a rover (R260). -/
def Channel.subCmd (c : Channel) (w : Word) : Channel :=
  c.when (bitOf w 2 && decide ((fget w 1 0).toNat < 3) && !c.rgB ADC_STAT_NOROVE) (·.askSub (fget w 1 0).toNat)

/-! ## Groups (R248 to R256) -/

/-- The first input of each participating converter: slots with an active entry, and the rover of a check. -/
def firstInputs (bank : List (Nat × Word)) (line : Nat) (phys : List Nat) (rover : Nat) (k : Option Check) :
    List (Nat × Nat) :=
  ((List.range 3).filter (fun j => decide (0 < seqCount bank line j))).map
      (fun j => (phys.getD j 0, seqEntry bank line j 0))
    ++ (match k with
        | some k => [(rover, k.entry bank line)]
        | none => [])

/-- The modulator clock that a demodulator takes: 0 or 1. -/
def sdClockOf (bank : List (Nat × Word)) (d : Nat) : Nat := (fld bank (ADC_SDCFG_CLK d)).toNat

/-- Modulator clock k is enabled (R261). -/
def sdRuns (bank : List (Nat × Word)) (k : Nat) : Bool := (if k = 0 then fld bank ADC_SDCK_EN0 else fld bank ADC_SDCK_EN1) != 0

/-- The ΣΔ words a line takes, with their validity: a word whose clock is not enabled is invalid (R248, R253, R262). -/
def Channel.sdTaken (c : Channel) (line seq : Nat) (late : Bool) : List (Nat × Word) :=
  let mask := fget (rget c.live (ADC_SDMASK_MASK (line / 4) 0).reg) (8 * (line % 4) + 7) (8 * (line % 4))
  ((List.range 8).filter (fun d => bitOf mask d)).map fun d =>
    let s := sget SdState.reset c.adc.sd d
    (d, resultWord seq (!(s.valid && sdRuns c.live (sdClockOf c.live d))) false false s.clip late d (sgn 16 s.word.toNat))

/-- The multiplexer of converter p has rested on input i for TS cycles before g (R251). -/
def Channel.rested (c : Channel) (g ts : Nat) (q : Nat × Nat) : Bool :=
  sget 0 c.adc.muxIn q.1 == q.2 && decide (sget 0 c.adc.muxFrom q.1 + ts ≤ g)

/-- Start a group on a line in this cycle, which is g (R249, R251, R254). -/
def Channel.startGroup (c : Channel) (line : Nat) (late : Bool) : Channel :=
  let g := c.now
  let c := c.subDue
  let c := if late then (c.count ADC_ERRCNT_TRGLATE).raise 0x49 line else c
  let seq := (sget 0 c.adc.seqs line + 1) % 16
  let ts := c.sampleTime
  let phys := [c.physOf 0, c.physOf 1, c.physOf 2]
  let k := c.chooseCheck line
  let ready := (firstInputs c.live line phys c.roverPhys k).all (c.rested g ts)
  let most := Nat.max (Nat.max (seqCount c.live line 0) (seqCount c.live line 1)) (seqCount c.live line 2)
  { c with adc := { c.adc with
    seqs := sset 0 c.adc.seqs line seq
    checks := if k.isSome && c.adc.confirm.isNone then c.adc.checks + 1 else c.adc.checks
    grp := some { line := line, start := g, hold0 := g + 1 + (if ready then 0 else ts), ts := ts, late := late
                  seq := seq, bank := c.live.filter (fun q => q.1 / 65536 == 4), phys := phys
                  rover := c.roverPhys, check := k, sdWords := c.sdTaken line seq late, conv := 0
                  total := Nat.max most (if k.isSome then 1 else 0), stored := 0, invalid := false } } }

/-! ## Trigger lines (R245, R246, R254) -/

/-- The position compare of line n is reached in this cycle: the first in which φ ≥ ⌊POS × 2^32 / P⌋, once in each carrier
period, none while the carrier is stopped or frozen (R246; log 75). -/
def Channel.posReached (c : Channel) (n : Nat) : Bool :=
  let p := c.lvN PWM_CPER_PER
  let at_ := c.lvN (ADC_TRIG_POS n) * 4294967296 / p
  let before := !c.pwm.begun && decide (at_ ≤ c.pwm.phiWas.toNat)
  c.pwm.running && !c.pwm.frozen && !c.adc.posFired.getLsbD n && decide (0 < p) && decide (at_ ≤ c.weir.phi.toNat) && !before

/-- Line n fires in this cycle: what SRCn selects reaches ADC (R245). -/
def Channel.fires (c : Channel) (n : Nat) : Bool :=
  match c.lvN (ADC_TSRC_SRC n) with
  | 1 => c.weir.arrived.getLsbD n
  | 2 => c.posReached n
  | 3 => c.pwm.xSent.getLsbD n
  | _ => false

/-- The lowest pending line. -/
def lowestBit (m : BitVec 8) : Option Nat := (List.range 8).find? (fun i => m.getLsbD i)

/-- No group is running, an end cycle counting as running (R254). -/
def Channel.groupFree (c : Channel) : Bool := c.adc.grp.isNone && !c.adc.ending

/-- The lowest pending line starts where no group runs (R254). -/
def Channel.startPending (c : Channel) : Channel :=
  match lowestBit c.adc.pend with
  | some n => c.when c.groupFree fun c =>
      { c with adc := { c.adc with pend := c.adc.pend &&& ~~~(BitVec.ofNat 8 (2 ^ n)) } }.startGroup n true
  | none => c

/-- A firing of line n: its group starts, or it becomes pending, or it is dropped (R254). -/
def Channel.lineFire (c : Channel) (n : Nat) : Channel :=
  if c.groupFree then c.startGroup n false
  else if c.adc.pend.getLsbD n then (c.count ADC_ERRCNT_TRGOVR).raise 0x48 n
  else { c with adc := { c.adc with pend := c.adc.pend ||| BitVec.ofNat 8 (2 ^ n) } }

/-- The trigger lines at the end of a cycle: a pending line starts, then the lines that fired in the cycle are taken, the
lowest first (R254). -/
def Channel.endLines (c : Channel) : Channel :=
  let f := (List.range 8).filter c.fires
  let p := (List.range 8).filter (fun n => c.lvN (ADC_TSRC_SRC n) = 2 && c.posReached n)
  let c := f.foldl Channel.lineFire c.startPending
  { c with adc := { c.adc with
      posFired := p.foldl (fun m n => m ||| BitVec.ofNat 8 (2 ^ n)) c.adc.posFired } }

/-! ## Results (R251, R255, R256) -/

/-- Store a word of the running group and count it. -/
def Channel.storeWord (c : Channel) (g : Group) (word : Nat) (v : Word) : Channel × Group :=
  (c.putResult g.line word v, { g with stored := g.stored + 1, invalid := g.invalid || (word != 13 && bitOf v 27) })

/-- Store the ΣΔ words of a group. -/
def Channel.storeSd (c : Channel) (g : Group) : Channel × Group :=
  g.sdWords.foldl (fun q d =>
    let r := q.1.storeWord q.2 (16 + d.1) d.2
    (if bitOf d.2 24 then r.1.raise 0x53 (g.line + 32) else r.1, r.2)) (c, g)

/-- Conversion k of slot j. -/
def Channel.storeSlot (c : Channel) (g : Group) (q : Sample) (j : Nat) : Channel × Group :=
  if g.conv < seqCount g.bank g.line j then
    let i := seqEntry g.bank g.line j g.conv
    let r := slotCode q j i
    let y := calibrate g.bank (g.phys.getD j 0) i r
    let clip := r == 0 || r == 65535 || decide (y ≠ satS 16 y)
    let v := resultWord g.seq (!c.readyAt (g.hold0 + g.conv * (g.ts + 42))) (c.adc.sub.getLsbD j)
      (c.rgB (missFld j) || c.rgB (ADC_ROVSTAT_FAILSLOT.bit j)) clip g.late i (satS 16 y)
    let x := c.storeWord g (4 * j + g.conv) v
    (if clip then x.1.raise 0x53 (g.line + 8 * j) else x.1, x.2)
  else (c, g)

/-- The rover's result and check word, and what the check decides (R255, R258, R259). -/
def Channel.storeRover (c : Channel) (g : Group) (q : Sample) : Channel × Group :=
  match g.check with
  | none => (c, g)
  | some k =>
    let i := k.entry g.bank g.line
    let rv := roverCode q i
    let y := calibrate g.bank g.rover i rv
    let ys := match k with
      | .slot j => satS 16 (calibrate g.bank (g.phys.getD j 0) i (slotCode q j i))
      | .reference => 0
    let miss := match k with
      | .slot _ => decide (i < 24) && decide ((fld g.bank ADC_ROVE_PLTH).toNat < (satS 16 y - ys).natAbs)
      | .reference => decide (256 < ((rv : Int) - 32768).natAbs)
    let code := match k with
      | .slot j => j
      | .reference => 3
    let clip := rv == 0 || rv == 65535 || decide (y ≠ satS 16 y)
    let w12 := resultWord g.seq (!c.readyAt g.hold0) false false clip g.late i (satS 16 y)
    let w13 := BitVec.ofNat 32 (g.seq * 268435456 + code * 67108864 + (if miss then 33554432 else 0)
      + (wordOfInt (satS 16 (satS 16 y - ys))).toNat % 65536)
    let x := c.storeWord g 12 w12
    let x := x.1.storeWord x.2 13 w13
    let c := if miss then (x.1.count ADC_ERRCNT_PLMIS).raise 0x4A (code * 16384 + i) else x.1
    (c.roverOutcome g.bank k miss, x.2)

/-- The hold cycle of a group's conversion k (R251). -/
def Group.hold (g : Group) (k : Nat) : Nat := g.hold0 + k * (g.ts + 42)

/-- A conversion of the running group is stored in this cycle: its hold cycle plus 44 (R251). -/
def Channel.storeDue (c : Channel) : Option Group :=
  match c.adc.grp with
  | some g => if g.conv < g.total ∧ g.hold g.conv + 44 = c.now then some g else none
  | none => none

/-- CONVERSION_STORE: the conversion due in this cycle is stored (R251). -/
def Channel.conversionStore (c : Channel) (q : Sample) : Channel :=
  match c.storeDue with
  | none => c
  | some g =>
    let x := if g.conv = 0 then c.storeSd g else (c, g)
    let x := x.1.storeSlot x.2 q 0
    let x := x.1.storeSlot x.2 q 1
    let x := x.1.storeSlot x.2 q 2
    let x := if g.conv = 0 then x.1.storeRover x.2 q else x
    { x.1 with adc := { x.1.adc with grp := some { x.2 with conv := g.conv + 1 } } }

/-- Words 24 and 25 take the time of h_0 in that cycle (R255). -/
def Channel.stampGroup (c : Channel) : Channel :=
  match c.adc.grp with
  | some g => c.when (decide (g.hold0 = c.now) && decide (0 < g.total)) fun c =>
      (c.putResult g.line 24 (BitVec.ofNat 32 g.hold0)).putResult g.line 25 (BitVec.ofNat 32 (g.hold0 / 4294967296))
  | none => c

/-! ## The end of a group (R251, R252) -/

/-- Converter p's multiplexer moves to input i, unless it already rests there: `last` is the input and cycle of its last
conversion in the group, if it made one (R252). -/
def Channel.moveMux (c : Channel) (p i : Nat) (last : Option (Nat × Nat)) : Channel :=
  let was := last.getD (sget 0 c.adc.muxIn p, sget 0 c.adc.muxFrom p)
  { c with adc := { c.adc with
      muxIn := sset 0 c.adc.muxIn p i, muxFrom := sset 0 c.adc.muxFrom p (if was.1 = i then was.2 else c.now) } }

/-- The input and the latest cycle from which a working slot rested on it, of its last conversion in a group. -/
def Group.lastOf (g : Group) (j : Nat) : Option (Nat × Nat) :=
  match seqCount g.bank g.line j with
  | 0 => none
  | n + 1 => some (seqEntry g.bank g.line j n, g.hold n - g.ts)

/-- At the end of a group the multiplexers move to the first entries of line PRESEL, and the rover's to that of its next
check there, all in the bank of the group (R249, R252; log 74). -/
def Channel.muxRest (c : Channel) (g : Group) : Channel :=
  let l := (fld g.bank ADC_CTL_PRESEL).toNat
  let c := [0, 1, 2].foldl (fun c j => c.moveMux (g.phys.getD j 0) (seqEntry g.bank l j 0) (g.lastOf j)) c
  let last := g.check.map (fun k => (k.entry g.bank g.line, g.hold0 - g.ts))
  match (if c.checksOn g.bank then c.nextCheck g.bank l else none) with
  | some k => c.moveMux g.rover (k.entry g.bank l) last
  | none =>
    match last with
    | some x => c.moveMux g.rover x.1 last
    | none => c

/-- The end cycle of a group (R251). -/
def Group.endsAt (g : Group) : Nat := if g.total = 0 then g.start + 1 else g.hold (g.total - 1) + 45

/-- A group ends in this cycle: the cycle after its last store, or g + 1 without a conversion: word 26 and EV_GDONEn, with the
ΣΔ words of a group that stored no conversion (R251, R255; log 74). -/
def Channel.groupEdge (c : Channel) : Channel :=
  let c := { c with adc := { c.adc with ending := false } }
  match c.adc.grp with
  | none => c
  | some g =>
    c.when (decide (g.conv = g.total) && decide (g.endsAt = c.now)) fun c =>
      let x := if g.total = 0 then c.storeSd g else (c, g)
      let g := x.2
      let st := g.seq * 268435456 + (if g.invalid then 134217728 else 0) + (if g.late then 67108864 else 0)
        + g.stored % 256 * 65536
      let c := x.1.putResult g.line 26 (BitVec.ofNat 32 st)
      let c := c.raise (0x40 + g.line) (g.seq * 4096 + (if g.invalid then 2048 else 0) + (if g.late then 1024 else 0))
      { c with adc := { c.adc with grp := none, ending := true } }.muxRest g

/-! ## The reference buffer (R242) -/

/-- REF_READY falls: EV_REFBAD and REFLOST. -/
def Channel.refFall (c : Channel) : Channel := ((c.setReady false).setB ADC_STAT_REFLOST true).raise 0x4F

/-- REF_READY_RISE: 800,000 CCLK since REFEN became live and 400,000 in the window. -/
def Channel.refReadyRise (c : Channel) : Channel :=
  c.when (c.lvB ADC_CTL_REFEN && !c.rgB ADC_STAT_REF_READY && decide (c.adc.refOn + 800000 ≤ c.now)
      && decide (c.adc.refOut + 400000 ≤ c.now)) fun c => (c.setReady true).raise 0x4E

/-- REF_READY_FALL: the output has been outside the window for 16 CCLK, up to the cycle before. -/
def Channel.refReadyFall (c : Channel) : Channel :=
  c.when (c.rgB ADC_STAT_REF_READY) fun c => { c with adc := { c.adc with refOut := c.now } }.refFall

/-! ## Sigma-delta demodulators (R261, R262) -/

/-- y of a sinc3 sum, before saturation. -/
def sdExact (dec sum : Nat) : Int := Int.fdiv ((2 * (sum : Int) - (dec ^ 3 : Nat)) * 32768) (dec ^ 3 : Nat)

/-- y of a sinc3 sum. -/
def sdValue (dec sum : Nat) : Int := satS 16 (sdExact dec sum)

/-- Half a period of modulator clock k in CCLK: DIVk + 1 (R261). -/
def sdHalf (bank : List (Nat × Word)) (k : Nat) : Nat :=
  (if k = 0 then fld bank ADC_SDCK_DIV0 else fld bank ADC_SDCK_DIV1).toNat + 1

/-- Cn_SDCKk: a square wave from its first rising edge, low while the clock is off (R261; log 72). -/
def Channel.sdck (c : Channel) (k : Nat) : Bool :=
  match sget 0 c.adc.sdck k with
  | 0 => false
  | t + 1 => decide (t ≤ c.now) && (c.now - t) / sdHalf c.live k % 2 == 0

/-- Demodulator d takes a bit in this cycle: DLY after a rising edge of its clock (R261). -/
def Channel.sdBit (c : Channel) (d : Nat) : Bool :=
  let k := sdClockOf c.live d
  match sget 0 c.adc.sdck k with
  | 0 => false
  | t + 1 =>
    let first := t + c.lvN (ADC_SDCFG_DLY d)
    c.lvB (ADC_SDCFG_EN d) && decide (first ≤ c.now) && (c.now - first) % (2 * sdHalf c.live k) == 0

/-- The bit of this cycle ends a word. -/
def Channel.sdWordEnds (c : Channel) (d : Nat) : Bool :=
  c.sdBit d && decide (c.lvN (ADC_SDCFG_DEC d) ≤ (sget SdState.reset c.adc.sd d).bits + 1)

/-- A word of sum S is complete in demodulator d; `toggled` says that a stuck stream has toggled, and the third word from
then on is valid again (R262; log 72). -/
def SdState.complete (s : SdState) (dec now sum : Nat) (toggled : Bool) : SdState :=
  let s := if s.stuck && toggled then { s with stuck := false, skip := 2 } else s
  { s with word := BitVec.ofInt 16 (sdValue dec sum), clip := decide (sdExact dec sum ≠ sdValue dec sum)
           stamp := now, valid := decide (s.skip = 0) && !s.stuck, skip := s.skip - 1, done := true }

/-- SD_WORD_COMPLETE: the word that ends in this cycle (R262). -/
def Channel.sdWordComplete (c : Channel) (d sum : Nat) (toggled : Bool) : Channel :=
  let s := sget SdState.reset c.adc.sd d
  let dec := c.lvN (ADC_SDCFG_DEC d)
  c.when (c.sdWordEnds d && !s.done) fun c =>
    { c with adc := { c.adc with sd := sset SdState.reset c.adc.sd d (s.complete dec c.now (satN (dec ^ 3) sum) toggled) } }

/-- SD_STREAM_STUCK: the bit of this cycle is the 64th of one level; EV_SDFLT once (R262). -/
def Channel.sdStuck (c : Channel) (d : Nat) : Channel :=
  let s := sget SdState.reset c.adc.sd d
  c.when (c.sdBit d && decide (63 ≤ s.seen) && !s.stuck) fun c =>
    ({ c with adc := { c.adc with sd := sset SdState.reset c.adc.sd d { s with stuck := true } } }.count
      ADC_ERRCNT_SDFLT).raise 0x50 d

/-- The end of a cycle in demodulator d: the bit counts, and a word whose sum no command gave has a free one (log 73). -/
def Channel.endSd (c : Channel) (d : Nat) : Channel :=
  if c.sdBit d then
    let s := sget SdState.reset c.adc.sd d
    let x := c.free 63
    let dec := c.lvN (ADC_SDCFG_DEC d)
    let c := if c.sdWordEnds d && !s.done then
        x.2.sdWordComplete d (x.1.toNat % (dec ^ 3 + 1)) (bitOf x.1 31)
      else c
    let ends := c.sdWordEnds d
    let s := sget SdState.reset c.adc.sd d
    let s := { s with done := false, bits := if ends then 0 else s.bits + 1, seen := satN 64 (s.seen + 1) }
    { c with adc := { c.adc with sd := sset SdState.reset c.adc.sd d s } }
  else c

/-! ## Resolver holds (R265) -/

/-- The end of a cycle for the resolver converters: a hold in it, or, strobed, one in the next (R265; log 72). -/
def Channel.endResolver (c : Channel) : Channel :=
  let due := if c.lvB POS_RSLV_SMODE then (if c.weir.arrived.getLsbD 9 then [c.now + 1] else [])
    else if c.now % 400 = 0 then [c.now] else []
  { c with adc := { c.adc with resHold := (c.adc.resHold.filter (fun h => decide (c.now < h + 44))) ++ due } }

/-- A pair is written in this cycle, 44 CCLK after its hold (R265). -/
def Channel.resolverDue (c : Channel) : Bool := c.adc.resHold.any (fun h => h + 44 == c.now)

/-- RESOLVER_PAIR: ADC_RSLV and its tag, and the pass to POS where the reference was ready at the hold (R265). -/
def Channel.resolverPair (c : Channel) (p : ResolverPair) : Channel :=
  c.when c.resolverDue fun c =>
    let h := c.now - 44
    let c := { c with adc := { c.adc with resHold := c.adc.resHold.filter (fun x => x + 44 != c.now) } }
    let c := (c.set ADC_RSLV_SIN (p.sin.setWidth 32)).set ADC_RSLV_COS (p.cos.setWidth 32)
    let c := c.setB ADC_RSLVTAG_INVALID (!c.readyAt h)
    if c.readyAt h then c.resolverTake h p else c

/-- A pair whose samples no command gave has free ones (log 73). -/
def Channel.freePair (c : Channel) : Channel :=
  if c.resolverDue then
    let a := c.free 64
    let b := a.2.free 65
    let v := b.2.free 66
    let g := v.2.free 67
    g.2.resolverPair ⟨a.1.setWidth 16, (a.1 >>> 16).setWidth 16, b.1.setWidth 16, (b.1 >>> 16).setWidth 16, g.1.setWidth 16, v.1⟩
  else c

/-! ## System calibration (R267 to R269) -/

/-- Division rounded with halves away from zero. -/
def roundDiv (a b : Int) : Int :=
  let q := (2 * a.natAbs + b.natAbs) / (2 * b.natAbs)
  if (a < 0) = (b < 0) then (q : Int) else -(q : Int)

/-- End or refuse a step with an error code. -/
def Channel.calError (c : Channel) (e : Nat) : Channel :=
  ((c.setN ADC_CALSTAT_ERR e).setB ADC_CALSTAT_ERRF true).raise 0x52 e

/-- Why a step is refused, the lowest row of R267 first; 0 if it is not. -/
def Channel.calRefusal (c : Channel) (full : Bool) (input : Nat) : Nat :=
  if (List.range 8).any (fun n => c.lvB (ADC_TSRC_SRC n)) then 1
  else if !c.rgB ADC_STAT_REF_READY then 2
  else if full && decide (sget ZeroCap.none c.adc.zeros input = ZeroCap.none) && decide (input ≤ 23) then 3
  else if 23 < input then 6
  else if c.adc.cal.isSome then 7
  else 0

/-- A write of ADC_CALGO with STEP 0b01 or 0b10; other STEP values do nothing. -/
def Channel.calGo (c : Channel) (w : Word) : Channel :=
  let step := (fget w 31 30).toNat
  let full := step == 2
  let input := (fget w 20 16).toNat
  if step = 1 ∨ step = 2 then
    let e := c.calRefusal full input
    if e ≠ 0 then c.calError e
    else
      let avg := if (fget w 29 26).toNat < 4 then 4 else satN 12 (fget w 29 26).toNat
      let n := ((List.range 4).filter (fun p => !c.adc.retired.getLsbD p)).length
      ({ c with adc := { c.adc with cal := some { full := full, avg := avg, input := input
                                                  target := sgn 16 (fget w 15 0).toNat
                                                  due := c.now + n * 2 ^ avg * (c.sampleTime + 42) } } }.setB
        ADC_CALSTAT_BUSY true).setN ADC_CALSTAT_INPUT input
  else c

/-- G and O of one converter from its sums (R268); none where R268 gives ERR 0x4. -/
def calCoeffs (zt ft : Int) (az sz af sf : Nat) : Option (Int × Int) :=
  let d : Int := (sf : Int) * (2 ^ az : Nat) - (sz : Int) * (2 ^ af : Nat)
  if d.natAbs < 256 * 2 ^ (az + af) then none
  else
    let g := roundDiv ((ft - zt) * 4194304 * (2 ^ (az + af) : Nat)) d
    let o := roundDiv ((zt * 4194304 * (2 ^ az : Nat) - ((sz : Int) - 32768 * (2 ^ az : Nat)) * g) * 256)
      (4194304 * (2 ^ az : Nat))
    if satS 24 g = g ∧ satS 24 o = o then some (g, o) else none

/-- The converters a step uses. -/
def Channel.convs (c : Channel) : List Nat := (List.range 4).filter (fun p => !c.adc.retired.getLsbD p)

/-- A coefficient goes to the plan bank; a core's write of the same register in the same cycle stands (R268). -/
def Channel.putCoeff (c : Channel) (f : Fld) (v : Int) : Channel :=
  if c.dom.cyc.wrote.contains f.reg then c else c.writePlan f.reg (fput 0 f.hi f.lo (wordOfInt v))

/-- Finish a full-scale step: the coefficients go to the plan bank, or ERR 0x4. -/
def Channel.calFull (c : Channel) (s : CalStep) (sums : List Nat) : Channel :=
  let z := sget ZeroCap.none c.adc.zeros s.input
  let co := c.convs.map (fun p => (p, calCoeffs z.target s.target z.avg (z.sums.getD p 0) s.avg (sums.getD p 0)))
  if co.all (fun q => q.2.isSome) then
    let c := co.foldl (fun c q =>
      match q.2 with
      | some (g, o) => (c.putCoeff (ADC_CGAIN_GAIN s.input q.1) g).putCoeff (ADC_COFFS_OFFS s.input q.1) o
      | none => c) c
    (({ c with adc := { c.adc with zeros := serase c.adc.zeros s.input } }.setB ADC_CALSTAT_DONE true).setN
      ADC_CALSTAT_ERR 0).raise 0x51 (s.input + 256)
  else c.calError 4

/-- A step ends with its sums (R268, R269). -/
def Channel.calEnd (c : Channel) (s : CalStep) (sums : List Nat) : Channel :=
  let c := { c with adc := { c.adc with cal := none } }.setB ADC_CALSTAT_BUSY false
  if s.full then c.calFull s sums
  else
    (({ c with adc := { c.adc with zeros := sset ZeroCap.none c.adc.zeros s.input ⟨s.target, s.avg, sums⟩ } }.setB
      ADC_CALSTAT_DONE true).setN ADC_CALSTAT_ERR 0).raise 0x51 s.input

/-- The calibration step that ends in this cycle. -/
def Channel.calDue (c : Channel) : Option CalStep :=
  match c.adc.cal with
  | some s => if s.due = c.now then some s else none
  | none => none

/-- CAL_STEP_DONE: the conversions of the step have been made; the sums of their raw codes are given (R268, R269). -/
def Channel.calStepDone (c : Channel) (s0 s1 s2 s3 : Nat) : Channel :=
  match c.calDue with
  | none => c
  | some s => c.calEnd s ([s0, s1, s2, s3].map (satN (65535 * 2 ^ s.avg)))

/-- A step whose sums no command gave has free ones (log 73). -/
def Channel.freeCal (c : Channel) : Channel :=
  match c.calDue with
  | none => c
  | some s =>
    let a := c.free 68
    let b := a.2.free 68
    let d := b.2.free 68
    let e := d.2.free 68
    e.2.calEnd s ([a.1, b.1, d.1, e.1].map (fun w => w.toNat % (65535 * 2 ^ s.avg + 1)))

/-! ## ADC at an accepted commit (R242, R262, R264, R269) -/

/-- A modulator clock that a commit switches on or gives a new divider starts in the next cycle (R261; log 72). -/
def Channel.commitClock (old : List (Nat × Word)) (c : Channel) (k : Nat) : Channel :=
  if sdRuns c.live k then
    if sdRuns old k ∧ sdHalf old k = sdHalf c.live k then c
    else { c with adc := { c.adc with sdck := sset 0 c.adc.sdck k (c.now + 2) } }
  else { c with adc := { c.adc with sdck := sset 0 c.adc.sdck k 0 } }

/-- A demodulator whose EN, DEC or clock changed marks its next three words invalid (R262). -/
def Channel.commitSd (old : List (Nat × Word)) (c : Channel) (d : Nat) : Channel :=
  let k := sdClockOf c.live d
  if fld old (ADC_SDCFG_EN d) ≠ c.lv (ADC_SDCFG_EN d) ∨ fld old (ADC_SDCFG_DEC d) ≠ c.lv (ADC_SDCFG_DEC d)
      ∨ sdClockOf old d ≠ k ∨ sdHalf old k ≠ sdHalf c.live k ∨ sdRuns old k ≠ sdRuns c.live k then
    let x : SdState := { sget SdState.reset c.adc.sd d with skip := 3, stuck := false, bits := 0, seen := 0, done := false }
    { c with adc := { c.adc with sd := sset SdState.reset c.adc.sd d x } }
  else c

/-- A comparator whose setting changed holds its level for 8 CCLK. -/
def Channel.commitCmp (old : List (Nat × Word)) (c : Channel) (k : Nat) : Channel :=
  if rget old (ADC_FCMP_EN k).reg ≠ rget c.live (ADC_FCMP_EN k).reg then
    { c with adc := { c.adc with settle := sset 0 c.adc.settle k (c.now + 8) } }
  else c

/-- ADC's part of an accepted commit that names it. -/
def Channel.commitAdc (old : List (Nat × Word)) (c : Channel) : Channel :=
  let was := fld old ADC_CTL_REFEN ≠ 0
  let c := if !was && c.lvB ADC_CTL_REFEN then { c with adc := { c.adc with refOn := c.now } } else c
  let c := if was && !c.lvB ADC_CTL_REFEN && c.rgB ADC_STAT_REF_READY then c.refFall else c
  let c := (List.range 8).foldl (Channel.commitSd old) ([0, 1].foldl (Channel.commitClock old) c)
  let c := (List.range 4).foldl (Channel.commitCmp old) c
  if c.adc.cal.isSome && (List.range 8).any (fun n => c.lvB (ADC_TSRC_SRC n)) then
    ({ c with adc := { c.adc with cal := none } }.setB ADC_CALSTAT_BUSY false).calError 5
  else c

/-! ## A cycle of ADC -/

/-- The end of a cycle: samples that no command gave, the demodulators, the trigger lines, the resolver holds. -/
def Channel.endAdcCycle (c : Channel) : Channel :=
  (((List.range 8).foldl Channel.endSd c.freeCal.freePair).endLines).endResolver

/-- The edge that begins a cycle: the first hold of a group, or its end. -/
def Channel.beginAdc (c : Channel) : Channel := c.groupEdge.stampGroup

end Sys2Proof.Machine
end

