-- ==== Sys2Proof/Machine/Pwm.lean ====
section
/-! DEFINITION. Pwm.lean: topologies, leg states and the mask, compare instants, the pulse decision and its carry,
dead time and its adaptation, the interlock, overrides, trips and the gate balls (R272 to R306, R62 to R65). -/

namespace Sys2Proof.Machine

/-! ## Topologies (R273 to R275) -/

/-- Topology and number of legs in use; three-level are NPC, T-type and ANPC. -/
def Channel.topo (c : Channel) : Nat := (fget c.pwm.ctl 6 4).toNat
def Channel.nleg (c : Channel) : Nat := (fget c.pwm.ctl 10 8).toNat

def threeLevel (topo : Nat) : Bool := topo == 3 || topo == 4 || topo == 5

/-- Switches (balls) of a leg. -/
def legSwitches (topo : Nat) : Nat :=
  match topo with
  | 1 => 2 | 2 => 2 | 3 => 4 | 4 => 4 | 5 => 6 | _ => 0

/-- Legs a topology has. -/
def legsOf (topo : Nat) : Nat :=
  match topo with
  | 1 => 3 | 2 => 6 | 3 => 3 | 4 => 3 | 5 => 3 | _ => 0

/-- The pairs of a leg as positions (first, second) in its leg-state code (R273). -/
def legPairs (topo : Nat) : List (Nat × Nat) :=
  match topo with
  | 1 => [(0, 1)] | 2 => [(0, 1)]
  | 3 => [(0, 2), (1, 3)] | 4 => [(0, 2), (1, 3)]
  | 5 => [(0, 4), (1, 2), (3, 5)]
  | _ => []

/-- The upper and lower groups of a leg as leg-state codes; they are also the leg's ASC states (R273, R277). -/
def legUpper (topo : Nat) : BitVec 6 :=
  match topo with
  | 1 => 1 | 2 => 1 | 3 => 3 | 4 => 1 | 5 => 3 | _ => 0
def legLower (topo : Nat) : BitVec 6 :=
  match topo with
  | 1 => 2 | 2 => 2 | 3 => 12 | 4 => 8 | 5 => 12 | _ => 0

/-- The state outside the pulse and the state of the pulse, by the half in force (R274). -/
def legBase (topo : Nat) (neg : Bool) : BitVec 6 :=
  match topo with
  | 3 => 0x06 | 4 => 0x06 | 5 => if neg then 0x34 else 0x32 | _ => 0x02
def legPulse (topo : Nat) (neg : Bool) : BitVec 6 :=
  match topo with
  | 3 => if neg then 0x0C else 0x03 | 4 => if neg then 0x0C else 0x03
  | 5 => if neg then 0x1C else 0x23 | _ => 0x01

/-- The balls a topology uses. -/
def topoBalls (topo : Nat) : Nat := 2 ^ (legSwitches topo * legsOf topo) - 1

/-- A leg-state code placed on the switches of leg k. -/
def placeLeg (topo k : Nat) (s : BitVec 6) : BitVec 18 := s.setWidth 18 <<< (legSwitches topo * k)

/-- The pairs of the whole bridge as switch numbers (R273). -/
def allPairs (topo : Nat) : List (Nat × Nat) :=
  (List.range (legsOf topo)).flatMap fun k =>
    (legPairs topo).map fun p => (legSwitches topo * k + p.1, legSwitches topo * k + p.2)

/-- The pair partner of a ball. -/
def partner (topo x : Nat) : Option Nat :=
  ((allPairs topo).find? (fun p => p.1 == x || p.2 == x)).map fun p => if p.1 = x then p.2 else p.1

/-- Exchange the balls of every swapped pair (R293). -/
def swapBalls (topo : Nat) (swap : Word) (v : BitVec 18) : BitVec 18 :=
  ((allPairs topo).zipIdx.foldl (fun r q =>
    if bitOf swap q.2 then
      let a := v.getLsbD q.1.1
      let b := v.getLsbD q.1.2
      let r := r &&& ~~~(BitVec.ofNat 18 (2 ^ q.1.1) ||| BitVec.ofNat 18 (2 ^ q.1.2))
      r ||| (if b then BitVec.ofNat 18 (2 ^ q.1.1) else 0) ||| (if a then BitVec.ofNat 18 (2 ^ q.1.2) else 0)
    else r) v)

/-- The switches of the upper or lower ASC group. -/
def Channel.groupSwitches (c : Channel) (lower : Bool) : BitVec 18 :=
  (List.range (legsOf c.topo)).foldl (fun v k =>
    v ||| placeLeg c.topo k (if lower then legLower c.topo else legUpper c.topo)) 0

/-- The positions of a leg state that a pair holds, and a pair's positions as a leg state. -/
def pairOf (ab : Nat × Nat) (s : BitVec 6) : BitVec 2 :=
  (if s.getLsbD ab.1 then 1 else 0) ||| (if s.getLsbD ab.2 then 2 else 0)
def ofPair (ab : Nat × Nat) (v : BitVec 2) : BitVec 6 :=
  (if v.getLsbD 0 then BitVec.ofNat 6 (2 ^ ab.1) else 0) ||| (if v.getLsbD 1 then BitVec.ofNat 6 (2 ^ ab.2) else 0)

/-- The node is expected to rise when switch j of pair i turns on: lower to upper, O to P, N to O (R289). -/
def pairRises (topo i j : Nat) : Bool := if topo = 5 ∧ i = 2 then j == 1 else j == 0

/-- The pair that changes between the two O states of an ANPC leg (R274, R289). -/
def middlePair (topo i : Nat) : Bool := topo == 5 && i == 1

/-- A leg state the live mask admits: state 0 always, and never one with a switch the topology does not use (R275). -/
def admitted (bank : List (Nat × Word)) (topo k : Nat) (s : BitVec 6) : Bool :=
  s == 0 || (decide (s.toNat < 2 ^ legSwitches topo) &&
    (if s.toNat < 32 then bitOf (fld bank (PWM_LSM_LO_LSM k)) s.toNat
     else bitOf (fld bank (PWM_LSM_HI_LSM k)) (s.toNat - 32)))

/-! ## Legs -/

def Channel.leg (c : Channel) (k : Nat) : Leg := sget Leg.reset c.pwm.legs k
def Channel.setLeg (c : Channel) (k : Nat) (l : Leg) : Channel :=
  { c with pwm := { c.pwm with legs := sset Leg.reset c.pwm.legs k l } }

/-- A pair of a leg. -/
def Channel.pair (c : Channel) (k i : Nat) : Pair := sget Pair.reset (c.leg k).pairs i
def Channel.setPair (c : Channel) (k i : Nat) (p : Pair) : Channel :=
  c.setLeg k { c.leg k with pairs := sset Pair.reset (c.leg k).pairs i p }

/-- The first and the last instant of this cycle in 1/32 CCLK. -/
def Channel.ticks (c : Channel) : Nat := c.now * 32
def Channel.lastTick (c : Channel) : Nat := c.now * 32 + 31

/-- Carry of a leg, signed (R286). -/
def Channel.carry (c : Channel) (k : Nat) : Int := sgn 24 (c.rgN (PWM_CARRY_C k))

def Channel.setCarry (c : Channel) (k : Nat) (x : Int) : Channel := c.set (PWM_CARRY_C k) (wordOfInt x)

/-- The carry of a leg is cleared, with what its decision left (R288). -/
def Channel.clearCarry (c : Channel) (k : Nat) : Channel := (c.setLeg k { c.leg k with carryDec := 0 }).setCarry k 0

def Channel.clearCarries (c : Channel) : Channel := (List.range 6).foldl Channel.clearCarry c

/-! ## The gate balls and their overrides (R58, R62 to R65, R303) -/

/-- Three-pin commutation moves the legs: the mode is in force, or its last steps to state 0 are under way (R368). -/
def Channel.commutating (c : Channel) : Bool := c.rgB GDI_STAT_TPM || !c.gdi.tpSeq.isEmpty

/-- The switch commands at the output of stage 6 of R272: the legs' states while modulation or three-pin mode is in force. -/
def Channel.stage6 (c : Channel) : BitVec 18 :=
  if c.commutating || (c.pwm.running && !c.pwm.resume) then
    (List.range (satN (legsOf c.topo) c.nleg)).foldl (fun v k => v ||| placeLeg c.topo k (c.leg k).out) 0
  else 0

/-- The trip pattern or the halt guard's in force; the trip pattern has priority (R298). -/
def Channel.patternNow (c : Channel) : Option Nat :=
  if c.rgN PWM_TRIP_PAT ≠ 3 then some (c.rgN PWM_TRIP_PAT) else c.pwm.hg

/-- Row 1 of R62: STO demanded or a discrepancy. -/
def Channel.stoInForce (c : Channel) : Bool := c.rgB SAFE_STAT_STODEM || c.rgB SAFE_STAT_DISCF

/-- The disable elements of R413: A holds the gate balls low, B holds Cn_GEN low. -/
def Channel.elementA (c : Channel) : Bool := c.stoInForce || c.safe.dirA
def Channel.elementB (c : Channel) : Bool := c.stoInForce || c.safe.dirB

/-- The channel's boot has completed; until then the gates are as in Reset (R58). -/
def Channel.booted (c : Channel) : Bool := c.rgB SYS_BOOTSTAT_DONE

/-- The balls of a mask as the switches that drive them (R293). -/
def Channel.asSwitches (c : Channel) (m : Word) : BitVec 18 := swapBalls c.topo c.pwm.ovrs (m.setWidth 18)

/-- When switch x may go on under an ASC pattern: DT_MIN after its partner's switch-off edge, which a partner still on has at
this edge (R299). -/
def Channel.ascFrom (c : Channel) (x : Nat) : Nat :=
  match partner c.topo x with
  | some y => (if c.pwm.sw.getLsbD y then c.ticks else sget 0 c.pwm.swAt y) + c.lvN PWM_DTMIN_DT_MIN
  | none => c.ticks

/-- The switches that a pattern drives in this cycle: those of its group that are on, and those that may go on (R63, R299). -/
def Channel.patternSw (c : Channel) (p : Nat) : BitVec 18 :=
  let g := match p with
    | 1 => c.groupSwitches false
    | 2 => c.groupSwitches true
    | _ => 0
  (List.range 18).foldl (fun v x =>
    if g.getLsbD x && (c.pwm.sw.getLsbD x || decide (c.ascFrom x ≤ c.lastTick)) then v ||| BitVec.ofNat 18 (2 ^ x) else v) 0

/-- Stage 7: the highest row of R62 that applies, with the balls that OEN enables (R62, R63, R272). -/
def Channel.stage7 (c : Channel) : BitVec 18 :=
  if !c.booted || c.elementA then 0
  else
    let live := c.asSwitches (c.lv PWM_OEN_OEN)
    let v := match c.patternNow with
      | some p => c.patternSw p &&& live
      | none => if c.commutating then c.stage6 &&& live else c.stage6 &&& c.asSwitches c.pwm.oen &&& live
    v &&& ~~~((c.rg GDI_GFLATCH_LATCH).setWidth 18)

/-- Cn_GEN: high while the live OEN is not 0 and the trip latch is clear or an ASC pattern is applied; low under the halt
guard's SPO; row 1 overrides it (R63, R64, R299). -/
def Channel.gen (c : Channel) : Bool :=
  c.booted && !c.elementB && c.lvB PWM_OEN_OEN &&
    (if c.rgB PWM_TRIP_LATCH then c.rgN PWM_TRIP_PAT == 1 || c.rgN PWM_TRIP_PAT == 2
     else !(c.rgB SAFE_STAT_HGACT && c.pwm.hg == some 0))

/-- A commanded turn-on edge of switch x clears its fault latch where the filtered report is inactive (R370). -/
def Channel.clearFault (rose : BitVec 18) (c : Channel) (x : Nat) : Channel :=
  if rose.getLsbD x && c.rgB (GDI_GFLATCH_LATCH.bit x) && !c.rgB (GDI_GFIN_ACT.bit x) then
    (c.setB (GDI_GFLATCH_LATCH.bit x) false).raise 0x02 x
  else c

/-- A leg's on-time of its lower switch, kept through a change of the switches (R380). -/
def Boot.track (now : Nat) (on : Bool) (b : Boot) : Boot :=
  match b.lowSince, on with
  | none, true => { b with lowSince := some now }
  | some t, false => { b with lowSince := none, lowAcc := b.lowAcc + (now - t) }
  | _, _ => b

/-- The tick of an edge of switch x in this cycle: that of its stage 6 edge, or of its turn-on by a pattern; a switch-off by
an override leaves at tap 0 (R281, R299). -/
def Channel.edgeTick (c : Channel) (on : Bool) (x : Nat) : Nat :=
  match c.patternNow with
  | some _ => if on then Nat.max c.ticks (c.ascFrom x) else c.ticks
  | none => sget c.ticks c.pwm.ev6 x

/-- The switches and the balls take their levels of this cycle: commanded turn-on edges clear fault latches; the edges of
both are timed; which legs had an edge, and the lower switches' on-time (R272, R281, R293, R296, R370, R380). -/
def Channel.gateEdge (c : Channel) : Channel :=
  let cmd := c.stage6
  let c := (List.range 18).foldl (Channel.clearFault (cmd &&& ~~~c.pwm.cmd6)) c
  let v := c.stage7
  let moved := v ^^^ c.pwm.sw
  let g := swapBalls c.topo c.pwm.ovrs v
  let edge := g ^^^ c.pwm.gate
  let swAt := (List.range 18).foldl (fun m x =>
    if moved.getLsbD x then sset 0 m x (c.edgeTick (v.getLsbD x) x) else m) c.pwm.swAt
  let from_ (x : Nat) : Nat :=
    let p := (allPairs c.topo).zipIdx.find? (fun q => q.1.1 == x || q.1.2 == x)
    match p with
    | some q => if bitOf c.pwm.ovrs q.2 then (if q.1.1 = x then q.1.2 else q.1.1) else x
    | none => x
  let gateAt := (List.range 18).foldl (fun m x =>
    if edge.getLsbD x then sset 0 m x (if moved.getLsbD (from_ x) then sget 0 swAt (from_ x) else c.ticks) else m) c.pwm.gateAt
  let legs := (List.range (legsOf c.topo)).foldl (fun m k =>
    let l := sget Leg.reset m k
    let hit := (edge &&& placeLeg c.topo k (BitVec.ofNat 6 (2 ^ legSwitches c.topo - 1))) != 0
    sset Leg.reset m k { l with edgeWas := l.lastEdge, lastEdge := if hit then some c.now else l.lastEdge }) c.pwm.legs
  let boot := (List.range (legsOf c.topo)).foldl (fun m k =>
    sset Boot.reset m k ((sget Boot.reset m k).track c.now (!threeLevel c.topo && v.getLsbD (2 * k + 1)))) c.gdi.boot
  { c with pwm := { c.pwm with cmd6 := cmd, sw := v, swAt := swAt, gate := g, gateAt := gateAt, swWas := c.pwm.swAt
                               gateWas := c.pwm.gateAt, rose := edge &&& g, fell := edge &&& ~~~g, legs := legs }
           gdi := { c.gdi with boot := boot } }

/-- The switch-on edges of this cycle are not produced (R297, R300). -/
def Channel.cancelRises (c : Channel) : Channel :=
  let r := c.pwm.rose
  let g := c.pwm.gate &&& ~~~r
  let v := swapBalls c.topo c.pwm.ovrs g
  let gone := c.pwm.sw &&& ~~~v
  let back (m was : List (Nat × Nat)) (bits : BitVec 18) : List (Nat × Nat) :=
    (List.range 18).foldl (fun m x => if bits.getLsbD x then sset 0 m x (sget 0 was x) else m) m
  let legs := (List.range (legsOf c.topo)).foldl (fun m k =>
    let l := sget Leg.reset m k
    let b := placeLeg c.topo k (BitVec.ofNat 6 (2 ^ legSwitches c.topo - 1))
    if r &&& b ≠ 0 ∧ c.pwm.fell &&& b = 0 then sset Leg.reset m k { l with lastEdge := l.edgeWas } else m) c.pwm.legs
  let boot := (List.range (legsOf c.topo)).foldl (fun m k =>
    let b := sget Boot.reset m k
    if b.lowSince = some c.now ∧ gone.getLsbD (2 * k + 1) = true then sset Boot.reset m k { b with lowSince := none } else m) c.gdi.boot
  { c with pwm := { c.pwm with sw := v, gate := g, swAt := back c.pwm.swAt c.pwm.swWas gone
                               gateAt := back c.pwm.gateAt c.pwm.gateWas r, rose := 0, legs := legs }
           gdi := { c.gdi with boot := boot } }

/-! ## Overrides, interlock and mask (R275, R276, R292, R293) -/

/-- Apply one pair's INV and FORCE to a leg state. -/
def overridePair (inv : Bool) (force : Nat) (a b : Nat) (s : BitVec 6) : BitVec 6 :=
  let x := s.getLsbD a
  let y := s.getLsbD b
  let x' := match force with
    | 1 => false | 2 => true | 3 => false | _ => if inv then y else x
  let y' := match force with
    | 1 => false | 2 => false | 3 => true | _ => if inv then x else y
  let s := s &&& ~~~(BitVec.ofNat 6 (2 ^ a) ||| BitVec.ofNat 6 (2 ^ b))
  s ||| (if x' then BitVec.ofNat 6 (2 ^ a) else 0) ||| (if y' then BitVec.ofNat 6 (2 ^ b) else 0)

/-- The overrides of leg k's pairs in use; a leg in the charge state acts as FORCE 0b11 (R293, R381). -/
def Channel.applyOverrides (c : Channel) (k : Nat) (s : BitVec 6) : BitVec 6 :=
  let np := (legPairs c.topo).length
  (legPairs c.topo).zipIdx.foldl (fun s q =>
    let p := np * k + q.2
    let force := if !threeLevel c.topo && c.rgB (GDI_STAT_BSCHG.bit k) then 3
      else (fget c.pwm.ovrf (2 * p + 1) (2 * p)).toNat
    overridePair (bitOf c.pwm.ovrs (16 + p)) force q.1.1 q.1.2 s) s

/-- The interlock of a pair whose commands become `cmd` at tick `t` of cycle `now`. Of two commanded on, the one whose command
rose later is held off, or both where they rose together, until its partner's command falls; then it may turn on, no earlier
than DT_MIN after its partner's switch-off edge (R292). -/
def Pair.lock (p : Pair) (cmd : BitVec 2) (now t dtMin : Nat) : Pair :=
  let ra := if cmd.getLsbD 0 && !p.on.getLsbD 0 then now else p.riseA
  let rb := if cmd.getLsbD 1 && !p.on.getLsbD 1 then now else p.riseB
  let held : BitVec 2 :=
    if cmd = 3 then
      if p.on = 3 then p.held else (if rb ≤ ra then 1 else 0) ||| (if ra ≤ rb then 2 else 0)
    else 0
  let let_ := p.held &&& cmd &&& ~~~held
  let waits := if let_ ≠ 0 then let_ else if p.freeAt.isSome then cmd &&& ~~~p.out &&& p.on else 0
  let out := cmd &&& ~~~held &&& ~~~waits
  let offA := if p.out.getLsbD 0 && !out.getLsbD 0 then t else p.offA
  let offB := if p.out.getLsbD 1 && !out.getLsbD 1 then t else p.offB
  let freeAt := if let_ ≠ 0 then some (Nat.max t ((if let_.getLsbD 0 then offB else offA) + dtMin))
    else if waits ≠ 0 then p.freeAt else none
  { p with on := cmd, riseA := ra, riseB := rb, held := held, offA := offA, offB := offB, freeAt := freeAt, out := out }

/-- Note the edges of leg k's switches between two states at a tick of this cycle. -/
def Channel.note6 (c : Channel) (k : Nat) (old new : BitVec 6) (t : Nat) : Channel :=
  let m := (List.range (legSwitches c.topo)).foldl (fun m b =>
    if (old ^^^ new).getLsbD b then sset c.ticks m (legSwitches c.topo * k + b) t else m) c.pwm.ev6
  { c with pwm := { c.pwm with ev6 := m } }

/-- The legal-state mask on leg k at a tick: the state at the output of the interlock is taken where it is admitted; a
refused change is told once, and made in a later cycle as soon as the state is admitted (R275, R276). -/
def Channel.maskLeg (c : Channel) (k t : Nat) : Channel :=
  let l := c.leg k
  let s := (legPairs c.topo).zipIdx.foldl (fun s q => s ||| ofPair q.1 (c.pair k q.2).out) 0
  let ok := admitted c.live c.topo k s
  let c := if ok then (c.setLeg k { l with cmd := s, out := s }).note6 k l.out s t else c.setLeg k { l with cmd := s }
  if !ok && s != l.cmd && s != l.out then
    ((c.setB PWM_STAT_LSREF true).count PWM_ERRCNT_LSREF).raise 0x5C (k + 256 * s.toNat)
  else c

/-- Pair i of leg k is commanded at a tick: interlock, with SHOOT where it begins to act, and mask. -/
def Channel.pairSet (c : Channel) (k i : Nat) (cmd : BitVec 2) (t : Nat) : Channel :=
  let p := c.pair k i
  let c := c.setPair k i (p.lock cmd c.now t (c.lvN PWM_DTMIN_DT_MIN))
  let c := if cmd = 3 ∧ p.on ≠ 3 then
      ((c.setB PWM_STAT_SHOOT true).count PWM_ERRCNT_SHOOT).raise 0x58 ((legPairs c.topo).length * k + i)
    else c
  c.maskLeg k t

/-- Leg k is commanded to a state at a tick without a dead time of PWM's: three-pin commutation (R272, stage 4a). -/
def Channel.legSet (c : Channel) (k : Nat) (s : BitVec 6) (t : Nat) : Channel :=
  (legPairs c.topo).zipIdx.foldl (fun c q =>
    let c := c.setPair k q.2 { c.pair k q.2 with want := pairOf q.1 s, due := none }
    if pairOf q.1 s = (c.pair k q.2).on then c else c.pairSet k q.2 (pairOf q.1 s) t) c

/-! ## Dead time (R289 to R291) -/

/-- A value kept between DT_MIN and DT_MAX. -/
def Channel.clampDt (c : Channel) (x : Nat) : Nat :=
  if x < c.lvN PWM_DTMIN_DT_MIN then c.lvN PWM_DTMIN_DT_MIN else satN (c.lvN PWM_DTMAX_DT_MAX) x

/-- The mean of a history, in whole units. -/
def meanOf (h : List Nat) : Nat := if h.length = 0 then 0 else h.sum / h.length

/-- The guard of a temperature band, in 1/32 CCLK (R290). -/
def Channel.dtGuard (c : Channel) (band : Nat) : Nat :=
  32 * c.lvN (match band with
    | 0 => PWM_DTGUARD_COLD | 1 => PWM_DTGUARD_NORMAL | 2 => PWM_DTGUARD_WARM | _ => PWM_DTGUARD_HOT)

/-- The sum of R290 for an adaptation, before its bounds: the mean plus the guard of the band of its computation. -/
def Channel.dtSum (c : Channel) (a : Adapt) : Nat := meanOf a.hist + c.dtGuard a.band

def Leg.adapt (l : Leg) (rising : Bool) : Adapt := if rising then l.rise else l.fall
def Leg.setAdapt (l : Leg) (rising : Bool) (a : Adapt) : Leg := if rising then { l with rise := a } else { l with fall := a }

/-- The dead time of the next transition of a leg, and what PWM_DTRk and PWM_DTFk read: the adapted value where DTMODE = 1 and
a valid measurement is held, and otherwise DTDEF, both bounded by the fields now in use (R289, R291). -/
def Channel.deadTime (c : Channel) (k : Nat) (rising : Bool) : Nat :=
  let a := (c.leg k).adapt rising
  if c.lvB PWM_CTL_DTMODE && !(c.leg k).faulted && a.hist != [] then c.clampDt (c.dtSum a)
  else c.clampDt (c.lvN PWM_DTDEF_DTDEF)

/-- A transition that ended without a crossing: the run of invalid measurements, and reversion at NOTR (R291). -/
def Channel.noCrossing (c : Channel) (k : Nat) (rising : Bool) : Channel :=
  let l := c.leg k
  let a := l.adapt rising
  if atLeast1 (c.lvN PWM_DTCTL_NOTR) ≤ a.run + 1 then
    (((c.setLeg k (l.setAdapt rising { a with run := 0, hist := [] })).setB (PWM_STAT_DTDEFL.bit k) true).count
      PWM_ERRCNT_NOTR).raise 0x5D (k + (if rising then 0 else 8))
  else c.setLeg k (l.setAdapt rising { a with run := a.run + 1 })

/-- A measurement ends: a switch-on edge without a crossing before it is an invalid one (R291). -/
def Channel.closeMeas (c : Channel) (k : Nat) : Channel :=
  match (c.leg k).meas with
  | some m =>
    let c := c.setLeg k { c.leg k with meas := none }
    if m.ended && m.was.isNone then (c.setLeg k { c.leg k with faults := 0 }).noCrossing k m.rising else c
  | none => c

/-- A sense fault in a transition: invalid, and FLTN consecutive ones stop the leg's adaptation (R291). -/
def Channel.senseFault (c : Channel) (k : Nat) (rising : Bool) : Channel :=
  let c := (c.setLeg k { c.leg k with meas := none }).noCrossing k rising
  let l := c.leg k
  if atLeast1 (c.lvN PWM_DTCTL_FLTN) ≤ l.faults + 1 then
    let l := { l with faults := 0, faulted := true, rise := { l.rise with hist := [] }, fall := { l.fall with hist := [] } }
    (((c.setLeg k l).setB PWM_STAT_VSWFLT true).setB (PWM_STAT_DTDEFL.bit k) true).raise 0x5E k
  else c.setLeg k { l with faults := l.faults + 1 }

/-- The comparator of leg k's node for a transition of pair i: THN between O and N, THP otherwise (R290). -/
def Channel.nodeHigh (c : Channel) (i : Nat) (v : Int) : Bool :=
  decide ((c.lvN (if threeLevel c.topo ∧ 0 < i then PWM_VSWTH_THN else PWM_VSWTH_THP) : Int) * 3000000 < v * 1024)

/-- A transition begins with a switch-off edge: it is measured, unless the comparator already shows the expected level or the
leg does not adapt (R290, R291). -/
def Channel.startMeas (c : Channel) (k i : Nat) (rising : Bool) (t : Nat) : Channel :=
  let c := c.closeMeas k
  let l := c.leg k
  if l.faulted then c
  else if c.nodeHigh i l.vsw = rising then c.senseFault k rising
  else c.setLeg k { l with meas := some ⟨i, rising, t, false, none⟩ }

/-- A valid measurement m: the mean of the last four plus the guard, with EV_DTSAT above DT_MAX (R290, R291). -/
def Channel.validCrossing (c : Channel) (k : Nat) (x : Meas) (m : Nat) : Channel :=
  let l := c.leg k
  let a := l.adapt x.rising
  let b : Adapt := { hist := (m :: a.hist).take 4, band := c.rgN THM_STAT_BAND, run := 0 }
  let l := { l.setAdapt x.rising b with faults := 0, meas := some { x with was := some (a, l.faults) } }
  let c := (c.setLeg k l).setB (PWM_STAT_DTDEFL.bit k) false
  if c.lvN PWM_DTMAX_DT_MAX < c.dtSum b then c.raise 0x5F (k + (if x.rising then 0 else 8)) else c

/-- NODE_CROSSING: the node of leg k has a voltage from a tap of this cycle on. In a transition being measured the first
crossing, after the switch-off and before the switch-on edge, is its measurement; a second one makes it a sense fault, and
the measurement is taken back (R290, R291). -/
def Channel.nodeCrossing (c : Channel) (k : Nat) (v : Int) (tap : Nat) : Channel :=
  let was := (c.leg k).vsw
  let c := c.setLeg k { c.leg k with vsw := v }
  match (c.leg k).meas with
  | some x =>
    let t := c.ticks + tap
    let before := match (c.pair k x.pair).due with
      | some d => decide (t < d)
      | none => !x.ended
    c.when (!c.pwm.frozen && c.nodeHigh x.pair was != c.nodeHigh x.pair v && decide (x.off < t)) fun c =>
      match x.was with
      | none => if before then c.validCrossing k x (t - x.off) else c
      | some (a, f) =>
        let l := c.leg k
        (c.setLeg k { l.setAdapt x.rising a with faults := f }).senseFault k x.rising
  | none => c

/-- Pair i of leg k is asked for new commands at a tick: outgoing switches go off at once; an incoming one goes on when its
dead time after its partner's switch-off edge has passed, or, where modulation resumes, DT_MIN from now (R289, R302). -/
def Channel.pairGo (c : Channel) (k i : Nat) (want : BitVec 2) (t : Nat) (fresh : Bool) : Channel :=
  let p := c.pair k i
  if want = p.want ∧ fresh = false then c
  else
    let c := if p.on &&& want = p.on then c else c.pairSet k i (p.on &&& want) t
    let q := c.pair k i
    let inc := want &&& ~~~q.on
    if inc = 0 then
      let c := c.setPair k i { q with want := want, due := none }
      if (c.leg k).meas.any (fun m => m.pair == i && !m.ended) then c.setLeg k { c.leg k with meas := none } else c
    else
      let j := if inc.getLsbD 0 then 0 else 1
      let mid := middlePair c.topo i
      let rising := pairRises c.topo i j
      let dt := if fresh || mid then c.lvN PWM_DTMIN_DT_MIN else c.deadTime k rising
      let o := if fresh then t else if j = 0 then q.offB else q.offA
      let c := c.setPair k i { q with want := want, due := some (Nat.max t (o + dt)) }
      if p.on &&& ~~~want ≠ 0 ∧ mid = false ∧ fresh = false then c.startMeas k i rising t
      else if (c.leg k).meas.any (fun m => m.pair == i && !m.ended) then c.setLeg k { c.leg k with meas := none }
      else c

/-- Stages 1 and 2 give leg k a state at a tick; stage 3 and the dead times of its pairs follow (R272). -/
def Channel.legTarget (c : Channel) (k : Nat) (s : BitVec 6) (t : Nat) (fresh : Bool := false) : Channel :=
  let c := c.setLeg k { c.leg k with s2 := s }
  let s3 := c.applyOverrides k s
  (legPairs c.topo).zipIdx.foldl (fun c q => c.pairGo k q.2 (pairOf q.1 s3) t fresh) c

/-- A dead time of pair i of leg k ends at a tick (R289). -/
def Channel.pairDue (c : Channel) (k i t : Nat) : Channel :=
  let p := c.pair k i
  let c := (c.setPair k i { p with due := none }).pairSet k i p.want t
  let l := c.leg k
  c.setLeg k { l with deadEnd := some c.now
                      meas := l.meas.map (fun m => if m.pair = i then { m with ended := true } else m) }

/-- A switch that the interlock let go turns on at a tick (R292). -/
def Channel.pairFree (c : Channel) (k i t : Nat) : Channel :=
  let p := c.pair k i
  (c.setPair k i { p with freeAt := none, out := p.on &&& ~~~p.held }).maskLeg k t

/-! ## References and the pulse decision (R282 to R287) -/

/-- Half-shape of the carrier in use: centre-aligned unless CMODE is 0b01. -/
def Channel.edgeAligned (c : Channel) : Bool := fget c.pwm.ctl 2 1 == 1
def Channel.updBoth (c : Channel) : Bool := bitOf c.pwm.ctl 3 && !c.edgeAligned

/-- A quotient rounded to the nearest number, halves up (R281). -/
def roundUp (a b : Int) : Int := Int.fdiv (2 * a + b) (2 * b)

/-- The period in 1/32 CCLK: 32 × P, or 32 × T_S in synchronous modulation (R280, R286). -/
def Channel.periodUnits (c : Channel) : Nat :=
  if c.weir.mode = .sync ∧ 0 < c.weir.nUse * c.weir.absOmega then
    (roundUp 9007199254740992 ((c.weir.nUse * c.weir.absOmega : Nat) : Int)).toNat
  else 32 * c.pwm.per

/-- MIMAX in use: the live value saturated to OVMLIM (R163, R282). -/
def Channel.mimax (c : Channel) : Nat := satN (c.lvN PWM_OVM_OVMLIM) (c.lvN PWM_MIMAX_MIMAX)

/-- v_k limited to MIMAX (R282). -/
def Channel.refOf (c : Channel) (k : Nat) : Int :=
  let v := sgn 24 (c.rgN (PWM_REF_V k))
  let m : Int := c.mimax
  if v > m then m else if v < -m then -m else v

/-- The width without carry, round(d × PT) (R283, R284). -/
def Channel.widthBase (c : Channel) (k : Nat) : Int :=
  let v := c.refOf k
  let pt : Int := c.periodUnits
  if threeLevel c.topo then
    let neg := (c.leg k).neg
    let a : Int := if neg then (if v < 0 then -v else 0) else (if v < 0 then 0 else v)
    roundUp ((if a > 4194304 then 4194304 else a) * pt) 4194304
  else
    let a := v + 4194304
    let a := if a < 0 then 0 else if a > 8388608 then 8388608 else a
    roundUp (a * pt) 8388608

/-- The requested width w (R283). -/
def Channel.width (c : Channel) (k : Nat) : Int := c.widthBase k + c.carry k

/-- The turn-on instant of a width, before clamping (R283). -/
def Channel.turnOn (c : Channel) (w : Int) : Int :=
  if c.edgeAligned then 0 else Int.fdiv ((c.periodUnits : Int) - w) 2

/-- An instant of t units of 1/pt of the period, in the units of the period of now: the fraction stays (R280). -/
def Channel.rescale (c : Channel) (t : Int) (pt : Nat) : Int :=
  if pt = c.periodUnits ∨ pt = 0 then t else roundUp (t * c.periodUnits) pt

/-- The carrier has reached an instant of t units of 1/pt of the period: by n, or by the fraction of φ in synchronous
modulation and in a transition (R280, R286). -/
def Channel.reached (c : Channel) (t : Int) (pt : Nat) : Bool :=
  match c.weir.mode with
  | .async => decide (Int.fdiv (c.rescale t pt) 32 ≤ (c.pwm.n : Int))
  | _ => decide (t * 4294967296 ≤ (c.weir.phi.toNat : Int) * (pt : Int))

/-- A number kept between two bounds. -/
def clampI (lo hi x : Int) : Int := if x < lo then lo else if hi < x then hi else x

/-- φ in the cycle before, below 0 where a period began in this one (R280). -/
def Channel.phiBefore (c : Channel) : Int := (c.pwm.phiWas.toNat : Int) - (if c.pwm.begun then 4294967296 else 0)

/-- The tap of an instant reached in this cycle; one already passed before it fires at tap 0 (R280, R281, R285). -/
def Channel.tapOf (c : Channel) (t : Int) (pt : Nat) : Nat :=
  match c.weir.mode with
  | .async => (clampI 0 31 (c.rescale t pt - 32 * (c.pwm.n : Int))).toNat
  | _ =>
    let step := (c.weir.phi.toNat : Int) - c.phiBefore
    if step ≤ 0 then 0
    else (clampI 0 31 (Int.fdiv (32 * (t * 4294967296 - c.phiBefore * pt)) (step * pt))).toNat

/-- TMIN as it acts: below 32 it acts as 32 (R286). -/
def Channel.tmin (c : Channel) : Nat := if c.lvN PWM_TMIN_TMIN < 32 then 32 else c.lvN PWM_TMIN_TMIN

/-- OEN excludes the balls of leg k (R288). -/
def Channel.legExcluded (c : Channel) (k : Nat) : Bool :=
  (c.lv PWM_OEN_OEN).setWidth 18 &&& placeLeg c.topo k (BitVec.ofNat 6 (2 ^ legSwitches c.topo - 1)) == 0

/-- Keep a carry within ±CMAX, with CARRYOVF where that removes anything; 0 with CARRYEN = 0 or while OEN excludes
the leg (R286, R288). -/
def Channel.saveCarry (c : Channel) (k : Nat) (x : Int) : Channel :=
  if c.lvB PWM_CTL_CARRYEN && !c.legExcluded k then
    let m : Int := c.lvN PWM_CARRY_CMAX
    let y := clampI (-m) m x
    let c := c.setCarry k y
    if y ≠ x then (c.setB PWM_STAT_CARRYOVF true).raise 0x5B k else c
  else c.setCarry k 0

/-- A decision's outcome: the kind of pulse, its width used, the carry, and the event with its gap bit (R286). -/
structure Decision where
  kind : PulseKind
  width : Int
  carry : Int
  event : Option (Nat × Bool)
deriving DecidableEq, Repr

/-- The table of R286. -/
def decidePulse (w pt tmin : Int) (ext : Bool) : Decision :=
  if w ≤ 0 then ⟨.none, 0, w, none⟩
  else if pt ≤ w then ⟨.whole, pt, w - pt, none⟩
  else if w < tmin then
    if ext then ⟨.pulse, tmin, w - tmin, some (0x5A, false)⟩ else ⟨.none, 0, w, some (0x59, false)⟩
  else if w ≤ pt - tmin then ⟨.pulse, w, 0, none⟩
  else if ext then ⟨.pulse, pt - tmin, w - (pt - tmin), some (0x5A, true)⟩
  else ⟨.whole, pt, w - pt, some (0x59, true)⟩

/-- W_BS: the widest pulse of leg k in a refresh period; none in any other period (R380). -/
def Channel.bootstrapLimit (c : Channel) (k : Nat) : Option Int :=
  if bitOf c.gdi.bsen k && !threeLevel c.topo
      && decide (atLeast1 c.gdi.bsk ≤ (sget Boot.reset c.gdi.boot k).lacking + 1) then
    some ((c.periodUnits : Int) - 32 * c.gdi.bstref - c.deadTime k true - c.deadTime k false)
  else none

/-- R286 with the limit of R380 applied before its rows: the part of w removed joins the carry, and the gap that the
limit leaves is never dropped. -/
def decideLimited (w pt tmin : Int) (ext : Bool) (limit : Option Int) : Decision × Bool :=
  match limit with
  | some m =>
    if m < w then
      let d := if pt - tmin < m then ⟨.pulse, m, 0, none⟩ else decidePulse m pt tmin ext
      ({ d with carry := d.carry + (w - m) }, true)
    else (decidePulse w pt tmin ext, false)
  | none => (decidePulse w pt tmin ext, false)

/-- The outcome that the width of leg k now in force gives, and whether the limit of R380 acted. -/
def Channel.decision (c : Channel) (k : Nat) : Decision × Bool :=
  decideLimited (c.width k) c.periodUnits c.tmin (c.lvB PWM_CTL_EXT) (c.bootstrapLimit k)

/-- Leg k's modulation is in force. -/
def Channel.modulates (c : Channel) (k : Nat) : Bool :=
  c.pwm.running && !c.pwm.frozen && !c.pwm.resume && !c.rgB GDI_STAT_TPM && decide (k < c.nleg)

/-- The carrier has reached the pulse decision of leg k: the turn-on instant of the requested width, clamped (R286). -/
def Channel.decisionDue (c : Channel) (k : Nat) : Bool :=
  let pt : Int := c.periodUnits
  c.modulates k && (c.leg k).decided.isNone
    && c.reached (clampI 0 pt (c.turnOn (clampI 0 pt (c.width k)))) c.periodUnits

/-- The pulse decision of leg k, made in this cycle (R286, R380). -/
def Channel.decideLeg (c : Channel) (k : Nat) : Channel :=
  let x := c.decision k
  let d := x.1
  let c := if x.2 then c.setB (GDI_STAT_BSLIM.bit k) true else c
  let ta := c.turnOn d.width
  let c := c.saveCarry k d.carry
  let c := c.setLeg k { c.leg k with
    decided := some c.now, kind := d.kind, ta := ta, tb := ta + d.width, pt := c.periodUnits, firedOn := none
    firedOff := none, carryDec := c.carry k }
  match d.event with
  | some (ev, gap) => (if ev = 0x59 then c.count PWM_ERRCNT_PDROP else c).raise ev (k + (if gap then 8 else 0))
  | none => c

/-- The half of leg k is the positive one: its pulse raises the node. -/
def Channel.halfUp (c : Channel) (k : Nat) : Bool := !(threeLevel c.topo && (c.leg k).neg)

/-- Where in the period, in units of the decision, an edge at a tick of this cycle stands. -/
def Channel.posOf (c : Channel) (k t : Nat) : Int :=
  match c.weir.mode with
  | .async => 32 * (c.pwm.n : Int) + ((t - c.ticks : Nat) : Int)
  | _ => max (c.leg k).ta (Int.fdiv (c.phiBefore * (c.leg k).pt) 4294967296)

/-- A compare of leg k fires at a tick: the first begins the pulse, and the place of its switch-on edge is kept; the second
ends it (R283, R287). -/
def Channel.compareAt (c : Channel) (k : Nat) (second : Bool) (t : Nat) : Channel :=
  let l := c.leg k
  if second then (c.setLeg k { l with firedOff := some c.now }).legTarget k (legBase c.topo l.neg) t
  else
    let c := (c.setLeg k { l with firedOn := some c.now }).legTarget k (legPulse c.topo l.neg) t
    let on := (legPairs c.topo).zipIdx.foldl (fun m q => match (c.pair k q.2).due with
      | some d => Nat.max m d
      | none => m) t
    c.setLeg k { c.leg k with onPos := c.posOf k t + ((on - t : Nat) : Int) }

/-- What comes about in leg k in this cycle, the earliest first: its tick, and 0 or 1 for the compares, 2 + 2i for the dead
time of pair i, 3 + 2i for a switch of it that the interlock let go. -/
def Channel.legEvents (c : Channel) (k : Nat) : List (Nat × Nat) :=
  let l := c.leg k
  let on := if c.modulates k && l.decided.isSome && l.kind != .none && l.firedOn.isNone && c.reached l.ta l.pt then
      [(c.ticks + c.tapOf l.ta l.pt, 0)] else []
  let off := if c.modulates k && l.firedOn.isSome && l.firedOff.isNone && decide (l.tb < l.pt) && c.reached l.tb l.pt then
      [(c.ticks + c.tapOf l.tb l.pt, 1)] else []
  let at_ (o : Option Nat) (j : Nat) : List (Nat × Nat) := match o with
    | some d => if d ≤ c.lastTick then [(Nat.max d c.ticks, j)] else []
    | none => []
  on ++ off ++ (List.range 3).flatMap fun i => at_ (c.pair k i).due (2 + 2 * i) ++ at_ (c.pair k i).freeAt (3 + 2 * i)

/-- The earliest of them comes about. -/
def Channel.legStep (k : Nat) (c : Channel) : Channel :=
  match (c.legEvents k).foldl (fun (m : Option (Nat × Nat)) e => match m with
      | some x => if e.1 < x.1 then some e else some x
      | none => some e) none with
  | none => c
  | some (t, 0) => c.compareAt k false t
  | some (t, 1) => c.compareAt k true t
  | some (t, j + 2) => if j % 2 = 0 then c.pairDue k (j / 2) t else c.pairFree k (j / 2) t

/-- A cycle of leg k: a refused state that is now admitted, the decision, and the edges in the order of their ticks. -/
def Channel.legCycle (c : Channel) (k : Nat) : Channel :=
  let c := if (c.leg k).cmd = (c.leg k).out then c else c.maskLeg k c.ticks
  let c := if c.decisionDue k then c.decideLeg k else c
  (List.range 10).foldl (fun c _ => c.legStep k) c

/-- A frozen leg's timers stop (R303). -/
def Channel.legFrozen (c : Channel) (k : Nat) : Channel :=
  (List.range 3).foldl (fun c i =>
    let p := c.pair k i
    if p.due.isSome || p.freeAt.isSome then
      c.setPair k i { p with due := p.due.map (· + 32), freeAt := p.freeAt.map (· + 32) }
    else c) c

/-- The legs in a cycle (R272, R303). -/
def Channel.legsEdge (c : Channel) : Channel :=
  let c := { c with pwm := { c.pwm with ev6 := [] } }
  (List.range (legsOf c.topo)).foldl (if c.pwm.frozen then Channel.legFrozen else Channel.legCycle) c

/-- A later reference moves t_b of a pulse whose decision has been made and whose end has not fired, with UPD = 1: to t_a + w
within the bounds of R287 where the period has a gap, and also within t_a + W_BS in a refresh period (R380); the difference
replaces that of the previous recomputation in the carry (R285, R287). -/
def Channel.recomputeEnd (c : Channel) (k : Nat) : Channel :=
  let l := c.leg k
  if c.updBoth && l.decided.isSome && l.kind != .none && l.firedOff.isNone && c.pwm.running then
    let c := c.setCarry k l.carryDec
    let pt : Int := c.periodUnits
    let ta := c.rescale l.ta l.pt
    let want := ta + c.width k
    let onPos := if l.firedOn.isSome then c.rescale l.onPos l.pt else ta + c.deadTime k (c.halfUp k)
    let hi := if pt ≤ want then want else pt - Int.fdiv (c.tmin : Int) 2
    let hi := match c.bootstrapLimit k with
      | some m => if ta + m < hi then ta + m else hi
      | none => hi
    let used := clampI (onPos + (c.tmin : Int)) hi want
    (c.setLeg k { c.leg k with ta := ta, tb := used, pt := c.periodUnits, onPos := onPos }).saveCarry k (l.carryDec + (want - used))
  else c

/-- OUT writes a reference (R282, R285, R287). -/
def Channel.putRef (c : Channel) (k : Nat) (v : Word) : Channel := (c.set (PWM_REF_V k) v).recomputeEnd k

/-! ## Trips (R295 to R302) -/

/-- The requests of bits [12:0] that are asserted, whether enabled or not (R295). -/
def Channel.requests (c : Channel) : Nat :=
  c.rgN GDI_TRIPIN_ACT % 256 + (c.adc.cmpOut.toNat % 16) * 256 + (if c.gdi.ov2Req then 4096 else 0)

/-- Asserted and enabled. -/
def Channel.enabledRequests (c : Channel) : Word := BitVec.ofNat 32 c.requests &&& c.lv PWM_TRIPEN_EN

/-- Trip input m is inside a blanking window of its leg (R296). -/
def Channel.blanked (c : Channel) (m : Nat) : Bool :=
  let k := c.lvN (PWM_TBLK_LEG m)
  decide (k < 6) && decide (c.lvB (PWM_TBLK_BLK m) = true) &&
    (match (c.leg k).lastEdge with
     | some e => decide (c.now < e + c.lvN (PWM_TBLK_BLK m))
     | none => false)

/-- The requests that reach the latch: enabled, and not blanked where they are trip inputs. -/
def Channel.actingRequests (c : Channel) : Word :=
  (List.range 8).foldl (fun w m => if c.blanked m then w &&& ~~~(BitVec.ofNat 32 (2 ^ m)) else w) c.enabledRequests

/-- The pattern TPAT selects in cycle L (R298): 0 SPO, 1 ASC upper, 2 ASC lower. -/
def Channel.ascGroup (c : Channel) : Nat := if c.lvB PWM_TRIPPAT_AGRP then 2 else 1
def Channel.patternInL (c : Channel) : Nat :=
  match c.lvN PWM_TRIPPAT_TPAT with
  | 3 =>
    if c.rgB WEIR_STAT_STALE then c.ascGroup
    else if c.lvN PWM_ASCSPD_ASCSPD ≤ c.weir.absOmega then c.ascGroup else 0
  | p => p

/-- Leg k goes to state 0: pending switch-ons cancelled, the measurement ended, no pulse (R297). -/
def Channel.dropLeg (c : Channel) (k : Nat) : Channel :=
  let l := c.leg k
  let ps := (List.range 3).foldl (fun m i =>
    let p := sget Pair.reset m i
    sset Pair.reset m i { p with
      want := 0, on := 0, due := none, held := 0, freeAt := none, out := 0
      offA := if p.out.getLsbD 0 then c.ticks else p.offA, offB := if p.out.getLsbD 1 then c.ticks else p.offB }) l.pairs
  c.setLeg k { l with s2 := 0, pairs := ps, cmd := 0, out := 0, meas := none, decided := none, kind := .none
                      firedOn := none, firedOff := none }

/-- Legs go to state 0 and wait to resume at a boundary: carries cleared, commutation steps cancelled (R297, R302, R368). -/
def Channel.dropLegs (c : Channel) : Channel :=
  let c := ((List.range 6).foldl Channel.dropLeg c).clearCarries
  { c with pwm := { c.pwm with resume := true }, gdi := { c.gdi with tpSeq := [], tpDo := false, tpWait := true } }

/-- A request reaches PWM in this cycle: the latch sets with EV_TRIP, the switch-on edges of the cycle are cancelled, and the
pattern applies from the next edge; or a set latch records it (R297, R300). -/
def Channel.trip (c : Channel) (src : Nat) : Channel :=
  let c := { c with pwm := { c.pwm with tripNow := c.pwm.tripNow ||| (BitVec.ofNat 32 src &&& 0x6000) } }
  if c.rgB PWM_TRIP_LATCH then c.set PWM_TRIP_SRC (c.rg PWM_TRIP_SRC ||| BitVec.ofNat 32 src)
  else
    let active := BitVec.ofNat 32 src ||| c.actingRequests
    let c := (c.setB PWM_TRIP_LATCH true).set PWM_TRIP_SRC active
    let c := c.setN PWM_TRIP_PAT c.patternInL
    let c := { c with pwm := { c.pwm with hold := false } }
    ((c.raise 0x00 active.toNat).dropLegs).cancelRises

/-- Asserted requests act on the latch. -/
def Channel.evalTrips (c : Channel) : Channel :=
  if c.actingRequests ≠ 0 then c.trip c.actingRequests.toNat else c

/-- The requests in a new cycle, whose edges have been produced: one put off by an accepted clear, and asserted ones (R296,
R297, R301). -/
def Channel.tripEdge (c : Channel) : Channel :=
  let x := c.pwm.tripNext.toNat
  let c := { c with pwm := { c.pwm with tripNow := 0, tripNext := 0 } }
  (if x = 0 then c else c.trip x).evalTrips

/-- The choice of R298 made again at a position latch while the latch is set. -/
def Channel.tripAtLatch (c : Channel) : Channel :=
  if c.rgB PWM_TRIP_LATCH ∧ c.lvN PWM_TRIPPAT_TPAT = 3 ∧ c.rgB WEIR_STAT_STALE = false then
    let s := c.lvN PWM_ASCSPD_ASCSPD
    let p := if s ≤ c.weir.absOmega then c.ascGroup
      else if c.weir.absOmega < s - s / 8 then 0 else c.rgN PWM_TRIP_PAT
    if p ≠ c.rgN PWM_TRIP_PAT then (c.setN PWM_TRIP_PAT p).raise 0x62 p else c
  else c

/-- A write of PWM_TRIPCMD: SWTRIP is request [14]; CLR of a set latch is decided at the end of the cycle (R295, R301). -/
def Channel.tripCmd (c : Channel) (w : Word) : Channel :=
  let c := if bitOf w 0 && c.rgB PWM_TRIP_LATCH then { c with pwm := { c.pwm with clrReq := true } } else c
  if bitOf w 1 then c.trip 16384 else c

/-- A clear requested in this cycle, at its end: refused where an enabled request is asserted, and otherwise accepted, with
the events [13] and [14] of the cycle put off to the next (R301). -/
def Channel.endTrip (c : Channel) : Channel :=
  if c.pwm.clrReq then
    let c := { c with pwm := { c.pwm with clrReq := false } }
    if c.enabledRequests ≠ 0 then (c.setB PWM_TRIP_STILL true).raise 0x60 c.enabledRequests.toNat
    else
      { (c.setB PWM_TRIP_LATCH false).setN PWM_TRIP_SRC 0 with
        pwm := { c.pwm with hold := true, relDue := true, tripNext := c.pwm.tripNow } }
  else c

/-! ## Boundaries of the bridge (R279, R284, R302, R304) -/

/-- Fields that wait for a boundary come into use: CTL, PER, the overrides and new OEN bits. Where TOPO or NLEG
changes every leg starts from state 0. -/
def Channel.takeBoundaryFields (c : Channel) : Channel :=
  let ctl := rget c.live PWM_CTL_RUN.reg
  let restart := fget ctl 6 4 ≠ fget c.pwm.ctl 6 4 ∨ fget ctl 10 8 ≠ fget c.pwm.ctl 10 8
  let c := if restart then c.dropLegs else c
  let p := { c.pwm with
    ctl := ctl, per := c.lvN PWM_CPER_PER, ovrs := rget c.live PWM_OVRS_INV.reg
    ovrf := rget c.live (PWM_OVRF_FORCE 0).reg, oen := c.lv PWM_OEN_OEN, xFired := 0, begun := true }
  { c with pwm := p, adc := { c.adc with posFired := 0 } }

/-- Leg k begins a period: its half from the sign of v_k, the carry cleared on a change of half. It takes its base state,
unless the width in force fills the period or its pulse begins at the boundary: then it stays as it is until the compare,
or the decision, of this period (R274, R283, R284, R286, R288; log 76). -/
def Channel.legPeriod (fresh : Bool) (c : Channel) (k : Nat) : Channel :=
  let l := c.leg k
  let neg := threeLevel c.topo && decide (c.refOf k < 0)
  let c := if neg ≠ l.neg then c.clearCarry k else c
  let c := c.setLeg k { c.leg k with neg := neg, decided := none, kind := .none, firedOn := none, firedOff := none }
  if fresh then c.legTarget k (legBase c.topo neg) c.ticks true
  else
    let d := (c.decision k).1
    let stays := neg == l.neg && (d.kind == .whole || (d.kind == .pulse && decide (c.turnOn d.width ≤ 0)))
    c.legTarget k (if stays then l.s2 else legBase c.topo neg) c.ticks

/-- Modulation may run: no pattern, no STO or readback test, no halt-guard state (R302, R415, R418, R433). -/
def Channel.mayModulate (c : Channel) : Bool :=
  !c.rgB PWM_TRIP_LATCH && c.pwm.hg.isNone && !c.elementA && !c.safe.testing

/-- A carrier boundary in PWM: fields come into use, a held pattern is released, legs begin their periods. -/
def Channel.boundaryPwm (c : Channel) : Channel :=
  let c := if c.pwm.hold && !c.rgB PWM_TRIP_LATCH then
      { c.setN PWM_TRIP_PAT 3 with pwm := { c.pwm with hold := false } } else c
  let c := if c.rgB SAFE_STAT_HGACT then c else { c with pwm := { c.pwm with hg := none } }
  let c := if c.pwm.relDue && !c.rgB PWM_TRIP_LATCH then
      { c with pwm := { c.pwm with relDue := false } }.raise 0x61 else c
  if c.mayModulate && !c.rgB GDI_STAT_TPM then
    let fresh := c.pwm.resume
    let c := { c with pwm := { c.pwm with resume := false }, gdi := { c.gdi with tpSeq := [] } }
    (List.range (satN (legsOf c.topo) c.nleg)).foldl (Channel.legPeriod fresh) c
  else c

/-- CARRIER_STOP: after RUN is committed 0 the carrier stops in the cycle of the next boundary: every output low,
n = 0, φ becomes 0 and holds (R279). -/
def Channel.stopCarrier (c : Channel) : Channel :=
  let c := c.dropLegs
  let w := c.weir.move c.now c.weir.theta 0 false
  let w := { w with mode := .async, nUse := 0 }
  let p := { c.pwm with n := 0, running := false, stopping := false, bndDue := false }
  { c with weir := w, pwm := p }.setB PWM_STAT_RUNNING false

/-- Extra compare n fires in this cycle: once per period, in the cycle in which n = POS, or else in the first one in which φ
has reached its place; none while the carrier is stopped or frozen (R294). -/
def Channel.xcmpDue (c : Channel) (n : Nat) : Bool :=
  let at_ := c.lvN (PWM_XCMP_POS n) * 4294967296 / c.pwm.per
  let hit := match c.weir.mode with
    | .async => decide (c.pwm.n = c.lvN (PWM_XCMP_POS n))
    | _ => decide (at_ ≤ c.weir.phi.toNat) && (c.pwm.begun || decide (c.pwm.phiWas.toNat < at_))
  c.lvB (PWM_XCMP_EN n) && c.pwm.running && !c.pwm.frozen && !c.pwm.xFired.getLsbD n && hit

/-- The end of a cycle in PWM: clears are decided, measurements end, and the extra compares that fired go to ADC, which
receives them in the next cycle (R291, R294, R301). -/
def Channel.endPwmCycle (c : Channel) : Channel :=
  let c := (List.range 6).foldl (fun c k => if ((c.leg k).meas.any (·.ended)) then c.closeMeas k else c) c.endTrip
  let x := (List.range 8).foldl (fun (m : BitVec 8) n => if c.xcmpDue n then m ||| BitVec.ofNat 8 (2 ^ n) else m) 0
  { c with pwm := { c.pwm with
      xFired := c.pwm.xFired ||| x, xSent := x, phiWas := c.weir.phi, begun := false, rose := 0, fell := 0 } }

/-! ## Debug freeze (R303) -/

/-- PWM freezes, unless the channel is in three-pin mode: EV_FRZ 1. -/
def Channel.freeze (c : Channel) : Channel :=
  if c.rgB GDI_STAT_TPM || c.pwm.frozen then c
  else
    let c := (List.range 6).foldl (fun c k => c.setLeg k { c.leg k with meas := none }) c
    ({ c with pwm := { c.pwm with frozen := true } }.setB PWM_STAT_FROZEN true).raise 0x64 1

/-- The freeze ends: EV_FRZ 0. -/
def Channel.unfreeze (c : Channel) : Channel :=
  if c.pwm.frozen then
    ({ c with pwm := { c.pwm with frozen := false } }.setB PWM_STAT_FROZEN false).raise 0x64 0
  else c

/-! ## PWM at an accepted commit (R279, R288, R291, R304) -/

/-- MICLAMP where MIMAX exceeds OVMLIM; EV_MICLAMP when the saturation begins (R282). -/
def Channel.clampMimax (was : Bool) (c : Channel) : Channel :=
  if c.lvN PWM_OVM_OVMLIM < c.lvN PWM_MIMAX_MIMAX then
    let c := c.setB PWM_STAT_MICLAMP true
    if was then c else c.raise 0x63
  else c

/-- MIMAX saturates in a live bank. -/
def miSaturates (bank : List (Nat × Word)) : Bool :=
  decide ((fld bank PWM_OVM_OVMLIM).toNat < (fld bank PWM_MIMAX_MIMAX).toNat)

/-- PWM's part of an accepted commit that names it; it ends a leg's VSWFLT (R288, R291, R304). -/
def Channel.commitPwm (old : List (Nat × Word)) (c : Channel) : Channel :=
  let changed (f : Fld) : Bool := fld old f != c.lv f
  let c := if changed PWM_CTL_TOPO || changed PWM_CTL_CMODE || changed PWM_TMIN_TMIN || changed PWM_CTL_EXT
      || changed PWM_CTL_CARRYEN then c.clearCarries else c
  let c := (List.range 6).foldl (fun c k => c.setLeg k { c.leg k with faulted := false }) c
  let c := { c with pwm := { c.pwm with oen := c.pwm.oen &&& c.lv PWM_OEN_OEN } }
  let c := c.clampMimax (miSaturates old)
  let c := (List.range 6).foldl (fun c k => if c.legExcluded k then c.clearCarry k else c) c
  if c.lvB PWM_CTL_RUN && !c.pwm.running then
    { c with pwm := { c.pwm with running := true, stopping := false, n := 0, bndDue := true, resume := true }
             weir := c.weir.move c.now c.weir.theta 0 false }.setB PWM_STAT_RUNNING true
  else { c with pwm := { c.pwm with stopping := c.pwm.running && !c.lvB PWM_CTL_RUN } }

end Sys2Proof.Machine
end

