-- ==== Sys2Proof/Machine/Gdi.lean ====
section
/-! DEFINITION. Gdi.lean: three-pin mode, the per-switch fault latches, trip inputs, the comparators that feed the
trip latch, overvoltage and the brake chopper, active discharge and bootstrap supplies (R364 to R383, R263, R264). -/

namespace Sys2Proof.Machine

/-! ## Three-pin mode (R365 to R368) -/

/-- The legs that a GIN code puts in P and in N; codes 0 and 7 have none (R366). -/
def ginLegs (code : BitVec 3) : Option (Nat × Nat) :=
  match code with
  | 5 => some (0, 1) | 4 => some (0, 2) | 6 => some (1, 2)
  | 2 => some (1, 0) | 3 => some (2, 0) | 1 => some (2, 1) | _ => none

/-- The leg states P and N of R274. -/
def stateP (topo : Nat) : BitVec 6 := legPulse topo false
def stateN (topo : Nat) : BitVec 6 := if threeLevel topo then legPulse topo true else 2

/-- The outer switches of a leg. -/
def outerSwitches (topo : Nat) : BitVec 6 := if threeLevel topo then 0x09 else 0x03

/-- The state a code asks of leg k; legs k and k + 3 of a dual bridge take the same. -/
def ginTarget (topo : Nat) (code : BitVec 3) (k : Nat) : BitVec 6 :=
  match ginLegs code with
  | some (p, n) => if k % 3 = p then stateP topo else if k % 3 = n then stateN topo else 0
  | none => 0

/-- The steps from a leg's state to state 0: the outer switch first, the others DT_MIN later; an O state in one
step; steps towards 0 already under way are kept; times in 1/32 CCLK (R367). -/
def stepsToZero (topo now dt : Nat) (cur : BitVec 6) (todo : List (Nat × BitVec 6)) : List (Nat × BitVec 6) :=
  if cur = 0 then []
  else if todo.any (fun x => x.2 == 0) then (todo.takeWhile (fun x => x.2 != 0)) ++ (todo.filter (fun x => x.2 == 0)).take 1
  else if cur &&& outerSwitches topo = 0 ∨ cur &&& ~~~outerSwitches topo = 0 then [(now, 0)]
  else [(now, cur &&& ~~~outerSwitches topo), (now + dt, 0)]

/-- The steps from state 0, reached at tick `t`, to `target`: inner and clamp switches first, the outer switch
DT_MIN later; in a two-level leg no earlier than DT_MIN after the partner's switch-off (R367). -/
def Channel.stepsFromZero (c : Channel) (k t : Nat) (target : BitVec 6) : List (Nat × BitVec 6) :=
  let dt := c.lvN PWM_DTMIN_DT_MIN
  if target = 0 then []
  else if threeLevel c.topo then [(t, target &&& ~~~outerSwitches c.topo), (t + dt, target)]
  else
    let other := 2 * k + (if target = 1 then 1 else 0)
    let off := if c.pwm.sw.getLsbD other then t else sget 0 c.pwm.swAt other
    [(Nat.max t (off + dt), target)]

/-- The steps that bring leg k to what the code asks, from this edge on. -/
def Channel.planLeg (c : Channel) (code : BitVec 3) (k : Nat) : List (Nat × BitVec 6) :=
  let dt := c.lvN PWM_DTMIN_DT_MIN
  let cur := (c.leg k).cmd
  let todo := sget [] c.gdi.tpSeq k
  let target := ginTarget c.topo code k
  if cur = target ∧ todo = [] then []
  else if (todo.getLastD (0, cur)).2 = target then todo
  else if cur &&& ~~~target = 0 ∧ target ≠ 0 then c.stepsFromZero k c.ticks target
  else
    let down := stepsToZero c.topo c.ticks dt cur todo
    let t := (down.getLastD (c.ticks, 0)).1
    down ++ c.stepsFromZero k (if cur = 0 then t else t + (if threeLevel c.topo then dt else 0)) target

/-- Carry out the steps of leg k that are due in this cycle, through interlock and mask. -/
def Channel.tpLeg (c : Channel) (k : Nat) : Channel :=
  let todo := sget [] c.gdi.tpSeq k
  let due := todo.filter (fun x => x.1 ≤ c.lastTick)
  if due = [] then c
  else
    let c := { c with gdi := { c.gdi with tpSeq := sset [] c.gdi.tpSeq k (todo.filter (fun x => c.lastTick < x.1)) } }
    due.foldl (fun c x => c.legSet k x.2 (Nat.max x.1 c.ticks)) c

/-- Number of bits in which two codes differ. -/
def bitsApart (a b : BitVec 3) : Nat := ((List.range 3).filter (fun i => (a ^^^ b).getLsbD i)).length

/-- The legs set off towards what the code in GDI_STAT.GIN asks. -/
def Channel.tpGo (c : Channel) : Channel :=
  let code := (c.rg GDI_STAT_GIN).setWidth 3
  let seq := (List.range (legsOf c.topo)).foldl (fun m k => sset [] m k (c.planLeg code k)) c.gdi.tpSeq
  { c with gdi := { c.gdi with tpSeq := seq, tpDo := false } }

/-- A code error: GINERR, its count and EV_GINERR (R366). -/
def Channel.ginError (c : Channel) (arg : Nat) : Channel :=
  ((c.setB GDI_STAT_GINERR true).count GDI_ERRCNT_GINERR).raise 0x07 arg

/-- A code is applied; the legs set off at the next edge (R366). -/
def Channel.ginApply (c : Channel) (code : BitVec 3) : Channel :=
  let old := (c.rg GDI_STAT_GIN).setWidth 3
  let c := { c.setN GDI_STAT_GIN code.toNat with gdi := { c.gdi with ginWait := none, ginAt := c.now } }
  let c := if code = 7 then c.ginError 7 else c
  let c := if 1 < bitsApart old code then c.ginError (8 + code.toNat) else c
  { c with gdi := { c.gdi with tpDo := !c.gdi.tpWait } }

/-- GIN_CODE_ACCEPT: applied at once, or it waits until TPMIN after the previous applied change (R366). Outside
three-pin mode the code is only remembered. -/
def Channel.ginAccept (c : Channel) (code : BitVec 3) : Channel :=
  let c := { c with gdi := { c.gdi with ginAcc := some code } }
  if c.rgB GDI_STAT_TPM then
    if c.rgN GDI_STAT_GIN = code.toNat then { c with gdi := { c.gdi with ginWait := none } }
    else if c.gdi.ginAt + c.lvN GDI_GINCFG_TPMIN ≤ c.now then c.ginApply code
    else { c with gdi := { c.gdi with ginWait := some code } }
  else c

/-- The last waiting code is applied once its dwell is over (R366). -/
def Channel.ginDwell (c : Channel) : Channel :=
  match c.gdi.ginWait with
  | some code => c.when (c.rgB GDI_STAT_TPM && decide (c.gdi.ginAt + c.lvN GDI_GINCFG_TPMIN ≤ c.now)) (·.ginApply code)
  | none => c

/-- Three-pin mode begins: EV_TPM 1, carries cleared, the modulator's pending edges discarded; the legs keep their
states until the first code is applied, and a debug freeze ends (R62, R365, R367, R368; log 77). -/
def Channel.tpEnter (c : Channel) : Channel :=
  let hold (p : Pair) : Pair := { p with want := p.on, due := none }
  let c := (List.range 6).foldl (fun c k => c.setLeg k { c.leg k with
    meas := none, pairs := (List.range 3).foldl (fun m i => sset Pair.reset m i (hold (sget Pair.reset m i))) (c.leg k).pairs }) c
  let c := (c.unfreeze.clearCarries).setB GDI_STAT_TPM true
  let g := { c.gdi with tpSeq := [], tpDo := false, tpWait := c.patternNow.isSome || c.stoInForce || c.pwm.hold }
  let c := { c with gdi := g }.raise 0x06 1
  match c.gdi.ginAcc with
  | some code => c.ginApply code
  | none => c

/-- Three-pin mode ends: every leg goes to state 0 by R367 and modulation resumes at the next boundary; in a debug halt the
bridge is then frozen (R62, R65, R368; log 77). -/
def Channel.tpExit (c : Channel) : Channel :=
  let seq := (List.range (legsOf c.topo)).foldl (fun m k =>
    sset [] m k (stepsToZero c.topo c.ticks (c.lvN PWM_DTMIN_DT_MIN) (c.leg k).cmd (sget [] m k))) c.gdi.tpSeq
  let c := c.clearCarries
  let c := { c with gdi := { c.gdi with tpSeq := seq, tpDo := false, ginWait := none }, pwm := { c.pwm with resume := true } }
  let c := (c.setB GDI_STAT_TPM false).raise 0x06 0
  if c.dom.dbg.halted then c.freeze else c

/-- THREE_PIN_MODE_ENTRY and THREE_PIN_MODE_EXIT: filtered Cn_GSEL goes high or low; the mode follows in the next cycle
(R365). -/
def Channel.threePinEntry (c : Channel) : Channel := c.setB GDI_STAT_GSELREQ true
def Channel.threePinExit (c : Channel) : Channel := c.setB GDI_STAT_GSELREQ false

/-- Three-pin mode in a new cycle: the mode follows Cn_GSEL and TPEN, a waiting code is applied, and the legs' steps are
carried out (R365 to R367). -/
def Channel.tpEdge (c : Channel) : Channel :=
  let want := c.lvB GDI_CTL_TPEN && c.rgB GDI_STAT_GSELREQ
  let c := if want && !c.rgB GDI_STAT_TPM then c.tpEnter else if !want && c.rgB GDI_STAT_TPM then c.tpExit else c
  let c := c.ginDwell
  let c := if c.gdi.tpDo then c.tpGo else c
  (List.range (legsOf c.topo)).foldl Channel.tpLeg c

/-- A carrier boundary after a clear lets three-pin commutation resume from state 0 (R368). -/
def Channel.boundaryTp (c : Channel) : Channel :=
  if c.rgB GDI_STAT_TPM && c.gdi.tpWait && c.mayModulate then
    { c with gdi := { c.gdi with tpWait := false, tpDo := true }, pwm := { c.pwm with resume := false } }
  else c

/-! ## Per-switch fault latches (R369, R370) -/

/-- Cn_GFx carries a bootstrap report: the upper switch of a two-level leg with BSEN (R379). -/
def Channel.isBootReport (c : Channel) (x : Nat) : Bool :=
  !threeLevel c.topo && decide (x % 2 = 0) && decide (x / 2 < legsOf c.topo) && bitOf c.gdi.bsen (x / 2)

/-- Switch x is monitored for driver faults (R369). -/
def Channel.monitored (c : Channel) (x : Nat) : Bool := c.lvB (GDI_GFEN_GFEN.bit x) && !c.isBootReport x

/-- The latch of switch x sets: EV_GFAULT, and its ball goes low (R369, row 2 of R62). -/
def Channel.setFault (c : Channel) (x : Nat) : Channel :=
  if c.rgB (GDI_GFLATCH_LATCH.bit x) then c
  else
    (((c.setB (GDI_GFLATCH_LATCH.bit x) true).setB (GDI_GFSTKY_STKY.bit x) true).count GDI_ERRCNT_GF).raise 0x01 x

def Channel.setBoot (c : Channel) (k : Nat) (b : Boot) : Channel :=
  { c with gdi := { c.gdi with boot := sset Boot.reset c.gdi.boot k b } }

/-- The filtered report of Cn_GFx takes a level; that of an upper switch counts for its leg's period (R369, R381). -/
def Channel.reportLevel (c : Channel) (x : Nat) (active : Bool) : Channel :=
  let c := c.setB (GDI_GFIN_ACT.bit x) active
  let b := sget Boot.reset c.gdi.boot (x / 2)
  c.when (decide (x % 2 = 0)) (·.setBoot (x / 2) { b with allAct := b.allAct && active, noneAct := b.noneAct && !active })

/-- GATE_FAULT_LATCH: the cycle after the filtered report of Cn_GFx became active, in which a monitored switch's latch sets
(R369). -/
def Channel.gateFault (c : Channel) (x : Nat) : Channel :=
  c.when (decide (x < 18) && !c.isBootReport x) fun c =>
    let c := c.reportLevel x true
    if c.monitored x then c.setFault x else c

/-- GATE_FAULT_REPORT_RELEASE: the filtered report becomes inactive. -/
def Channel.gateFaultRelease (c : Channel) (x : Nat) : Channel :=
  c.when (decide (x < 18) && !c.isBootReport x) (·.reportLevel x false)

/-! ## Trip inputs and comparators (R371, R372, R263, R264) -/

/-- TRIP_INPUT_ASSERT and TRIP_INPUT_RELEASE: a filtered request of Cn_TRIPm, which reaches PWM at the next edge (R371,
R374). -/
def Channel.tripAssert (c : Channel) (m : Nat) : Channel := c.setB (GDI_TRIPIN_ACT.bit m) true
def Channel.tripRelease (c : Channel) (m : Nat) : Channel := c.setB (GDI_TRIPIN_ACT.bit m) false

/-- Comparator k still holds its output while its DAC settles (R264, R372). -/
def Channel.settling (c : Channel) (k : Nat) : Bool := sget 0 c.adc.settle k != 0

/-- The output of a comparator. -/
def Channel.setCmp (c : Channel) (k : Nat) (active : Bool) : Channel :=
  let m := BitVec.ofNat 7 (2 ^ k)
  { c with adc := { c.adc with cmpOut := if active then c.adc.cmpOut ||| m else c.adc.cmpOut &&& ~~~m } }

/-- Fast comparator k works: EN = 1 and SEL below 24 (R263). -/
def Channel.cmpOn (c : Channel) (k : Nat) : Bool := c.lvB (ADC_FCMP_EN k) && decide (c.lvN (ADC_FCMP_SEL k) < 24)

/-- The output of fast comparator k takes a level; becoming active raises EV_FCMPk, and is a request of R295. -/
def Channel.cmpLevel (c : Channel) (k : Nat) (active : Bool) : Channel :=
  let rises := active && !c.adc.cmpOut.getLsbD k
  let c := c.setCmp k active
  if rises then c.raise (0x0C + k) (c.lvN (ADC_FCMP_SEL k)) else c

/-- The hysteresis of a code of HYS, in microvolts (R271). -/
def hysteresis (h : Nat) : Int := [10000, 20000, 40000, 80000].getD h 0

/-- A comparator with threshold code `th`, which stands for th × 3.000 V / 1,024, on a voltage in microvolts, with a hysteresis
in 1/1,024 microvolt on its inactive side: one that is active above the threshold, or below it (R263). -/
def compares (below was : Bool) (v : Int) (th : Nat) (hys : Int) : Bool :=
  let x := v * 1024
  let t : Int := th * 3000000
  if below then decide (x < t) || (was && decide (x ≤ t + hys))
  else decide (t < x) || (was && decide (t - hys ≤ x))

/-- The voltage last told of a ball: 0 to 23 the analogue inputs, 24 Cn_VDC (log 73). -/
def Channel.volts (c : Channel) (ball : Nat) : Int := sget 0 c.adc.ain ball
def Channel.setVolts (c : Channel) (ball : Nat) (v : Int) : Channel :=
  { c with adc := { c.adc with ain := sset 0 c.adc.ain ball v } }

/-- The output of fast comparator k on the voltage of the ball that SEL names (R263). -/
def Channel.cmpSense (c : Channel) (k : Nat) : Bool :=
  c.cmpOn k && compares (c.lvB (ADC_FCMP_POL k)) (c.adc.cmpOut.getLsbD k) (c.volts (c.lvN (ADC_FCMP_SEL k)))
    (c.lvN (ADC_FCMP_TH k)) (1024 * hysteresis (c.lvN (ADC_FCMP_HYS k)))

/-- A ball of the analogue inputs has a voltage; the fast comparators that name it follow, but for those that are settling
(R263, R264). -/
def Channel.ainInput (c : Channel) (ball : Nat) (v : Int) : Channel :=
  (List.range 4).foldl (fun c k =>
    if c.lvN (ADC_FCMP_SEL k) = ball ∧ c.cmpOn k = true ∧ c.settling k = false then c.cmpLevel k (c.cmpSense k) else c)
    (c.setVolts ball v)

/-- FAST_COMPARATOR_CHANGE: the ball of comparator k has a voltage (R263). -/
def Channel.fastComparator (c : Channel) (k : Nat) (v : Int) : Channel :=
  c.when (c.cmpOn k) (·.ainInput (c.lvN (ADC_FCMP_SEL k)) v)

/-! ## The comparators of Cn_VDC and the brake chopper (R372, R373, R375, R376) -/

/-- Cn_BRK takes a level and an interval begins. -/
def Channel.brk (c : Channel) (on : Bool) : Channel :=
  { c.setB GDI_STAT_BRK on with gdi := { c.gdi with brkStart := c.now } }

/-- The ON code in use: saturated to OV2TH − 1 (R373). -/
def brkOn (bank : List (Nat × Word)) : Nat :=
  Nat.min (fld bank GDI_BRKTH_ON).toNat ((fld bank GDI_OVTH_OV2TH).toNat - 1)

/-- Stage 1 active: EV_OV1ON, and with BRKEN = 1 Cn_BRK high, where it begins an on interval in PWM mode (R375). -/
def Channel.stage1On (c : Channel) : Channel :=
  let c := (((c.setCmp 4 true).setB GDI_STAT_OV1 true).count GDI_ERRCNT_OV1).raise 0x03
  if c.lvB GDI_CTL_BRKEN && (c.lvB GDI_CTL_BRKMODE || !c.rgB GDI_STAT_BRK) then c.brk true else c

/-- Stage 1 inactive: EV_OV1OFF, and Cn_BRK low once BRKMIN has passed (R375). -/
def Channel.stage1Off (c : Channel) : Channel :=
  let c := ((c.setCmp 4 false).setB GDI_STAT_OV1 false).raise 0x04
  if c.rgB GDI_STAT_BRK && decide (c.gdi.brkStart + c.lvN GDI_BRKMIN_BRKMIN ≤ c.now) then c.brk false else c

/-- What comparator 4 (stage 1), 5 (stage 2) or 6 (discharge) makes of the voltage on Cn_VDC (R372, R375, R378). -/
def Channel.vdcSense (c : Channel) (k : Nat) : Bool :=
  let v := c.volts 24
  let was := c.adc.cmpOut.getLsbD k
  let on := brkOn c.live
  c.lvB GDI_CTL_VDCEN &&
    (if k = 4 then compares false was v on (((on : Int) - ((on - c.lvN GDI_BRKTH_HYS : Nat) : Int)) * 3000000)
     else if k = 5 then compares false was v (c.lvN GDI_OVTH_OV2TH) (1024 * hysteresis (c.lvN GDI_OVTH_OV2HYS))
     else decide (v * 1024 < c.lvN GDI_DSCHLO_DLOTH * 3000000) || (was && decide (v * 1024 = c.lvN GDI_DSCHLO_DLOTH * 3000000)))

/-- A comparator of Cn_VDC takes a level; one of stage 2 that ends withdraws its request (R372). -/
def Channel.vdcLevel (c : Channel) (k : Nat) (on : Bool) : Channel :=
  if on = c.adc.cmpOut.getLsbD k then c
  else if k = 4 then (if on then c.stage1On else c.stage1Off)
  else if k = 5 then
    { (c.setCmp 5 on).setB GDI_STAT_OV2 on with gdi := { c.gdi with ov2Run := 0, ov2Req := false } }
  else { c.setCmp 6 on with gdi := { c.gdi with dvRun := 0 } }

/-- The comparators of Cn_VDC that are not settling follow the ball (R372). -/
def Channel.vdcFollow (c : Channel) : Channel :=
  [4, 5, 6].foldl (fun c k => if c.settling k then c else c.vdcLevel k (c.vdcSense k)) c

/-- Cn_VDC has a voltage, as OVERVOLTAGE_STAGE2, its release, BRAKE_STAGE1_ON, BRAKE_STAGE1_OFF and
DISCHARGE_VOLTAGE_CHANGE bring it (R372, R375, R378; log 73). -/
def Channel.vdcInput (c : Channel) (v : Int) : Channel := (c.setVolts 24 v).vdcFollow

/-- The settling holds that end in this cycle: the output shows the new comparison at once (R264, R372). -/
def Channel.settleEdge (c : Channel) : Channel :=
  (List.range 7).foldl (fun c k =>
    if c.settling k && decide (sget 0 c.adc.settle k ≤ c.now) then
      let c := { c with adc := { c.adc with settle := sset 0 c.adc.settle k 0 } }
      if k < 4 then c.cmpLevel k (c.cmpSense k) else c.vdcLevel k (c.vdcSense k)
    else c) c

/-- The ball that comparator k looks at has a voltage. -/
def Channel.cmpInput (c : Channel) (k : Nat) (v : Int) : Channel :=
  if k < 4 then c.fastComparator k v else c.vdcInput v

/-- Stage 2 in a new cycle: active for OV2FLT + 1 of them it delivers request [12] and EV_OV2 (R372). -/
def Channel.ov2Edge (c : Channel) : Channel :=
  if c.adc.cmpOut.getLsbD 5 && !c.gdi.ov2Req && decide (c.lvN GDI_OVTH_OV2FLT + 1 ≤ c.gdi.ov2Run) then
    { c with gdi := { c.gdi with ov2Req := true } }.raise 0x05
  else c

/-- The length of the brake interval in progress; none where it does not end by itself (R375). -/
def Channel.brkLength (c : Channel) : Option Nat :=
  let min := c.lvN GDI_BRKMIN_BRKMIN
  let on := 40 * c.lvN GDI_BRKPWM_BRKON
  if c.rgB GDI_STAT_BRK then
    if c.rgB GDI_STAT_OV1 then
      if c.lvB GDI_CTL_BRKMODE && decide (c.lvN GDI_BRKPWM_BRKON < c.lvN GDI_BRKPWM_BRKPER) then
        some (if on < min then min else on)
      else none
    else some min
  else if c.rgB GDI_STAT_OV1 && c.lvB GDI_CTL_BRKEN then
    if c.lvB GDI_CTL_BRKMODE then some (40 * (c.lvN GDI_BRKPWM_BRKPER - c.lvN GDI_BRKPWM_BRKON)) else some 0
  else none

/-- The brake interval in progress has ended. -/
def Channel.brakeDue (c : Channel) : Bool :=
  match c.brkLength with
  | some n => decide (c.gdi.brkStart + n ≤ c.now)
  | none => false

/-- Cn_BRK toggles at the end of an interval (R375). -/
def Channel.brakeEdge (c : Channel) : Channel := if c.brakeDue then c.brk (!c.rgB GDI_STAT_BRK) else c

/-- BRKCLAMP while GDI_BRKTH.ON is saturated to OV2TH − 1 (R373). -/
def Channel.brkClamp (c : Channel) : Channel :=
  if c.lvN GDI_OVTH_OV2TH - 1 < c.lvN GDI_BRKTH_ON then c.setB GDI_STAT_BRKCLAMP true else c

/-- A new GDI_BRKTH comes into use: stage 1 holds its level for 8 CCLK (R372, R376). -/
def Channel.brkThreshold (old : Word) (c : Channel) : Channel :=
  let c := if rget c.live GDI_BRKTH_ON.reg ≠ old then
      { c with adc := { c.adc with settle := sset 0 c.adc.settle 4 (c.now + 8) } }
    else c
  c.brkClamp

/-! ## Active discharge (R377, R378) -/

/-- A discharge start is refused (R377). -/
def Channel.dischargeRefused (c : Channel) : Bool :=
  !c.lvB GDI_CTL_DSCHEN || !c.lvB GDI_CTL_VDCEN || (c.gen && !c.rgB PWM_TRIP_LATCH)

/-- A write of GDI_CMD: DSTART first, then DSTOP (log 8). -/
def Channel.gdiCmd (c : Channel) (w : Word) : Channel :=
  let c :=
    if bitOf w 1 && decide (c.rgN GDI_STAT_DPHASE = 0) then
      if c.dischargeRefused then (c.setB GDI_STAT_DSREF true).raise 0x0A 3
      else
        { c.setN GDI_STAT_DPHASE 1 with gdi := { c.gdi with
            dStart := c.now, dRef := c.now, dSeen := false, dReached := false, dLate := false, dfbRun := 0 } }
    else c
  if bitOf w 2 then c.setN GDI_STAT_DPHASE 0 else c

/-- Cn_DSCH is high while a discharge runs (R378). -/
def Channel.dschBall (c : Channel) : Bool := c.rgN GDI_STAT_DPHASE != 0

/-- A feedback fault with its argument. -/
def Channel.dischargeFault (c : Channel) (arg : Nat) : Channel := (c.setB GDI_STAT_DFBF true).raise 0x0A arg

/-- DISCHARGE_FEEDBACK: the filtered feedback takes a level (R378). -/
def Channel.dischargeFeedback (c : Channel) (active : Bool) : Channel :=
  let c := { c with gdi := { c.gdi with dfb := active, dfbRun := 0 } }
  if c.rgN GDI_STAT_DPHASE = 0 then c
  else if active then
    let c := { c with gdi := { c.gdi with dSeen := true } }
    if c.rgN GDI_STAT_DPHASE = 1 ∧ c.now < c.gdi.dStart + 400 * c.lvN GDI_DSCH_DFBT then c.setN GDI_STAT_DPHASE 2
    else c
  else if c.gdi.dSeen then ({ c with gdi := { c.gdi with dSeen := false } }).dischargeFault 1
  else c

/-- The feedback phase in a new cycle: feedback that came in time ends it, and so does its limit with a fault (R378). -/
def Channel.feedbackEdge (c : Channel) : Channel :=
  let limit := c.gdi.dStart + 400 * c.lvN GDI_DSCH_DFBT
  if c.rgN GDI_STAT_DPHASE ≠ 1 then c
  else if c.gdi.dfb && decide (c.now ≤ limit) then
    { c with gdi := { c.gdi with dSeen := true } }.setN GDI_STAT_DPHASE 2
  else if limit ≤ c.now then
    ({ c with gdi := { c.gdi with dSeen := c.gdi.dfb } }.dischargeFault 1).setN GDI_STAT_DPHASE 2
  else c

/-- The voltage phases in a new cycle: the comparator has held its level for 16 CCLK, or the voltage limit has passed and the
discharge goes on (R378). -/
def Channel.voltageEdge (c : Channel) : Channel :=
  let t := c.now - c.gdi.dStart
  let held := c.lvB GDI_CTL_VDCEN && decide (16 ≤ c.gdi.dvRun)
  if c.rgN GDI_STAT_DPHASE = 2 then
    if held && c.adc.cmpOut.getLsbD 6 then
      ((({ c with gdi := { c.gdi with dReached := true } }).setN GDI_STAT_DPHASE 3).setN
        GDI_DSCHTIME_T (satN 0xFFFFFF (t / 400))).raise 0x09 (satN 0xFFFF (t / 40000))
    else if !c.gdi.dLate && decide (c.gdi.dRef + 40000 * c.lvN GDI_DSCH_DSCHT ≤ c.now) then
      (({ c with gdi := { c.gdi with dLate := true } }).setB GDI_STAT_DTMOF true).raise 0x0A 2
    else c
  else if c.rgN GDI_STAT_DPHASE = 3 ∧ held = true ∧ c.adc.cmpOut.getLsbD 6 = false then
    ({ c with gdi := { c.gdi with dRef := c.now, dLate := false } }).setN GDI_STAT_DPHASE 2
  else c

/-- DSCHMAX ends a discharge (R378). -/
def Channel.maxEdge (c : Channel) : Channel :=
  if c.dschBall && decide (c.gdi.dStart + 40000 * c.lvN GDI_DSCHMAX_DSCHMAX ≤ c.now) then
    let c := c.setN GDI_STAT_DPHASE 0
    if c.gdi.dReached then c else c.raise 0x0A 5
  else c

/-- Feedback active for 16 consecutive CCLK without a command is a fault (R378). -/
def Channel.idleEdge (c : Channel) : Channel :=
  if c.gdi.dfb && !c.dschBall then
    let c := { c with gdi := { c.gdi with dfbRun := satN 17 (c.gdi.dfbRun + 1) } }
    if c.gdi.dfbRun = 16 then c.dischargeFault 4 else c
  else { c with gdi := { c.gdi with dfbRun := 0 } }

/-! ## Bootstrap supplies (R379 to R381) -/

/-- BOOTSTRAP_REPORT_CHANGE: the filtered high-side report of a bootstrap leg (R379, R381). -/
def Channel.bootReport (c : Channel) (k : Nat) (active : Bool) : Channel :=
  c.when (c.isBootReport (2 * k)) (·.reportLevel (2 * k) active)

/-- The charge state of leg k begins: FORCE 0b11 on its pair, with its count and EV_BSUV (R381). -/
def Channel.chargeEnter (c : Channel) (k : Nat) : Channel :=
  ((c.setB (GDI_STAT_BSCHG.bit k) true).count GDI_ERRCNT_BSCHG).raise 0x08 k

/-- The leg's undervoltage count calls for the charge state. -/
def Channel.chargeDue (c : Channel) (k : Nat) : Bool :=
  c.isBootReport (2 * k) && !c.rgB (GDI_STAT_BSCHG.bit k)
    && decide (atLeast1 (c.lvN GDI_BSUV_BSUVN) ≤ (sget Boot.reset c.gdi.boot k).uv)

/-- A carrier boundary of leg k's bootstrap supply: refresh and undervoltage of the period just ended are counted,
the charge state is entered or left, and a new period begins (R380, R381). -/
def Channel.boundaryBoot (c : Channel) (k : Nat) : Channel :=
  let b := sget Boot.reset c.gdi.boot k
  let acc := b.lowAcc + (match b.lowSince with | some t => c.now - t | none => 0)
  let act := c.rgB (GDI_GFIN_ACT.bit (2 * k))
  let c := c.setBoot k { b with
    lowSince := b.lowSince.map (fun _ => c.now), lowAcc := 0
    lacking := if acc < c.gdi.bstref then b.lacking + 1 else 0
    uv := if b.allAct then b.uv + 1 else 0, allAct := act, noneAct := !act }
  let c := if c.rgB (GDI_STAT_BSCHG.bit k) && (b.noneAct || !c.isBootReport (2 * k)) then
      c.setB (GDI_STAT_BSCHG.bit k) false else c
  if c.chargeDue k then c.chargeEnter k else c

/-- A carrier boundary in GDI before PWM's legs begin their periods: BSEN, BSK and BSTREF come into use (R364). -/
def Channel.boundaryGdi (c : Channel) : Channel :=
  let g := { c.gdi with bsen := c.lv GDI_CTL_BSEN, bsk := c.lvN GDI_BS_BSK, bstref := c.lvN GDI_BS_BSTREF }
  let c := { c with gdi := g }
  if threeLevel c.topo then c else (List.range (legsOf c.topo)).foldl Channel.boundaryBoot c

/-! ## GDI at an accepted commit (R364, R365, R369 to R372, R375) -/

/-- A fault latch through a commit: it clears where GFEN becomes 0 and sets where an active report becomes
monitored. -/
def Channel.commitFault (c : Channel) (x : Nat) : Channel :=
  if !c.lvB (GDI_GFEN_GFEN.bit x) then c.setB (GDI_GFLATCH_LATCH.bit x) false
  else if c.monitored x && c.rgB (GDI_GFIN_ACT.bit x) then c.setFault x else c

/-- Comparators through a commit: a changed threshold holds its output for 8 CCLK; VDCEN = 0 makes all inactive, and the
others follow the ball (R372). -/
def Channel.commitVdc (old : List (Nat × Word)) (c : Channel) : Channel :=
  let hold (k : Nat) (p : Bool) (c : Channel) : Channel :=
    if p then { c with adc := { c.adc with settle := sset 0 c.adc.settle k (c.now + 8) } } else c
  let changed (f : Fld) : Bool := fld old f != c.lv f
  let c := hold 5 (changed GDI_OVTH_OV2TH || changed GDI_OVTH_OV2HYS) c
  let c := hold 6 (changed GDI_DSCHLO_DLOTH) c
  let c := hold 4 (brkOn old != brkOn c.live) c
  if c.lvB GDI_CTL_VDCEN then c.vdcFollow
  else
    let c := { c with adc := { c.adc with settle := [4, 5, 6].foldl (fun m k => sset 0 m k 0) c.adc.settle } }
    [4, 5, 6].foldl (fun c k => c.vdcLevel k false) c

/-- A committed polarity inverts what a steady ball level means (R369, R371). -/
def Channel.commitPolarity (old : List (Nat × Word)) (c : Channel) : Channel :=
  let c := c.set GDI_TRIPIN_ACT (c.rg GDI_TRIPIN_ACT ^^^ (fld old GDI_TPOL_TPOL ^^^ c.lv GDI_TPOL_TPOL))
  if fld old GDI_CTL_GFPOL ≠ c.lv GDI_CTL_GFPOL then
    (List.range 18).foldl (fun c x => c.reportLevel x (!c.rgB (GDI_GFIN_ACT.bit x))) c
  else c

/-- GDI's part of an accepted commit that names it. -/
def Channel.commitGdi (old : List (Nat × Word)) (c : Channel) : Channel :=
  let c := (c.commitPolarity old).commitVdc old
  let c := (List.range 18).foldl Channel.commitFault c
  let c := c.brkClamp
  if !c.lvB GDI_CTL_BRKEN then (if c.rgB GDI_STAT_BRK then c.brk false else c)
  else if c.rgB GDI_STAT_OV1 && fld old GDI_CTL_BRKEN == 0 then c.brk true else c

/-! ## A cycle of GDI -/

/-- The end of a cycle: how long stage 2 has been active, and the discharge comparator at its level (R372, R378). -/
def Channel.endGdiCycle (c : Channel) : Channel :=
  { c with gdi := { c.gdi with
      ov2Run := if c.adc.cmpOut.getLsbD 5 then satN 256 (c.gdi.ov2Run + 1) else 0, dvRun := satN 16 (c.gdi.dvRun + 1) } }

/-- The edge that begins a cycle, beside the bridge: comparators, chopper and discharge. -/
def Channel.gdiEdge (c : Channel) : Channel :=
  (((c.ov2Edge.settleEdge).brakeEdge.feedbackEdge).voltageEdge.maxEdge).idleEdge

/-- A change of Cn_GEN is timed (R450). -/
def Channel.genEdge (c : Channel) : Channel :=
  if c.gen = c.pwm.genWas then c else { c with pwm := { c.pwm with genWas := c.gen, genAt := c.now } }

/-- The bridge in a new cycle: three-pin mode, the legs, the switches and balls, the trip requests, and then Cn_GEN (R272,
R297, R300). -/
def Channel.bridgeEdge (c : Channel) : Channel := (((c.tpEdge.legsEdge).gateEdge).tripEdge).genEdge

end Sys2Proof.Machine
end

