-- ==== Sys2Proof/Machine/Lsc.lean ====
section
/-! DEFINITION. Lsc.lean: redundant execution (R384 to R409): the logs, checkpoints, mismatch and recovery, split and
join, and the ends of lockstep. -/

namespace Sys2Proof.Machine

/-- The architectural state that a state load copies: general registers, program counter and CSRs (R389, R390). -/
def Core.adopt (x from_ : Core) : Core :=
  { x with
    g := from_.g, pc := from_.pc, priv := from_.priv, status := from_.status, epc := from_.epc, cause := from_.cause
    xval := from_.xval, vbase := from_.vbase, xsave := from_.xsave, nstatus := from_.nstatus, nepc := from_.nepc
    ncause := from_.ncause, timeh := from_.timeh, mpuBase := from_.mpuBase, mpuLim := from_.mpuLim
    mpuCtl := from_.mpuCtl }

def Domain.setLsc (d : Domain) (f : Lsc → Lsc) : Domain := { d with lsc := f d.lsc }

/-- EV_LSDIAG with its code (R408). -/
def Domain.lsDiag (d : Domain) (code : Nat) : Domain := d.raise 0x77 code
def Domain.lsMode (d : Domain) (code : Nat) : Domain := d.raise 0x76 code

/-- SAFE_CAP by R46: no dual-core, no lab mode, not degraded, boot complete. -/
def Domain.refreshCap (d : Domain) : Domain :=
  d.setB SYS_CAP_SAFE_CAP (!d.dual && !d.rgB SYS_CAP_LAB && !d.rgB SYS_CAP_DEGRADED
    && (d.rgB SYS_BOOTSTAT_DONE || d.rgB BOOT_STAT_DONE))

def Domain.degrade (d : Domain) : Domain := (d.setB SYS_CAP_DEGRADED true).refreshCap

/-! ## The core-less state and the stop of R395 -/

/-- A core is held: the instruction it stands at is flushed, with the load it waited for, and executes again if the core
goes on (R389). Stores that it has released continue to drain. -/
def Core.flush (x : Core) : Core :=
  let loads := match x.wait with
    | .load n | .ring n => x.loads.filter (fun l => l.seq != n)
    | _ => x.loads
  { x with wait := .none, loads := loads }

/-- A core's execution is abandoned: it is held, and its outstanding loads are dropped (R400 to R404). -/
def Core.idle (x : Core) : Core := { x with run := .held, wait := .none, loads := [] }

/-- No engine executes (R388). With LOSTTRIP = 1 request 14 follows in the next cycle. -/
def Domain.coreless (d : Domain) : Domain :=
  let d := (d.setN LSC_STAT_PHASE 5).degrade
  let stop := fun (x : Core) => if x.run = .running then x.idle else x
  let d := { d with e0 := stop d.e0, e1 := stop d.e1, e2 := stop d.e2 }
  (d.setB SYS_CAP_SAFE_CAP false).setLsc (fun l => { l with tripReq := l.tripReq || d.rgB LSC_CTL_LOSTTRIP
                                                            replay := none })

/-- An exception while NEXL = 1 stops a core (R137). A pair or a core alone makes the domain core-less with EV_LSDIAG
0x5 (R395); in dual-core mode only the second stop does (R403); a split core stops alone (log 11). -/
def Domain.stopCore (d : Domain) (e : Eng) : Domain :=
  let d := d.putCore e { (d.core e).idle with run := .stopped }
  if d.lsc.split == some e then d
  else if d.dual then
    if d.e0.run = .stopped ∧ d.e1.run = .stopped then (d.lsDiag 5).coreless else d
  else (d.lsDiag 5).coreless

/-! ## Mismatch and recovery (R389 to R394) -/

/-- A recovery is over: EV_LSREC with the outcome, the engine retired and whether both were, and the count of transients
(R390, R408, R409). -/
def Domain.lsRec (d : Domain) : Domain :=
  let o := d.lsc.outcome
  let d := if o = 2 ∨ o = 3 then d.count LSC_CNT_TRANSIENT else d
  d.raise 0x75 (o + 16 * d.lsc.lost.toNat + (if o = 4 ∨ o = 6 then 64 else 0))

def Domain.retire (d : Domain) (e : Eng) : Domain :=
  (d.setB (LSC_STAT_RETIRED.bit e.idx) true).count LSC_CNT_RETIRE

/-- SPR's record of a retired core: action 0x1 when a spare took over, otherwise 0x3 (R457). -/
def Domain.sprCore (d : Domain) (e : Eng) (action : Nat) : Domain :=
  d.evSpr 1 action e.idx

/-- The split is over: its core is held and becomes the spare (R401, R402). -/
def Domain.endSplit (d : Domain) : Domain :=
  match d.lsc.split with
  | none => d
  | some e =>
    let d := d.setCore e (d.core e).idle
    let d := (d.setN LSC_STAT_SPARE e.idx).setB LSC_STAT_SPLIT false
    (d.setB LSC_STAT_JOINPEND false).setLsc (fun l => { l with split := none, forced := false })

/-- LOCKSTEP_MISMATCH in group g: both cores are held as they stood after the last instruction compared equal, and their
self-test begins; the split core is abandoned (R389, R402). A mismatch during recovery begins again at its own cycle. -/
def Domain.mismatch (d : Domain) (g : Nat) : Domain :=
  let d := d.endSplit
  let d := ((d.setN LSC_STAT_MISGRP g).setN LSC_MISTS_TS (d.time % 4294967296)).count LSC_CNT_MISMATCH
  let d := (match d.main with | some e => d.setCore e (d.core e).flush | none => d)
  let d := (match d.shadow with | some e => d.setCore e (d.core e).flush | none => d)
  let d := (d.setN LSC_STAT_PHASE 1).setLsc (fun l => { l with m := d.time, outcome := 0, lost := 3
                                                               due := d.time + 16002 })
  d.raise 0x74 g

/-- A mismatch is possible: a pair is compared, or such a pair is in recovery, and lockstep is whole (R389, R390, R403,
R404). -/
def Domain.mismatchable (d : Domain) : Bool :=
  d.paired && !d.transferring && !d.dbg.halted

/-- Execution resumes: comparing, or alone and degraded; EV_LSREC. A replay that the mismatch broke into goes on first
(log 13). -/
def Domain.resumeRun (d : Domain) (comparing : Bool) : Domain :=
  let d := if comparing then d else d.degrade
  if d.lsc.replay.isSome then d.setN LSC_STAT_PHASE 3
  else (d.setN LSC_STAT_PHASE (if comparing then 0 else 4)).lsRec

/-- The recovery cannot be made: both engines retired with no spare (outcome 0x6), or no usable checkpoint (R390, R391). -/
def Domain.recoveryLost (d : Domain) : Domain := d.coreless.lsRec

/-- The undo time U of R392: 1 CCLK per SRAM entry and 8 per data-NVM entry. -/
def undoTime (j : List Journal) : Nat := j.foldl (fun n x => n + (if 0x20000000 ≤ x.addr then 8 else 1)) 0

/-- Undo the store journal, the newest entry first (R391). -/
def undoJournal (m : List Host.Cell) (j : List Journal) : List Host.Cell :=
  j.reverse.foldl (fun m x => memPutWord m x.addr x.old) m

/-- An engine loaded with a checkpoint (R391, R396). What its store buffer still holds belongs to the interval that is
undone; released device writes continue to drain. -/
def Core.restore (x : Core) (k : Ckpt) : Core :=
  { x.adopt k.core with
    timeh := x.timeh, retired := k.retired, run := .running, wait := .none, rsv := none, loads := [], stores := [] }

/-- Restoration begins if a checkpoint stands and the logs are whole: the checkpoint is loaded into each engine that will
execute, the journal is undone, and replay may begin once R392's times are over; otherwise EV_LSDIAG 0x2 and core-less
(R391). -/
def Domain.beginRestore (d : Domain) (outcome : Nat) : Domain :=
  let d := d.setLsc (fun l => { l with outcome := outcome })
  match d.lsc.ck, d.rgB LSC_STAT_CKVALID && !d.rgB LSC_STAT_LOGOVF with
  | some k, true =>
    let load := fun (o : Option Eng) (d : Domain) =>
      match o with | some e => d.setCore e ((d.core e).restore k) | none => d
    let d := load d.shadow (load d.main d)
    let d := { d with mem := undoJournal d.mem d.lsc.journal }
    let d := d.setLsc (fun l => { l with due := l.m + 16026 + undoTime l.journal, journal := [], replay := some l.rlog })
    (d.setN LSC_STAT_PHASE 3).setN LSC_LOGLVL_JRNL 0
  | _, _ => (d.lsDiag 2).recoveryLost

/-- The accesses outside the pair pass to the engine that becomes main (R120, R389). -/
def Core.takeQueues (x from_ : Core) : Core :=
  let n := x.seq
  let up := fun (s : StoreReq) => { s with seq := s.seq + n }
  { x with
    seq := n + from_.seq, stores := x.stores ++ from_.stores.map up, posted := x.posted ++ from_.posted.map up
    loads := from_.loads.map (fun l => { l with seq := l.seq + n }), lost := x.lost ++ from_.lost.map (· + n)
    postedErrs := from_.postedErrs }

/-- The queues of engine a pass to engine b. -/
def Domain.passQueues (d : Domain) (a b : Eng) : Domain :=
  let x := d.core a
  let d := d.setCore b ((d.core b).takeQueues x)
  d.setCore a { x with stores := [], posted := [], loads := [], lost := [], postedErrs := [] }

/-- One of the pair fails its self-test: it is retired, and the spare is loaded from the one that passed, or that one
runs alone (R390). -/
def Domain.oneFails (d : Domain) (bad good : Eng) : Domain :=
  let d := if d.main == some bad then d.passQueues bad good else d
  let d := (d.retire bad).setCore bad { d.core bad with run := .held }
  let d := (d.setN LSC_STAT_MAIN good.idx).setLsc (fun l => { l with lost := BitVec.ofNat 2 bad.idx })
  match d.spare with
  | some s =>
    let d := (d.setN LSC_STAT_SHADOW s.idx).setN LSC_STAT_SPARE 3
    let d := (d.setN LSC_STAT_PHASE 2).setLsc (fun l => { l with outcome := 1, due := l.m + 16098 })
    d.sprCore bad 1
  | none =>
    let d := (d.setN LSC_STAT_SHADOW 3).setLsc (fun l => { l with outcome := 5 })
    (d.sprCore bad 3).resumeRun false

/-- Both fail: the spare alone is restored from the checkpoint, or nothing executes again (R390). -/
def Domain.bothFail (d : Domain) (m h : Eng) : Domain :=
  let d := (d.retire m).retire h
  let d := (d.setCore m { d.core m with run := .held }).setCore h { (d.core h) with run := .held }
  let d := d.setN LSC_STAT_SHADOW 3
  match d.spare with
  | some s =>
    let d := (d.passQueues m s).setN LSC_STAT_MAIN s.idx
    ((((d.setN LSC_STAT_SPARE 3).sprCore m 1).sprCore h 3)).beginRestore 4
  | none =>
    let d := (((d.setN LSC_STAT_MAIN 3).sprCore m 3).sprCore h 3).setLsc (fun l => { l with outcome := 6 })
    d.recoveryLost

/-- SELF_TEST_DONE: the verdict of R390 at m + 16,002 or later. -/
def Domain.selfTestDone (d : Domain) (mainFails shadowFails : Bool) : Domain :=
  match d.main, d.shadow with
  | some m, some h =>
    match mainFails, shadowFails with
    | true, true => d.bothFail m h
    | true, false => d.oneFails m h
    | false, true => d.oneFails h m
    | false, false => (d.setN LSC_STAT_PHASE 2).setLsc (fun l => { l with outcome := 2, due := l.m + 16050 })
  | _, _ => d

/-- The shadow is loaded with main's state (R390). -/
def Domain.loadShadow (d : Domain) (m h : Eng) : Domain :=
  d.setCore h { (d.core h).adopt (d.core m) with
                run := .running, wait := .none, rsv := (d.core m).rsv, retired := (d.core m).retired
                postedErrs := (d.core m).postedErrs }

/-- STATE_LOAD_DONE: after a state load the pair resumes; after a comparison the pair rejoins where the states are
equal, and is restored from the checkpoint where they differ (R390). -/
def Domain.stateLoadDone (d : Domain) (equal : Bool) : Domain :=
  match d.main, d.shadow with
  | some m, some h =>
    if d.lsc.outcome = 1 then (d.loadShadow m h).resumeRun true
    else if equal then d.resumeRun true
    else d.beginRestore 3
  | _, _ => d

/-- RESTORATION_DONE: the replay log is exhausted, and the pair, or the engine alone, goes on from there (R392, R398). -/
def Domain.restorationDone (d : Domain) : Domain :=
  match d.lsc.replay with
  | some [] =>
    ((d.count LSC_CNT_RESTORE).setLsc (fun l => { l with replay := none })).resumeRun d.shadow.isSome
  | _ => d

/-! ## The logs and the replay (R396 to R398) -/

/-- The interval's entries become incomplete: LOGOVF, and EV_LSDIAG 0x2 once. -/
def Domain.logOverflow (d : Domain) : Domain :=
  let told := d.lsc.ovfTold
  let d := (d.setB LSC_STAT_LOGOVF true).setLsc (fun l => { l with ovfTold := true })
  if told then d else d.lsDiag 2

/-- LSC records what a pair, or a core running alone outside dual-core mode, does; a split core is not recorded (R397,
R400, R403). -/
def Domain.logs (d : Domain) (e : Eng) : Bool := !d.dual && d.main == some e && !(d.lsc.split == some e)

/-- An effect or input that is not the next entry of the replay log: replay stops, EV_LSDIAG 0x4, core-less (R398). -/
def Domain.diverge (d : Domain) : Domain := (d.lsDiag 4).recoveryLost

/-- An entry of the replay log (R397). During a replay it is the next entry of the log, or a divergence (R398). -/
def Domain.logRec (d : Domain) (e : Eng) (k : LogKind) (a v : Word) : Domain :=
  match d.expected e with
  | some r =>
    if r = ⟨k, a, v⟩ then d.setLsc (fun l => { l with replay := some ((l.replay.getD []).drop 1) }) else d.diverge
  | none =>
    if d.logs e then
      if 4096 ≤ d.lsc.rlog.length then d.logOverflow
      else
        let d := d.setLsc (fun l => { l with rlog := l.rlog ++ [⟨k, a, v⟩] })
        d.setN LSC_LOGLVL_RLOG d.lsc.rlog.length
    else d

/-- A value that the core takes from outside: during a replay the logged one (R398). -/
def Domain.input (d : Domain) (e : Eng) (k : LogKind) (a live : Word) : Word :=
  match d.expected e with
  | some r => if r.kind = k ∧ r.a = a then r.v else live
  | none => live

/-- An interrupt, trip or imprecise exception of the log is due before the next instruction (R398). -/
def Domain.entryDue (d : Domain) (e : Eng) : Option Word :=
  match d.expected e with
  | some r => if r.kind = .entry ∧ r.a = BitVec.ofNat 32 (d.core e).retired then some r.v else none
  | none => none

/-- An entry of the store journal (R397). -/
def Domain.logStore (d : Domain) (e : Eng) (a : Nat) (old : Word) : Domain :=
  if d.logs e then
    if 4096 ≤ d.lsc.journal.length then d.logOverflow
    else
      let d := d.setLsc (fun l => { l with journal := l.journal ++ [⟨a, old⟩] })
      d.setN LSC_LOGLVL_JRNL d.lsc.journal.length
  else d

/-- CKPT: the state of the executing core becomes the current checkpoint, and both logs start again (R396). The program
counter is that of the instruction after CKPT, and the retired-instruction count includes it. -/
def Domain.checkpoint (d : Domain) (e : Eng) (tag : Word) : Domain :=
  let x := d.core e
  let d := d.setLsc (fun l => { l with
    ck := some ⟨x, tag, x.retired + 1, d.time⟩, journal := [], rlog := [], ckFrom := d.time, ckTold := false
    ovfTold := false })
  let d := (((d.setB LSC_STAT_CKVALID true).setB LSC_STAT_LOGOVF false).set LSC_CKTAG_TAG tag)
  ((d.setN LSC_CKTS_TS (d.time % 4294967296)).setN LSC_LOGLVL_JRNL 0).setN LSC_LOGLVL_RLOG 0

/-- CHECKPOINT_OVERDUE (R398). -/
def Domain.ckptDue (d : Domain) : Bool :=
  decide (d.rgN LSC_CKMAX_CKMAX ≠ 0) && !d.lsc.ckTold && decide (d.lsc.ckFrom + d.rgN LSC_CKMAX_CKMAX ≤ d.time)

def Domain.ckptOverdue (d : Domain) : Domain :=
  ((d.setB LSC_STAT_CKOLD true).setLsc (fun l => { l with ckTold := true })).lsDiag 1

/-! ## Split and join (R131, R399 to R402) -/

/-- The status of LS.SPLIT and LS.JOIN (R131): 2 once debug has broken lockstep, 1 for a core outside a pair, 3 for a
split with no spare. A core already split off is outside a pair; main and the former spare are one (log 11). -/
def Domain.splitStatus (d : Domain) (e : Eng) (join : Bool) : Nat :=
  if d.broken then 2
  else if d.dual || d.lsc.split == some e || !d.pairing then 1
  else if join then 0
  else if d.spare.isNone then 3 else 0

/-- An accepted LS.SPLIT or LS.JOIN waits for its boundary; a second request merges with the first; a join with no split
in force does nothing (R399). -/
def Domain.requestSplit (d : Domain) : Domain :=
  if d.rgB LSC_STAT_SPLITPEND then d
  else (d.setB LSC_STAT_SPLITPEND true).setLsc (fun l => { l with reqAt := d.time, bndAt := none })

def Domain.requestJoin (d : Domain) : Domain :=
  if d.lsc.split.isNone || d.rgB LSC_STAT_JOINPEND then d
  else (d.setB LSC_STAT_JOINPEND true).setLsc (fun l => { l with reqAt := d.time, bndAt := none })

/-- The state of a core split off: System level, IE = 0, MPU off, every general register zero, at SPLITVEC (R400). -/
def Domain.splitCore (d : Domain) : Core :=
  let v := d.rgN LSC_SPLITVEC_VEC
  { Core.reset with run := .running, pc := BitVec.ofNat 32 ((if 767 < v then 0 else v) * 4096) }

/-- The cycle S of a split, or J of a join, whose 96 cycles of state load are over in the pair that executes. -/
def Domain.transferred (d : Domain) : Option Nat :=
  if d.transferring && !d.dbg.halted then
    match d.effectCycle with
    | some t => if t + 96 ≤ d.time then some t else none
    | none => none
  else none

/-- SPLIT_EFFECT: 96 cycles after S main pairs with the spare, loaded with its state, and the former shadow starts on its
own (R400). With no spare left the request lapses at S (log 11). -/
def Domain.splitEffect (d : Domain) : Domain :=
  match d.main, d.shadow, d.spare with
  | some m, some h, some s =>
    match d.transferred with
    | some t =>
      let d := (d.loadShadow m s).setCore h { d.splitCore with stores := (d.core h).stores, posted := (d.core h).posted
                                                               seq := (d.core h).seq, lost := (d.core h).lost }
      let d := ((d.setN LSC_STAT_SHADOW s.idx).setN LSC_STAT_SPARE 3).setB LSC_STAT_SPLIT true
      let d := (d.setB LSC_STAT_SPLITPEND false).setLsc (fun l => { l with split := some h, splitSince := t
                                                                           forced := false })
      d.raiseAt (t + 96) 0x76 1
    | none => d
  | _, _, _ => if d.effectCycle.isSome then d.setB LSC_STAT_SPLITPEND false else d

/-- JOIN_EFFECT: 96 cycles after J the split core, loaded with main's state, is shadow, and the former spare is spare again
(R401). -/
def Domain.joinEffect (d : Domain) : Domain :=
  match d.main, d.shadow, d.lsc.split, d.transferred with
  | some m, some h, some p, some t =>
    let d := (d.setCore p (d.core p).idle).loadShadow m p
    let d := d.setCore h (d.core h).idle
    let d := ((d.setN LSC_STAT_SHADOW p.idx).setN LSC_STAT_SPARE h.idx).setB LSC_STAT_SPLIT false
    let forced := d.lsc.forced
    let d := (d.setB LSC_STAT_JOINPEND false).setLsc (fun l => { l with split := none, forced := false })
    let d := d.raiseAt (t + 96) 0x76 2
    if forced then d.raiseAt (t + 96) 0x76 3 else d
  | _, _, _, _ => d

/-- SPLITMAX_EXPIRY: LSC requests a join (R401). -/
def Domain.splitmaxDue (d : Domain) : Bool :=
  d.lsc.split.isSome && !d.rgB LSC_STAT_JOINPEND && decide (d.rgN LSC_SPLITMAX_SPLITMAX ≠ 0)
    && decide (d.lsc.splitSince + d.rgN LSC_SPLITMAX_SPLITMAX * 1000 ≤ d.time)

def Domain.splitmax (d : Domain) : Domain := d.requestJoin.setLsc (fun l => { l with forced := true })

/-! ## Debug -/

/-- A debug halt ends lockstep: any split or recovery is abandoned, main alone executes from the release on, and
EV_LSMODE 0x4 is raised once (R404). In dual-core mode there is no lockstep to end. -/
def Domain.breakLockstep (d : Domain) : Domain :=
  if d.dual then d
  else
    let was := d.broken
    let d := d.endSplit
    let d := (d.setB LSC_STAT_SPLITPEND false).setB LSC_STAT_DBG_BROKEN true
    let hold := fun (o : Option Eng) (d : Domain) =>
      match o with | some e => d.setCore e (d.core e).idle | none => d
    let d := (hold d.spare (hold d.shadow d)).setLsc (fun l => { l with replay := none })
    let d := if d.phase = 5 then d else d.setN LSC_STAT_PHASE 4
    if was then d else d.lsMode 4

end Sys2Proof.Machine
end

