-- ==== Sys2Proof/Machine/Heat.lean ====
section
/-! DEFINITION. Heat.lean: THM and SPR (R441 to R464): the slow round, temperature bands and rates, thermal shutdown, the
spares and their switch-in, error counting of memory rows, wear indicators and the wear record. -/

namespace Sys2Proof.Machine

/-- The domain is held in reset by some source (R86). -/
def Domain.inReset (d : Domain) : Bool := d.rs.supply || d.rs.pin || d.rs.soft || d.rs.thermal

def Domain.setThm (d : Domain) (f : Thm → Thm) : Domain := { d with thm := f d.thm }
def Domain.setSpr (d : Domain) (f : Spr → Spr) : Domain := { d with spr := f d.spr }

/-! ## THM (R441 to R448) -/

def Domain.thEvent (d : Domain) (host ch arg : Nat) : Domain := d.raise (if d.id = 4 then host else ch) arg
def Domain.thDiag (d : Domain) (code s : Nat) : Domain := d.thEvent 0x09 0x79 (code + 16 * s)

/-- The sensors of a domain: three in a channel, one in the host domain (R461). -/
def Domain.sensors (d : Domain) : List Nat := if d.id = 4 then [0] else [0, 1, 2]

def Domain.suspect (d : Domain) (s : Nat) : Bool := d.rgB (THM_STAT_SUSP.bit s)
def Domain.temp (d : Domain) (s : Nat) : Int := d.rgI (THM_TEMP_T s)

/-- The median of three readings. -/
def median3 (a b c : Int) : Int := max (min a b) (min (max a b) c)

/-- A sensor's reading is stored with its round (R441). -/
def Domain.reading (seq : Nat) (d : Domain) (x : Nat × BitVec 16) : Domain :=
  ((d.setB (THM_TEMP_VALID x.1) true).setN (THM_TEMP_SEQ x.1) seq).setN (THM_TEMP_T x.1) x.2.toNat

/-- Plausibility of one sensor against the median (R442). -/
def Domain.plausible (med : Int) (d : Domain) (s : Nat) : Domain :=
  let off := decide (((if d.rgN THM_CTL_TDEV = 0 then 1 else d.rgN THM_CTL_TDEV) * 16 : Nat) < (d.temp s - med).natAbs)
  let bad := if off then sget 0 d.thm.dev s + 1 else 0
  let good := if off then 0 else sget 0 d.thm.good s + 1
  let was := d.suspect s
  let d := d.setThm (fun t => { t with dev := sset 0 t.dev s bad, good := sset 0 t.good s (satN 64 good) })
  if !was && decide (8 ≤ bad) then
    ((d.setB (THM_STAT_SUSP.bit s) true).setB (THM_TEMP_SUSPECT s) true).thDiag 1 s
  else if was && decide (64 ≤ good) then
    ((d.setB (THM_STAT_SUSP.bit s) false).setB (THM_TEMP_SUSPECT s) false).thDiag 2 s
  else d

/-- The band of R443 from the one before and T_d in 1/16 degree. -/
def bandOf (old : Nat) (td : Int) : Nat :=
  let level := fun (h : Int) => ([-160, 1760, 2160].filter (fun b => b - h ≤ td)).length
  if old < level 0 then level 0 else if level 48 < old then level 48 else old

/-- T_d: the highest reading among the sensors that are not suspect (R443). -/
def Domain.decidingTemp (d : Domain) : Option Int :=
  ((d.sensors.filter (fun s => !d.suspect s)).map d.temp).foldl
    (fun m t => match m with | none => some t | some x => some (max x t)) none

/-- The band at the end of a round; EV_THBAND at a change (R443, R462). -/
def Domain.bandUpdate (d : Domain) : Domain :=
  let old := d.rgN THM_STAT_BAND
  let go := fun (d : Domain) (b : Nat) =>
    if b = old then d else (d.setN THM_STAT_BAND b).thEvent 0x08 0x78 (b + 256 * old)
  match d.decidingTemp with
  | none => if d.rgB THM_STAT_NOVALID then go d 3 else go ((d.setB THM_STAT_NOVALID true).thDiag 3 0) 3
  | some t => go (d.setB THM_STAT_NOVALID false) (bandOf old t)

/-- The rate of one sensor (R445). -/
def Domain.rateCheck (d : Domain) (s : Nat) : Domain :=
  let win := if d.rgN THM_CTL_RRWIN = 0 then 1 else satN 16 (d.rgN THM_CTL_RRWIN)
  let h := sget [] d.thm.hist s
  let lim := d.rgN (THM_RRLIM_RRLIM s)
  let above := !d.suspect s && decide (lim ≠ 0) && decide (win ≤ h.length)
    && decide ((lim * (16 * win) : Nat) < (d.temp s - h.getD (win - 1) 0) * 1000)
  let was := d.thm.exc.getLsbD s
  let e := BitVec.ofNat 3 (2 ^ s)
  let d := d.setThm (fun t => { t with hist := sset [] t.hist s ((d.temp s :: h).take 17)
                                       exc := if above then t.exc ||| e else t.exc &&& ~~~e })
  if above && !was then
    let d := (d.setB (THM_STAT_RRF.bit s) true).thDiag 4 s
    if d.rgB (THM_CTL_RRTRIP.bit s) then d.setThm (fun t => { t with tripReq := true }) else d
  else d

/-- SLOW_ROUND (R441 to R445): readings stored, then plausibility, band and rates. -/
def Domain.slowRound (d : Domain) (m : SlowRound) : Domain :=
  let seq := (d.thm.rounds + 1) % 16
  let d := (d.setThm (fun t => { t with rounds := t.rounds + 1 })).setN THM_STAT_SEQ seq
  let d := (d.sensors.map (fun s => (s, [m.t0, m.t1, m.t2].getD s 0))).foldl (Domain.reading seq) d
  let d := (d.set THM_SUP0_VNVM (m.vnvm.setWidth 32)).set THM_SUP0_VCORE (m.vcore.setWidth 32)
  let d := (d.set THM_SUP1_VIO (m.vio.setWidth 32)).set THM_SUP2_VRING (m.vring.setWidth 32)
  let d := if d.id = 4 then d else d.set THM_SUP1_VANA (m.vana.setWidth 32)
  let d := if d.id = 4 then d
    else d.sensors.foldl (Domain.plausible (median3 (d.temp 0) (d.temp 1) (d.temp 2))) d
  d.sensors.foldl Domain.rateCheck d.bandUpdate

/-- Entry r of ADC_HKSEL; those above 23 convert ground (R271). -/
def hkEntry (bank : List (Nat × Word)) (r : Nat) : Nat := (fget (rget bank ADC_HKSEL_CNT.reg) (5 * r + 4) (5 * r)).toNat

/-- The conversions of ADC_HKSEL that follow in a channel (R266). -/
def Channel.hkRound (c : Channel) (m : SlowRound) : Channel :=
  ((List.range 4).zip [m.hk0, m.hk1, m.hk2, m.hk3]).foldl (fun c x =>
    if x.1 < c.lvN ADC_HKSEL_CNT then
      ((c.set (ADC_HKRES_CODE x.1) (if (hkEntry c.live x.1) < 24 then x.2.setWidth 32 else 0)).setN (ADC_HKRES_SEQ x.1) (c.rgN THM_STAT_SEQ)).setB
        (ADC_HKRES_INVALID x.1) (!c.rgB ADC_STAT_REF_READY)
    else c) c

/-- The first hardware part of THERMAL_SHUTDOWN (R446): SDCNT, SENSOR and LAST; the shutdown enters the wear record
(R448). -/
def Domain.noteShutdown (d : Domain) (s : Nat) : Domain :=
  let d := (d.setN THM_SDSTAT_SENSOR s).setN THM_SDSTAT_LAST (d.rgN (THM_TEMP_T s))
  { d.count THM_SDSTAT_SDCNT with spr := { d.spr with counts := sset 0 d.spr.counts 0 (sget 0 d.spr.counts 0 + 1) } }

/-- An automatic restart is allowed (R447). -/
def Domain.mayRestart (d : Domain) : Bool :=
  d.rs.thermal && decide (d.rgN THM_SDSTAT_SDCNT ≤ d.rgN THM_SDCFG_SDMAX)

/-- A write of THM_SDCFG: SDCLR clears SDCNT, SDMAX is stored (R447, R463). -/
def Domain.writeSdcfg (d : Domain) (w : Word) : Domain :=
  let d := d.set THM_SDCFG_SDMAX (fget w 3 0)
  if bitOf w 8 then d.setN THM_SDSTAT_SDCNT 0 else d

/-! ## Memory rows (R454, R455) -/

/-- The repairable memory and row of a memory key: 0 SRAM, 1 Cascade program, 2 Cascade data, 3 Weir program (rows of
1 KiB each), 4 NVM, rows counted through code bank A, code bank B and the data region (R454, R495). -/
def rowAt (host : Bool) (a : Nat) : Option (Nat × Nat) :=
  let bank := if host then 1536 else 3072
  if 0x10000000 ≤ a ∧ a < 0x20000000 then some (0, (a - 0x10000000) / 1024)
  else if 0x20000000 ≤ a ∧ a < 0x30000000 then some (4, 2 * bank + (a - 0x20000000) / 1024)
  else if 0x50000000 ≤ a ∧ a < 0x50010000 then some (1, (a - 0x50000000) / 1024)
  else if 0x50010000 ≤ a ∧ a < 0x50020000 then some (2, (a - 0x50010000) / 1024)
  else if 0x51000000 ≤ a ∧ a < 0x51010000 then some (3, (a - 0x51000000) / 1024)
  else if 0x80000000 ≤ a ∧ a < 0x81000000 then some (4, (a - 0x80000000) / 1024)
  else if 0x81000000 ≤ a ∧ a < 0x82000000 then some (4, bank + (a - 0x81000000) / 1024)
  else none

def RowMem.idx : RowMem → Nat
  | .sram => 0 | .casProg => 1 | .casData => 2 | .weirProg => 3

/-- Spare rows of a memory (R449). -/
def spareRows (m : Nat) : Nat := if m = 0 then 40 else 4

/-- Spare rows left: those neither in use nor being filled. -/
def Domain.sparesLeft (d : Domain) (m : Nat) : Nat :=
  spareRows m - ((d.spr.fixed.filter (fun r => r.1 == m)).length + (d.spr.fixing.filter (fun r => r.1 == m)).length)

/-- The counts that SPR_ROWS and, in the host domain, BOOT_ROWS show (R464, R519). -/
def Domain.refreshRows (d : Domain) : Domain :=
  let used := fun (m : Nat) => (d.spr.fixed.filter (fun r => r.1 == m)).length
  let d := d.setN SPR_ROWS_SRAMSP (40 - used 0)
  let d := if d.id = 4 then d else d.setN SPR_ROWS_PMSP (12 - (used 1 + used 2 + used 3))
  let d := if d.id = 4 then d.setN BOOT_ROWS_LIST d.spr.list.length else d
  d.setN SPR_ROWS_NVMPEND d.spr.list.length

/-- EV_SPR for a row: the spec gives a row no index number, so the index is a free value (log 3). -/
def Domain.evRow (d : Domain) (kind action : Nat) : Domain :=
  (d.free 60).2.evSpr kind action ((d.free 60).1.toNat % 32)

/-- A row's table entry after one more correctable error (R454): its new count, and the table with the entry last; a
new row in a full table takes the entry with the lowest count, the oldest among equals. -/
def rowCounted (t : List RowCount) (row : Nat) : Nat × List RowCount :=
  match t.find? (fun x => x.row == row) with
  | some x => (x.n + 1, t.filter (fun y => y.row != row) ++ [⟨row, x.n + 1⟩])
  | none =>
    if t.length < 64 then (1, t ++ [⟨row, 1⟩])
    else
      let low := t.foldl (fun m y => min m y.n) (t.headD ⟨0, 0⟩).n
      match t.find? (fun y => y.n == low) with
      | some v => (1, t.filter (fun y => y.row != v.row) ++ [⟨row, 1⟩])
      | none => (1, t ++ [⟨row, 1⟩])

/-- A row repair starts if it is allowed, a spare remains and none runs for the row (R454). -/
def Domain.startRepair (d : Domain) (m row : Nat) : Domain :=
  if d.rgB SPR_CTL_SRAMREP && decide (0 < d.sparesLeft m) && !d.spr.fixing.contains (m, row) then
    d.setSpr (fun s => { s with fixing := s.fixing ++ [(m, row)], hard := s.hard.filter (fun r => r != (m, row)) })
  else d

/-- CEROW; 0 acts as 1. -/
def Domain.cerow (d : Domain) : Nat := if d.rgN SPR_LIM_CEROW = 0 then 1 else d.rgN SPR_LIM_CEROW


/-- A row joins the NVM repair list; a full list is told with action 0x3 (R455). -/
def Domain.listRow (d : Domain) (row : Nat) : Domain :=
  if d.spr.list.contains row then d
  else if d.spr.list.length < 32 then
    (d.setSpr (fun s => { s with list := s.list ++ [row] })).refreshRows.evRow 8 5
  else d.evRow 8 3

/-- A write of SPR_CTL or SPR_LIM, CEROW having been `old`, makes rows due for repair: those whose errors already reach
CEROW, and those with an uncorrectable error (R454, R455). -/
def Domain.repairDue (old : Nat) (d : Domain) : Domain :=
  let d := [0, 1, 2, 3].foldl (fun d m => (sget [] d.spr.rows m).foldl (fun (d : Domain) x =>
    if d.cerow ≤ x.n then d.startRepair m x.row else d) d) d
  let d := d.spr.hard.foldl (fun d x => d.startRepair x.1 x.2) d
  d.spr.nvm.foldl (fun d x => if d.cerow ≤ x.2 ∧ x.2 < old then d.listRow x.1 else d) d

/-- A correctable error in the word at a memory key (R406, R454, R455). -/
def Domain.noteCorrectable (d : Domain) (a : Nat) : Domain :=
  let d := d.bump 0x150 1
  match rowAt (d.id == 4) a with
  | none => d
  | some (m, row) =>
    if m = 4 then
      let n := sget 0 d.spr.nvm row + 1
      let d := d.setSpr (fun s => { s with nvm := sset 0 s.nvm row n })
      if n = d.cerow then d.listRow row else d
    else
      let r := rowCounted (sget [] d.spr.rows m) row
      let d := d.setSpr (fun s => { s with rows := sset [] s.rows m r.2 })
      if d.cerow ≤ r.1 then d.startRepair m row else d

/-- An uncorrectable error: the row is repaired now, or once a repair is allowed (R454). -/
def Domain.noteUncorrectable (d : Domain) (a : Nat) : Domain :=
  let d := d.bump 0x151 1
  match rowAt (d.id == 4) a with
  | none => d
  | some (m, row) =>
    if m = 4 then d
    else (d.setSpr (fun s => { s with hard := s.hard.filter (fun r => r != (m, row)) ++ [(m, row)] })).startRepair m row

/-- What a memory read reports (R406). -/
def Domain.noteEcc (d : Domain) (e : Ecc) (a : Nat) : Domain :=
  match e with
  | .clean => d
  | .correctable => d.noteCorrectable a
  | .uncorrectable => d.noteUncorrectable a

/-- ROW_REPAIR_DONE: the row's address maps to the spare row (R454). -/
def Domain.rowRepairDone (d : Domain) (m row : Nat) : Domain :=
  if d.spr.fixing.contains (m, row) then
    (d.setSpr (fun s => { s with
      fixing := s.fixing.filter (fun r => r != (m, row)), fixed := s.fixed ++ [(m, row)]
      hard := s.hard.filter (fun r => r != (m, row))
      rows := sset [] s.rows m ((sget [] s.rows m).filter (fun x => x.row != row)) })).refreshRows.evRow 7 1
  else d

/-- WEARALM: an indicator crossed its limit (R458). -/
def Domain.wearAlarm (d : Domain) : Domain := d.setB SPR_STAT_WEARALM true

/-- MARGIN_READ_PASS (R455, R458). -/
def Domain.marginPass (d : Domain) (failing : List Nat) : Domain :=
  if d.rgB SPR_CTL_MARGIN then
    let d := d.setN SPR_ROWS_MRFAIL (satN 255 failing.length)
    failing.foldl Domain.listRow (if failing.isEmpty then d else d.wearAlarm)
  else d

/-! ## Output stages (R450) -/

def Channel.mapDom (c : Channel) (f : Domain → Domain) : Channel := { c with dom := f c.dom }

/-- A trip request 14 from SPR or THM for the next cycle (R445, R450, R456). -/
def Channel.askTrip (c : Channel) : Channel := c.mapDom (·.setThm (fun t => { t with tripReq := true }))

/-- RBWIN; a value below 8 acts as 8. -/
def Channel.rbwin (c : Channel) : Nat := max 8 (c.rgN SPR_LIM_RBWIN)

/-- OUTPUT_STAGE_FAULT: in this cycle the ball has differed for RBWIN from a command whose level has not changed meanwhile,
with the present stage driving throughout (R450). -/
def Channel.stageFault (c : Channel) (x : Nat) : Channel :=
  let since := if x = 18 then c.pwm.genAt else sget 0 c.pwm.gateAt x / 32
  c.when (decide (x ≤ 18) && !c.rgB (SPR_GFAIL_FAIL.bit x) && decide (since + c.rbwin ≤ c.now)
      && decide (sget 0 c.dom.spr.stageAt x + c.rbwin ≤ c.now + 1))
    (·.mapDom (·.setSpr (fun s => { s with bad := s.bad ||| BitVec.ofNat 19 (2 ^ x) })))

/-- The stage that does not drive ball x drives it from this cycle on. -/
def Channel.otherStage (c : Channel) (x : Nat) : Channel :=
  (c.setB (SPR_GSTAGE_SPARE.bit x) (!c.rgB (SPR_GSTAGE_SPARE.bit x))).mapDom
    (·.setSpr (fun s => { s with stageAt := sset 0 s.stageAt x c.now }))

/-- The cycle after a stage fault: the other stage takes over, or the ball is declared faulty (R450). -/
def Channel.stageEdge (c : Channel) (x : Nat) : Channel :=
  c.when (c.dom.spr.bad.getLsbD x) fun c =>
    let c := c.mapDom (·.setSpr (fun s => { s with bad := s.bad &&& ~~~(BitVec.ofNat 19 (2 ^ x)) }))
    if c.rgB (SPR_GRET_RET.bit x) then
      let c := (c.setB (SPR_GFAIL_FAIL.bit x) true).mapDom (·.evSpr 3 3 x)
      if c.rgB SPR_CTL_BALLTRIP then c.askTrip else c
    else ((c.otherStage x).setB (SPR_GRET_RET.bit x) true).mapDom (·.evSpr 3 1 x)

/-- The command of output stage x has been low in cycles c − 4 to c (R450). -/
def Channel.stageLow (c : Channel) (x : Nat) : Bool :=
  if x = 18 then !c.gen && !c.pwm.genWas && decide (c.pwm.genAt = 0 ∨ c.pwm.genAt + 4 ≤ c.now)
  else !c.pwm.gate.getLsbD x && decide (sget 0 c.pwm.gateAt x = 0 ∨ sget 0 c.pwm.gateAt x / 32 + 4 ≤ c.now)

/-- A change of output stage x is wanted, for wear or by SPR_CMD, and the command has been low (R450). -/
def Channel.changeWanted (c : Channel) (x : Nat) : Bool :=
  c.dom.spr.change.getLsbD x && !c.rgB (SPR_GRET_RET.bit x) && c.stageLow x

/-- A change of output stage named for wear or by SPR_CMD is made (R450). -/
def Channel.stageChange (c : Channel) (x : Nat) : Channel :=
  (c.otherStage x).mapDom (fun d =>
    (d.setSpr (fun s => { s with change := s.change &&& ~~~(BitVec.ofNat 19 (2 ^ x)) })).evSpr 3 2 x)

/-- The stress count of the stage that drives x. -/
def Channel.stressFld (c : Channel) (x : Nat) : Fld :=
  if c.rgB (SPR_GSTAGE_SPARE.bit x) then SPR_OXSS_COUNT x else SPR_OXS_COUNT x

/-- One cycle of stress on a ball that is high: 400,000,000 weighted cycles make a stress-second, a cycle of the RC oscillator
counting as four (R410, R458; log 15). -/
def Channel.stressTick (c : Channel) (x : Nat) : Channel :=
  let high := if x = 18 then c.gen else c.pwm.gate.getLsbD x
  if high then
    let w := if c.rgN THM_STAT_BAND ≤ 1 then 1 else if c.rgN THM_STAT_BAND = 2 then 2 else 8
    let w := if c.rgB PLL_STAT_RC then 4 * w else w
    let k := 2 * x + (if c.rgB (SPR_GSTAGE_SPARE.bit x) then 1 else 0)
    let n := sget 0 c.dom.spr.stress k + w
    let c := c.mapDom (·.setSpr (fun s => { s with stress := sset 0 s.stress k (n % 400000000) }))
    if n < 400000000 then c
    else
      let before := c.rgN (c.stressFld x)
      let c := c.count (c.stressFld x)
      if before < c.rgN SPR_OXLIM_OXLIM ∧ c.rgN SPR_OXLIM_OXLIM ≤ c.rgN (c.stressFld x) then
        let c := c.mapDom Domain.wearAlarm
        if c.rgB SPR_CTL_OXPOL && !c.rgB (SPR_GRET_RET.bit x) then
          c.mapDom (·.setSpr (fun s => { s with change := s.change ||| BitVec.ofNat 19 (2 ^ x) }))
        else c.mapDom (·.evSpr 3 4 x)
      else c
  else c

/-! ## Comparators (R451) -/

/-- A comparator is enabled: FC0 to FC3 by EN, those of Cn_VDC by VDCEN (R263, R372). -/
def Channel.cmpEnabled (c : Channel) (k : Nat) : Bool :=
  if k < 4 then c.lvB (ADC_FCMP_EN k) else c.lvB GDI_CTL_VDCEN

/-- Each slow round the next enabled comparator with a free spare cell goes under test (R451). -/
def Channel.cmpTestStart (c : Channel) : Channel :=
  c.when (c.rgB SPR_CTL_CMPTEST && c.dom.spr.test.isNone) fun c =>
    match ((List.range 7).map (fun i => (c.dom.spr.next + i) % 7)).find?
        (fun k => c.cmpEnabled k && !c.rgB (SPR_CMP_SPARE.bit k)) with
    | none => c
    | some k =>
      (c.setB (SPR_CMP_TESTING.bit k) true).mapDom (·.setSpr (fun s => { s with
        test := some (k, c.now), next := (k + 1) % 7 }))

/-- The test on comparator k is over. -/
def Channel.cmpTestEnd (c : Channel) (k : Nat) : Channel :=
  (c.setB (SPR_CMP_TESTING.bit k) false).mapDom (·.setSpr (fun s => { s with test := none }))

/-- COMPARATOR_TEST_DONE: the working cell is reconnected, or retired with the spare cell in service (R451, R458). -/
def Channel.cmpTestDone (c : Channel) (offset : BitVec 16) (found : Bool) : Channel :=
  match c.dom.spr.test with
  | none => c
  | some (k, s) =>
    c.when (decide (s + 4009 ≤ c.now)) fun c =>
      let c := (c.cmpTestEnd k).set (SPR_CMPOFF_WORK k) (offset.setWidth 32)
      let beyond := decide (c.rgN SPR_LIM_CMPOLIM * 5 < offset.toInt.natAbs)
      if !found || beyond then
        let c := c.setB (SPR_CMP_SPARE.bit k) true
        c.mapDom (fun d =>
          let d := d.setSpr (fun s => { s with cmpRet := s.cmpRet ||| BitVec.ofNat 7 (2 ^ k) })
          (if beyond then d.wearAlarm else d).evSpr 4 1 k)
      else c

/-- A commit that changes a comparator under test abandons the test (R451). -/
def Channel.commitCmpTest (old : List (Nat × Word)) (c : Channel) : Channel :=
  match c.dom.spr.test with
  | none => c
  | some (k, _) =>
    let changed := fun (f : Fld) => fld old f != c.lv f
    let p :=
      if k < 4 then rget old (ADC_FCMP_EN k).reg != rget c.live (ADC_FCMP_EN k).reg
      else changed GDI_CTL_VDCEN || (if k = 4 then brkOn old != brkOn c.live
        else if k = 5 then changed GDI_OVTH_OV2TH || changed GDI_OVTH_OV2HYS else changed GDI_DSCHLO_DLOTH)
    if p then c.cmpTestEnd k else c

/-! ## Converter drift (R457, R458) -/

/-- A mean of weight 2^−10 after one more value (R458): the exact mean of the field lies between the second and the third
of the four values, and which one the field takes is free (log 15). -/
def driftMean (old x : Int) (choice : Nat) : Int := satS 16 (Int.fdiv (1023 * old + x) 1024 - 1 + (choice % 4 : Nat))

/-- One drift field of converter p takes a new value into its mean; crossing its limit sets WEARALM, and a wear-driven
substitution is requested where R457 allows one. -/
def Channel.driftTo (c : Channel) (p : Nat) (f : Fld) (lim : Nat) (x : Int) : Channel :=
  let before := (c.dom.rgI f).natAbs
  let c := c.set f (wordOfInt (driftMean (c.dom.rgI f) x (Config.meanStep (c.rg f) x)))
  if lim ≠ 0 ∧ before ≤ lim ∧ lim < (c.dom.rgI f).natAbs then
    let c := c.mapDom Domain.wearAlarm
    match [0, 1, 2].find? (fun j => c.physOf j == p) with
    | some j =>
      if c.rgB SPR_CTL_CVPOL && c.rovMode == 2 && !c.rgB ADC_STAT_NOROVE then
        (c.askSub j).mapDom (·.evSpr 2 2 p)
      else c.mapDom (·.evSpr 2 4 p)
    | none => c.mapDom (·.evSpr 2 4 p)
  else c

/-- The drift of R458 from the check of the running group, when its first conversion is stored. -/
def Channel.driftCheck (c : Channel) (q : Sample) : Channel :=
  match c.storeDue with
  | none => c
  | some g =>
    c.when (decide (g.conv = 0)) fun c =>
      match g.check with
      | none => c
      | some .reference =>
        c.driftTo g.rover (SPR_CVDRIFT_OFFS g.rover) (c.rgN SPR_CVLIM_CVOLIM) (((roverCode q 24 : Int) - 32768) * 16)
      | some (.slot j) =>
        let i := seqEntry g.bank g.line j 0
        let p := g.phys.getD j 0
        let y := satS 16 (calibrate g.bank g.rover i (roverCode q i))
        let ys := satS 16 (calibrate g.bank p i (slotCode q j i))
        if ys.natAbs < 4096 then c.driftTo p (SPR_CVDRIFT_OFFS p) (c.rgN SPR_CVLIM_CVOLIM) ((y - ys) * 16)
        else if 8192 ≤ ys.natAbs then
          c.driftTo p (SPR_CVDRIFT_GAIN p) (c.rgN SPR_CVLIM_CVGLIM) (tdivZ ((y - ys) * 1000000) ys)
        else c

/-- A commit that changes a coefficient of converter p restarts p's means (R458). -/
def Channel.commitDrift (old : List (Nat × Word)) (c : Channel) (p : Nat) : Channel :=
  if (List.range 24).any (fun i => [(ADC_CGAIN_GAIN i p).reg, (ADC_COFFS_OFFS i p).reg].any
      (fun r => rget old r != rget c.live r)) then
    (c.setN (SPR_CVDRIFT_OFFS p) 0).setN (SPR_CVDRIFT_GAIN p) 0
  else c

/-! ## VCOs (R453, R458) -/

/-- A VCO lost lock while the reference was good: the second loss retires it (R453). -/
def Domain.vcoLoss (d : Domain) (v : Nat) : Domain :=
  let f := if v = 0 then SPR_VCO_LOSS0 else SPR_VCO_LOSS1
  let r := if v = 0 then SPR_VCO_RET0 else SPR_VCO_RET1
  let d := d.count f
  if decide (2 ≤ d.rgN f) && !d.rgB r then
    let d := (List.range 8).foldl (fun d i =>
      if d.rgN (PLL_HOP_VCO i) = v then d.setB (PLL_HOP_VALID i) false else d) (d.setB r true)
    d.evSpr 6 3 v
  else d

/-- The drift of a VCO's band after a search. The factory band is not in the spec, so the drift is a free value
(log 3). -/
def Domain.vcoDrift (d : Domain) (v : Nat) : Domain :=
  let f := if v = 0 then SPR_VCO_DRIFT0 else SPR_VCO_DRIFT1
  let before := (d.rgI f).natAbs
  let q := d.free 61
  let d := q.2.set f (fget q.1 7 0)
  let lim := d.rgN SPR_LIM_VCOBLIM
  if before ≤ lim ∧ lim < (d.rgI f).natAbs then d.wearAlarm.evSpr 6 4 v else d

/-! ## Live banks, the wear record and SPR_CMD -/

def Bank.idx : Bank → Nat
  | .weir => 0 | .pos => 1 | .adc => 2 | .pwm => 3 | .gdi => 4 | .cas => 5 | .safe => 6

/-- A register of a block's live bank shows a parity error: the value it shows stays in use, and it is reported (R152,
R456). -/
def Channel.liveParity (c : Channel) (b k : Nat) (v : Word) : Channel :=
  let f := SPR_STAT_LBPAR.bit b
  let c := { c with live := rput c.live k v }
  let c := if c.rgB f then c else (c.setB f true).mapDom (·.evSpr 9 6 b)
  if c.rgB SPR_CTL_LBTRIP then c.askTrip else c

/-- LIVE_BANK_PARITY_ERROR: in the live bank, or in the plan bank, where it refuses the commits that name the block until the
register is written again (R152, R159). An offset without an RWP field has no banks. -/
def Channel.bankParity (c : Channel) (b : Bank) (off : Nat) (plan : Bool) (v : Word) : Channel :=
  let k := 131072 + 65536 * Bank.idx b + off
  c.when (isPlanKey k) fun c =>
    if plan then { c with plan := rput c.plan k v, planBad := k :: c.planBad } else c.liveParity (Bank.idx b) k v

/-- The registers that the wear record keeps (R459). -/
def recordKeys : List Nat :=
  [SPR_GSTAGE_SPARE.reg, SPR_GRET_RET.reg] ++ (List.range 19).map (fun x => (SPR_OXS_COUNT x).reg)
    ++ (List.range 19).map (fun x => (SPR_OXSS_COUNT x).reg)

/-- The wear record is written (R459). -/
def Domain.saveRecord (d : Domain) : Domain :=
  d.setSpr (fun s => { s with
    record := recordKeys.foldl (fun m k => sset 0 m k (rget d.regs k)) [], recRows := s.fixed, recList := s.list
    saveReq := false })

/-- A save: made at once, or waiting while writes are inhibited; a failed save sets RECERR (R459). -/
def Domain.trySave (d : Domain) (inhibit ok : Bool) : Domain :=
  if inhibit then d.setSpr (fun s => { s with saveReq := true })
  else if ok then d.saveRecord else (d.setSpr (fun s => { s with saveReq := false })).setB SPR_STAT_RECERR true

/-- Boot phase B5 loads the record (R454, R459). -/
def Domain.loadRecord (d : Domain) : Domain :=
  let d := { d with regs := d.spr.record.foldl (fun m (x : Nat × Word) => rput m x.1 x.2) d.regs }
  (d.setSpr (fun s => { s with fixed := s.recRows, list := s.recList })).refreshRows

/-- A write of SPR_CMD (R464). -/
def Domain.sprCmd (d : Domain) (inhibit : Bool) (w : Word) : Domain :=
  let x := (fget w 4 0).toNat
  match (fget w 10 8).toNat with
  | 1 => if d.id ≠ 4 ∧ x ≤ 18 then d.setSpr (fun s => { s with change := s.change ||| BitVec.ofNat 19 (2 ^ x) }) else d
  | 2 => if d.id ≠ 4 ∧ x ≤ 6 then d.setB (SPR_CMP_SPARE.bit x) true else d
  | 3 => d.trySave inhibit true
  | _ => d

end Sys2Proof.Machine
end

