-- ==== Sys2Proof/Machine/Cpu.lean ====
section
/-! DEFINITION. Cpu.lean: what every Dziphor instruction shares (R116 to R145): the address maps, the protection unit,
fetching, exceptions, interrupts and returns, CSRs, retirement, and the issue and completion of memory accesses. -/

namespace Sys2Proof.Machine

/-! ## The address maps (R34, R41, R43) -/

/-- A region of a core's address map. -/
inductive Area where
  | code | rom | sram | nvm | blocks | windows | channels | ring | unmapped
deriving DecidableEq, Repr

def areaOf (host : Bool) (a : Nat) : Area :=
  if a < (if host then 0x180000 else 0x300000) then .code
  else if host && decide (0x08000000 ≤ a) && decide (a < 0x08010000) then .rom
  else if 0x10000000 ≤ a ∧ a < (if host then 0x10400000 else 0x10200000) then .sram
  else if 0x20000000 ≤ a ∧ a < (if host then 0x20500000 else 0x20200000) then .nvm
  else if !host && decide (0x40000000 ≤ a) && decide (a < 0x400F0000) then .blocks
  else if host && decide (0x41000000 ≤ a) && decide (a < 0x41070000) then .blocks
  else if host && decide (0x42000000 ≤ a) && decide (a < 0x42080000) then .channels
  else if !host && decide (0x50000000 ≤ a) && decide (a < 0x50020000) then .windows
  else if !host && decide (0x51000000 ≤ a) && decide (a < 0x51010000) then .windows
  else if 0x60000000 ≤ a ∧ a < 0x70000000 then .ring
  else .unmapped

def Area.executable : Area → Bool
  | .code | .rom | .sram => true
  | .nvm | .blocks | .windows | .channels | .ring | .unmapped => false

/-- Default attribute Normal; every other mapped region is Device-Relaxed. -/
def Area.normal : Area → Bool
  | .code | .rom | .sram | .nvm => true
  | .blocks | .windows | .channels | .ring | .unmapped => false

def Domain.host (d : Domain) : Bool := d.id == 4
def Domain.area (d : Domain) (a : Word) : Area := areaOf d.host a.toNat

/-- The code banks stand at keys of their own (R21, R24). -/
def bankKey (bank : Bool) (a : Nat) : Nat := (if bank then 0x81000000 else 0x80000000) + a

/-- The memory key of an address: the code window shows the bank that was booted. -/
def Domain.memKey (d : Domain) (a : Nat) : Nat :=
  if areaOf d.host a = .code then bankKey d.bank a else a

/-- The register key of an address in the block region, where the address is some register's (R35, R42, R47, R106, R175,
R461, R527). -/
def Domain.regKey (d : Domain) (a : Nat) : Nat :=
  if d.host then
    let o := a % 65536
    match (a - 0x41000000) / 65536 with
    | 0 => 0x100000 + o
    | 1 => 0x110000 + o
    | 2 => 0x120000 + o
    | 3 =>
      if o < 8 then o
      else if 0x100 ≤ o ∧ o < 0x200 then 0xB0000 + (o - 0x100)
      else if 0x200 ≤ o ∧ o < 0x400 then 0x90000 + (o - 0x200)
      else 0x130000 + o
    | 4 => if o < 0xC0 then 0x10000 + o else 0x1F0000
    | 5 => 0xC0000 + o
    | _ => if o < 0x4000 then 0xA0000 + o else 0xD0000 + (o - 0x4000)
  else a - 0x40000000

/-- The wear-record areas of R497 and R498, whose layout the spec does not give. -/
def inRecord (host : Bool) (a : Nat) : Bool :=
  if host then decide (0x20010000 ≤ a) && decide (a < 0x20030000) else decide (0x201C0000 ≤ a) && decide (a < 0x201E0000)

/-- `n` bytes of the boot ROM from `a` as one number (R4, R23). -/
def romRead (a : Nat) : Nat → Nat
  | 0 => 0
  | n + 1 => (Config.rom a).toNat + 256 * romRead (a + 1) n

/-- Read `n` bytes of memory; what the wear-record areas and the boot ROM hold is a free value (logs 3, 7). -/
def Domain.readMem (d : Domain) (a n : Nat) : Nat × Domain :=
  if inRecord d.host a then ((d.free 1).1.toNat % 256 ^ n, (d.free 1).2)
  else if areaOf d.host a = .rom then (romRead a n, d)
  else (memRead d.mem (d.memKey a) n, d)

/-- The instruction word at an address. -/
def Domain.codeWord (d : Domain) (a : Word) : Word :=
  if d.area a = .rom then BitVec.ofNat 32 (romRead a.toNat 4) else memWord d.mem (d.memKey a.toNat)

/-! ## The protection unit (R141) -/

/-- The enabled region with the highest index that holds an address. -/
def Core.region (x : Core) (a : Word) : Option Nat :=
  (List.range 16).reverse.find? (fun k =>
    bitOf (sget 0 x.mpuBase k) 0 && decide ((fget (sget 0 x.mpuBase k) 31 8).toNat ≤ (fget a 31 8).toNat)
      && decide ((fget a 31 8).toNat ≤ (fget (sget 0 x.mpuLim k) 31 8).toNat))

/-- The permission bit of an access: 0 read, 1 write, 2 execute. -/
def Core.permits (x : Core) (bit : Nat) (a : Word) : Bool :=
  if bitOf x.mpuCtl 0 then
    match x.region a with
    | some k => bitOf (sget 0 x.mpuLim k) (if x.priv = .user then bit + 3 else bit)
    | none => decide (x.priv = .system)
  else true

/-- The attribute of an access. -/
def Core.attrOf (x : Core) (normal : Bool) (a : Word) : Attr :=
  let dflt := if normal then Attr.normal else Attr.deviceRelaxed
  if bitOf x.mpuCtl 0 then
    match x.region a with
    | some k =>
      match (fget (sget 0 x.mpuLim k) 7 6).toNat with
      | 0 => dflt
      | 1 => if normal then .normalOrdered else .deviceOrdered
      | 2 => .deviceRelaxed
      | _ => .deviceOrdered
    | none => dflt
  else dflt

def Attr.device : Attr → Bool
  | .normal | .normalOrdered => false
  | .deviceRelaxed | .deviceOrdered => true

def Attr.ordered : Attr → Bool
  | .normal | .deviceRelaxed => false
  | .normalOrdered | .deviceOrdered => true

/-! ## Registers and status -/

/-- g0 reads as zero (R116). -/
def Core.rd (x : Core) (r : GReg) : Word := if r = 0 then 0 else sget 0 x.g r.toNat

/-- A write to g0 is discarded (R116). -/
def Core.wr (x : Core) (r : GReg) (v : Word) : Core := if r = 0 then x else { x with g := sset 0 x.g r.toNat v }

def Core.ie (x : Core) : Bool := bitOf x.status 1
def Core.exl (x : Core) : Bool := bitOf x.status 5
def Core.nexl (x : Core) : Bool := bitOf x.nstatus 31
def Core.ipl (x : Core) : Nat := (fget x.status 9 6).toNat

def privBit (p : Priv) : Word := ofB (decide (p = .system))
def privOf (w : Word) : Priv := if w = 0 then .user else .system

/-- What STATUS stores: reserved bits read as zero, and an IPL above 8 is stored as 8 (R122). -/
def statusStored (w : Word) : Word :=
  let v := w &&& 0x3FF6
  if 8 < (fget v 9 6).toNat then fput v 9 6 8 else v

/-- Attribute an occurrence to the instruction at an address (R524). -/
def Domain.occAt (d : Domain) (e : Eng) (pc : Word) (waited : Bool) : Occ :=
  ⟨pc, d.codeWord pc, 0, if waited then d.time - (d.core e).since else Config.latency d.time pc⟩

/-- One occurrence of an execution item of a core. Both engines of a comparing pair execute the instruction, so each
counts it (R120, R520). -/
def Domain.coreItem (d : Domain) (e : Eng) (j : Nat) (o : Occ) : Domain :=
  let d' := d.item e.idx j o
  match d.shadow with
  | some h => if d.paired && d.main == some e then d'.item h.idx j o else d'
  | none => d'

/-! ## Entries and returns (R135 to R140) -/

/-- What every entry leaves behind: the reservation is lost (R127), a wait is abandoned, and with it the ring load it
stood for (R140). -/
def Core.entered (x : Core) : Core := { x.flush with rsv := none }

/-- Entry to the maskable path (R135). -/
def Core.enterMask (x : Core) (cause value offset : Word) (ipl : Option Nat) : Core :=
  let st := fput (fput (fput x.status 2 2 (ofB x.ie)) 1 1 0) 4 4 (privBit x.priv)
  let st := fput st 13 10 (fget x.status 9 6)
  let st := match ipl with | some n => fput st 9 6 (BitVec.ofNat 32 n) | none => st
  { x.entered with
    epc := x.pc, cause := cause, xval := value, status := fput st 5 5 1, priv := .system, pc := x.vbase + offset }

/-- Entry to the non-maskable path (R136). -/
def Core.enterNmi (x : Core) (ncause : Word) : Core :=
  let ns := fput (fput (fput x.nstatus 13 0 x.status) 31 31 1) 14 14 (privBit x.priv)
  { x.entered with
    nepc := x.pc, ncause := ncause, nstatus := ns, status := fput (fput x.status 1 1 0) 5 5 1, priv := .system
    pc := x.vbase + 0x240 }

/-- An entry joins the replay log with its retired-instruction count and cause (R397). -/
def Domain.logEntry (d : Domain) (e : Eng) (cause : Word) : Domain :=
  d.logRec e .entry (BitVec.ofNat 32 (d.core e).retired) cause

/-- The step that debug asked of an engine is done; after the last one CAUSE is 5 (R531, R534). -/
def Domain.stepped (d : Domain) (e : Eng) : Domain :=
  if d.dbg.stepping.contains e then
    let d := { d with dbg := { d.dbg with stepping := d.dbg.stepping.erase e } }
    if d.dbg.stepping.isEmpty then d.setN DBG_STAT_CAUSE 5 else d
  else d

/-- The trip notification is taken (R136, R138). -/
def Domain.takeTrip (d : Domain) (e : Eng) : Domain :=
  let o := d.occAt e (d.core e).pc false
  (((d.logEntry e 0x80000008).mapCore e (·.enterNmi 0)).coreItem e 11 o).stepped e

/-- An exception is raised (R134 to R138): a pending trip notification goes first; a second exception enters the
non-maskable path as a double fault; one in the non-maskable handler stops the core. -/
def Domain.exception (d : Domain) (e : Eng) (code : Nat) (value : Word) : Domain :=
  let x := d.core e
  let o := d.occAt e x.pc false
  if x.nexl then (d.coreItem e 9 o).stopCore e
  else if d.tripPending e && !d.replays e then d.takeTrip e
  else if x.exl then
    ((d.mapCore e (fun x => { x.enterNmi (0x80000000 + BitVec.ofNat 32 code) with xval := value })).coreItem e 9 o).stepped e
  else ((d.mapCore e (·.enterMask (BitVec.ofNat 32 code) value 0 none)).coreItem e 9 o).stepped e

/-- An interrupt or trip can be taken at this boundary: the core waits for nothing, or for something that may be
abandoned (R140). -/
def Wait.abandons : Wait → Bool
  | .none | .fence _ | .idle | .evWait _ _ _ | .evFence _ | .ring _ | .result _ | .full => true
  | .commit _ | .load _ => false

/-- The core stands at an instruction boundary and may take an interrupt; during a debug step only with STEPIE = 1
(R140, R531). -/
def Domain.atBoundary (d : Domain) (e : Eng) : Bool :=
  d.runs e && (d.core e).wait.abandons && (!d.dbg.halted || d.rgB DBG_CTL_STEPIE)

/-- A maskable interrupt of level p passes (R138). -/
def Core.takes (x : Core) (p : Nat) : Bool := x.ie && !x.exl && !x.nexl && decide (x.ipl ≤ p)

/-- The maskable interrupt that is taken at this boundary: the highest level pending, unless a trip notification goes first
(R138); during a replay the logged one (R398). -/
def Domain.dueLevel (d : Domain) (e : Eng) : Option Nat :=
  if d.replays e then (d.entryDue e).bind (fun w => if bitOf w 31 && !bitOf w 3 then some (fget w 2 0).toNat else none)
  else if d.tripPending e && !(d.core e).nexl then none
  else (d.topLevel e).bind (fun p => if (d.core e).takes p then some p else none)

/-- INTERRUPT_ENTRY (R135, R138, R139). The value XVAL receives is not stated for an interrupt: a free value (log 3). -/
def Domain.interruptEntry (d : Domain) (e : Eng) : Domain :=
  match d.dueLevel e with
  | none => d
  | some p =>
    if d.atBoundary e then
      let o := d.occAt e (d.core e).pc false
      let q := (d.logEntry e (0x80000000 + BitVec.ofNat 32 p)).free 2
      (q.2.mapCore e (·.enterMask (0x80000000 + BitVec.ofNat 32 p) q.1 (BitVec.ofNat 32 (0x40 + 0x40 * p))
        (some (p + 1)))).coreItem e 10 o
    else d

/-- The trip notification is taken at this boundary (R137); during a replay the logged one (R398). -/
def Domain.tripDue (d : Domain) (e : Eng) : Bool :=
  if d.replays e then d.entryDue e == some 0x80000008 else d.tripPending e && !(d.core e).nexl

/-- TRIP_NOTIFICATION_ENTRY (R136, R137). -/
def Domain.tripEntry (d : Domain) (e : Eng) : Domain :=
  if d.atBoundary e && d.tripDue e then d.takeTrip e else d

/-- A posted store's bus error is taken as exception 0x07; it joins the replay log with its address (R134, R397, log 13). -/
def Domain.takePosted (d : Domain) (e : Eng) (a : Word) : Domain :=
  ((d.logEntry e 7).logRec e .fault a 7).exception e 7 a

/-- POSTED_STORE_BUS_ERROR: the oldest failed posted store is taken as exception 0x07, unless a trip notification goes
first, which leaves it pending (R134, R138). -/
def Domain.postedError (d : Domain) (e : Eng) : Domain :=
  let x := d.core e
  if d.replays e then
    match d.lsc.replay with
    | some (_ :: r :: _) => if d.entryDue e = some 7 ∧ d.runs e = true then d.takePosted e r.a else d
    | _ => d
  else
    match x.postedErrs with
    | [] => d
    | a :: rest =>
      if d.runs e && x.wait.abandons && !x.exl && !x.nexl && !d.tripPending e then
        (d.mapCore e (fun x => { x with postedErrs := rest })).takePosted e a
      else d

/-- RETM (R135). -/
def Core.retm (x : Core) : Core :=
  let st := fput (fput (fput x.status 1 1 (fget x.status 2 2)) 9 6 (fget x.status 13 10)) 5 5 0
  { x with pc := x.epc, status := statusStored st, priv := privOf (fget x.status 4 4) }

/-- RETN (R136). -/
def Core.retn (x : Core) : Core :=
  { x with
    pc := x.nepc, status := statusStored (fget x.nstatus 13 0), priv := privOf (fget x.nstatus 14 14)
    nstatus := fput x.nstatus 31 31 0 }

/-! ## Fetching and retiring -/

/-- The exception that the fetch at pc raises, with its value (R124, R133, R134, R141): protection, bus, a program counter
off its boundary (log 17), ECC, an illegal word. -/
def Domain.fetchFault (d : Domain) (e : Eng) (f : Fetch) : Option (Nat × Word) :=
  let x := d.core e
  if !x.permits 2 x.pc then some (0x08, x.pc)
  else if !(d.area x.pc).executable then some (0x01, x.pc)
  else if fget x.pc 1 0 ≠ 0 then some (0x04, x.pc)
  else match f with
    | .ecc => some (0x0E, x.pc)
    | .illegal => some (0x02, d.codeWord x.pc)
    | .good => none

/-- An enabled breakpoint stands at an engine's instruction, and the engine has not halted before it yet (R533, log 32). -/
def Domain.atBreak (d : Domain) (e : Eng) (k : Nat) : Bool :=
  let pc := (d.core e).pc
  d.rgB (DBG_BP_EN k) && fget pc 31 2 == d.rg (DBG_BP_ADDR k) && !d.dbg.past.contains (e, pc)

def Domain.breakDue (d : Domain) (e : Eng) : Bool := (List.range 4).any (d.atBreak e)

/-- The engine has executed an instruction since it halted. -/
def Domain.passed (d : Domain) (e : Eng) : Domain :=
  { d with dbg := { d.dbg with past := d.dbg.past.filter (fun p => p.1 != e) } }

/-- An instruction retires: it counts, the reservation ages (R127), and a debug step ends. -/
def Domain.retireAt (d : Domain) (e : Eng) (pc : Word) (waited : Bool) : Domain :=
  let o := d.occAt e pc waited
  let age := fun (x : Core) => { x with
    retired := x.retired + 1, wait := Wait.none
    rsv := match x.rsv with | some (a, n + 1) => some (a, n) | _ => none }
  ((d.mapCore e age).coreItem e 0 o).passed e |>.stepped e

/-- What an instruction decides once it is fetched and its operands are there. -/
inductive Ins where
  | retire (d : Domain)
  | stay (d : Domain)
  | exc (code : Nat) (value : Word)

/-- The core goes on to the next instruction. -/
def Core.next (x : Core) : Core := { x with pc := x.pc + 4 }

/-- The core begins to wait. -/
def Domain.await (d : Domain) (e : Eng) (w : Wait) : Domain :=
  d.mapCore e (fun x => { x with wait := w, since := d.time })

/-- The outstanding load whose result an instruction needs or would overwrite (log 18). -/
def Core.awaits (x : Core) (uses : List GReg) : Option Nat :=
  (x.loads.find? (fun l => l.rd != 0 && uses.contains l.rd)).map (·.seq)

/-- One instruction of an engine: not admitted unless the engine executes and waits for nothing (log 2), nor at a breakpoint
before which it is to halt (R533), and during a replay not before an entry that the log holds there; then the fetch, the privilege, the operands, and the instruction
itself (R129, R133, R134, R398). -/
def Domain.insn (d : Domain) (e : Eng) (f : Fetch) (sys : Bool) (uses : List GReg) (body : Domain → Ins) : Domain :=
  let x := d.core e
  if d.runs e && decide (x.wait = .none) && !d.breakDue e && (d.entryDue e).isNone then
    match d.fetchFault e f with
    | some (c, v) => d.exception e c v
    | none =>
      if sys && decide (x.priv = .user) then d.exception e 3 (d.codeWord x.pc)
      else match x.awaits uses with
        | some n => d.await e (.result n)
        | none =>
          match body d with
          | .retire d' => d'.retireAt e x.pc false
          | .stay d' => d'
          | .exc c v => d.exception e c v
  else d

/-- A waiting instruction at pc completes with a change of its core. -/
def Domain.finish (d : Domain) (e : Eng) (f : Core → Core) : Domain :=
  let pc := (d.core e).pc
  (d.mapCore e (fun x => (f x).next)).retireAt e pc true

/-- rd := v, and on to the next instruction. -/
def Domain.result (d : Domain) (e : Eng) (rd : GReg) (v : Word) : Ins := .retire (d.mapCore e (fun x => (x.wr rd v).next))

/-- An instruction of three registers (R124, R125). -/
def Domain.rrr (d : Domain) (e : Eng) (f : Fetch) (rd rs1 rs2 : GReg) (op : Word → Word → Word) : Domain :=
  d.insn e f false [rd, rs1, rs2] fun d => d.result e rd (op ((d.core e).rd rs1) ((d.core e).rd rs2))

/-- An instruction of a register and an immediate (R124, R125). -/
def Domain.rri (d : Domain) (e : Eng) (f : Fetch) (rd rs1 : GReg) (op : Word → Word) : Domain :=
  d.insn e f false [rd, rs1] fun d => d.result e rd (op ((d.core e).rd rs1))

/-- A branch of R128. -/
def Domain.branch (d : Domain) (e : Eng) (f : Fetch) (rs1 rs2 : GReg) (off : BitVec 16) (p : Word → Word → Bool) : Domain :=
  d.insn e f false [rs1, rs2] fun d =>
    let x := d.core e
    if p (x.rd rs1) (x.rd rs2) then
      .retire ((d.mapCore e (fun x => { x with pc := x.pc + (off.signExtend 32 <<< 2) })).coreItem e 8
        (d.occAt e x.pc false))
    else .retire (d.mapCore e Core.next)

/-! ## CSRs (R121 to R123) -/

/-- What a CSR reads as; none for an unlisted number. -/
def Domain.csr (d : Domain) (e : Eng) (n : Nat) : Option Word :=
  let x := d.core e
  match n with
  | 0x000 => some x.status
  | 0x001 => some x.epc
  | 0x002 => some x.cause
  | 0x003 => some x.xval
  | 0x004 => some x.vbase
  | 0x005 => some x.xsave
  | 0x008 => some x.nstatus
  | 0x009 => some x.nepc
  | 0x00A => some x.ncause
  | 0x010 => some (BitVec.ofNat 32 d.time)
  | 0x011 => some x.timeh
  | 0x020 => some (d.coreId e)
  | 0x060 => some x.mpuCtl
  | _ =>
    if 0x040 ≤ n ∧ n ≤ 0x04F then some (sget 0 x.mpuBase (n - 0x040))
    else if 0x050 ≤ n ∧ n ≤ 0x05F then some (sget 0 x.mpuLim (n - 0x050))
    else none

/-- A write of a CSR: reserved bits stay zero, read-only CSRs stay as they are (R121, R122). -/
def Core.csrWrite (x : Core) (n : Nat) (w : Word) : Core :=
  match n with
  | 0x000 => { x with status := statusStored w }
  | 0x001 => { x with epc := w }
  | 0x002 => { x with cause := w &&& 0x800000FF }
  | 0x003 => { x with xval := w }
  | 0x004 => { x with vbase := w &&& 0xFFFFFC00 }
  | 0x005 => { x with xsave := w }
  | 0x008 => { x with nstatus := w &&& 0x80007FFF }
  | 0x009 => { x with nepc := w }
  | 0x00A => { x with ncause := w &&& 0x800000FF }
  | 0x060 => { x with mpuCtl := w &&& 1 }
  | _ =>
    if 0x040 ≤ n ∧ n ≤ 0x04F then { x with mpuBase := sset 0 x.mpuBase (n - 0x040) (w &&& 0xFFFFFF01) }
    else if 0x050 ≤ n ∧ n ≤ 0x05F then { x with mpuLim := sset 0 x.mpuLim (n - 0x050) w }
    else x

/-- CTL.SWAP, CTL.SET and CTL.CLR: the new value as a function of old value and rs1; `writes` is false for CTL.SET and
CTL.CLR with g0, which do not write (R121, R129). A read of TIME captures its upper half, a write of TIME or TIMEH returns
the old value and changes nothing, and what TIME and TIMEH give joins the replay log (R121, R122, R397). -/
def Domain.ctl (d : Domain) (e : Eng) (f : Fetch) (rd rs1 : GReg) (csr : BitVec 12) (writes : Bool)
    (op : Word → Word → Word) : Domain :=
  d.insn e f false [rd, rs1] fun d =>
    let x := d.core e
    let n := csr.toNat
    match d.csr e n with
    | none => .exc 2 (d.codeWord x.pc)
    | some live =>
      let time := n = 0x010 ∨ n = 0x011
      if x.priv = .user ∧ ¬(time ∧ writes = false) then .exc 3 (d.codeWord x.pc)
      else
        let v := x.rd rs1
        let old := if time then d.input e .value (BitVec.ofNat 32 n) live else live
        let d := if time then d.logRec e .value (BitVec.ofNat 32 n) old else d
        .retire (d.mapCore e fun x =>
          let x := if n = 0x010 ∧ writes = false then { x with timeh := BitVec.ofNat 32 (d.time / 4294967296) } else x
          let x := if writes then x.csrWrite n (op old v) else x
          (x.wr rd old).next)

/-! ## Control transfer and system instructions -/

/-- CALL (R128). -/
def Domain.call (d : Domain) (e : Eng) (f : Fetch) (rd : GReg) (off : BitVec 21) : Domain :=
  d.insn e f false [rd] fun d =>
    .retire ((d.mapCore e (fun x => { x.wr rd (x.pc + 4) with pc := x.pc + (off.signExtend 32 <<< 2) })).coreItem e 8
      (d.occAt e (d.core e).pc false))

/-- CALLR; a target off its boundary raises 0x04 and writes nothing (R128). -/
def Domain.callr (d : Domain) (e : Eng) (f : Fetch) (rd rs1 : GReg) (imm : BitVec 16) : Domain :=
  d.insn e f false [rd, rs1] fun d =>
    let t := (d.core e).rd rs1 + imm.signExtend 32
    if fget t 1 0 ≠ 0 then .exc 4 t
    else .retire ((d.mapCore e (fun x => { x.wr rd (x.pc + 4) with pc := t })).coreItem e 8
      (d.occAt e (d.core e).pc false))

/-- SYSREQ: exception 0x0B at User level, 0x0C at System level (R129, R133). -/
def Domain.sysreq (d : Domain) (e : Eng) (f : Fetch) : Domain :=
  d.insn e f false [] fun d => .exc (if (d.core e).priv = .user then 0x0B else 0x0C) 0

/-- DBGBRK: retires and requests a debug halt with DBRKEN = 1, otherwise exception 0x0D (R129, R531). -/
def Domain.dbgbrk (d : Domain) (e : Eng) (f : Fetch) : Domain :=
  d.insn e f false [] fun d =>
    if d.rgB DBG_CTL_DBRKEN then
      .retire { d.mapCore e Core.next with dbg := { d.dbg with want := some (d.dbg.want.getD 2) } }
    else .exc 0x0D 0

/-- RETM and RETN, System level only. -/
def Domain.returnBy (d : Domain) (e : Eng) (f : Fetch) (r : Core → Core) : Domain :=
  d.insn e f true [] fun d => .retire (d.mapCore e r)

/-- IDLE may retire: an interrupt that passes IPL is pending (R129), or a trip notification, also one that NEXL = 1 keeps
pending (DESIGN CHOICE, log 18); during a replay it waits for nothing. -/
def Domain.wakes (d : Domain) (e : Eng) : Bool :=
  d.replays e || d.tripPending e || (match d.topLevel e with | some p => decide ((d.core e).ipl ≤ p) | none => false)

/-- IDLE waits until it may wake, ignoring IE (R129); it joins the replay log as it retires (R397). -/
def Domain.idle (d : Domain) (e : Eng) (f : Fetch) : Domain :=
  d.insn e f true [] fun d =>
    if d.wakes e then .retire ((d.logRec e .effect 0 0).mapCore e Core.next) else .stay (d.await e .idle)

/-- IDLE_WAKE. -/
def Domain.idleWake (d : Domain) (e : Eng) : Domain :=
  if d.runs e && decide ((d.core e).wait = .idle) && d.wakes e then (d.logRec e .effect 0 0).finish e (fun x => x) else d

/-! ## Event waits (R129, R145) -/

/-- An enabled event's pending flag is set (R169). -/
def Domain.found (d : Domain) (ev : BitVec 7) : Bool := d.evBit EVT_PEND_PEND ev.toNat && d.evBit EVT_EN_EN ev.toNat

/-- EV.WAIT with limit rs2, 0 = test only. -/
def Domain.evWait (d : Domain) (e : Eng) (f : Fetch) (rd rs1 rs2 : GReg) : Domain :=
  d.insn e f false [rd, rs1, rs2] fun d =>
    let ev : BitVec 7 := ((d.core e).rd rs1).setWidth 7
    let lim := ((d.core e).rd rs2).toNat
    if d.replays e then
      let v := d.input e .wait (ev.setWidth 32) 0
      (d.logRec e .wait (ev.setWidth 32) v).result e rd v
    else if d.found ev then ((d.clearPending ev.toNat).logRec e .wait (ev.setWidth 32) 0).result e rd 0
    else if lim = 0 then (d.logRec e .wait (ev.setWidth 32) 1).result e rd 1
    else .stay (d.await e (.evWait ev (d.time + lim) rd))

/-- A pending interrupt or trip notification of this very event would be taken at this boundary: it abandons the wait
(R140, R172). -/
def Domain.waitLoses (d : Domain) (e : Eng) (ev : BitVec 7) : Bool :=
  d.atBoundary e && d.routed e ev.toNat && (d.tripDue e && d.pri ev.toNat == 8
    || (match d.dueLevel e with | some p => d.pri ev.toNat == p | none => false))

/-- EV_WAIT_SATISFIED. -/
def Domain.evWaitFound (d : Domain) (e : Eng) : Domain :=
  match (d.core e).wait with
  | .evWait ev _ rd =>
    if d.runs e && d.found ev && !d.waitLoses e ev then
      ((d.clearPending ev.toNat).logRec e .wait (ev.setWidth 32) 0).finish e (·.wr rd 0)
    else d
  | _ => d

/-- EV_WAIT_EXPIRY. -/
def Domain.evWaitExpiry (d : Domain) (e : Eng) : Domain :=
  match (d.core e).wait with
  | .evWait ev t rd =>
    if d.runs e && decide (t ≤ d.time) && !d.found ev then
      (d.logRec e .wait (ev.setWidth 32) 1).finish e (·.wr rd 1)
    else d
  | _ => d

/-- EV.FENCE to t = rs2 : rs1. -/
def Domain.evFence (d : Domain) (e : Eng) (f : Fetch) (rs1 rs2 : GReg) : Domain :=
  d.insn e f false [rs1, rs2] fun d =>
    let t := ((d.core e).rd rs2).toNat * 4294967296 + ((d.core e).rd rs1).toNat
    if d.replays e || d.watermarks t then .retire ((d.logRec e .wait 0x80 0).mapCore e Core.next)
    else .stay (d.await e (.evFence t))

/-- EV_FENCE_RETIRE. -/
def Domain.evFenceRetire (d : Domain) (e : Eng) : Domain :=
  match (d.core e).wait with
  | .evFence t => if d.runs e && d.watermarks t then (d.logRec e .wait 0x80 0).finish e (fun x => x) else d
  | _ => d

/-! ## Fences (R144) -/

/-- The address belongs to the ring window. -/
def inRing (a : Word) : Bool := decide (0x60000000 ≤ a.toNat) && decide (a.toNat < 0x70000000)

/-- A write there is a plan write: its register holds an RWP field (R141, terms). -/
def Domain.planAddr (d : Domain) (a : Word) : Bool :=
  d.area a == .blocks && (match rowOf (d.regKey a.toNat) with | some r => r.rwp != 0 | none => false)

/-- An access a fence of a mask waits for: bit 0 M, 1 D, 2 P, 3 N. -/
def Domain.fences (d : Domain) (mask : BitVec 4) (store : Bool) (a : Word) (attr : Attr) : Bool :=
  (mask.getLsbD 0 && !attr.device) || (mask.getLsbD 1 && attr.device && !inRing a)
    || (mask.getLsbD 2 && store && d.planAddr a) || (mask.getLsbD 3 && inRing a)

/-- Every earlier access of the classes has been performed. -/
def Domain.drained (d : Domain) (e : Eng) (mask : BitVec 4) : Bool :=
  let x := d.core e
  !x.loads.any (fun l => d.fences mask false l.addr l.attr)
    && !(x.stores ++ x.posted).any (fun s => d.fences mask true s.addr s.attr)

/-- A fence raises a pending exception 0x07 before it retires (R144, R485), once it may be taken (R134). During a replay
those that the log holds are the only ones. -/
def Domain.owes (d : Domain) (e : Eng) (mask : BitVec 4) : Bool :=
  let x := d.core e
  (mask.getLsbD 1 || mask.getLsbD 3) && !x.exl && !x.nexl && !x.postedErrs.isEmpty && !d.replays e

/-- A FENCE of a mask. -/
def Domain.fence (d : Domain) (e : Eng) (f : Fetch) (mask : BitVec 4) : Domain :=
  d.insn e f false [] fun d =>
    if d.drained e mask && !d.owes e mask then .retire (d.mapCore e Core.next) else .stay (d.await e (.fence mask))

/-- FENCE_RETIRE. A trip notification is taken before the exception that the fence raises, which stays pending (R138). -/
def Domain.fenceRetire (d : Domain) (e : Eng) : Domain :=
  match (d.core e).wait with
  | .fence mask =>
    if d.runs e && d.drained e mask then
      if d.owes e mask then (if d.tripPending e then d.takeTrip e else d.postedError e) else d.finish e (fun x => x)
    else d
  | _ => d

/-! ## Loads and stores (R126, R127, R132, R142, R143) -/

/-- Two accesses overlap. -/
def overlaps (a : Word) (n : Nat) (b : Word) (m : Nat) : Bool :=
  decide (a.toNat < b.toNat + m) && decide (b.toNat < a.toNat + n)

/-- A store into a region fails at once, before it is buffered: no such region, the code window or boot ROM, reserved
NVM, or NVM while writes are inhibited (R36, R84, R497, R498, R133 code 0x06; log 19). -/
def Domain.storeFails (d : Domain) (inhibit : Bool) (a : Word) : Bool :=
  match d.area a with
  | .code | .rom | .unmapped => true
  | .nvm =>
    inhibit || (if d.host then decide (a.toNat < 0x20030000) && d.rgB BOOT_STAT_DONE else decide (0x201C0000 ≤ a.toNat))
  | .sram | .blocks | .windows | .channels | .ring => false

/-- An address outside the memories whose stores are journaled and performed again in a replay (R397, R398). -/
def Domain.outside (d : Domain) (a : Word) : Bool := !(d.area a).normal

/-- A halt is asked for; the first cause asked for stays. -/
def Domain.askHalt (d : Domain) (cause : BitVec 3) : Domain :=
  { d with dbg := { d.dbg with want := some (d.dbg.want.getD cause) } }

/-- Watchpoint w against an access that retires: a halt is asked for (R533). -/
def Domain.watchpoint (d : Domain) (w : Nat) (store : Bool) (addr : Word) : Domain :=
  let kind := if store then d.rgB (DBG_WP_M_STORE w) else d.rgB (DBG_WP_M_LOAD w)
  let hit := fget (addr ^^^ d.rg (DBG_WP_A_ADDR w)) 31 2 &&& d.rg (DBG_WP_M_MASK w) == 0
  if kind && hit then
    let d := d.setB (DBG_STAT_WPHIT.bit w) true
    if d.dbg.halted then d else d.askHalt 4
  else d

/-- A load or store retires under the watchpoints. -/
def Domain.watched (d : Domain) (store : Bool) (addr : Word) : Domain :=
  let d := { d with cyc := { d.cyc with accesses := (store, addr) :: d.cyc.accesses } }
  (d.watchpoint 0 store addr).watchpoint 1 store addr

/-- Count a memory access under its items (R520). -/
def Domain.countAccess (d : Domain) (e : Eng) (j : Nat) (a : Word) (attr : Attr) : Domain :=
  let o := d.occAt e (d.core e).pc false
  let d := d.coreItem e j o
  let d := if attr.device then d.coreItem e 3 o else d
  let d := if inRing a then d.coreItem e 4 o else d
  if d.area a = .sram then d.bump 0x152 1 else if d.area a = .nvm then d.bump (if j = 1 then 0x153 else 0x154) 1 else d

/-- A load issues: Normal memory without waiting; a device or the ring waits for its result; a fifth outstanding load
waits for room (R126, R132). In a replay a value from outside comes from the log at once (R392, R398). -/
def Domain.load (d : Domain) (e : Eng) (f : Fetch) (rd rs1 : GReg) (imm : BitVec 16) (size : Nat) (signed : Bool) : Domain :=
  d.insn e f false [rd, rs1] fun d =>
    let x := d.core e
    let a := x.rd rs1 + imm.signExtend 32
    let attr := x.attrOf (d.area a).normal a
    if a.toNat % size ≠ 0 then .exc 4 a
    else if !x.permits 0 a then .exc 9 a
    else if d.area a = .unmapped then .exc 5 a
    else if d.outside a && d.replays e then
      let v := d.input e .value a 0
      match d.expected e with
      | some ⟨.fault, b, code⟩ =>
        if a = b then .stay ((d.logRec e .fault a code).exception e code.toNat a) else .stay d.diverge
      | _ => (d.logRec e .value a v).result e rd v
    else if 4 ≤ x.loads.length then .stay (d.await e .full)
    else
      let d := d.countAccess e 1 a attr
      let d := d.mapCore e (fun x => { x with
        seq := x.seq + 1, loads := x.loads ++ [⟨x.seq, x.pc, rd, a, size, signed, attr⟩] })
      if inRing a then .stay (d.await e (.ring x.seq))
      else if attr.device then .stay (d.await e (.load x.seq))
      else .retire ((d.mapCore e Core.next).watched false a)

/-- A store issues into the store buffer or, for a device, the posted-write queue, eight entries each (R126, R132). One
that leaves the memories joins the replay log, and is not performed again in a replay (R397, R398). -/
def Domain.store (d : Domain) (e : Eng) (f : Fetch) (inhibit : Bool) (rs2 rs1 : GReg) (imm : BitVec 16) (size : Nat) : Domain :=
  d.insn e f false [rs1, rs2] fun d =>
    let x := d.core e
    let a := x.rd rs1 + imm.signExtend 32
    let attr := x.attrOf (d.area a).normal a
    if a.toNat % size ≠ 0 then .exc 4 a
    else if !x.permits 1 a then .exc 10 a
    else if d.storeFails inhibit a then .exc 6 a
    else if 8 ≤ (if attr.device then x.posted else x.stores).length then .stay (d.await e .full)
    else
      let d := d.countAccess e 2 a attr
      let s : StoreReq := ⟨x.seq, a, size, x.rd rs2, attr⟩
      let again := d.outside a && d.replays e
      let d := if d.outside a then d.logRec e .effect a (x.rd rs2) else d
      .retire ((d.mapCore e fun x =>
        if again then x.next
        else if attr.device then { x with seq := x.seq + 1, posted := x.posted ++ [s] }.next
        else { x with seq := x.seq + 1, stores := x.stores ++ [s] }.next).watched true a)

/-- An access with order number n may be performed: no earlier access of the core overlaps it, and in an ordered
attribute no earlier ordered access is outstanding (R142, R143). A load forwards from an earlier store of its own to
Normal memory instead of waiting for it. -/
def Core.mayPerform (x : Core) (n : Nat) (a : Word) (size : Nat) (attr : Attr) (load : Bool) : Bool :=
  !x.loads.any (fun l => decide (l.seq < n) && (overlaps a size l.addr l.size || (attr.ordered && l.attr.ordered)))
    && !x.stores.any (fun s => decide (s.seq < n) && ((!load && overlaps a size s.addr s.size)
      || (attr.ordered && s.attr.ordered)))
    && !x.posted.any (fun s => decide (s.seq < n) && (overlaps a size s.addr s.size || (attr.ordered && s.attr.ordered)))

/-- A byte as a load sees it: the core's latest earlier store to it, or memory (R143). -/
def Core.forwarded (x : Core) (n a : Nat) (mem : Byte) : Byte :=
  x.stores.foldl (fun (b : Byte) (s : StoreReq) =>
    if s.seq < n ∧ s.addr.toNat ≤ a ∧ a < s.addr.toNat + s.size then
      (s.data >>> (8 * (a - s.addr.toNat))).setWidth 8
    else b) mem

/-- The value a load forms from its bytes. -/
def LoadReq.extend (l : LoadReq) (v : Nat) : Word :=
  if l.signed then wordOfInt (sgn (8 * l.size) v) else BitVec.ofNat 32 (v % 256 ^ l.size)

/-- A core that waited for room goes on when something left a queue. -/
def Wait.room (w : Wait) : Wait := if w = .full then .none else w

/-- A load leaves the queue with its value written, and what waited for it goes on: a device or ring load retires, a
stalled instruction may execute (R132). -/
def Domain.loadDone (d : Domain) (e : Eng) (l : LoadReq) (v : Word) : Domain :=
  let x := d.core e
  let d := d.mapCore e (fun x => { x with loads := x.loads.filter (fun m => m.seq != l.seq) })
  if x.wait = .load l.seq ∨ x.wait = .ring l.seq then (d.finish e (·.wr l.rd v)).watched false l.addr
  else d.mapCore e (fun x => { x.wr l.rd v with wait := if x.wait = .result l.seq then .none else x.wait.room })

/-- A load fails: its exception is taken with the load's own address in EPC, and it writes nothing (R133, R134). What
becomes of instructions that retired after a load that did not wait is not stated: their effects stay, a wait in progress
is dropped, and after the return they execute again (DESIGN CHOICE, log 18). -/
def Domain.loadFails (d : Domain) (e : Eng) (l : LoadReq) (code : Nat) : Domain :=
  let d := if d.outside l.addr then d.logRec e .fault l.addr (BitVec.ofNat 32 code) else d
  (d.mapCore e (fun x => { x with
    loads := x.loads.filter (fun m => m.seq != l.seq), wait := Wait.none, pc := l.pc })).exception e code l.addr

/-- A store leaves its queue. -/
def Domain.storeDone (d : Domain) (e : Eng) (posted : Bool) (s : StoreReq) : Domain :=
  let rest := fun (q : List StoreReq) => q.filter (fun m => m.seq != s.seq)
  d.mapCore e (fun x =>
    if posted then { x with posted := rest x.posted, wait := x.wait.room }
    else { x with stores := rest x.stores, wait := x.wait.room })

/-- A posted or buffered store failed: exception 0x07 becomes pending with its address (R134, R406). -/
def Domain.storeError (d : Domain) (e : Eng) (posted : Bool) (s : StoreReq) : Domain :=
  (d.storeDone e posted s).mapCore e (fun x => { x with postedErrs := x.postedErrs ++ [s.addr] })

/-- A store by another observer to a reserved word ends the reservation (R127). -/
def Domain.dropRsv (d : Domain) (by_ : Option Eng) (a : Nat) : Domain :=
  let f := fun (e : Eng) (x : Core) =>
    if by_ = some e then x
    else match x.rsv with
      | some (w, _) => if w = a / 4 * 4 then { x with rsv := none } else x
      | none => x
  let pair := d.paired && (by_ == d.main)
  { d with
    e0 := if pair && d.shadow == some .e0 then d.e0 else f .e0 d.e0
    e1 := if pair && d.shadow == some .e1 then d.e1 else f .e1 d.e1
    e2 := if pair && d.shadow == some .e2 then d.e2 else f .e2 d.e2 }

/-- A store of a core reaches memory: journaled when it goes to SRAM or data NVM (R397). -/
def Domain.writeMem (d : Domain) (e : Eng) (a n : Nat) (v : Word) : Domain :=
  let w := a / 4 * 4
  let old := memWord d.mem (d.memKey w)
  let d := { d with mem := memWrite d.mem (d.memKey a) n v.toNat }
  (d.logStore e w old).dropRsv (some e) a

/-! ## Atomics (R126, R127) -/

/-- The earlier accesses an atomic instruction waits for: all with ORDP, otherwise those that overlap its word or share
its ordered class. -/
def Core.atomWaits (x : Core) (ord : AtomOrder) (a : Word) (attr : Attr) : Bool :=
  let all := !x.loads.isEmpty || !x.stores.isEmpty || !x.posted.isEmpty
  (ord.ordp && all) || !x.mayPerform x.seq a 4 attr false

/-- An atomic instruction on the word at rs1: outside SRAM the bus error `code`, alignment and protection as for its
kind, and the read's ECC outcome; then `op` gives the word to store, if any, and the result, from the word read. -/
def Domain.atomic (d : Domain) (e : Eng) (f : Fetch) (rd rs1 : GReg) (uses : List GReg) (ord : AtomOrder) (reads writes : Bool)
    (op : Core → Word → Option Word × Word) : Domain :=
  d.insn e f false ([rd, rs1] ++ uses) fun d =>
    let x := d.core e
    let a := x.rd rs1
    let attr := x.attrOf (d.area a).normal a
    if a.toNat % 4 ≠ 0 then .exc 4 a
    else if reads && !x.permits 0 a then .exc 9 a
    else if writes && !x.permits 1 a then .exc 10 a
    else if d.area a ≠ .sram then .exc (if reads then 5 else 6) a
    else if x.atomWaits ord a attr then .stay (d.await e .full)
    else
      let d := if reads then d.noteEcc ord.ecc a.toNat else d
      if reads && decide (ord.ecc = .uncorrectable) then .stay (d.exception e 0x0E a)
      else
        let old := memWord d.mem a.toNat
        let r := op x old
        let d := d.countAccess e (if reads then 1 else 2) a attr
        let d := match r.1 with | some v => d.writeMem e a.toNat 4 v | none => d
        let d := d.mapCore e (fun x => (x.wr rd r.2).next)
        let d := if reads then d.watched false a else d
        .retire (if r.1.isSome then d.watched true a else d)

/-- LD.RSV reserves the word: the reservation outlives 32 more instructions (R127). -/
def Domain.ldRsv (d : Domain) (e : Eng) (f : Fetch) (rd rs1 : GReg) (ord : AtomOrder) : Domain :=
  let n := (d.core e).retired
  let a := ((d.core e).rd rs1).toNat
  let d' := d.atomic e f rd rs1 [] ord true false (fun _ old => (none, old))
  if (d'.core e).retired = n + 1 then d'.mapCore e (fun x => { x with rsv := some (a, 32) }) else d'

/-- ST.RSV stores only under a valid reservation of its word, and ends any reservation; its result joins the replay log
(R127, R397). -/
def Domain.stRsv (d : Domain) (e : Eng) (f : Fetch) (rd rs1 rs2 : GReg) (ord : AtomOrder) : Domain :=
  let n := (d.core e).retired
  let a := ((d.core e).rd rs1).toNat
  let holds := match (d.core e).rsv with | some (w, _) => w == a | none => false
  let ok := d.input e .value (BitVec.ofNat 32 a) (ofB holds)
  let d' := d.atomic e f rd rs1 [rs2] ord false true (fun x _ => (if ok = 1 then some (x.rd rs2) else none, ok))
  if (d'.core e).retired = n + 1 then
    (d'.logRec e .value (BitVec.ofNat 32 a) ok).mapCore e (fun x => { x with rsv := none })
  else d'

/-- An ATM operation: rd takes the word, and the word becomes the operation of word and rs2 (R126). -/
def Domain.atm (d : Domain) (e : Eng) (f : Fetch) (rd rs1 rs2 : GReg) (ord : AtomOrder) (op : Word → Word → Word) : Domain :=
  d.atomic e f rd rs1 [rs2] ord true true (fun x old => (some (op old (x.rd rs2)), old))

/-! ## Lockstep requests and checkpoints (R131, R396) -/

/-- LS.SPLIT and LS.JOIN: rd takes the status; an accepted request waits for its boundary. The status, which the core takes
from LSC, joins the replay log (R397, log 13). -/
def Domain.lsRequest (d : Domain) (e : Eng) (f : Fetch) (rd : GReg) (join : Bool) : Domain :=
  d.insn e f true [rd] fun d =>
    let live := d.splitStatus e join
    let v := d.input e .value 2 (BitVec.ofNat 32 live)
    let d := if live = 0 && !d.replays e then (if join then d.requestJoin else d.requestSplit) else d
    (d.logRec e .value 2 v).result e rd v

/-- CKPT. In dual-core or degraded mode, or on a split core, it records nothing (R131); otherwise it waits for log entries
in flight, those of stores not yet performed (R396, log 13). -/
def Domain.ckpt (d : Domain) (e : Eng) (f : Fetch) (rs1 : GReg) : Domain :=
  d.insn e f true [rs1] fun d =>
    let tag := (d.core e).rd rs1
    let o := d.occAt e (d.core e).pc false
    let idle := d.dual || d.rgB SYS_CAP_DEGRADED || d.lsc.split == some e
    if !idle && !(d.core e).stores.isEmpty then .stay (d.await e .full)
    else
      let d := (d.mapCore e Core.next).coreItem e 13 o
      .retire (if idle then d else d.checkpoint e tag)

/-- What PLAN.COMMIT requested and the status it got join the replay log as it retires (R397, log 13). -/
def Domain.logCommit (d : Domain) (e : Eng) (mask : BitVec 7) (status : Word) : Domain :=
  (d.logRec e .effect 1 (mask.setWidth 32)).logRec e .value 1 status

/-- PLAN.COMMIT at the core: it stalls for its status; a mask of zero commits nothing and writes 0 (R130). In a replay the
request is not made again, and the status is the logged one (R398). -/
def Domain.planCommit (d : Domain) (e : Eng) (f : Fetch) (rd rs1 : GReg) (imm : BitVec 7) : Domain :=
  d.insn e f true [rd, rs1] fun d =>
    let mask : BitVec 7 := imm ||| ((d.core e).rd rs1).setWidth 7
    let d := d.coreItem e 12 (d.occAt e (d.core e).pc false)
    if mask = 0 then d.result e rd 0
    else if d.replays e then
      let d := d.logRec e .effect 1 (mask.setWidth 32)
      let v := d.input e .value 1 0
      (d.logRec e .value 1 v).result e rd v
    else .stay (d.await e (.commit rd))

/-- The mask that a stalled PLAN.COMMIT names. -/
def Core.commitMask (x : Core) (rs1 : GReg) (imm : BitVec 7) : BitVec 7 := imm ||| (x.rd rs1).setWidth 7

end Sys2Proof.Machine
end

