-- ==== Sys2Proof/Machine/Cascade.lean ====
section
/-! DEFINITION. Cascade.lean: numbers on sixteen lanes, data memory, runs, and the operations of the Cascade
instructions (R307 to R333). -/

namespace Sys2Proof.Machine

/-! ## Exact values (R309, R310) -/

/-- The exact number n × 2^e. -/
structure Dy where
  n : Int
  e : Int
deriving DecidableEq, Repr

def Dy.zero : Dy := ⟨0, 0⟩
def Dy.ofInt (i : Int) : Dy := ⟨i, 0⟩
def pow2 (k : Int) : Int := 2 ^ k.toNat
def Dy.mul (a b : Dy) : Dy := ⟨a.n * b.n, a.e + b.e⟩
def Dy.neg (a : Dy) : Dy := ⟨-a.n, a.e⟩

/-- The numerator of a value over 2^e, for an e no larger than its own. -/
def Dy.over (a : Dy) (e : Int) : Int := a.n * pow2 (a.e - e)

def minI (a b : Int) : Int := if a ≤ b then a else b
def maxI (a b : Int) : Int := if a ≤ b then b else a

def Dy.add (a b : Dy) : Dy := ⟨a.over (minI a.e b.e) + b.over (minI a.e b.e), minI a.e b.e⟩
def Dy.sub (a b : Dy) : Dy := a.add b.neg
def Dy.le (a b : Dy) : Bool := decide (a.over (minI a.e b.e) ≤ b.over (minI a.e b.e))
def Dy.lt (a b : Dy) : Bool := decide (a.over (minI a.e b.e) < b.over (minI a.e b.e))

/-- Round to the nearest integer, halves up (R309). -/
def Dy.round (a : Dy) : Int :=
  if 0 ≤ a.e then a.n * pow2 a.e else Int.fdiv (2 * a.n + pow2 (-a.e)) (2 * pow2 (-a.e))

/-- Round down to an integer. -/
def Dy.floor (a : Dy) : Int := if 0 ≤ a.e then a.n * pow2 a.e else Int.fdiv a.n (pow2 (-a.e))

/-- Multiply by a power of two. -/
def Dy.scale (a : Dy) (k : Int) : Dy := ⟨a.n, a.e + k⟩

/-- The value of mantissa M with exponent E: M × 2^(E − 23) (R307). -/
def dyOf (m e : Int) : Dy := ⟨m, e - 23⟩

/-- The mantissa and exponent of a word in the number format of R310, and its value. -/
def wordM (w : Word) : Int := sgn 24 (w.toNat % 16777216)
def wordE (w : Word) : Int := sgn 8 (w.toNat / 16777216)
def numOf (w : Word) : Dy := dyOf (wordM w) (wordE w)

/-- The word of a mantissa and an exponent. -/
def wordOf (m e : Int) : Word := ((wordOfInt e).setWidth 8 ++ (wordOfInt m).setWidth 24 : BitVec 32)

def loM : Int := -8388608
def hiM : Int := 8388607

/-- The exact value fits a mantissa at exponent e before rounding: from −2^23 up to, but not including, 2^23, since R309
rounds 2^23 − 0.5 and saturates it (log 33). -/
def Dy.fits (a : Dy) (e : Int) : Bool :=
  (dyOf loM e).le a && a.lt (dyOf (hiM + 1) e)

/-- An operand aligned to exponent e: a right shift rounds, a left shift is exact (R309, log 33). -/
def Dy.alignTo (a : Dy) (e : Int) : Dy := dyOf (a.scale (23 - e)).round e

/-- The smallest k, up to a bound no pair of operands exceeds, that brings every value into range (R309). -/
def blockShift (er : Int) (xs : List Dy) : Nat → Nat → Nat
  | 0, k => k
  | fuel + 1, k => if xs.all (fun x => x.fits (er + k)) then k else blockShift er xs fuel (k + 1)

/-- A result with its saturation and overflow flags, and whether it was block-shifted. -/
structure Res where
  v : Vec
  sat : Bool
  ovf : Bool
  shift : Bool
deriving DecidableEq, Repr

/-- Reduce exact lane values to exponent `er`: block shift, exponent ceiling and floor, rounding, saturation (R309). -/
def reduce (er : Int) (xs : List Dy) : Res :=
  let e1 := er + blockShift er xs 600 0
  let e := if e1 > 127 then 127 else if e1 < -128 then -128 else e1
  let rs := xs.map (fun x => (x.scale (23 - e)).round)
  { v := { exp := e, m := rs.map (fun r => clampI loM hiM r) }
    sat := decide (e1 > 127) || rs.any (fun r => decide (r < loM) || decide (hiM < r))
    ovf := decide (e1 > 127), shift := decide (er < e1) }

/-- The smallest exponent from `e` on, within `fuel` steps, at which the rounded mantissa is in range. -/
def holdExp (x : Dy) : Nat → Int → Int
  | 0, e => e
  | fuel + 1, e =>
    let m := (x.scale (23 - e)).round
    if loM ≤ m ∧ m ≤ hiM then e else holdExp x fuel (e + 1)

/-- The smallest exponent that holds a value, not below −128, with its rounded mantissa; one too large for every exponent
saturates (R309, R330). -/
def smallestWord (x : Dy) : Word :=
  let e := holdExp x 255 (-128)
  wordOf (clampI loM hiM (x.scale (23 - e)).round) e

/-! ## Registers and lanes -/

def lanes : List Nat := List.range 16

def Vec.lane (v : Vec) (i : Nat) : Int := v.m.getD i 0
def Vec.val (v : Vec) (i : Nat) : Dy := dyOf (v.lane i) v.exp

def Channel.vr (c : Channel) (r : VReg) : Vec := sget Vec.zero c.cas.v r.toNat
def Channel.setVr (c : Channel) (r : VReg) (v : Vec) : Channel :=
  { c with cas := { c.cas with v := sset Vec.zero c.cas.v r.toNat v } }
def Channel.acc (c : Channel) (r : BitVec 2) : Vec := sget Vec.zero c.cas.ac r.toNat
def Channel.setAcc (c : Channel) (r : BitVec 2) (v : Vec) : Channel :=
  { c with cas := { c.cas with ac := sset Vec.zero c.cas.ac r.toNat v } }

/-! ## Data memory (R311, R313) -/

/-- The physical word of engine word address x with the run's PAGE. -/
def physWord (page : Bool) (x : Nat) : Nat :=
  if x < 0x1000 then (if page then x + 0x1000 else x)
  else if x < 0x2000 then (if page then x - 0x1000 else x)
  else x

def casAddr (bank : List (Nat × Word)) (x : Nat) : Nat :=
  0x50010000 + 4 * physWord (fld bank CAS_CTL_PAGE != 0) x

def Channel.dataWord (c : Channel) (r : Run) (x : Nat) : Word := c.word (casAddr r.bank x)
def Channel.putData (c : Channel) (r : Run) (x : Nat) (w : Word) : Channel := c.putWord (casAddr r.bank x) w

/-- A 16-word access runs past the memory (R319). -/
def wide (x : BitVec 14) : Bool := decide (16368 < x.toNat)

/-! ## Runs (R316 to R320) -/

/-- The CAS part of the live bank. -/
def Channel.casBank (c : Channel) : List (Nat × Word) := c.live.filter (fun e => e.1 / 65536 == 7)

/-- A dropped request: OVR and EV_CSOVR (R317). -/
def Channel.dropStart (c : Channel) (entry : BitVec 14) (bits : Nat) : Channel :=
  (c.setB CAS_STAT_OVR true).raise 0x69 (bits + entry.toNat)

/-! ### The injection generator (R331) -/

/-- Order and tap of the maximal-length feedback selected by ORDER. -/
def prbsTaps (order : Nat) : Nat × Nat :=
  match order with
  | 0 => (7, 6) | 1 => (9, 5) | 2 => (11, 9) | 3 => (15, 14) | 4 => (23, 18) | _ => (31, 28)

/-- One advance of the register. -/
def prbsNext (order reg : Nat) : Nat :=
  let t := prbsTaps order
  (2 * reg + (reg / 2 ^ (t.1 - 1) + reg / 2 ^ (t.2 - 1)) % 2) % 2 ^ t.1

/-- CORDIC sine or cosine of an angle mantissa, 1.0 standing for 180°: within its error bound a free value (R324, R326,
log 5). -/
def sinM (m : Int) : Int := cordicPick (sin60 (wordOfInt (256 * m))) (Config.cordic false (wordOfInt m))
def cosM (m : Int) : Int := cordicPick (cos60 (wordOfInt (256 * m))) (Config.cordic true (wordOfInt m))

/-- The generator runs: EN = 1, a type chosen, and its end not reached. -/
def Channel.injRunning (c : Channel) : Bool :=
  c.lvB CAS_INJCTL_EN && decide (c.lvN CAS_INJCTL_TYPE ≠ 0) && c.rgB CAS_INJSTAT_RUN

/-- One step of the generator. -/
def Channel.injStep (c : Channel) : Channel :=
  if !c.injRunning then c
  else
    let i := c.cas.inj
    let am := wordM (c.lv CAS_INJAMP_AMP)
    let ae := wordE (c.lv CAS_INJAMP_AMP)
    let dwell := if c.lvN CAS_INJLEN_DWELL = 0 then 1 else c.lvN CAS_INJLEN_DWELL
    let order := c.lvN CAS_INJCTL_ORDER
    let fstep := sgn 24 (c.lvN CAS_INJFSTEP_FSTEP)
    let f0 : Int := c.lvN CAS_INJF0_F0
    let sine := (((Dy.mul ⟨am, 0⟩ ⟨sinM (sgn 24 i.phase), -23⟩).round : Int), ae)
    let out := match c.lvN CAS_INJCTL_TYPE with
      | 1 => (if i.reg / 2 ^ ((prbsTaps order).1 - 1) % 2 = 1 then am else -am, ae)
      | _ => sine
    let reg := if (i.k + 1) % dwell = 0 then prbsNext order i.reg else i.reg
    let inc := match c.lvN CAS_INJCTL_TYPE with
      | 2 => Int.emod (f0 + i.k * fstep) 16777216
      | _ => f0 + (i.k / dwell : Nat) * fstep
    let phase := (Int.emod (i.phase + inc) 16777216).toNat
    let n := c.lvN CAS_INJLEN_NSTEP
    let total := if c.lvN CAS_INJCTL_TYPE = 3 then n * dwell else n
    let c := c.setN CAS_INJSTAT_STEP (satN 0xFFFFFF (i.k + 1))
    let x := { k := i.k + 1, phase := phase, reg := reg, outM := out.1, outE := out.2 }
    if n ≠ 0 ∧ total ≤ i.k + 1 then
      ({ c with cas := { c.cas with inj := { x with outM := 0, outE := 0 } } }.setB CAS_INJSTAT_RUN false).raise 0x6E
    else { c with cas := { c.cas with inj := x } }

/-! ### Starting and ending -/

/-- The program slot of a run's instruction (R312). -/
def Run.slot (r : Run) : Nat := ((fld r.bank CAS_CTL_PBASE).toNat + r.pc.toNat) % 16384

/-- The run in progress. Until its first instruction has issued it takes the live bank as it stands (R316). -/
def Channel.running (c : Channel) : Option Run :=
  c.cas.run.map fun r => if r.len = 0 then { r with bank := c.casBank } else r

/-- A run begins with SST in this cycle (R316). -/
def Channel.beginRun (c : Channel) (entry : BitVec 14) : Channel :=
  let r : Run := { pc := entry, start := c.now, len := 0, bank := c.casBank, tag := false, clip := false, sat := false
                   ovf := false, t := false, rcskip := false, sst := c.now
                   satNow := false, shiftNow := false }
  let c := { c with cas := { c.cas with run := some r } }
  let c := c.item 4 1 ⟨BitVec.ofNat 32 entry.toNat, c.word (0x50000000 + 4 * r.slot), 0, 1⟩
  let c := (c.setB CAS_STAT_BUSY true).setN CAS_STAT_PC entry.toNat
  if c.lvB CAS_INJCTL_STEPSRC then c.injStep else c

/-- A request reaches CAS. The cycle in which a run ends or aborts is still one of the run (R317, log 78). -/
def Channel.startRequest (c : Channel) (entry : BitVec 14) : Channel :=
  if !c.lvB CAS_CTL_EN then c.dropStart entry 0x8000
  else if c.rgB CAS_STAT_STOPPED then c.dropStart entry 0x4000
  else if c.cas.run.isNone && decide (c.cas.freeAt ≤ c.now) then c.beginRun entry
  else if c.cas.pend.isNone then
    { c with cas := { c.cas with pend := some entry } }.setB CAS_STAT_PEND true
  else c.dropStart entry 0

/-- The run is over: BUSY falls, and the engine is free from the next cycle on (R317). -/
def Channel.runOver (c : Channel) : Channel :=
  { c with cas := { c.cas with run := none, past := none, freeAt := c.now + 1 } }.setB CAS_STAT_BUSY false

/-- In the cycle after a run the pending request is taken (R317). -/
def Channel.takePending (c : Channel) : Channel :=
  match c.cas.run, c.cas.pend with
  | none, some e => ({ c with cas := { c.cas with pend := none } }.setB CAS_STAT_PEND false).beginRun e
  | _, _ => c

/-- The requests that Weir issued in the cycle before reach CAS (R317). -/
def Channel.takeStarts (c : Channel) : Channel :=
  c.cas.starts.foldl Channel.startRequest { c with cas := { c.cas with starts := [] } }

/-- What OUT and PUTPOS issued in the cycle before arrives: the leg references in PWM, the observer's delivery in POS
(R328, R329). -/
def Channel.takeOuts (c : Channel) : Channel :=
  let c := c.cas.outs.foldl (fun c' x => c'.putRef x.1 x.2) { c with cas := { c.cas with outs := [] } }
  match c.cas.obs with
  | some o =>
    let c := { c with cas := { c.cas with obs := none }
                      pos := { c.pos with obsTheta := o.theta, obsOmega := o.omega, obsStamp := o.stamp } }
    ((c.setB CAS_STAT_OBSV o.valid).set CAS_OBSANG_THETA o.theta).set CAS_OBSSPD_OMEGA o.omega
  | none => c

/-- A pending request is dropped with the reason bits of R317. -/
def Channel.dropPending (c : Channel) (bits : Nat) : Channel :=
  match c.cas.pend with
  | some e => ({ c with cas := { c.cas with pend := none } }.setB CAS_STAT_PEND false).dropStart e bits
  | none => c

/-- A run aborts with a code (R319). -/
def Channel.abortRun (c : Channel) (r : Run) (code : Nat) : Channel :=
  let c := ((((c.setN CAS_STAT_ERR code).setN CAS_ERRADDR_ADDR r.pc.toNat).setB CAS_STAT_ERRF true).setB
    CAS_STAT_OBSV false).raise 0x6A (code * 4096 + r.pc.toNat % 4096)
  if fld r.bank CAS_CTL_ERRSTOP ≠ 0 then ((c.setB CAS_STAT_STOPPED true).dropPending 0x4000).runOver
  else c.runOver

/-- The run ends: its length, EV_CDONE, EV_CFLAG and the sticky flags (R318, R330). -/
def Channel.endRun (c : Channel) (r : Run) : Channel :=
  let n := r.len + 1
  let l := satN 0xFFFFF n
  let c := c.setN CAS_RUNLEN_LAST l
  let c := if c.rgN CAS_RUNPK_PEAK < l then c.setN CAS_RUNPK_PEAK l else c
  let c := c.raise 0x68 (satN 0xFFFF n)
  let c := { c with cas := { c.cas with sup := { c.cas.sup with tcd := c.now } } }
  let c := if r.sat then c.setB CAS_STAT_SAT true else c
  let c := if r.ovf then c.setB CAS_STAT_OVF true else c
  let c := if r.sat || r.ovf || r.rcskip then
      c.raise 0x6F ((if r.rcskip then 4 else 0) + (if r.ovf then 2 else 0) + (if r.sat then 1 else 0)) else c
  c.runOver

/-- What an instruction does to the run: continue (with its flags and the next program address given), or abort. -/
inductive CasOut where
  | go (c : Channel) (r : Run)
  | abort (code : Nat)
deriving DecidableEq, Repr

/-- An instruction that saturates, or not, with no exponent of its own. -/
def Run.saturated (r : Run) (b : Bool) : Run := { r with sat := r.sat || b, satNow := b }

/-- An execution item of Cascade, attributed to the instruction of the run (R520, R524, R525). -/
def Channel.casItem (c : Channel) (r : Run) (j lat : Nat) : Channel :=
  c.item 4 j ⟨BitVec.ofNat 32 r.pc.toNat, c.word (0x50000000 + 4 * r.slot), 0, lat⟩

/-- An enabled breakpoint stands at the run's next instruction, and Cascade has not halted before it yet (R533, log 32). -/
def Channel.casAtBreak (c : Channel) (r : Run) : Bool :=
  c.rgB DBG_CBP_EN && r.pc.setWidth 32 == c.rg DBG_CBP_ADDR && c.cas.past != some r.pc

/-- The run whose next instruction issues in this cycle: the first in the cycle after SST, and each later one when the
one before it has finished; none issues while Cascade is halted, or is to halt before it (R316, R318, R533). -/
def Channel.issuing (c : Channel) : Option Run :=
  c.running.filter fun r => !c.cas.halted && !c.casAtBreak r && decide (c.now = r.start + 1 + r.len)

/-- A run that RUNMAX ends before `len` cycles of it are over (R319, log 78). -/
def Run.outlasts (r : Run) (len : Nat) : Bool :=
  let m := (fld r.bank CAS_RUNMAX_RUNMAX).toNat
  decide (m ≠ 0) && decide (m ≤ len)

/-- One Cascade instruction, in the cycle in which it issues. A bad fetch, an illegal word, or an uncorrectable data
read where it reads data aborts with no effect. One that RUNMAX cuts off has none either. Otherwise the run goes on after
`cycles` (R318, R319). -/
def Channel.casInstr (c : Channel) (f : CasFetch) (reads : Bool) (cycles : Nat) (op : Channel → Run → CasOut) : Channel :=
  match c.issuing with
  | none => c
  | some r =>
      match f with
      | .illegal => c.abortRun r 1
      | .fetchEcc => c.abortRun r 3
      | _ =>
        let c := c.casItem r 0 cycles
        match op c { r with satNow := false, shiftNow := false } with
        | .abort code => c.abortRun r code
        | .go c' r' =>
          if f = .dataEcc ∧ reads = true then c.abortRun r 4
          else if r'.outlasts (r'.len + cycles) then
            { c with cas := { c.cas with run := some { r with len := r'.len + cycles }, past := none } }
          else
            let c' := if r'.shiftNow then c'.casItem r 5 cycles else c'
            let c' := if r'.satNow then c'.casItem r 6 cycles else c'
            let r' := { r' with pc := r'.pc + 1, len := r'.len + cycles }
            { c' with cas := { c'.cas with run := some r', past := none } }.setN CAS_STAT_PC r'.pc.toNat

/-- Write a reduced result to a register and merge its flags. -/
def Channel.deliver (c : Channel) (r : Run) (d : VReg) (x : Res) : CasOut :=
  .go (c.setVr d x.v) { r with
    sat := r.sat || x.sat, ovf := r.ovf || x.ovf, satNow := x.sat, shiftNow := x.shift }

/-! ## Data movement (R325) -/

/-- Numbers read from memory brought to the largest exponent among them (R310). -/
def gather (ws : List Word) : Res :=
  reduce (ws.foldl (fun e w => maxI e (wordE w)) (wordE (ws.headD 0))) (ws.map numOf)

def Channel.opVld (d : VReg) (x : BitVec 14) (c : Channel) (r : Run) : CasOut :=
  if wide x then .abort 2
  else c.deliver r d (gather (lanes.map (fun i => c.dataWord r (x.toNat + i))))

def Channel.opVst (a : VReg) (x : BitVec 14) (c : Channel) (r : Run) : CasOut :=
  if wide x then .abort 2
  else .go (lanes.foldl (fun c' i => c'.putData r (x.toNat + i) (wordOf ((c.vr a).lane i) (c.vr a).exp)) c) r

/-- Every lane of a register := one number. -/
def splatWord (w : Word) : Vec := { exp := wordE w, m := lanes.map (fun _ => wordM w) }

def Channel.opVlds (d : VReg) (x : BitVec 14) (c : Channel) (r : Run) : CasOut :=
  .go (c.setVr d (splatWord (c.dataWord r x.toNat))) r

/-- A word of a line's half of the ADC result area loads as a lane; result words set TAG and CLIP. -/
def isResultWord (i : Nat) : Bool := decide (i ≤ 12) || (decide (16 ≤ i) && decide (i ≤ 23))

def Channel.opLdr (d : VReg) (x : BitVec 14) (c : Channel) (r : Run) : CasOut :=
  if 16 ≤ x.toNat then .abort 1
  else
    let line := x.toNat % 8
    let base := if x.getLsbD 3 then 16 else 0
    let w (i : Nat) : Word := sget 0 c.adc.results (32 * line + i)
    let m := lanes.map (fun i => if 24 ≤ base + i then 0 else sgn 16 ((w (base + i)).toNat % 65536) * 256)
    let ws := (lanes.map (fun i => base + i)).filter isResultWord
    .go (c.setVr d { exp := 0, m := m })
      { r with tag := r.tag || ws.any (fun i => bitOf (w i) 27 || bitOf (w i) 25)
               clip := r.clip || ws.any (fun i => bitOf (w i) 24)
               sst := (w 24).toNat + 4294967296 * (w 25).toNat }

/-- θ extrapolated from the latch in use to cycle t, which may precede the latch (R177, R180). -/
def Channel.angleTo (c : Channel) (t : Nat) : Word :=
  let dt : Int := (t : Int) - c.weir.tL
  let ext : Int := c.lvN WEIR_EXT_EXTMAX
  if ext = 0 then c.weir.thL
  else c.weir.thL + wordOfInt (Int.fdiv (c.weir.omega * minI ext dt) 65536)

/-- An angle word as a mantissa with 1.0 = 180° (R324). -/
def angleM (w : Word) : Int := sgn 24 (w.toNat / 256)

def Channel.opLda (d : VReg) (x : BitVec 14) (c : Channel) (r : Run) : CasOut :=
  let put (m e : Int) : CasOut := .go (c.setVr d { exp := e, m := lanes.map (fun _ => m) }) r
  match x.toNat with
  | 0 => put (angleM c.weir.theta) 0
  | 1 => put (angleM (c.angleTo r.sst)) 0
  | 2 => put (Dy.round ⟨c.weir.omega, -9⟩) 16
  | 3 => put (angleM c.weir.phi) 0
  | _ => .abort 1

/-! ### References in use (R334, R339) -/

/-- A value kept between two bounds; the upper one where they are crossed (R334). -/
def clampNum (lo hi v : Word) : Word :=
  if (numOf hi).lt (numOf lo) || (numOf hi).lt (numOf v) then hi
  else if (numOf v).lt (numOf lo) then lo else v

/-- Reference i of TREF, FREF, SREF, ILIM, TRAMP: its written value in use clamped to the live bounds. -/
def Channel.refClamped (c : Channel) (i : Nat) : Word :=
  match i with
  | 0 => clampNum (c.lv CAS_TMIN_VALUE) (c.lv CAS_TMAX_VALUE) (c.lv CAS_TREF_VALUE)
  | 1 => clampNum (c.lv CAS_FMIN_VALUE) (c.lv CAS_FMAX_VALUE) (c.lv CAS_FREF_VALUE)
  | 2 => clampNum (c.lv CAS_SPMIN_VALUE) (c.lv CAS_SPMAX_VALUE) (c.lv CAS_SREF_VALUE)
  | 3 => clampNum 0 (c.lv CAS_ILIMHW_VALUE) (c.lv CAS_ILIM_VALUE)
  | _ => clampNum 0 (c.lv CAS_RAMPMAX_VALUE) (c.lv CAS_TRAMP_VALUE)

/-- Reference i in use: the supervisor overrides the torque reference and the current limit. -/
def Channel.refUse (c : Channel) (i : Nat) : Word :=
  if c.lvB CAS_MSCTL_EN && i == 0 then c.rg CAS_MSTOUT_TOUT
  else if c.lvB CAS_MSCTL_EN && i == 3 then c.rg CAS_MSIOUT_IOUT
  else c.refClamped i

def refRaw (i : Nat) : Fld :=
  match i with
  | 0 => CAS_TREF_VALUE | 1 => CAS_FREF_VALUE | 2 => CAS_SREF_VALUE | 3 => CAS_ILIM_VALUE | _ => CAS_TRAMP_VALUE

/-- RCLAMP follows the clamps; EV_CREFCLP tells those that begin (R334). -/
def Channel.refreshClamps (c : Channel) : Channel :=
  let now := (List.range 5).foldl (fun m i =>
    if (numOf (c.refClamped i)).lt (numOf (c.lv (refRaw i))) || (numOf (c.lv (refRaw i))).lt (numOf (c.refClamped i))
    then m + 2 ^ i else m) 0
  let begun := BitVec.ofNat 32 now &&& ~~~c.rg CAS_STAT_RCLAMP
  let c := c.setN CAS_STAT_RCLAMP now
  if begun ≠ 0 then c.raise 0x6C now else c

def Channel.opLdref (d : VReg) (x : BitVec 14) (c : Channel) (r : Run) : CasOut :=
  if 5 ≤ x.toNat then .abort 1 else .go (c.setVr d (splatWord (c.refUse x.toNat))) r

def Channel.opMov (d a : VReg) (c : Channel) (r : Run) : CasOut := .go (c.setVr d (c.vr a)) r

def Channel.opSplat (d a : VReg) (x : BitVec 14) (c : Channel) (r : Run) : CasOut :=
  if 16 ≤ x.toNat then .abort 1
  else .go (c.setVr d { exp := (c.vr a).exp, m := lanes.map (fun _ => (c.vr a).lane x.toNat) }) r

def Channel.opPerm (d a : VReg) (x : BitVec 14) (c : Channel) (r : Run) : CasOut :=
  if wide x then .abort 2
  else .go (c.setVr d { exp := (c.vr a).exp, m := lanes.map (fun i =>
    (c.vr a).lane ((c.dataWord r (x.toNat + i)).toNat % 16)) }) r

def Channel.opSete (d : VReg) (x : BitVec 14) (c : Channel) (r : Run) : CasOut :=
  if 256 ≤ x.toNat then .abort 1 else .go (c.setVr d { c.vr d with exp := sgn 8 x.toNat }) r

/-! ## Arithmetic (R325) -/

/-- A lane-wise operation of two registers, aligned to the larger exponent. -/
def Channel.opPair (f : Dy → Dy → Dy) (d a b : VReg) (c : Channel) (r : Run) : CasOut :=
  let e := maxI (c.vr a).exp (c.vr b).exp
  c.deliver r d (reduce e (lanes.map fun i => f (((c.vr a).val i).alignTo e) (((c.vr b).val i).alignTo e)))

def Dy.min (a b : Dy) : Dy := if a.le b then a else b
def Dy.max (a b : Dy) : Dy := if a.le b then b else a

def Channel.opVaddw (d a b : VReg) (c : Channel) (r : Run) : CasOut :=
  .go (c.setVr d { exp := (c.vr a).exp, m := lanes.map (fun i =>
    sgn 24 (Int.emod ((c.vr a).lane i + (c.vr b).lane i) 16777216).toNat) }) r

def Channel.opVmul (d a b : VReg) (c : Channel) (r : Run) : CasOut :=
  c.deliver r d (reduce ((c.vr a).exp + (c.vr b).exp) (lanes.map fun i => ((c.vr a).val i).mul ((c.vr b).val i)))

/-- A lane-wise operation of one register with its exponent. -/
def Channel.opMap (f : Dy → Dy) (d a : VReg) (c : Channel) (r : Run) : CasOut :=
  c.deliver r d (reduce (c.vr a).exp (lanes.map fun i => f ((c.vr a).val i)))

def Dy.abs (a : Dy) : Dy := ⟨a.n.natAbs, a.e⟩

/-- Accumulate, saturating at ±(2^47 − 1): A counts in units of 2^(e_acc − 46) (R308). -/
def Channel.opVmac (ac : BitVec 2) (a b : VReg) (c : Channel) (r : Run) : CasOut :=
  let x := c.acc ac
  let sum (i : Nat) : Int :=
    x.lane i + (Dy.mk ((c.vr a).lane i * (c.vr b).lane i) ((c.vr a).exp + (c.vr b).exp - x.exp)).round
  let lim : Int := 140737488355327
  .go (c.setAcc ac { exp := x.exp, m := lanes.map (fun i => clampI (-lim) lim (sum i)) })
    (r.saturated (lanes.any fun i => decide (sum i < -lim) || decide (lim < sum i)))

def Channel.opAclr (ac : BitVec 2) (x : BitVec 14) (c : Channel) (r : Run) : CasOut :=
  if 256 ≤ x.toNat then .abort 1
  else .go (c.setAcc ac { exp := sgn 8 x.toNat, m := lanes.map (fun _ => 0) }) r

def Channel.opAccr (d : VReg) (ac : BitVec 2) (c : Channel) (r : Run) : CasOut :=
  c.deliver r d (reduce (c.acc ac).exp (lanes.map fun i => ⟨(c.acc ac).lane i, (c.acc ac).exp - 46⟩))

/-- The largest left shift up to 23 that keeps every lane in range and the exponent at −128 or above. -/
def normShift (v : Vec) : Nat :=
  ((List.range 24).reverse.find? (fun (k : Nat) => decide (-128 ≤ v.exp - k) &&
    lanes.all (fun i => decide (loM ≤ v.lane i * pow2 k) && decide (v.lane i * pow2 k ≤ hiM)))).getD 0

def Channel.opNorm (d a : VReg) (c : Channel) (r : Run) : CasOut :=
  let v := c.vr a
  if lanes.all (fun i => v.lane i == 0) then .go (c.setVr d v) r
  else
    let k := normShift v
    .go (c.setVr d { exp := v.exp - k, m := lanes.map (fun i => v.lane i * pow2 k) }) r

/-- Shift to a given exponent, saturating to the left and rounding to the right. -/
def normTo (v : Vec) (e : Int) : Res :=
  let rs := lanes.map (fun i => ((v.val i).scale (23 - e)).round)
  { v := { exp := e, m := rs.map (fun x => clampI loM hiM x) }
    sat := rs.any (fun x => decide (x < loM) || decide (hiM < x)), ovf := false, shift := false }

def Channel.opNormx (d a : VReg) (x : BitVec 14) (c : Channel) (r : Run) : CasOut :=
  if 256 ≤ x.toNat then .abort 1 else c.deliver r d (normTo (c.vr a) (sgn 8 x.toNat))

def Channel.opTst (a : VReg) (x : BitVec 14) (c : Channel) (r : Run) : CasOut :=
  if 16 ≤ x.toNat then .abort 1 else .go c { r with t := decide (0 < (c.vr a).lane x.toNat) }

/-! ## Transforms and control (R326) -/

/-- 1/3, 1/√3 and √3/2 held to 24 bits. -/
def third : Dy := ⟨5592405, -24⟩
def invSqrt3 : Dy := ⟨4843165, -23⟩
def halfSqrt3 : Dy := ⟨7264748, -23⟩

/-- The sixteen lane values from a function of quad and position. -/
def perQuad (f : Nat → Nat → Dy) : List Dy := lanes.map (fun i => f (i / 4) (i % 4))

def Channel.opClarke (d a : VReg) (c : Channel) (r : Run) : CasOut :=
  let v := c.vr a
  c.deliver r d (reduce v.exp (perQuad fun q j =>
    let u := v.val (4 * q)
    let w1 := v.val (4 * q + 1)
    let w2 := v.val (4 * q + 2)
    match j with
    | 0 => (((u.scale 1).sub w1).sub w2).mul third
    | 1 => (w1.sub w2).mul invSqrt3
    | 2 => ((u.add w1).add w2).mul third
    | _ => v.val (4 * q + 3)))

def Channel.opIclarke (d a : VReg) (c : Channel) (r : Run) : CasOut :=
  let v := c.vr a
  c.deliver r d (reduce v.exp (perQuad fun q j =>
    let al := v.val (4 * q)
    let be := (v.val (4 * q + 1)).mul halfSqrt3
    let z := v.val (4 * q + 2)
    match j with
    | 0 => al.add z
    | 1 => (be.sub (al.scale (-1))).add z
    | 2 => ((al.scale (-1)).neg.sub be).add z
    | _ => v.val (4 * q + 3)))

/-- A product formed as VMUL forms it: rounded to a mantissa at the sum of the exponents. -/
def vmulVal (x y : Vec) (i j : Nat) : Dy :=
  dyOf ((Dy.mk (x.lane i * y.lane j) (-23)).round) (x.exp + y.exp)

def Channel.opPark (d a b : VReg) (c : Channel) (r : Run) : CasOut :=
  let x := c.vr a
  let y := c.vr b
  let e := maxI (x.exp + y.exp) x.exp
  c.deliver r d (reduce e (perQuad fun q j => Dy.alignTo (e := e) (
    match j with
    | 0 => (vmulVal x y (4 * q) (4 * q + 1)).add (vmulVal x y (4 * q + 1) (4 * q))
    | 1 => (vmulVal x y (4 * q + 1) (4 * q + 1)).sub (vmulVal x y (4 * q) (4 * q))
    | _ => x.val (4 * q + j))))

def Channel.opIpark (d a b : VReg) (c : Channel) (r : Run) : CasOut :=
  let x := c.vr a
  let y := c.vr b
  let e := maxI (x.exp + y.exp) x.exp
  c.deliver r d (reduce e (perQuad fun q j => Dy.alignTo (e := e) (
    match j with
    | 0 => (vmulVal x y (4 * q) (4 * q + 1)).sub (vmulVal x y (4 * q + 1) (4 * q))
    | 1 => (vmulVal x y (4 * q) (4 * q)).add (vmulVal x y (4 * q + 1) (4 * q + 1))
    | _ => x.val (4 * q + j))))

def Channel.opSincos (d a : VReg) (c : Channel) (r : Run) : CasOut :=
  let n := normTo (c.vr a) 0
  let v := if (c.vr a).exp = 0 then ⟨c.vr a, false, false, false⟩ else n
  .go (c.setVr d { exp := 0, m := lanes.map (fun i =>
      let ang := v.v.lane (4 * (i / 4))
      match i % 4 with
      | 0 => sinM ang
      | 1 => cosM ang
      | _ => v.v.lane i) })
    (r.saturated v.sat)

/-- PI: integrator in vb, parameters Kp, Ki·T, HI and LO at words x, x + 16, x + 32 and x + 48. -/
def Channel.opPi (d a b : VReg) (x : BitVec 14) (c : Channel) (r : Run) : CasOut :=
  if 16383 < x.toNat + 63 then .abort 2
  else
    let e := c.vr a
    let i0 := c.vr b
    let block (k : Nat) : Vec := (gather (lanes.map (fun j => c.dataWord r (x.toNat + 16 * k + j)))).v
    let kp := block 0
    let ki := block 1
    let hi := block 2
    let lo := block 3
    let pe := reduce (kp.exp + e.exp) (lanes.map fun j => (kp.val j).mul (e.val j))
    let ie := reduce (ki.exp + e.exp) (lanes.map fun j => (ki.val j).mul (e.val j))
    let sum (x y : Vec) : Res :=
      let m := maxI x.exp y.exp
      reduce m (lanes.map fun j => ((x.val j).alignTo m).add ((y.val j).alignTo m))
    let i1 := sum i0 ie.v
    let u := sum pe.v i1.v
    let above (j : Nat) : Bool := (hi.val j).lt (u.v.val j)
    let capped (j : Nat) : Dy := if above j then (hi.val j).alignTo u.v.exp else u.v.val j
    let below (j : Nat) : Bool := (capped j).lt (lo.val j)
    let uOut := reduce u.v.exp (lanes.map fun j => if below j then (lo.val j).alignTo u.v.exp else capped j)
    let iOut := reduce i1.v.exp (lanes.map fun j =>
      if (above j && decide (0 < e.lane j)) || (below j && decide (e.lane j < 0)) then (i0.val j).alignTo i1.v.exp
      else i1.v.val j)
    let sat := pe.sat || ie.sat || i1.sat || u.sat || uOut.sat || iOut.sat
    let ovf := pe.ovf || ie.ovf || i1.ovf || u.ovf || uOut.ovf || iOut.ovf
    .go ((c.setVr b iOut.v).setVr d uOut.v) { r with
      sat := r.sat || sat, ovf := r.ovf || ovf, satNow := sat
      shiftNow := pe.shift || ie.shift || i1.shift || u.shift || uOut.shift || iOut.shift }

/-- TINT: linear interpolation of each lane in table i mod NT of the block at word x (R327). -/
def Channel.opTint (d a : VReg) (x : BitVec 14) (c : Channel) (r : Run) : CasOut :=
  let h := (c.dataWord r x.toNat).toNat
  let lg := h % 16
  let nt := if h / 16 % 16 = 0 then 16 else h / 16 % 16
  let n := 2 ^ lg
  if lg = 0 ∨ 10 < lg then .abort 1
  else if 16383 < x.toNat + nt * (n + 1) then .abort 2
  else
    let u (i : Nat) : Dy :=
      let v := (c.vr a).val i
      if v.lt Dy.zero then Dy.zero else if (Dy.ofInt 1).lt v then Dy.ofInt 1 else v
    let p (i : Nat) : Dy := (u i).scale lg
    let k (i : Nat) : Nat := (minI (p i).floor ((n : Int) - 1)).toNat
    let pt (i o : Nat) : Word := c.dataWord r (x.toNat + 1 + (i % nt) * (n + 1) + k i + o)
    let er := lanes.foldl (fun m i => maxI m (maxI (wordE (pt i 0)) (wordE (pt i 1)))) (-128)
    c.deliver r d (reduce er (lanes.map fun i =>
      let t0 := numOf (pt i 0)
      let t1 := numOf (pt i 1)
      t0.add (((p i).sub (Dy.ofInt (k i))).mul (t1.sub t0))))

/-! ## The repetitive controller (R330) -/

/-- The last non-zero ω_L was positive. -/
def Channel.turnsForward (c : Channel) : Bool := c.weir.lastDir == some false

/-- Word of learned signal s in bin b. -/
def rcWord (s b : Nat) : Nat := 0x2800 + 0x800 * s + b

/-- Learn one bin. -/
def Channel.rcLearn (r : Run) (v : Vec) (b : Nat) (c : Channel) : Channel :=
  (List.range 3).foldl (fun c s =>
    let t := numOf (c.dataWord r (rcWord s b))
    let lg : Dy := ⟨(fld r.bank CAS_RCGAIN_LGAIN).toNat, -16⟩
    let fg : Dy := ⟨(fld r.bank CAS_RCGAIN_FGT).toNat, -16⟩
    c.putData r (rcWord s b) (smallestWord ((t.sub (fg.mul t)).add (lg.mul (v.val s))))) c

/-- The learned outputs at bin (b + sign × LEAD). -/
def Channel.rcRead (c : Channel) (r : Run) : Res :=
  let b := c.rgN CAS_RCBIN_BIN
  let lead := (fld r.bank CAS_RCCTL_LEAD).toNat
  let at_ := if c.turnsForward then (b + lead) % 2048 else (b + 2048 - lead) % 2048
  let ws := (List.range 3).map (fun s => c.dataWord r (rcWord s at_))
  let g := gather ws
  { g with v := { g.v with m := lanes.map (fun i => g.v.lane i) } }

/-- Every lane 0. -/
def zeroVec : Vec := { exp := 0, m := lanes.map (fun _ => 0) }

def Channel.opRcl (d a : VReg) (c : Channel) (r : Run) : CasOut :=
  if fld r.bank CAS_RCCTL_EN = 0 then .go (c.setVr d zeroVec) r
  else
    let b := c.rgN CAS_RCBIN_BIN
    let k := sgn 11 ((b + 2048 - c.cas.bR) % 2048)
    let m := satN 32 k.natAbs
    let c := (List.range m).foldl (fun c' j =>
      c'.rcLearn r (c.vr a) (if 0 ≤ k then (c.cas.bR + (j + 1)) % 2048 else (c.cas.bR + 2048 - (j + 1)) % 2048)) c
    let c := { c with cas := { c.cas with bR := b } }
    c.deliver { r with rcskip := r.rcskip || decide (32 < k.natAbs), len := r.len + m } d (c.rcRead r)

def Channel.opRcr (d : VReg) (c : Channel) (r : Run) : CasOut :=
  if fld r.bank CAS_RCCTL_EN = 0 then .go (c.setVr d zeroVec) r else c.deliver r d (c.rcRead r)

/-! ## Injection, OUT, capture, observer and flow (R326 to R333) -/

def Channel.opInj (d a : VReg) (x : BitVec 14) (c : Channel) (r : Run) : CasOut :=
  if 8 ≤ x.toNat then .abort 1
  else if c.injRunning && bitOf (fld r.bank CAS_INJCTL_PMASK) x.toNat then
    let s := dyOf c.cas.inj.outM c.cas.inj.outE
    let e := maxI (c.vr a).exp c.cas.inj.outE
    c.deliver r d (reduce e (lanes.map fun i =>
      let x := ((c.vr a).val i).alignTo e
      if bitOf (fld r.bank CAS_INJCTL_LANES) i then x.add (s.alignTo e) else x))
  else .go (c.setVr d (c.vr a)) r

/-- OUT: the leg references, all written in the next cycle (R328). -/
def Channel.opOut (a : VReg) (c : Channel) (r : Run) : CasOut :=
  let n := satN 6 (fld r.bank CAS_CTL_OUTPH).toNat
  let x (k : Nat) : Int := (((c.vr a).val k).scale 22).round
  .go { c with cas := { c.cas with outs := (List.range n).map fun k => (k, wordOfInt (clampI loM hiM (x k))) } }
    (r.saturated ((List.range n).any fun k => decide (x k < loM) || decide (hiM < x k)))

/-- The capture buffer is full or stopped: state Done with EV_CAPDONE (R333). -/
def Channel.capDone (c : Channel) : Channel :=
  if c.rgN CAS_CAPSTAT_STATE = 3 then c
  else (c.setN CAS_CAPSTAT_STATE 3).raise 0x6D (satN 0xFFFF (c.rgN CAS_CAPSTAT_COUNT))

/-- Signal j of a sample. -/
def capSignal (v : Vec) (bank : List (Nat × Word)) (sh lane : Fld) : Word :=
  let l := (fld bank lane).toNat
  wordOfInt (satS 16 (Dy.mk (v.lane l) (v.exp - 8 + (fld bank sh).toNat)).round) &&& 0xFFFF

/-- CAP: one sample at (FIRST + COUNT) while armed or triggered. -/
def Channel.opCap (a : VReg) (c : Channel) (r : Run) : CasOut :=
  let st := c.rgN CAS_CAPSTAT_STATE
  if st = 1 ∨ st = 2 then
    let first := c.rgN CAS_CAPSTAT_FIRST
    let count := c.rgN CAS_CAPSTAT_COUNT
    let pre := (fld r.bank CAS_CAPCTL_PRE).toNat
    let i := (first + count) % 16384
    let v := c.vr a
    let w01 := (capSignal v r.bank CAS_CAPCTL_SH1 CAS_CAPLANE_L1 <<< 16) ||| capSignal v r.bank CAS_CAPCTL_SH0 CAS_CAPLANE_L0
    let w23 := (capSignal v r.bank CAS_CAPCTL_SH3 CAS_CAPLANE_L3 <<< 16) ||| capSignal v r.bank CAS_CAPCTL_SH2 CAS_CAPLANE_L2
    let c := { c with cas := { c.cas with cap01 := sset 0 c.cas.cap01 i w01, cap23 := sset 0 c.cas.cap23 i w23 } }
    if st = 1 then
      if pre < count + 1 then .go (c.setN CAS_CAPSTAT_FIRST ((first + 1) % 16384)) r
      else .go (c.setN CAS_CAPSTAT_COUNT (count + 1)) r
    else
      let c := c.setN CAS_CAPSTAT_COUNT (count + 1)
      if 16384 + c.cas.capH ≤ count + 1 + (if pre < c.cas.capH then pre else c.cas.capH) then .go c.capDone r
      else .go c r
  else .go c r

/-- PUTPOS: the observer's delivery, which reaches POS in the next cycle (R329). -/
def Channel.opPutpos (a : VReg) (x : BitVec 14) (c : Channel) (r : Run) : CasOut :=
  if 2 ≤ x.toNat then .abort 1
  else if fld r.bank CAS_CTL_OBSEN = 0 then .go c r
  else
    let th := wordOfInt ((c.vr a).lane 0 * 256)
    let om := wordOfInt (satS 32 (((c.vr a).val 1).scale 16).round)
    .go { c with cas := { c.cas with obs := some ⟨th, om, r.sst, x.getLsbD 0⟩ } } r

def Channel.opSig (x : BitVec 14) (c : Channel) (r : Run) : CasOut := .go (c.raise 0x6B x.toNat) r

/-- The conditions of R322. -/
def Channel.casCond (c : Channel) (r : Run) (b : Nat) : Option Bool :=
  match b with
  | 0 => some true | 1 => some r.tag | 2 => some r.clip | 3 => some r.sat | 4 => some r.ovf | 5 => some r.t
  | 6 => some (!r.t) | 7 => some c.injRunning | 8 => some (c.rgB WEIR_STAT_STALE)
  | 9 => some (decide (c.weir.mode = .sync))
  | _ => none

/-- BR: one cycle not taken, two taken. -/
def Channel.opBr (cond : BitVec 4) (x : BitVec 14) (c : Channel) (r : Run) : CasOut :=
  match c.casCond r cond.toNat with
  | some true => .go c { r with pc := x - 1, len := r.len + 1 }
  | some false => .go c r
  | none => .abort 1

/-! ## Commands from outside the run -/

/-- CAPARM and CAPSTOP (R333). -/
def Channel.capArm (c : Channel) : Channel :=
  ((c.setN CAS_CAPSTAT_STATE 1).setN CAS_CAPSTAT_COUNT 0).setN CAS_CAPSTAT_FIRST 0

/-- A write of CAS_CMD: RCSET, CAPARM, CAPSTOP and START by their bits. -/
def Channel.casCmd (c : Channel) (w : Word) : Channel :=
  let c := if bitOf w 1 then c.set CAS_RCBIN_BIN (fget w 14 4) else c
  let c := if bitOf w 2 then c.capArm else c
  let c := if bitOf w 3 then c.capDone else c
  if bitOf w 0 then c.startRequest ((fget w 29 16).setWidth 14) else c

/-- END, through the fetch checks of every instruction. -/
def Channel.casEnd (c : Channel) (f : CasFetch) : Channel :=
  match c.issuing with
  | none => c
  | some r =>
      match f with
      | .illegal => c.abortRun r 1
      | .fetchEcc => c.abortRun r 3
      | _ => (c.casItem r 0 1).endRun r

/-- The run that RUNMAX ends with this cycle, the RUNMAX-th since SST (R319). -/
def Channel.overrun (c : Channel) : Option Run :=
  c.running.filter fun r => !c.cas.halted && r.outlasts (c.now - r.start)

/-- The end of a cycle of Cascade: a run that has lasted RUNMAX aborts (R319). -/
def Channel.endCasCycle (c : Channel) : Channel :=
  match c.overrun with
  | some r => c.abortRun r 5
  | none => c

/-- The beginning of a cycle of Cascade: what OUT and PUTPOS gave arrives, and requests are taken, the pending one first
(R317, R328, R329). -/
def Channel.beginCas (c : Channel) : Channel := (c.takeOuts.takePending).takeStarts

/-- Take a strobe bit that has reached its destination in this cycle (R192, R198). -/
def Channel.takeStrobe (c : Channel) (bit : Nat) (f : Channel → Channel) : Channel :=
  c.when (c.weir.arrived.getLsbD bit) fun c =>
    f { c with weir := { c.weir with arrived := c.weir.arrived &&& ~~~(BitVec.ofNat 16 (2 ^ bit)) } }

/-- BIN_ADVANCE: strobe bit 10 (R330). -/
def Channel.binAdvance (c : Channel) : Channel :=
  c.takeStrobe 10 fun c =>
    c.setN CAS_RCBIN_BIN ((c.rgN CAS_RCBIN_BIN + (if c.turnsForward then 1 else 2047)) % 2048)

/-- CAPTURE_TRIGGER: strobe bit 11 (R333). -/
def Channel.captureTrigger (c : Channel) : Channel :=
  c.takeStrobe 11 fun c =>
    if c.rgN CAS_CAPSTAT_STATE = 1 then
      { c.setN CAS_CAPSTAT_STATE 2 with cas := { c.cas with capH := c.rgN CAS_CAPSTAT_COUNT } }
    else c

/-- INJECTION_STEP: strobe bit 12, which steps the generator with STEPSRC = 0 (R331). -/
def Channel.injectionStep (c : Channel) : Channel :=
  c.takeStrobe 12 fun c => if c.lvB CAS_INJCTL_STEPSRC then c else c.injStep

/-- CAPD23_READ: the read of signals 2 and 3 advances CAPIDX (R333). -/
def Channel.capd23Read (c : Channel) : Channel :=
  c.setN CAS_CAPIDX_IDX ((c.rgN CAS_CAPIDX_IDX + 1) % 16384)

/-! ## CAS at an accepted commit (R319, R320, R329 to R331, R334) -/

/-- The generator restarts where a CAS_INJ field changed (R331). -/
def Channel.injCommit (old : List (Nat × Word)) (c : Channel) : Channel :=
  let keys := [CAS_INJCTL_EN.reg, CAS_INJAMP_AMP.reg, CAS_INJF0_F0.reg, CAS_INJFSTEP_FSTEP.reg, CAS_INJLEN_DWELL.reg]
  if keys.any (fun k => rget old k != rget c.live k) then
    if c.lvB CAS_INJCTL_EN then
      let i := { Inj.reset with reg := 2 ^ (prbsTaps (c.lvN CAS_INJCTL_ORDER)).1 - 1 }
      ({ c with cas := { c.cas with inj := i } }.setB CAS_INJSTAT_RUN (decide (c.lvN CAS_INJCTL_TYPE ≠ 0))).setN
        CAS_INJSTAT_STEP 0
    else c.setB CAS_INJSTAT_RUN false
  else c

/-- CAS's part of an accepted commit that names it. -/
def Channel.commitCas (old : List (Nat × Word)) (c : Channel) : Channel :=
  let c := c.setB CAS_STAT_STOPPED false
  let c := if c.lvB CAS_CTL_EN then c else c.dropPending 0x8000
  let c := if c.lvB CAS_CTL_OBSEN then c else c.setB CAS_STAT_OBSV false
  let c := if c.lvB CAS_RCCTL_EN && fld old CAS_RCCTL_EN == 0 then
      { c with cas := { c.cas with bR := c.rgN CAS_RCBIN_BIN } } else c
  (c.injCommit old).refreshClamps

end Sys2Proof.Machine
end

