-- ==== Sys2Proof/Machine/Super.lean ====
section
/-! DEFINITION. Super.lean: the motor supervisor of CAS, evaluated at every carrier boundary (R337 to R356). -/

namespace Sys2Proof.Machine

/-! ## Numbers and inputs (R338, R343, R346) -/

/-- x / d as a mantissa at exponent e, rounded to nearest, halves up (R309). -/
def quotAt (x : Dy) (d : Int) (e : Int) : Int :=
  let s := x.e - (e - 23)
  let num := if 0 ≤ s then x.n * pow2 s else x.n
  let den := if 0 ≤ s then d else d * pow2 (-s)
  Int.fdiv (2 * num + den) (2 * den)

/-- x / d in the number format of R310, rounded to nearest, with the smallest exponent that holds it (R338). -/
def wordOfQuot (x : Dy) (d : Int) : Word :=
  let fits := fun (k : Nat) => decide (loM ≤ quotAt x d ((k : Int) - 128)) && decide (quotAt x d ((k : Int) - 128) ≤ hiM)
  match (List.range 256).find? fits with
  | some k => wordOf (quotAt x d ((k : Int) - 128)) ((k : Int) - 128)
  | none => wordOf (if x.n < 0 then loM else hiM) 127

/-- Two numbers of R310 are the same value. -/
def numEq (a b : Word) : Bool := (numOf a).le (numOf b) && (numOf b).le (numOf a)

/-- A torque kept within CAS_TMIN to CAS_TMAX (R343). -/
def Channel.torque (c : Channel) (w : Word) : Word := clampNum (c.lv CAS_TMIN_VALUE) (c.lv CAS_TMAX_VALUE) w

/-- The negative of a number. -/
def negWord (w : Word) : Word := wordOfQuot (numOf w).neg 1

/-- Position valid: AVALID of the source in use and STALE = 0 (R344). -/
def Channel.posValid (c : Channel) : Bool := c.avalid c.srcUse && !c.rgB WEIR_STAT_STALE

def Channel.linkLost (c : Channel) : Bool := c.rgB MBX_STAT_LLOST

/-- Supervisor states (R343). -/
def Channel.msState (c : Channel) : Nat := c.rgN CAS_MSSTAT_STATE
def Channel.setState (c : Channel) (s : Nat) : Channel := c.setN CAS_MSSTAT_STATE s
def Channel.setSup (c : Channel) (f : Sup → Sup) : Channel := { c with cas := { c.cas with sup := f c.cas.sup } }

/-- T_tgt of R346, within the torque bounds. -/
def Channel.torqueTarget (c : Channel) : Word :=
  if c.rgB CAS_MSSTAT_STOPPING then c.torque 0
  else
    match c.rgN CAS_MSSTAT_LLPH with
    | 0 => c.torque (if c.rgB CAS_MSSTAT_DIRSEL then negWord (c.refClamped 0) else c.refClamped 0)
    | 1 => c.torque c.cas.sup.tHold
    | _ => c.torque 0

/-- The ramp rate of R346. -/
def Channel.torqueRate (c : Channel) : Word :=
  if !c.rgB CAS_MSSTAT_STOPPING && decide (2 ≤ c.rgN CAS_MSSTAT_LLPH) then c.lv CAS_MSLLRAMP_LLRAMP else c.refClamped 4

/-- T_out moves towards T_tgt by no more than RATE × P_b / 400,000; RATE = 0, and a held torque, step at once. A RATE below
0 lets it stand (log 79). -/
def Channel.rampTo (c : Channel) (pb : Nat) : Word :=
  let tgt := c.torqueTarget
  let cur := c.rg CAS_MSTOUT_TOUT
  let rate := c.torqueRate
  if (c.rgN CAS_MSSTAT_LLPH = 1 ∧ c.rgB CAS_MSSTAT_STOPPING = false) ∨ wordM rate = 0 then tgt
  else if wordM rate < 0 then cur
  else
    let step : Dy := ⟨(numOf rate).n * pb, (numOf rate).e⟩
    let cur4 : Dy := ⟨(numOf cur).n * 400000, (numOf cur).e⟩
    let tgt4 : Dy := ⟨(numOf tgt).n * 400000, (numOf tgt).e⟩
    if cur4.lt tgt4 then
      (if tgt4.le (cur4.add step) then tgt else wordOfQuot (cur4.add step) 400000)
    else if (cur4.sub step).le tgt4 then tgt
    else wordOfQuot (cur4.sub step) 400000

/-! ## The steps of R344 -/

/-- safe(x). -/
def Channel.toSafe (c : Channel) (x : Nat) : Channel :=
  let c := ((c.setState 4).setN CAS_MSSTAT_CAUSE x).setB CAS_MSSTAT_TRIPD true
  let c := c.count CAS_MSCNT_TRIPS
  if c.rgB PWM_TRIP_LATCH then c else c.setSup (fun s => { s with tripReq := true })

/-- SAFE entered because of the trip latch or STO, without a request. -/
def Channel.safeQuiet (c : Channel) (x : Nat) : Channel :=
  ((c.setState 4).setN CAS_MSSTAT_CAUSE x).count CAS_MSCNT_TRIPS

/-- RUN is entered with T_out := 0, clamped (R343). -/
def Channel.enterRun (c : Channel) : Channel := (c.setState 2).set CAS_MSTOUT_TOUT (c.torque 0)

def Channel.enterCoast (c : Channel) : Channel :=
  ((((c.setState 3).setN CAS_MSSTAT_CNT 0).setB CAS_MSSTAT_OLDET true).count CAS_MSCNT_COASTS).setSup
    (fun s => { s with latchSince := false })

/-- Step 1, link loss: hold, and ramp once the hold time has passed. -/
def Channel.superLink (c : Channel) (pb : Nat) : Channel :=
  let c :=
    if c.linkLost && decide (c.rgN CAS_MSSTAT_LLPH = 0) then
      ((c.setN CAS_MSSTAT_LLPH 1).setB CAS_MSSTAT_LLDET true).setSup
        (fun s => { s with tHold := c.rg CAS_MSTOUT_TOUT, holdTime := 0 })
    else if c.rgN CAS_MSSTAT_LLPH = 1 then c.setSup (fun s => { s with holdTime := s.holdTime + pb })
    else c
  if c.rgN CAS_MSSTAT_LLPH = 1 ∧ c.lvN CAS_MSLLHOLD_LLHOLD * 1000 ≤ c.cas.sup.holdTime then c.setN CAS_MSSTAT_LLPH 2
  else c

/-- Step 1, locked rotor (R349). -/
def Channel.superLocked (c : Channel) (pb : Nat) : Channel :=
  let w := c.lvN CAS_MSLRWIN_LRWIN
  let c := if c.cas.sup.comm then c.setB CAS_MSSTAT_LOCKED false else c
  let big := (numOf (c.lv CAS_MSLRTQ_LRTQ)).lt (numOf c.torqueTarget).abs
  if c.cas.sup.comm || decide (c.msState ≠ 2) || !big || decide (w = 0) then c.setSup (fun s => { s with lrTimer := 0 })
  else
    let t := c.cas.sup.lrTimer + pb
    let c := c.setSup (fun s => { s with lrTimer := t })
    if w * 1000 ≤ t ∧ c.rgB CAS_MSSTAT_LOCKED = false then
      ((c.setB CAS_MSSTAT_LOCKED true).setB CAS_MSSTAT_LRDET true).count CAS_MSCNT_LOCKED
    else c

/-- The watchdog of R355. -/
def Channel.cascadeSilent (c : Channel) : Bool :=
  decide (c.lvN CAS_MSCDWIN_CDWIN ≠ 0) &&
    (c.rgB CAS_STAT_STOPPED || decide (c.lvN CAS_MSCDWIN_CDWIN < c.now - c.cas.sup.tcd))

/-- CNT + 1, saturated. -/
def Channel.bumpCnt (c : Channel) : Channel := c.count CAS_MSSTAT_CNT

/-- Step 2: the one decision of this boundary. -/
def Channel.superDecide (c : Channel) : Channel :=
  let st := c.msState
  if st = 4 then c
  else if c.rgB PWM_TRIP_LATCH then c.safeQuiet 8
  else if c.rgB SAFE_STAT_STODEM then c.safeQuiet 9
  else if c.cascadeSilent then c.toSafe 7
  else if st = 3 then
    if c.posValid && c.cas.sup.latchSince then c.enterRun
    else if c.rgB WEIR_STAT_STALE then c.toSafe 3
    else
      let c := c.bumpCnt
      if atLeast1 (c.lvN CAS_MSCTL_NCOAST) ≤ c.rgN CAS_MSSTAT_CNT then c.toSafe 2 else c
  else if (st = 1 ∨ st = 2) ∧ c.posValid = false then
    if c.srcUse = 5 ∧ c.lvN CAS_MSOLSPD_OLSPD ≤ c.weir.absOmega then c.enterCoast else c.toSafe 1
  else if st = 2 ∧ c.rgB CAS_MSSTAT_LOCKED = true ∧ c.lvN CAS_MSCTL_LRACT = 2 then c.toSafe 4
  else if (st = 1 ∨ st = 2) ∧ c.cas.sup.xchk = true ∧ c.lvN CAS_MSCTL_XACT = 1 then c.toSafe 5
  else if st = 2 ∧ c.rgN CAS_MSSTAT_LLPH = 3 ∧ c.lvB CAS_MSCTL_LLEND = true then c.toSafe 6
  else if st = 1 then
    let c := c.bumpCnt
    if c.lvN CAS_MSCTL_NCATCH ≤ c.rgN CAS_MSSTAT_CNT then c.enterRun else c
  else c

/-- SAFE may be left: trip latch clear and no STO demand (R345). -/
def Channel.mayLeaveSafe (c : Channel) : Bool := !c.rgB PWM_TRIP_LATCH && !c.rgB SAFE_STAT_STODEM

def Channel.cmdStop (c : Channel) : Channel :=
  match c.msState with
  | 2 => c.setB CAS_MSSTAT_STOPPING true
  | 1 | 3 => c.setState 0
  | 4 => if c.mayLeaveSafe then c.setState 0 else c
  | _ => c

def Channel.cmdRun (c : Channel) : Channel :=
  if c.msState = 0 ∨ (c.msState = 4 ∧ c.mayLeaveSafe = true) then
    if !c.posValid then c.setB CAS_MSSTAT_RUNREF true
    else if c.lvN CAS_MSFSSPD_FSSPD ≤ c.weir.absOmega then (c.setState 1).setN CAS_MSSTAT_CNT 0
    else c.enterRun
  else c

def Channel.refuseDir (c : Channel) : Channel := (c.setB CAS_MSSTAT_REVREF true).count CAS_MSCNT_REVREF

def Channel.cmdDir (c : Channel) (back : Bool) : Channel :=
  if c.rgB CAS_MSSTAT_DIRSEL = back then c
  else if (c.msState = 0 ∨ c.msState = 2 ∨ c.msState = 4) ∧ c.posValid = true
      ∧ c.weir.absOmega < c.lvN CAS_MSREVSPD_REVSPD then c.setB CAS_MSSTAT_DIRSEL back
  else c.refuseDir

/-- The held commands in the order of R345. -/
def Channel.superCommands (c : Channel) : Channel :=
  let w := c.cas.sup.held
  let c := if bitOf w 2 then c.cmdStop else if bitOf w 1 then c.cmdRun else c
  let c :=
    if bitOf w 4 && bitOf w 5 then c.refuseDir.refuseDir
    else if bitOf w 4 then c.cmdDir false
    else if bitOf w 5 then c.cmdDir true
    else c
  if bitOf w 3 && !c.linkLost then c.setN CAS_MSSTAT_LLPH 0 else c

/-- The current limit in RUN (R343, R349). -/
def Channel.currentLimit (c : Channel) : Word :=
  let i := c.refClamped 3
  if c.rgB CAS_MSSTAT_LOCKED && decide (c.lvN CAS_MSCTL_LRACT = 1) && (numOf (c.lv CAS_MSLRILIM_LRILIM)).lt (numOf i) then
    clampNum 0 (c.lv CAS_ILIMHW_VALUE) (c.lv CAS_MSLRILIM_LRILIM)
  else i

/-- Step 3 and the outputs of R343. -/
def Channel.superReferences (c : Channel) (pb : Nat) : Channel :=
  let c := if c.msState = 2 then c.set CAS_MSTOUT_TOUT (c.torque (c.rampTo pb)) else c
  let there := numEq (c.rg CAS_MSTOUT_TOUT) c.torqueTarget
  let c := if c.msState = 2 ∧ c.rgB CAS_MSSTAT_STOPPING = true ∧ there = true then c.setState 0 else c
  let c := if c.rgN CAS_MSSTAT_LLPH = 2 ∧ (c.msState ≠ 2 ∨ there = true) then c.setN CAS_MSSTAT_LLPH 3 else c
  if c.msState = 2 then c.set CAS_MSIOUT_IOUT c.currentLimit
  else
    (((c.setB CAS_MSSTAT_STOPPING false).setB CAS_MSSTAT_LOCKED false).set CAS_MSTOUT_TOUT 0).set CAS_MSIOUT_IOUT 0

/-- The supervisor in a carrier boundary cycle that ends a period of `pb` CCLK: it takes its inputs as they are at the end of
that cycle, commands written in the cycle apart, and its outputs take effect with the next one (R337 to R339, R344). -/
def Channel.supervise (c : Channel) (pb : Nat) : Channel :=
  let c' :=
    if c.lvB CAS_MSCTL_EN then
      let c := (c.superLink pb).superLocked pb
      let st := c.msState
      let c := c.superDecide
      let c := if c.msState = st then c.superCommands else c
      c.superReferences pb
    else c
  c'.setSup (fun s => { s with held := s.late, late := 0, due := none, comm := false, xchk := false })

/-- The stop cycle: OFF unless SAFE (R342). -/
def Channel.superStop (c : Channel) : Channel :=
  if c.lvB CAS_MSCTL_EN && decide (c.msState ≠ 4) then
    ((((c.setState 0).setB CAS_MSSTAT_STOPPING false).setB CAS_MSSTAT_LOCKED false).set CAS_MSTOUT_TOUT 0).set
      CAS_MSIOUT_IOUT 0
  else c

/-- The end of a cycle of the supervisor. -/
def Channel.endSupCycle (c : Channel) : Channel :=
  match c.cas.sup.due with
  | some pb => c.supervise pb
  | none => if c.cas.sup.stop then c.superStop.setSup (fun s => { s with stop := false }) else c

/-- A write of CAS_MSCMD: held until the next boundary after its cycle, discarded while EN = 0 (R337, R338, R345). -/
def Channel.msCmd (c : Channel) (w : Word) : Channel :=
  c.when (c.lvB CAS_MSCTL_EN) (·.setSup fun s =>
    if s.due.isSome then { s with late := s.late ||| (w &&& 0x3E) } else { s with held := s.held ||| (w &&& 0x3E) })

/-- A latch has been delivered: a change of sector is a commutation event, and COAST sees the latch (R338, R344). -/
def Channel.superLatch (c : Channel) : Channel :=
  let sec := c.weir.thL.toNat * 6 / 4294967296
  c.setSup (fun s => { s with comm := s.comm || (s.sector.isSome && s.sector != some sec), sector := some sec
                              latchSince := true })

/-- A commit that changes EN puts the supervisor in OFF with its reset values, DIRSEL, flags and counts apart
(R337); one that makes EN 1 restarts the watchdog (R355). -/
def Channel.commitSup (old : List (Nat × Word)) (c : Channel) : Channel :=
  if fld old CAS_MSCTL_EN ≠ c.lv CAS_MSCTL_EN then
    let c := ((((((c.setState 0).setN CAS_MSSTAT_CAUSE 0).setN CAS_MSSTAT_LLPH 0).setB CAS_MSSTAT_LOCKED false).setB
      CAS_MSSTAT_STOPPING false).setN CAS_MSSTAT_CNT 0).set CAS_MSTOUT_TOUT 0
    (c.set CAS_MSIOUT_IOUT 0).setSup (fun s => { Sup.reset with
      sector := s.sector, tripReq := s.tripReq, tcd := if c.lvB CAS_MSCTL_EN then c.now else s.tcd })
  else c

end Sys2Proof.Machine
end

