-- ==== Sys2Proof/Machine/Safe.lean ====
section
/-! DEFINITION. Safe.lean: safe torque off, safe stop 1, contactors, torque plausibility, safely limited speed, the
halt guard, lab mode and the safety configuration (R410 to R440). Times on the safety oscillator are not counted by
the model: their expiries are commands (log 10). -/

namespace Sys2Proof.Machine

def Channel.setSafe (c : Channel) (f : Safe → Safe) : Channel := { c with safe := f c.safe }

/-- EV_STO with its code and the filtered inputs (R439). -/
def Channel.evSto (c : Channel) (code : Nat) : Channel :=
  c.raise 0x70 (code + 256 * c.rgN SAFE_STAT_STOA + 512 * c.rgN SAFE_STAT_STOB)

def Channel.evSs1 (c : Channel) (code : Nat) : Channel := c.raise 0x71 code
def Channel.evDiag (c : Channel) (code : Nat) : Channel := c.raise 0x73 code

/-- SYS_CAP.SAFE_CAP follows the conditions of R46. -/
def Channel.refreshCap (c : Channel) : Channel :=
  c.setB SYS_CAP_SAFE_CAP (!c.rgB SYS_CAP_DUAL_CORE && !c.rgB SYS_CAP_LAB && !c.rgB SYS_CAP_DEGRADED && c.booted)

/-! ## Safe torque off (R413 to R418) -/

/-- A contactor fault whose contactor has KTRIP = 1 (R414). -/
def Channel.kTrips (c : Channel) : Bool :=
  [0, 1, 2].any (fun k => c.rgB (SAFE_STAT_KFAULT.bit k) && c.lvB (SAFE_KCFG_KTRIP k))

/-- The conditions of R414 other than RESTWAIT, each with a bit of its own. -/
def Channel.stoCond (c : Channel) : BitVec 6 :=
  let p := [!c.lvB SAFE_STOCFG_INMODE && (!c.rgB SAFE_STAT_STOA || !c.rgB SAFE_STAT_STOB), c.rgB SAFE_STAT_DISCF,
    c.rgN SAFE_STAT_SS1PH == 2, c.rgB SAFE_STAT_OSCF || c.rgB SAFE_STAT_STOTF, c.kTrips, !c.safe.started]
  p.zipIdx.foldl (fun m x => if x.1 then m ||| BitVec.ofNat 6 (2 ^ x.2) else m) 0

/-- The STO demand follows its conditions: it begins with every leg in state 0; with MANREST = 1 the end of any of them
makes it wait for STORST; a release reaches the legs at the next boundary, or at once where the carrier is stopped (R414,
R415). -/
def Channel.safeEval (c : Channel) : Channel :=
  let cond := c.stoCond
  let c := if c.safe.cond &&& ~~~cond ≠ 0 ∧ c.lvB SAFE_STOCFG_MANREST = true then c.setB SAFE_STAT_RESTWAIT true else c
  let c := c.setSafe (fun s => { s with cond := cond })
  let dem := cond != 0 || c.rgB SAFE_STAT_RESTWAIT
  if dem && !c.rgB SAFE_STAT_STODEM then
    ((c.setB SAFE_STAT_STODEM true).setSafe (fun s => { s with relPend := false })).dropLegs
  else if !dem && c.rgB SAFE_STAT_STODEM then
    let c := c.setB SAFE_STAT_STODEM false
    if c.pwm.running then c.setSafe (fun s => { s with relPend := true }) else c.evSto 2
  else c

/-- A release comes into effect at a carrier boundary, or when the carrier stops: EV_STO 0x2 (R415). -/
def Channel.boundarySafe (c : Channel) : Channel :=
  if c.safe.relPend && !c.rgB SAFE_STAT_STODEM then
    (c.setSafe (fun s => { s with relPend := false })).evSto 2
  else c

/-- SS1 starts from the inputs (code 1) or by SS1REQ (code 2) (R419). -/
def Channel.ss1Begin (c : Channel) (inputs : Bool) : Channel :=
  ((c.setN SAFE_STAT_SS1PH 1).setSafe (fun s => { s with
    ss1In := inputs, ss1Start := c.weir.absOmega, ss1T := c.lvN SAFE_SS1CFG_SS1T })).evSs1 (if inputs then 1 else 2)

/-- SS1 ends: cancelled in its running phase, released in its STO phase (R421). -/
def Channel.ss1End (c : Channel) : Channel :=
  let running := decide (c.rgN SAFE_STAT_SS1PH = 1)
  let c := c.setN SAFE_STAT_SS1PH 0
  if running then c.evSs1 6 else c

/-- The input demand of INMODE = 1: it starts SS1, or takes over one that SS1REQ started. -/
def Channel.ss1FromInput (c : Channel) : Channel :=
  if c.rgN SAFE_STAT_SS1PH = 0 then c.ss1Begin true else c.setSafe (fun s => { s with ss1In := true })

/-- A filtered STO input falls: EV_STO 0x1 for the first of the two; with INMODE = 1 its delay timer and SS1 start. -/
def Channel.stoFalls (c : Channel) (inB : Bool) (bothHigh : Bool) : Channel :=
  let c := if bothHigh then c.evSto 1 else c
  if c.lvB SAFE_STOCFG_INMODE then
    let t := some (c.lvN SAFE_SS1CFG_SS1T)
    let c := c.setSafe (fun s => if inB then { s with timerB := t } else { s with timerA := t })
    c.ss1FromInput
  else c.setSafe (fun s => if inB then { s with dirB := true } else { s with dirA := true })

/-- A filtered STO input rises: its timer stops and its element is no longer asserted by it; both high ends the start
demand and an SS1 that the inputs started (R413, R414, R421). -/
def Channel.stoRises (c : Channel) (inB : Bool) : Channel :=
  let c := c.setSafe (fun s => if inB then { s with timerB := none, dirB := false }
    else { s with timerA := none, dirA := false })
  if c.rgB SAFE_STAT_STOA && c.rgB SAFE_STAT_STOB then
    let c := c.setSafe (fun s => { s with started := true })
    if c.rgN SAFE_STAT_SS1PH ≠ 0 ∧ c.safe.ss1In = true ∧ c.rgB SAFE_STAT_DISCF = false then c.ss1End else c
  else c

/-- STO_INPUT_CHANGE: a filtered input takes a new level (R413, R416). -/
def Channel.stoInput (c : Channel) (inB level : Bool) : Channel :=
  let f := if inB then SAFE_STAT_STOB else SAFE_STAT_STOA
  c.when (c.rgB f != level) fun c =>
    let bothHigh := c.rgB SAFE_STAT_STOA && c.rgB SAFE_STAT_STOB
    let c := c.setB f level
    let c := if level then c.stoRises inB else c.stoFalls inB bothHigh
    let c :=
      if c.rgB SAFE_STAT_DISCF && !c.rgB SAFE_STAT_STOA && !c.rgB SAFE_STAT_STOB then
        (c.setB SAFE_STAT_DISCF false).evSto 4
      else c
    c.safeEval

/-- STO_DELAY_TIMER_EXPIRY: the input's own timer asserts its element (R413). -/
def Channel.stoTimer (c : Channel) (inB : Bool) : Channel :=
  c.when ((if inB then c.safe.timerB else c.safe.timerA).isSome) fun c =>
    (c.setSafe (fun s => if inB then { s with timerB := none, dirB := true }
      else { s with timerA := none, dirA := true })).safeEval

/-- STO_DISCREPANCY (R416). -/
def Channel.stoDiscrepancy (c : Channel) : Channel :=
  c.when ((c.rgB SAFE_STAT_STOA != c.rgB SAFE_STAT_STOB) && !c.rgB SAFE_STAT_DISCF) fun c =>
    ((c.setB SAFE_STAT_DISCF true).evSto 3).safeEval

/-- STO_TEST_DONE (R418). -/
def Channel.stoTestDone (c : Channel) (pass : Bool) : Channel :=
  c.when c.safe.testing fun c =>
    let c := c.setSafe (fun s => { s with testing := false })
    if pass then c.evSto 5 else ((c.setB SAFE_STAT_STOTF true).evSto 6).safeEval

/-! ## Safe stop 1 (R419 to R421) -/

/-- SS1 enters its STO phase (R420). -/
def Channel.ss1Sto (c : Channel) (code : Nat) : Channel := ((c.setN SAFE_STAT_SS1PH 2).evSs1 code).safeEval

/-- SS1_TIMER_EXPIRY. -/
def Channel.ss1Timer (c : Channel) : Channel := c.when (decide (c.rgN SAFE_STAT_SS1PH = 1)) (·.ss1Sto 4)

/-- The speed comparison at a position latch. -/
def Channel.ss1Latch (c : Channel) : Channel :=
  if c.rgN SAFE_STAT_SS1PH = 1 then
    if c.weir.absOmega < c.lvN SAFE_SS1SPD_SS1SPD then c.ss1Sto 3
    else if c.safe.ss1Start + c.lvN SAFE_SS1TOL_SS1TOL < c.weir.absOmega then c.ss1Sto 5
    else c
  else c

/-! ## Contactors (R422 to R424) -/

/-- EV_KMON with contactor and kind. -/
def Channel.evKmon (c : Channel) (k kind : Nat) : Channel := c.raise 0x72 (k + 16 * kind)

def Channel.setConf (c : Channel) (k : Nat) (b : Bool) : Channel :=
  let m := BitVec.ofNat 3 (2 ^ k)
  c.setSafe (fun s => { s with conf := if b then s.conf ||| m else s.conf &&& ~~~m })

/-- Cn_KOUTk is commanded; the command is confirmed where the feedback already agrees. -/
def Channel.kout (c : Channel) (k : Nat) (close : Bool) : Channel :=
  if c.rgB (SAFE_STAT_KCL.bit k) = close then c
  else (c.setB (SAFE_STAT_KCL.bit k) close).setConf k (c.rgB (SAFE_STAT_KFB.bit k) == close)

/-- A contactor fault: KFAULTk, its kind, EV_KMON, Cn_KOUTk low (R423). -/
def Channel.kFault (c : Channel) (k kind : Nat) : Channel :=
  ((((c.setB (SAFE_STAT_KFAULT.bit k) true).setN (SAFE_KSTAT_KIND k) kind).evKmon k kind).kout k false).safeEval

/-- A write of SAFE_KCMD for one contactor: OPENk wins over CLOSEk; a close is refused while faulted (R422). -/
def Channel.kCmdOne (w : Word) (c : Channel) (k : Nat) : Channel :=
  if bitOf w (3 + k) then c.kout k false
  else if bitOf w k && c.lvB (SAFE_KCFG_EN k) then
    if c.rgB (SAFE_STAT_KFAULT.bit k) then c.evKmon k 6 else c.kout k true
  else c

def Channel.kCmd (c : Channel) (w : Word) : Channel := [0, 1, 2].foldl (Channel.kCmdOne w) c

/-- Filtered feedback reports the contactor closed or open: it confirms the command or is a fault (R423). -/
def Channel.kReport (c : Channel) (k : Nat) (closed : Bool) : Channel :=
  let c := c.setB (SAFE_STAT_KFB.bit k) closed
  if c.lvB (SAFE_KCFG_EN k) && !c.rgB (SAFE_STAT_KFAULT.bit k) then
    let cl := c.rgB (SAFE_STAT_KCL.bit k)
    if closed = cl then c.setConf k true
    else if c.safe.conf.getLsbD k then c.kFault k (if cl then 3 else 4)
    else c
  else c.setConf k (!closed)

/-- CONTACTOR_FEEDBACK_CHANGE: filtered feedback takes a level (R423). -/
def Channel.kFeedback (c : Channel) (k : Nat) (level : Bool) : Channel :=
  c.when (decide (k < 3)) (·.kReport k (level != c.lvB (SAFE_KCFG_FBPOL k)))

/-- CONTACTOR_TIME_LIMIT: KCLT or KOPT passes without matching feedback (R423). -/
def Channel.kLimit (c : Channel) (k : Nat) : Channel :=
  c.when (decide (k < 3) && c.lvB (SAFE_KCFG_EN k) && !c.rgB (SAFE_STAT_KFAULT.bit k) && !c.safe.conf.getLsbD k) fun c =>
    c.kFault k (if c.rgB (SAFE_STAT_KCL.bit k) then 2 else 1)

/-- KCLR for one contactor: a fault whose feedback reports open clears (R424). -/
def Channel.kClearOne (c : Channel) (k : Nat) : Channel :=
  if c.rgB (SAFE_STAT_KFAULT.bit k) && !c.rgB (SAFE_STAT_KFB.bit k) then
    (((c.setB (SAFE_STAT_KFAULT.bit k) false).setN (SAFE_KSTAT_KIND k) 0).evKmon k 5).setConf k true
  else c

/-! ## The halt guard (R432, R433) -/

/-- The pattern HGSTATE selects now. -/
def Channel.hgPattern (c : Channel) : Nat :=
  match c.lvN SAFE_HG_HGSTATE with
  | 3 =>
    if c.rgB WEIR_STAT_STALE then c.ascGroup
    else if c.lvN PWM_ASCSPD_ASCSPD ≤ c.weir.absOmega then c.ascGroup else 0
  | p => p

/-- HALT_GUARD_EXPIRY: HGTIME after the debug halt began, outside three-pin mode; HGEN = 0 acts only in lab mode
(R432, R434). -/
def Channel.haltGuard (c : Channel) : Channel :=
  c.when (c.dom.dbg.halted && !c.rgB GDI_STAT_TPM && !c.rgB SAFE_STAT_HGACT
      && (c.lvB SAFE_HG_HGEN || !c.rgB SAFE_STAT_LAB)) fun c =>
    let c := (c.setB SAFE_STAT_HGACT true).evDiag 3
    ({ c with pwm := { c.pwm with hg := some c.hgPattern } }).dropLegs

/-- The speed-selected choice made again at a latch, as R298 states. -/
def Channel.hgLatch (c : Channel) : Channel :=
  match c.pwm.hg with
  | some old =>
    if c.lvN SAFE_HG_HGSTATE = 3 ∧ c.rgB WEIR_STAT_STALE = false then
      let s := c.lvN PWM_ASCSPD_ASCSPD
      let p := if s ≤ c.weir.absOmega then c.ascGroup
        else if c.weir.absOmega < s - s / 8 then 0 else old
      if p ≠ old then { c with pwm := { c.pwm with hg := some p } }.raise 0x62 p else c
    else c
  | none => c

/-! ## SAFE_CMD -/

/-- STORST clears RESTWAIT where no other condition holds (R415). -/
def Channel.stoRestart (c : Channel) : Channel :=
  if c.stoCond ≠ 0 then c else (c.setB SAFE_STAT_RESTWAIT false).safeEval

/-- STOTEST starts the readback test where R418 admits it. -/
def Channel.stoTest (c : Channel) : Channel :=
  if c.rgB SAFE_STAT_STOA || c.rgB SAFE_STAT_STOB || c.rgB SAFE_STAT_DISCF || c.safe.testing then c
  else (c.setSafe (fun s => { s with testing := true })).dropLegs

def Channel.ss1Request (c : Channel) : Channel :=
  if c.rgN SAFE_STAT_SS1PH ≠ 0 ∨ c.rgB SAFE_STAT_STODEM = true then c else c.ss1Begin false

def Channel.ss1Clear (c : Channel) : Channel :=
  if c.rgN SAFE_STAT_SS1PH ≠ 0 ∧ c.safe.ss1In = false ∧ c.rgB SAFE_STAT_STOA = true ∧ c.rgB SAFE_STAT_STOB = true
  then c.ss1End.safeEval else c

def Channel.hgClear (c : Channel) : Channel :=
  if c.dom.dbg.halted then c else c.setB SAFE_STAT_HGACT false

/-- A write of SAFE_CMD: each bit of one in turn (log 8). -/
def Channel.safeCmd (c : Channel) (w : Word) : Channel :=
  let c := if bitOf w 6 then c.stoTest else c
  let c := if bitOf w 5 then c.stoRestart else c
  let c := if bitOf w 4 then c.ss1Request else c
  let c := if bitOf w 3 then c.ss1Clear else c
  let c := if bitOf w 2 then ([0, 1, 2].foldl Channel.kClearOne c).safeEval else c
  if bitOf w 1 then c.hgClear else c

/-! ## Torque plausibility (R426 to R430) -/

/-- The unit is suspended for a reason other than staleness (R429). -/
def Channel.tpBlocked (c : Channel) : Bool :=
  !c.lvB SAFE_TPCFG_TPEN || c.ssrc == 0 || !c.avalid c.ssrc || c.lvN ADC_CTL_ROVMODE == 0 || c.rgB ADC_STAT_NOROVE

/-- TPSTALE in CCLK. -/
def Channel.tpLimit (c : Channel) : Nat := 1000 * atLeast1 (c.lvN SAFE_TPSTALE_TPSTALE)

/-- No estimate has been made for TPSTALE (R429). -/
def Channel.tpStale (c : Channel) : Bool := decide (c.safe.tpLast + c.tpLimit ≤ c.now)

/-- TPSUSP follows its causes; a suspension begins with the run count cleared (R429). -/
def Channel.tpRefresh (c : Channel) : Channel :=
  let s := c.tpBlocked || c.tpStale
  let c := if s && !c.rgB SAFE_STAT_TPSUSP then
      c.setSafe (fun x => { x with tpSince := c.now, tpTold := false }) else c
  let c := if s then c.setSafe (fun x => { x with tpRun := 0 }) else c
  c.setB SAFE_STAT_TPSUSP s

/-- The failure of R428: TPFAIL, EV_SAFEDIAG 0x1 and, with TPTRIP = 1, a trip request in the next cycle. -/
def Channel.tpFailure (c : Channel) : Channel :=
  let c := (c.setB SAFE_STAT_TPFAIL true).evDiag 1
  if c.lvB SAFE_TPCFG_TPTRIP then c.setSup (fun s => { s with tripReq := true }) else c

/-- A rover slot check of input i at h with result word w joins the samples of its phase (R426). -/
def Channel.tpSample (c : Channel) (i h : Nat) (w : Word) : Channel :=
  if bitOf w 27 then c
  else
    let r := c.formLatch c.ssrc
    let s := r.1
    let c := r.2
    let th := s.1 + wordOfInt (Int.fdiv (sgn 32 s.2.1.toNat * ((h : Int) - (s.2.2 : Int))) 65536)
    let smp (a : Word) : Option TpSample := some ⟨sgn 16 (w.toNat % 65536), th - a, h, c.safe.winHold⟩
    let c := if i = c.lvN SAFE_TPCFG_TINU then c.setSafe (fun x => { x with tpU := smp 0, tpNew := some c.now }) else c
    let c := if i = c.lvN SAFE_TPCFG_TINV then
        c.setSafe (fun x => { x with tpV := smp 1431655765, tpNew := some c.now }) else c
    if i = c.lvN SAFE_TPCFG_TINW then c.setSafe (fun x => { x with tpW := smp 2863311531, tpNew := some c.now }) else c

/-- CONVERSION_STORE with the sample that the plausibility unit takes from a slot check. -/
def Channel.conversionStored (c : Channel) (q : Sample) : Channel :=
  let c' := c.conversionStore q
  match c.storeDue with
  | some g =>
    match g.check with
    | some (.slot j) =>
      if g.conv = 0 ∧ c'.lvB SAFE_TPCFG_TPEN = true then
        c'.tpSample (seqEntry g.bank g.line j 0) g.hold0 (sget 0 c'.adc.results (32 * g.line + 12))
      else c'
    | _ => c'
  | none => c'

/-- Strobe bits 13 and 14: both leave the window closed (R430). -/
def Channel.diagWindow (c : Channel) (opened closed : Bool) : Channel :=
  if closed then c.setB SAFE_STAT_WINOPEN false else if opened then c.setB SAFE_STAT_WINOPEN true else c

/-- The window in a new cycle: the strobes that reach it, and whether it is open at the first hold of a group (R427, R430). -/
def Channel.windowEdge (c : Channel) : Channel :=
  let c := c.diagWindow (c.weir.arrived.getLsbD 13) (c.weir.arrived.getLsbD 14)
  if c.adc.grp.any (fun g => g.hold0 == c.now) then c.setSafe (fun s => { s with winHold := c.rgB SAFE_STAT_WINOPEN }) else c

/-- The comparison |T̂ − T_cmd| > TPTOL + TPREL × |T_cmd|. -/
def Channel.tpFails (c : Channel) (t : Word) : Bool :=
  let cmd := numOf (c.refUse 0)
  let lim := (numOf (c.lv SAFE_TPTOL_TPTOL)).add ((Dy.mk (c.lvN SAFE_TPLIM_TPREL) (-16)).mul cmd.abs)
  lim.lt ((numOf t).sub cmd).abs

/-- x / d as a mantissa at exponent e, rounded down. -/
def floorAt (x : Dy) (d : Int) (e : Int) : Int :=
  let s := x.e - (e - 23)
  Int.fdiv (if 0 ≤ s then x.n * pow2 s else x.n) (if 0 ≤ s then d else d * pow2 (-s))

/-- T̂ of R427 in the number format of R310: its formula, exact, at the exponent that holds it, rounded to one of its two
neighbours, the choice being free (log 9). Three times îd and îq are dyadic, and so is nine times T̂. -/
def torqueOf (u v w : TpSample) (kt kr : Word) : Word :=
  let sum := fun (f : Word → Int) => u.value * f u.angle + v.value * f v.angle + w.value * f w.angle
  let d : Dy := ⟨2 * sum cos60, -75⟩
  let q : Dy := ⟨-(2 * sum sin60), -75⟩
  let x := q.mul (((Dy.ofInt 3).mul (numOf kt)).add ((numOf kr).mul d))
  let e := wordE (wordOfQuot x 9)
  let up := Config.torqueUp [wordOfInt u.value, wordOfInt v.value, wordOfInt w.value, u.angle, v.angle, w.angle, kt, kr]
  wordOf (clampI loM hiM (if up then -(floorAt x.neg 9 e) else floorAt x 9 e)) e

/-- The samples of an estimate: one newer than the last estimate, and all three close enough together (R427). -/
def Channel.tpSamples (c : Channel) : Option (TpSample × TpSample × TpSample) :=
  match c.safe.tpNew, c.safe.tpU, c.safe.tpV, c.safe.tpW with
  | some _, some u, some v, some w =>
    if max u.h (max v.h w.h) - min u.h (min v.h w.h) ≤ 1000 * atLeast1 (c.lvN SAFE_TPLIM_TPSPAN) then some (u, v, w) else none
  | _, _, _, _ => none

/-- A counted estimate against T_cmd: a failing one counts, and the unit fails when the count reaches TPCNT; a passing one
clears the count (R427, R428; log 80). -/
def Channel.tpJudge (c : Channel) (t : Word) : Channel :=
  if c.tpFails t then
    let n := c.safe.tpRun + 1
    let c := c.setSafe (fun s => { s with tpRun := n })
    if n = atLeast1 (c.lvN SAFE_TPCFG_TPCNT) then c.tpFailure else c
  else c.setSafe (fun s => { s with tpRun := 0 })

/-- TORQUE_ESTIMATE: an estimate and its comparison. It comes within 64 CCLK of the store of the newest sample (R427). -/
def Channel.torqueEstimate (c : Channel) : Channel :=
  match c.tpSamples with
  | some (u, v, w) =>
    c.when (!c.tpBlocked) fun c =>
      let t := torqueOf u v w (c.lv SAFE_TPKT_KT) (c.lv SAFE_TPKR_KR)
      let c := ((c.set SAFE_TPEST_TEST t).setSafe (fun s => { s with tpNew := none, tpLast := c.now })).tpRefresh
      let newest := if v.h ≤ u.h ∧ w.h ≤ u.h then u else if w.h ≤ v.h then v else w
      if c.lvB SAFE_TPCFG_TPWIN && !newest.win then c else c.tpJudge t
  | none => c

/-- A suspension of TPSTALE with TPREQ = 1 acts as a failure, once (R429). -/
def Channel.tpSuspension (c : Channel) : Channel :=
  if c.rgB SAFE_STAT_TPSUSP && c.lvB SAFE_TPCFG_TPREQ && !c.safe.tpTold && decide (c.safe.tpSince + c.tpLimit ≤ c.now) then
    ((c.setSafe (fun s => { s with tpTold := true })).evDiag 2).tpFailure
  else c

/-- The unit in a new cycle: an estimate that can wait no longer, and its suspension (R427, R429). -/
def Channel.tpWatch (c : Channel) : Channel :=
  let c := if c.safe.tpNew.any (fun t => decide (t + 64 ≤ c.now)) then c.torqueEstimate else c
  (c.tpRefresh).tpSuspension

/-! ## Safely limited speed (R431) -/

/-- SLSLIM in use: bounded to SLSMIN to SLSMAX, the upper bound where they are crossed (R163). -/
def Channel.slsLimit (c : Channel) : Nat :=
  let hi := c.lvN SAFE_SLSMAX_SLSMAX
  let lo := c.lvN SAFE_SLSMIN_SLSMIN
  let v := c.lvN SAFE_SLSLIM_SLSLIM
  if hi < lo ∨ hi < v then hi else if v < lo then lo else v

def Channel.slsLatch (c : Channel) : Channel :=
  if c.lvN SAFE_SLSMAX_SLSMAX = 0 then c
  else if c.slsLimit < c.weir.absOmega then
    if c.rgB SAFE_STAT_SLSOVR then c else (c.setB SAFE_STAT_SLSOVR true).evDiag 0xB
  else c.setB SAFE_STAT_SLSOVR false

/-- What SAFE does at a position latch. -/
def Channel.safeLatch (c : Channel) : Channel := c.ss1Latch.slsLatch.hgLatch

/-- What follows from a latch in PWM, the supervisor and SAFE (R298, R338, R420, R431). -/
def Channel.latchActs (c : Channel) : Channel := c.tripAtLatch.superLatch.safeLatch

/-! ## The safety configuration (R434 to R438) -/

/-- An entry joins the change-log queue; beyond 32 it is counted in LOST (R438). -/
def Channel.logAdd (c : Channel) (who engine what : Nat) (old new : Word) : Channel :=
  if 32 ≤ c.safe.logQ.length then c.count SAFE_LOGSTAT_LOST
  else
    let rtv := c.rgB MBX_STAT_RTV
    let t := if rtv then c.rt else c.now
    let d0 := BitVec.ofNat 32 (who * 268435456 + (if rtv then 134217728 else 0) + engine * 65536 + what)
    c.setSafe (fun s => { s with
      logQ := s.logQ ++ [[d0, old, new, BitVec.ofNat 32 t, BitVec.ofNat 32 (t / 4294967296)]] })

/-- The index of the channel's main core (R25), or 0 where no core is main. -/
def Channel.mainIndex (c : Channel) : Nat :=
  match c.dom.main with
  | some e => 5 * c.dom.id + e.idx
  | none => 0

/-- A lock or lab event is logged under the main core's index (log 80); what OLD and NEW hold then is not stated (log 3). -/
def Channel.logLock (c : Channel) : Channel :=
  let a := c.free 380
  let b := a.2.free 381
  b.2.logAdd 3 b.2.mainIndex 0xFFFF a.1 b.1

/-- LOG_ENTRY_WRITE: the oldest queued entry goes to NVM (R438). -/
def Channel.logWrite (c : Channel) : Channel :=
  match c.safe.logQ with
  | e :: es =>
    let i := c.rgN SAFE_LOGSTAT_NEXT
    let c := c.setSafe (fun s => { s with logQ := es })
    let c := (List.range 5).foldl (fun (c : Channel) j => c.putWord (0x201E1000 + 20 * i + 4 * j) (e.getD j 0)) c
    ((c.count SAFE_LOGSTAT_TOTAL).setN SAFE_LOGSTAT_NEXT ((i + 1) % 256)).evDiag 9
  | [] => c

/-- LOGD4_READ: the read of word D4 advances the index (R440). -/
def Channel.logd4Read (c : Channel) : Channel := c.setN SAFE_LOGIDX_IDX ((c.rgN SAFE_LOGIDX_IDX + 1) % 256)

/-- SAFE_UNLOCK (R436). -/
def Channel.safeUnlock (c : Channel) (w : Word) : Channel :=
  if c.rgB SAFE_STAT_LOCKOUT then c
  else if w = c.safe.password then
    (((c.setB SAFE_STAT_UNLOCKED true).setN SAFE_STAT_FAILCNT 0).evDiag 7).logLock
  else
    let n := c.rgN SAFE_STAT_FAILCNT + 1
    let c := (c.setN SAFE_STAT_FAILCNT n).evDiag 6
    if 4 ≤ n then c.setB SAFE_STAT_LOCKOUT true else c

/-- UNLOCKED clears: EV_SAFEDIAG 0x8 and a log entry. -/
def Channel.lockNow (c : Channel) : Channel :=
  if c.rgB SAFE_STAT_UNLOCKED then ((c.setB SAFE_STAT_UNLOCKED false).evDiag 8).logLock else c

def Channel.setLab (c : Channel) (on : Bool) : Channel :=
  ((((c.setB SAFE_STAT_LAB on).setB SYS_CAP_LAB on).refreshCap).evDiag (if on then 4 else 5)).logLock

/-- A write of SAFE_LOCKCTL: RELOCK, LABENTER and LABEXIT in turn (R434, R436, log 8). -/
def Channel.lockCtl (c : Channel) (w : Word) : Channel :=
  let c := if bitOf w 0 then c.lockNow else c
  let c := if bitOf w 1 && c.rgB SAFE_STAT_UNLOCKED && !c.rgB SAFE_STAT_LAB then c.setLab true else c
  if bitOf w 2 && c.rgB SAFE_STAT_LAB then c.setLab false else c

/-- OSC_WINDOW_CHECK: a window of 1,000 oscillator cycles, which began in cycle `first` and ends in this one, on one clock
source: a CCLK count more than 8 % off sets OSCF until channel reset (R410). -/
def Channel.oscWindow (c : Channel) (first count : Nat) : Channel :=
  let changed := decide (first < c.dom.pll.srcAt) || c.dom.pll.srcWas != c.dom.source
  let e : Nat := if c.rgB PLL_STAT_RC then 5000 else 20000
  let off := if count ≤ e then e - count else count - e
  c.when (decide (first + count = c.now) && !changed && !c.rgB SAFE_STAT_OSCF && decide (8 * e < 100 * off)) fun c =>
    ((c.setB SAFE_STAT_OSCF true).evDiag 0xA).safeEval

/-! ## SAFE at an accepted commit (R422, R429, R432, R438) -/

/-- One contactor through a commit: ENk = 0 drives Cn_KOUTk low and clears its fault; a changed polarity changes what
the feedback reports. -/
def Channel.commitContactor (old : List (Nat × Word)) (c : Channel) (k : Nat) : Channel :=
  let c := if fld old (SAFE_KCFG_FBPOL k) ≠ c.lv (SAFE_KCFG_FBPOL k) then
      c.kReport k (!c.rgB (SAFE_STAT_KFB.bit k)) else c
  if c.lvB (SAFE_KCFG_EN k) then c
  else ((c.setB (SAFE_STAT_KFAULT.bit k) false).setN (SAFE_KSTAT_KIND k) 0).kout k false

/-- The offsets of SAFE's RWP registers. -/
def safeOffsets : List Nat :=
  [0x00, 0x04, 0x08, 0x0C, 0x10, 0x14, 0x18, 0x20, 0x24, 0x28, 0x2C, 0x30, 0x34, 0x38, 0x3C]

/-- One log entry per SAFE register whose live value the commit changed. -/
def Channel.commitLog (old : List (Nat × Word)) (who engine : Nat) (c : Channel) (o : Nat) : Channel :=
  let a := rget old (0x80000 + o)
  let b := rget c.live (0x80000 + o)
  if a = b then c else c.logAdd who engine o a b

/-- SAFE's part of an accepted commit that names it. -/
def Channel.commitSafe (old : List (Nat × Word)) (who engine : Nat) (c : Channel) : Channel :=
  let c := safeOffsets.foldl (Channel.commitLog old who engine) c
  let c := [0, 1, 2].foldl (Channel.commitContactor old) c
  let tp := [0x20, 0x24, 0x28, 0x2C, 0x30, 0x34].any (fun o => rget old (0x80000 + o) != rget c.live (0x80000 + o))
  let c := if tp then
      c.setSafe (fun s => { s with tpU := none, tpV := none, tpW := none, tpNew := none, tpRun := 0 }) else c
  let c := if c.rgB SAFE_STAT_HGACT && fld old SAFE_HG_HGSTATE != c.lv SAFE_HG_HGSTATE then
      { c with pwm := { c.pwm with hg := some c.hgPattern } } else c
  c.tpRefresh.safeEval

end Sys2Proof.Machine
end

