-- ==== Sys2Proof/Machine/Commit.lean ====
section
/-! DEFINITION. Commit.lean: the commit controller and the consistency checker (R148 to R162, R210), and the live-writable
registers with their hold (R163 to R166). -/

namespace Sys2Proof.Machine

/-! ## Banks -/

/-- The live registers with the named blocks' plan-bank registers in their place (R149, R157). -/
def mergeBanks (mask : BitVec 7) (plan live : List (Nat × Word)) : List (Nat × Word) :=
  (((plan ++ live).map (·.1)).filter (fun k => named mask k && isPlanKey k)).foldl
    (fun m k => rput m k (rget plan k)) live

/-- The keys of the live-writable registers (R163). -/
def rwlKeys : List Nat :=
  [CAS_TREF_VALUE.reg, CAS_FREF_VALUE.reg, CAS_SREF_VALUE.reg, CAS_ILIM_VALUE.reg, CAS_TRAMP_VALUE.reg,
    PWM_MIMAX_MIMAX.reg, GDI_BRKTH_ON.reg, SAFE_SLSLIM_SLSLIM.reg]

/-- The value in use of a live register (R151, R163, R164). -/
def Channel.liveView (c : Channel) (k : Nat) : Word :=
  match k with
  | 0x70080 => c.refClamped 0
  | 0x70084 => c.refClamped 1
  | 0x70088 => c.refClamped 2
  | 0x7008C => c.refClamped 3
  | 0x70090 => c.refClamped 4
  | 0x500E0 => BitVec.ofNat 32 c.mimax
  | _ =>
    if k = GDI_BRKTH_ON.reg then
      fput (rget c.live k) GDI_BRKTH_ON.hi GDI_BRKTH_ON.lo (BitVec.ofNat 32 (min (c.lvN GDI_BRKTH_ON) (c.lvN GDI_OVTH_OV2TH - 1)))
    else if k = SAFE_SLSLIM_SLSLIM.reg then BitVec.ofNat 32 c.slsLimit
    else rget c.live k

/-- What the checker looks at: the named plan banks, the live banks of the other blocks, and every live-writable register
as the data path uses it in cycle Q (R153, R157). -/
def Channel.checkView (c : Channel) (mask : BitVec 7) (plan : List (Nat × Word)) : List (Nat × Word) :=
  rwlKeys.foldl (fun m k => rput m k (c.liveView k)) (mergeBanks mask plan c.live)

/-! ## The rules of R158 -/

def blkWeir : Nat := 1
def blkPos : Nat := 2
def blkAdc : Nat := 4
def blkPwm : Nat := 8
def blkGdi : Nat := 16
def blkCas : Nat := 32
def blkSafe : Nat := 64

/-- A rule: code, blocks whose naming causes its evaluation, blocks that hold its fields, and whether it holds. -/
structure Rule where
  code : Nat
  blocks : Nat
  fields : Nat
  holds : Bool
deriving DecidableEq, Repr

section
variable (v : List (Nat × Word))

def vN (f : Fld) : Nat := (fld v f).toNat

/-- Peak-and-valley update: UPD outside the edge-aligned carrier, which ignores it (R278). -/
def viewUpd : Bool := decide (vN v PWM_CTL_UPD = 1) && decide (vN v PWM_CTL_CMODE ≠ 1)

def ruleTopology : Bool :=
  let t := vN v PWM_CTL_TOPO
  let oen := vN v PWM_OEN_OEN
  if legsOf t = 0 then t == 0 && oen == 0
  else vN v PWM_CTL_NLEG == legsOf t && (oen == 0 || oen == topoBalls t)

/-- TMIN below 32 acts as 32 (R286). -/
def ruleDeadTime : Bool :=
  decide (vN v PWM_DTMIN_DT_MIN ≤ vN v PWM_DTMAX_DT_MAX)
    && decide (vN v PWM_DTMAX_DT_MAX < max 32 (vN v PWM_TMIN_TMIN))

def inPeriod (p : Nat) : Bool := decide (6400 ≤ p) && decide (p ≤ 800000)

/-- The leg states the trip pattern puts a leg in (R277). -/
def patternStates (t : Nat) : List (BitVec 6) :=
  match vN v PWM_TRIPPAT_TPAT with
  | 0 => [0]
  | 1 => [legUpper t]
  | 2 => [legLower t]
  | _ => [0, if vN v PWM_TRIPPAT_AGRP = 1 then legLower t else legUpper t]

def ruleLegal : Bool :=
  let t := vN v PWM_CTL_TOPO
  (List.range (legsOf t)).all fun k =>
    (List.range (2 ^ legSwitches t)).all (fun s =>
      !(admitted v t k (BitVec.ofNat 6 s) && (legPairs t).any (fun p => s.testBit p.1 && s.testBit p.2)))
    && (patternStates v t).all (fun s => admitted v t k s)

def ruleTriggers : Bool :=
  (List.range 8).all fun n =>
    decide (vN v (ADC_TRIG_POS n) < vN v PWM_CPER_PER) && decide (vN v (PWM_XCMP_POS n) < vN v PWM_CPER_PER)

def ruleSigmaDelta : Bool :=
  (List.range 8).all (fun d => decide (16 ≤ vN v (ADC_SDCFG_DEC d)) && decide (vN v (ADC_SDCFG_DEC d) ≤ 256))
    && decide (9 ≤ vN v ADC_SDCK_DIV0) && decide (9 ≤ vN v ADC_SDCK_DIV1)

/-- The external inputs among the active entries of a slot (R250). -/
def slotInputs (n j : Nat) : List Nat :=
  ((List.range (seqCount v n j)).map (seqEntry v n j)).filter (fun i => decide (i < 24))

def ruleSlots : Bool :=
  (List.range 8).all fun n => [(0, 1), (0, 2), (1, 2)].all fun p =>
    !(slotInputs v n p.1).any (fun i => (slotInputs v n p.2).contains i)

def ruleResolver : Bool :=
  decide (2000 ≤ vN v POS_RSLV_EXCF) && decide (vN v POS_RSLV_EXCF ≤ 20000) && decide (vN v POS_RSLV_TBW * 25 ≤ 5000)

/-- Codes 6 and 7 act as None, as 0 does, and None differs from every code (R213, R214). -/
def ruleSources : Bool :=
  let p := vN v POS_CTL_PSRC
  p == 0 || decide (5 < p) || p != vN v POS_CTL_SSRC

def ruleSsi : Bool :=
  if vN v POS_CTL_PSRC = 3 ∨ vN v POS_CTL_SSRC = 3 then
    decide (max 8 (vN v POS_SSI_STBITS) + vN v POS_SSI_ERRB + vN v POS_SSI_PAR ≤ min 48 (max 8 (vN v POS_SSI_FLEN)))
  else true

/-- Twice the control period, so that half a period stays whole. -/
def ruleControl : Bool :=
  let twice := if viewUpd v then vN v PWM_CPER_PER else 2 * vN v PWM_CPER_PER
  decide (6400 ≤ twice) && decide (twice ≤ 800000)

/-- The carrier period 2^48 / (N ω) and the control period at one speed ω in Q16.16 (R210). -/
def syncPeriodOk (n w : Nat) : Bool :=
  let k := n * w
  decide (6400 * k ≤ 281474976710656) && decide (281474976710656 ≤ 800000 * k)
    && (if viewUpd v then true else decide (281474976710656 ≤ 400000 * k))

def ruleSync : Bool :=
  if vN v WEIR_SYNC_HO_EN = 0 then true
  else
    let soff := vN v WEIR_SON_SON - vN v WEIR_SHYS_SHYS
    decide (0 < soff) && decide (vN v WEIR_SON_SON ≤ vN v WEIR_SMAX_SMAX)
      && syncPeriodOk v (vN v WEIR_SYNC_NPULSE) soff && syncPeriodOk v (vN v WEIR_SYNC_NPULSE) (vN v WEIR_SMAX_SMAX)

/-- OUTPH 7 acts as 6 (R336). -/
def rulePhases : Bool := min 6 (vN v CAS_CTL_OUTPH) == vN v PWM_CTL_NLEG

/-- The ON code in use in cycle Q lies below the stage-2 threshold (R153, R157, R373). -/
def ruleBrake : Bool := decide (vN v GDI_BRKTH_ON < vN v GDI_OVTH_OV2TH)

/-- BSEN counts for the legs of a two-level topology (R373, R379). -/
def ruleBootstrap : Bool :=
  let t := vN v PWM_CTL_TOPO
  let legs := if t = 1 then 8 else if t = 2 then 64 else 1
  if vN v GDI_CTL_BSEN % legs = 0 then true
  else decide (32 * vN v GDI_BS_BSTREF + 2 * vN v PWM_DTMAX_DT_MAX < 32 * vN v PWM_CPER_PER)

/-- DISC within 1 ms to 500 ms, a DISC of 0 acting as 1 (R440). -/
def ruleDiscrepancy : Bool := decide (max 1 (vN v SAFE_STOCFG_DISC) ≤ 500)

/-- The trip pattern and the halt guard's are the configured safe states; TOPO 0, 6 and 7 define no group (R273). -/
def ruleAsc : Bool :=
  legsOf (vN v PWM_CTL_TOPO) != 0 || (vN v PWM_TRIPPAT_TPAT == 0 && vN v SAFE_HG_HGSTATE == 0)

/-- The rules of R158 and R210 over a view of all banks. -/
def rulesOf : List Rule :=
  [ ⟨0x01, blkPwm, blkPwm, ruleTopology v⟩, ⟨0x02, blkPwm, blkPwm, ruleDeadTime v⟩,
    ⟨0x03, blkPwm, blkPwm, inPeriod (vN v PWM_CPER_PER)⟩, ⟨0x04, blkPwm, blkPwm, ruleLegal v⟩,
    ⟨0x05, blkWeir, blkWeir, [1, 3, 9, 15, 21, 27, 33, 39, 45].contains (vN v WEIR_SYNC_NPULSE)⟩,
    ⟨0x10, blkAdc + blkPwm, blkAdc + blkPwm, ruleTriggers v⟩, ⟨0x11, blkAdc, blkAdc, ruleSigmaDelta v⟩,
    ⟨0x12, blkAdc, blkAdc, ruleSlots v⟩, ⟨0x20, blkPos, blkPos, ruleResolver v⟩,
    ⟨0x21, blkPos + blkCas, blkPos, ruleSources v⟩, ⟨0x22, blkPos, blkPos, ruleSsi v⟩,
    ⟨0x30, blkWeir, blkWeir, (List.range 4).all (fun t => decide (vN v (WEIR_ENTRY_ENTRY t) < 8192))⟩,
    ⟨0x40, blkCas + blkPwm, blkPwm, ruleControl v⟩, ⟨0x40, blkWeir + blkCas + blkPwm, blkWeir + blkPwm, ruleSync v⟩,
    ⟨0x41, blkCas + blkPwm, blkCas + blkPwm, rulePhases v⟩, ⟨0x50, blkGdi, blkGdi, ruleBrake v⟩,
    ⟨0x51, blkGdi + blkPwm, blkGdi + blkPwm, ruleBootstrap v⟩,
    ⟨0x60, blkSafe, blkSafe, ruleDiscrepancy v⟩,
    ⟨0x61, blkSafe + blkPwm, blkSafe + blkPwm, ruleAsc v⟩ ]

end

/-- The rules that a mask evaluates and that fail (R158). -/
def failing (mask : BitVec 7) (v : List (Nat × Word)) : List Rule :=
  (rulesOf v).filter (fun r => r.blocks &&& mask.toNat != 0 && !r.holds)

/-- A status word (R160). -/
def statusWord (rule : Nat) (weir : Bool) (blocks reason : Nat) : Word :=
  BitVec.ofNat 32 (rule * 65536 + (if weir then 32768 else 0) + blocks * 256 + reason)

/-- The status of a checked commit: zero but for SRC when every rule holds, else the lowest code and every block that
holds a field of a failing rule. -/
def checked (mask : BitVec 7) (weir : Bool) (v : List (Nat × Word)) : Word :=
  match failing mask v with
  | [] => statusWord 0 weir 0 0
  | r :: rs => statusWord ((r :: rs).foldl (fun m x => min m x.code) r.code) weir
      ((r :: rs).foldl (fun b x => b ||| x.fields) 0) 1

/-! ## The controller (R153 to R161) -/

def CommitBy.weir : CommitBy → Bool
  | .core _ => false
  | .thread | .handover | .exit => true

/-- The plan banks as they stood before the writes of the present cycle, which a commit of this cycle moves (R12, R153). -/
def Channel.planThen (c : Channel) : List (Nat × Word) := c.planOld.foldl (fun m e => rput m e.1 e.2) c.plan

/-- A request that is refused (R159; the lowest REASON where several apply, log 40) or checked (R157), as its cycle Q
decides. -/
def Channel.decideCommit (c : Channel) (by_ : CommitBy) (mask : BitVec 7) : Word :=
  if mask.getLsbD 6 && !c.rgB SAFE_STAT_UNLOCKED then statusWord 0 by_.weir 0 3
  else if mask.getLsbD 3 && c.dom.dbg.halted then statusWord 0 by_.weir 0 4
  else if c.planBad.any (named mask) then statusWord 0 by_.weir 0 5
  else checked mask by_.weir (c.checkView mask c.planThen)

/-- A refused request: its status is recorded at the end of its own window. -/
def Channel.collide (c : Channel) (by_ : CommitBy) (mask : BitVec 7) (q : Nat) : Channel :=
  { c with refusals := c.refusals ++ [⟨by_, mask, q, statusWord 0 by_.weir 0 2, []⟩] }

/-- The controller takes a request: snapshot and decision in cycle Q. -/
def Channel.takeCommit (c : Channel) (by_ : CommitBy) (mask : BitVec 7) : Channel :=
  { c with cmt := some ⟨by_, mask, c.now, c.decideCommit by_ mask, c.planThen.filter (fun e => named mask e.1)⟩ }

/-- Held plan writes land in a new cycle, but for those to blocks that the commit in its window names: after a commit in
cycle Q + 11, and after an abandoned one in cycle A + 1 where the commit that displaced it names other blocks (R155, R156). -/
def Channel.landHeld (c : Channel) : Channel :=
  let keep : BitVec 7 := match c.inWindow with
    | some r => r.mask
    | none => 0
  let land := c.heldPlan.filter (fun e => !named keep e.1)
  land.foldl (fun c e => c.planPut e.1 e.2) { c with heldPlan := c.heldPlan.filter (fun e => named keep e.1) }

/-- A PLAN.COMMIT retires with its status in cycle Q + 14, which is 16 after its issue (R130, R155). -/
def Channel.retireCommit (c : Channel) (r : CommitReq) : Channel :=
  match r.by_ with
  | .core e =>
    c.mapDom fun d =>
      match (d.core e).wait with
      | .commit rd => (d.logCommit e r.mask r.status).finish e (·.wr rd r.status)
      | _ => d
  | .thread | .handover | .exit => c

/-- The outcome of a request is recorded at the edge that ends its cycle Q + 10: status, count, and EV_CMTOK or EV_CMTREF
with argument 0 (log 21); a waiting PLAN.COMMIT has four more cycles (R160, R161). -/
def Channel.recordStatus (c : Channel) (r : CommitReq) : Channel :=
  let accepted := fget r.status 3 0 == 0
  let c := c.mapDom fun d =>
    let d := { d with regs := rput d.regs EVT_CMTSTAT_RULE.reg r.status }
    if accepted then
      ((d.setN EVT_CMTTS_TS ((r.q + 10) % 4294967296)).count EVT_CMTCNT_ACCEPTED).raiseAt (r.q + 10) 0x2F 0
    else (d.count EVT_CMTCNT_REFUSED).raiseAt (r.q + 10) 0x2E 0
  match r.by_ with
  | .core _ => { c with retiring := c.retiring ++ [r] }
  | .thread => c
  | .handover => if accepted then c else c.handoverRefused (r.q + 10) r.status
  | .exit => if accepted then c else c.exitRefused (r.q + 10) r.status

/-- The banks swap, and each named block acts on its new live bank (R149, R154). -/
def Channel.swapBanks (c : Channel) (r : CommitReq) : Channel :=
  let old := c.live
  let c := { c with live := mergeBanks r.mask r.snapshot old }
  let at_ := fun (b : Nat) (f : Channel → Channel) (c : Channel) => if r.mask.getLsbD b then f c else c
  let c := at_ 0 (·.commitWeir old (r.by_ == .handover)) c
  let c := at_ 1 (·.commitPos old) c
  let c := at_ 2 (fun c => (List.range 4).foldl (Channel.commitDrift old) ((c.commitAdc old).commitCmpTest old)) c
  let c := at_ 3 (·.commitPwm old) c
  let c := at_ 4 (fun c => (c.commitGdi old).commitCmpTest old) c
  let c := at_ 5 (fun c => (c.commitCas old).commitSup old) c
  let who := match r.by_ with
    | .core e => (0, 5 * c.dom.id + e.idx)
    | .thread | .handover | .exit => (1, 5 * c.dom.id + 3)
  let c := at_ 6 (·.commitSafe old who.1 who.2) c
  match r.by_ with
  | .handover => c.enterSync (r.q + 10)
  | .exit => c.exitSync (r.q + 10)
  | .core _ | .thread => c

/-- The commit in progress ends: where it is accepted the banks swap and govern from the new cycle (R149, R153, R154). -/
def Channel.endCommit (c : Channel) (r : CommitReq) : Channel :=
  let c := { c with cmt := none }
  (if fget r.status 3 0 = 0 then c.swapBanks r else c).recordStatus r

/-- What the edge that begins this cycle does for the commit controller: requests whose cycle Q + 10 it has ended are
recorded, refused ones before the one that took the controller (log 40), a PLAN.COMMIT whose time is over retires, and held
plan writes land (R130, R153 to R156). -/
def Channel.commitEdge (c : Channel) : Channel :=
  let due := c.refusals.filter (fun r => decide (r.q + 10 < c.now))
  let c := due.foldl Channel.recordStatus { c with refusals := c.refusals.filter (fun r => decide (c.now ≤ r.q + 10)) }
  let c := match c.cmt with
    | some r => if r.q + 10 < c.now then c.endCommit r else c
    | none => c
  let out := c.retiring.filter (fun r => decide (r.q + 14 ≤ c.now))
  let c := out.foldl Channel.retireCommit { c with retiring := c.retiring.filter (fun r => decide (c.now < r.q + 14)) }
  c.landHeld

/-- A request of either source with a non-zero mask (R156, R200). -/
def Channel.requestCommit (c : Channel) (by_ : CommitBy) (mask : BitVec 7) : Channel :=
  match c.inWindow with
  | none => c.takeCommit by_ mask
  | some r =>
    match r.by_, by_ with
    | .core a, .core b =>
      if r.q = c.now ∧ b.idx < a.idx then ({ c with cmt := none }.collide r.by_ r.mask r.q).takeCommit by_ mask
      else c.collide by_ mask c.now
    | .core _, .thread | .core _, .handover | .core _, .exit =>
      ({ c with cmt := none }.collide r.by_ r.mask r.q).takeCommit by_ mask
    | .thread, .handover | .thread, .exit =>
      if r.q = c.now then ({ c with cmt := none }.collide r.by_ r.mask r.q).takeCommit by_ mask
      else c.collide by_ mask c.now
    | _, _ => c.collide by_ mask c.now

/-- PLAN.COMMIT at a channel core: the request enters the controller in this command's cycle, which is Q, two cycles
after issue (R130, R153). -/
def Channel.planCommit (c : Channel) (e : Eng) (f : Fetch) (rd rs1 : GReg) (imm : BitVec 7) : Channel :=
  let was := (c.dom.core e).wait
  let mask := (c.dom.core e).commitMask rs1 imm
  let c := c.mapDom (·.planCommit e f rd rs1 imm)
  if was = .none ∧ (c.dom.core e).wait = .commit rd then c.requestCommit (.core e) mask else c

/-- PLAN.COMMIT at a host core: the host domain has no commit controller (R175), so the status of a non-zero mask is a
free value (log 21). -/
def Domain.hostPlanCommit (d : Domain) (e : Eng) (f : Fetch) (rd rs1 : GReg) (imm : BitVec 7) : Domain :=
  let mask := (d.core e).commitMask rs1 imm
  let d := d.planCommit e f rd rs1 imm
  if (d.core e).wait = .commit rd then
    let r := d.free 3
    (r.2.logCommit e mask r.1).finish e (·.wr rd r.1)
  else d

/-! ## Plan writes and live writes -/

/-- The key of an RWL register (R163). -/
def RwlReg.key : RwlReg → Nat
  | .casTref => CAS_TREF_VALUE.reg
  | .casFref => CAS_FREF_VALUE.reg
  | .casSref => CAS_SREF_VALUE.reg
  | .casIlim => CAS_ILIM_VALUE.reg
  | .casTramp => CAS_TRAMP_VALUE.reg
  | .pwmMimax => PWM_MIMAX_MIMAX.reg
  | .gdiBrkth => GDI_BRKTH_ON.reg
  | .safeSlslim => SAFE_SLSLIM_SLSLIM.reg

/-- A write of an RWL register: it reads back at once and waits for the boundary, or is collected under the live hold
(R12, R163, R166). -/
def Channel.writeRwl (c : Channel) (k : Nat) (w : Word) : Channel :=
  let w := match rowOf k with
    | some r => w &&& BitVec.ofNat 32 r.rwl
    | none => w
  let c := { c with dom := { c.dom with regs := rput c.dom.regs k w } }
  let put := fun (m : List (Nat × Word)) => m.filter (fun e => e.1 != k) ++ [(k, w)]
  if c.rgB EVT_LHOLD_HOLD then { c with rwlHeld := put c.rwlHeld } else { c with rwlNext := put c.rwlNext }

/-- LIVE_HOLD_RELEASE: HOLD := 0 sends every collected write to the next boundary (R166). -/
def Channel.holdRelease (c : Channel) : Channel :=
  if c.rgB EVT_LHOLD_HOLD then
    let next := c.rwlHeld.foldl (fun m (e : Nat × Word) => m.filter (fun x => x.1 != e.1) ++ [e]) c.rwlNext
    { c with rwlNext := next, rwlHeld := [], holdBoundaries := 0 }.setB EVT_LHOLD_HOLD false
  else c

/-- A write of EVT_LHOLD (R165): TMO clears by one, a LIMIT of 0 is stored as 1. -/
def Channel.writeLhold (c : Channel) (w : Word) : Channel :=
  let c := c.w1c EVT_LHOLD_TMO.reg (w &&& 0x100)
  let c := c.set EVT_LHOLD_LIMIT (if fget w 7 4 = 0 then 1 else fget w 7 4)
  if bitOf w 0 then
    if c.rgB EVT_LHOLD_HOLD then c else { c with holdBoundaries := 0 }.setB EVT_LHOLD_HOLD true
  else c.holdRelease

/-- The waiting RWL values come into use together (R163). A write that already waited when HOLD was set is not one performed
while HOLD = 1, and so is not collected (R166; log 21). -/
def Channel.takeRwl (c : Channel) : Channel :=
  { c with live := c.rwlNext.foldl (fun m (e : Nat × Word) => rput m e.1 e.2) c.live, rwlNext := [] }

/-- At a boundary: the hold's boundaries count, and after LIMIT of them the collected writes are discarded and their
registers read back the values in use; EV_LHTMO with argument 0 (R166; log 21). -/
def Channel.holdBoundary (c : Channel) : Channel :=
  if c.rgB EVT_LHOLD_HOLD then
    if c.rgN EVT_LHOLD_LIMIT ≤ c.holdBoundaries + 1 then
      let regs := c.rwlHeld.foldl (fun m (e : Nat × Word) => rput m e.1 (c.liveView e.1)) c.dom.regs
      let c := { c with dom := { c.dom with regs := regs }, rwlHeld := [], holdBoundaries := 0 }
      ((c.setB EVT_LHOLD_HOLD false).setB EVT_LHOLD_TMO true).raise 0x2D
    else { c with holdBoundaries := c.holdBoundaries + 1 }
  else c

end Sys2Proof.Machine
end

