-- ==== Sys2Proof/Machine/Weir.lean ====
section
/-! DEFINITION. Weir.lean: the Weir instructions (R192 to R201) and Weir's own commits (R205, R207, R209). -/

namespace Sys2Proof.Machine

/-- The slot a thread executes, as an occurrence (R524, R525). -/
def Channel.weirOcc (c : Channel) (slot lat : Nat) : Occ :=
  ⟨BitVec.ofNat 32 slot, c.word (0x51000000 + 8 * slot), c.word (0x51000004 + 8 * slot), lat⟩

def Channel.weirItem (c : Channel) (j : Nat) (slot lat : Nat) : Channel := c.item 3 j (c.weirOcc slot lat)

def Channel.setTh (c : Channel) (t : Thread) (x : WThread) : Channel := { c with weir := c.weir.setTh t x }

/-- A bit of strobe pulses for one CCLK at its signal counter (R520, R521). -/
def Channel.pulse (c : Channel) (b : Nat) : Channel :=
  let i := 46 + b
  let mode := c.dom.sigMode i
  c.bump (0x80 + i) (if mode = 2 then 2 else 1)

/-- Round robin, starting after the thread that issued last; one instruction in a cycle (R192). -/
def Weir.nextReady (w : Weir) : Option Thread :=
  if w.issued then none else
  let order := match w.last with
    | .t0 => [Thread.t1, .t2, .t3, .t0]
    | .t1 => [Thread.t2, .t3, .t0, .t1]
    | .t2 => [Thread.t3, .t0, .t1, .t2]
    | .t3 => [Thread.t0, .t1, .t2, .t3]
  order.find? (fun t => decide ((w.th t).st = .running))

/-- A thread stops at its slot: EV_WERR, and WEIR_ERR where no error is recorded yet (R199). -/
def Channel.weirStopAt (c : Channel) (t : Thread) (code : Nat) : Channel :=
  let x := c.weir.th t
  let c := c.setTh t { x with st := .stopped }
  let c := if c.rgB WEIR_ERR_VALID then c
    else (((c.setB WEIR_ERR_VALID true).setN WEIR_ERR_CODE code).setN WEIR_ERR_THREAD t.idx).setN WEIR_ERR_ADDR x.pc.toNat
  let c := c.raise 0x1A (threadArg t x.pc)
  if code = 3 then c.mapDom (·.noteUncorrectable (0x51000000 + 8 * x.pc.toNat)) else c

/-- An enabled breakpoint stands at a thread's slot, and Weir has not halted before it yet (R533, log 32). -/
def Channel.weirAtBreak (c : Channel) (t : Thread) : Bool :=
  let pc := (c.weir.th t).pc
  c.rgB DBG_WBP_EN && pc.setWidth 32 == c.rg DBG_WBP_SLOT && c.weir.past != some pc

/-- A thread issues an instruction: not admitted unless it is running and its turn has come and Weir is not halted; a bad
fetch or field stops it; otherwise the pc goes to the next slot, slot 8,191 being followed by slot 0, and the operation
acts (R192, R193, R199). -/
def Channel.weirIssue (c : Channel) (t : Thread) (f : SlotFetch) (fieldsOk : Bool) (op : Channel → BitVec 13 → Channel) :
    Channel :=
  c.when (!c.weir.halted && decide (c.weir.nextReady = some t) && !c.weirAtBreak t && !c.dom.inReset) fun c =>
    let c := { c with weir := { c.weir with
      last := t, issued := true, past := if c.weir.past = some (c.weir.th t).pc then none else c.weir.past } }
    match f with
    | .badOpcode => c.weirStopAt t 1
    | .badField => c.weirStopAt t 2
    | .ecc => c.weirStopAt t 3
    | .good =>
      if fieldsOk then
        let x := c.weir.th t
        let c := c.weirItem 0 x.pc.toNat 1
        op (c.setTh t { x with pc := x.pc + 1 }) x.pc
      else c.weirStopAt t 2

/-! ## Waits -/

def Channel.weirK (c : Channel) (k : BitVec 2) : Word := c.rg (WEIR_K_K k.toNat)
def Channel.setWeirK (c : Channel) (k : BitVec 2) (v : Word) : Channel := c.set (WEIR_K_K k.toNat) v

/-- A wait arms in its issue cycle, with the limit that is live in it (log 69; R186, R189, R196); a late one is satisfied at once and raises EV_WLATE (R187). -/
def Channel.armWait (c : Channel) (t : Thread) (slot : BitVec 13) (what : WaitFor) (lim : BitVec 3) (addr : BitVec 13)
    (late : Bool) : Channel :=
  let w : Armed := { what := what, cycle := c.now, slot := slot, addr := addr, limit := c.lvN (WEIR_LIM_LIM lim.toNat)
                     hit := late, late := late, jump := false }
  let c := (c.setTh t { c.weir.th t with st := .waiting w, pc := slot }).weirItem 1 slot.toNat 1
  if late then c.raise 0x19 (threadArg t slot) else c

/-- The target of a coordinate wait (R195). -/
def Channel.waitTarget (c : Channel) (rel : Bool) (kr : BitVec 2) (imm : Word) : Word :=
  if rel then c.weirK kr + imm else imm

/-- Late already (R187): the target lies at most 2^30 behind a forward wait, or ahead of a backward one. -/
def lateForward (x target : Word) : Bool := decide ((x - target).toNat ≤ 1073741824)
def lateBackward (x target : Word) : Bool := decide ((target - x).toNat ≤ 1073741824)

def Channel.waitA (c : Channel) (t : Thread) (f : SlotFetch) (dir : BitVec 2) (past rel : Bool) (kr : BitVec 2)
    (lim : BitVec 3) (addr : BitVec 13) (imm : Word) : Channel :=
  c.weirIssue t f (decide (dir ≠ 3) && !(past && decide (dir = 2))) fun c slot =>
    let x := c.waitTarget rel kr imm
    let d : WDir := if dir = 0 then .forward else if dir = 1 then .backward else .either
    let late := past && (if dir = 0 then lateForward c.weir.theta x else lateBackward c.weir.theta x)
    c.armWait t slot (.angle d x) lim addr late

def Channel.waitC (c : Channel) (t : Thread) (f : SlotFetch) (dir : BitVec 2) (past rel : Bool) (kr : BitVec 2)
    (lim : BitVec 3) (addr : BitVec 13) (imm : Word) : Channel :=
  c.weirIssue t f (decide (dir = 0)) fun c slot =>
    let x := c.waitTarget rel kr imm
    c.armWait t slot (.carrier x) lim addr (past && lateForward c.weir.phi x)

def Channel.waitE (c : Channel) (t : Thread) (f : SlotFetch) (lim : BitVec 3) (addr : BitVec 13) (imm : Word) : Channel :=
  c.weirIssue t f (decide (imm.toNat < 128)) fun c slot => c.armWait t slot (.event (imm.setWidth 7)) lim addr false

/-- A satisfied wait readies its thread, at the slot after it, for the cycle after the one that satisfied it (R186, R192,
R197). -/
def Channel.waitSatisfied (c : Channel) (t : Thread) : Channel :=
  match (c.weir.th t).st with
  | .waiting w =>
    c.when w.hit fun c =>
      let c := c.setTh t { c.weir.th t with st := .running, pc := w.slot + 1, late := w.late, jump := w.jump }
      let c := c.weirItem 2 w.slot.toNat (c.now - w.cycle)
      if w.late then c.weirItem 4 w.slot.toNat (c.now - w.cycle) else c
  | .stopped | .running => c

/-- A wait that is not satisfied by the end of its limit's last cycle expires in that cycle: the thread continues at ADDR;
EV_WEXP (R189). -/
def Channel.waitExpired (c : Channel) (t : Thread) : Channel :=
  match (c.weir.th t).st with
  | .waiting w =>
    c.when (decide (w.limit ≠ 0) && !w.hit && decide (w.cycle + w.limit ≤ c.now)) fun c =>
      let c := c.setTh t { c.weir.th t with st := .running, pc := w.addr }
      (c.raise 0x18 (threadArg t w.slot)).weirItem 3 w.slot.toNat (c.now - w.cycle)
  | .stopped | .running => c

/-- The end of a cycle in Weir: waits satisfied or expired in it free their threads; the next cycle's issue and arming
begin (R189, R192, R201). -/
def Channel.endWeirCycle (c : Channel) : Channel :=
  let c := [Thread.t0, .t1, .t2, .t3].foldl (fun c t => (c.waitExpired t).waitSatisfied t) c
  { c with weir := { c.weir with
      strobes := 0, arrived := c.weir.strobes, issued := false, arm0 := (c.rg WEIR_ARM_ARM).setWidth 4, armed := 0 } }

/-! ## Actions -/

/-- STROBE: the lines pulse and reach their destinations in the next cycle (R192, R198). -/
def Channel.strobe (c : Channel) (t : Thread) (f : SlotFetch) (imm : Word) : Channel :=
  c.weirIssue t f (decide (imm.toNat < 32768)) fun c slot =>
    let c := c.weirItem 5 slot.toNat 1
    let c := { c with weir := { c.weir with strobes := c.weir.strobes ||| (imm.setWidth 16 &&& 0x7FFF) } }
    ((List.range 15).filter (fun b => bitOf imm b)).foldl Channel.pulse c

/-- START: a request on its way to Cascade (R196, R317). -/
def Channel.weirStart (c : Channel) (t : Thread) (f : SlotFetch) (imm : Word) : Channel :=
  c.weirIssue t f (decide (imm.toNat < 16384)) fun c _ =>
    { c with cas := { c.cas with starts := c.cas.starts ++ [imm.setWidth 14] } }

/-- COMMIT: Q is the issue cycle; a mask of zero does nothing (R156, R200). -/
def Channel.weirCommit (c : Channel) (t : Thread) (f : SlotFetch) (imm : Word) : Channel :=
  c.weirIssue t f (decide (imm.toNat < 128)) fun c slot =>
    let c := c.weirItem 6 slot.toNat 1
    if imm = 0 then c else c.requestCommit .thread (imm.setWidth 7)

/-- SIGNAL raises EV_WSIGn. -/
def Channel.weirSignal (c : Channel) (t : Thread) (f : SlotFetch) (imm : Word) : Channel :=
  c.weirIssue t f (decide (imm.toNat < 524288)) fun c _ => c.raise (0x10 + (fget imm 18 16).toNat) (fget imm 15 0).toNat

def Channel.weirLdk (c : Channel) (t : Thread) (f : SlotFetch) (kr : BitVec 2) (imm : Word) : Channel :=
  c.weirIssue t f true fun c _ => c.setWeirK kr imm

def Channel.weirAddk (c : Channel) (t : Thread) (f : SlotFetch) (kr : BitVec 2) (imm : Word) : Channel :=
  c.weirIssue t f true fun c _ => c.setWeirK kr (c.weirK kr + imm)

def Channel.weirCapk (c : Channel) (t : Thread) (f : SlotFetch) (kr : BitVec 2) (imm : Word) : Channel :=
  c.weirIssue t f (decide (imm.toNat < 2)) fun c _ => c.setWeirK kr (if imm = 0 then c.weir.theta else c.weir.phi)

def Channel.weirGo (c : Channel) (t : Thread) (addr : BitVec 13) : Channel := c.setTh t { c.weir.th t with pc := addr }

def Channel.weirDjnz (c : Channel) (t : Thread) (f : SlotFetch) (kr : BitVec 2) (addr : BitVec 13) : Channel :=
  c.weirIssue t f true fun c _ =>
    let v := c.weirK kr - 1
    let c := c.setWeirK kr v
    if v ≠ 0 then c.weirGo t addr else c

def Channel.weirJmp (c : Channel) (t : Thread) (f : SlotFetch) (addr : BitVec 13) : Channel :=
  c.weirIssue t f true fun c _ => c.weirGo t addr

/-- The conditions of R197. -/
def Channel.weirCond (c : Channel) (t : Thread) (cond : BitVec 4) : Bool :=
  match cond.toNat with
  | 0 => decide (c.weir.mode = .sync)
  | 1 => decide (c.weir.mode ≠ .sync)
  | 2 => c.weir.lastDir == some false
  | 3 => c.weir.lastDir == some true
  | 4 => (c.weir.th t).late
  | 5 => (c.weir.th t).jump
  | 6 => c.rgB WEIR_STAT_STALE
  | _ => false

def Channel.weirBr (c : Channel) (t : Thread) (f : SlotFetch) (cond : BitVec 4) (addr : BitVec 13) : Channel :=
  c.weirIssue t f (decide (cond.toNat < 7)) fun c _ => if c.weirCond t cond then c.weirGo t addr else c

/-- CHKARM tests an arm flag as the cycle began with it and consumes it, or branches; a flag that a core writes in the same
cycle ends set, a new arming (R12, R201). -/
def Channel.weirChkarm (c : Channel) (t : Thread) (f : SlotFetch) (addr : BitVec 13) (imm : Word) : Channel :=
  c.weirIssue t f (decide (imm.toNat < 4)) fun c _ =>
    let i := imm.toNat
    if c.weir.arm0.getLsbD i then
      if c.weir.armed.getLsbD i then c else c.setB (WEIR_ARM_ARM.bit i) false
    else c.weirGo t addr

def Channel.weirStop (c : Channel) (t : Thread) (f : SlotFetch) : Channel :=
  c.weirIssue t f true fun c slot => c.setTh t { c.weir.th t with st := .stopped, pc := slot }

/-- Writes of WEIR_ARM and WEIR_DISARM (R201). -/
def Channel.weirArm (c : Channel) (w : Word) : Channel :=
  { c.set WEIR_ARM_ARM (c.rg WEIR_ARM_ARM ||| fget w 3 0) with
    weir := { c.weir with armed := c.weir.armed ||| w.setWidth 4 } }
def Channel.weirDisarm (c : Channel) (w : Word) : Channel :=
  { c.set WEIR_ARM_ARM (c.rg WEIR_ARM_ARM &&& ~~~(fget w 3 0)) with
    weir := { c.weir with armed := c.weir.armed &&& ~~~(w.setWidth 4) } }

/-! ## Weir's own commits -/

def Channel.markRequested (c : Channel) : Channel := { c with weir := { c.weir with requested := true } }

/-- Once the coordinates and a boundary have acted in a cycle, Weir detects a cause of a forced exit (R209). -/
def Channel.detect (c : Channel) (jump rev : Bool) : Channel :=
  if c.exitCause jump rev = 0 then c else c.detectExit (c.exitCause jump rev)

/-- The hand-over or the exit commit is requested in the first cycle that R205 or R207 names. -/
def Channel.ownCommit (c : Channel) : Channel :=
  if c.handoverDue then c.markRequested.requestCommit .handover ((c.lv WEIR_HOCMT_HMASK).setWidth 7)
  else if c.exitDue then c.markRequested.requestCommit .exit ((c.lv WEIR_HOCMT_XMASK).setWidth 7)
  else c

end Sys2Proof.Machine
end

