-- ==== Sys2Proof/Machine/Settle.lean ====
section
/-! DEFINITION. Settle.lean: a channel's or a domain's change lifted to the whole device, with what follows from any change
in the same cycle: signal edges at the counters (R520, R521, R527), the restoration epochs (R486), the boot images that the
host sees (R517, R518) and the link-loss indication (R488). -/

namespace Sys2Proof

def chanOf : Nat → Chan
  | 0 => .c0 | 1 => .c1 | 2 => .c2 | _ => .c3

end Sys2Proof

namespace Sys2Proof.Machine

/-! ## Parts of the device -/

def State.ch (s : State) : Chan → Channel
  | .c0 => s.c0 | .c1 => s.c1 | .c2 => s.c2 | .c3 => s.c3

def State.setCh (s : State) (n : Chan) (c : Channel) : State :=
  match n with
  | .c0 => { s with c0 := c } | .c1 => { s with c1 := c } | .c2 => { s with c2 := c } | .c3 => { s with c3 := c }

def State.dom (s : State) : Dom → Domain
  | .ch n => (s.ch n).dom
  | .host => s.host.dom

def State.setDom (s : State) (d : Dom) (x : Domain) : State :=
  match d with
  | .ch n => s.setCh n { s.ch n with dom := x }
  | .host => { s with host := { s.host with dom := x } }

def allChans : List Chan := [.c0, .c1, .c2, .c3]

def State.mapHost (s : State) (f : Domain → Domain) : State := s.setDom .host (f s.host.dom)

/-! ## Signals (R520, R521, R527) -/

/-- Level of the signal with number 0x080 + i. Cn_TRIPm and Cn_GFx count as the filtered balls, which the reports' polarity
turns (R369, R371); the strobe bits and encoder Z are pulses of their commands. -/
def Channel.signal (c : Channel) (i : Nat) : Bool :=
  if i < 18 then c.pwm.gate.getLsbD i
  else if i = 18 then c.gen
  else if i < 27 then c.rgB (GDI_TRIPIN_ACT.bit (i - 19)) != c.lvB (GDI_TPOL_TPOL.bit (i - 19))
  else if i < 45 then c.rgB (GDI_GFIN_ACT.bit (i - 27)) == c.lvB GDI_CTL_GFPOL
  else if i = 45 then c.rgB SAFE_STAT_STODEM
  else if i < 61 then false
  else if i = 61 then c.rgB PWM_TRIP_LATCH
  else if i = 62 then c.rgB PLL_STAT_LOCK
  else if i = 63 then c.rgB GDI_STAT_BRK
  else if i = 64 then c.dschBall
  else if i < 68 then c.rgB (SAFE_STAT_KCL.bit (i - 65))
  else if i = 68 then c.cas.run.isSome
  else if i < 73 then
    match (c.weir.th (if i = 69 then .t0 else if i = 70 then .t1 else if i = 71 then .t2 else .t3)).st with
    | .waiting _ => true
    | .stopped | .running => false
  else if i < 75 then
    match c.pos.encRef with
    | some ab => ab.getLsbD (74 - i)
    | none => false
  else if i = 75 then false
  else if i < 79 then c.pos.hallCode.getLsbD (i - 76)
  else false

def HostDom.signal (h : HostDom) (i : Nat) : Bool :=
  match i with
  | 0 => h.dom.rgN RING_STAT_LINKA == 2
  | 1 => h.dom.rgN RING_STAT_LINKB == 2
  | 2 => h.dom.rgB RING_STAT_BYPASS
  | 3 => h.dom.rgB RING_STAT_RLOST
  | _ => false

/-- A signal that goes from `a` to `b` counts by its mode (R521). -/
def Domain.edge (d : Domain) (i : Nat) (a b : Bool) : Domain :=
  if a = b then d
  else
    let m := d.sigMode i
    if (m = 0 ∧ b = true) ∨ (m = 1 ∧ b = false) ∨ m = 2 then d.bump (0x80 + i) 1 else d

/-- A cycle of a signal at high level (R521). -/
def Domain.highCycle (d : Domain) (i : Nat) (b : Bool) : Domain :=
  if b && d.sigMode i == 3 then d.bump (0x80 + i) 1 else d

/-- The cycle that ends, at each signal's counter (R521). -/
def Channel.highCycles (c : Channel) : Channel :=
  c.mapDom fun d => (List.range 79).foldl (fun d i => d.highCycle i (c.signal i)) d

def HostDom.highCycles (h : HostDom) : HostDom :=
  { h with dom := (List.range 4).foldl (fun d i => d.highCycle i (h.signal i)) h.dom }

def Channel.settleSignals (old new : Channel) : Channel :=
  if new.dom.inReset then new
  else new.mapDom fun d => (List.range 79).foldl (fun d i => d.edge i (old.signal i) (new.signal i)) d

def HostDom.settleSignals (old new : HostDom) : HostDom :=
  if new.dom.inReset then new
  else { new with dom := (List.range 4).foldl (fun d i => d.edge i (old.signal i) (new.signal i)) new.dom }

/-! ## What the host sees of a channel, and a channel of the ring -/

/-- UPD_CHBOOTn (R518). -/
def Channel.chBoot (c : Channel) : Word :=
  let w := fput (fget (rget c.dom.regs SYS_BOOTSTAT_DONE.reg) 23 0) 31 31 (ofB c.dom.inReset)
  fput (fput w 30 30 (ofB c.dom.bank)) 29 29 (fget (c.word 0x201E0000) 0 0)

/-- The host raises an event unless it is held in reset. -/
def State.hostEvent (s : State) (ev arg : Nat) : State :=
  if s.host.dom.inReset then s else s.mapHost (·.raise ev arg)

/-- LLOST of R488. -/
def HostDom.linkLoss (h : HostDom) : Bool :=
  h.dom.inReset || !h.dom.rgB BOOT_STAT_DONE || h.dom.phase == 5 || h.dom.rgB RING_STAT_RLOST
    || !h.dom.rgB RING_CTL_PORTEN || h.dom.rgB RING_CTL_LLFORCE

/-- The epoch of a channel changes by n: EV_HCHEPO (R486, R490). -/
def State.bumpEpoch (s : State) (i n : Nat) : State :=
  if s.host.dom.inReset then s
  else
    let e := (s.host.dom.rgN (RING_CHEPOCH_EPOCH i) + n) % 4294967296
    s.mapHost fun d => (d.setN (RING_CHEPOCH_EPOCH i) e).raise (0x63 + 4 * i) (e % 65536)

/-- What the host domain learns when channel n goes from `a` to its present state. -/
def State.settleChan (a : State) (s : State) (n : Chan) : State :=
  let x := a.ch n
  let y := s.ch n
  let s := if (x.dom.phase == 3) = (y.dom.phase == 3) then s else s.bumpEpoch n.idx 1
  if x.chBoot = y.chBoot then s
  else s.hostEvent 0x51 (n.idx + 4 * (y.rgN SYS_BOOTSTAT_DONE) + 256 * (y.rgN SYS_BOOTSTAT_FAIL))

/-- MBX_STAT mirrors RTVALID, and LLOST follows R488, each change of it with EV_LLINK (R488, R489). -/
def State.settleLink (s : State) (n : Chan) : State :=
  let c := s.ch n
  let lost := s.host.linkLoss
  let rtv := s.host.dom.rgB RING_STAT_RTVALID
  if c.dom.inReset || (c.rgB MBX_STAT_LLOST == lost && c.rgB MBX_STAT_RTV == rtv) then s
  else
    let c := c.setB MBX_STAT_RTV rtv
    s.setCh n (if c.rgB MBX_STAT_LLOST == lost then c else (c.setB MBX_STAT_LLOST lost).raise 0x7F (ofB lost).toNat)

/-- What follows in the same cycle from a change of channel n, the device having been `a` before. -/
def State.settleOne (a s : State) (n : Chan) : State :=
  (a.settleChan (s.setCh n ((a.ch n).settleSignals (s.ch n))) n).settleLink n

/-- What follows from a change of the host domain. -/
def State.settleHost (a s : State) : State :=
  allChans.foldl State.settleLink { s with host := a.host.settleSignals s.host }

/-- What follows in the same cycle from a change of the device from `a` to `s`. -/
def State.settle (a s : State) : State := a.settleHost (allChans.foldl (State.settleOne a) s)

/-! ## Lifts -/

/-- A change of a channel. A channel held in reset admits none (log 2). -/
def State.onCh (s : State) (n : Chan) (f : Channel → Channel) : State :=
  if (s.ch n).dom.inReset then s else s.settleOne (s.setCh n (f (s.ch n))) n

/-- A change of the host domain with its ring and its update manager. -/
def State.onHost (s : State) (f : HostDom → HostDom) : State :=
  if s.host.dom.inReset then s else s.settleHost { s with host := f s.host }

/-- A change of a domain. -/
def State.onDom (s : State) (d : Dom) (f : Domain → Domain) : State :=
  match d with
  | .ch n => s.onCh n (·.mapDom f)
  | .host => s.onHost (fun h => { h with dom := f h.dom })

/-- An instruction of a core of a domain. Nothing that R518 or R521 watches can change by one; one that ends a replay
changes the channel's epoch (R398, R486), and a host core that stops can change the link-loss indication (R488). -/
def State.onCore (s : State) (d : Dom) (f : Domain → Domain) : State :=
  if (s.dom d).inReset then s
  else
    match d with
    | .ch n =>
      let t := s.setCh n { s.ch n with dom := f (s.ch n).dom }
      if (s.dom d).phase = 3 ∧ (t.dom d).phase ≠ 3 then t.bumpEpoch n.idx 1 else t
    | .host => allChans.foldl State.settleLink { s with host := { s.host with dom := f s.host.dom } }

end Sys2Proof.Machine
end

