-- ==== Sys2Proof/Machine/Pll.lean ====
section
/-! DEFINITION. Pll.lean: the reference, holdover and RC fallback, and the PLL with its hop table, band searches and
switch-over (R93 to R107). -/

namespace Sys2Proof.Machine

def Domain.setPll (d : Domain) (f : Pll → Pll) : Domain := { d with pll := f d.pll }

/-- A PLL event; the host PLL raises none (R106). -/
def Domain.pllEvent (d : Domain) (ev : Nat) : Domain := if d.host then d else d.raise ev 0

/-- The VCO that drives CCLK: false primary, true spare. -/
def Domain.vcoSel (d : Domain) : Bool := d.rgB PLL_STAT_VCO_SEL

/-- A VCO is retired (R453). -/
def Domain.vcoRetired (d : Domain) (v : Bool) : Bool := d.rgB (if v then SPR_VCO_RET1 else SPR_VCO_RET0)

/-- LOCK falls: UNLK_STICKY and EV_PLLUNLK (R100). -/
def Domain.lockFalls (d : Domain) : Domain :=
  if d.rgB PLL_STAT_LOCK then ((d.setB PLL_STAT_LOCK false).setB PLL_STAT_UNLK_STICKY true).pllEvent 0x7A else d

/-- CCLK goes to the RC fallback: RC = 1 and EV_CLKFBK (R96); the trip of the same cycle is the channel's. -/
def Domain.fallBack (d : Domain) : Domain :=
  let d := (d.setB PLL_STAT_RC true).setB PLL_STAT_HOLD false
  (d.setPll (fun p => { p with fallback := true, searches := [], returnOnLock := false, hop := none
                               switching := false })).pllEvent 0x7C

/-- The trip with the clock fallback's request (R96, R295); the host domain has no PWM. -/
def Channel.fallBack (c : Channel) : Channel := (c.mapDom Domain.fallBack).trip 8192

/-! ## The reference (R93, R95, R96) -/

/-- A locked PLL whose reference is lost has no holdover when HOLD_MAX = 0. -/
def Domain.lossFallsBack (d : Domain) : Bool :=
  d.rgB PLL_STAT_REF_OK && d.rgB PLL_STAT_LOCK && !d.rgB PLL_STAT_RC && decide (d.rgN PLL_CLKMON_HOLD_MAX = 0)

/-- REFERENCE_LOST. While CCLK runs on the RC oscillator there is no holdover to enter, LOCK = 1 or not (R95; log 26). -/
def Domain.referenceLost (d : Domain) : Domain :=
  if d.rgB PLL_STAT_REF_OK then
    let d := d.setB PLL_STAT_REF_OK false
    if d.rgB PLL_STAT_LOCK && !d.rgB PLL_STAT_RC then
      (if d.rgN PLL_CLKMON_HOLD_MAX = 0 then d else d.setB PLL_STAT_HOLD true).pllEvent 0x7B
    else d
  else d

/-- REFERENCE_GOOD: the loop resumes from holdover. -/
def Domain.referenceGood (d : Domain) : Domain := (d.setB PLL_STAT_REF_OK true).setB PLL_STAT_HOLD false

/-- Both VCOs have failed: the one that drives CCLK is out of lock, and the other failed to lock or is retired (R96,
R102, R453). -/
def Domain.bothVcosFailed (d : Domain) : Bool :=
  !d.rgB PLL_STAT_RC && !d.rgB PLL_STAT_LOCK && !d.pll.switching
    && (d.pll.idleFailed || d.vcoRetired (!d.vcoSel))

/-! ## Settings (R97 to R99, R103, R107) -/

/-- A setting that R97 accepts, with the reference in Hz. -/
def settingOk (fref d nint nfrac : Nat) : Bool :=
  let k := nint * 16777216 + nfrac
  decide (10000000 * d ≤ fref) && decide (fref ≤ 50000000 * d) && decide (64 ≤ nint) && decide (nint ≤ 320)
    && decide (398000000 * d * 134217728 ≤ fref * k) && decide (fref * k ≤ 402000000 * d * 134217728)

/-- PLL_SSC holds a value that R103 admits, DEPTH above 200 being refused in every MODE (log 26); the host PLL only with
MODE 0 (R106). -/
def Domain.sscOk (d : Domain) : Bool :=
  let m := d.rgN PLL_SSC_MODE
  m != 3 && decide (d.rgN PLL_SSC_DEPTH ≤ 200)
    && (m == 0 || (!d.host && decide (10 ≤ d.rgN PLL_SSC_RATE) && decide (d.rgN PLL_SSC_RATE ≤ 50)))

/-- A gate output is enabled by the live PWM plan; `oen` is the live OEN, 0 in the host domain. -/
def gatesOn (oen : Word) : Bool := oen != 0

/-- A relock with CCLK on the RC oscillator until lock, after the searches named; a search of the idle VCO still follows. -/
def Domain.relock (d : Domain) (searches : List (Bool × Option Nat)) : Domain :=
  let all := searches ++ d.pll.searches.filter (fun x => x.1 != d.vcoSel)
  let d := (d.lockFalls.setB PLL_STAT_RC true).setB PLL_STAT_BAND_DONE all.isEmpty
  d.setPll (fun p => { p with searches := all, returnOnLock := true, hop := none, switching := false })

/-- The entry 2 to 7 that software has named in PLL_HOPCTL.IDX before an APPLY (R101). -/
def Domain.namedEntry (d : Domain) : Option Nat :=
  if 2 ≤ d.rgN PLL_HOPCTL_IDX then some (d.rgN PLL_HOPCTL_IDX) else none

/-- A write of APPLY (R98, R99). -/
def Domain.pllApply (d : Domain) (oen : Word) (fref : Nat) : Domain :=
  let div := if d.rgB PLL_DIV_REFDIV then 2 else 1
  if settingOk fref div (d.rgN PLL_DIV_NINT) (d.rgN PLL_FRAC_NFRAC) && d.sscOk && !gatesOn oen && !d.pll.fallback then
    let d := d.setPll (fun p => { p with
      refdiv := d.rgB PLL_DIV_REFDIV, nint := (d.rg PLL_DIV_NINT).setWidth 9
      nfrac := (d.rg PLL_FRAC_NFRAC).setWidth 24, ssc := rget d.regs PLL_SSC_MODE.reg })
    (d.setB PLL_STAT_SSC_ON (d.rgB PLL_SSC_MODE)).relock [(d.vcoSel, d.namedEntry)]
  else d.setB PLL_STAT_APPLY_ERR true

/-- A write of RC_RETURN (R107). -/
def Domain.pllReturn (d : Domain) (oen : Word) : Domain :=
  if gatesOn oen || !d.rgB PLL_STAT_REF_OK then d.setB PLL_STAT_APPLY_ERR true
  else d.relock [(d.vcoSel, none)]

/-- The stored bits of a write of PLL_CTL. -/
def Domain.pllCtlBits (d : Domain) (w : Word) : Domain :=
  (d.set PLL_CTL_SYNC_EN (fget w 3 3)).set PLL_CTL_SPARE_AUTO (fget w 2 2)

/-- A write of PLL_CTL: its stored bits, APPLY, then RC_RETURN (log 8). -/
def Domain.writePllCtl (d : Domain) (oen w : Word) (fref : Nat) : Domain :=
  let d := d.pllCtlBits w
  let d := if bitOf w 1 then d.pllApply oen fref else d
  if bitOf w 0 then d.pllReturn oen else d

/-! ## Band searches, lock and hops (R100 to R102) -/

/-- The hop-table entry of a VCO: 0 for the primary, 1 for the spare (R101). -/
def entryOf (v : Bool) : Nat := if v then 1 else 0

/-- A band search writes its result into entry i of the hop table (R101, R107). -/
def Domain.writeEntry (v : Bool) (band : BitVec 6) (d : Domain) (i : Nat) : Domain :=
  let d := ((d.setB (PLL_HOP_VALID i) true).setB (PLL_HOP_VCO i) v).set (PLL_HOP_BAND i) (band.setWidth 32)
  let d := (d.setN (PLL_HOP_TBAND i) (d.rgN THM_STAT_BAND)).setB (PLL_HOP_REFDIV i) d.pll.refdiv
  d.set (PLL_HOP_NINT i) (d.pll.nint.setWidth 32)

/-- A VCO takes a band. -/
def Domain.setBand (d : Domain) (v : Bool) (band : BitVec 6) : Domain :=
  d.setPll (fun p => if v then { p with band1 := band } else { p with band0 := band })

/-- PLL_BAND_SEARCH_DONE: the search at the head of the queue ends with a band, which goes to its VCO's entry and to one that
software named (R100, R101; log 26). -/
def Domain.bandSearchDone (d : Domain) (v : Bool) (band : BitVec 6) : Domain :=
  match d.pll.searches with
  | (x, named_) :: rest =>
    if x == v && d.rgB PLL_STAT_REF_OK then
      let d := (([entryOf v] ++ named_.toList).foldl (Domain.writeEntry v band) d).setBand v band
      let d := if v == d.vcoSel then d.setN PLL_STAT_HOP_IDX (named_.getD (entryOf v)) else d
      let d := (d.setPll (fun p => { p with searches := rest })).setB PLL_STAT_BAND_DONE rest.isEmpty
      d.vcoDrift (entryOf v)
    else d
  | [] => d

/-- PLL_LOCK: once the running VCO has been searched; a relock returns CCLK to the PLL (R99, R100). -/
def Domain.pllLock (d : Domain) : Domain :=
  if !d.rgB PLL_STAT_LOCK && !d.pll.searches.any (fun x => x.1 == d.vcoSel) && d.rgB PLL_STAT_REF_OK then
    let d := d.setB PLL_STAT_LOCK true
    if d.pll.returnOnLock then
      (d.setB PLL_STAT_RC false).setPll (fun p => { p with returnOnLock := false, fallback := false })
    else d
  else d

/-- PLL_UNLOCK: LOCK falls; with a good reference the loss counts against the VCO (R100, R453). -/
def Domain.pllUnlock (d : Domain) : Domain :=
  if d.rgB PLL_STAT_LOCK && !d.rgB PLL_STAT_HOLD then
    let d := d.lockFalls
    if d.rgB PLL_STAT_REF_OK then d.vcoLoss (if d.vcoSel then 1 else 0) else d
  else d

/-- A switch-over to the idle VCO begins in its stored band; a hop names its entry (R101, R102). -/
def Domain.beginSwitch (d : Domain) (entry : Option (BitVec 3)) : Domain :=
  let i := match entry with
    | some x => x.toNat
    | none => entryOf (!d.vcoSel)
  (d.setBand (!d.vcoSel) ((d.rg (PLL_HOP_BAND i)).setWidth 6)).setPll (fun p => { p with switching := true, hop := entry })

/-- The hop to entry IDX is refused (R101, R453). -/
def Domain.hopRefused (d : Domain) (oen : Word) : Bool :=
  let i := d.rgN PLL_HOPCTL_IDX
  let same := d.rgB (PLL_HOP_REFDIV i) == d.pll.refdiv && d.rgN (PLL_HOP_NINT i) == d.pll.nint.toNat
  let other := d.rgB (PLL_HOP_VCO i) != d.vcoSel
  !d.rgB (PLL_HOP_VALID i) || d.rgN (PLL_HOP_TBAND i) != d.rgN THM_STAT_BAND || !d.rgB PLL_STAT_REF_OK
    || d.rgB PLL_STAT_HOLD || d.vcoRetired (d.rgB (PLL_HOP_VCO i)) || (!(same && other) && gatesOn oen)

/-- A hop that is not refused: to the other VCO with the same dividers a switch-over, otherwise with CCLK on the RC
oscillator until lock; a fallback lasts until RC_RETURN (R96, R101; log 26). -/
def Domain.hopGo (d : Domain) : Domain :=
  let i := d.rgN PLL_HOPCTL_IDX
  let same := d.rgB (PLL_HOP_REFDIV i) == d.pll.refdiv && d.rgN (PLL_HOP_NINT i) == d.pll.nint.toNat
  if same && d.rgB (PLL_HOP_VCO i) != d.vcoSel then d.beginSwitch (some (BitVec.ofNat 3 i))
  else
    let fall := d.pll.fallback
    let d := d.setPll (fun p => { p with
      refdiv := d.rgB (PLL_HOP_REFDIV i), nint := (d.rg (PLL_HOP_NINT i)).setWidth 9 })
    let d := d.setBand (d.rgB (PLL_HOP_VCO i)) ((d.rg (PLL_HOP_BAND i)).setWidth 6)
    let d := (d.setB PLL_STAT_VCO_SEL (d.rgB (PLL_HOP_VCO i))).setN PLL_STAT_HOP_IDX i
    let done := d.rgB PLL_STAT_BAND_DONE
    ((d.relock []).setB PLL_STAT_BAND_DONE done).setPll (fun p => { p with returnOnLock := !fall })

/-- A write of PLL_HOPCTL. -/
def Domain.writeHop (d : Domain) (oen w : Word) : Domain :=
  let d := d.set PLL_HOPCTL_IDX (fget w 2 0)
  if bitOf w 3 then (if d.hopRefused oen then d.setB PLL_STAT_HOP_REF true else d.hopGo) else d

/-- VCO_SWITCH_OVER: by itself, with SPARE_AUTO = 1 (R102, R453). -/
def Domain.autoSwitch (d : Domain) : Domain :=
  if d.rgB PLL_CTL_SPARE_AUTO && !d.rgB PLL_STAT_LOCK && d.rgB PLL_STAT_REF_OK && !d.rgB PLL_STAT_RC
      && !d.pll.switching && !d.vcoRetired (!d.vcoSel) then
    d.beginSwitch none
  else d

/-- VCO_SWITCH_OVER_DONE: the CCLK multiplexer changes source, or the idle VCO failed to lock; SPARE_FAIL tells the last
attempt of the spare (R102, R107). -/
def Domain.switchDone (d : Domain) (locked : Bool) : Domain :=
  if d.pll.switching then
    let entry := d.pll.hop
    let v := !d.vcoSel
    let d := d.setPll (fun p => { p with switching := false, hop := none, idleFailed := !locked })
    let d := if v then d.setB PLL_STAT_SPARE_FAIL (!locked) else d
    if locked then
      let i := match entry with
        | some x => x.toNat
        | none => entryOf v
      ((d.setB PLL_STAT_VCO_SEL v).setN PLL_STAT_HOP_IDX i).setB PLL_STAT_LOCK true
    else d
  else d

/-- A new temperature band repeats the search on the idle VCO (R102), once the PLL has been started in B3. -/
def Domain.bandChanged (d : Domain) : Domain :=
  if d.vcoRetired (!d.vcoSel) || d.pll.nint = 0 then d
  else (d.setPll (fun p => { p with searches := p.searches ++ [(!d.vcoSel, none)] })).setB PLL_STAT_BAND_DONE false

/-- SYNC_EDGE: an alignment, or SYNC_IGN (R104). -/
def Domain.syncEdge (d : Domain) : Domain :=
  if d.rgB PLL_CTL_SYNC_EN && decide (d.pll.nfrac = 0) && !d.rgB PLL_STAT_SSC_ON && d.rgB PLL_STAT_LOCK && !d.pll.aligning
  then d.setPll (fun p => { p with aligning := true })
  else d.setB PLL_STAT_SYNC_IGN true

/-- A write of PLL_CLKMON: values above 10,000 are stored as 10,000 (R107). -/
def Domain.writeClkmon (d : Domain) (w : Word) : Domain := d.setN PLL_CLKMON_HOLD_MAX (satN 10000 (fget w 15 0).toNat)

end Sys2Proof.Machine
end

