-- ==== Sys2Proof/Machine/Boot.lean ====
section
/-! DEFINITION. Boot.lean: code images and safety-configuration blobs (R499, R500, R502), the boot phases B1 to B10 of a
channel and B1 to B5 of the host domain (R108 to R115, R496), and the release of the cores (R118). -/

namespace Sys2Proof.Machine

/-! ## Images and blobs -/

/-- Offset of the header in a code bank (R499). -/
def headerAt (host : Bool) : Nat := if host then 0x17FF00 else 0x2FFF00

/-- Header word i of the image in a code bank. -/
def hdr (m : List Host.Cell) (host bank : Bool) (i : Nat) : Nat := (memWord m (bankKey bank (headerAt host + 4 * i))).toNat

/-- An area of `n` bytes from `off`, aligned, within the image. -/
def areaOk (off n align len : Nat) : Bool := off % align == 0 && (n == 0 || decide (off + n ≤ len))

/-- The rules of R499 that a header can be held to by itself. -/
def headerOk (m : List Host.Cell) (host bank : Bool) : Bool :=
  let h := hdr m host bank
  let len := h 1
  h 0 == 0x56494D31 && len % 4 == 0 && decide (len ≤ headerAt host)
    && BitVec.ofNat 32 (h 3) == crc32 (memBytes m (bankKey bank 0) len)
    && (List.range 53).all (fun i => h (11 + i) == 0)
    && (if host then (List.range 7).all (fun i => h (4 + i) == 0)
        else decide (h 5 ≤ 8192) && areaOk (h 4) (8 * h 5) 8 len && decide (h 7 ≤ 16384) && areaOk (h 6) (4 * h 7) 4 len
          && areaOk (h 8) (4 * h 9) 4 len && decide (h 10 + h 9 ≤ 16384))

/-- Copy bytes within a memory. -/
def memCopy (m : List Host.Cell) (src dst n : Nat) : List Host.Cell :=
  (List.range n).foldl (fun x i => memPut x (dst + i) (memByte m (src + i))) m

/-- B7 places the programs of the image (R499). -/
def placePrograms (m : List Host.Cell) (bank : Bool) : List Host.Cell :=
  let h := hdr m false bank
  let at_ := fun (o : Nat) => bankKey bank o
  let m := memCopy m (at_ (h 4)) 0x51000000 (8 * h 5)
  let m := memCopy m (at_ (h 6)) 0x50000000 (4 * h 7)
  memCopy m (at_ (h 8)) (0x50010000 + 4 * h 10) (4 * h 9)

/-- Word i of the configuration blob at an address. -/
def blobWord (m : List Host.Cell) (a i : Nat) : Word := memWord m (a + 4 * i)

/-- A blob's MAGIC and CRC (R500). -/
def blobOk (m : List Host.Cell) (a : Nat) : Bool :=
  blobWord m a 0 == 0x53434631 && blobWord m a 22 == crc32 (memBytes m a 88)

/-- The first copy of a configuration slot; the second follows 0x100 bytes on (R497). -/
def slotAt (b : Bool) : Nat := if b then 0x201E0300 else 0x201E0100

/-! ## Progress of a boot -/

def phaseFld (host : Bool) : Fld := if host then BOOT_STAT_PHASE else SYS_BOOTSTAT_PHASE
def failFld (host : Bool) : Fld := if host then BOOT_STAT_FAIL else SYS_BOOTSTAT_FAIL
def doneFld (host : Bool) : Fld := if host then BOOT_STAT_DONE else SYS_BOOTSTAT_DONE

/-- Boot is in a phase: out of reset, not failed, not complete (R57, R111). -/
def Domain.inPhase (d : Domain) (p : Nat) : Bool :=
  !d.inReset && !d.rgB (doneFld d.host) && d.rgN (failFld d.host) == 0 && d.rgN (phaseFld d.host) == p

def Domain.toPhase (d : Domain) (p : Nat) : Domain := d.setN (phaseFld d.host) p

/-- A phase fails: boot stops (R111). -/
def Domain.bootFails (d : Domain) (code : Nat) : Domain := d.setN (failFld d.host) code

/-- B3 begins: the PLL takes its boot settings, whether or not R97 admits them (log 26), and both VCOs are searched (R108). -/
def Domain.startPll (d : Domain) (refdiv : Bool) (nint nfrac : Word) : Domain :=
  let d := ((d.setB PLL_DIV_REFDIV refdiv).set PLL_DIV_NINT nint).set PLL_FRAC_NFRAC nfrac
  d.setPll (fun p => { p with
    refdiv := refdiv, nint := nint.setWidth 9, nfrac := nfrac.setWidth 24, returnOnLock := true
    searches := [(false, none), (true, none)] })

/-- B3_REFERENCE_TIMEOUT: the domain stays on RC and boot goes on (R108, R111). -/
def Domain.b3Timeout (d : Domain) : Domain :=
  if d.inPhase 3 && !d.rgB PLL_STAT_REF_OK then
    { d.setPll (fun p => { p with searches := [], returnOnLock := false, fallback := true }) with onRc := true }.toPhase 4
  else d

/-- B4: of the spare rows not in use those that fail their test are marked unusable; the listed NVM rows are then repaired
and enter the field map, if enough usable spare rows remain (R496; log 81). -/
def Domain.b4 (d : Domain) (good : Nat) : Domain :=
  let usable := min good d.spr.spares
  let n := d.spr.recList.length
  let left := if usable < n then usable else usable - n
  let d := d.setSpr (fun s => { s with spares := left })
  let d := if d.host then d.setN BOOT_ROWS_LEFT left else d
  if usable < n then
    (if d.host then d.setN BOOT_ROWS_LIST n else d).bootFails 2
  else
    let d := if d.host then (d.setN BOOT_ROWS_NEW (satN 255 n)).setN BOOT_ROWS_LIST 0 else d
    (d.setSpr (fun s => { s with map := s.map ++ s.recList, recList := [] })).toPhase 5

/-- B5: SRAM and both program memories are cleared, and the wear record is loaded; one that cannot be read sets RECERR
(R108, R459). -/
def Domain.b5 (d : Domain) (fails : Bool) : Domain :=
  let mem := sclear 0x50000000 0x52000000 (sclear 0x10000000 0x20000000 d.mem)
  let d := { d with mem := mem }
  (if fails then d.setB SPR_STAT_RECERR true else d.loadRecord).toPhase 6

/-! ## B2 of a channel (R500, R502) -/

/-- The SAFE registers and the password of a configuration come into use. -/
def Channel.loadConfig (c : Channel) (a : Nat) : Channel :=
  let load := fun (st : List (Nat × Word)) (i : Nat) =>
    match rowOf (0x80000 + 4 * i) with
    | some r => rput st (0x80000 + 4 * i) (blobWord c.dom.mem a (5 + i) &&& BitVec.ofNat 32 (r.rwp ||| r.rwl))
    | none => st
  let regs := match rowOf 0x80040 with
    | some r => rput c.dom.regs 0x80040 (blobWord c.dom.mem a 21 &&& BitVec.ofNat 32 r.rwl)
    | none => c.dom.regs
  let c := { c with
    plan := (List.range 16).foldl load c.plan, live := (List.range 17).foldl load c.live
    dom := { c.dom with regs := regs } }
  c.setSafe (fun s => { s with password := blobWord c.dom.mem a 2 })

/-- A change-log entry for word i where it differs from the configuration last applied; a password with OLD and NEW at 0.
No engine wrote it: the engine field is a free value (R438, R500, log 3). -/
def Channel.logWord (old new : Nat) (c : Channel) (i : Nat) : Channel :=
  let a := blobWord c.dom.mem old i
  let b := blobWord c.dom.mem new i
  if a = b then c
  else
    let q := c.free 382
    q.2.logAdd 2 (q.1.toNat % 2048) i (if i = 2 then 0 else a) (if i = 2 then 0 else b)

/-- B2: both copies of the selected slot are read; FAIL 0x01 in the cases of R111 and R500. -/
def Channel.b2 (c : Channel) (ecc : Bool) : Channel :=
  let sel := c.word 0x201E0000
  let a := slotAt (bitOf sel 1)
  let m := c.dom.mem
  let cfg0 := blobWord m a 3
  let bad := ecc || !blobOk m a || !blobOk m (a + 0x100)
    || !(List.range 23).all (fun i => blobWord m a i == blobWord m (a + 0x100) i)
    || (bitOf cfg0 0 && decide (767 < (fget cfg0 31 22).toNat))
  if bad then c.mapDom (·.bootFails 1)
  else
    let c := c.loadConfig a
    let c := (List.range 20).foldl (fun c i => c.logWord (slotAt (bitOf (c.word 0x201E0004) 1)) a (i + 2)) c
    let c := c.putWord 0x201E0004 (sel &&& 0xFC02)
    let c := c.mapDom fun d => { d with
      bank := bitOf sel 0
      regs := rput (rput d.regs 0x8 (cfg0 &&& 0xFFFFF001)) 0xC (blobWord m a 4 &&& 0x00FFFFFF) }
    let c := c.setB SYS_CAP_DUAL_CORE (bitOf cfg0 0)
    c.mapDom fun d =>
      (d.startPll (d.rgB SYS_BOOTCFG0_REFDIV) (d.rg SYS_BOOTCFG0_NINT) (d.rg SYS_BOOTCFG1_NFRAC)).toPhase 3

/-! ## B6 to B10 -/

/-- B8: two or three failing cores fail the boot; a single one is retired and the other two form the pair (R111, R387).
In dual-core mode the roles are those of R403, and a core that fails is held (log 23). -/
def Domain.b8 (d : Domain) (groups : Bool) (fails : BitVec 3) : Domain :=
  let bad := [Eng.e0, .e1, .e2].filter (fun e => fails.getLsbD e.idx)
  if groups && !d.dual then d.bootFails 6
  else if 2 ≤ bad.length then d.bootFails 7
  else
    let good := [Eng.e0, .e1, .e2].filter (fun e => !fails.getLsbD e.idx)
    let d := bad.foldl (fun d e => (d.retire e).sprCore e (if e = .e2 then 3 else 1)) d
    let roles := fun (m h s : Nat) (d : Domain) => ((d.setN LSC_STAT_MAIN m).setN LSC_STAT_SHADOW h).setN LSC_STAT_SPARE s
    let d :=
      if d.dual then (roles 0 3 (if bad.contains .e2 then 3 else 2) d).setN LSC_STAT_PHASE 4
      else if bad.isEmpty then roles 0 1 2 d
      else match good with
        | a :: b :: _ => roles a.idx b.idx 3 d
        | _ => d
    d.toPhase 9

/-- B9: failing trip paths without a spare, or an STO input path, fail the boot; otherwise the working cells and input
stages are selected (R111, R451, R452, log 27). -/
def Domain.b9 (d : Domain) (fails : Bool) (code : BitVec 8) (cmp : BitVec 7) (trip : BitVec 8) : Domain :=
  if fails then d.bootFails (if code = 9 then 9 else 8)
  else
    let d := (d.set SPR_CMP_SPARE (cmp.setWidth 32)).set SPR_TRIPIN_SPARE (trip.setWidth 32)
    let d := ((List.range 7).filter cmp.getLsbD).foldl (fun d k => d.evSpr 4 1 k) d
    (((List.range 8).filter trip.getLsbD).foldl (fun d k => d.evSpr 5 1 k) d).toPhase 10

/-- A core is released at an address (R118). -/
def Domain.startCore (pc : Word) (d : Domain) (e : Eng) : Domain :=
  d.setCore e { Core.reset with run := .running, pc := pc, seq := (d.core e).seq }

/-- The pair, or in dual-core mode both working cores, are released (R114, R118). A debug halt that was requested before
ends lockstep here, and main alone is released (R404, R531). -/
def Domain.release (d : Domain) (pc : Word) : Domain :=
  let d := if d.dbg.halted then d.breakLockstep else d
  if d.dual then
    let start := fun (e : Eng) (pc : Word) (d : Domain) =>
      if d.rgB (LSC_STAT_RETIRED.bit e.idx) then d else Domain.startCore pc d e
    start .e1 (BitVec.ofNat 32 (d.rgN SYS_BOOTCFG0_CORE1_VEC * 4096)) (start .e0 pc d)
  else (d.main.toList ++ (if d.broken then [] else d.shadow.toList)).foldl (Domain.startCore pc) d

/-- What a debug halt does beside the cores: PWM freezes, and Weir and Cascade halt where XWEIR and XCAS say so (R303, R531,
R534). -/
def Channel.haltBlocks (c : Channel) : Channel :=
  let c := if c.rgB DBG_CTL_XWEIR then { c with weir := { c.weir with halted := true } }.setB DBG_STAT_WHALTED true else c
  let c := if c.rgB DBG_CTL_XCAS then { c with cas := { c.cas with halted := true } }.setB DBG_STAT_CHALTED true else c
  c.freeze

/-- What waited for the cores to run: EV_CLKFBK after a B3 that ended on RC, and THDIAG 0x5 after a thermal restart
(R111, R448). -/
def Domain.tellRelease (d : Domain) : Domain :=
  let d := if d.onRc then d.pllEvent 0x7C else d
  let d := if d.warm then d.thDiag 5 0 else d
  { d with onRc := false, warm := false }

/-- B10: the cores are released and boot is complete (R108, R109). -/
def Domain.b10 (d : Domain) : Domain :=
  let d := (d.release 0).toPhase 0xFF
  (d.setB (doneFld d.host) true).refreshCap.tellRelease

/-- B6: an invalid header, then a wrong digest (R111, R499). -/
def Domain.b6 (d : Domain) (digest : Bool) : Domain :=
  if !headerOk d.mem d.host d.bank then d.bootFails 4 else if digest then d.bootFails 3 else d.toPhase 7

/-- B7. -/
def Domain.b7 (d : Domain) (fails : Bool) : Domain :=
  if fails then d.bootFails 5 else { d with mem := placePrograms d.mem d.bank }.toPhase 8

/-- BOOT_PHASE_DONE in a channel (R108). -/
def Channel.phaseDone (c : Channel) (r : BootReport) : Channel :=
  let p := c.rgN SYS_BOOTSTAT_PHASE
  c.when (c.dom.inPhase p) fun c =>
    match p with
    | 1 => c.mapDom (·.toPhase 2)
    | 2 => c.b2 r.fails
    | 3 => c.mapDom fun d => if d.rgB PLL_STAT_LOCK && d.pll.searches.isEmpty then d.toPhase 4 else d
    | 4 => c.mapDom (·.b4 r.rowsLeft.toNat)
    | 5 => c.mapDom (·.b5 r.fails)
    | 6 => c.mapDom (·.b6 r.fails)
    | 7 => c.mapDom (·.b7 r.fails)
    | 8 => c.mapDom (·.b8 r.fails r.coreFails)
    | 9 => c.mapDom (·.b9 r.fails r.code r.cmpSpare r.tripSpare)
    | 10 =>
      let c := (c.mapDom Domain.b10).safeEval
      if c.dom.dbg.halted then c.haltBlocks else c
    | _ => c

/-- B2 of the host domain: both copies of its boot configuration agree (R108, R498). -/
def Domain.hostB2 (d : Domain) (ecc : Bool) : Domain :=
  let w := fun (a : Nat) => memWord d.mem a
  if ecc || w 0x20000100 != w 0x20000180 || w 0x20000104 != w 0x20000184 then d.bootFails 1
  else
    (d.startPll (bitOf (w 0x20000100) 12) (fget (w 0x20000100) 21 13) (fget (w 0x20000104) 23 0)).toPhase 3

/-- BOOT_PHASE_DONE in the host domain: after B5 its cores start in the boot ROM (R115, R510). -/
def Domain.hostPhaseDone (d : Domain) (r : BootReport) : Domain :=
  let p := d.rgN BOOT_STAT_PHASE
  if d.inPhase p then
    match p with
    | 1 => d.toPhase 2
    | 2 => d.hostB2 r.fails
    | 3 => if d.rgB PLL_STAT_LOCK && d.pll.searches.isEmpty then d.toPhase 4 else d
    | 4 => d.b4 r.rowsLeft.toNat
    | 5 => (d.b5 r.fails).release 0x08000000
    | _ => d
  else d

end Sys2Proof.Machine
end

