-- ==== Sys2Proof/Machine/Power.lean ====
section
/-! DEFINITION. Power.lean: supply monitors and reset sources (R82 to R92, R446 to R448): what each holds in reset, what a
reset keeps, and release. -/

namespace Sys2Proof.Machine

/-! ## Entering reset (R90) -/

/-- What stays in memory across a reset: the NVM. -/
def nvmOnly (m : List Host.Cell) : List Host.Cell := sclear 0 0x20000000 (sclear 0x30000000 0x80000000 m)

/-- A domain in its reset state, keeping NVM with its field repair map, SYS_RSTSTAT, THM_SDCFG and THM_SDSTAT, the wear record, the reset sources and
the counter of free values (R90, R448, R459). -/
def Domain.enterReset (d : Domain) : Domain :=
  let keep := [SYS_RSTSTAT_POR.reg, THM_SDCFG_SDMAX.reg, THM_SDSTAT_SDCNT.reg]
  { Domain.reset d.id with
    fresh := d.fresh, rs := d.rs, mem := nvmOnly d.mem, warm := d.warm
    regs := keep.foldl (fun m k => rput m k (rget d.regs k)) []
    spr := { Spr.reset with
      map := d.spr.map, spares := d.spr.spares
      record := d.spr.record, recRows := d.spr.recRows, recList := d.spr.recList, counts := d.spr.counts } }

/-- A channel enters reset: an unlocked configuration is locked again and lab mode ends, each with its event (R434,
R436). -/
def Channel.enterReset (c : Channel) : Channel :=
  let unlocked := c.rgB SAFE_STAT_UNLOCKED
  let lab := c.rgB SAFE_STAT_LAB
  let x := { Channel.reset c.dom.id with dom := c.dom.enterReset }
  let x := if unlocked then x.evDiag 8 else x
  if lab then x.evDiag 5 else x

/-- The host domain enters reset: an open staging session is closed, PENDING stands as it is in NVM (R509). -/
def HostDom.enterReset (h : HostDom) : HostDom := { HostDom.reset with dom := h.dom.enterReset }

/-- A reset source of channel n becomes active, recorded in a bit of SYS_RSTSTAT; the channel enters reset unless it is in
reset already. Its epoch gains 2 and the host raises EV_HCHRST (R86, R91, R486, R490). -/
def State.resetChan (s : State) (n : Chan) (bit : Fld) (src : ResetSrc → ResetSrc) : State :=
  let c := s.ch n
  let was := c.dom.inReset
  let c := c.setB bit true
  let c := c.mapDom (fun d => { d with rs := src d.rs })
  if was then s.setCh n c
  else
    let t := State.settleChan s (s.setCh n c.enterReset) n
    (t.bumpEpoch n.idx 2).hostEvent (0x62 + 4 * n.idx) 1

/-- The ring accesses that a core has outstanding are lost with the host domain (R31). -/
def Core.loseRing (x : Core) : Core :=
  { x with lost := (x.loads.filter (fun l => inRing l.addr)).map LoadReq.seq
      ++ (x.posted.filter (fun q => inRing q.addr)).map StoreReq.seq }

def Domain.loseRing (d : Domain) : Domain :=
  [Eng.e0, .e1, .e2].foldl (fun d e => d.setCore e (d.core e).loseRing) d

/-- A reset source of the host domain becomes active; what the channels have outstanding in the ring window is lost (R31,
R86). -/
def State.resetHost (s : State) (src : ResetSrc → ResetSrc) : State :=
  let h := s.host
  let was := h.dom.inReset
  let h := { h with dom := { h.dom with rs := src h.dom.rs } }
  if was then { s with host := h }
  else
    let t := allChans.foldl (fun s n => s.setCh n ((s.ch n).mapDom Domain.loseRing)) s
    t.settleHost { t with host := h.enterReset }

/-- A reset source of channel n ends; out of reset, boot begins at B1 (R86, R108). -/
def State.releaseChan (s : State) (n : Chan) (src : ResetSrc → ResetSrc) : State :=
  let c := s.ch n
  let t := s.setCh n (c.mapDom (fun d => { d with rs := src d.rs }))
  if c.dom.inReset && !(t.ch n).dom.inReset then
    ((s.settleOne t n).hostEvent (0x62 + 4 * n.idx) 0)
  else t

def State.releaseHost (s : State) (src : ResetSrc → ResetSrc) : State :=
  let h := s.host
  s.settleHost { s with host := { h with dom := { h.dom with rs := src h.dom.rs } } }

/-! ## Supplies (R82 to R88) -/

/-- The rails whose monitors cover a domain (R86). -/
def railCovers (r : Rail) (d : Dom) : Bool :=
  match r, d with
  | .vio, _ => true
  | .vcore, _ => true
  | .vnvm, _ => true
  | .vring, .host => true
  | .vring, .ch _ => false
  | .vana c, .ch n => decide (c = n)
  | .vana _, .host => false

/-- The SYS_RSTSTAT bit of a rail (R91). -/
def railBit : Rail → Fld
  | .vcore => SYS_RSTSTAT_VCORE
  | .vnvm => SYS_RSTSTAT_VNVM
  | .vana _ => SYS_RSTSTAT_VANA
  | .vio | .vring => SYS_RSTSTAT_POR

/-- A supply reset of one channel, with OV telling overvoltage from undervoltage; of several recorded the last one tells it
(R91; log 26). -/
def State.supplyChan (rail : Rail) (isOver : Bool) (s : State) (n : Chan) : State :=
  if railCovers rail (.ch n) then
    let s := s.setCh n ((s.ch n).setB SYS_RSTSTAT_OV isOver)
    s.resetChan n (railBit rail) (fun r => { r with supply := true })
  else s

/-- VIO undervoltage: the whole device is reset; SYS_RSTSTAT keeps only POR, THM_SDCFG and THM_SDSTAT return to their values
after VIO reset, and EXTEST ends with the TAP's power; other reset sources go on acting (R86, R90). -/
def State.powerOn (s : State) : State :=
  let s := allChans.foldl (fun s n => s.resetChan n SYS_RSTSTAT_POR (fun r => { r with supply := true })) s
  let s := s.resetHost (fun r => { r with supply := true })
  let wipe := fun (d : Domain) => { d with regs := [], warm := false }
  let s := allChans.foldl (fun (s : State) n => s.setCh n ((s.ch n).mapDom wipe)) s
  let s := s.setDom .host (wipe s.host.dom)
  { s with dev := { s.dev with bad := if s.dev.bad.contains .vio then s.dev.bad else s.dev.bad ++ [.vio], extest := none } }

/-- SUPPLY_MONITOR_ASSERT: VIO overvoltage is no reset source (R86). -/
def State.supplyAssert (s : State) (rail : Rail) (isOver : Bool) : State :=
  if rail = .vio then (if isOver then s else s.powerOn)
  else
    let s := { s with dev := { s.dev with
      bad := if s.dev.bad.contains rail then s.dev.bad else s.dev.bad ++ [rail] } }
    let s := allChans.foldl (State.supplyChan rail isOver) s
    if railCovers rail .host then s.resetHost (fun r => { r with supply := true }) else s

/-- SUPPLY_MONITOR_DEASSERT: the extension of R88 begins once no covering monitor is asserted. -/
def State.supplyDeassert (s : State) (rail : Rail) : State :=
  { s with dev := { s.dev with bad := s.dev.bad.filter (fun r => r != rail) } }

/-- RESET_EXTENSION_EXPIRY: only while no covering monitor is asserted (R88). -/
def State.extensionExpiry (s : State) (d : Dom) : State :=
  if (s.dom d).rs.supply && !s.dev.bad.any (fun r => railCovers r d) then
    match d with
    | .ch n => s.releaseChan n (fun r => { r with supply := false })
    | .host => s.releaseHost (fun r => { r with supply := false })
  else s

/-- WRITE_INHIBIT_CHANGE: a save that waited is made when the inhibit ends (R84, R459). -/
def State.writeInhibit (s : State) (on : Bool) : State :=
  let s := { s with dev := { s.dev with inhibit := on } }
  if on then s
  else
    let save := fun (d : Domain) => if d.spr.saveReq && !d.inReset then d.saveRecord else d
    let s := allChans.foldl (fun (s : State) n => s.setCh n ((s.ch n).mapDom save)) s
    s.setDom .host (save s.host.dom)

/-! ## Balls, software and host requests (R86 to R92) -/

/-- A low pulse on the reset ball ends a thermal lock-out by clearing SDCNT (R447, log 24). -/
def Domain.pinClears (d : Domain) : Domain :=
  if d.rs.thermal && decide (d.rgN THM_SDCFG_SDMAX < d.rgN THM_SDSTAT_SDCNT) then d.setN THM_SDSTAT_SDCNT 0 else d

/-- CHANNEL_RESET_ASSERT. -/
def State.pinAssert (s : State) (n : Chan) : State :=
  let s := s.setCh n ((s.ch n).mapDom Domain.pinClears)
  s.resetChan n SYS_RSTSTAT_PIN (fun r => { r with pin := true })

/-- CHANNEL_RESET_RELEASE: 20 µs after the ball, the software reset or the host request has ended. -/
def State.pinRelease (s : State) (n : Chan) : State :=
  if (s.ch n).dom.rs.pin || (s.ch n).dom.rs.soft then s.releaseChan n (fun r => { r with pin := false, soft := false }) else s

/-- HOST_RESET_ASSERT and HOST_RESET_RELEASE. -/
def State.hostPinAssert (s : State) : State :=
  (s.setDom .host s.host.dom.pinClears).resetHost (fun r => { r with pin := true })

def State.hostPinRelease (s : State) : State :=
  if s.host.dom.rs.pin then s.releaseHost (fun r => { r with pin := false }) else s

/-- A write of SYS_RSTCTL, with its key (R92). -/
def State.writeRstctl (s : State) (n : Chan) (w : Word) : State :=
  if fget w 31 16 = 0xC3A5 then
    let s := s.setCh n ((s.ch n).set SYS_RSTCTL_HOSTRST_EN (fget w 1 1))
    if bitOf w 0 then s.resetChan n SYS_RSTSTAT_SOFT (fun r => { r with soft := true }) else s
  else s

/-- A write of HSYS_CHRST (R89). -/
def State.hostRequest (s : State) (w : Word) : State :=
  allChans.foldl (fun (s : State) n =>
    if bitOf w n.idx && (s.ch n).rgB SYS_RSTCTL_HOSTRST_EN then
      s.resetChan n SYS_RSTSTAT_HOST (fun r => { r with soft := true })
    else s) s

/-! ## Thermal shutdown (R446 to R448) -/

/-- THERMAL_SHUTDOWN. -/
def State.thermalShutdown (s : State) (d : Dom) (sensor : Nat) : State :=
  if (s.dom d).rs.thermal || !(s.dom d).sensors.contains sensor then s
  else
    let s := s.setDom d { (s.dom d).noteShutdown sensor with warm := true }
    match d with
    | .ch n => s.resetChan n SYS_RSTSTAT_THERM (fun r => { r with thermal := true })
    | .host => s.resetHost (fun r => { r with thermal := true })

/-- THERMAL_RESTART. -/
def State.thermalRestart (s : State) (d : Dom) : State :=
  if (s.dom d).mayRestart then
    match d with
    | .ch n => s.releaseChan n (fun r => { r with thermal := false })
    | .host => s.releaseHost (fun r => { r with thermal := false })
  else s

end Sys2Proof.Machine
end

