-- ==== Sys2Proof/Machine/Ring.lean ====
section
/-! DEFINITION. Ring.lean: the Runnel ring port (R465 to R492): frames, forwarding, cycles and ring time, cyclic copies,
remote memory, wrap, and the mailbox of a channel. -/

namespace Sys2Proof.Machine

/-! ## Frames (R470) -/

/-- Word i of a frame. -/
def frameWord (f : List Byte) (i : Nat) : Word :=
  (f.getD (4 * i + 3) 0 ++ f.getD (4 * i + 2) 0 ++ f.getD (4 * i + 1) 0 ++ f.getD (4 * i) 0 : BitVec 32)

def frameField (f : List Byte) (i hi lo : Nat) : Nat := (fget (frameWord f i) hi lo).toNat

def fType (f : List Byte) : Nat := frameField f 0 3 0
def fDst (f : List Byte) : Nat := frameField f 0 7 4
def fSrc (f : List Byte) : Nat := frameField f 0 11 8
def fHops (f : List Byte) : Nat := frameField f 0 16 12
def fWraps (f : List Byte) : Nat := frameField f 0 18 17
def fPath (f : List Byte) : Nat := frameField f 0 19 19
def fSub (f : List Byte) : Nat := frameField f 2 7 0
def fBroadcast (f : List Byte) : Bool := fDst f == fSrc f

/-- Bytes of words in order. -/
def wordBytes (ws : List Word) : List Byte := ws.flatMap bytesOf

/-- A frame of a header's first three words and a payload. -/
def frameOf (w0 w1 w2 : Word) (payload : List Word) : List Byte :=
  let h := wordBytes [w0, w1, w2]
  h ++ bytesOf (crc32 h) ++ (if payload.isEmpty then [] else wordBytes payload ++ bytesOf (crc32 (wordBytes payload)))

/-- A frame that this node originates: HOPS 31 but for neighbour frames, LEN from the payload. -/
def mkFrame (ty dst src tag path hops rcnt stat : Nat) (w2 : Word) (payload : List Word) : List Byte :=
  let len := if payload.isEmpty then 16 else 20 + 4 * payload.length
  frameOf (BitVec.ofNat 32 (tag * 1048576 + path * 524288 + hops * 4096 + src * 256 + dst * 16 + ty))
    (BitVec.ofNat 32 (rcnt * 65536 + stat * 4096 + len)) w2 payload

def payloadWords (f : List Byte) : List Word := (List.range ((f.length - 20) / 4)).map (fun i => frameWord f (4 + i))

def hcrcOk (f : List Byte) : Bool := decide (16 ≤ f.length) && frameWord f 3 == crc32 (f.take 12)

/-- The payload CRC is right, or there is no payload. -/
def pcrcOk (f : List Byte) : Bool :=
  decide (f.length ≤ 16) || frameWord f (f.length / 4 - 1) == crc32 ((f.drop 16).take (f.length - 20))

/-- The rules of R470 and R471 that every frame must meet. -/
def wellFormedFrame (f : List Byte) : Bool :=
  let n := f.length
  frameField f 1 10 0 == n && n % 4 == 0 && decide (16 ≤ n) && decide (n ≤ 1024) && n != 20
    && frameField f 0 31 28 == 0 && frameField f 1 31 24 == 0 && frameField f 1 11 11 == 0
    && decide (1 ≤ fType f) && decide (fType f ≤ 7) && (fType f == 4 || frameField f 1 15 12 == 0)
    && (if 2 ≤ fType f ∧ fType f ≤ 4 then frameField f 2 31 24 == 0 else true)
    && (match fType f with
      | 2 => n == 16
      | 3 => decide (24 ≤ n)
      | 5 => n == 32
      | _ => true)

/-- The header with other values of W0, and its HCRC. -/
def rehead (f : List Byte) (w0 : Word) : List Byte :=
  let h := bytesOf w0 ++ (f.drop 4).take 8
  h ++ bytesOf (crc32 h) ++ f.drop 16

/-- The payload replaced; a payload whose CRC was wrong keeps a wrong one, the complement of the right one (R472). -/
def repay (f : List Byte) (ws : List Word) : List Byte :=
  let c := crc32 (wordBytes ws)
  f.take 16 ++ wordBytes ws ++ bytesOf (if pcrcOk f then c else ~~~c)

/-- A neighbour frame of R486. -/
def isNeighbour (f : List Byte) : Bool := fType f == 6 && (fSub f == 1 || fSub f == 2)

/-! ## Ports -/

def Ring.port (r : Ring) : Port → PortSt
  | .a => r.a | .b => r.b

def Ring.setPort (r : Ring) (p : Port) (x : PortSt) : Ring :=
  match p with
  | .a => { r with a := x } | .b => { r with b := x }

def otherPort : Port → Port
  | .a => .b | .b => .a

def portCode : Port → Nat
  | .a => 0 | .b => 1

def linkFld : Port → Fld
  | .a => RING_STAT_LINKA | .b => RING_STAT_LINKB

def wrapFld : Port → Fld
  | .a => RING_STAT_WRAPA | .b => RING_STAT_WRAPB

def delayFld : Port → Fld
  | .a => RING_LDLY_DLYA | .b => RING_LDLY_DLYB

def HostDom.rg (h : HostDom) (f : Fld) : Word := h.dom.rg f
def HostDom.rgN (h : HostDom) (f : Fld) : Nat := h.dom.rgN f
def HostDom.rgB (h : HostDom) (f : Fld) : Bool := h.dom.rgB f
def HostDom.set (h : HostDom) (f : Fld) (v : Word) : HostDom := { h with dom := h.dom.set f v }
def HostDom.setN (h : HostDom) (f : Fld) (v : Nat) : HostDom := { h with dom := h.dom.setN f v }
def HostDom.setB (h : HostDom) (f : Fld) (b : Bool) : HostDom := { h with dom := h.dom.setB f b }
def HostDom.raise (h : HostDom) (ev : Nat) (arg : Nat := 0) : HostDom := { h with dom := h.dom.raise ev arg }
def HostDom.count (h : HostDom) (f : Fld) : HostDom := { h with dom := h.dom.count f }
/-- Item j of the packet engine. It executes no instruction: words 1 to 4 of a sample are free values (R524, R527; log 82). -/
def HostDom.frameItem (h : HostDom) (j : Nat) : HostDom :=
  let d := h.dom
  if (List.range 4).any (fun k => d.rgB (PERF_SMP_EN k) && d.rgN (PERF_SMP_EVENT k) == 0x130 + j) then
    let a := d.free 75
    let b := a.2.free 76
    let c := b.2.free 77
    let l := c.2.free 78
    { h with dom := l.2.item 3 j ⟨a.1, b.1, c.1, l.1.toNat⟩ }
  else { h with dom := d.bump (0x130 + j) 1 }

def HostDom.setRing (h : HostDom) (f : Ring → Ring) : HostDom := { h with ring := f h.ring }
def HostDom.now (h : HostDom) : Nat := h.dom.time

/-- Ring time in ns (R476). -/
def HostDom.rt (h : HostDom) : Nat := h.ring.t2 / 2
def HostDom.node (h : HostDom) : Nat := h.rgN RING_NODE_ID
def HostDom.enabled (h : HostDom) : Bool := h.rgB RING_CTL_PORTEN

/-- The cycle period in use (R491). -/
def HostDom.cycPer (h : HostDom) : Nat := max 50000 (h.rgN RING_CYC_CYCPER)

/-- HCLK cycles that a frame occupies its link (R466). -/
def airTime (n : Nat) : Nat := ((n + 8) * 16 + 4) / 5

/-- A link takes a state with its event (R490). -/
def HostDom.setLink (h : HostDom) (p : Port) (st : Nat) : HostDom :=
  if h.rgN (linkFld p) = st then h else (h.setN (linkFld p) st).raise (0x10 + portCode p) st

def HostDom.setWrap (h : HostDom) (p : Port) (on : Bool) : HostDom :=
  if h.rgB (wrapFld p) = on then h
  else (h.setB (wrapFld p) on).raise 0x12 (portCode p + if on then 2 else 0)

/-- A frame goes to a transmitter: at once, or in turn after those before it while the transmitter is busy; a link that is
not UP loses it (R473, R474; log 41). -/
def HostDom.transmit (h : HostDom) (p : Port) (f : List Byte) : HostDom :=
  if h.enabled && h.rgN (linkFld p) == 2 then
    let x := h.ring.port p
    if x.free ≤ h.now ∧ x.fwd = [] then h.setRing (·.setPort p { x with out := f, free := h.now + airTime f.length })
    else h.setRing (·.setPort p { x with fwd := x.fwd ++ [f] })
  else h

/-- The next waiting frame leaves once the transmitter is idle. -/
def HostDom.drain (h : HostDom) (p : Port) : HostDom :=
  let x := h.ring.port p
  match x.fwd with
  | f :: fs =>
    if x.free ≤ h.now then
      h.setRing (·.setPort p { x with fwd := fs, out := f, free := h.now + airTime f.length })
    else h
  | [] => h

/-- A cyclic frame goes to a transmitter, whose ring time of its departure R480 looks at. -/
def HostDom.transmitCyclic (h : HostDom) (p : Port) (f : List Byte) : HostDom :=
  let x := h.ring.port p
  let wait := (x.fwd.map (fun g => airTime g.length)).foldl (· + ·) (x.free - h.now)
  let at_ := h.rt + wait * 5 / 2 + (f.length + 8) * 8
  (h.transmit p f).setRing (fun r => r.setPort p { r.port p with cycOut := at_ })

/-- A frame is discarded with its count and EV_RFRMERR (R472, R490). -/
def HostDom.discard (h : HostDom) (f : Fld) (kind : Nat) : HostDom := ((h.count f).raise 0x1B kind).frameItem 3

/-- A taken frame is checked: malformed or with a wrong PCRC it is discarded (R472). -/
def HostDom.takeCheck (h : HostDom) (f : List Byte) : Bool × HostDom :=
  if !wellFormedFrame f then (false, h.discard RING_ERRCNT_FMT 2)
  else if !pcrcOk f then (false, h.discard RING_ERRCNT_PCRC 1)
  else (true, h.frameItem 1)

/-- A taken frame: what each type does is the effect of its own command; a discovery reply, which is no broadcast, and a
management frame of no named subtype raise EV_RMGMT here (R471, R486). -/
def HostDom.take (h : HostDom) (f : List Byte) : HostDom :=
  let r := h.takeCheck f
  if r.1 && fType f == 6 && (fSub f == 0 || decide (4 < fSub f) || (fSub f == 3 && !fBroadcast f)) then
    r.2.raise 0x32 (fSub f)
  else r.2

/-- The frame as a node forwards it: one hop fewer, and a wrong PCRC made the complement of the right one. -/
def forwarded (f : List Byte) : List Byte :=
  let f := rehead f (fput (frameWord f 0) 16 12 (BitVec.ofNat 32 (fHops f - 1)))
  if pcrcOk f then f else repay f (payloadWords f)

/-- The frame as it enters a wrap. -/
def rewrapped (f : List Byte) : List Byte := rehead f (fput (frameWord f 0) 18 17 (BitVec.ofNat 32 (fWraps f + 1)))

/-- A frame goes on from port p to the other side; where that port is wrapped, it arrives there `again`, unless it has
passed two wraps (R487). -/
def HostDom.goesOn (h : HostDom) (p : Port) (g : List Byte) (send : HostDom → Port → List Byte → HostDom)
    (again : HostDom → List Byte → HostDom) : HostDom :=
  let q := otherPort p
  let h := h.frameItem 0
  if h.rgB (wrapFld q) then (if fWraps g = 2 then h.frameItem 3 else again h (rewrapped g)) else send h q g

/-- What a node does with a frame that arrives on port p (R472), forwarding through a wrap where the other port is wrapped
(R487). A frame passes at most two wraps. -/
def HostDom.arrive : Nat → HostDom → Port → List Byte → HostDom
  | 0, h, _, _ => h
  | n + 1, h, p, f =>
    let own := h.node
    if !hcrcOk f then h.discard RING_ERRCNT_HCRC 0
    else if fBroadcast f && fSrc f == own && fWraps f != 1 then h
    else if (fDst f == own && !fBroadcast f) || isNeighbour f then h.take f
    else if fHops f = 0 then h.discard RING_ERRCNT_HOP 3
    else (if fBroadcast f then h.take f else h).goesOn p (forwarded f) HostDom.transmit
      (fun h g => HostDom.arrive n h (otherPort p) g)

/-- FRAME_RECEIVE, for frames other than cyclic and time frames, which have commands of their own. -/
def HostDom.frameReceive (h : HostDom) (p : Port) (f : List Byte) : HostDom :=
  if h.enabled && h.rgN (linkFld p) == 2 && !(hcrcOk f && (fType f == 1 || fType f == 5)) then HostDom.arrive 4 h p f else h

/-- A node's own frame leaves on port p, or through its wrap (R487). -/
def HostDom.originate (h : HostDom) (p : Port) (f : List Byte) : HostDom :=
  let h := h.frameItem 2
  if h.rgB (wrapFld p) then HostDom.arrive 4 h p (rewrapped f) else h.transmit p f

/-! ## Links, wrap and by-pass (R467, R468, R487, R70) -/

/-- LINK_ALIGN, LINK_UP and LINK_DOWN. -/
def HostDom.linkAlign (h : HostDom) (p : Port) : HostDom :=
  if h.enabled && h.rgN (linkFld p) == 0 then h.setLink p 1 else h

def HostDom.linkUp (h : HostDom) (p : Port) : HostDom :=
  if h.enabled && h.rgN (linkFld p) == 1 then
    (h.setLink p 2).setRing (fun r => r.setPort p { r.port p with upAt := h.now })
  else h

def HostDom.linkDown (h : HostDom) (p : Port) : HostDom :=
  if h.enabled && h.rgN (linkFld p) != 0 then
    let h := (h.setLink p 0).setRing (fun r => r.setPort p { r.port p with fwd := [], out := [] })
    if h.rgB RING_CTL_WRAPEN then h.setWrap p true else h
  else h

/-- UNWRAP: UNWRAPT after the port has come UP, at a gap between frames. -/
def HostDom.unwrap (h : HostDom) (p : Port) : HostDom :=
  let x := h.ring.port p
  if h.rgB (wrapFld p) && h.rgN (linkFld p) == 2 && decide (x.upAt + 400 * atLeast1 (h.rgN RING_UNWRAP_UNWRAPT) ≤ h.now)
      && decide (x.free ≤ h.now) then
    h.setWrap p false
  else h

/-- The by-pass is closed (R68). -/
def State.bypassClosed (s : State) : Bool :=
  s.dev.bad.contains .vring || s.dev.bad.contains .vcore || s.host.dom.inReset || !s.host.enabled

/-- BYPASS_CHANGE: it opens or closes, and frames in transit are lost (R70). -/
def State.bypassChange (s : State) : State :=
  if s.host.rgB RING_STAT_BYPASS = s.bypassClosed then s
  else
    let b := s.bypassClosed
    let lose := fun (x : PortSt) => { x with fwd := [], out := [] }
    let h := (s.host.setB RING_STAT_BYPASS b).setRing (fun r => { r with a := lose r.a, b := lose r.b })
    s.settleHost { s with host := h }

/-! ## Waiting frames (R474, R480, R484) -/

/-- A frame joins those that wait for a port. -/
def HostDom.enqueue (h : HostDom) (p : Port) (f : List Byte) : HostDom :=
  h.setRing (fun r => { r with mine := r.mine ++ [(p, f)] })

/-- R474's order of a node's own frames: responses, remote requests, management, update chunks. -/
def frameClass (f : List Byte) : Nat :=
  match fType f with
  | 4 => 0 | 2 => 1 | 3 => 1 | 6 => 2 | _ => 3

/-- R480 permits a frame of n bytes on port p now. -/
def HostDom.windowOpen (h : HostDom) (p : Port) (n : Nat) : Bool :=
  let per := h.cycPer
  let pos := h.rt % per
  let begun := h.rt - pos
  let out := (h.ring.port p).cycOut
  (decide (h.rgN RING_GUARD_GUARD ≤ pos) || (decide (begun ≤ out) && decide (out ≤ h.rt)))
    && decide (pos + (n + 8) * 8 + h.rgN RING_GUARD_GUARD ≤ per)

/-- The path to a node by RING_ROUTE. -/
def HostDom.routeTo (h : HostDom) (node : Nat) : Port := if h.rgB (RING_ROUTE_PATH.bit node) then .b else .a

/-- An access of a core's queue to the ring window of a remote node, which has no request yet. -/
structure Want where
  d : Dom
  e : Eng
  seq : Nat
  write : Bool
  addr : Nat
  data : Word
deriving DecidableEq, Repr

/-- The ring accesses that a core has outstanding, in order, but for those that a host reset has ended (R31). A pair's
stand in main's queues alone (R120). -/
def Core.ringWants (d : Dom) (e : Eng) (x : Core) : List Want :=
  let loads : List Want := (x.loads.filter (fun l => inRing l.addr && decide (x.run = .running))).map (fun l => ⟨d, e, l.seq, false, l.addr.toNat, 0⟩)
  let stores : List Want := (x.posted.filter (fun s => inRing s.addr)).map (fun s => ⟨d, e, s.seq, true, s.addr.toNat, s.data⟩)
  (loads ++ stores).filter (fun w => !x.lost.contains w.seq)

/-- The node and the offset an address of the ring window names (R481). -/
def ringNode (a : Nat) : Nat := (a - 0x60000000) / 16777216
def ringOff (a : Nat) : Nat := a % 16777216

def allDoms : List Dom := [.ch .c0, .ch .c1, .ch .c2, .ch .c3, .host]

/-- Every outstanding ring access. -/
def State.ringWants (s : State) : List Want :=
  allDoms.flatMap fun d => [Eng.e0, .e1, .e2].flatMap fun e => ((s.dom d).core e).ringWants d e

/-- The request that stands for an access. -/
def Ring.reqOf (r : Ring) (d : Dom) (e : Eng) (seq : Nat) : Option RingReq :=
  r.reqs.find? (fun q => decide (q.d = d) && decide (q.e = e) && q.seq == seq)

/-- A remote access that may be sent on port p: none of the same core before it overlaps it, and fewer than 16 requests
are outstanding (R485). -/
def State.nextWant (s : State) (p : Port) : Option Want :=
  let r := s.host.ring
  if 16 ≤ (r.reqs.filter (fun q => q.reply.isNone)).length then none
  else
    s.ringWants.find? (fun w =>
      ringNode w.addr != s.host.node && decide (s.host.routeTo (ringNode w.addr) = p) && (r.reqOf w.d w.e w.seq).isNone
        && !s.ringWants.any (fun v => decide (v.d = w.d) && decide (v.e = w.e) && decide (v.seq < w.seq)
          && v.addr == w.addr))

/-- A request's frame. -/
def HostDom.reqFrame (h : HostDom) (p : Port) (q : RingReq) : List Byte :=
  mkFrame (if q.write then 3 else 2) q.node h.node q.tag (portCode p) 31 (if q.write then 0 else 1) 0
    (BitVec.ofNat 32 q.off) (if q.write then [q.data] else [])

/-- The frame that port p would send next, and the state once it is sent. -/
def State.nextFrame (s : State) (p : Port) : Option (List Byte × State) :=
  let h := s.host
  let mine := fun (c : Nat) => h.ring.mine.find? (fun x => decide (x.1 = p) && frameClass x.2 == c)
  let pop := fun (x : Port × List Byte) =>
    some (x.2, { s with host := h.setRing (fun r => { r with mine := r.mine.erase x }) })
  match mine 0 with
  | some x => pop x
  | none =>
    match h.ring.reqs.find? (fun q => q.sent.isNone && q.reply.isNone && decide (h.routeTo q.node = p)) with
    | some q =>
      let q' := { q with sent := some h.now }
      some (h.reqFrame p q, { s with host := h.setRing (fun r => { r with
        reqs := r.reqs.map (fun x => if x.tag = q.tag then q' else x) }) })
    | none =>
      match s.nextWant p with
      | some w =>
        let q : RingReq := ⟨h.ring.nextTag, w.d, w.e, w.seq, w.write, ringNode w.addr, ringOff w.addr, w.data,
          some h.now, 0, none⟩
        some (h.reqFrame p q, { s with host := h.setRing (fun r => { r with
          reqs := r.reqs ++ [q], nextTag := (r.nextTag + 1) % 256 }) })
      | none =>
        match mine 2 with
        | some x => pop x
        | none =>
          match mine 3 with
          | some x => pop x
          | none => none

/-- FRAME_SEND: one of the node's own waiting frames starts on an idle transmitter (R474). -/
def State.frameSend (s : State) (p : Port) : State :=
  let h := s.host
  let x := h.ring.port p
  if h.enabled && !h.dom.inReset && !h.rgB RING_STAT_DUPID && (h.rgN (linkFld p) == 2 || h.rgB (wrapFld p))
      && decide (x.free ≤ h.now) && x.fwd.isEmpty then
    match s.nextFrame p with
    | some (f, t) => if h.windowOpen p f.length then s.settleHost { t with host := t.host.originate p f } else s
    | none => s
  else s

/-! ## Remote memory (R481 to R485) -/

/-- What a word offset of a node's space names. -/
inductive Target where
  | window (n : Chan) (word : Nat)
  | mailbox (n : Chan) (word : Nat)
  | info (word : Nat)
  | none
deriving DecidableEq, Repr

def targetOf (off : Nat) : Target :=
  if off % 4 ≠ 0 then .none
  else if off < 0x80000 then
    let o := off % 0x20000
    if o < 0x10000 then .window (chanOf (off / 0x20000)) (o / 4)
    else if o < 0x11000 then .mailbox (chanOf (off / 0x20000)) ((o - 0x10000) / 4)
    else .none
  else if 0x100000 ≤ off ∧ off < 0x10002C then .info ((off - 0x100000) / 4)
  else .none

/-- The words a target has. -/
def Target.size : Target → Nat
  | .window _ _ => 16384
  | .mailbox _ _ => 1024
  | .info _ => 11
  | .none => 0

def Target.word : Target → Nat
  | .window _ i => i
  | .mailbox _ i => i
  | .info i => i
  | .none => 0

/-- The status of an access of `n` words from a node (R482): the first of no target, target in reset, denied. -/
def State.accessStatus (s : State) (src off n : Nat) (write : Bool) : Nat :=
  let t := targetOf off
  if n = 0 ∨ 251 < n ∨ t.size < t.word + n then 1
  else
    match t with
    | .window c _ =>
      if (s.ch c).dom.inReset then 2
      else if write || !s.host.rgB ((RING_ACL_RD c.idx).bit src) then 3 else 0
    | .mailbox c _ =>
      if (s.ch c).dom.inReset then 2
      else if !write || !s.host.rgB ((RING_ACL_WR c.idx).bit src) then 3 else 0
    | .info _ => if write then 3 else 0
    | .none => 1

/-- The host domain has failed: its boot has stopped, or none of its engines executes (R31, R111, R388; log 41). -/
def HostDom.failed (h : HostDom) : Bool := h.rgB BOOT_STAT_FAIL || h.dom.phase == 5

/-- SYS_ID or HSYS_ID (R45). -/
def Domain.sysId (d : Domain) : Word :=
  (0x4180 : BitVec 16) ++ ((Config.stepLetter ++ Config.stepDigit) ++ (BitVec.ofNat 4 (if d.id = 4 then 15 else d.id) ++ (0 : BitVec 4)))

/-- SYS_CAP or HSYS_CAP (R46, R47). -/
def Domain.sysCap (d : Domain) : Word := rget d.regs SYS_CAP_DEGRADED.reg

/-- Word i of the node information (R481). -/
def State.infoWord (s : State) (i : Nat) : Word :=
  if i < 4 then
    let d := (s.ch (chanOf i)).dom
    if d.inReset then 0 else d.sysCap
  else if i < 8 then s.host.rg (RING_CHEPOCH_EPOCH (i - 4))
  else if i = 8 then s.host.dom.sysId
  else if i = 9 then s.host.dom.sysCap
  else rget s.host.dom.regs RING_STAT_LINKA.reg

/-- Word i of a channel's read window (R37). -/
def Channel.windowWord (c : Channel) (i : Nat) : Word := c.word (0x101F0000 + 4 * i)

/-- A word read from the target of an offset. -/
def State.targetWord (s : State) (off : Nat) : Word :=
  match targetOf off with
  | .window c i => (s.ch c).windowWord i
  | .info i => s.infoWord i
  | .mailbox _ _ | .none => 0

/-- Words are written to a mailbox from word i, with EV_MBXW and EV_HMBXAPP (R482, R490). -/
def State.mailboxWrite (s : State) (n : Chan) (i : Nat) (ws : List Word) (source : Nat) : State :=
  let put := fun (c : Channel) (x : Nat × Word) => c.putWord (0x400E1000 + 4 * (i + x.1)) x.2
  let c := (((List.range ws.length).zip ws).foldl put (s.ch n)).raise 0x7E (i + 1024 * source)
  (s.setCh n c).hostEvent (0x61 + 4 * n.idx) i

/-- A remote access or a local one is performed: its status and read data. -/
def State.serve (s : State) (src off n : Nat) (write : Bool) (data : List Word) : Nat × List Word × State :=
  let st := s.accessStatus src off n write
  if st ≠ 0 then (st, [], s)
  else if write then
    match targetOf off with
    | .mailbox c i => (0, [], s.mailboxWrite c i data 1)
    | .window _ _ | .info _ | .none => (0, [], s)
  else (0, (List.range n).map (fun i => s.targetWord (off + 4 * i)), s)

/-- The response to a request from node `src` waits for the port by which the request came. A request that repeats the TAG
of the last one accepted from that node gets the stored response (R484). A refusal raises EV_RDENY (R490). -/
def State.answer (s : State) (p : Port) (src tag off n : Nat) (write : Bool) (data : List Word) : State :=
  let h := s.host
  if !h.enabled || h.dom.inReset then s
  else
    let reply := fun (h : HostDom) (st : Nat) (ws : List Word) =>
      h.enqueue p (mkFrame 4 src h.node tag (portCode p) 31 ws.length st (BitVec.ofNat 32 off) ws)
    match h.ring.last.find? (fun l => l.src == src && l.tag == tag) with
    | some l => { s with host := reply h l.stat.toNat l.data }
    | none =>
      let r := s.serve src off n write data
      let t := r.2.2
      if r.1 = 0 then
        let keep := (t.host.ring.last.filter (fun l => l.src != src)) ++ [⟨src, tag, 0, r.2.1⟩]
        { t with host := reply (t.host.setRing (fun g => { g with last := keep })) 0 r.2.1 }
      else { t with host := (reply t.host r.1 []).raise 0x31 src }

/-- RESPONSE: it completes the request of its tag; the access itself completes when its result reaches the core. -/
def HostDom.response (h : HostDom) (tag : Nat) (stat : BitVec 4) (data : Word) : HostDom :=
  h.setRing (fun r => { r with
    reqs := r.reqs.map (fun q => if q.tag = tag ∧ q.reply = none then { q with reply := some (stat, data) } else q) })

/-- No response has come RATMO × 100 ns after sending. -/
def HostDom.overdue (h : HostDom) (q : RingReq) : Bool :=
  q.reply.isNone && q.sent.any (fun t => decide (t + 40 * atLeast1 (h.rgN RING_RACFG_RATMO) ≤ h.now))

/-- An overdue request is sent again, up to RETRY times, and then completes with status 0x4 (R484). -/
def HostDom.timeouts (h : HostDom) : HostDom :=
  h.setRing (fun r => { r with reqs := r.reqs.map (fun q =>
    if h.overdue q then
      (if q.tries < h.rgN RING_RACFG_RETRY then { q with sent := none, tries := q.tries + 1 } else { q with reply := some (4, 0) })
    else q) })

/-! ## Cycles and ring time (R475 to R479) -/

/-- A cycle without a valid cyclic frame: EV_RCMISS, and RLOST after LLCYC of them (R479). -/
def HostDom.missCycle (h : HostDom) : HostDom :=
  let h := (h.setRing (fun r => { r with missed := r.missed + 1, seen := true })).raise 0x18 (h.rgN RING_CYCNT_CYC % 65536)
  if h.rgB RING_STAT_RLOST || decide (h.ring.missed < atLeast1 (h.rgN RING_CYC_LLCYC)) then h
  else (h.setB RING_STAT_RLOST true).raise 0x13 1

/-- Slot words of a cyclic frame of CLEN bytes in use (R478, R491). -/
def HostDom.slotCount (h : HostDom) : Nat := ((max 24 (satN 1024 (h.rgN RING_CFRM_CLEN))) / 4 * 4 - 20) / 4

/-- A copy entry: whether it is used, its range words and where they lie. -/
structure CopyEntry where
  rx : Bool
  unit : Nat
  psel : Nat
  woff : Nat
  nw : Nat
  foff : Nat
deriving DecidableEq, Repr

/-- Entry k, if it is enabled and does something. -/
def HostDom.copyEntry (h : HostDom) (k : Nat) : Option CopyEntry :=
  let e : CopyEntry := ⟨h.rgB (RING_CMAP_A_DIR k), h.rgN (RING_CMAP_A_UNIT k), h.rgN (RING_CMAP_A_PSEL k),
    h.rgN (RING_CMAP_A_WOFF k), h.rgN (RING_CMAP_B_NW k), h.rgN (RING_CMAP_B_FOFF k)⟩
  if h.rgB (RING_CMAP_A_EN k) && e.nw != 0 && decide (e.unit ≤ 4) then some e else none

/-- Its range lies within its source or destination and within a payload of n words. -/
def CopyEntry.inRange (e : CopyEntry) (n : Nat) : Bool :=
  let size := if e.unit = 4 then 251 else if e.rx then 1024 else 16384
  decide (e.woff + e.nw ≤ size) && decide (e.foff + e.nw ≤ n)

/-- Slot words with an entry's words in place. -/
def overlay (slots : List Word) (at_ : Nat) (ws : List Word) : List Word :=
  slots.take at_ ++ ws ++ slots.drop (at_ + ws.length)

/-- The TX entries overwrite the slot words of a frame that passes; CMAPERR for an entry out of range (R478). -/
def HostDom.insertTx (h : HostDom) (slots : List Word) : List Word × HostDom :=
  (List.range 16).foldl (fun (x : List Word × HostDom) k =>
    match x.2.copyEntry k with
    | some e =>
      if e.rx then x
      else if e.inRange slots.length then (overlay x.1 e.foff (sget [] x.2.ring.tx k), x.2)
      else (x.1, x.2.setB RING_STAT_CMAPERR true)
    | none => x) (slots, h)

/-- The words of this cycle have not been read in time: CLATE and EV_RCLATE (R478). -/
def HostDom.lateTx (h : HostDom) : HostDom :=
  let uses := (List.range 16).any (fun k => match h.copyEntry k with | some e => !e.rx | none => false)
  if uses && !h.ring.txFresh then (h.setB RING_STAT_CLATE true).raise 0x19 (h.rgN RING_CYCNT_CYC % 65536) else h

/-- The source words of a TX entry (R478). A block, whose first and last words agree, read while the channel's epoch is odd
has its SEQ_HI complemented (R486). -/
def State.txWords (s : State) (e : CopyEntry) : List Word :=
  if e.unit = 4 then (List.range e.nw).map (fun i => s.host.rg (RING_CTX_D (e.woff + i)))
  else
    let c := s.ch (chanOf e.unit)
    let ws := (List.range e.nw).map (fun i => c.windowWord (e.woff + i))
    let hi := ws.getD (e.nw - 1) 0
    if bitOf (s.host.rg (RING_CHEPOCH_EPOCH e.unit)) 0 && decide (2 ≤ e.nw) && ws.headD 0 == hi then
      ws.take (e.nw - 1) ++ [~~~hi]
    else ws

/-- CYCLIC_TX_PREPARE: the reading of the sources ends. It starts CPREP before a cycle start and may end after it (R478). -/
def State.txPrepare (s : State) : State :=
  let h := s.host
  let per := h.cycPer
  let before := !h.ring.txReady && decide (per ≤ h.rt % per + h.rgN RING_CFRM_CPREP)
  if h.enabled && !h.dom.inReset && (before || !h.ring.txFresh) then
    let go := fun (m : List (Nat × List Word)) (k : Nat) =>
      match h.copyEntry k with
      | some e => if !e.rx && e.inRange h.slotCount then sset [] m k (s.txWords e) else m
      | none => m
    { s with host := h.setRing (fun r => { r with
        tx := (List.range 16).foldl go r.tx, txReady := before || r.txReady, txFresh := !before || r.txFresh }) }
  else s

/-- The first valid cyclic frame of a cycle: EV_RCRX, and an end of RLOST (R479). -/
def HostDom.cyclicSeen (h : HostDom) (path : Nat) : HostDom :=
  let h := if h.ring.seen then h else (h.setRing (fun r => { r with seen := true, missed := 0 })).raise 0x17 path
  if h.rgB RING_STAT_RLOST then (h.setB RING_STAT_RLOST false).raise 0x13 0 else h

/-- The RX entries capture their slot words from the copy that PSEL selects (R478). -/
def HostDom.captureRx (h : HostDom) (slots : List Word) (path : Nat) (first : Bool) : HostDom :=
  (List.range 16).foldl (fun (h : HostDom) k =>
    match h.copyEntry k with
    | some e =>
      let wanted := if e.psel = 1 then path == 0 else if e.psel = 2 then path == 1 else first
      if !e.rx || !wanted then h
      else if e.inRange slots.length then
        h.setRing (fun r => { r with rx := sset [] r.rx k ((slots.drop e.foff).take e.nw) })
      else h.setB RING_STAT_CMAPERR true
    | none => h) h

/-- A cyclic frame arrives on port p, also through a wrap. The node's own frame is stripped and kept for the next cycle; any
other is taken and passes with the TX words inserted (R472, R478, R479, R487). -/
def HostDom.cyclicArrive : Nat → HostDom → Port → List Byte → HostDom
  | 0, h, _, _ => h
  | n + 1, h, p, f =>
    let ok := wellFormedFrame f && pcrcOk f
    let slots := payloadWords f
    let path := fPath f
    let own := fSrc f == h.node && fWraps f != 1
    if !own && fHops f == 0 then h.discard RING_ERRCNT_HOP 3
    else
      let first := !h.ring.seen
      let h := if ok then ((h.captureRx slots path first).cyclicSeen path).frameItem 1
        else if !wellFormedFrame f then h.discard RING_ERRCNT_FMT 2
        else h.discard RING_ERRCNT_PCRC 1
      if own then
        if ok then h.setRing (fun r => if path = 0 then { r with prevA := slots } else { r with prevB := slots }) else h
      else
        let r := h.lateTx.insertTx slots
        let g := repay f r.1
        r.2.goesOn p (rehead g (fput (frameWord g 0) 16 12 (BitVec.ofNat 32 (fHops g - 1)))) HostDom.transmitCyclic
          (fun h g => HostDom.cyclicArrive n h (otherPort p) g)

/-- CYCLIC_FRAME. -/
def HostDom.cyclicFrame (h : HostDom) (p : Port) (f : List Byte) : HostDom :=
  if h.enabled && h.rgN (linkFld p) == 2 && fType f == 1 then
    if !hcrcOk f then h.discard RING_ERRCNT_HCRC 0 else HostDom.cyclicArrive 4 h p f
  else h

/-- CYCLIC_RX_COPY: the captured words of entry k go to their destination, with EV_MBXW for a mailbox (R478). -/
def State.rxCopy (s : State) (k : Nat) : State :=
  let h := s.host
  let ws := sget [] h.ring.rx k
  match h.copyEntry k with
  | some e =>
    if !e.rx || ws.isEmpty || h.dom.inReset then s
    else
      let s := { s with host := h.setRing (fun r => { r with rx := sset [] r.rx k [] }) }
      if e.unit = 4 then
        let put := fun (d : Domain) (x : Nat × Word) => d.set (RING_CRX_D (e.woff + x.1)) x.2
        s.mapHost (fun d => ((List.range ws.length).zip ws).foldl put d)
      else if (s.ch (chanOf e.unit)).dom.inReset then s
      else s.mailboxWrite (chanOf e.unit) e.woff ws 2
  | none => s

/-- The offset of a time frame acts on ring time (R477). -/
def HostDom.timeOffset (h : HostDom) (off : Int) : HostDom :=
  let h := h.set RING_RTOFS_OFFS (wordOfInt off)
  if 1000 < off.natAbs then
    let h := h.setRing (fun r => { r with t2 := ((r.t2 : Int) + 2 * off).toNat, trim := none, goodOfs := 0 })
    let h := if h.rgB RING_STAT_RTVALID then (h.setB RING_STAT_RTVALID false).raise 0x14 0 else h
    h.raise 0x15 ((wordOfInt (satS 16 off)).toNat % 65536)
  else
    let good := if off.natAbs ≤ 20 then h.ring.goodOfs + 1 else 0
    let h := h.setRing (fun r => { r with trim := some (wordOfInt off), goodOfs := satN 8 good })
    if 8 ≤ good ∧ h.rgB RING_STAT_RTVALID = false then (h.setB RING_STAT_RTVALID true).raise 0x14 1 else h

/-- A time frame arrives on port p over a link of a known delay, also through a wrap: the first of a cycle that passes its
checks corrects ring time, and the frame goes on with this node's time and the link's delay added to CORR. A master that
receives another's sets MCONF (R472, R475, R477, R487). -/
def HostDom.timeArrive : Nat → HostDom → Port → List Byte → Nat → Nat → HostDom
  | 0, h, _, _, _, _ => h
  | n + 1, h, p, f, own, delay =>
    if fSrc f == h.node && fWraps f != 1 then h
    else if fHops f = 0 then h.discard RING_ERRCNT_HOP 3
    else
      let ok := wellFormedFrame f && pcrcOk f
      let ws := payloadWords f
      let corr := ws.getD 2 0
      let master := h.rgB RING_CTL_CMASTER
      let mt := (ws.getD 0 0).toNat + 4294967296 * (ws.getD 1 0).toNat
      let off : Int := (mt : Int) + (corr.toNat + delay : Nat) - (h.rt : Nat)
      let h :=
        if !ok then
          (if wellFormedFrame f then h.discard RING_ERRCNT_PCRC 1 else h.discard RING_ERRCNT_FMT 2)
        else
          let h := h.frameItem 1
          if master && fSrc f != h.node then (h.setB RING_STAT_MCONF true).raise 0x1A 1
          else if master || h.ring.timed then h
          else (h.setRing (fun r => { r with timed := true, noTime := 0 })).timeOffset off
      let g := repay f [ws.getD 0 0, ws.getD 1 0, corr + BitVec.ofNat 32 (own + delay)]
      h.goesOn p (rehead g (fput (frameWord g 0) 16 12 (BitVec.ofNat 32 (fHops g - 1)))) HostDom.transmit
        (fun h g => HostDom.timeArrive n h (otherPort p) g 0 0)

/-- TIME_FRAME, with this node's own time with the frame, a wrap's among it. -/
def HostDom.timeFrame (h : HostDom) (p : Port) (f : List Byte) (own : Nat) : HostDom :=
  if h.enabled && h.rgN (linkFld p) == 2 && fType f == 5 then
    if !hcrcOk f then h.discard RING_ERRCNT_HCRC 0 else HostDom.timeArrive 4 h p f own (h.rgN (delayFld p))
  else h

/-- The master's time frame leaves on port p, or through its wrap, whose time no command gives: a free value (R477; log 3). -/
def HostDom.originateTime (h : HostDom) (p : Port) (f : List Byte) : HostDom :=
  let h := h.frameItem 2
  if h.rgB (wrapFld p) then
    let q := h.dom.free 83
    HostDom.timeArrive 4 { h with dom := q.2 } p (rewrapped f) q.1.toNat 0
  else h.transmit p f

/-- The master's cyclic frame leaves on port p, or through its wrap. -/
def HostDom.originateCyclic (h : HostDom) (p : Port) (f : List Byte) : HostDom :=
  let h := h.frameItem 2
  if h.rgB (wrapFld p) then HostDom.cyclicArrive 4 h p (rewrapped f) else h.transmitCyclic p f

/-- The master sends a time frame and a cyclic frame on one port (R475, R477, R479). -/
def HostDom.sendCycle (h : HostDom) (p : Port) : HostDom :=
  let id := h.node
  let cyc := h.rg RING_CYCNT_CYC
  let mt := BitVec.ofNat 64 h.rt
  let time := mkFrame 5 id id 0 (portCode p) 31 0 0 cyc [mt.setWidth 32, (mt >>> 32).setWidth 32, 0]
  let n := h.slotCount
  let old := match p with | .a => h.ring.prevA | .b => h.ring.prevB
  let slots := (List.range n).map (fun i => old.getD i 0)
  let r := h.insertTx slots
  let h := r.2.setRing (fun g => match p with | .a => { g with prevA := r.1 } | .b => { g with prevB := r.1 })
  let cyclic := mkFrame 1 id id 0 (portCode p) 31 0 0 cyc r.1
  (h.originateTime p time).originateCyclic p cyclic

/-- Ring time becomes invalid after 16 cycles without a usable time frame (R477). -/
def HostDom.timeInvalid (h : HostDom) : HostDom :=
  if h.rgB RING_STAT_RTVALID && !h.rgB RING_CTL_CMASTER && decide (16 ≤ h.ring.noTime) then
    (h.setB RING_STAT_RTVALID false).raise 0x14 0
  else h

/-- A cycle starts: EV_RCYC with the cycle number; the master sends its frames on both ports. A cycle that ends without a
valid cyclic frame is missed, and one without a usable time frame counts against ring time (R475, R477, R479). -/
def HostDom.cycleBegin (h : HostDom) : HostDom :=
  let h := if h.ring.seen then h else h.missCycle
  let c := h.rt / h.cycPer
  let h := (h.setN RING_CYCNT_CYC (c % 4294967296)).raise 0x16 (c % 65536)
  let master := h.rgB RING_CTL_CMASTER
  let h := (h.setRing (fun r => { r with
    seen := false, timed := false, txFresh := r.txReady, txReady := false
    noTime := if r.timed || master then 0 else r.noTime + 1 })).timeInvalid
  if master && !h.rgB RING_STAT_MCONF && !h.rgB RING_STAT_DUPID then (h.lateTx.sendCycle .a).sendCycle .b else h

/-- A write of RING_CTL. Enabling starts the ports, and the master's ring time at 0, with which its first
cycle starts (R468, R475, R476); disabling takes both
links down. -/
def HostDom.writeCtl (h : HostDom) (w : Word) : HostDom :=
  let was := h.enabled
  let h := ((h.set RING_CTL_LLFORCE (fget w 4 4)).set RING_CTL_WRAPEN (fget w 3 3)).set RING_CTL_CMASTER (fget w 2 2)
  let h := h.set RING_CTL_PORTEN (fget w 0 0)
  if bitOf w 0 && !was then
    let h := h.setRing (fun r => { r with seen := true, missed := 0 })
    if bitOf w 2 then
      let h := h.setRing (fun r => { r with t2 := 0, trim := none })
      (if h.rgB RING_STAT_RTVALID then h else (h.setB RING_STAT_RTVALID true).raise 0x14 1).cycleBegin
    else h
  else if !bitOf w 0 && was then
    let h := ((h.setLink .a 0).setLink .b 0).setRing (fun r => { r with a := .reset, b := .reset })
    (h.setWrap .a false).setWrap .b false
  else h

/-! ## Management (R486) -/

/-- A management frame of the packet engine waits for port p. -/
def HostDom.manage (h : HostDom) (p : Port) (dst sub hops : Nat) (payload : List Word) : HostDom :=
  h.enqueue p (mkFrame 6 dst h.node 0 (portCode p) hops 0 0 (BitVec.ofNat 32 sub) payload)

/-- NEIGHBOUR_DELAY_REQUEST and LINK_DELAY_MEASURE. The data of these subtypes is not in the spec: they carry none. -/
def HostDom.delayRequest (h : HostDom) (p : Port) : HostDom :=
  if h.enabled then (h.raise 0x32 1).manage p ((h.node + 1) % 16) 2 0 [] else h

def HostDom.delayMeasure (h : HostDom) (p : Port) : HostDom :=
  if h.enabled && h.rgN (linkFld p) == 2 then h.manage p ((h.node + 1) % 16) 1 0 [] else h

/-- NEIGHBOUR_DELAY_REPLY. -/
def HostDom.delayReply (h : HostDom) (p : Port) (delay : BitVec 16) : HostDom :=
  if h.enabled then (h.raise 0x32 2).set (delayFld p) (delay.setWidth 32) else h

/-- DISCOVERY from another node is answered with the node information; a reply that carries the node's own number shows a
duplicate (R475, R486). -/
def State.discovery (s : State) (p : Port) (src : Nat) : State :=
  let h := s.host
  if !h.enabled || h.dom.inReset then s
  else
    let h := h.raise 0x32 3
    if src = h.node then { s with host := (h.setB RING_STAT_DUPID true).raise 0x1A 0 }
    else { s with host := h.manage p src 3 31 ((List.range 11).map s.infoWord) }

/-- EVENT_REPORT. -/
def HostDom.eventReport (h : HostDom) : HostDom := if h.enabled then h.raise 0x32 4 else h

/-! ## Ring time in the domains, doorbell and counts (R489 to R492) -/

/-- RING_TIME_CAPTURE. -/
def State.rtCapture (s : State) (d : Dom) : State :=
  let rt := s.host.rt
  let put := fun (x : Domain) (a b c e : Fld) =>
    (((x.setN a (rt % 4294967296)).setN b (rt / 4294967296 % 4294967296)).setN c (x.time % 4294967296)).setN e
      (x.time / 4294967296 % 4294967296)
  match d with
  | .ch n => s.setCh n ((s.ch n).mapDom (fun x => put x MBX_RTLO_T MBX_RTHI_T MBX_RTTSLO_T MBX_RTTSHI_T))
  | .host => s.mapHost (fun x => put x RING_RTLO_T RING_RTHI_T RING_RTTSLO_T RING_RTTSHI_T)

/-- MBX_DOOR. -/
def State.mbxDoor (s : State) (n : Chan) (w : Word) : State := s.hostEvent (0x60 + 4 * n.idx) (fget w 15 0).toNat

/-- RING_ERRCNT_CLEAR. -/
def HostDom.errcntClear (h : HostDom) : HostDom := { h with dom := { h.dom with regs := rput h.dom.regs RING_ERRCNT_HCRC.reg 0 } }

/-- A write of RING_NODE, ignored while PORTEN = 1 (R468). -/
def HostDom.writeNode (h : HostDom) (w : Word) : HostDom := if h.enabled then h else h.set RING_NODE_ID (fget w 3 0)

end Sys2Proof.Machine
end

