-- ==== Sys2Proof/Machine/Boundary.lean ====
section
/-! DEFINITION. Boundary.lean: the carrier boundary in every block (R183, R279, R304, R337, R344), with the outcomes that
the table lists as commands of their own, and one clock cycle of a channel, of the host domain and of the device. -/

namespace Sys2Proof.Machine

/-! ## The carrier boundary -/

/-- The waiting live-writable values come into use, or the hold times out, with what each block does about a new value
(R163, R166, R282, R334, R372). -/
def Channel.boundaryRwl (c : Channel) : Channel :=
  let brk := rget c.live GDI_BRKTH_ON.reg
  let was := miSaturates c.live
  ((c.takeRwl.holdBoundary.brkThreshold brk).refreshClamps).clampMimax was

/-- A carrier boundary: live writes, GDI, the fields that wait for a boundary and the modulation mode, then PWM, commutation
and SAFE, and EV_CBND. The supervisor acts at the end of the cycle. -/
def Channel.boundary (c : Channel) : Channel :=
  let pb := c.pwm.cycles
  let c := { c with pwm := { c.pwm with bndDue := false, cycles := 0 } }
  let c := (c.boundaryRwl.setSup (fun s => { s with due := some pb })).boundaryGdi
  let c := c.takeBoundaryFields.boundaryMode
  let c := (c.boundaryPwm.boundaryTp).boundarySafe
  let c := c.mapDom (fun d => d.setLsc (fun l => { l with bndAt := some (l.bndAt.getD d.time) }))
  c.raise 0x25 c.weir.mode.code

/-- A boundary has been reached and begins a period; none occurs while PWM is frozen (R164, R303). -/
def Channel.boundaryDue (c : Channel) : Bool := c.pwm.running && c.pwm.bndDue && !c.pwm.stopping && !c.pwm.frozen

/-- The stop cycle takes the place of a boundary (R279). -/
def Channel.stopDue (c : Channel) : Bool := c.pwm.running && c.pwm.bndDue && c.pwm.stopping && !c.pwm.frozen

/-! ## A clock cycle -/

/-- What a core's wait counts as in a cycle (R520): fence stalls, load stalls, full queues, event waits. -/
def Wait.item : Wait → Option Nat
  | .fence _ => some 5
  | .load _ | .ring _ | .result _ => some 6
  | .full => some 7
  | .evWait _ _ _ | .evFence _ => some 14
  | .none | .idle | .commit _ => Option.none

/-- The cycle items of one core. -/
def Domain.tickCore (d : Domain) (e : Eng) : Domain :=
  let x := d.core e
  if decide (x.run = .running) && !d.dbg.halted then
    let o := d.occAt e x.pc true
    let d := match x.wait.item with
      | some j => d.item e.idx j o
      | none => d
    d.item e.idx 15 o
  else d

/-- A change of CCLK's source is timed (R410). -/
def Domain.noteSource (d : Domain) : Domain :=
  if d.pll.srcWas = d.source then d else d.setPll (fun p => { p with srcWas := d.source, srcAt := d.time })

/-- A cycle of what every domain has: the sample entries of the cycle before, TIME, the cores' items, and the end of an
alignment (R104, R122, R520, R524). -/
def Domain.tick (d : Domain) : Domain :=
  let d := d.putEntries
  let d := [Eng.e0, .e1, .e2].foldl Domain.tickCore { d with time := d.time + 1, cyc := .reset }
  (d.setPll (fun p => { p with aligning := false })).noteSource

/-- A trip request on its way to PWM arrives (R340, R388, R445). -/
def Channel.tickTrips (c : Channel) : Channel :=
  if c.cas.sup.tripReq || c.dom.lsc.tripReq || c.dom.thm.tripReq then
    let c := c.setSup (fun s => { s with tripReq := false })
    let c := c.mapDom (fun d => (d.setLsc (fun l => { l with tripReq := false })).setThm (fun t => { t with tripReq := false }))
    c.trip 16384
  else c

/-- The conversion due in this cycle is stored, and what SAFE and SPR take from its check (R251, R426, R458). -/
def Channel.storeAndCheck (c : Channel) (q : Sample) : Channel :=
  match c.storeDue with
  | some _ => (c.driftCheck q).conversionStored q
  | none => c

/-- A conversion whose voltages no command gave has free ones (log 73). -/
def Channel.freeStore (c : Channel) : Channel :=
  match c.storeDue with
  | some _ =>
    let a := c.free 69
    let b := a.2.free 70
    let d := b.2.free 71
    let e := d.2.free 72
    let v (w : Word) : Int := w.toNat
    e.2.storeAndCheck ⟨v a.1, v b.1, v d.1, v e.1, 3000000, 0, 0, 0, 0⟩
  | none => c

/-- A cycle of Cascade: a busy cycle; a halted run stands before its next instruction, and its RUNMAX count with it (R520,
R533). -/
def Channel.tickCas (c : Channel) : Channel :=
  match c.cas.run with
  | none => c
  | some r =>
    let c := c.casItem r 2 1
    if c.cas.halted && decide (r.start + 1 + r.len < c.now) then { c with cas := { c.cas with run := some { r with start := r.start + 1 } } } else c

/-- What ends with a cycle, at the edge that ends it: strobes that reached their destinations, conversions, the trigger lines,
GDI's counts, PWM, waits, and the plan write ports. -/
def Channel.endCycle (c : Channel) : Channel :=
  let c := (c.highCycles.binAdvance.captureTrigger).injectionStep
  let c := ((c.endPosCycle.freeStore).endAdcCycle).endGdiCycle
  let c := (((c.endPwmCycle).endWeirCycle).endCasCycle).endSupCycle
  { c with planBad := c.planBad.filter (fun k => !c.planOld.any (fun e => e.1 == k)), planOld := [] }

/-- WHALT stops Weir issue in the cycle after it (R533). -/
def Channel.weirHaltEdge (c : Channel) : Channel :=
  if c.weir.haltReq then
    { c with weir := { c.weir with halted := true, haltReq := false } }.setB DBG_STAT_WHALTED true
  else c

/-- The edge that begins a cycle, up to the coordinates: the cycle before ends, time counts, strobes reach the diagnostic
window, a commit whose Q + 10 is over takes effect, a position latch that is due is delivered, and θ and φ reach the new
cycle. Beside the channel: whether the latch was a jump and whether it changed the sign of ω_L. -/
def Channel.begin (c : Channel) : Channel × Bool × Bool :=
  let l := (((c.endCycle.mapDom Domain.tick).weirHaltEdge.windowEdge).commitEdge).latchDue
  let x := l.1.coordinates l.2
  (if l.2.isSome then x.1.latchActs else x.1, x.2)

/-- A boundary or a stop reached in this cycle acts; in a stop the supervisor acts at the end of the cycle (R342). -/
def Channel.atBoundary (c : Channel) : Channel :=
  if c.stopDue then c.stopCarrier.boundarySafe.setSup (fun s => { s with stop := true }) else if c.boundaryDue then c.boundary else c

/-- A cycle begun: its edge, its boundary, the bridge with the trip requests of the cycle, the other blocks, and the causes of
a forced exit that Weir detects in it. -/
def Channel.begun (c : Channel) : Channel :=
  let n := c.begin.1.atBoundary.bridgeEdge.tickTrips
  (((n.gdiEdge.beginAdc).tickPos)).detect c.begin.2.1 c.begin.2.2

/-- The outputs of groups A, B, D and G whose owning blocks enable them: the gates by OEN, Cn_BRK, Cn_DSCH, Cn_KOUT0 to 2,
Cn_SSI_CLK, Cn_SDCK0 and 1, and the emulation outputs (R58). -/
def Channel.enabledDrivers (c : Channel) : BitVec 10 :=
  let e := [c.lvB PWM_OEN_OEN, c.lvB GDI_CTL_BRKEN, c.lvB GDI_CTL_DSCHEN, c.lvB (SAFE_KCFG_EN 0), c.lvB (SAFE_KCFG_EN 1),
    c.lvB (SAFE_KCFG_EN 2), c.active 3, c.lvB ADC_SDCK_EN0, c.lvB ADC_SDCK_EN1, c.lvB POS_CTL_EMEN]
  e.zipIdx.foldl (fun m x => if x.1 then m ||| BitVec.ofNat 10 (2 ^ x.2) else m) 0

/-- From its first enabling since reset on, an output is driven (R58). -/
def Channel.noteDrivers (c : Channel) : Channel :=
  if c.booted then { c with drivers := c.drivers ||| c.enabledDrivers } else c

/-- A cycle of a channel but for changes of output stages. -/
def Channel.cycle (c : Channel) : Channel :=
  let c := c.begun.ownCommit.beginCas.tickCas.noteDrivers
  (List.range 19).foldl Channel.stressTick c.tpWatch

/-- The ball of output stage x is high: 18 is Cn_GEN (R449). -/
def Channel.stageHigh (c : Channel) (x : Nat) : Bool := if x = 18 then c.gen else c.pwm.gate.getLsbD x

/-- The ball of output stage x stays low in the next `n` cycles, as far as the channel itself brings an edge. -/
def Channel.staysLow (x : Nat) : Nat → Channel → Bool
  | 0, _ => true
  | n + 1, c => !c.cycle.stageHigh x && Channel.staysLow x n c.cycle

/-- The output stages in a new cycle: those found faulty in the cycle before, and those to be changed whose command has been
low for four cycles and at whose ball no edge is due for fifteen (R450). -/
def Channel.stages (c : Channel) : Channel :=
  (List.range 19).foldl (fun c x =>
    let c := c.stageEdge x
    if c.changeWanted x && Channel.staysLow x 15 c then c.stageChange x else c) c

/-- A cycle of a channel, from the edge that begins it. -/
def Channel.tick (c : Channel) : Channel := c.cycle.stages

/-! ## Commands that name an edge

What the spec times to the cycle comes about at the edge that begins or ends the cycle (log 1): these commands are that edge,
where the outcome they name comes about at it. -/

/-- The channel's next edge, if it has this outcome. -/
def Channel.edgeIf (c : Channel) (outcome : Bool) : Channel := c.when outcome Channel.tick

/-- The channel's next edge, if what it brings shows in the cycle it begins. -/
def Channel.edgeWith (c : Channel) (shows : Channel → Channel → Bool) : Channel :=
  if shows c c.tick then c.tick else c

/-- TPSTALE_EXPIRY: the edge at which the torque unit becomes stale or its suspension counts as too long (R429). -/
def Channel.tpStaleExpiry (c : Channel) : Channel :=
  c.edgeWith fun a b => (!a.tpStale && b.tpStale) || (!a.safe.tpTold && b.safe.tpTold)

/-- CASCADE_START_REQUEST: the edge at which Weir's requests reach CAS (R317). -/
def Channel.cascadeStart (c : Channel) : Channel := c.edgeIf (!c.cas.starts.isEmpty)

/-- RUNMAX_EXPIRY: the edge that ends the last cycle that RUNMAX allows a run (R319). -/
def Channel.runmaxExpiry (c : Channel) : Channel := c.edgeIf c.overrun.isSome

/-- COMMIT_SWAP: the edge that ends cycle Q + 10 of a request. -/
def Channel.commitEnds (c : Channel) : Bool :=
  c.refusals.any (fun r => decide (r.q + 10 ≤ c.now)) || (match c.cmt with | some r => decide (r.q + 10 ≤ c.now) | none => false)

def Channel.commitSwap (c : Channel) : Channel := c.edgeIf c.commitEnds

/-- CARRIER_BOUNDARY and CARRIER_STOP. -/
def Channel.carrierBoundary (c : Channel) : Channel := c.edgeIf c.begin.1.boundaryDue
def Channel.carrierStop (c : Channel) : Channel := c.edgeIf c.begin.1.stopDue

/-- A boundary with an outcome: the row names the boundary at which the outcome comes about. -/
def Channel.boundaryWith (c : Channel) (outcome : Channel → Channel → Bool) : Channel :=
  c.edgeIf (c.begin.1.boundaryDue && outcome c.begin.1 c.begin.1.boundary)

/-- The edge that ends a boundary cycle, if the supervisor's decision in that cycle has this outcome (R337, R339). -/
def Channel.superWith (c : Channel) (outcome : Channel → Channel → Bool) : Channel :=
  match c.cas.sup.due with
  | some pb => c.edgeIf (outcome c (c.supervise pb))
  | none => c

/-- CATCH_END: the supervisor goes from CATCH to RUN (R344). -/
def Channel.catchEnd (c : Channel) : Channel :=
  c.superWith (fun c n => decide (c.msState = 1) && decide (n.msState = 2))

/-- COAST_EXPIRY: COAST ends by safe(0x2) (R344). -/
def Channel.coastExpiry (c : Channel) : Channel :=
  c.superWith (fun c n => decide (c.msState = 3) && decide (n.msState = 4) && decide (n.rgN CAS_MSSTAT_CAUSE = 2))

/-- LOCKED_ROTOR_DETECT: the timer reaches LRWIN, whether the supervisor reports it, limits the current or trips (R349). -/
def Channel.lockedRotor (c : Channel) : Channel :=
  match c.cas.sup.due with
  | some pb => c.edgeIf (c.lvB CAS_MSCTL_EN && !c.rgB CAS_MSSTAT_LOCKED
      && ((c.superLink pb).superLocked pb).rgB CAS_MSSTAT_LOCKED)
  | none => c

/-- LINK_HOLD_EXPIRY: the hold time has elapsed and the ramp begins (R354). -/
def Channel.linkHoldExpiry (c : Channel) : Channel :=
  c.superWith (fun c n => decide (c.rgN CAS_MSSTAT_LLPH < 2) && decide (2 ≤ n.rgN CAS_MSSTAT_LLPH))

/-- CASCADE_WATCHDOG_EXPIRY: safe(0x7) (R355). -/
def Channel.cascadeWatchdog (c : Channel) : Channel :=
  c.superWith (fun c n => decide (c.msState ≠ 4) && decide (n.msState = 4) && decide (n.rgN CAS_MSSTAT_CAUSE = 7))

/-- BOOTSTRAP_CHARGE_ENTRY: leg k enters the charge state (R381). -/
def Channel.bootstrapCharge (c : Channel) (k : Nat) : Channel :=
  c.boundaryWith (fun c n => decide (k < 6) && !c.rgB (GDI_STAT_BSCHG.bit k) && n.rgB (GDI_STAT_BSCHG.bit k))

/-- LIVE_HOLD_TIMEOUT: the collected writes are discarded (R166). -/
def Channel.liveHoldTimeout (c : Channel) : Channel :=
  c.boundaryWith (fun c n => c.rgB EVT_LHOLD_HOLD && !n.rgB EVT_LHOLD_HOLD)

/-- WAIT_SATISFIED: the edge that ends the cycle in which a thread's wait was satisfied (R186, R192). -/
def Channel.waitSatisfiedEdge (c : Channel) (t : Thread) : Channel :=
  match (c.weir.th t).st with
  | .waiting w => c.edgeIf w.hit
  | .stopped | .running => c

/-- WAIT_EXPIRY: the edge that ends the last cycle of a wait's limit (R189). -/
def Channel.waitExpiry (c : Channel) (t : Thread) : Channel :=
  match (c.weir.th t).st with
  | .waiting w => c.edgeIf (decide (w.limit ≠ 0) && !w.hit && decide (w.cycle + w.limit ≤ c.now))
  | .stopped | .running => c

/-- EXTRAPOLATION_STALE: the edge that begins the first held cycle (R180). -/
def Channel.extrapolationStale (c : Channel) : Channel :=
  c.edgeIf (!c.rgB WEIR_STAT_STALE && c.begin.1.rgB WEIR_STAT_STALE)

/-- POSITION_LATCH_DELIVERY: the edge that begins the cycle in which the oldest latch in flight is due (R179, R228). -/
def Channel.positionLatchDelivery (c : Channel) : Channel :=
  match c.pos.inFlight with
  | l :: _ => c.edgeIf (decide (l.due ≤ c.now + 1))
  | [] => c

/-- HANDOVER_COMMIT and SYNC_EXIT_COMMIT: the edge that begins the request cycle (R205, R207). -/
def Channel.handoverCommit (c : Channel) : Channel := c.edgeIf c.begun.handoverDue
def Channel.syncExitCommit (c : Channel) : Channel := c.edgeIf c.begun.exitDue

/-- SYNC_PERIOD_TIMEOUT: the edge that begins the cycle in which cause 0x5 is detected (R209). -/
def Channel.syncTimeout (c : Channel) : Channel :=
  c.edgeIf (decide (c.begin.1.atBoundary.exitCause c.begin.2.1 c.begin.2.2 = 5))

/-- POSITION_LATCH_STROBE: the edge that ends the cycle in which the strobe reached POS (R228). -/
def Channel.positionLatchStrobe (c : Channel) : Channel := c.edgeIf (c.weir.arrived.getLsbD 8)

/-- STANDSTILL_TIMEOUT: standstill begins (R233). -/
def Channel.standstillTimeout (c : Channel) : Channel :=
  c.edgeWith (fun c n => !(c.pos.stillOf c.srcUse).on && (n.pos.stillOf n.srcUse).on)

/-- EMULATION_STEP (R236) and SSI_MONO_END (R225). -/
def Channel.emulationStep (c : Channel) : Channel := c.edgeWith (fun _ n => decide (n.pos.emLast = n.now))
def Channel.ssiMonoEnd (c : Channel) : Channel := c.edgeWith (fun c n => c.pos.ssiMono.isSome && n.pos.ssiMono.isNone)

/-- TRIGGER_FIRE, POSITION_COMPARE_FIRE and XCMP_FIRE: the edge that ends the cycle in which line n, the position compare of
line n or extra compare n fires (R246, R254, R294). -/
def Channel.triggerFire (c : Channel) (n : Nat) : Channel := c.edgeIf (c.fires n)
def Channel.positionCompareFire (c : Channel) (n : Nat) : Channel :=
  c.edgeIf (decide (c.lvN (ADC_TSRC_SRC n) = 2) && c.posReached n)
def Channel.xcmpFire (c : Channel) (n : Nat) : Channel := c.edgeIf (c.xcmpDue n)

/-- GROUP_END: the edge that begins the end cycle of a group (R251). -/
def Channel.groupEnd (c : Channel) : Channel := c.edgeWith (fun _ n => n.adc.ending)

/-- PULSE_DECISION, COMPARE_FIRE and DEAD_TIME_END: the edge that begins the cycle of the decision, the compare or the end of
a dead time of leg k (R283, R286, R289). -/
def Channel.pulseDecision (c : Channel) (k : Nat) : Channel := c.edgeWith (fun _ n => (n.leg k).decided == some n.now)
def Channel.compareFire (c : Channel) (k : Nat) (second : Bool) : Channel :=
  c.edgeWith (fun _ n => (if second then (n.leg k).firedOff else (n.leg k).firedOn) == some n.now)
def Channel.deadTimeEnd (c : Channel) (k : Nat) : Channel := c.edgeWith (fun _ n => (n.leg k).deadEnd == some n.now)

/-- ASC_SWITCH_ON: a pattern turns switch x on (R299). -/
def Channel.ascSwitchOn (c : Channel) (x : Nat) : Channel :=
  c.edgeWith (fun c n => n.patternNow.isSome && !c.pwm.sw.getLsbD x && n.pwm.sw.getLsbD x)

/-- BLANKING_WINDOW_END: trip input m is blanked no longer (R296). -/
def Channel.blankingEnd (c : Channel) (m : Nat) : Channel := c.edgeWith (fun c n => c.blanked m && !n.blanked m)

/-- GIN_DWELL_END: the waiting code is applied (R366). -/
def Channel.ginDwellEnd (c : Channel) : Channel :=
  c.edgeWith (fun c n => c.gdi.ginWait.isSome && n.gdi.ginWait.isNone && n.gdi.ginAt == n.now)

/-- BRAKE_INTERVAL_END (R375). -/
def Channel.brakeIntervalEnd (c : Channel) : Channel :=
  c.edgeWith (fun c n => n.gdi.brkStart == n.now && c.rgB GDI_STAT_BRK != n.rgB GDI_STAT_BRK)

/-- The phase of a discharge goes from one code to another. -/
def phaseStep (a b : Nat) (c n : Channel) : Bool := decide (c.rgN GDI_STAT_DPHASE = a) && decide (n.rgN GDI_STAT_DPHASE = b)

/-- DISCHARGE_FEEDBACK_TIMEOUT, DISCHARGE_VOLTAGE_TIMEOUT and DISCHARGE_MAX_EXPIRY (R378). -/
def Channel.dischargeFeedbackTimeout (c : Channel) : Channel :=
  c.edgeWith (fun c n => phaseStep 1 2 c n && !(n.gdi.dfb && decide (n.now ≤ n.gdi.dStart + 400 * n.lvN GDI_DSCH_DFBT)))
def Channel.dischargeVoltageTimeout (c : Channel) : Channel := c.edgeWith (fun c n => !c.gdi.dLate && n.gdi.dLate)
def Channel.dischargeMax (c : Channel) : Channel := c.edgeWith (fun c n => c.dschBall && !n.dschBall)

/-- DISCHARGE_VOLTAGE_CHANGE: Cn_VDC has a voltage, and the edge where the discharge's phase follows (R378). -/
def Channel.dischargeVoltage (c : Channel) (v : Int) : Channel :=
  (c.vdcInput v).edgeWith (fun c n => phaseStep 2 3 c n || phaseStep 3 2 c n)

/-- OVERVOLTAGE_STAGE2: Cn_VDC has a voltage, and the edge at which the request of stage 2 is delivered (R372). -/
def Channel.overvoltage2 (c : Channel) (v : Int) : Channel :=
  (c.vdcInput v).edgeWith (fun c n => !c.gdi.ov2Req && n.gdi.ov2Req)

/-- COMPARATOR_SETTLE_END: the ball of comparator k has a voltage, and the edge at which its hold ends (R264, R372). -/
def Channel.comparatorSettle (c : Channel) (k : Nat) (v : Int) : Channel :=
  (c.cmpInput k v).edgeWith (fun c n => c.settling k && !n.settling k)

/-- OUTPUT_STAGE_CHANGE: the edge at which a stage is changed (R450). -/
def Channel.outputStageChange (c : Channel) (x : Nat) : Channel :=
  c.edgeWith (fun a b => a.dom.spr.change.getLsbD x && !b.dom.spr.change.getLsbD x)

/-- Ring time in half nanoseconds one cycle later: it gains 2.5 ns, or what the trim gives (R476, R477). -/
def Ring.later (r : Ring) : Nat :=
  r.t2 + match r.trim with
    | some w => Config.ringStep w
    | none => 5

/-- Ring time reaches a multiple of the cycle period at the next edge (R475). -/
def HostDom.cycleDue (h : HostDom) : Bool :=
  h.enabled && h.ring.later / 2 / h.cycPer != h.rt / h.cycPer

/-- A cycle of the host domain: ring time, overdue requests, the forward buffers and the start of a cycle (R474 to R477,
R484). -/
def HostDom.tick (h : HostDom) : HostDom :=
  let n := { h with dom := h.highCycles.dom.tick, ring := { h.ring with t2 := h.ring.later } }
  let n := ((n.timeouts).drain .a).drain .b
  if h.cycleDue then n.cycleBegin else n

/-- The host domain's next edge, if it has this outcome. -/
def HostDom.edgeIf (h : HostDom) (outcome : Bool) : HostDom := if outcome then h.tick else h

/-- CYCLE_START, CYCLE_MISS and RING_TIME_INVALID: the edge at which a cycle starts, at which the one before proves missed,
and at which ring time becomes invalid (R475, R477, R479). -/
def HostDom.cycleStart (h : HostDom) : HostDom := h.edgeIf h.cycleDue
def HostDom.cycleMiss (h : HostDom) : HostDom := h.edgeIf (h.cycleDue && !h.ring.seen)
def HostDom.ringTimeInvalid (h : HostDom) : HostDom := h.edgeIf (h.rgB RING_STAT_RTVALID && !h.tick.rgB RING_STAT_RTVALID)

/-- REMOTE_ACCESS_TIMEOUT: the edge at which the request of a tag is overdue (R484). -/
def HostDom.accessTimeout (h : HostDom) (tag : Nat) : HostDom :=
  let n := { h with dom := h.dom.tick }
  h.edgeIf (h.ring.reqs.any (fun q => q.tag == tag && n.overdue q))

/-- One cycle of the device: what a step does when no command waits. A domain in reset does not count. -/
def State.tick (s : State) : State :=
  let go := fun (s : State) (n : Chan) => s.onCh n (fun c => { c.tick with rt := s.host.ring.t2 / 2 })
  allChans.foldl go (s.onHost HostDom.tick)

end Sys2Proof.Machine
end

