-- ==== Sys2Proof/Machine/Balls.lean ====
section
/-! DEFINITION. Balls.lean: the boundary states of a domain and what its balls do in them (R52 to R71, R105, R535). The levels
are functions of the state. -/

namespace Sys2Proof.Machine

/-! ## Boundary states (R57) -/

/-- The boundary states, in falling order of precedence. -/
inductive Boundary where
  | unpowered
  | reset
  | boot
  | run
  | debugHalt
deriving DecidableEq, Repr

/-- The boundary state of a domain: the first whose condition holds. -/
def State.boundary (s : State) (d : Dom) : Boundary :=
  let x := s.dom d
  if s.dev.bad.contains .vio then .unpowered
  else if x.inReset then .reset
  else if !x.rgB (doneFld x.host) then .boot
  else if x.dbg.halted then .debugHalt
  else .run

/-! ## Outputs of groups A, B and D (R53, R58, R59) -/

/-- A ball that the device drives: high impedance, where the passive pull-down holds it low, or a level. -/
inductive Level where
  | z
  | low
  | high
deriving DecidableEq, Repr

def Level.of (b : Bool) : Level := if b then .high else .low

/-- The outputs of groups A, B and D of a channel. -/
inductive OutBall where
  | g (x : Fin 18)
  | gen
  | brk
  | dsch
  | kout (k : Fin 3)
  | ssiClk
  | sdck (k : Fin 2)
  | ema
  | emb
  | emz
deriving DecidableEq, Repr

/-- The place of a ball among the thirty of its channel that EXTEST drives (R535; log 33). -/
def OutBall.scanBit : OutBall → Nat
  | .g x => x
  | .gen => 18
  | .brk => 19
  | .dsch => 20
  | .kout k => 21 + k
  | .ssiClk => 24
  | .sdck k => 25 + k
  | .ema => 27
  | .emb => 28
  | .emz => 29

/-- The driver that a ball belongs to, as bits of `drivers`. -/
def OutBall.driver : OutBall → Nat
  | .g _ | .gen => 0
  | .brk => 1
  | .dsch => 2
  | .kout k => 3 + k
  | .ssiClk => 6
  | .sdck k => 7 + k
  | .ema | .emb | .emz => 9

/-- What a channel commands on a ball. -/
def Channel.commands (c : Channel) : OutBall → Bool
  | .g x => c.pwm.gate.getLsbD x
  | .gen => c.gen
  | .brk => c.rgB GDI_STAT_BRK
  | .dsch => c.dschBall
  | .kout k => c.rgB (SAFE_STAT_KCL.bit k)
  | .ssiClk => c.ssiClk
  | .sdck k => c.sdck k
  | .ema => c.emPins.1
  | .emb => c.emPins.2.1
  | .emz => c.emPins.2.2

/-- The bit that EXTEST puts on a ball, while VIO and VCORE are valid (R59, R535). -/
def Dev.extestBit (d : Dev) (n : Chan) (b : OutBall) : Option Bool :=
  if d.bad.contains .vio || d.bad.contains .vcore then none
  else d.extest.map (fun w => w.getLsbD (30 * n.idx + b.scanBit))

/-- A ball of group A, B or D of channel n: EXTEST's level; high impedance while the channel is unpowered, in reset or in
boot, and until its driver is first enabled; and then what the channel commands (R58, R59, R62). -/
def State.out (s : State) (n : Chan) (b : OutBall) : Level :=
  match s.dev.extestBit n b with
  | some x => .of x
  | none =>
    match s.boundary (.ch n) with
    | .unpowered | .reset | .boot => .z
    | .run | .debugHalt => if (s.ch n).drivers.getLsbD b.driver then .of ((s.ch n).commands b) else .z

/-! ## Analogue outputs and the encoder receivers (R58, R105, R221) -/

/-- Cn_EXC_P/N: the amplitude code and the phase of the excitation in units of 1/400,000,000 of a cycle; none at high
impedance. -/
def State.excitation (s : State) (n : Chan) : Option (Nat × Nat) :=
  let c := s.ch n
  match s.boundary (.ch n) with
  | .unpowered | .reset => none
  | .boot | .run | .debugHalt =>
    if c.lvB POS_CTL_EXCEN then some (c.lvN POS_RSLV_EXCAMP, c.pos.excPhase) else none

/-- What Cn_PLLLK or HPLLLK does: high impedance, 0 V driven, 300 µA sourced, or nothing sourced. -/
inductive LockBall where
  | z
  | ground
  | source
  | nothing
deriving DecidableEq, Repr

/-- Cn_PLLLK, or HPLLLK of the host domain: it sources while the loop is locked by R100, and nothing in holdover or on the RC
oscillator (R58, R105, R106; log 26). -/
def State.lockBall (s : State) (d : Dom) : LockBall :=
  let x := s.dom d
  match s.boundary d with
  | .unpowered => .z
  | .reset => .ground
  | .boot | .run | .debugHalt =>
    if x.rgB PLL_STAT_LOCK && !x.rgB PLL_STAT_HOLD && !x.rgB PLL_STAT_RC then .source else .nothing

/-- The 120 Ω terminations of the encoder receivers are closed: as POS sets them out of reset (R58, R217). -/
def State.encoderTerminated (s : State) (n : Chan) : Bool :=
  match s.boundary (.ch n) with
  | .unpowered | .reset => false
  | .boot | .run | .debugHalt => (s.ch n).lvB POS_CTL_TERM

/-! ## Ports (R58, R70, R71) -/

/-- The debug port of a domain takes transactions. -/
def State.debugPort (s : State) (d : Dom) : Bool :=
  match s.boundary d with
  | .unpowered | .reset => false
  | .boot | .run | .debugHalt => true

/-- TDO is at high impedance, TCK, TMS and TDI are ignored and the TAP is held in reset: in a field part, whose fuse is blown,
and in an unpowered device (R71, R535). -/
def Dev.tapInReset (d : Dev) : Bool := !d.scanFuse || d.bad.contains .vio

/-- The IDCODE that the TAP holds while the fuse is intact: the stepping letter's code, 0x4180, 0x3A5 and 1 (R535). -/
def idcode (letter : BitVec 4) : Word := letter ++ (0x4180 : BitVec 16) ++ (0x3A5 : BitVec 11) ++ (1 : BitVec 1)
def Dev.tapIdcode (d : Dev) : Option Word := if d.tapInReset then none else some (idcode Config.stepLetter)

/-! ## Inputs of group C (R557) -/

/-- A filtered input of group C of a channel takes a level or a pattern: from the end of B1 on (R557). -/
def Channel.sampled (c : Channel) : Bool := decide (2 ≤ c.rgN SYS_BOOTSTAT_PHASE)
def State.onBall (s : State) (n : Chan) (f : Channel → Channel) : State := s.onCh n (fun c => c.when c.sampled f)

end Sys2Proof.Machine
end

