-- ==== Sys2Proof/Machine/Upd.lean ====
section
/-! DEFINITION. Upd.lean: the field update (R493 to R519): staging sessions and chunks, the phases H6 to H11 of the host
boot ROM with activation, propagation and revert, and the register commands of UPD. -/

namespace Sys2Proof.Machine

/-- What two states of a domain differ in is its NVM, its field repair map or the rows repaired in it: NVM was written. -/
def Domain.nvmWritten (a b : Domain) : Bool :=
  nvmOnly a.mem != nvmOnly b.mem || a.spr.recList != b.spr.recList || a.spr.spares != b.spr.spares

/-! ## The reserved words of the host array (R498, R501, R502, R507) -/

def HostDom.word (h : HostDom) (a : Nat) : Word := memWord h.dom.mem a
def HostDom.putWord (h : HostDom) (a : Nat) (w : Word) : HostDom :=
  { h with dom := { h.dom with mem := memPutWord h.dom.mem a w } }

def HostDom.act (h : HostDom) : Word := h.word 0x20000000
def HostDom.prev (h : HostDom) : Word := h.word 0x20000008

/-- Fields of a bank-pointer word (R501). -/
def svnOf (w : Word) : Nat := (fget w 31 16).toNat
def genOf (w : Word) : Nat := (fget w 15 10).toNat
def propOf (w : Word) : Bool := bitOf w 9
def hostBankOf (w : Word) : Bool := bitOf w 8
def cfgOf (w : Word) (n : Chan) : Bool := bitOf w (4 + n.idx)
def codeOf (w : Word) (n : Chan) : Bool := bitOf w n.idx

/-- The word and its copy take a value. -/
def HostDom.setAct (h : HostDom) (w : Word) : HostDom :=
  let h := (h.putWord 0x20000000 w).putWord 0x20000004 w
  (h.set UPD_ACT_ACT w).setN UPD_STAT_GEN (genOf w)

/-- PSTATE, which UPD_STAT shows (R498, R518). -/
def HostDom.setPstate (h : HostDom) (pending revpend revok : Bool) : HostDom :=
  let h := h.putWord 0x2000000C (ofB pending + 2 * ofB revpend + 4 * ofB revok)
  ((h.setB UPD_STAT_PENDING pending).setB UPD_STAT_REVPEND revpend).setB UPD_STAT_REVOK revok

def HostDom.pendingBit (h : HostDom) : Bool := bitOf (h.word 0x2000000C) 0
def HostDom.revpend (h : HostDom) : Bool := bitOf (h.word 0x2000000C) 1
def HostDom.revok (h : HostDom) : Bool := bitOf (h.word 0x2000000C) 2

/-- A copy of N, where it is readable (R498). -/
def counterCopy (w : Word) : Option Nat := if fget w 31 16 = fget (~~~w) 15 0 then some (fget w 15 0).toNat else none

/-- N is the larger readable copy; none when neither can be read. -/
def HostDom.nvmCount (h : HostDom) : Option Nat :=
  match counterCopy (h.word 0x20000010), counterCopy (h.word 0x20000014) with
  | some a, some b => some (max a b)
  | some a, none => some a
  | none, some b => some b
  | none, none => none

/-- The floor (R507). -/
def State.floor (s : State) : Nat :=
  match s.host.nvmCount with
  | some n => max (1024 * s.dev.floorFuses) n
  | none => 65535

/-- The raising of the floor to a generation's version; with BURN the fuses follow, with REVOKE0 key slot 0 is revoked. -/
def State.raiseFloor (s : State) (svn : Nat) (burn revoke : Bool) : State :=
  let n := max svn (s.host.nvmCount.getD 0)
  let w := fput (BitVec.ofNat 32 n) 31 16 (~~~(BitVec.ofNat 32 n))
  let h := ((s.host.putWord 0x20000010 w).putWord 0x20000014 w).setN UPD_FLOOR_NVMCNT n
  { s with
    host := h
    dev := { s.dev with
      floorFuses := if burn then max s.dev.floorFuses (satN 63 (svn / 1024)) else s.dev.floorFuses
      revoked0 := s.dev.revoked0 || revoke } }

/-! ## Registers of UPD (R508, R509, R514, R518) -/

def keyed (w : Word) : Bool := fget w 31 16 == 0x5A3C

def HostDom.setStg (h : HostDom) (n : Nat) : HostDom :=
  if h.rgN UPD_STAT_STG = n then h else (h.setN UPD_STAT_STG n).raise 0x40 n

/-- OPEN: refused while an update is pending or PROP = 1. -/
def HostDom.stagingOpen (h : HostDom) : HostDom :=
  if h.pendingBit || propOf h.act then h
  else
    let h := (h.setPstate false false false).putWord 0x20001000 0
    { h.setStg 1 with upd := { h.upd with sealing := false } }

/-- CLOSE ends the session and clears PENDING. -/
def HostDom.stagingClose (h : HostDom) : HostDom :=
  let h := h.setPstate false h.revpend h.revok
  { h.setStg 0 with upd := { h.upd with sealing := false } }

/-- SEAL asks for the seal of an open session. -/
def HostDom.stagingSeal (h : HostDom) : HostDom :=
  if h.rgN UPD_STAT_STG = 1 then { h with upd := { h.upd with sealing := true } } else h

/-- Every chunk taken has been written: PENDING := 1. -/
def HostDom.stagingSealed (h : HostDom) : HostDom :=
  if h.upd.sealing && h.upd.bufs.isEmpty && h.rgN UPD_STAT_STG == 1 then
    let h := h.setPstate true h.revpend h.revok
    { h.setStg 2 with upd := { h.upd with sealing := false } }
  else h

/-- What a write of UPD_STGCTL does: CLOSE comes before OPEN, and SEAL last (log 8). -/
def HostDom.stgctl (h : HostDom) (w : Word) : HostDom :=
  let h := if bitOf w 1 then h.stagingClose else h
  let h := if bitOf w 0 then h.stagingOpen else h
  if bitOf w 2 then h.stagingSeal else h

/-- What a write of UPD_CMD does: CANCEL, then REVERT (log 8). -/
def HostDom.updCmd (h : HostDom) (w : Word) : HostDom :=
  let h := if bitOf w 1 then h.setPstate false false h.revok else h
  if bitOf w 0 && h.revok && !h.pendingBit then h.setPstate h.pendingBit true h.revok else h

def HostDom.updWrite (h : HostDom) (x : Bool × Word) : HostDom := if x.1 then h.updCmd x.2 else h.stgctl x.2

/-- A write of UPD_CMD (cmd) or UPD_STGCTL with its key. What it does starts NVM writes, so it waits for the end of
write-inhibit, behind those that wait already (R84, R518; log 81). -/
def State.updControl (s : State) (cmd : Bool) (w : Word) : State :=
  if keyed w then
    s.onHost fun h =>
      if s.dev.inhibit then { h with upd := { h.upd with waiting := h.upd.waiting ++ [(cmd, w)] } } else h.updWrite (cmd, w)
  else s

def State.writeStgctl (s : State) (w : Word) : State := s.updControl false w
def State.writeUpdCmd (s : State) (w : Word) : State := s.updControl true w

/-- WRITE_INHIBIT_CHANGE: when the inhibit ends, the writes that waited act in order (R84, R459). -/
def State.inhibitChange (s : State) (on : Bool) : State :=
  let s := s.writeInhibit on
  if on then s
  else s.onHost fun h =>
    h.upd.waiting.foldl HostDom.updWrite { h with upd := { h.upd with waiting := [] } }

/-- STAGING_SEAL_DONE. -/
def State.sealDone (s : State) : State := if s.dev.inhibit then s else s.onHost HostDom.stagingSealed

/-- A write of UPD_CNT clears the three counts. -/
def HostDom.updCntClear (h : HostDom) : HostDom := { h with dom := { h.dom with regs := rput h.dom.regs UPD_CNT_TAKEN.reg 0 } }

/-! ## Chunks (R508) -/

/-- The bytes of an area. -/
def areaSize (area : Nat) : Nat :=
  if area = 0 then 4096 else if area ≤ 4 then 0x300000 else if area = 5 then 0x180000 else if area ≤ 9 then 1024 else 0

/-- The channel whose code bank an area stages. -/
def areaChan (area : Nat) : Option Chan := if 1 ≤ area ∧ area ≤ 4 then some (chanOf (area - 1)) else none

/-- The bank an area of code writes: the one that ACT0 does not select. -/
def HostDom.stagingBank (h : HostDom) (area : Nat) : Bool :=
  match areaChan area with
  | some n => !codeOf h.act n
  | none => !hostBankOf h.act

/-- The target bank is the one that its domain runs from: a channel has one once B2 has read CHSEL. -/
def State.runsFrom (s : State) (area : Nat) : Bool :=
  let t := s.host.stagingBank area
  match areaChan area with
  | some n => !(s.ch n).dom.inReset && decide (2 < (s.ch n).rgN SYS_BOOTSTAT_PHASE) && (s.ch n).dom.bank == t
  | none => area == 5 && s.host.dom.bank == t

/-- Where an area begins: a memory key of the host or of a channel. -/
def HostDom.areaKey (h : HostDom) (area : Nat) : Nat :=
  if area = 0 then 0x20001000
  else if area ≤ 5 then bankKey (h.stagingBank area) 0
  else 0x20002000 + 0x400 * (area - 6)

/-- The response to a chunk, unless it came from the node itself; an accepted one is kept for a repeated TAG (R484). -/
def HostDom.chunkReply (h : HostDom) (p : Port) (src tag st : Nat) : HostDom :=
  let h := if src = h.node then h else h.enqueue p (mkFrame 4 src h.node tag (portCode p) 31 0 st 0 [])
  if st = 0 then
    h.setRing (fun r => { r with last := (r.last.filter (fun l => l.src != src)) ++ [⟨src, tag, 0, []⟩] })
  else h

/-- A refused chunk. -/
def HostDom.chunkRefused (h : HostDom) (p : Port) (src tag st area : Nat) : HostDom :=
  ((h.count UPD_CNT_REFUSED).raise 0x41 (st + 16 * area)).chunkReply p src tag st

/-- UPDATE_CHUNK: the first row of R508's table that applies. -/
def State.updateChunk (s : State) (p : Port) (src tag : Nat) (head : Word) (data : List Word) : State :=
  s.onHost fun h =>
    let area := (fget head 31 28).toNat
    let off := (fget head 23 0).toNat
    if h.ring.last.any (fun l => l.src == src && l.tag == tag) then h.chunkReply p src tag 0
    else if src ≠ h.rgN RING_UPDSRC_NODE ∨ h.rgB RING_UPDSRC_EN = false ∨ h.rgN UPD_STAT_STG ≠ 1 ∨ h.upd.sealing = true then
      h.chunkRefused p src tag 3 area
    else if off % 4 ≠ 0 ∨ 250 < data.length ∨ areaSize area < off + 4 * data.length ∨ areaSize area = 0 then
      h.chunkRefused p src tag 1 area
    else if 1 ≤ area ∧ area ≤ 5 ∧ s.runsFrom area = true then h.chunkRefused p src tag 3 area
    else if s.dev.inhibit || decide (2 ≤ h.upd.bufs.length) then h.count UPD_CNT_DROPPED
    else { h with upd := { h.upd with bufs := h.upd.bufs ++ [⟨p, src, tag, area, off, data⟩] } }

/-- Words written from a memory key. -/
def putWords (m : List Host.Cell) (a : Nat) (ws : List Word) : List Host.Cell :=
  ((List.range ws.length).zip ws).foldl (fun m x => memPutWord m (a + 4 * x.1) x.2) m

/-- A channel's array can be written: not while the channel is in B4 (R496). -/
def State.arrayFree (s : State) (n : Chan) : Bool := !(s.ch n).dom.inPhase 4

/-- UPDATE_CHUNK_WRITTEN: the older chunk reaches its area and is answered. -/
def State.chunkWritten (s : State) : State :=
  match s.host.upd.bufs with
  | [] => s
  | k :: rest =>
    let free := match areaChan k.area with
      | some n => s.arrayFree n
      | none => true
    if s.dev.inhibit || s.host.dom.inReset || !free then s
    else
      let a := s.host.areaKey k.area + k.off
      let h := { s.host with upd := { s.host.upd with bufs := rest } }
      let h := (h.count UPD_CNT_TAKEN).chunkReply k.port k.src k.tag 0
      let s := { s with host := h }
      match areaChan k.area with
      | some n => s.setCh n ((s.ch n).mapDom fun d => { d with mem := putWords d.mem a k.data })
      | none => s.mapHost fun d => { d with mem := putWords d.mem a k.data }

/-! ## The manifest (R505, R511) -/

/-- Word i of the manifest, and of its part k. -/
def HostDom.man (h : HostDom) (i : Nat) : Word := h.word (0x20001000 + 4 * i)
def HostDom.part (h : HostDom) (k i : Nat) : Word := h.man (16 + 12 * k + i)

def HostDom.partKind (h : HostDom) (k : Nat) : Nat := (fget (h.part k 0) 7 0).toNat
def HostDom.partTarget (h : HostDom) (k : Nat) : Nat := (fget (h.part k 0) 11 8).toNat
def HostDom.partKeep (h : HostDom) (k : Nat) : Bool := bitOf (h.part k 0) 16
def HostDom.keySlot (h : HostDom) : Bool := bitOf (h.man 3) 8
def HostDom.burn (h : HostDom) : Bool := bitOf (h.man 2) 16
def HostDom.revoke0 (h : HostDom) : Bool := bitOf (h.man 2) 17

/-- What a part must be named as: kind and target, each once. -/
def partNames : List (Nat × Nat) := [(1, 0), (1, 1), (1, 2), (1, 3), (2, 0), (2, 1), (2, 2), (2, 3), (3, 0)]

/-- The format of R505. -/
def HostDom.formatOk (h : HostDom) : Bool :=
  h.man 0 == 0x47444D31 && h.man 1 == 1 && fget (h.man 2) 31 18 == 0 && h.man 3 &&& 0xFFFFFEFF == 9
    && (List.range 12).all (fun i => h.man (4 + i) == 0)
    && (List.range 9).all (fun k => h.part k 0 &&& 0xFFFEF000 == 0 && h.part k 3 == 0
        && (h.partKind k != 2 || h.part k 2 == 92))
    && partNames.all (fun p => ((List.range 9).filter (fun k => h.partKind k == p.1 && h.partTarget k == p.2)).length == 1)
    && (!h.revoke0 || h.keySlot)

/-- The words of the image header that a part stages or that a bank holds. -/
def State.imageMem (s : State) (kind target : Nat) : List Host.Cell :=
  if kind = 3 then s.host.dom.mem else (s.ch (chanOf target)).dom.mem

/-- The bank that ACT0 selects for an image part. -/
def HostDom.activeBank (h : HostDom) (kind target : Nat) : Bool :=
  if kind = 3 then hostBankOf h.act else codeOf h.act (chanOf target)

/-- Where the recorded digest of a bank stands (R497, R498). -/
def digestAt (kind : Nat) (bank : Bool) : Nat :=
  (if kind = 3 then 0x20000020 else 0x201E0020) + if bank then 32 else 0

/-- The manifest's digest of part k equals the recorded digest of a bank. -/
def State.digestRecorded (s : State) (k : Nat) : Bool :=
  let h := s.host
  let a := digestAt (h.partKind k) (h.activeBank (h.partKind k) (h.partTarget k))
  (List.range 8).all fun i => h.part k (4 + i) == memWord (s.imageMem (h.partKind k) (h.partTarget k)) (a + 4 * i)

/-- The address of a channel's staged blob. -/
def blobAt (n : Nat) : Nat := 0x20002000 + 0x400 * n

/-- The first failing check of R511 for part k, zero where all pass. -/
def State.partResult (s : State) (r : RomReport) (k : Nat) : Nat :=
  let h := s.host
  let kind := h.partKind k
  let t := h.partTarget k
  let bad := r.badDigest.getLsbD k
  if h.partKeep k then
    (if kind = 2 then (if bad then 8 else 0) else if s.digestRecorded k then 0 else 8)
  else if kind = 2 then
    let m := h.dom.mem
    let a := blobAt t
    if !blobOk m a || blobWord m a 12 != 0 then 8
    else if bad then 7
    else
      let c := s.ch (chanOf t)
      if blobWord m a 1 == blobWord c.dom.mem (slotAt (cfgOf h.act (chanOf t))) 2 then 0 else 9
  else
    let bank := !h.activeBank kind t
    let m := s.imageMem kind t
    if !headerOk m (kind == 3) bank || BitVec.ofNat 32 (hdr m (kind == 3) bank 2) != h.part k 1
        || BitVec.ofNat 32 (hdr m (kind == 3) bank 1) != h.part k 2 then 8
    else if bad then 7 else 0

/-! ## Activation and revert (R503, R512 to R515) -/

/-- Record the ROM's decision (R517, R518). -/
def HostDom.decide (h : HostDom) (result part : Nat) : HostDom :=
  let h := (h.setN UPD_STAT_RESULT result).setN UPD_STAT_PART part
  { h with upd := { h.upd with decided := true } }

/-- A refusal clears PENDING and changes nothing else (R511). -/
def HostDom.refuse (h : HostDom) (result part : Nat) : HostDom :=
  (h.setPstate false h.revpend h.revok).decide result part

/-- Propagation rewrites the CHSEL of channel n where it differs from the pointer word (R503). -/
def State.propagate (s : State) (n : Chan) : State :=
  let a := s.host.act
  let w := BitVec.ofNat 32 (1024 * genOf a) + 2 * ofB (cfgOf a n) + ofB (codeOf a n)
  let c := s.ch n
  if c.word 0x201E0000 = w then s else State.settleChan s (s.setCh n (c.putWord 0x201E0000 w)) n

/-- An update-log entry (R498, R513). -/
def State.updateLog (s : State) (new old : Word) : State :=
  let h := s.host
  let w := BitVec.ofNat 32 (h.rgN UPD_STAT_RESULT + 16 * h.rgN UPD_STAT_PART)
  let a := 0x20004000 + 16 * (s.dev.updLog % 64)
  { s with
    host := { h with dom := { h.dom with mem := putWords h.dom.mem a [new, old, w, BitVec.ofNat 32 h.now] } }
    dev := { s.dev with updLog := s.dev.updLog + 1 } }

/-- Steps 4 to 6 of R512, `old` the selection before. BURN and REVOKE0 are the manifest's, for an update that is still
pending. -/
def State.completeActivation (s : State) (old : Word) : State :=
  let s := allChans.foldl State.propagate s
  let a := s.host.act
  let upd := s.host.pendingBit
  let s := s.raiseFloor (svnOf a) (upd && s.host.burn) (upd && s.host.revoke0)
  let h := s.host.setPstate false s.host.revpend s.host.revok
  let new := fput a 9 9 0
  ({ s with host := h.setAct new }).updateLog new old

/-- Step 1 of R512 for part k. -/
def State.placePart (s : State) (k : Nat) : State :=
  let h := s.host
  let kind := h.partKind k
  let t := h.partTarget k
  if h.partKeep k then s
  else if kind = 2 then
    let n := chanOf t
    let a := slotAt (!cfgOf h.act n)
    let ws := (List.range 23).map (fun i => blobWord h.dom.mem (blobAt t) i)
    s.setCh n ((s.ch n).mapDom fun d => { d with mem := putWords (putWords d.mem a ws) (a + 0x100) ws })
  else
    let a := digestAt kind (!h.activeBank kind t)
    let ws := (List.range 8).map (fun i => h.part k (4 + i))
    if kind = 3 then s.mapHost fun d => { d with mem := putWords d.mem a ws }
    else s.setCh (chanOf t) ((s.ch (chanOf t)).mapDom fun d => { d with mem := putWords d.mem a ws })

/-- The bits of ACT0 that a manifest's parts change. -/
def HostDom.partFlips (h : HostDom) : Nat :=
  (List.range 9).foldl (fun (m : Nat) k =>
    if h.partKeep k then m
    else m ^^^ (if h.partKind k = 3 then 256 else if h.partKind k = 2 then 16 * 2 ^ h.partTarget k else 2 ^ h.partTarget k)) 0

/-- Activation (R512). -/
def State.activate (s : State) : State :=
  let flips := s.host.partFlips
  let s := (List.range 9).foldl State.placePart s
  let h := s.host
  let a := h.act
  let h := ((h.putWord 0x20000008 a).set UPD_PREV_PREV a).setPstate h.pendingBit h.revpend true
  let bits := fget a 8 0 ^^^ BitVec.ofNat 32 flips
  let new := fput (fput (bits ||| 0x200) 15 10 (BitVec.ofNat 32 (genOf a + 1))) 31 16 (fget (h.man 2) 15 0)
  { s with host := (h.setAct new).decide 1 15 }.completeActivation a

/-- The conditions of R514: no digest is verified where PREV selects no other bank. -/
def State.mayRevert (s : State) (digests : Bool) : Bool :=
  let h := s.host
  let banks := fun (w : Word) => (hostBankOf w, fget w 3 0)
  decide (s.floor ≤ svnOf h.prev) && (digests || banks h.prev == banks h.act)
    && allChans.all (fun n => cfgOf h.prev n == cfgOf h.act n
        || (blobOk (s.ch n).dom.mem (slotAt (cfgOf h.prev n)) && blobOk (s.ch n).dom.mem (slotAt (cfgOf h.prev n) + 0x100)))

/-- A revert to PREV under a new generation number (R514; log 30). -/
def State.revertTo (s : State) (result : Nat) : State :=
  let h := s.host
  let new := fput (fput h.prev 15 10 (BitVec.ofNat 32 (genOf h.act + 1))) 9 9 1
  { s with host := ((h.setAct new).setPstate h.pendingBit false false).decide result 15 }.completeActivation h.act

/-- The revert cannot be done. -/
def HostDom.revertFails (h : HostDom) : HostDom := (h.setPstate h.pendingBit false h.revok).decide 10 15

/-! ## The phases H6 to H11 (R510) -/

/-- H6: no entry has failed yet; ACT1 is repaired, or stands in for an unreadable ACT0, and an interrupted activation is
completed; the selection before it is PREV (R501, R510, R518; log 30). -/
def State.h6 (s : State) (r : RomReport) : State :=
  let q := s.host.dom.free 28
  let n := match s.host.nvmCount with
    | some n => n
    | none => (fget q.1 15 0).toNat
  let h := if s.host.nvmCount.isSome then s.host else { s.host with dom := q.2 }
  let h := (h.setAct (if r.actBad then h.word 0x20000004 else h.act)).set UPD_PREV_PREV h.prev
  let h := ((h.setPstate h.pendingBit h.revpend h.revok).setN UPD_FLOOR_NVMCNT n).setN UPD_STAT_PART 15
  let h := { h with upd := { h.upd with floor0 := s.floor } }
  let s := if propOf h.act then { s with host := h.decide 11 15 }.completeActivation h.prev else { s with host := h }
  s.mapHost (·.toPhase (if s.host.pendingBit then 7 else 9))

/-- The key slot's fuses are programmed, and slot 0 is not revoked (R506). -/
def State.keySlotOk (s : State) : Bool :=
  if s.host.keySlot then s.dev.key1 else s.dev.key0 && !s.dev.revoked0

/-- H7: format, key, signature and version. -/
def State.h7 (s : State) (r : RomReport) : State :=
  let h := s.host
  let code :=
    if !h.formatOk then 3 else if !(s.keySlotOk && r.keyOk) then 4 else if !r.sigOk then 5
    else if (fget (h.man 2) 15 0).toNat < s.floor then 6 else 0
  if code = 0 then s.mapHost (·.toPhase 8) else { s with host := h.refuse code 15 }.mapHost (·.toPhase 9)

/-- H8: the parts in entry order, up to the first failure. -/
def State.h8 (s : State) (r : RomReport) : State :=
  let h := match (List.range 9).find? (fun k => s.partResult r k != 0) with
    | some k => s.host.refuse (s.partResult r k) k
    | none => s.host
  { s with host := h }.mapHost (·.toPhase 9)

/-- H9: activation, or the revert that REVPEND requests. -/
def State.h9 (s : State) (r : RomReport) : State :=
  let s :=
    if s.host.revpend then
      (if s.mayRevert r.revertOk then s.revertTo 2 else { s with host := s.host.revertFails })
    else if s.host.pendingBit then s.activate
    else s
  s.mapHost (·.toPhase 10)

/-- H10: the active host image; a failing one is reverted, and H10 runs again, or the host stops (R515). -/
def State.h10 (s : State) (r : RomReport) : State :=
  let h := s.host
  let bank := hostBankOf h.act
  let code := if !headerOk h.dom.mem true bank then 4 else if r.imageOk then 0 else 3
  if code = 0 then s.mapHost fun d => { d with bank := bank }.toPhase 11
  else if h.revok then
    (if s.mayRevert r.revertOk then s.revertTo 12 else { s with host := h.revertFails }.mapHost (·.bootFails code))
  else s.mapHost (·.bootFails code)

/-- The events that the ROM's decisions raise at release (R517). -/
def HostDom.tellUpdate (h : HostDom) (floor : Nat) : HostDom :=
  let h := if h.upd.decided then h.raise 0x42 (h.rgN UPD_STAT_RESULT + 16 * h.rgN UPD_STAT_PART) else h
  let h := if h.upd.floor0 < floor then h.raise 0x43 floor else h
  let h := if h.rgB BOOT_ROWS_NEW then h.raise 0x50 (h.rgN BOOT_ROWS_NEW) else h
  { h with upd := { h.upd with decided := false } }

/-- The host cores start at the address of their image, and boot is complete. -/
def Domain.hostRelease (d : Domain) : Domain :=
  let d := (d.setB UPD_STAT_ROMGATE false).release 0
  ((d.toPhase 255).setB BOOT_STAT_DONE true).refreshCap.tellRelease

/-- H11: the ROM gate closes and the cores are released. -/
def State.h11 (s : State) : State :=
  { s with host := ({ s.host with dom := s.host.dom.hostRelease } : HostDom).tellUpdate s.floor }

/-- What a phase of the boot ROM leaves (R510). -/
def State.romPhase (s : State) (r : RomReport) : State :=
  match s.host.dom.rgN BOOT_STAT_PHASE with
  | 6 => s.h6 r
  | 7 => s.h7 r
  | 8 => s.h8 r
  | 9 => s.h9 r
  | 10 => s.h10 r
  | 11 => s.h11
  | _ => s

/-- The phase reads every channel's array: it hashes the staged parts, or judges a revert (R511, R514). -/
def HostDom.readsArrays (h : HostDom) : Bool :=
  let p := h.rgN BOOT_STAT_PHASE
  p == 8 || (p == 9 && h.revpend) || (p == 10 && h.revok)

/-- What keeps a phase waiting: write-inhibit, for one that writes NVM or blows fuses (R84, R507), and a channel in B4, for
one that reads or writes its array (R496, R503). -/
def State.romWaits (s t : State) : Bool :=
  let wrote := fun (n : Chan) => (s.ch n).dom.nvmWritten (t.ch n).dom
  (s.dev.inhibit && (s.host.dom.nvmWritten t.host.dom || allChans.any wrote || s.dev != t.dev))
    || allChans.any (fun n => !s.arrayFree n && (s.host.readsArrays || wrote n))

/-- HOST_ROM_PHASE_DONE. -/
def State.romPhaseDone (s : State) (r : RomReport) : State :=
  let t := s.romPhase r
  if s.host.dom.inPhase (s.host.dom.rgN BOOT_STAT_PHASE) && !s.romWaits t then State.settleHost s t else s

end Sys2Proof.Machine
end

