-- ==== Sys2Proof/Machine/Bus.lean ====
section
/-! DEFINITION. Bus.lean: what a read of any address returns and a write does (R9 to R13, R34 to R43, R148 to R151, R163, R173,
R440, R461, R489, R522, R523), and the completion of outstanding loads and stores (R126, R132, R134, R143, R485). -/

namespace Sys2Proof.Machine

/-! ## Which registers a domain has -/

/-- The bits of THM and SPR that the host domain has counterparts of (R461). -/
def hostBits (k : Nat) : Word :=
  if k / 65536 = 10 then
    match k with
    | 0xA0000 => 0xFF1F0100
    | 0xA0100 => 0xF0000711
    | 0xA0004 | 0xA0010 | 0xA0014 | 0xA0104 | 0xA0110 => 0xFFFFFFFF
    | 0xA0114 => 0xFFFF0000
    | 0xA0118 => 0xFFFFFFFF
    | _ => 0
  else if k / 65536 = 13 then
    match k with
    | 0xD0000 => 0x00000003
    | 0xD0008 => 0x00FFFF00
    | 0xD0010 | 0xD0080 | 0xD0118 => 0xFFFFFFFF
    | 0xD0100 => 0x000000C0
    | 0xD011C => 0xFF00FFFF
    | _ => 0
  else 0xFFFFFFFF

/-- The host event selectors stand only in HPERF (R527). -/
def isXsel (k : Nat) : Bool := decide (0xC00C0 ≤ k) && decide (k < 0xC00E0)

/-- A key with a row of its own in a domain. -/
def Domain.assigned (d : Domain) (k : Nat) : Bool := (rowOf k).isSome && (d.host || !isXsel k)

/-- The live-read alias of a banked block (R151): the register it shows, one with an RWP or RWL field. -/
def aliasOf (k : Nat) : Option Nat :=
  if 2 ≤ k / 65536 ∧ k / 65536 ≤ 8 ∧ 0x8000 ≤ k % 65536 then
    match rowOf (k - 0x8000) with
    | some r => if r.rwp ||| r.rwl ≠ 0 then some (k - 0x8000) else none
    | none => none
  else none

def isResult (k : Nat) : Bool := decide (0x42000 ≤ k) && decide (k < 0x42400)
def isSample (k : Nat) : Bool := decide (0xC2000 ≤ k) && decide (k < 0xC2800)
def isMailbox (k : Nat) : Bool := decide (0xE1000 ≤ k) && decide (k < 0xE2000)

/-! ## What registers show -/

/-- The engine whose captures a read shows: the reader, or, for the debug port, main or engine 0 (R173). -/
def Domain.reader (d : Domain) (who : Option Eng) : Eng :=
  match who with
  | some e => e
  | none => if d.dual then .e0 else d.main.getD .e0

/-- The place of a reader's counter capture (R522); the debug port has one of its own. -/
def capOf : Option Eng → Nat
  | some e => e.idx
  | none => 3

/-- Registers of every domain that are held elsewhere than in its register store. -/
def Domain.view (d : Domain) (who : Option Eng) (k : Nat) : Word :=
  if k = 0 then d.sysId
  else if k = 0x10084 then BitVec.ofNat 32 (d.core (d.reader who)).claimStamp
  else if k = 0x10088 then BitVec.ofNat 32 ((d.core (d.reader who)).claimStamp / 4294967296)
  else if 0xC1000 ≤ k ∧ k < 0xC2000 then
    if k % 8 = 0 then BitVec.ofNat 32 (d.sampled ((k - 0xC1000) / 8))
    else BitVec.ofNat 32 (sget 0 d.perf.cap (capOf who) / 4294967296 % 65536)
  else if isSample k then sget 0 d.perf.buf ((k - 0xC2000) / 4)
  else rget d.regs k

/-- Bits of a condition on the four threads. -/
def Weir.threadBits (w : Weir) (p : WThread → Bool) : Word :=
  [Thread.t0, .t1, .t2, .t3].foldl (fun (m : Word) t => if p (w.th t) then m ||| BitVec.ofNat 32 (2 ^ t.idx) else m) 0

def WThread.waits (x : WThread) : Bool := match x.st with | .waiting _ => true | .stopped | .running => false
def WThread.stoppedNow (x : WThread) : Bool := match x.st with | .stopped => true | .running | .waiting _ => false

/-- WEIR_STAT (R181, R202). -/
def Channel.weirStat (c : Channel) : Word :=
  let w := c.weir
  let back := match w.mode with
    | .sync => w.back
    | .async | .transition => w.lastDir == some true
  let v := fput (fput (rget c.dom.regs WEIR_STAT_STALE.reg) 1 0 (BitVec.ofNat 32 w.mode.code)) 2 2 (ofB back)
  let v := fput (fput v 7 4 (w.threadBits (fun x => !x.stoppedNow))) 11 8 (w.threadBits WThread.waits)
  fput v 17 12 (if w.mode = .sync then BitVec.ofNat 32 w.nUse else 0)

/-- ADC_ROVSTAT: STATE, and as TARGET the check that would come next on the line of PRESEL (R259; log 74). -/
def Channel.rovStat (c : Channel) : Word :=
  let st := if c.rovMode = 0 ∨ c.rgB ADC_STAT_NOROVE = true then 2 else if c.adc.confirm.isSome then 1 else 0
  let next := match c.nextCheck c.live (c.lvN ADC_CTL_PRESEL) with
    | some .reference => 3
    | some (.slot j) => j
    | none => c.adc.target
  fput (fput (rget c.dom.regs ADC_ROVSTAT_MISS.reg) 17 16 (BitVec.ofNat 32 st)) 15 14 (BitVec.ofNat 32 next)

/-- POS_STAT. -/
def Channel.posStat (c : Channel) : Word :=
  let v := fput (rget c.dom.regs POS_STAT_XFAIL.reg) 14 12 (BitVec.ofNat 32 c.srcUse)
  fput (fput v 11 11 (ofB c.emErr)) 0 0 (ofB (c.avalid c.srcUse))

/-- A channel's register as a read returns it: RWP fields from the plan bank (R12, R148). -/
def Channel.view (c : Channel) (who : Option Eng) (k : Nat) : Word :=
  match aliasOf k with
  | some k' => c.liveView k'
  | none =>
    if isResult k then sget 0 c.adc.results ((k - 0x42000) / 4)
    else if isMailbox k then c.word (0x40000000 + k)
    else if k = 0x20100 then c.weirStat
    else if k = 0x20104 then c.weir.theta
    else if k = 0x20108 then c.weir.phi
    else if k = 0x2010C then c.weir.omL
    else if 0x20120 ≤ k ∧ k < 0x20130 then
      (c.weir.th (match (k - 0x20120) / 4 with | 0 => .t0 | 1 => .t1 | 2 => .t2 | _ => .t3)).pc.setWidth 32
    else if k = POS_STAT_XFAIL.reg then c.posStat
    else if k = ADC_ROVSTAT_MISS.reg then c.rovStat
    else if k = PWM_CNT_N.reg then BitVec.ofNat 32 c.pwm.n
    else if 0x50140 ≤ k ∧ k < 0x50170 then BitVec.ofNat 32 (c.deadTime ((k - 0x50140) / 8) (k % 8 == 0))
    else if k = CAS_CAPD01_S0.reg then sget 0 c.cas.cap01 (c.rgN CAS_CAPIDX_IDX)
    else if k = CAS_CAPD23_S2.reg then sget 0 c.cas.cap23 (c.rgN CAS_CAPIDX_IDX)
    else if 0x80114 ≤ k ∧ k < 0x80128 then c.word (0x201E1000 + 20 * c.rgN SAFE_LOGIDX_IDX + (k - 0x80114))
    else
      match rowOf k with
      | some r =>
        if r.rwp ≠ 0 then (rget c.plan k &&& BitVec.ofNat 32 r.rwp) ||| (c.dom.view who k &&& ~~~(BitVec.ofNat 32 r.rwp))
        else c.dom.view who k
      | none => c.dom.view who k

/-- UPD_FLOOR (R518). -/
def State.floorWord (s : State) : Word :=
  let w := fput (rget s.host.dom.regs UPD_FLOOR_NVMCNT.reg) 21 16 (BitVec.ofNat 32 s.dev.floorFuses)
  fput (fput (fput w 29 29 (ofB s.dev.key0)) 30 30 (ofB s.dev.key1)) 31 31 (ofB s.dev.revoked0)

/-- A register of the host domain as a read returns it. -/
def State.hostView (s : State) (who : Option Eng) (k : Nat) : Word :=
  if k = UPD_FLOOR_NVMCNT.reg then s.floorWord
  else if 0x110110 ≤ k ∧ k < 0x110120 then (s.ch (chanOf ((k - 0x110110) / 4))).chBoot
  else s.host.dom.view who k &&& hostBits k

/-! ## Reading a register -/

/-- A counter read captures the count for its reader (R522). -/
def Domain.cntCapture (d : Domain) (who : Option Eng) (x : Nat) : Domain :=
  { d with perf := { d.perf with cap := sset 0 d.perf.cap (capOf who) (d.sampled x) }, cyc := { d.cyc with counted := true } }

/-- A read of a counter's low word. -/
def isCount (k : Nat) : Bool := decide (0xC1000 ≤ k) && decide (k < 0xC2000) && k % 8 == 0

/-- PERF serves one counter read in a cycle: another one waits for the next (R522). -/
def Domain.countBusy (d : Domain) (a : Word) : Bool := d.area a == .blocks && isCount (d.regKey a.toNat) && d.cyc.counted

/-- What a read at a key changes first: a ring-time capture (R489). -/
def State.readBefore (s : State) (d : Dom) (k : Nat) : State :=
  if k = MBX_RTLO_T.reg ∨ k = RING_RTLO_T.reg then s.rtCapture d else s

/-- What a read of a channel's or the host's register changes: a counter capture, the sample index, the log index. -/
def State.readAfter (s : State) (d : Dom) (who : Option Eng) (k : Nat) : State :=
  if isCount k then s.setDom d ((s.dom d).cntCapture who ((k - 0xC1000) / 8))
  else
    match d with
    | .ch n =>
      if k = CAS_CAPD23_S2.reg then s.setCh n (s.ch n).capd23Read
      else if k = 0x80124 then s.setCh n (s.ch n).logd4Read
      else s
    | .host => s

/-- A word read of a block register; none is a bus error. `who` is the reading core, or none for the debug port, whose read
of EVT_CLAIM claims nothing (R173). -/
def State.readBlock (s : State) (d : Dom) (who : Option Eng) (k : Nat) : Option (Word × State) :=
  let x := s.dom d
  let known := x.assigned k || isSample k || (match d with | .ch _ => isResult k || isMailbox k || (aliasOf k).isSome | .host => false)
  if !known then none
  else if k = EVT_CLAIM_EVENT.reg then
    match who with
    | some e => some ((x.claim e).1, s.setDom d (x.claim e).2)
    | none => some (0x80000000, s)
  else
    let s := s.readBefore d k
    let v := match d with
      | .ch n => (s.ch n).view who k
      | .host => s.hostView who k
    some (v, s.readAfter d who k)

/-! ## Writing a register -/

/-- A write of PERF_MODE acts from the next cycle: the word before the first write of a cycle is kept until then (R521). -/
def Domain.keepMode (d : Domain) (k : Nat) : Domain :=
  if 0xC0010 ≤ k ∧ k < 0xC0030 ∧ !d.cyc.modes.any (fun p => p.1 == k) then
    { d with cyc := { d.cyc with modes := (k, rget d.regs k) :: d.cyc.modes } }
  else d

/-- A write by the access codes of a row: RW bits, W1C bits but those that hardware has set in the same cycle, W1S bits
(R12). -/
def Domain.writePlain (d : Domain) (r : RegRow) (k : Nat) (w : Word) : Domain :=
  let d := d.keepMode k
  let old := rget d.regs k
  let rw := BitVec.ofNat 32 r.rw
  let v := (old &&& ~~~rw) ||| (w &&& rw)
  let v := v &&& ~~~(w &&& BitVec.ofNat 32 r.w1c &&& ~~~(sget 0 d.cyc.set k))
  { d with regs := rput d.regs k (v ||| (w &&& BitVec.ofNat 32 r.w1s)), cyc := { d.cyc with wrote := k :: d.cyc.wrote } }

def Domain.clearKey (d : Domain) (k : Nat) : Domain := { d with regs := rput d.regs k 0 }

/-- PERF_CNTCLR: what a counter gains in the cycle of the write stays (R522, R526). -/
def Domain.cntClear (d : Domain) (w : Word) : Domain :=
  if bitOf w 31 then { d with perf := { d.perf with cnt := d.cyc.gained } }
  else
    let x := (fget w 8 0).toNat
    { d with perf := { d.perf with cnt := sset 0 d.perf.cnt x (sget 0 d.cyc.gained x) } }

/-- PERF_SMPCTL (R526). -/
def Domain.smpCtl (d : Domain) (w : Word) : Domain :=
  let d := d.set PERF_SMPCTL_WRAP (fget w 0 0)
  if bitOf w 1 then { d.clearKey PERF_SMPSTAT_COUNT.reg with perf := { d.perf with buf := [] } } else d

/-- EVT_PEND: a W1C write discards the stamps of the flags it clears; a flag set in the same cycle stays (R12, R173). -/
def Domain.pendClear (d : Domain) (i : Nat) (w : Word) : Domain :=
  let w := w &&& ~~~(sget 0 d.cyc.set (EVT_PEND_PEND i).reg)
  (List.range 32).foldl (fun (d : Domain) b => if bitOf w b then d.clearPending (32 * i + b) else d) d

/-- EVT_PRI: each field as R171 stores it. -/
def Domain.priWrite (d : Domain) (i : Nat) (w : Word) : Domain :=
  (List.range 8).foldl (fun (d : Domain) j =>
    d.setN (EVT_PRI_PRI i j) (priStored (8 * i + j) (fget w (4 * j + 3) (4 * j)).toNat)) d

/-- A write of PLL_CTL where the command carries no measured reference frequency: whether an APPLY finds the settings valid
then hangs on a free value (log 3). -/
def Domain.pllCtlFree (d : Domain) (oen w : Word) : Domain :=
  if bitOf w 1 then (d.free 29).2.writePllCtl oen w (d.free 29).1.toNat else d.writePllCtl oen w 0

/-- Registers of every domain with a rule of their own; the others act by their row. -/
def Domain.writeReg (d : Domain) (inhibit : Bool) (oen : Word) (r : RegRow) (k : Nat) (w : Word) : Domain :=
  if k / 65536 = 1 ∧ k % 65536 < 0x10 then d.pendClear (k % 65536 / 4) w
  else if k / 65536 = 1 ∧ 0x40 ≤ k % 65536 ∧ k % 65536 < 0x80 then d.priWrite ((k % 65536 - 0x40) / 4) w
  else if k = 0xB0000 then d.pllCtlFree oen w
  else if k = 0xB0014 then d.writeHop oen w
  else if k = 0xB0040 then d.writeClkmon w
  else if k = LSC_CNT_RESTORE.reg then d.clearKey k
  else if k = THM_SDCFG_SDMAX.reg then d.writeSdcfg w
  else if k = SPR_CMD_ACT.reg then d.sprCmd inhibit w
  else if k = SPR_CTL_LBTRIP.reg ∨ k = SPR_LIM_CEROW.reg then
    (d.writePlain r k (if d.host then w &&& hostBits k else w)).repairDue d.cerow
  else if k = PERF_CNTCLR_ALL.reg then d.cntClear w
  else if k = PERF_SMPCTL_WRAP.reg then d.smpCtl w
  else d.writePlain r k (if d.host then w &&& hostBits k else w)

/-- The count registers that a write of any value clears (R161, R238, R271, R306, R336, R363, R383). -/
def clearedKeys : List Nat :=
  [EVT_CMTCNT_ACCEPTED.reg, POS_ERRCNT_SKIP.reg, ADC_ERRCNT_SDFLT.reg, PWM_ERRCNT_NOTR.reg, CAS_RUNPK_PEAK.reg,
    CAS_MSCNT_LOCKED.reg, GDI_ERRCNT_OV1.reg]

/-- Plan bits that read 1 whatever is written: the masks of WEIR_HOCMT and state 0 of PWM_LSM_LO (R210, R275). -/
def planForced (k : Nat) : Word :=
  if k = WEIR_HOCMT_HMASK.reg then 0x101
  else if (List.range 6).any (fun i => k == (PWM_LSM_LO_LSM i).reg) then 1 else 0

/-- MICLAMP and BRKCLAMP are set in every cycle in which their saturation acts, so that no write clears them then (R12, R282,
R373). -/
def Channel.holdClamps (c : Channel) : Channel :=
  let c := if miSaturates c.live then c.setB PWM_STAT_MICLAMP true else c
  c.brkClamp

/-- A write of a channel's register within the channel. -/
def Channel.writeReg (c : Channel) (inhibit : Bool) (r : RegRow) (k : Nat) (w : Word) : Channel :=
  if r.rwp ≠ 0 then
    (c.writePlan k ((w &&& BitVec.ofNat 32 r.rwp) ||| planForced k)).mapDom
      (fun d => { d with cyc := { d.cyc with wrote := k :: d.cyc.wrote } })
  else if r.rwl ≠ 0 then c.writeRwl k w
  else if clearedKeys.contains k then c.mapDom (·.clearKey k)
  else
    match k with
    | 0x100D0 => c.writeLhold w
    | 0x20114 => c.weirArm w
    | 0x20118 => c.weirDisarm w
    | 0x30080 => c.cntset w
    | 0x40140 => c.calGo w
    | 0x40150 => c.subCmd w
    | 0x50108 => c.tripCmd w
    | 0x700C0 => c.casCmd w
    | 0x701C0 => c.msCmd w
    | 0x80080 => c.safeCmd w
    | 0x80084 => c.kCmd w
    | 0x80090 => c.safeUnlock w
    | 0x80094 => c.lockCtl w
    | _ =>
      if k = GDI_CMD_DSTART.reg then c.gdiCmd w
      else (c.mapDom (·.writeReg inhibit (c.lv PWM_OEN_OEN) r k w)).holdClamps

/-- A write of a host register within the host domain. -/
def HostDom.writeReg (h : HostDom) (inhibit : Bool) (r : RegRow) (k : Nat) (w : Word) : HostDom :=
  match k with
  | 0x100000 => h.writeCtl w
  | 0x100004 => h.writeNode w
  | 0x100108 => h.errcntClear
  | 0x110120 => h.updCntClear
  | _ => { h with dom := h.dom.writeReg inhibit 0 r k w }

/-- A word write of a block register; none is a bus error (R9, R36, R38, R151, R255). -/
def State.writeBlock (s : State) (d : Dom) (k : Nat) (w : Word) : Option State :=
  if !(s.dom d).assigned k then none
  else
    match rowOf k with
    | none => none
    | some r =>
      match d with
      | .ch n =>
        if k = SYS_RSTCTL_HOSTRST_EN.reg then some (s.writeRstctl n w)
        else if k = MBX_DOOR_VALUE.reg then some (s.mbxDoor n w)
        else some (s.onCh n (fun c => c.writeReg s.dev.inhibit r k w))
      | .host =>
        if k = HSYS_CHRST_CH.reg then some (s.hostRequest w)
        else if k = UPD_STGCTL_KEY.reg then some (s.writeStgctl w)
        else if k = UPD_CMD_KEY.reg then some (s.writeUpdCmd w)
        else some (s.onHost (fun h => h.writeReg s.dev.inhibit r k w))

/-! ## The channel windows of the host map (R43) -/

/-- The channel and the offset of an address in the channel windows. -/
def windowChan (a : Nat) : Chan := chanOf ((a - 0x42000000) / 0x20000)
def windowOff (a : Nat) : Nat := (a - 0x42000000) % 0x20000

/-- A read of `n` bytes through a window; none is a bus error (R30, R43). -/
def State.readWindow (s : State) (a n : Nat) : Option Nat :=
  let c := s.ch (windowChan a)
  if c.dom.inReset || decide (0x10000 ≤ windowOff a) then none
  else some (memRead c.dom.mem (0x101F0000 + windowOff a) n)

/-- A word written through a window reaches the mailbox, with EV_MBXW from a host core (R490). -/
def State.writeWindow (s : State) (a : Nat) (w : Word) : Option State :=
  let n := windowChan a
  let o := windowOff a
  if (s.ch n).dom.inReset || decide (o < 0x10000) || decide (0x11000 ≤ o) then none
  else some (s.mailboxWrite n ((o - 0x10000) / 4) [w] 0)

/-! ## Loads complete (R132, R143) -/

/-- A User-level access of PERF that R523 refuses: only counter reads, and those only with UREAD = 1. -/
def Domain.perfRefuses (d : Domain) (user write : Bool) (k : Nat) : Bool :=
  user && k / 65536 == 12 && (write || !d.rgB PERF_CTL_UREAD || !(decide (0xC1000 ≤ k) && decide (k < 0xC2000)))

/-- The read of a load that is no ring access: its value with its effects, or a bus error. -/
def State.performLoad (s : State) (d : Dom) (e : Eng) (l : LoadReq) : Option (Nat × State) :=
  let x := s.dom d
  let a := l.addr.toNat
  match x.area l.addr with
  | .code | .rom | .sram | .nvm =>
    let q := x.readMem a l.size
    let byte := fun (i : Nat) => (x.core e).forwarded l.seq (a + i) (BitVec.ofNat 8 (q.1 / 256 ^ i))
    let v := (List.range l.size).foldl (fun n i => n + (byte i).toNat * 256 ^ i) 0
    some (v, s.setDom d q.2)
  | .windows => some (memRead x.mem a l.size, s)
  | .blocks =>
    let k := x.regKey a
    if l.size ≠ 4 ∨ x.perfRefuses (decide ((x.core e).priv = .user)) false k = true then none
    else (s.readBlock d (some e) k).map (fun r => (r.1.toNat, r.2))
  | .channels => (s.readWindow a l.size).map (fun v => (v, s))
  | .ring | .unmapped => none

/-- The address is held with check bits in this domain's memories (R405). -/
def Area.checked : Area → Bool
  | .code | .sram | .nvm | .windows => true
  | .rom | .blocks | .channels | .ring | .unmapped => false

/-- The failed ring access is recorded, with EV_RAERR (R485, R490). -/
def State.ringError (s : State) (d : Dom) (a : Nat) (st : Nat) : State :=
  let s := match d with
    | .ch n => s.onCh n (fun c => ((c.setN MBX_RAERR_STAT st).setN MBX_RAERR_ADDR (a % 268435456)).setB MBX_STAT_RAERR true)
    | .host => s.mapHost (fun h => ((h.setN RING_RAERR_STAT st).setN RING_RAERR_ADDR (a % 268435456)).setB RING_STAT_RAERR true)
  s.hostEvent 0x30 st

/-- The outcome of a ring access, where it has one: status, data and the state it leaves. A reset of the host domain ends the
accesses outstanding at it, and none is served while the host domain is in reset or has failed (R31, R481, R482, R485; log
41). -/
def State.ringOutcome (s : State) (d : Dom) (e : Eng) (seq a : Nat) (write : Bool) (data : Word) :
    Option (Nat × Word × State) :=
  let h := s.host
  let node := ringNode a
  if h.dom.inReset || h.failed || ((s.dom d).core e).lost.contains seq then some (6, 0, s)
  else if node = h.node then
    let r := s.serve h.node (ringOff a) 1 write [data]
    some (r.1, r.2.1.headD 0, r.2.2)
  else if !h.enabled then some (5, 0, s)
  else
    match h.ring.reqOf d e seq with
    | some q =>
      match q.reply with
      | some (st, v) =>
        some (st.toNat, v, { s with host := h.setRing (fun r => { r with reqs := r.reqs.filter (fun x => x.tag != q.tag) }) })
      | none => none
    | none => none

/-- LOAD_RESULT for the load l. -/
def State.loadResult (s : State) (d : Dom) (e : Eng) (l : LoadReq) (ecc : Ecc) : State :=
  let x := s.dom d
  let upd := fun (s : State) (f : Domain → Domain) => s.setDom d (f (s.dom d))
  if !(x.core e).mayPerform l.seq l.addr l.size l.attr true || x.countBusy l.addr then s
  else if inRing l.addr then
    if l.size ≠ 4 then s.onCore d (·.loadFails e l 5)
    else
      match s.ringOutcome d e l.seq l.addr.toNat false 0 with
      | none => s
      | some (st, v, t) =>
        if st = 0 then upd t (fun x => (x.logRec e .value l.addr v).loadDone e l v)
        else (t.ringError d l.addr.toNat st).onCore d (·.loadFails e l 5)
  else
    let ecc := if (x.area l.addr).checked then ecc else .clean
    let s := upd s (·.noteEcc ecc (x.memKey l.addr.toNat))
    if ecc = .uncorrectable then s.onCore d (·.loadFails e l 0x0E)
    else
      match s.performLoad d e l with
      | none => s.onCore d (·.loadFails e l 5)
      | some (v, t) =>
        let v := l.extend v
        upd t (fun x => (if x.outside l.addr then x.logRec e .value l.addr v else x).loadDone e l v)

/-! ## Stores complete -/

/-- A store into the windows of Cascade and Weir (R311, R193). -/
def Domain.writeProgram (d : Domain) (a n : Nat) (w : Word) : Domain := { d with mem := memWrite d.mem a n w.toNat }

/-- The write of a store that is no ring access; none is a bus error. -/
def State.performStore (s : State) (d : Dom) (e : Eng) (q : StoreReq) : Option State :=
  let x := s.dom d
  let a := q.addr.toNat
  match x.area q.addr with
  | .sram | .nvm =>
    if x.storeFails s.dev.inhibit q.addr then none else some (s.setDom d (x.writeMem e a q.size q.data))
  | .windows => some (s.setDom d (x.writeProgram a q.size q.data))
  | .blocks =>
    let k := x.regKey a
    if q.size ≠ 4 ∨ x.perfRefuses (decide ((x.core e).priv = .user)) true k = true then none
    else s.writeBlock d k q.data
  | .channels => if q.size ≠ 4 then none else s.writeWindow a q.data
  | .code | .rom | .ring | .unmapped => none

/-- STORE_PERFORMED for the store q of the posted queue or the store buffer. A byte or halfword store reads its word, and an
uncorrectable error leaves it unchanged (R406). A reset that the store causes takes its core with it. -/
def State.storePerformed (s : State) (d : Dom) (e : Eng) (posted : Bool) (q : StoreReq) (ecc : Ecc) : State :=
  let x := s.dom d
  let upd := fun (s : State) (f : Domain → Domain) => if (s.dom d).inReset then s else s.setDom d (f (s.dom d))
  if !(x.core e).mayPerform q.seq q.addr q.size q.attr false then s
  else if inRing q.addr then
    if q.size ≠ 4 then upd s (·.storeError e posted q)
    else
      match s.ringOutcome d e q.seq q.addr.toNat true q.data with
      | none => s
      | some (st, _, t) =>
        if st = 0 then upd t (·.storeDone e posted q)
        else upd (t.ringError d q.addr.toNat st) (·.storeError e posted q)
  else
    let ecc := if (x.area q.addr).checked && decide (q.size < 4) then ecc else .clean
    let s := upd s (·.noteEcc ecc (x.memKey q.addr.toNat))
    if ecc = .uncorrectable then upd s (·.storeError e posted q)
    else
      match s.performStore d e q with
      | none => upd s (·.storeError e posted q)
      | some t => upd t (·.storeDone e posted q)

/-- LOAD_RESULT for the i-th outstanding load of a core that executes or is held to go on. -/
def State.loadResultAt (s : State) (d : Dom) (e : Eng) (i : Nat) (ecc : Ecc) : State :=
  let x := s.dom d
  if x.inReset || decide ((x.core e).run ≠ .running) then s
  else
    match (x.core e).loads[i]? with
    | some l => s.loadResult d e l ecc
    | none => s

/-- STORE_PERFORMED for the i-th entry of a queue. Released stores drain whether or not their core still executes (R389). -/
def State.storePerformedAt (s : State) (d : Dom) (e : Eng) (posted : Bool) (i : Nat) (ecc : Ecc) : State :=
  let x := s.dom d
  if x.inReset then s
  else
    match (if posted then (x.core e).posted else (x.core e).stores)[i]? with
    | some q => s.storePerformed d e posted q ecc
    | none => s

/-! ## REGISTER_WRITE and the reads with rows of their own -/

/-- REGISTER_WRITE: a word written to a register of a domain at an address of its map; an address without one changes
nothing. -/
def State.registerWrite (s : State) (d : Dom) (a : Nat) (w : Word) : State :=
  let x := s.dom d
  if x.inReset || a % 4 != 0 || areaOf x.host a != .blocks then s
  else (s.writeBlock d (x.regKey a) w).getD s

/-- A read of a register for its effect. -/
def State.readFor (s : State) (d : Dom) (who : Option Eng) (k : Nat) : State :=
  if (s.dom d).inReset || (isCount k && (s.dom d).cyc.counted) then s
  else
    match s.readBlock d who k with
    | some r => r.2
    | none => s

end Sys2Proof.Machine
end

