-- ==== Sys2Proof/Machine/Debug.lean ====
section
/-! DEFINITION. Debug.lean: the debug ports, halting, the breakpoints, and boundary scan (R528 to R535, R303, R404). -/

namespace Sys2Proof.Machine

/-! ## Halting the cores (R531) -/

def allEngs : List Eng := [.e0, .e1, .e2]

/-- Every engine that executes stands at an instruction boundary, or in a wait that may be abandoned. -/
def Domain.haltReady (d : Domain) : Bool := allEngs.all (fun e => !d.runs e || (d.core e).wait.abandons)

/-- What a core abandons when it halts: its wait, and the ring load it stood for (R140). -/
def Core.halted (x : Core) : Core :=
  if x.wait.abandons then { x with wait := .none, loads := x.entered.loads } else x

/-- The cores stop, with a cause. -/
def Domain.haltCores (d : Domain) (cause : BitVec 3) : Domain :=
  let d := { d with
    e0 := d.e0.halted, e1 := d.e1.halted, e2 := d.e2.halted
    dbg := { d.dbg with halted := true, want := none, stepping := [] } }
  (d.set DBG_STAT_CAUSE (cause.setWidth 32)).setB DBG_STAT_HALTED true

/-- No engine of the domain executes: boot has released none yet, or the domain is core-less (R388). -/
def Domain.noneRuns (d : Domain) : Bool := allEngs.all (fun e => decide ((d.core e).run ≠ .running))

/-- Boot has released no core of the domain yet. -/
def Domain.booting (d : Domain) : Bool := !d.rgB (doneFld d.host) && d.noneRuns

/-- No core of the domain is to reach a boundary: none executes, or a recovery holds them (R389). -/
def Domain.heldNow (d : Domain) : Bool := d.noneRuns || (decide (1 ≤ d.phase) && decide (d.phase ≤ 3))

/-- The halt takes effect in a channel. Cores held by boot stop now, and the rest follows at their release. -/
def Channel.halt (c : Channel) (cause : BitVec 3) : Channel :=
  if c.dom.booting then c.mapDom (·.haltCores cause)
  else (c.mapDom (fun d => (d.haltCores cause).breakLockstep)).haltBlocks

/-- The halt takes effect in the host domain. -/
def Domain.hostHalt (d : Domain) (cause : BitVec 3) : Domain :=
  if d.booting then d.haltCores cause else (d.haltCores cause).breakLockstep

def State.haltDom (s : State) (d : Dom) (cause : BitVec 3) : State :=
  match d with
  | .ch n => s.onCh n (·.halt cause)
  | .host => s.onHost (fun h => { h with dom := h.dom.hostHalt cause })

/-- HALTREQ: held cores halt at once, others at their next boundary. -/
def State.haltRequest (s : State) (d : Dom) : State :=
  if (s.dom d).dbg.halted then s
  else if (s.dom d).heldNow then s.haltDom d 1
  else s.onDom d (·.askHalt 1)

/-- DEBUG_HALT_EFFECT. -/
def State.haltEffect (s : State) (d : Dom) : State :=
  match (s.dom d).dbg.want with
  | some cause => if (s.dom d).haltReady then s.haltDom d cause else s
  | none => s

/-- RESUME: the cores go on, and every HIT field and CAUSE clear (R531, R534). -/
def Domain.resumeCores (d : Domain) : Domain :=
  let d := { d with dbg := { d.dbg with
    halted := false, want := if d.dbg.halted then none else d.dbg.want, stepping := [] } }
  let d := ((d.setB DBG_STAT_HALTED false).setN DBG_STAT_CAUSE 0).setN DBG_STAT_BPHIT 0
  ((d.setN DBG_STAT_WPHIT 0).setB DBG_STAT_WBPHIT false).setB DBG_STAT_CBPHIT false

def State.resume (s : State) (d : Dom) : State :=
  match d with
  | .ch n => s.onCh n (fun c => (c.mapDom Domain.resumeCores).unfreeze)
  | .host => s.onHost (fun h => { h with dom := h.dom.resumeCores })

/-- STEP: each engine that would execute executes one instruction, at a breakpoint too. -/
def Domain.stepCores (d : Domain) : Domain :=
  let go := allEngs.filter (fun e => { d with dbg := { d.dbg with halted := false } }.runs e)
  if d.dbg.halted then
    { d with dbg := { d.dbg with
      stepping := go, past := d.dbg.past ++ go.map (fun e => (e, (d.core e).pc)) } }
  else d

def Channel.setWeirHalt (c : Channel) (on : Bool) : Channel :=
  { c with weir := { c.weir with halted := on, haltReq := false } }.setB DBG_STAT_WHALTED on

def Channel.setCasHalt (c : Channel) (on : Bool) : Channel :=
  { c with cas := { c.cas with halted := on } }.setB DBG_STAT_CHALTED on

/-- The Weir and Cascade bits of DBG_CTL (R533). -/
def Channel.engineCtl (c : Channel) (w : Word) : Channel :=
  let c := if bitOf w 3 then { c with weir := { c.weir with haltReq := true } } else c
  let c := if bitOf w 4 then c.setWeirHalt false else c
  let c := if bitOf w 5 then c.setCasHalt true else c
  if bitOf w 6 then c.setCasHalt false else c

/-- A write of DBG_CTL: the stored bits, then each command bit from the lowest (log 8). The host port has no Weir or Cascade
bits. -/
def State.writeDbgCtl (s : State) (d : Dom) (w : Word) : State :=
  let kept : Word := w &&& (if (s.dom d).host then 0x300 else 0xF00)
  let s := s.onDom d (fun x => { x with regs := rput x.regs DBG_CTL_XCAS.reg kept })
  let s := if bitOf w 0 then s.haltRequest d else s
  let s := if bitOf w 1 then s.resume d else s
  let s := if bitOf w 2 then s.onDom d Domain.stepCores else s
  match d with
  | .ch n => if fget w 6 3 = 0 then s else s.onCh n (·.engineCtl w)
  | .host => s

/-- BREAKPOINT_HIT: an engine is about to execute the instruction at an enabled breakpoint, and the cores halt before it
(R533; log 32). -/
def State.breakpoint (s : State) (d : Dom) (k : Nat) : State :=
  let x := s.dom d
  let hits := allEngs.filter (fun e => x.runs e && decide ((x.core e).wait = .none) && x.atBreak e k)
  let note := fun (x : Domain) =>
    { x with dbg := { x.dbg with past := x.dbg.past ++ hits.map (fun e => (e, (x.core e).pc)) } }.setB (DBG_STAT_BPHIT.bit k) true
  if x.haltReady && !hits.isEmpty then (s.onDom d note).haltDom d 3 else s

/-- WATCHPOINT_HIT: a load or store that retired in this cycle is held against a watchpoint (R533). -/
def Domain.watchpointHit (d : Domain) (w : Nat) (store : Bool) (addr : Word) : Domain :=
  if d.cyc.accesses.contains (store, addr) then d.watchpoint w store addr else d

/-- WEIR_BREAKPOINT_HIT: Weir halts before it issues the slot. -/
def Channel.weirBreakpoint (c : Channel) : Channel :=
  match c.weir.nextReady with
  | some t =>
    c.when (!c.weir.halted && c.weirAtBreak t) fun c =>
      (({ c with weir := { c.weir with past := some (c.weir.th t).pc } }.setWeirHalt true).setB DBG_STAT_WBPHIT true)
  | none => c

/-- CASCADE_BREAKPOINT_HIT: Cascade halts before the address. -/
def Channel.casBreakpoint (c : Channel) : Channel :=
  match c.cas.run with
  | some r =>
    c.when (!c.cas.halted && c.casAtBreak r) fun c =>
      (({ c with cas := { c.cas with past := some r.pc } }.setCasHalt true).setB DBG_STAT_CBPHIT true)
  | none => c

/-! ## Authentication (R529) -/

/-- The key of a domain's port: the channel's safety password, or the host debug key. -/
def State.debugKeyOf (s : State) : Dom → Word
  | .ch n => (s.ch n).safe.password
  | .host => s.dev.debugKey

/-- A write to DBG_AUTH. -/
def Domain.authenticate (d : Domain) (right : Bool) : Domain :=
  if d.rgB DBG_STAT_LOCKOUT then d
  else if right then d.setB DBG_STAT_AUTH true
  else
    let d := d.count DBG_STAT_FAILCNT
    if 4 ≤ d.rgN DBG_STAT_FAILCNT then d.setB DBG_STAT_LOCKOUT true else d

def State.dbgAuth (s : State) (d : Dom) (key : Word) : State := s.onDom d (·.authenticate (key == s.debugKeyOf d))

/-! ## The four spaces (R530) -/

/-- What an access came to: refused with the reason of DBG_STAT.FLT, or done with the data read. -/
inductive Answer where
  | refused (flt : Nat)
  | done (data : Word) (s : State)

/-- The register key of an address of space 0 of a domain's port; the host port has no Weir or Cascade registers. -/
def dbgKey (host : Bool) (a : Nat) : Option Nat :=
  if a % 4 ≠ 0 ∨ (host ∧ 0x40 ≤ a) ∨ 0x1000 ≤ a then none
  else if (rowOf (0x200000 + a)).isSome then some (0x200000 + a) else none

/-- Space 0: the DBG registers. -/
def State.space0 (s : State) (d : Dom) (write : Bool) (a : Nat) (data : Word) : Answer :=
  match dbgKey (s.dom d).host a with
  | none => .refused 2
  | some k =>
    if write then
      .done 0 (if k = DBG_AUTH_KEY.reg then s.dbgAuth d data
        else if k = DBG_CTL_XCAS.reg then s.writeDbgCtl d data
        else match rowOf k with
          | some r => s.onDom d (fun x => x.writePlain r k data)
          | none => s)
    else if k = DBG_ID_ID.reg then .done (s.dom d).sysId s
    else if k = DBG_AUTH_KEY.reg then .done 0 s
    else .done (rget (s.dom d).regs k) s

/-- A debug store reaches memory: not journaled, and it ends other observers' reservations (R127, R530). -/
def Domain.debugStore (d : Domain) (a : Nat) (w : Word) : Domain :=
  { d with mem := memPutWord d.mem (d.memKey a) w }.dropRsv none a

def State.mapWrite (s : State) (d : Dom) (a : Word) (w : Word) : Option State :=
  let x := s.dom d
  match x.area a with
  | .sram | .nvm => if x.storeFails s.dev.inhibit a then none else some (s.setDom d (x.debugStore a.toNat w))
  | .windows => some (s.setDom d (x.writeProgram a.toNat 4 w))
  | .blocks => s.writeBlock d (x.regKey a.toNat) w
  | .channels => s.writeWindow a.toNat w
  | .code | .rom | .ring | .unmapped => none

def State.mapRead (s : State) (d : Dom) (a : Word) : Option (Word × State) :=
  let x := s.dom d
  match x.area a with
  | .code | .rom | .sram | .nvm =>
    some (BitVec.ofNat 32 (x.readMem a.toNat 4).1, s.setDom d (x.readMem a.toNat 4).2)
  | .windows => some (memWord x.mem a.toNat, s)
  | .blocks => s.readBlock d none (x.regKey a.toNat)
  | .channels => (s.readWindow a.toNat 4).map (fun v => (BitVec.ofNat 32 v, s))
  | .ring | .unmapped => none

/-- Space 1: the domain's address map without the ring window, at System level. -/
def State.space1 (s : State) (d : Dom) (write : Bool) (a : Word) (data : Word) : Answer :=
  if fget a 1 0 ≠ 0 then .refused 2
  else if write then
    match s.mapWrite d a data with
    | some t => .done 0 t
    | none => .refused 2
  else
    match s.mapRead d a with
    | some (v, t) => .done v t
    | none => .refused 2

/-- A core's access to the same word is on its way, and the debug access waits behind it (R530). -/
def Domain.ahead (d : Domain) (a : Word) : Bool :=
  allEngs.any fun e =>
    (d.core e).loads.any (fun l => overlaps a 4 l.addr l.size)
      || ((d.core e).stores ++ (d.core e).posted).any (fun q => overlaps a 4 q.addr q.size)

/-- An item of a Dziphor core; none for an item it does not have. -/
def Domain.coreRead (d : Domain) (e : Eng) (i : Nat) : Option Word :=
  if i < 0x20 then some ((d.core e).rd (BitVec.ofNat 5 i))
  else if i = 0x20 then some (d.core e).pc
  else if 0x100 ≤ i then d.csr e (i - 0x100) else none

def Domain.coreWrite (d : Domain) (e : Eng) (i : Nat) (w : Word) : Option Domain :=
  let x := d.core e
  if i < 0x20 then some (d.setCore e (x.wr (BitVec.ofNat 5 i) w))
  else if i = 0x20 then some (d.setCore e { x with pc := w })
  else if 0x100 ≤ i then (d.csr e (i - 0x100)).map (fun _ => d.setCore e (x.csrWrite (i - 0x100) w))
  else none

def threadOf : Nat → Thread
  | 0 => .t0 | 1 => .t1 | 2 => .t2 | _ => .t3

/-- A thread's program counter; a waiting thread stands at its wait. -/
def WThread.setPc (x : WThread) (pc : BitVec 13) : WThread :=
  { x with
    pc := pc
    st := match x.st with
      | .waiting w => .waiting { w with slot := pc }
      | .stopped => .stopped
      | .running => .running }

/-- An item of Weir: the threads' program counters and k0 to k3. -/
def Channel.weirRead (c : Channel) (i : Nat) : Option Word :=
  if i < 4 then some ((c.weir.th (threadOf i)).pc.setWidth 32)
  else if 0x10 ≤ i ∧ i < 0x14 then some (c.rg (WEIR_K_K (i - 0x10))) else none

def Channel.weirWrite (c : Channel) (i : Nat) (w : Word) : Option Channel :=
  if i < 4 then some (c.setTh (threadOf i) ((c.weir.th (threadOf i)).setPc (w.setWidth 13)))
  else if 0x10 ≤ i ∧ i < 0x14 then some (c.set (WEIR_K_K (i - 0x10)) w) else none

/-- A lane of a vector replaced. -/
def Vec.setLane (v : Vec) (i : Nat) (x : Int) : Vec := { v with m := lanes.map (fun j => if j = i then x else v.lane j) }

def Channel.setVec (c : Channel) (r : Nat) (f : Vec → Vec) : Channel :=
  c.setVr (BitVec.ofNat 4 r) (f (c.vr (BitVec.ofNat 4 r)))

def Channel.mapAcc (c : Channel) (a : Nat) (f : Vec → Vec) : Channel :=
  c.setAcc (BitVec.ofNat 2 a) (f (c.acc (BitVec.ofNat 2 a)))

/-- An item of Cascade: the program address, lanes and exponents of the vector registers and of the accumulators. -/
def Channel.casRead (c : Channel) (i : Nat) : Option Word :=
  if i = 0 then some (c.rg CAS_STAT_PC)
  else if 0x100 ≤ i ∧ i < 0x200 then some (wordOfInt ((c.vr (BitVec.ofNat 4 ((i - 0x100) / 16))).lane (i % 16)))
  else if 0x200 ≤ i ∧ i < 0x210 then some (wordOfInt (c.vr (BitVec.ofNat 4 (i - 0x200))).exp)
  else if 0x400 ≤ i ∧ i < 0x480 then
    let lane := (c.acc (BitVec.ofNat 2 ((i - 0x400) / 32))).lane (i % 32 / 2)
    some (if i % 2 = 0 then wordOfInt lane else wordOfInt (Int.emod (Int.fdiv lane 4294967296) 65536))
  else if 0x500 ≤ i ∧ i < 0x504 then some (wordOfInt (c.acc (BitVec.ofNat 2 (i - 0x500))).exp)
  else none

/-- An accumulator lane with its low 32 or its high 16 bits replaced. -/
def accLane (old : Int) (high : Bool) (w : Word) : Int :=
  let lo := (Int.emod old 4294967296).toNat
  let hi := (Int.emod (Int.fdiv old 4294967296) 65536).toNat
  sgn 48 (if high then (fget w 15 0).toNat * 4294967296 + lo else hi * 4294967296 + w.toNat)

def Channel.casWrite (c : Channel) (i : Nat) (w : Word) : Option Channel :=
  if i = 0 then
    some ({ c with cas := { c.cas with run := c.cas.run.map (fun (r : Run) => { r with pc := w.setWidth 14 }) } }.set CAS_STAT_PC
      (fget w 13 0))
  else if 0x100 ≤ i ∧ i < 0x200 then some (c.setVec ((i - 0x100) / 16) (·.setLane (i % 16) (wordM w)))
  else if 0x200 ≤ i ∧ i < 0x210 then some (c.setVec (i - 0x200) (fun v => { v with exp := sgn 8 w.toNat }))
  else if 0x400 ≤ i ∧ i < 0x480 then
    let j := i % 32 / 2
    some (c.mapAcc ((i - 0x400) / 32) (fun v => v.setLane j (accLane (v.lane j) (decide (i % 2 = 1)) w)))
  else if 0x500 ≤ i ∧ i < 0x504 then some (c.mapAcc (i - 0x500) (fun v => { v with exp := sgn 8 w.toNat }))
  else none

/-- Space 2 in a Dziphor core. -/
def State.coreItem (s : State) (d : Dom) (e : Eng) (write : Bool) (i : Nat) (data : Word) : Answer :=
  let x := s.dom d
  if !x.dbg.halted || x.dbg.stepping.contains e then .refused 3
  else if write then
    match x.coreWrite e i data with
    | some y => .done 0 (s.setDom d y)
    | none => .refused 2
  else
    match x.coreRead e i with
    | some v => .done v s
    | none => .refused 2

/-- Space 2 in a channel's Weir or Cascade. -/
def State.engineItem (s : State) (n : Chan) (cas write : Bool) (i : Nat) (data : Word) : Answer :=
  let c := s.ch n
  if !(if cas then c.cas.halted else c.weir.halted) then .refused 3
  else if write then
    match if cas then c.casWrite i data else c.weirWrite i data with
    | some c' => .done 0 (s.setCh n c')
    | none => .refused 2
  else
    match if cas then c.casRead i else c.weirRead i with
    | some v => .done v s
    | none => .refused 2

/-- Space 2: engine state of a halted engine. -/
def State.space2 (s : State) (d : Dom) (write : Bool) (a : Word) (data : Word) : Answer :=
  let i := (fget a 15 0).toNat / 4
  if fget a 1 0 ≠ 0 ∨ fget a 31 20 ≠ 0 then .refused 2
  else
    match (fget a 19 16).toNat, d with
    | 0, _ => s.coreItem d .e0 write i data
    | 1, _ => s.coreItem d .e1 write i data
    | 2, _ => s.coreItem d .e2 write i data
    | 3, .ch n => s.engineItem n false write i data
    | 4, .ch n => s.engineItem n true write i data
    | _, _ => .refused 2

/-- The memory key of a byte of the host NVM array: code bank A, code bank B, staging and log region (log 31). -/
def hostArrayKey (a : Nat) : Nat :=
  if a < 0x180000 then bankKey false a
  else if a < 0x300000 then bankKey true (a - 0x180000)
  else 0x20000000 + (a - 0x300000)

/-- Space 3: the host NVM array while the host's boot has failed. -/
def State.space3 (s : State) (d : Dom) (write : Bool) (a : Word) (data : Word) : Answer :=
  match d with
  | .ch _ => .refused 5
  | .host =>
    if s.host.dom.rgN BOOT_STAT_FAIL = 0 then .refused 5
    else if fget a 1 0 ≠ 0 ∨ 0x800000 ≤ a.toNat ∨ (write = true ∧ s.dev.inhibit = true) then .refused 2
    else if write then .done 0 { s with host := s.host.putWord (hostArrayKey a.toNat) data }
    else .done (s.host.word (hostArrayKey a.toNat)) s

/-- An access of the port, performed. -/
def State.debugAccess (s : State) (d : Dom) (write : Bool) (q : DebugReq) (data : Word) : Answer :=
  match q.space with
  | 0 => s.space0 d write q.addr.toNat data
  | 1 => s.space1 d write q.addr data
  | 2 => s.space2 d write q.addr data
  | _ => s.space3 d write q.addr data

/-! ## Transactions (R528) -/

/-- What the port answers: DONE 0x5 with data, BUSY 0x6, REFUSED 0x9 or nothing 0xF. -/
def Domain.respond (d : Domain) (code : BitVec 4) (data : Word) : Domain :=
  { d with dbg := { d.dbg with resp := code, data := data } }

/-- REFUSED, with the reason recorded. -/
def Domain.refuse (d : Domain) (flt : Nat) : Domain := (d.setN DBG_STAT_FLT flt).respond 9 0

/-- The present domain, whatever the access has done to it, gives the answer. -/
def State.reply (s : State) (d : Dom) (f : Domain → Domain) : State := s.setDom d (f (s.dom d))

def State.answerDebug (s : State) (d : Dom) : Answer → State
  | .refused flt => s.reply d (·.refuse flt)
  | .done v t => t.reply d (·.respond 5 v)

/-- Before authentication only DBG_ID and DBG_STAT can be read, and DBG_AUTH written (R529). -/
def openAccess (write : Bool) (q : DebugReq) : Bool :=
  q.space == 0 && (if write then q.addr == 4 else (q.addr == 0 || q.addr == 0xC))

/-- A request repeats a held access. -/
def HeldAccess.same (h : HeldAccess) (write : Bool) (q : DebugReq) (data : Word) : Bool :=
  h.write == write && h.req.space == q.space && h.req.tag == q.tag && h.req.addr == q.addr && (!write || h.data == data)

/-- The domain holds an access of this request past the response. -/
def State.holds (s : State) (d : Dom) (q : DebugReq) : Bool :=
  (q.space == 1 && (q.held || (s.dom d).ahead q.addr || (s.dom d).countBusy q.addr)) || (q.space == 3 && q.held)

/-- A request that no held access concerns. -/
def State.newRequest (s : State) (d : Dom) (write : Bool) (q : DebugReq) (data : Word) : State :=
  if !(s.dom d).rgB DBG_STAT_AUTH && !openAccess write q then s.reply d (·.refuse 1)
  else if s.holds d q then
    s.reply d (fun x => { x.respond 6 0 with dbg := { (x.respond 6 0).dbg with held := some ⟨q, write, data, none⟩ } })
  else s.answerDebug d (s.debugAccess d write q data)

def Domain.dropHeld (d : Domain) : Domain := { d with dbg := { d.dbg with held := none } }

/-- A transaction of a domain's port: DEBUG_READ and DEBUG_WRITE. -/
def State.transact (s : State) (d : Dom) (write : Bool) (q : DebugReq) (data : Word) : State :=
  let x := s.dom d
  if x.inReset then s
  else if !q.checkOk then s.reply d (fun x => (x.setN DBG_STAT_FLT 4).respond 0xF 0)
  else
    match x.dbg.held with
    | none => s.newRequest d write q data
    | some h =>
      match h.result, h.same write q data with
      | some (some v), true => s.reply d (fun x => x.dropHeld.respond 5 v)
      | some none, true => s.reply d (fun x => x.dropHeld.refuse 2)
      | some _, false => s.newRequest d write q data
      | none, _ => s.reply d (·.respond 6 0)

/-- A held access ends inside the domain. -/
def Domain.heldDone (d : Domain) (h : HeldAccess) (r : Option Word) : Domain :=
  { d with dbg := { d.dbg with held := some { h with result := some r } } }

/-- DEBUG_ACCESS_COMPLETE. -/
def State.accessComplete (s : State) (d : Dom) : State :=
  if (s.dom d).inReset then s
  else
    match (s.dom d).dbg.held with
    | none => s
    | some h =>
      if h.result.isSome || (h.req.space == 1 && ((s.dom d).ahead h.req.addr || (s.dom d).countBusy h.req.addr)) then s
      else
        match s.debugAccess d h.write h.req h.data with
        | .refused _ => s.reply d (·.heldDone h none)
        | .done v t => t.reply d (·.heldDone h (some v))

/-- DEBUG_PORT_ABORT: the transaction ends and nothing else changes; an idle line reads as no response. -/
def State.portAbort (s : State) (d : Dom) : State :=
  if (s.dom d).inReset then s else s.reply d (·.respond 0xF 0)

/-- A command of the port that needs authentication. -/
def State.withAuth (s : State) (d : Dom) (f : State → State) : State :=
  if (s.dom d).inReset || !(s.dom d).rgB DBG_STAT_AUTH then s else f s

/-! ## Boundary scan (R535) -/

/-- EXTEST: while the fuse is intact, groups A, B and D follow the scan register, whose levels are given. -/
def Dev.runExtest (d : Dev) (w : BitVec 120) : Dev := if d.tapInReset then d else { d with extest := some w }

/-- FUSEOFF blows the scan fuse. -/
def Dev.fuseoff (d : Dev) : Dev := { d with scanFuse := false, extest := none }

end Sys2Proof.Machine
end

