-- ==== Sys2Proof/Machine/Flags.lean ====
section
/-! DEFINITION. Flags.lean: the refusal and status words that software reads as flags and that no other file forms. A
Dziphor core has no condition flags (R116); the flags of a Cascade run are computed in Cascade.lean (R309, R322), those of a
commit in Commit.lean (R160). -/

namespace Sys2Proof.Machine

/-- The comparisons of R125 and R128 as truth values: signed and unsigned less-than. -/
def ltS (a b : Word) : Bool := a.slt b
def ltU (a b : Word) : Bool := a.ult b

/-- Signed and unsigned minimum and maximum (R125, R126). -/
def minS (a b : Word) : Word := if ltS b a then b else a
def maxS (a b : Word) : Word := if ltS a b then b else a
def minU (a b : Word) : Word := if ltU b a then b else a
def maxU (a b : Word) : Word := if ltU a b then b else a

end Sys2Proof.Machine
end

