-- ==== Sys2Proof/Machine/Operands.lean ====
section
/-! DEFINITION. Operands.lean: the arithmetic of the Dziphor integer instructions (R125), and how the operand masks and
shift amounts of an instruction are formed. -/

namespace Sys2Proof.Machine

/-- A sum or difference kept to the signed 32-bit range: ADDS and SUBS. -/
def satWord (x : Int) : Word := wordOfInt (satS 32 x)

/-- Bits [63:32] of a product: MULHI. -/
def highWord (x : Int) : Word := wordOfInt (Int.fdiv x 4294967296)

/-- Shifts by a five-bit amount. -/
def shlBy (a : Word) (n : BitVec 5) : Word := a <<< n.toNat
def shrBy (a : Word) (n : BitVec 5) : Word := a >>> n.toNat
def sarBy (a : Word) (n : BitVec 5) : Word := a.sshiftRight n.toNat

/-- The number of leading zeros, 0 to 32. -/
def leadingZeros (a : Word) : Word := if a = 0 then 32 else BitVec.ofNat 32 (31 - Nat.log2 a.toNat)

/-- DIVS: truncated towards zero; by zero, and −2^31 by −1, it saturates. -/
def divS (a b : Word) : Word :=
  if b = 0 then (if a.slt 0 then 0x80000000 else 0x7FFFFFFF)
  else if a = 0x80000000 ∧ b = 0xFFFFFFFF then 0x7FFFFFFF
  else wordOfInt (tdivZ a.toInt b.toInt)

/-- DIVU: by zero all ones. -/
def divU (a b : Word) : Word := if b = 0 then 0xFFFFFFFF else BitVec.ofNat 32 (a.toNat / b.toNat)

/-- MODS: the remainder has the sign of the dividend; by zero the dividend. -/
def modS (a b : Word) : Word := if b = 0 then a else wordOfInt (Int.tmod a.toInt b.toInt)

/-- MODU. -/
def modU (a b : Word) : Word := if b = 0 then a else BitVec.ofNat 32 (a.toNat % b.toNat)

/-- The mask of a FENCE that names M, and the classes D, P and N joined to it; likewise from D and from P on (R129, R144). -/
def maskM (others : BitVec 3) : BitVec 4 := others ++ (1 : BitVec 1)
def maskD (others : BitVec 2) : BitVec 4 := others ++ (2 : BitVec 2)
def maskP (others : BitVec 1) : BitVec 4 := others ++ (4 : BitVec 3)

end Sys2Proof.Machine
end

