-- ==== Sys2Proof/Machine/Entry.lean ====
section
/-! DEFINITION. Entry.lean: commands whose effect spans a domain and blocks beside it, and the conditions under which a
command comes about (log 2). -/

namespace Sys2Proof.Machine

/-- What a command answers. -/
abbrev Out := Host.Outcome State Fault Refusal

/-- A command that comes about only under a condition; otherwise nothing changes. -/
def State.when (s : State) (p : Bool) (f : State → State) : State := if p then f s else s
def Domain.when (d : Domain) (p : Bool) (f : Domain → Domain) : Domain := if p then f d else d

/-! ## Boot and clocks -/

/-- BOOT_PHASE_DONE in either kind of domain; a phase that writes NVM waits for the end of write-inhibit (R84, R108, R115). -/
def State.bootPhase (s : State) (d : Dom) (r : BootReport) : State :=
  let t := match d with
    | .ch n => s.onCh n (·.phaseDone r)
    | .host => s.onHost (fun h => { h with dom := h.dom.hostPhaseDone r })
  if s.dev.inhibit && (s.dom d).nvmWritten (t.dom d) then s else t

/-- The gate outputs that the live PWM plan enables; the host domain has none. -/
def State.gateMask (s : State) : Dom → Word
  | .ch n => (s.ch n).lv PWM_OEN_OEN
  | .host => 0

/-- CCLK falls back to the RC oscillator; a channel trips (R96). -/
def State.fallBack (s : State) (d : Dom) : State :=
  match d with
  | .ch n => s.onCh n Channel.fallBack
  | .host => s.onDom .host Domain.fallBack

/-- REFERENCE_LOST; with HOLD_MAX = 0 the fallback follows at once (R95, R96). -/
def State.referenceLost (s : State) (d : Dom) : State :=
  let falls := (s.dom d).lossFallsBack
  (s.onDom d Domain.referenceLost).when falls (·.fallBack d)

/-- A slow round in a domain; a change of band repeats the idle VCO's band search (R102, R441). -/
def Domain.round (d : Domain) (m : SlowRound) : Domain :=
  let d' := d.slowRound m
  d'.when (d'.rgN THM_STAT_BAND != d.rgN THM_STAT_BAND) Domain.bandChanged

/-- SLOW_ROUND: the round, the housekeeping conversions that follow, and the comparator test it starts (R266, R441, R451). -/
def State.slowRound (s : State) (d : Dom) (m : SlowRound) : State :=
  match d with
  | .ch n => s.onCh n (fun c => ((c.mapDom (·.round m)).hkRound m).cmpTestStart)
  | .host => s.onDom .host (·.round m)

/-! ## Commits and events -/

/-- PLAN.COMMIT on a channel core or a host core (R130, R175). -/
def State.planCommit (s : State) (k : At) (rd rs1 : GReg) (imm : BitVec 7) : State :=
  match k.d with
  | .ch n => s.onCh n (·.planCommit k.e k.f rd rs1 imm)
  | .host => s.onCore .host (·.hostPlanCommit k.e k.f rd rs1 imm)

/-- The host counters whose selector names an event count it as its domain delivers it (R527). -/
def State.countForHost (s : State) (d : Dom) (ev : BitVec 7) : State :=
  if s.host.dom.inReset then s
  else
    let num := 128 * (s.dom d).id + ev.toNat
    let one := fun (x : Domain) (j : Nat) => if x.rgN (HPERF_XSEL_NUM j) = num then x.bump (0x160 + j) 1 else x
    s.mapHost (fun x => (List.range 8).foldl one x)

/-- EVENT_DELIVERY: the domain, Weir, and the host's counters (R169, R196, R527). -/
def State.deliverEvent (s : State) (d : Dom) (ev : BitVec 7) : State :=
  let x := s.dom d
  if x.inReset || !x.admits ev.toNat then s
  else
    match x.oldest ev with
    | none => s
    | some e =>
      let s := s.setDom d (x.deliver e)
      let s := match d with
        | .ch n => s.setCh n { s.ch n with weir := (s.ch n).weir.mapTh (WThread.seeEvent ev e.stamp) }
        | .host => s
      s.countForHost d ev

/-! ## Sensing -/

/-- A filtered index pulse, counted as a signal by its mode: a rising and a falling edge, and a time at high level that no
command gives, a free value (R219, R521; log 82). -/
def Channel.encoderZ (c : Channel) : Channel :=
  let q := c.free 74
  (match c.dom.sigMode 75 with
    | 2 => c.bump 0xCB 2
    | 3 => q.2.bump 0xCB q.1.toNat
    | _ => c.bump 0xCB 1).encoderIndex

/-! ## Cascade -/

/-- A Cascade instruction with what its errors and its items tell PERF and SPR (R319, R454, R520). -/
def Channel.casStep (c : Channel) (f : CasFetch) (reads : Bool) (cycles : Nat) (item : Option Nat)
    (op : Channel → Run → CasOut) : Channel :=
  match c.issuing with
  | none => c
  | some r =>
      let c := match f with
        | .fetchEcc => c.mapDom (·.noteUncorrectable (0x50000000 + 4 * r.slot))
        | .dataEcc => if reads then c.mapDom (·.bump 0x151 1) else c
        | .good | .illegal => c
      let c := match item, f with
        | some j, .good => c.casItem r j cycles
        | _, _ => c
      c.casInstr f reads cycles op

/-- END with the fetch error that it may meet. -/
def Channel.casEnded (c : Channel) (f : CasFetch) : Channel :=
  match c.issuing with
  | none => c
  | some r =>
    if f = .fetchEcc then (c.mapDom (·.noteUncorrectable (0x50000000 + 4 * r.slot))).casEnd f
    else c.casEnd f

/-! ## Redundant execution -/

/-- CODE_CHECK_PASS: while CODECHK = 1 the CRC-32 of the image that the pass read is held against its header; `corrupt`
where what was read is not what memory was given (R407). -/
def Domain.codeCheck (d : Domain) (corrupt : Bool) : Domain :=
  let h := hdr d.mem d.host d.bank
  let ok := BitVec.ofNat 32 (h 3) == crc32 (memBytes d.mem (bankKey d.bank 0) (min (h 1) (headerAt d.host)))
  d.when (d.rgB LSC_CTL_CODECHK && (corrupt || !ok)) (fun d => (d.setB LSC_STAT_CODEERR true).lsDiag 3)

/-- LOCKSTEP_MISMATCH, once the cores have been released (R389). -/
def Domain.onMismatch (d : Domain) (g : Nat) : Domain :=
  d.when (d.mismatchable && !d.booting && decide (g ≤ 42)) (·.mismatch g)

/-- SELF_TEST_DONE, no sooner than R390 lets it. -/
def Domain.selfTestEnd (d : Domain) (m h : Bool) : Domain :=
  d.when (decide (d.phase = 1) && decide (d.lsc.m + 16002 ≤ d.time)) (·.selfTestDone m h)

/-- STATE_LOAD_DONE. -/
def Domain.stateLoadEnd (d : Domain) (equal : Bool) : Domain :=
  d.when (decide (d.phase = 2) && decide (d.lsc.due ≤ d.time)) (·.stateLoadDone equal)

/-- RESTORATION_DONE. An uncorrectable error in a log counts as an overflow: the restoration is not made (R391, R397,
R406). -/
def Domain.restorationEnd (d : Domain) (ecc : Bool) : Domain :=
  d.when (decide (d.phase = 3)) fun d =>
    if ecc then d.logOverflow.recoveryLost else d.when (decide (d.lsc.due ≤ d.time)) Domain.restorationDone

/-- The ring requests of an engine's accesses follow them to the engine that becomes main (R120). -/
def State.selfTestEnd (s : State) (dm : Dom) (m h : Bool) : State :=
  let x := s.dom dm
  let t := s.onDom dm (·.selfTestEnd m h)
  match x.main, (t.dom dm).main with
  | some a, some b =>
    if a = b then t
    else
      let move := fun (q : RingReq) =>
        if q.d = dm ∧ q.e = a then { q with e := b, seq := q.seq + (x.core b).seq } else q
      { t with host := t.host.setRing (fun r => { r with reqs := r.reqs.map move }) }
  | _, _ => t

end Sys2Proof.Machine
end

