-- ==== Sys2Proof/Machine/ExecAccess.lean ====
section
/-! DEFINITION. ExecAccess.lean: the meanings of the commands of one family. Memory instructions of a Dziphor core and the ends of its accesses (R126, R127, R132 to R134, R141). -/

namespace Sys2Proof.Machine

/-- LD_W (R126). -/
def execLdW (k : At) (rd rs1 : GReg) (imm : BitVec 16) (s : State) : Out :=
  .next (s.onCore k.d (·.load k.e k.f rd rs1 imm 4 false))

/-- LD_H (R126). -/
def execLdH (k : At) (rd rs1 : GReg) (imm : BitVec 16) (s : State) : Out :=
  .next (s.onCore k.d (·.load k.e k.f rd rs1 imm 2 true))

/-- LD_HU (R126). -/
def execLdHu (k : At) (rd rs1 : GReg) (imm : BitVec 16) (s : State) : Out :=
  .next (s.onCore k.d (·.load k.e k.f rd rs1 imm 2 false))

/-- LD_B (R126). -/
def execLdB (k : At) (rd rs1 : GReg) (imm : BitVec 16) (s : State) : Out :=
  .next (s.onCore k.d (·.load k.e k.f rd rs1 imm 1 true))

/-- LD_BU (R126). -/
def execLdBu (k : At) (rd rs1 : GReg) (imm : BitVec 16) (s : State) : Out :=
  .next (s.onCore k.d (·.load k.e k.f rd rs1 imm 1 false))

/-- ST_W (R126). -/
def execStW (k : At) (rs2 rs1 : GReg) (imm : BitVec 16) (s : State) : Out :=
  .next (s.onCore k.d (·.store k.e k.f s.dev.inhibit rs2 rs1 imm 4))

/-- ST_H (R126). -/
def execStH (k : At) (rs2 rs1 : GReg) (imm : BitVec 16) (s : State) : Out :=
  .next (s.onCore k.d (·.store k.e k.f s.dev.inhibit rs2 rs1 imm 2))

/-- ST_B (R126). -/
def execStB (k : At) (rs2 rs1 : GReg) (imm : BitVec 16) (s : State) : Out :=
  .next (s.onCore k.d (·.store k.e k.f s.dev.inhibit rs2 rs1 imm 1))

/-- LD_RSV (R127). -/
def execLdRsv (k : At) (rd rs1 : GReg) (ord : AtomOrder) (s : State) : Out :=
  .next (s.onCore k.d (·.ldRsv k.e k.f rd rs1 ord))

/-- ST_RSV (R127). -/
def execStRsv (k : At) (rd rs1 rs2 : GReg) (ord : AtomOrder) (s : State) : Out :=
  .next (s.onCore k.d (·.stRsv k.e k.f rd rs1 rs2 ord))

/-- ATM_SWAP (R126). -/
def execAtmSwap (k : At) (rd rs1 rs2 : GReg) (ord : AtomOrder) (s : State) : Out :=
  .next (s.onCore k.d (·.atm k.e k.f rd rs1 rs2 ord (fun _ b => b)))

/-- ATM_ADD (R126). -/
def execAtmAdd (k : At) (rd rs1 rs2 : GReg) (ord : AtomOrder) (s : State) : Out :=
  .next (s.onCore k.d (·.atm k.e k.f rd rs1 rs2 ord (fun a b => a + b)))

/-- ATM_AND (R126). -/
def execAtmAnd (k : At) (rd rs1 rs2 : GReg) (ord : AtomOrder) (s : State) : Out :=
  .next (s.onCore k.d (·.atm k.e k.f rd rs1 rs2 ord (fun a b => a &&& b)))

/-- ATM_OR (R126). -/
def execAtmOr (k : At) (rd rs1 rs2 : GReg) (ord : AtomOrder) (s : State) : Out :=
  .next (s.onCore k.d (·.atm k.e k.f rd rs1 rs2 ord (fun a b => a ||| b)))

/-- ATM_MAX (R126). -/
def execAtmMax (k : At) (rd rs1 rs2 : GReg) (ord : AtomOrder) (s : State) : Out :=
  .next (s.onCore k.d (·.atm k.e k.f rd rs1 rs2 ord maxS))

/-- ATM_MIN (R126). -/
def execAtmMin (k : At) (rd rs1 rs2 : GReg) (ord : AtomOrder) (s : State) : Out :=
  .next (s.onCore k.d (·.atm k.e k.f rd rs1 rs2 ord minS))

/-- LOAD_RESULT (R132). -/
def execLoadResult (d : Dom) (e : Eng) (i : Nat) (ecc : Ecc) (s : State) : Out := .next (s.loadResultAt d e i ecc)

/-- STORE_PERFORMED (R141). -/
def execStorePerformed (d : Dom) (e : Eng) (posted : Bool) (i : Nat) (ecc : Ecc) (s : State) : Out :=
  .next (s.storePerformedAt d e posted i ecc)

/-- POSTED_STORE_BUS_ERROR (R134). -/
def execPostedStoreBusError (d : Dom) (e : Eng) (s : State) : Out := .next (s.onCore d (·.postedError e))

end Sys2Proof.Machine
end

