-- ==== Sys2Proof/Machine/ExecBridge.lean ====
section
/-! DEFINITION. ExecBridge.lean: the meanings of the commands of one family. Bridge modulation and trips (R283 to R306). -/

namespace Sys2Proof.Machine

/-- PULSE_DECISION (R286). -/
def execPulseDecision (c : Chan) (leg : BitVec 3) (s : State) : Out := .next (s.onCh c (·.pulseDecision leg.toNat))

/-- COMPARE_FIRE (R283). -/
def execCompareFire (c : Chan) (leg : BitVec 3) (second : Bool) (s : State) : Out :=
  .next (s.onCh c (·.compareFire leg.toNat second))

/-- DEAD_TIME_END (R289). -/
def execDeadTimeEnd (c : Chan) (leg : BitVec 3) (s : State) : Out := .next (s.onCh c (·.deadTimeEnd leg.toNat))

/-- NODE_CROSSING (R290). -/
def execNodeCrossing (c : Chan) (leg : BitVec 3) (x : NodeLevel) (s : State) : Out :=
  .next (s.onCh c (·.nodeCrossing leg.toNat x.v x.tap.toNat))

/-- TRIP_INPUT_ASSERT (R371). -/
def execTripInputAssert (c : Chan) (m : BitVec 3) (s : State) : Out := .next (s.onBall c (·.tripAssert m.toNat))

/-- BLANKING_WINDOW_END (R296). -/
def execBlankingWindowEnd (c : Chan) (m : BitVec 3) (s : State) : Out := .next (s.onCh c (·.blankingEnd m.toNat))

/-- ASC_SWITCH_ON (R299). -/
def execAscSwitchOn (c : Chan) (x : BitVec 5) (s : State) : Out := .next (s.onCh c (·.ascSwitchOn x.toNat))

/-- SWTRIP (R295). -/
def execSwtrip (c : Chan) (w : Word) (s : State) : Out := .next (s.onCh c (·.when (bitOf w 1) (·.tripCmd w)))

/-- TRIP_CLEAR (R301). -/
def execTripClear (c : Chan) (w : Word) (s : State) : Out := .next (s.onCh c (·.when (bitOf w 0) (·.tripCmd w)))

/-- PWM_ERRCNT_CLEAR (R306). -/
def execPwmErrcntClear (c : Chan) (s : State) : Out := .next (s.onCh c (·.clearReg PWM_ERRCNT_NOTR.reg))

/-- TRIP_INPUT_RELEASE (R371). -/
def execTripInputRelease (c : Chan) (m : BitVec 3) (s : State) : Out := .next (s.onBall c (·.tripRelease m.toNat))

end Sys2Proof.Machine
end

