-- ==== Sys2Proof/Machine/ExecClock.lean ====
section
/-! DEFINITION. ExecClock.lean: the meanings of the commands of one family. The PLL and the reference (R93 to R107). -/

namespace Sys2Proof.Machine

/-- B3_REFERENCE_TIMEOUT (R108). -/
def execB3ReferenceTimeout (d : Dom) (s : State) : Out := .next (s.onDom d (·.b3Timeout))

/-- REFERENCE_LOST (R95). -/
def execReferenceLost (d : Dom) (s : State) : Out := .next (s.referenceLost d)

/-- REFERENCE_GOOD (R93). -/
def execReferenceGood (d : Dom) (s : State) : Out := .next (s.onDom d (·.referenceGood))

/-- HOLDOVER_EXPIRY (R96). -/
def execHoldoverExpiry (d : Dom) (s : State) : Out := .next (s.when ((s.dom d).rgB PLL_STAT_HOLD) (·.fallBack d))

/-- RC_FALLBACK_SWITCH (R96). -/
def execRcFallbackSwitch (d : Dom) (s : State) : Out := .next (s.when (s.dom d).bothVcosFailed (·.fallBack d))

/-- APPLY (R99). -/
def execApply (d : Dom) (w : Word) (fref : Nat) (s : State) : Out :=
  .next (s.when (bitOf w 1) (fun s => s.onDom d (·.writePllCtl (s.gateMask d) w fref)))

/-- RC_RETURN (R107). -/
def execRcReturn (d : Dom) (w : Word) (s : State) : Out :=
  .next (s.when (bitOf w 0) (fun s => s.onDom d (·.pllCtlFree (s.gateMask d) w)))

/-- PLL_BAND_SEARCH_DONE (R101). -/
def execPllBandSearchDone (d : Dom) (spare : Bool) (band : BitVec 6) (s : State) : Out :=
  .next (s.onDom d (·.bandSearchDone spare band))

/-- PLL_LOCK (R100). -/
def execPllLock (d : Dom) (s : State) : Out := .next (s.onDom d (·.pllLock))

/-- PLL_UNLOCK (R100). -/
def execPllUnlock (d : Dom) (s : State) : Out := .next (s.onDom d (·.pllUnlock))

/-- HOP (R101). -/
def execHop (d : Dom) (w : Word) (s : State) : Out :=
  .next (s.when (bitOf w 3) (fun s => s.onDom d (·.writeHop (s.gateMask d) w)))

/-- VCO_SWITCH_OVER (R102). -/
def execVcoSwitchOver (d : Dom) (s : State) : Out := .next (s.onDom d (·.autoSwitch))

/-- VCO_SWITCH_OVER_DONE (R102). -/
def execVcoSwitchOverDone (d : Dom) (locked : Bool) (s : State) : Out := .next (s.onDom d (·.switchDone locked))

/-- SYNC_EDGE (R104). -/
def execSyncEdge (c : Chan) (s : State) : Out := .next (s.onCh c (·.mapDom Domain.syncEdge))

end Sys2Proof.Machine
end

