-- ==== Sys2Proof/Machine/ExecControl.lean ====
section
/-! DEFINITION. ExecControl.lean: the meanings of the commands of one family. Cascade (R307 to R336). -/

namespace Sys2Proof.Machine

/-- CASCADE_START_REQUEST (R317). -/
def execCascadeStartRequest (c : Chan) (s : State) : Out := .next (s.onCh c (·.cascadeStart))

/-- CAS_CMD_START (R317). -/
def execCasCmdStart (c : Chan) (w : Word) (s : State) : Out := .next (s.onCh c (·.when (bitOf w 0) (·.casCmd w)))

/-- RCSET (R330). -/
def execRcset (c : Chan) (w : Word) (s : State) : Out := .next (s.onCh c (·.when (bitOf w 1) (·.casCmd w)))

/-- CAPARM (R333). -/
def execCaparm (c : Chan) (w : Word) (s : State) : Out := .next (s.onCh c (·.when (bitOf w 2) (·.casCmd w)))

/-- CAPSTOP (R333). -/
def execCapstop (c : Chan) (w : Word) (s : State) : Out := .next (s.onCh c (·.when (bitOf w 3) (·.casCmd w)))

/-- VLD (R325). -/
def execVld (k : CAt) (vd : VReg) (x : BitVec 14) (s : State) : Out :=
  .next (s.onCh k.c (·.casStep k.f true 2 none (Channel.opVld vd x)))

/-- VST (R325). -/
def execVst (k : CAt) (va : VReg) (x : BitVec 14) (s : State) : Out :=
  .next (s.onCh k.c (·.casStep k.f false 1 none (Channel.opVst va x)))

/-- VLDS (R325). -/
def execVlds (k : CAt) (vd : VReg) (x : BitVec 14) (s : State) : Out :=
  .next (s.onCh k.c (·.casStep k.f true 2 none (Channel.opVlds vd x)))

/-- LDR (R325). -/
def execLdr (k : CAt) (vd : VReg) (x : BitVec 14) (s : State) : Out :=
  .next (s.onCh k.c (·.casStep k.f false 4 none (Channel.opLdr vd x)))

/-- LDA (R325). -/
def execLda (k : CAt) (vd : VReg) (x : BitVec 14) (s : State) : Out :=
  .next (s.onCh k.c (·.casStep k.f false 2 none (Channel.opLda vd x)))

/-- LDREF (R325). -/
def execLdref (k : CAt) (vd : VReg) (x : BitVec 14) (s : State) : Out :=
  .next (s.onCh k.c (·.casStep k.f false 2 none (Channel.opLdref vd x)))

/-- MOV (R325). -/
def execMov (k : CAt) (vd va : VReg) (s : State) : Out :=
  .next (s.onCh k.c (·.casStep k.f false 1 none (Channel.opMov vd va)))

/-- SPLAT (R325). -/
def execSplat (k : CAt) (vd va : VReg) (x : BitVec 14) (s : State) : Out :=
  .next (s.onCh k.c (·.casStep k.f false 1 none (Channel.opSplat vd va x)))

/-- PERM (R325). -/
def execPerm (k : CAt) (vd va : VReg) (x : BitVec 14) (s : State) : Out :=
  .next (s.onCh k.c (·.casStep k.f true 2 none (Channel.opPerm vd va x)))

/-- SETE (R325). -/
def execSete (k : CAt) (vd : VReg) (x : BitVec 14) (s : State) : Out :=
  .next (s.onCh k.c (·.casStep k.f false 1 none (Channel.opSete vd x)))

/-- VADD (R325). -/
def execVadd (k : CAt) (vd va vb : VReg) (s : State) : Out :=
  .next (s.onCh k.c (·.casStep k.f false 1 none (Channel.opPair Dy.add vd va vb)))

/-- VSUB (R325). -/
def execVsub (k : CAt) (vd va vb : VReg) (s : State) : Out :=
  .next (s.onCh k.c (·.casStep k.f false 1 none (Channel.opPair Dy.sub vd va vb)))

/-- VADDW (R325). -/
def execVaddw (k : CAt) (vd va vb : VReg) (s : State) : Out :=
  .next (s.onCh k.c (·.casStep k.f false 1 none (Channel.opVaddw vd va vb)))

/-- VMUL (R325). -/
def execVmul (k : CAt) (vd va vb : VReg) (s : State) : Out :=
  .next (s.onCh k.c (·.casStep k.f false 1 none (Channel.opVmul vd va vb)))

/-- VNEG (R325). -/
def execVneg (k : CAt) (vd va : VReg) (s : State) : Out :=
  .next (s.onCh k.c (·.casStep k.f false 1 none (Channel.opMap Dy.neg vd va)))

/-- VABS (R325). -/
def execVabs (k : CAt) (vd va : VReg) (s : State) : Out :=
  .next (s.onCh k.c (·.casStep k.f false 1 none (Channel.opMap Dy.abs vd va)))

/-- VMIN (R325). -/
def execVmin (k : CAt) (vd va vb : VReg) (s : State) : Out :=
  .next (s.onCh k.c (·.casStep k.f false 1 none (Channel.opPair Dy.min vd va vb)))

/-- VMAX (R325). -/
def execVmax (k : CAt) (vd va vb : VReg) (s : State) : Out :=
  .next (s.onCh k.c (·.casStep k.f false 1 none (Channel.opPair Dy.max vd va vb)))

/-- VMAC (R325). -/
def execVmac (k : CAt) (ac : BitVec 2) (va vb : VReg) (s : State) : Out :=
  .next (s.onCh k.c (·.casStep k.f false 1 (some 3) (Channel.opVmac ac va vb)))

/-- ACLR (R325). -/
def execAclr (k : CAt) (ac : BitVec 2) (x : BitVec 14) (s : State) : Out :=
  .next (s.onCh k.c (·.casStep k.f false 1 none (Channel.opAclr ac x)))

/-- ACCR (R325). -/
def execAccr (k : CAt) (vd : VReg) (ac : BitVec 2) (s : State) : Out :=
  .next (s.onCh k.c (·.casStep k.f false 2 none (Channel.opAccr vd ac)))

/-- NORM (R325). -/
def execNorm (k : CAt) (vd va : VReg) (s : State) : Out :=
  .next (s.onCh k.c (·.casStep k.f false 1 none (Channel.opNorm vd va)))

/-- NORMX (R325). -/
def execNormx (k : CAt) (vd va : VReg) (x : BitVec 14) (s : State) : Out :=
  .next (s.onCh k.c (·.casStep k.f false 1 none (Channel.opNormx vd va x)))

/-- TST (R325). -/
def execTst (k : CAt) (va : VReg) (x : BitVec 14) (s : State) : Out :=
  .next (s.onCh k.c (·.casStep k.f false 1 none (Channel.opTst va x)))

/-- CLARKE (R326). -/
def execClarke (k : CAt) (vd va : VReg) (s : State) : Out :=
  .next (s.onCh k.c (·.casStep k.f false 2 none (Channel.opClarke vd va)))

/-- ICLARKE (R326). -/
def execIclarke (k : CAt) (vd va : VReg) (s : State) : Out :=
  .next (s.onCh k.c (·.casStep k.f false 2 none (Channel.opIclarke vd va)))

/-- PARK (R326). -/
def execPark (k : CAt) (vd va vb : VReg) (s : State) : Out :=
  .next (s.onCh k.c (·.casStep k.f false 2 none (Channel.opPark vd va vb)))

/-- IPARK (R326). -/
def execIpark (k : CAt) (vd va vb : VReg) (s : State) : Out :=
  .next (s.onCh k.c (·.casStep k.f false 2 none (Channel.opIpark vd va vb)))

/-- SINCOS (R326). -/
def execSincos (k : CAt) (vd va : VReg) (s : State) : Out :=
  .next (s.onCh k.c (·.casStep k.f false 6 none (Channel.opSincos vd va)))

/-- PI (R326). -/
def execPi (k : CAt) (vd va vb : VReg) (x : BitVec 14) (s : State) : Out :=
  .next (s.onCh k.c (·.casStep k.f true 6 none (Channel.opPi vd va vb x)))

/-- TINT (R327). -/
def execTint (k : CAt) (vd va : VReg) (x : BitVec 14) (s : State) : Out :=
  .next (s.onCh k.c (·.casStep k.f true 4 none (Channel.opTint vd va x)))

/-- RCL (R330). -/
def execRcl (k : CAt) (vd va : VReg) (s : State) : Out :=
  .next (s.onCh k.c (·.casStep k.f true 3 none (Channel.opRcl vd va)))

/-- RCR (R330). -/
def execRcr (k : CAt) (vd : VReg) (s : State) : Out := .next (s.onCh k.c (·.casStep k.f true 2 none (Channel.opRcr vd)))

/-- INJ (R332). -/
def execInj (k : CAt) (vd va : VReg) (x : BitVec 14) (s : State) : Out :=
  .next (s.onCh k.c (·.casStep k.f false 1 none (Channel.opInj vd va x)))

/-- OUT (R328). -/
def execOut (k : CAt) (va : VReg) (s : State) : Out :=
  .next (s.onCh k.c (·.casStep k.f false 1 (some 4) (Channel.opOut va)))

/-- CAP (R333). -/
def execCap (k : CAt) (va : VReg) (s : State) : Out :=
  .next (s.onCh k.c (·.casStep k.f false 1 none (Channel.opCap va)))

/-- PUTPOS (R329). -/
def execPutpos (k : CAt) (va : VReg) (x : BitVec 14) (s : State) : Out :=
  .next (s.onCh k.c (·.casStep k.f false 1 none (Channel.opPutpos va x)))

/-- CAS_SIG (R326). -/
def execCasSig (k : CAt) (x : BitVec 14) (s : State) : Out :=
  .next (s.onCh k.c (·.casStep k.f false 1 none (Channel.opSig x)))

/-- CAS_BR (R322). -/
def execCasBr (k : CAt) (cond : BitVec 4) (x : BitVec 14) (s : State) : Out :=
  .next (s.onCh k.c (·.casStep k.f false 1 none (Channel.opBr cond x)))

/-- NOP (R326). -/
def execNop (k : CAt) (s : State) : Out := .next (s.onCh k.c (·.casStep k.f false 1 none (fun c r => .go c r)))

/-- CAS_END (R318). -/
def execCasEnd (k : CAt) (s : State) : Out := .next (s.onCh k.c (·.casEnded k.f))

/-- RUNMAX_EXPIRY (R319). -/
def execRunmaxExpiry (c : Chan) (s : State) : Out := .next (s.onCh c (·.runmaxExpiry))

/-- BIN_ADVANCE (R330). -/
def execBinAdvance (c : Chan) (s : State) : Out := .next (s.onCh c (·.binAdvance))

/-- INJECTION_STEP (R331). -/
def execInjectionStep (c : Chan) (s : State) : Out := .next (s.onCh c (·.injectionStep))

/-- CAPTURE_TRIGGER (R333). -/
def execCaptureTrigger (c : Chan) (s : State) : Out := .next (s.onCh c (·.captureTrigger))

/-- CAPD23_READ (R333). -/
def execCapd23Read (c : Chan) (s : State) : Out := .next (s.readFor (.ch c) none CAS_CAPD23_S2.reg)

/-- RUNPK_CLEAR (R336). -/
def execRunpkClear (c : Chan) (s : State) : Out := .next (s.onCh c (·.mapDom (·.clearKey CAS_RUNPK_PEAK.reg)))

end Sys2Proof.Machine
end

