-- ==== Sys2Proof/Machine/ExecDrive.lean ====
section
/-! DEFINITION. ExecDrive.lean: the meanings of the commands of one family. The motor supervisor (R337 to R363). -/

namespace Sys2Proof.Machine

/-- RUNREQ (R345). -/
def execRunreq (c : Chan) (w : Word) (s : State) : Out :=
  .next (s.onCh c (·.when (bitOf w CAS_MSCMD_RUNREQ.lo) (·.msCmd w)))

/-- STOPREQ (R345). -/
def execStopreq (c : Chan) (w : Word) (s : State) : Out :=
  .next (s.onCh c (·.when (bitOf w CAS_MSCMD_STOPREQ.lo) (·.msCmd w)))

/-- REQFWD (R348). -/
def execReqfwd (c : Chan) (w : Word) (s : State) : Out :=
  .next (s.onCh c (·.when (bitOf w CAS_MSCMD_REQFWD.lo) (·.msCmd w)))

/-- REQREV (R348). -/
def execReqrev (c : Chan) (w : Word) (s : State) : Out :=
  .next (s.onCh c (·.when (bitOf w CAS_MSCMD_REQREV.lo) (·.msCmd w)))

/-- LLACK (R354). -/
def execLlack (c : Chan) (w : Word) (s : State) : Out :=
  .next (s.onCh c (·.when (bitOf w CAS_MSCMD_LLACK.lo) (·.msCmd w)))

/-- LOCKED_ROTOR_DETECT (R349). -/
def execLockedRotorDetect (c : Chan) (s : State) : Out := .next (s.onCh c (·.lockedRotor))

/-- LINK_HOLD_EXPIRY (R354). -/
def execLinkHoldExpiry (c : Chan) (s : State) : Out := .next (s.onCh c (·.linkHoldExpiry))

/-- CATCH_END (R344). -/
def execCatchEnd (c : Chan) (s : State) : Out := .next (s.onCh c (·.catchEnd))

/-- COAST_EXPIRY (R344). -/
def execCoastExpiry (c : Chan) (s : State) : Out := .next (s.onCh c (·.coastExpiry))

/-- CASCADE_WATCHDOG_EXPIRY (R355). -/
def execCascadeWatchdogExpiry (c : Chan) (s : State) : Out := .next (s.onCh c (·.cascadeWatchdog))

/-- MSCNT_CLEAR (R363). -/
def execMscntClear (c : Chan) (s : State) : Out := .next (s.onCh c (·.mapDom (·.clearKey CAS_MSCNT_LOCKED.reg)))

end Sys2Proof.Machine
end

