-- ==== Sys2Proof/Machine/ExecFlow.lean ====
section
/-! DEFINITION. ExecFlow.lean: the meanings of the commands of one family. Control transfer, system instructions, CSRs and fences (R128, R129, R121, R144). -/

namespace Sys2Proof.Machine

/-- BR_EQ (R128). -/
def execBrEq (k : At) (rs1 rs2 : GReg) (off : BitVec 16) (s : State) : Out :=
  .next (s.onCore k.d (·.branch k.e k.f rs1 rs2 off (fun a b => a == b)))

/-- BR_NE (R128). -/
def execBrNe (k : At) (rs1 rs2 : GReg) (off : BitVec 16) (s : State) : Out :=
  .next (s.onCore k.d (·.branch k.e k.f rs1 rs2 off (fun a b => a != b)))

/-- BR_LT (R128). -/
def execBrLt (k : At) (rs1 rs2 : GReg) (off : BitVec 16) (s : State) : Out :=
  .next (s.onCore k.d (·.branch k.e k.f rs1 rs2 off ltS))

/-- BR_GE (R128). -/
def execBrGe (k : At) (rs1 rs2 : GReg) (off : BitVec 16) (s : State) : Out :=
  .next (s.onCore k.d (·.branch k.e k.f rs1 rs2 off (fun a b => !ltS a b)))

/-- BR_LTU (R128). -/
def execBrLtu (k : At) (rs1 rs2 : GReg) (off : BitVec 16) (s : State) : Out :=
  .next (s.onCore k.d (·.branch k.e k.f rs1 rs2 off ltU))

/-- BR_GEU (R128). -/
def execBrGeu (k : At) (rs1 rs2 : GReg) (off : BitVec 16) (s : State) : Out :=
  .next (s.onCore k.d (·.branch k.e k.f rs1 rs2 off (fun a b => !ltU a b)))

/-- CALL (R128). -/
def execCall (k : At) (rd : GReg) (off : BitVec 21) (s : State) : Out := .next (s.onCore k.d (·.call k.e k.f rd off))

/-- CALLR (R128). -/
def execCallr (k : At) (rd rs1 : GReg) (imm : BitVec 16) (s : State) : Out :=
  .next (s.onCore k.d (·.callr k.e k.f rd rs1 imm))

/-- SYSREQ (R129). -/
def execSysreq (k : At) (s : State) : Out := .next (s.onCore k.d (·.sysreq k.e k.f))

/-- DBGBRK (R129). -/
def execDbgbrk (k : At) (s : State) : Out := .next (s.onCore k.d (·.dbgbrk k.e k.f))

/-- RETM (R135). -/
def execRetm (k : At) (s : State) : Out := .next (s.onCore k.d (·.returnBy k.e k.f Core.retm))

/-- RETN (R136). -/
def execRetn (k : At) (s : State) : Out := .next (s.onCore k.d (·.returnBy k.e k.f Core.retn))

/-- IDLE (R129). -/
def execIdle (k : At) (s : State) : Out := .next (s.onCore k.d (·.idle k.e k.f))

/-- IDLE_WAKE (R129). -/
def execIdleWake (d : Dom) (e : Eng) (s : State) : Out := .next (s.onCore d (·.idleWake e))

/-- CTL_SWAP (R121). -/
def execCtlSwap (k : At) (rd rs1 : GReg) (csr : BitVec 12) (s : State) : Out :=
  .next (s.onCore k.d (·.ctl k.e k.f rd rs1 csr true (fun _ v => v)))

/-- CTL_SET (R121). -/
def execCtlSet (k : At) (rd rs1 : GReg) (csr : BitVec 12) (s : State) : Out :=
  .next (s.onCore k.d (·.ctl k.e k.f rd rs1 csr (rs1 != 0) (fun old v => old ||| v)))

/-- CTL_CLR (R121). -/
def execCtlClr (k : At) (rd rs1 : GReg) (csr : BitVec 12) (s : State) : Out :=
  .next (s.onCore k.d (·.ctl k.e k.f rd rs1 csr (rs1 != 0) (fun old v => old &&& ~~~v)))

/-- FENCE_M (R144). -/
def execFenceM (k : At) (others : BitVec 3) (s : State) : Out := .next (s.onCore k.d (·.fence k.e k.f (maskM others)))

/-- FENCE_D (R144). -/
def execFenceD (k : At) (others : BitVec 2) (s : State) : Out := .next (s.onCore k.d (·.fence k.e k.f (maskD others)))

/-- FENCE_P (R144). -/
def execFenceP (k : At) (others : BitVec 1) (s : State) : Out := .next (s.onCore k.d (·.fence k.e k.f (maskP others)))

/-- FENCE_N (R144). -/
def execFenceN (k : At) (s : State) : Out := .next (s.onCore k.d (·.fence k.e k.f 8))

/-- FENCE_ALL (R144). -/
def execFenceAll (k : At) (s : State) : Out := .next (s.onCore k.d (·.fence k.e k.f 15))

/-- FENCE_RETIRE (R144). -/
def execFenceRetire (d : Dom) (e : Eng) (s : State) : Out := .next (s.onCore d (·.fenceRetire e))

end Sys2Proof.Machine
end

