-- ==== Sys2Proof/Machine/ExecGate.lean ====
section
/-! DEFINITION. ExecGate.lean: the meanings of the commands of one family. Gate interface and power stage (R364 to R383). -/

namespace Sys2Proof.Machine

/-- THREE_PIN_MODE_ENTRY (R365). -/
def execThreePinModeEntry (c : Chan) (s : State) : Out := .next (s.onBall c (·.threePinEntry))

/-- THREE_PIN_MODE_EXIT (R368). -/
def execThreePinModeExit (c : Chan) (s : State) : Out := .next (s.onBall c (·.threePinExit))

/-- GIN_CODE_ACCEPT (R366). -/
def execGinCodeAccept (c : Chan) (code : BitVec 3) (s : State) : Out := .next (s.onBall c (·.ginAccept code))

/-- GIN_DWELL_END (R366). -/
def execGinDwellEnd (c : Chan) (s : State) : Out := .next (s.onCh c (·.ginDwellEnd))

/-- GATE_FAULT_LATCH (R369). -/
def execGateFaultLatch (c : Chan) (x : BitVec 5) (s : State) : Out := .next (s.onBall c (·.gateFault x.toNat))

/-- OVERVOLTAGE_STAGE2 (R372). -/
def execOvervoltageStage2 (x : VdcLevel) (s : State) : Out := .next (s.onCh x.ch (·.overvoltage2 x.v))

/-- BRAKE_STAGE1_ON (R375). -/
def execBrakeStage1On (x : VdcLevel) (s : State) : Out := .next (s.onCh x.ch (·.vdcInput x.v))

/-- BRAKE_STAGE1_OFF (R375). -/
def execBrakeStage1Off (x : VdcLevel) (s : State) : Out := .next (s.onCh x.ch (·.vdcInput x.v))

/-- BRAKE_INTERVAL_END (R375). -/
def execBrakeIntervalEnd (c : Chan) (s : State) : Out := .next (s.onCh c (·.brakeIntervalEnd))

/-- DSTART (R377). -/
def execDstart (c : Chan) (w : Word) (s : State) : Out := .next (s.onCh c (·.when (bitOf w 1) (·.gdiCmd w)))

/-- DSTOP (R378). -/
def execDstop (c : Chan) (w : Word) (s : State) : Out := .next (s.onCh c (·.when (bitOf w 2) (·.gdiCmd w)))

/-- DISCHARGE_FEEDBACK (R378). -/
def execDischargeFeedback (c : Chan) (active : Bool) (s : State) : Out := .next (s.onBall c (·.dischargeFeedback active))

/-- DISCHARGE_FEEDBACK_TIMEOUT (R378). -/
def execDischargeFeedbackTimeout (c : Chan) (s : State) : Out := .next (s.onCh c (·.dischargeFeedbackTimeout))

/-- DISCHARGE_VOLTAGE_CHANGE (R378). -/
def execDischargeVoltageChange (c : Chan) (v : Int) (s : State) : Out := .next (s.onCh c (·.dischargeVoltage v))

/-- DISCHARGE_VOLTAGE_TIMEOUT (R378). -/
def execDischargeVoltageTimeout (c : Chan) (s : State) : Out := .next (s.onCh c (·.dischargeVoltageTimeout))

/-- DISCHARGE_MAX_EXPIRY (R378). -/
def execDischargeMaxExpiry (c : Chan) (s : State) : Out := .next (s.onCh c (·.dischargeMax))

/-- BOOTSTRAP_CHARGE_ENTRY (R381). -/
def execBootstrapChargeEntry (c : Chan) (leg : BitVec 3) (s : State) : Out :=
  .next (s.onCh c (·.bootstrapCharge leg.toNat))

/-- GDI_ERRCNT_CLEAR (R383). -/
def execGdiErrcntClear (c : Chan) (s : State) : Out := .next (s.onCh c (·.clearReg GDI_ERRCNT_OV1.reg))

/-- OVERVOLTAGE_STAGE2_RELEASE (R372). -/
def execOvervoltageStage2Release (x : VdcLevel) (s : State) : Out := .next (s.onCh x.ch (·.vdcInput x.v))

/-- GATE_FAULT_REPORT_RELEASE (R369). -/
def execGateFaultReportRelease (c : Chan) (x : BitVec 5) (s : State) : Out :=
  .next (s.onBall c (·.gateFaultRelease x.toNat))

/-- BOOTSTRAP_REPORT_CHANGE (R381). -/
def execBootstrapReportChange (c : Chan) (leg : BitVec 3) (active : Bool) (s : State) : Out :=
  .next (s.onBall c (·.bootReport leg.toNat active))

end Sys2Proof.Machine
end

