-- ==== Sys2Proof/Machine/ExecHeat.lean ====
section
/-! DEFINITION. ExecHeat.lean: the meanings of the commands of one family. Heat, wear and spares (R441 to R464). -/

namespace Sys2Proof.Machine

/-- THERMAL_SHUTDOWN (R446). -/
def execThermalShutdown (d : Dom) (sensor : BitVec 2) (s : State) : Out := .next (s.thermalShutdown d sensor.toNat)

/-- THERMAL_RESTART (R447). -/
def execThermalRestart (d : Dom) (s : State) : Out := .next (s.thermalRestart d)

/-- SDCLR (R447). -/
def execSdclr (d : Dom) (w : Word) (s : State) : Out := .next (s.onDom d (·.when (bitOf w 8) (·.writeSdcfg w)))

/-- OUTPUT_STAGE_FAULT (R450). -/
def execOutputStageFault (c : Chan) (x : BitVec 5) (s : State) : Out := .next (s.onCh c (·.stageFault x.toNat))

/-- OUTPUT_STAGE_CHANGE (R450). -/
def execOutputStageChange (c : Chan) (x : BitVec 5) (s : State) : Out := .next (s.onCh c (·.outputStageChange x.toNat))

/-- COMPARATOR_TEST_DONE (R451). -/
def execComparatorTestDone (c : Chan) (offset : BitVec 16) (found : Bool) (s : State) : Out :=
  .next (s.onCh c (·.cmpTestDone offset found))

/-- ROW_REPAIR_DONE (R454). -/
def execRowRepairDone (d : Dom) (m : RowMem) (row : Nat) (s : State) : Out :=
  .next (s.onDom d (·.rowRepairDone (RowMem.idx m) row))

/-- MARGIN_READ_PASS (R455). -/
def execMarginReadPass (d : Dom) (failing : List Nat) (s : State) : Out := .next (s.onDom d (·.marginPass failing))

/-- LIVE_BANK_PARITY_ERROR (R456). -/
def execLiveBankParityError (c : Chan) (x : ParityLoss) (s : State) : Out :=
  .next (s.onCh c (·.bankParity x.block x.off.toNat x.plan x.v))

/-- WEAR_RECORD_SAVE (R459). -/
def execWearRecordSave (d : Dom) (ok : Bool) (s : State) : Out := .next (s.onDom d (·.trySave s.dev.inhibit ok))

/-- SPR_CHANGE_STAGE (R450). -/
def execSprChangeStage (c : Chan) (w : Word) (s : State) : Out :=
  .next (s.onCh c (·.mapDom (·.when (fget w 10 8 == 1) (·.sprCmd s.dev.inhibit w))))

/-- SPR_SPARE_CELL (R464). -/
def execSprSpareCell (c : Chan) (w : Word) (s : State) : Out :=
  .next (s.onCh c (·.mapDom (·.when (fget w 10 8 == 2) (·.sprCmd s.dev.inhibit w))))

/-- SPR_SAVE_RECORD (R459). -/
def execSprSaveRecord (d : Dom) (w : Word) (s : State) : Out :=
  .next (s.onDom d (·.when (fget w 10 8 == 3) (·.sprCmd s.dev.inhibit w)))

end Sys2Proof.Machine
end

