-- ==== Sys2Proof/Machine/ExecInteger.lean ====
section
/-! DEFINITION. ExecInteger.lean: the meanings of the commands of one family. Integer instructions of a Dziphor core (R125). -/

namespace Sys2Proof.Machine

/-- ADD (R125). -/
def execAdd (k : At) (rd rs1 rs2 : GReg) (s : State) : Out :=
  .next (s.onCore k.d (·.rrr k.e k.f rd rs1 rs2 (fun a b => a + b)))

/-- SUB (R125). -/
def execSub (k : At) (rd rs1 rs2 : GReg) (s : State) : Out :=
  .next (s.onCore k.d (·.rrr k.e k.f rd rs1 rs2 (fun a b => a - b)))

/-- AND (R125). -/
def execBAnd (k : At) (rd rs1 rs2 : GReg) (s : State) : Out :=
  .next (s.onCore k.d (·.rrr k.e k.f rd rs1 rs2 (fun a b => a &&& b)))

/-- OR (R125). -/
def execBOr (k : At) (rd rs1 rs2 : GReg) (s : State) : Out :=
  .next (s.onCore k.d (·.rrr k.e k.f rd rs1 rs2 (fun a b => a ||| b)))

/-- XOR (R125). -/
def execBXor (k : At) (rd rs1 rs2 : GReg) (s : State) : Out :=
  .next (s.onCore k.d (·.rrr k.e k.f rd rs1 rs2 (fun a b => a ^^^ b)))

/-- SHL (R125). -/
def execShl (k : At) (rd rs1 rs2 : GReg) (s : State) : Out :=
  .next (s.onCore k.d (·.rrr k.e k.f rd rs1 rs2 (fun a b => shlBy a (b.setWidth 5))))

/-- SHR (R125). -/
def execShr (k : At) (rd rs1 rs2 : GReg) (s : State) : Out :=
  .next (s.onCore k.d (·.rrr k.e k.f rd rs1 rs2 (fun a b => shrBy a (b.setWidth 5))))

/-- SAR (R125). -/
def execSar (k : At) (rd rs1 rs2 : GReg) (s : State) : Out :=
  .next (s.onCore k.d (·.rrr k.e k.f rd rs1 rs2 (fun a b => sarBy a (b.setWidth 5))))

/-- SETLT (R125). -/
def execSetlt (k : At) (rd rs1 rs2 : GReg) (s : State) : Out :=
  .next (s.onCore k.d (·.rrr k.e k.f rd rs1 rs2 (fun a b => ofB (ltS a b))))

/-- SETLTU (R125). -/
def execSetltu (k : At) (rd rs1 rs2 : GReg) (s : State) : Out :=
  .next (s.onCore k.d (·.rrr k.e k.f rd rs1 rs2 (fun a b => ofB (ltU a b))))

/-- MIN (R125). -/
def execMin (k : At) (rd rs1 rs2 : GReg) (s : State) : Out := .next (s.onCore k.d (·.rrr k.e k.f rd rs1 rs2 minS))

/-- MAX (R125). -/
def execMax (k : At) (rd rs1 rs2 : GReg) (s : State) : Out := .next (s.onCore k.d (·.rrr k.e k.f rd rs1 rs2 maxS))

/-- MINU (R125). -/
def execMinu (k : At) (rd rs1 rs2 : GReg) (s : State) : Out := .next (s.onCore k.d (·.rrr k.e k.f rd rs1 rs2 minU))

/-- MAXU (R125). -/
def execMaxu (k : At) (rd rs1 rs2 : GReg) (s : State) : Out := .next (s.onCore k.d (·.rrr k.e k.f rd rs1 rs2 maxU))

/-- ADDS (R125). -/
def execAdds (k : At) (rd rs1 rs2 : GReg) (s : State) : Out :=
  .next (s.onCore k.d (·.rrr k.e k.f rd rs1 rs2 (fun a b => satWord (a.toInt + b.toInt))))

/-- SUBS (R125). -/
def execSubs (k : At) (rd rs1 rs2 : GReg) (s : State) : Out :=
  .next (s.onCore k.d (·.rrr k.e k.f rd rs1 rs2 (fun a b => satWord (a.toInt - b.toInt))))

/-- MUL (R125). -/
def execMul (k : At) (rd rs1 rs2 : GReg) (s : State) : Out :=
  .next (s.onCore k.d (·.rrr k.e k.f rd rs1 rs2 (fun a b => a * b)))

/-- MULHI_SS (R125). -/
def execMulhiSs (k : At) (rd rs1 rs2 : GReg) (s : State) : Out :=
  .next (s.onCore k.d (·.rrr k.e k.f rd rs1 rs2 (fun a b => highWord (a.toInt * b.toInt))))

/-- MULHI_UU (R125). -/
def execMulhiUu (k : At) (rd rs1 rs2 : GReg) (s : State) : Out :=
  .next (s.onCore k.d (·.rrr k.e k.f rd rs1 rs2 (fun a b => highWord ((a.toNat : Int) * b.toNat))))

/-- MULHI_SU (R125). -/
def execMulhiSu (k : At) (rd rs1 rs2 : GReg) (s : State) : Out :=
  .next (s.onCore k.d (·.rrr k.e k.f rd rs1 rs2 (fun a b => highWord (a.toInt * b.toNat))))

/-- DIVS (R125). -/
def execDivs (k : At) (rd rs1 rs2 : GReg) (s : State) : Out := .next (s.onCore k.d (·.rrr k.e k.f rd rs1 rs2 divS))

/-- DIVU (R125). -/
def execDivu (k : At) (rd rs1 rs2 : GReg) (s : State) : Out := .next (s.onCore k.d (·.rrr k.e k.f rd rs1 rs2 divU))

/-- MODS (R125). -/
def execMods (k : At) (rd rs1 rs2 : GReg) (s : State) : Out := .next (s.onCore k.d (·.rrr k.e k.f rd rs1 rs2 modS))

/-- MODU (R125). -/
def execModu (k : At) (rd rs1 rs2 : GReg) (s : State) : Out := .next (s.onCore k.d (·.rrr k.e k.f rd rs1 rs2 modU))

/-- CLZ (R125). -/
def execClz (k : At) (rd rs1 : GReg) (s : State) : Out := .next (s.onCore k.d (·.rri k.e k.f rd rs1 leadingZeros))

/-- ADD_K (R125). -/
def execAddK (k : At) (rd rs1 : GReg) (imm : BitVec 16) (s : State) : Out :=
  .next (s.onCore k.d (·.rri k.e k.f rd rs1 (fun a => a + imm.signExtend 32)))

/-- SETLT_K (R125). -/
def execSetltK (k : At) (rd rs1 : GReg) (imm : BitVec 16) (s : State) : Out :=
  .next (s.onCore k.d (·.rri k.e k.f rd rs1 (fun a => ofB (ltS a (imm.signExtend 32)))))

/-- SETLTU_K (R125). -/
def execSetltuK (k : At) (rd rs1 : GReg) (imm : BitVec 16) (s : State) : Out :=
  .next (s.onCore k.d (·.rri k.e k.f rd rs1 (fun a => ofB (ltU a (imm.signExtend 32)))))

/-- AND_K (R125). -/
def execAndK (k : At) (rd rs1 : GReg) (imm : BitVec 16) (s : State) : Out :=
  .next (s.onCore k.d (·.rri k.e k.f rd rs1 (fun a => a &&& imm.setWidth 32)))

/-- OR_K (R125). -/
def execOrK (k : At) (rd rs1 : GReg) (imm : BitVec 16) (s : State) : Out :=
  .next (s.onCore k.d (·.rri k.e k.f rd rs1 (fun a => a ||| imm.setWidth 32)))

/-- XOR_K (R125). -/
def execXorK (k : At) (rd rs1 : GReg) (imm : BitVec 16) (s : State) : Out :=
  .next (s.onCore k.d (·.rri k.e k.f rd rs1 (fun a => a ^^^ imm.setWidth 32)))

/-- LDHI (R125). -/
def execLdhi (k : At) (rd : GReg) (imm : BitVec 16) (s : State) : Out :=
  .next (s.onCore k.d (·.rri k.e k.f rd 0 (fun _ => imm.setWidth 32 <<< 16)))

/-- SHL_K (R125). -/
def execShlK (k : At) (rd rs1 : GReg) (imm : BitVec 5) (s : State) : Out :=
  .next (s.onCore k.d (·.rri k.e k.f rd rs1 (fun a => shlBy a imm)))

/-- SHR_K (R125). -/
def execShrK (k : At) (rd rs1 : GReg) (imm : BitVec 5) (s : State) : Out :=
  .next (s.onCore k.d (·.rri k.e k.f rd rs1 (fun a => shrBy a imm)))

/-- SAR_K (R125). -/
def execSarK (k : At) (rd rs1 : GReg) (imm : BitVec 5) (s : State) : Out :=
  .next (s.onCore k.d (·.rri k.e k.f rd rs1 (fun a => sarBy a imm)))

end Sys2Proof.Machine
end

