-- ==== Sys2Proof/Machine/ExecLockstep.lean ====
section
/-! DEFINITION. ExecLockstep.lean: the meanings of the commands of one family. Redundant execution (R384 to R409). -/

namespace Sys2Proof.Machine

/-- LOCKSTEP_MISMATCH (R389). -/
def execLockstepMismatch (d : Dom) (grp : BitVec 6) (s : State) : Out := .next (s.onDom d (·.onMismatch grp.toNat))

/-- SELF_TEST_DONE (R390). -/
def execSelfTestDone (d : Dom) (mainFails shadowFails : Bool) (s : State) : Out :=
  .next (s.selfTestEnd d mainFails shadowFails)

/-- STATE_LOAD_DONE (R390). -/
def execStateLoadDone (d : Dom) (equal : Bool) (s : State) : Out := .next (s.onDom d (·.stateLoadEnd equal))

/-- RESTORATION_DONE (R392). -/
def execRestorationDone (d : Dom) (journalEcc logEcc : Bool) (s : State) : Out :=
  .next (s.onDom d (·.restorationEnd (journalEcc || logEcc)))

/-- CHECKPOINT_OVERDUE (R398). -/
def execCheckpointOverdue (d : Dom) (s : State) : Out := .next (s.onDom d (·.when (s.dom d).ckptDue Domain.ckptOverdue))

/-- SPLIT_EFFECT (R400). -/
def execSplitEffect (d : Dom) (s : State) : Out :=
  .next (s.onDom d (·.when ((s.dom d).rgB LSC_STAT_SPLITPEND) Domain.splitEffect))

/-- JOIN_EFFECT (R401). -/
def execJoinEffect (d : Dom) (s : State) : Out :=
  .next (s.onDom d (·.when ((s.dom d).rgB LSC_STAT_JOINPEND) Domain.joinEffect))

/-- SPLITMAX_EXPIRY (R401). -/
def execSplitmaxExpiry (d : Dom) (s : State) : Out := .next (s.onDom d (·.when (s.dom d).splitmaxDue Domain.splitmax))

/-- CODE_CHECK_PASS (R407). -/
def execCodeCheckPass (d : Dom) (mismatch : Bool) (s : State) : Out := .next (s.onDom d (·.codeCheck mismatch))

/-- LSC_CNT_CLEAR (R409). -/
def execLscCntClear (d : Dom) (s : State) : Out := .next (s.onDom d (·.clearKey LSC_CNT_RESTORE.reg))

end Sys2Proof.Machine
end

