-- ==== Sys2Proof/Machine/ExecNet.lean ====
section
/-! DEFINITION. ExecNet.lean: the meanings of the commands of one family. The Runnel ring (R465 to R492). -/

namespace Sys2Proof.Machine

/-- PORT_ENABLE (R468). -/
def execPortEnable (w : Word) (s : State) : Out := .next (s.onHost (·.writeCtl w))

/-- BYPASS_CHANGE (R70). -/
def execBypassChange (s : State) : Out := .next (s.bypassChange)

/-- LINK_UP (R467). -/
def execLinkUp (p : Port) (s : State) : Out := .next (s.onHost (·.linkUp p))

/-- LINK_DOWN (R467). -/
def execLinkDown (p : Port) (s : State) : Out := .next (s.onHost (·.linkDown p))

/-- UNWRAP (R487). -/
def execUnwrap (p : Port) (s : State) : Out := .next (s.onHost (·.unwrap p))

/-- FRAME_RECEIVE (R472). -/
def execFrameReceive (p : Port) (f : List Byte) (s : State) : Out := .next (s.onHost (·.frameReceive p f))

/-- FRAME_SEND (R474). -/
def execFrameSend (p : Port) (s : State) : Out := .next (s.frameSend p)

/-- CYCLE_START (R475). -/
def execCycleStart (s : State) : Out := .next (s.onHost (·.cycleStart))

/-- CYCLIC_TX_PREPARE (R478). -/
def execCyclicTxPrepare (s : State) : Out := .next (s.txPrepare)

/-- CYCLIC_FRAME (R478). -/
def execCyclicFrame (p : Port) (f : List Byte) (s : State) : Out := .next (s.onHost (·.cyclicFrame p f))

/-- CYCLIC_RX_COPY (R478). -/
def execCyclicRxCopy (q : BitVec 4) (s : State) : Out := .next (s.rxCopy q.toNat)

/-- TIME_FRAME (R477). -/
def execTimeFrame (p : Port) (f : List Byte) (own : Nat) (s : State) : Out := .next (s.onHost (·.timeFrame p f own))

/-- RING_TIME_INVALID (R477). -/
def execRingTimeInvalid (s : State) : Out := .next (s.onHost (·.ringTimeInvalid))

/-- CYCLE_MISS (R479). -/
def execCycleMiss (s : State) : Out := .next (s.onHost (·.cycleMiss))

/-- REMOTE_READ (R482). -/
def execRemoteRead (p : Port) (src : BitVec 4) (tag : BitVec 8) (addr : BitVec 32) (rcnt : Nat) (s : State) : Out :=
  .next (s.answer p src.toNat tag.toNat addr.toNat rcnt false [])

/-- REMOTE_WRITE (R482). -/
def execRemoteWrite (p : Port) (src : BitVec 4) (tag : BitVec 8) (addr : BitVec 32) (data : List Word) (s : State) : Out :=
  .next (s.answer p src.toNat tag.toNat addr.toNat data.length true data)

/-- RESPONSE (R485). -/
def execResponse (tag : BitVec 8) (stat : BitVec 4) (data : Word) (s : State) : Out :=
  .next (s.onHost (·.response tag.toNat stat data))

/-- REMOTE_ACCESS_TIMEOUT (R484). -/
def execRemoteAccessTimeout (tag : BitVec 8) (s : State) : Out := .next (s.onHost (·.accessTimeout tag.toNat))

/-- NEIGHBOUR_DELAY_REQUEST (R486). -/
def execNeighbourDelayRequest (p : Port) (s : State) : Out := .next (s.onHost (·.delayRequest p))

/-- NEIGHBOUR_DELAY_REPLY (R477). -/
def execNeighbourDelayReply (p : Port) (delay : BitVec 16) (s : State) : Out := .next (s.onHost (·.delayReply p delay))

/-- LINK_DELAY_MEASURE (R477). -/
def execLinkDelayMeasure (p : Port) (s : State) : Out := .next (s.onHost (·.delayMeasure p))

/-- DISCOVERY (R486). -/
def execDiscovery (p : Port) (src : BitVec 4) (s : State) : Out := .next (s.discovery p src.toNat)

/-- EVENT_REPORT (R486). -/
def execEventReport (_p : Port) (_src : BitVec 4) (_events : List Nat) (s : State) : Out :=
  .next (s.onHost (·.eventReport))

/-- RING_TIME_CAPTURE (R489). -/
def execRingTimeCapture (d : Dom) (s : State) : Out := .next (s.when (!(s.dom d).inReset) (·.rtCapture d))

/-- MBX_DOOR (R492). -/
def execMbxDoor (c : Chan) (w : Word) (s : State) : Out := .next (s.when (!(s.ch c).dom.inReset) (·.mbxDoor c w))

/-- RING_ERRCNT_CLEAR (R491). -/
def execRingErrcntClear (s : State) : Out := .next (s.onHost (·.errcntClear))

/-- LINK_ALIGN (R467). -/
def execLinkAlign (p : Port) (s : State) : Out := .next (s.onHost (·.linkAlign p))

end Sys2Proof.Machine
end

