-- ==== Sys2Proof/Machine/ExecPlan.lean ====
section
/-! DEFINITION. ExecPlan.lean: the meanings of the commands of one family. Commits, events, live writes and the carrier (R130, R145, R153 to R190, R279). -/

namespace Sys2Proof.Machine

/-- PLAN_COMMIT (R130). -/
def execPlanCommit (k : At) (rd rs1 : GReg) (imm : BitVec 7) (s : State) : Out := .next (s.planCommit k rd rs1 imm)

/-- COMMIT_SWAP (R153). -/
def execCommitSwap (c : Chan) (s : State) : Out := .next (s.onCh c (·.commitSwap))

/-- EV_WAIT (R129). -/
def execEvWait (k : At) (rd rs1 rs2 : GReg) (s : State) : Out := .next (s.onCore k.d (·.evWait k.e k.f rd rs1 rs2))

/-- EV_WAIT_EXPIRY (R129). -/
def execEvWaitExpiry (d : Dom) (e : Eng) (s : State) : Out := .next (s.onCore d (·.evWaitExpiry e))

/-- EV_WAIT_SATISFIED (R129). -/
def execEvWaitSatisfied (d : Dom) (e : Eng) (s : State) : Out := .next (s.onCore d (·.evWaitFound e))

/-- EV_FENCE (R145). -/
def execEvFence (k : At) (rs1 rs2 : GReg) (s : State) : Out := .next (s.onCore k.d (·.evFence k.e k.f rs1 rs2))

/-- EV_FENCE_RETIRE (R145). -/
def execEvFenceRetire (d : Dom) (e : Eng) (s : State) : Out := .next (s.onCore d (·.evFenceRetire e))

/-- LS_SPLIT (R131). -/
def execLsSplit (k : At) (rd : GReg) (s : State) : Out := .next (s.onCore k.d (·.lsRequest k.e k.f rd false))

/-- LS_JOIN (R131). -/
def execLsJoin (k : At) (rd : GReg) (s : State) : Out := .next (s.onCore k.d (·.lsRequest k.e k.f rd true))

/-- CKPT (R396). -/
def execCkpt (k : At) (rs1 : GReg) (s : State) : Out := .next (s.onCore k.d (·.ckpt k.e k.f rs1))

/-- INTERRUPT_ENTRY (R138). -/
def execInterruptEntry (d : Dom) (e : Eng) (s : State) : Out := .next (s.onCore d (·.interruptEntry e))

/-- TRIP_NOTIFICATION_ENTRY (R136). -/
def execTripNotificationEntry (d : Dom) (e : Eng) (s : State) : Out := .next (s.onCore d (·.tripEntry e))

/-- EVENT_DELIVERY (R169). -/
def execEventDelivery (d : Dom) (ev : BitVec 7) (s : State) : Out := .next (s.deliverEvent d ev)

/-- EVT_CLAIM (R173). -/
def execEvtClaim (d : Dom) (e : Eng) (s : State) : Out := .next (s.readFor d (some e) EVT_CLAIM_EVENT.reg)

/-- CMTCNT_CLEAR (R161). -/
def execCmtcntClear (c : Chan) (s : State) : Out := .next (s.onCh c (·.mapDom (·.clearKey EVT_CMTCNT_ACCEPTED.reg)))

/-- RWL_WRITE (R163). -/
def execRwlWrite (c : Chan) (r : RwlReg) (w : Word) (s : State) : Out := .next (s.onCh c (·.writeRwl (RwlReg.key r) w))

/-- LIVE_HOLD_RELEASE (R166). -/
def execLiveHoldRelease (c : Chan) (w : Word) (s : State) : Out :=
  .next (s.when (!bitOf w 0) (fun s => s.onCh c (·.writeLhold w)))

/-- LIVE_HOLD_TIMEOUT (R166). -/
def execLiveHoldTimeout (c : Chan) (s : State) : Out := .next (s.onCh c (·.liveHoldTimeout))

/-- CARRIER_BOUNDARY (R183). -/
def execCarrierBoundary (c : Chan) (s : State) : Out := .next (s.onCh c (·.carrierBoundary))

/-- CARRIER_STOP (R279). -/
def execCarrierStop (c : Chan) (s : State) : Out := .next (s.onCh c (·.carrierStop))

/-- EXTRAPOLATION_STALE (R180). -/
def execExtrapolationStale (c : Chan) (s : State) : Out := .next (s.onCh c (·.extrapolationStale))

end Sys2Proof.Machine
end

