-- ==== Sys2Proof/Machine/ExecPort.lean ====
section
/-! DEFINITION. ExecPort.lean: the meanings of the commands of one family. Counters, the debug ports and register writes (R12, R520 to R535). -/

namespace Sys2Proof.Machine

/-- DEBUG_READ (R528). -/
def execDebugRead (d : Dom) (q : DebugReq) (s : State) : Out := .next (s.transact d false q 0)

/-- DEBUG_WRITE (R528). -/
def execDebugWrite (d : Dom) (q : DebugReq) (data : Word) (s : State) : Out := .next (s.transact d true q data)

/-- DEBUG_PORT_ABORT (R528). -/
def execDebugPortAbort (d : Dom) (s : State) : Out := .next (s.portAbort d)

/-- DEBUG_ACCESS_COMPLETE (R528). -/
def execDebugAccessComplete (d : Dom) (s : State) : Out := .next (s.accessComplete d)

/-- DBG_AUTH (R529). -/
def execDbgAuth (d : Dom) (key : Word) (s : State) : Out := .next (s.dbgAuth d key)

/-- HALTREQ (R531). -/
def execHaltreq (d : Dom) (w : Word) (s : State) : Out :=
  .next (s.withAuth d (fun s => s.when (bitOf w 0) (·.writeDbgCtl d w)))

/-- DEBUG_HALT_EFFECT (R531). -/
def execDebugHaltEffect (d : Dom) (s : State) : Out := .next (s.haltEffect d)

/-- RESUME (R531). -/
def execResume (d : Dom) (w : Word) (s : State) : Out :=
  .next (s.withAuth d (fun s => s.when (bitOf w 1) (·.writeDbgCtl d w)))

/-- STEP (R531). -/
def execStep (d : Dom) (w : Word) (s : State) : Out :=
  .next (s.withAuth d (fun s => s.when (bitOf w 2) (·.writeDbgCtl d w)))

/-- WHALT (R533). -/
def execWhalt (c : Chan) (w : Word) (s : State) : Out :=
  .next (s.withAuth (.ch c) (fun s => s.when (bitOf w 3) (·.writeDbgCtl (.ch c) w)))

/-- WRESUME (R533). -/
def execWresume (c : Chan) (w : Word) (s : State) : Out :=
  .next (s.withAuth (.ch c) (fun s => s.when (bitOf w 4) (·.writeDbgCtl (.ch c) w)))

/-- CHALT (R533). -/
def execChalt (c : Chan) (w : Word) (s : State) : Out :=
  .next (s.withAuth (.ch c) (fun s => s.when (bitOf w 5) (·.writeDbgCtl (.ch c) w)))

/-- CRESUME (R533). -/
def execCresume (c : Chan) (w : Word) (s : State) : Out :=
  .next (s.withAuth (.ch c) (fun s => s.when (bitOf w 6) (·.writeDbgCtl (.ch c) w)))

/-- BREAKPOINT_HIT (R533). -/
def execBreakpointHit (d : Dom) (q : BitVec 2) (s : State) : Out := .next (s.breakpoint d q.toNat)

/-- WATCHPOINT_HIT (R533). -/
def execWatchpointHit (d : Dom) (q : Bool) (store : Bool) (addr : Word) (s : State) : Out :=
  .next (s.onDom d (·.watchpointHit (if q then 1 else 0) store addr))

/-- WEIR_BREAKPOINT_HIT (R533). -/
def execWeirBreakpointHit (c : Chan) (s : State) : Out := .next (s.onCh c (·.weirBreakpoint))

/-- CASCADE_BREAKPOINT_HIT (R533). -/
def execCascadeBreakpointHit (c : Chan) (s : State) : Out := .next (s.onCh c (·.casBreakpoint))

/-- PERF_CNTLO_READ (R522). -/
def execPerfCntloRead (d : Dom) (e : Eng) (x : BitVec 9) (s : State) : Out :=
  .next (s.readFor d (some e) (0xC1000 + 8 * x.toNat))

/-- PERF_CNTCLR (R526). -/
def execPerfCntclr (d : Dom) (w : Word) (s : State) : Out := .next (s.onDom d (·.cntClear w))

/-- PERF_SAMPLE_CLEAR (R526). -/
def execPerfSampleClear (d : Dom) (w : Word) (s : State) : Out := .next (s.onDom d (·.when (bitOf w 1) (·.smpCtl w)))

/-- EXTEST (R535). -/
def execExtest (lo hi : BitVec 60) (s : State) : Out := .next ({ s with dev := s.dev.runExtest (hi ++ lo) })

/-- FUSEOFF (R535). -/
def execFuseoff (s : State) : Out := .next ({ s with dev := s.dev.fuseoff })

/-- REGISTER_WRITE (R12). -/
def execRegisterWrite (d : Dom) (addr : Word) (w : Word) (s : State) : Out := .next (s.registerWrite d addr.toNat w)

end Sys2Proof.Machine
end

