-- ==== Sys2Proof/Machine/ExecPosition.lean ====
section
/-! DEFINITION. ExecPosition.lean: the meanings of the commands of one family. Position feedback (R215 to R238). -/

namespace Sys2Proof.Machine

/-- ENCODER_STEP (R218). -/
def execEncoderStep (c : Chan) (ab : BitVec 2) (s : State) : Out := .next (s.onCh c (·.encoderStep ab))

/-- ENCODER_INDEX (R219). -/
def execEncoderIndex (c : Chan) (s : State) : Out := .next (s.onCh c (·.encoderZ))

/-- ENCODER_LINE_FAULT (R220). -/
def execEncoderLineFault (c : Chan) (pairs : BitVec 3) (s : State) : Out := .next (s.onCh c (·.encoderLineFault pairs))

/-- ENCODER_LINE_FAULT_END (R220). -/
def execEncoderLineFaultEnd (c : Chan) (s : State) : Out := .next (s.onCh c (·.encoderLineFaultEnd))

/-- RESOLVER_PAIR (R223). -/
def execResolverPair (c : Chan) (p : ResolverPair) (s : State) : Out := .next (s.onCh c (·.resolverPair p))

/-- SSI_FRAME_END (R225). -/
def execSsiFrameEnd (c : Chan) (bits : BitVec 48) (lowAtStart : Bool) (s : State) : Out :=
  .next (s.onBall c (·.ssiFrameEnd bits lowAtStart))

/-- HALL_CHANGE (R227). -/
def execHallChange (c : Chan) (code : BitVec 3) (s : State) : Out := .next (s.onBall c (·.hallChange code))

/-- POSITION_LATCH_STROBE (R228). -/
def execPositionLatchStrobe (c : Chan) (s : State) : Out := .next (s.onCh c (·.positionLatchStrobe))

/-- POSITION_LATCH_DELIVERY (R228, R298, R338, R420, R431). -/
def execPositionLatchDelivery (c : Chan) (s : State) : Out := .next (s.onCh c (·.positionLatchDelivery))

/-- STANDSTILL_TIMEOUT (R233). -/
def execStandstillTimeout (c : Chan) (s : State) : Out := .next (s.onCh c (·.standstillTimeout))

/-- POS_CNTSET (R220). -/
def execPosCntset (c : Chan) (w : Word) (s : State) : Out := .next (s.onCh c (·.cntset w))

/-- POS_ERRCNT_CLEAR (R238). -/
def execPosErrcntClear (c : Chan) (s : State) : Out := .next (s.onCh c (·.clearReg POS_ERRCNT_SKIP.reg))

/-- EMULATION_STEP (R236). -/
def execEmulationStep (c : Chan) (s : State) : Out := .next (s.onCh c (·.emulationStep))

/-- SSI_MONO_END (R225). -/
def execSsiMonoEnd (c : Chan) (s : State) : Out := .next (s.onCh c (·.ssiMonoEnd))

end Sys2Proof.Machine
end

