-- ==== Sys2Proof/Machine/ExecSafety.lean ====
section
/-! DEFINITION. ExecSafety.lean: the meanings of the commands of one family. Machine safety functions (R410 to R440). -/

namespace Sys2Proof.Machine

/-- STO_INPUT_CHANGE (R413). -/
def execStoInputChange (c : Chan) (inB level : Bool) (s : State) : Out := .next (s.onBall c (·.stoInput inB level))

/-- STO_DELAY_TIMER_EXPIRY (R413). -/
def execStoDelayTimerExpiry (c : Chan) (inB : Bool) (s : State) : Out := .next (s.onCh c (·.stoTimer inB))

/-- STO_DISCREPANCY (R416). -/
def execStoDiscrepancy (c : Chan) (s : State) : Out := .next (s.onCh c (·.stoDiscrepancy))

/-- STORST (R415). -/
def execStorst (c : Chan) (w : Word) (s : State) : Out := .next (s.onCh c (·.when (bitOf w 5) (·.safeCmd w)))

/-- STOTEST (R418). -/
def execStotest (c : Chan) (w : Word) (s : State) : Out := .next (s.onCh c (·.when (bitOf w 6) (·.safeCmd w)))

/-- STO_TEST_DONE (R418). -/
def execStoTestDone (c : Chan) (pass : Bool) (s : State) : Out := .next (s.onCh c (·.stoTestDone pass))

/-- SS1REQ (R419). -/
def execSs1req (c : Chan) (w : Word) (s : State) : Out := .next (s.onCh c (·.when (bitOf w 4) (·.safeCmd w)))

/-- SS1CLR (R421). -/
def execSs1clr (c : Chan) (w : Word) (s : State) : Out := .next (s.onCh c (·.when (bitOf w 3) (·.safeCmd w)))

/-- SS1_TIMER_EXPIRY (R420). -/
def execSs1TimerExpiry (c : Chan) (s : State) : Out := .next (s.onCh c (·.ss1Timer))

/-- CONTACTOR_CLOSE (R422). -/
def execContactorClose (c : Chan) (w : Word) (s : State) : Out :=
  .next (s.onCh c (·.when (fget w SAFE_KCMD_CLOSE.hi SAFE_KCMD_CLOSE.lo != 0) (·.kCmd w)))

/-- CONTACTOR_OPEN (R422). -/
def execContactorOpen (c : Chan) (w : Word) (s : State) : Out :=
  .next (s.onCh c (·.when (fget w SAFE_KCMD_OPEN.hi SAFE_KCMD_OPEN.lo != 0) (·.kCmd w)))

/-- CONTACTOR_FEEDBACK_CHANGE (R423). -/
def execContactorFeedbackChange (c : Chan) (q : BitVec 2) (level : Bool) (s : State) : Out :=
  .next (s.onBall c (·.kFeedback q.toNat level))

/-- CONTACTOR_TIME_LIMIT (R423). -/
def execContactorTimeLimit (c : Chan) (q : BitVec 2) (s : State) : Out := .next (s.onCh c (·.kLimit q.toNat))

/-- KCLR (R424). -/
def execKclr (c : Chan) (w : Word) (s : State) : Out := .next (s.onCh c (·.when (bitOf w 2) (·.safeCmd w)))

/-- TORQUE_ESTIMATE (R427). -/
def execTorqueEstimate (c : Chan) (s : State) : Out := .next (s.onCh c (·.torqueEstimate))

/-- TPSTALE_EXPIRY (R429). -/
def execTpstaleExpiry (c : Chan) (s : State) : Out := .next (s.onCh c (·.tpStaleExpiry))

/-- HALT_GUARD_EXPIRY (R432). -/
def execHaltGuardExpiry (c : Chan) (s : State) : Out := .next (s.onCh c (·.haltGuard))

/-- HGCLR (R433). -/
def execHgclr (c : Chan) (w : Word) (s : State) : Out := .next (s.onCh c (·.when (bitOf w 1) (·.safeCmd w)))

/-- SAFE_UNLOCK (R436). -/
def execSafeUnlock (c : Chan) (w : Word) (s : State) : Out := .next (s.onCh c (·.safeUnlock w))

/-- RELOCK (R436). -/
def execRelock (c : Chan) (w : Word) (s : State) : Out := .next (s.onCh c (·.when (bitOf w 0) (·.lockCtl w)))

/-- UNLOCK_TIMEOUT (R436). -/
def execUnlockTimeout (c : Chan) (s : State) : Out := .next (s.onCh c (·.lockNow))

/-- LABENTER (R434). -/
def execLabenter (c : Chan) (w : Word) (s : State) : Out := .next (s.onCh c (·.when (bitOf w 1) (·.lockCtl w)))

/-- LABEXIT (R434). -/
def execLabexit (c : Chan) (w : Word) (s : State) : Out := .next (s.onCh c (·.when (bitOf w 2) (·.lockCtl w)))

/-- OSC_WINDOW_CHECK (R410). -/
def execOscWindowCheck (c : Chan) (first count : Nat) (s : State) : Out := .next (s.onCh c (·.oscWindow first count))

/-- LOG_ENTRY_WRITE (R438). -/
def execLogEntryWrite (c : Chan) (s : State) : Out :=
  .next (s.when (!s.dev.inhibit) (fun s => s.onCh c Channel.logWrite))

/-- LOGD4_READ (R440). -/
def execLogd4Read (c : Chan) (s : State) : Out := .next (s.readFor (.ch c) none 0x80124)

end Sys2Proof.Machine
end

