-- ==== Sys2Proof/Machine/ExecSensing.lean ====
section
/-! DEFINITION. ExecSensing.lean: the meanings of the commands of one family. Sensing and calibration (R242 to R271, R441). -/

namespace Sys2Proof.Machine

/-- POSITION_COMPARE_FIRE (R246). -/
def execPositionCompareFire (c : Chan) (n : BitVec 3) (s : State) : Out :=
  .next (s.onCh c (·.positionCompareFire n.toNat))

/-- XCMP_FIRE (R294). -/
def execXcmpFire (c : Chan) (n : BitVec 3) (s : State) : Out := .next (s.onCh c (·.xcmpFire n.toNat))

/-- TRIGGER_FIRE (R254). -/
def execTriggerFire (c : Chan) (n : BitVec 3) (s : State) : Out := .next (s.onCh c (·.triggerFire n.toNat))

/-- CONVERSION_STORE (R251). -/
def execConversionStore (c : Chan) (v : Volts3) (vr : Int) (vref : Nat) (e : CodeErrors) (s : State) : Out :=
  .next (s.onCh c (·.storeAndCheck ⟨v.v0, v.v1, v.v2, vr, vref, e.e0, e.e1, e.e2, e.er⟩))

/-- GROUP_END (R251). -/
def execGroupEnd (c : Chan) (s : State) : Out := .next (s.onCh c (·.groupEnd))

/-- SUBCMD (R260). -/
def execSubcmd (c : Chan) (w : Word) (s : State) : Out := .next (s.onCh c (·.subCmd w))

/-- REF_READY_RISE (R242). -/
def execRefReadyRise (c : Chan) (s : State) : Out := .next (s.onCh c (·.refReadyRise))

/-- REF_READY_FALL (R242). -/
def execRefReadyFall (c : Chan) (s : State) : Out := .next (s.onCh c (·.refReadyFall))

/-- SD_WORD_COMPLETE (R262). -/
def execSdWordComplete (c : Chan) (q : BitVec 3) (w : SdSum) (s : State) : Out :=
  .next (s.onBall c (·.sdWordComplete q.toNat w.sum w.toggled))

/-- SD_STREAM_STUCK (R262). -/
def execSdStreamStuck (c : Chan) (q : BitVec 3) (s : State) : Out := .next (s.onBall c (·.sdStuck q.toNat))

/-- FAST_COMPARATOR_CHANGE (R263). -/
def execFastComparatorChange (c : Chan) (q : BitVec 2) (v : Int) (s : State) : Out :=
  .next (s.onCh c (·.fastComparator q.toNat v))

/-- COMPARATOR_SETTLE_END (R264). -/
def execComparatorSettleEnd (c : Chan) (q : BitVec 3) (v : Int) (s : State) : Out :=
  .next (s.onCh c (·.comparatorSettle q.toNat v))

/-- CAL_ZERO_STEP (R268). -/
def execCalZeroStep (c : Chan) (w : Word) (s : State) : Out := .next (s.onCh c (·.when (fget w 31 30 == 1) (·.calGo w)))

/-- CAL_FULL_SCALE_STEP (R268). -/
def execCalFullScaleStep (c : Chan) (w : Word) (s : State) : Out :=
  .next (s.onCh c (·.when (fget w 31 30 == 2) (·.calGo w)))

/-- CAL_STEP_DONE (R269). -/
def execCalStepDone (c : Chan) (s0 s1 s2 s3 : Nat) (s : State) : Out := .next (s.onCh c (·.calStepDone s0 s1 s2 s3))

/-- ADC_ERRCNT_CLEAR (R271). -/
def execAdcErrcntClear (c : Chan) (s : State) : Out := .next (s.onCh c (·.clearReg ADC_ERRCNT_SDFLT.reg))

/-- SLOW_ROUND (R441). -/
def execSlowRound (d : Dom) (m : SlowRound) (s : State) : Out := .next (s.slowRound d m)

end Sys2Proof.Machine
end

