-- ==== Sys2Proof/Machine/ExecSequencer.lean ====
section
/-! DEFINITION. ExecSequencer.lean: the meanings of the commands of one family. Weir (R186 to R209). -/

namespace Sys2Proof.Machine

/-- WAITA (R186). -/
def execWaita (k : WAt) (dir : BitVec 2) (past rel : Bool) (kr : BitVec 2) (lim : BitVec 3) (addr : BitVec 13) (imm : Word) (s : State) : Out :=
  .next (s.onCh k.c (·.waitA k.t k.f dir past rel kr lim addr imm))

/-- WAITC (R186). -/
def execWaitc (k : WAt) (dir : BitVec 2) (past rel : Bool) (kr : BitVec 2) (lim : BitVec 3) (addr : BitVec 13) (imm : Word) (s : State) : Out :=
  .next (s.onCh k.c (·.waitC k.t k.f dir past rel kr lim addr imm))

/-- WAITE (R196). -/
def execWaite (k : WAt) (lim : BitVec 3) (addr : BitVec 13) (imm : Word) (s : State) : Out :=
  .next (s.onCh k.c (·.waitE k.t k.f lim addr imm))

/-- WAIT_SATISFIED (R186). -/
def execWaitSatisfied (c : Chan) (t : Thread) (s : State) : Out := .next (s.onCh c (·.waitSatisfiedEdge t))

/-- WAIT_EXPIRY (R189). -/
def execWaitExpiry (c : Chan) (t : Thread) (s : State) : Out := .next (s.onCh c (·.waitExpiry t))

/-- STROBE (R198). -/
def execStrobe (k : WAt) (imm : Word) (s : State) : Out := .next (s.onCh k.c (·.strobe k.t k.f imm))

/-- WEIR_START (R196). -/
def execWeirStart (k : WAt) (imm : Word) (s : State) : Out := .next (s.onCh k.c (·.weirStart k.t k.f imm))

/-- WEIR_COMMIT (R200). -/
def execWeirCommit (k : WAt) (imm : Word) (s : State) : Out := .next (s.onCh k.c (·.weirCommit k.t k.f imm))

/-- WEIR_SIGNAL (R196). -/
def execWeirSignal (k : WAt) (imm : Word) (s : State) : Out := .next (s.onCh k.c (·.weirSignal k.t k.f imm))

/-- LDK (R196). -/
def execLdk (k : WAt) (kr : BitVec 2) (imm : Word) (s : State) : Out := .next (s.onCh k.c (·.weirLdk k.t k.f kr imm))

/-- ADDK (R196). -/
def execAddk (k : WAt) (kr : BitVec 2) (imm : Word) (s : State) : Out := .next (s.onCh k.c (·.weirAddk k.t k.f kr imm))

/-- CAPK (R196). -/
def execCapk (k : WAt) (kr : BitVec 2) (imm : Word) (s : State) : Out := .next (s.onCh k.c (·.weirCapk k.t k.f kr imm))

/-- DJNZ (R196). -/
def execDjnz (k : WAt) (kr : BitVec 2) (addr : BitVec 13) (s : State) : Out :=
  .next (s.onCh k.c (·.weirDjnz k.t k.f kr addr))

/-- JMP (R196). -/
def execJmp (k : WAt) (addr : BitVec 13) (s : State) : Out := .next (s.onCh k.c (·.weirJmp k.t k.f addr))

/-- WEIR_BR (R197). -/
def execWeirBr (k : WAt) (cond : BitVec 4) (addr : BitVec 13) (s : State) : Out :=
  .next (s.onCh k.c (·.weirBr k.t k.f cond addr))

/-- CHKARM (R201). -/
def execChkarm (k : WAt) (addr : BitVec 13) (imm : Word) (s : State) : Out :=
  .next (s.onCh k.c (·.weirChkarm k.t k.f addr imm))

/-- WEIR_STOP (R196). -/
def execWeirStop (k : WAt) (s : State) : Out := .next (s.onCh k.c (·.weirStop k.t k.f))

/-- WEIR_ARM (R201). -/
def execWeirArm (c : Chan) (w : Word) (s : State) : Out := .next (s.onCh c (·.weirArm w))

/-- WEIR_DISARM (R201). -/
def execWeirDisarm (c : Chan) (w : Word) (s : State) : Out := .next (s.onCh c (·.weirDisarm w))

/-- HANDOVER_COMMIT (R205). -/
def execHandoverCommit (c : Chan) (s : State) : Out := .next (s.onCh c (·.handoverCommit))

/-- SYNC_EXIT_COMMIT (R207). -/
def execSyncExitCommit (c : Chan) (s : State) : Out := .next (s.onCh c (·.syncExitCommit))

/-- SYNC_PERIOD_TIMEOUT (R209). -/
def execSyncPeriodTimeout (c : Chan) (s : State) : Out := .next (s.onCh c (·.syncTimeout))

end Sys2Proof.Machine
end

