-- ==== Sys2Proof/Machine/ExecSupply.lean ====
section
/-! DEFINITION. ExecSupply.lean: the meanings of the commands of one family. Supplies, resets and boot phases (R80 to R115). -/

namespace Sys2Proof.Machine

/-- SUPPLY_MONITOR_ASSERT (R86). -/
def execSupplyMonitorAssert (rail : Rail) (isOver : Bool) (s : State) : Out := .next (s.supplyAssert rail isOver)

/-- SUPPLY_MONITOR_DEASSERT (R82). -/
def execSupplyMonitorDeassert (rail : Rail) (s : State) : Out := .next (s.supplyDeassert rail)

/-- RESET_EXTENSION_EXPIRY (R88). -/
def execResetExtensionExpiry (d : Dom) (s : State) : Out := .next (s.extensionExpiry d)

/-- POWER_ON_RESET (R90). -/
def execPowerOnReset (s : State) : Out := .next (s.powerOn)

/-- WRITE_INHIBIT_CHANGE (R84). -/
def execWriteInhibitChange (on : Bool) (s : State) : Out := .next (s.inhibitChange on)

/-- CHANNEL_RESET_ASSERT (R87). -/
def execChannelResetAssert (c : Chan) (s : State) : Out := .next (s.pinAssert c)

/-- CHANNEL_RESET_RELEASE (R86). -/
def execChannelResetRelease (c : Chan) (s : State) : Out := .next (s.pinRelease c)

/-- HOST_RESET_ASSERT (R31). -/
def execHostResetAssert (s : State) : Out := .next (s.hostPinAssert)

/-- HOST_RESET_RELEASE (R86). -/
def execHostResetRelease (s : State) : Out := .next (s.hostPinRelease)

/-- SWRST (R92). -/
def execSwrst (c : Chan) (w : Word) (s : State) : Out :=
  .next (s.when (bitOf w 0 && !(s.ch c).dom.inReset) (·.writeRstctl c w))

/-- HOST_REQUEST_RESET (R89). -/
def execHostRequestReset (w : Word) (s : State) : Out := .next (s.when (!s.host.dom.inReset) (·.hostRequest w))

/-- BOOT_PHASE_DONE (R108). -/
def execBootPhaseDone (d : Dom) (r : BootReport) (s : State) : Out := .next (s.bootPhase d r)

end Sys2Proof.Machine
end

