-- ==== Sys2Proof/Machine/ExecUpdate.lean ====
section
/-! DEFINITION. ExecUpdate.lean: the meanings of the commands of one family. Staging, update and the boot ROM (R493 to R519). -/

namespace Sys2Proof.Machine

/-- UPDATE_CHUNK (R508). -/
def execUpdateChunk (p : Port) (src : BitVec 4) (tag : BitVec 8) (head : Word) (data : List Word) (s : State) : Out :=
  .next (s.updateChunk p src.toNat tag.toNat head data)

/-- UPDATE_CHUNK_WRITTEN (R508). -/
def execUpdateChunkWritten (s : State) : Out := .next (s.chunkWritten)

/-- STAGING_OPEN (R508). -/
def execStagingOpen (w : Word) (s : State) : Out := .next (s.when (bitOf w 0) (·.writeStgctl w))

/-- STAGING_SEAL (R509). -/
def execStagingSeal (w : Word) (s : State) : Out := .next (s.when (bitOf w 2) (·.writeStgctl w))

/-- STAGING_SEAL_DONE (R509). -/
def execStagingSealDone (s : State) : Out := .next (s.sealDone)

/-- STAGING_CLOSE (R509). -/
def execStagingClose (w : Word) (s : State) : Out := .next (s.when (bitOf w 1) (·.writeStgctl w))

/-- REVERT (R514). -/
def execRevert (w : Word) (s : State) : Out := .next (s.when (bitOf w 0) (·.writeUpdCmd w))

/-- CANCEL (R518). -/
def execCancel (w : Word) (s : State) : Out := .next (s.when (bitOf w 1) (·.writeUpdCmd w))

/-- UPD_CNT_CLEAR (R518). -/
def execUpdCntClear (s : State) : Out := .next (s.onHost (·.updCntClear))

/-- HOST_ROM_PHASE_DONE (R510). -/
def execHostRomPhaseDone (r : RomReport) (s : State) : Out := .next (s.romPhaseDone r)

end Sys2Proof.Machine
end

