-- ==== Sys2Proof/Machine/Dispatch.lean ====
section
/-! DEFINITION. Dispatch.lean: one arm per command, each a direct call of its meaning. -/

namespace Sys2Proof.Machine

/-- The effect of a command on everything but the queue. -/
def exec (i : Instr) (s : State) : Host.Outcome State Fault Refusal :=
  match i with
  | .supplyMonitorAssert rail isOver => Sys2Proof.Machine.execSupplyMonitorAssert rail isOver s
  | .supplyMonitorDeassert rail => Sys2Proof.Machine.execSupplyMonitorDeassert rail s
  | .resetExtensionExpiry d => Sys2Proof.Machine.execResetExtensionExpiry d s
  | .powerOnReset => Sys2Proof.Machine.execPowerOnReset s
  | .writeInhibitChange on => Sys2Proof.Machine.execWriteInhibitChange on s
  | .channelResetAssert c => Sys2Proof.Machine.execChannelResetAssert c s
  | .channelResetRelease c => Sys2Proof.Machine.execChannelResetRelease c s
  | .hostResetAssert => Sys2Proof.Machine.execHostResetAssert s
  | .hostResetRelease => Sys2Proof.Machine.execHostResetRelease s
  | .swrst c w => Sys2Proof.Machine.execSwrst c w s
  | .hostRequestReset w => Sys2Proof.Machine.execHostRequestReset w s
  | .bootPhaseDone d r => Sys2Proof.Machine.execBootPhaseDone d r s
  | .b3ReferenceTimeout d => Sys2Proof.Machine.execB3ReferenceTimeout d s
  | .referenceLost d => Sys2Proof.Machine.execReferenceLost d s
  | .referenceGood d => Sys2Proof.Machine.execReferenceGood d s
  | .holdoverExpiry d => Sys2Proof.Machine.execHoldoverExpiry d s
  | .rcFallbackSwitch d => Sys2Proof.Machine.execRcFallbackSwitch d s
  | .apply d w fref => Sys2Proof.Machine.execApply d w fref s
  | .rcReturn d w => Sys2Proof.Machine.execRcReturn d w s
  | .pllBandSearchDone d spare band => Sys2Proof.Machine.execPllBandSearchDone d spare band s
  | .pllLock d => Sys2Proof.Machine.execPllLock d s
  | .pllUnlock d => Sys2Proof.Machine.execPllUnlock d s
  | .hop d w => Sys2Proof.Machine.execHop d w s
  | .vcoSwitchOver d => Sys2Proof.Machine.execVcoSwitchOver d s
  | .vcoSwitchOverDone d locked => Sys2Proof.Machine.execVcoSwitchOverDone d locked s
  | .syncEdge c => Sys2Proof.Machine.execSyncEdge c s
  | .add k rd rs1 rs2 => Sys2Proof.Machine.execAdd k rd rs1 rs2 s
  | .sub k rd rs1 rs2 => Sys2Proof.Machine.execSub k rd rs1 rs2 s
  | .bAnd k rd rs1 rs2 => Sys2Proof.Machine.execBAnd k rd rs1 rs2 s
  | .bOr k rd rs1 rs2 => Sys2Proof.Machine.execBOr k rd rs1 rs2 s
  | .bXor k rd rs1 rs2 => Sys2Proof.Machine.execBXor k rd rs1 rs2 s
  | .shl k rd rs1 rs2 => Sys2Proof.Machine.execShl k rd rs1 rs2 s
  | .shr k rd rs1 rs2 => Sys2Proof.Machine.execShr k rd rs1 rs2 s
  | .sar k rd rs1 rs2 => Sys2Proof.Machine.execSar k rd rs1 rs2 s
  | .setlt k rd rs1 rs2 => Sys2Proof.Machine.execSetlt k rd rs1 rs2 s
  | .setltu k rd rs1 rs2 => Sys2Proof.Machine.execSetltu k rd rs1 rs2 s
  | .min k rd rs1 rs2 => Sys2Proof.Machine.execMin k rd rs1 rs2 s
  | .max k rd rs1 rs2 => Sys2Proof.Machine.execMax k rd rs1 rs2 s
  | .minu k rd rs1 rs2 => Sys2Proof.Machine.execMinu k rd rs1 rs2 s
  | .maxu k rd rs1 rs2 => Sys2Proof.Machine.execMaxu k rd rs1 rs2 s
  | .adds k rd rs1 rs2 => Sys2Proof.Machine.execAdds k rd rs1 rs2 s
  | .subs k rd rs1 rs2 => Sys2Proof.Machine.execSubs k rd rs1 rs2 s
  | .mul k rd rs1 rs2 => Sys2Proof.Machine.execMul k rd rs1 rs2 s
  | .mulhiSs k rd rs1 rs2 => Sys2Proof.Machine.execMulhiSs k rd rs1 rs2 s
  | .mulhiUu k rd rs1 rs2 => Sys2Proof.Machine.execMulhiUu k rd rs1 rs2 s
  | .mulhiSu k rd rs1 rs2 => Sys2Proof.Machine.execMulhiSu k rd rs1 rs2 s
  | .divs k rd rs1 rs2 => Sys2Proof.Machine.execDivs k rd rs1 rs2 s
  | .divu k rd rs1 rs2 => Sys2Proof.Machine.execDivu k rd rs1 rs2 s
  | .mods k rd rs1 rs2 => Sys2Proof.Machine.execMods k rd rs1 rs2 s
  | .modu k rd rs1 rs2 => Sys2Proof.Machine.execModu k rd rs1 rs2 s
  | .clz k rd rs1 => Sys2Proof.Machine.execClz k rd rs1 s
  | .addK k rd rs1 imm => Sys2Proof.Machine.execAddK k rd rs1 imm s
  | .setltK k rd rs1 imm => Sys2Proof.Machine.execSetltK k rd rs1 imm s
  | .setltuK k rd rs1 imm => Sys2Proof.Machine.execSetltuK k rd rs1 imm s
  | .andK k rd rs1 imm => Sys2Proof.Machine.execAndK k rd rs1 imm s
  | .orK k rd rs1 imm => Sys2Proof.Machine.execOrK k rd rs1 imm s
  | .xorK k rd rs1 imm => Sys2Proof.Machine.execXorK k rd rs1 imm s
  | .ldhi k rd imm => Sys2Proof.Machine.execLdhi k rd imm s
  | .shlK k rd rs1 imm => Sys2Proof.Machine.execShlK k rd rs1 imm s
  | .shrK k rd rs1 imm => Sys2Proof.Machine.execShrK k rd rs1 imm s
  | .sarK k rd rs1 imm => Sys2Proof.Machine.execSarK k rd rs1 imm s
  | .ldW k rd rs1 imm => Sys2Proof.Machine.execLdW k rd rs1 imm s
  | .ldH k rd rs1 imm => Sys2Proof.Machine.execLdH k rd rs1 imm s
  | .ldHu k rd rs1 imm => Sys2Proof.Machine.execLdHu k rd rs1 imm s
  | .ldB k rd rs1 imm => Sys2Proof.Machine.execLdB k rd rs1 imm s
  | .ldBu k rd rs1 imm => Sys2Proof.Machine.execLdBu k rd rs1 imm s
  | .stW k rs2 rs1 imm => Sys2Proof.Machine.execStW k rs2 rs1 imm s
  | .stH k rs2 rs1 imm => Sys2Proof.Machine.execStH k rs2 rs1 imm s
  | .stB k rs2 rs1 imm => Sys2Proof.Machine.execStB k rs2 rs1 imm s
  | .ldRsv k rd rs1 ord => Sys2Proof.Machine.execLdRsv k rd rs1 ord s
  | .stRsv k rd rs1 rs2 ord => Sys2Proof.Machine.execStRsv k rd rs1 rs2 ord s
  | .atmSwap k rd rs1 rs2 ord => Sys2Proof.Machine.execAtmSwap k rd rs1 rs2 ord s
  | .atmAdd k rd rs1 rs2 ord => Sys2Proof.Machine.execAtmAdd k rd rs1 rs2 ord s
  | .atmAnd k rd rs1 rs2 ord => Sys2Proof.Machine.execAtmAnd k rd rs1 rs2 ord s
  | .atmOr k rd rs1 rs2 ord => Sys2Proof.Machine.execAtmOr k rd rs1 rs2 ord s
  | .atmMax k rd rs1 rs2 ord => Sys2Proof.Machine.execAtmMax k rd rs1 rs2 ord s
  | .atmMin k rd rs1 rs2 ord => Sys2Proof.Machine.execAtmMin k rd rs1 rs2 ord s
  | .loadResult d e n ecc => Sys2Proof.Machine.execLoadResult d e n ecc s
  | .storePerformed d e posted n ecc => Sys2Proof.Machine.execStorePerformed d e posted n ecc s
  | .postedStoreBusError d e => Sys2Proof.Machine.execPostedStoreBusError d e s
  | .brEq k rs1 rs2 off => Sys2Proof.Machine.execBrEq k rs1 rs2 off s
  | .brNe k rs1 rs2 off => Sys2Proof.Machine.execBrNe k rs1 rs2 off s
  | .brLt k rs1 rs2 off => Sys2Proof.Machine.execBrLt k rs1 rs2 off s
  | .brGe k rs1 rs2 off => Sys2Proof.Machine.execBrGe k rs1 rs2 off s
  | .brLtu k rs1 rs2 off => Sys2Proof.Machine.execBrLtu k rs1 rs2 off s
  | .brGeu k rs1 rs2 off => Sys2Proof.Machine.execBrGeu k rs1 rs2 off s
  | .call k rd off => Sys2Proof.Machine.execCall k rd off s
  | .callr k rd rs1 imm => Sys2Proof.Machine.execCallr k rd rs1 imm s
  | .sysreq k => Sys2Proof.Machine.execSysreq k s
  | .dbgbrk k => Sys2Proof.Machine.execDbgbrk k s
  | .retm k => Sys2Proof.Machine.execRetm k s
  | .retn k => Sys2Proof.Machine.execRetn k s
  | .idle k => Sys2Proof.Machine.execIdle k s
  | .idleWake d e => Sys2Proof.Machine.execIdleWake d e s
  | .ctlSwap k rd rs1 csr => Sys2Proof.Machine.execCtlSwap k rd rs1 csr s
  | .ctlSet k rd rs1 csr => Sys2Proof.Machine.execCtlSet k rd rs1 csr s
  | .ctlClr k rd rs1 csr => Sys2Proof.Machine.execCtlClr k rd rs1 csr s
  | .fenceM k others => Sys2Proof.Machine.execFenceM k others s
  | .fenceD k others => Sys2Proof.Machine.execFenceD k others s
  | .fenceP k others => Sys2Proof.Machine.execFenceP k others s
  | .fenceN k => Sys2Proof.Machine.execFenceN k s
  | .fenceAll k => Sys2Proof.Machine.execFenceAll k s
  | .fenceRetire d e => Sys2Proof.Machine.execFenceRetire d e s
  | .planCommit k rd rs1 imm => Sys2Proof.Machine.execPlanCommit k rd rs1 imm s
  | .commitSwap c => Sys2Proof.Machine.execCommitSwap c s
  | .evWait k rd rs1 rs2 => Sys2Proof.Machine.execEvWait k rd rs1 rs2 s
  | .evWaitExpiry d e => Sys2Proof.Machine.execEvWaitExpiry d e s
  | .evWaitSatisfied d e => Sys2Proof.Machine.execEvWaitSatisfied d e s
  | .evFence k rs1 rs2 => Sys2Proof.Machine.execEvFence k rs1 rs2 s
  | .evFenceRetire d e => Sys2Proof.Machine.execEvFenceRetire d e s
  | .lsSplit k rd => Sys2Proof.Machine.execLsSplit k rd s
  | .lsJoin k rd => Sys2Proof.Machine.execLsJoin k rd s
  | .ckpt k rs1 => Sys2Proof.Machine.execCkpt k rs1 s
  | .interruptEntry d e => Sys2Proof.Machine.execInterruptEntry d e s
  | .tripNotificationEntry d e => Sys2Proof.Machine.execTripNotificationEntry d e s
  | .eventDelivery d ev => Sys2Proof.Machine.execEventDelivery d ev s
  | .evtClaim d e => Sys2Proof.Machine.execEvtClaim d e s
  | .cmtcntClear c => Sys2Proof.Machine.execCmtcntClear c s
  | .rwlWrite c r w => Sys2Proof.Machine.execRwlWrite c r w s
  | .liveHoldRelease c w => Sys2Proof.Machine.execLiveHoldRelease c w s
  | .liveHoldTimeout c => Sys2Proof.Machine.execLiveHoldTimeout c s
  | .carrierBoundary c => Sys2Proof.Machine.execCarrierBoundary c s
  | .carrierStop c => Sys2Proof.Machine.execCarrierStop c s
  | .extrapolationStale c => Sys2Proof.Machine.execExtrapolationStale c s
  | .waita k dir past rel kr lim addr imm => Sys2Proof.Machine.execWaita k dir past rel kr lim addr imm s
  | .waitc k dir past rel kr lim addr imm => Sys2Proof.Machine.execWaitc k dir past rel kr lim addr imm s
  | .waite k lim addr imm => Sys2Proof.Machine.execWaite k lim addr imm s
  | .waitSatisfied c t => Sys2Proof.Machine.execWaitSatisfied c t s
  | .waitExpiry c t => Sys2Proof.Machine.execWaitExpiry c t s
  | .strobe k imm => Sys2Proof.Machine.execStrobe k imm s
  | .weirStart k imm => Sys2Proof.Machine.execWeirStart k imm s
  | .weirCommit k imm => Sys2Proof.Machine.execWeirCommit k imm s
  | .weirSignal k imm => Sys2Proof.Machine.execWeirSignal k imm s
  | .ldk k kr imm => Sys2Proof.Machine.execLdk k kr imm s
  | .addk k kr imm => Sys2Proof.Machine.execAddk k kr imm s
  | .capk k kr imm => Sys2Proof.Machine.execCapk k kr imm s
  | .djnz k kr addr => Sys2Proof.Machine.execDjnz k kr addr s
  | .jmp k addr => Sys2Proof.Machine.execJmp k addr s
  | .weirBr k cond addr => Sys2Proof.Machine.execWeirBr k cond addr s
  | .chkarm k addr imm => Sys2Proof.Machine.execChkarm k addr imm s
  | .weirStop k => Sys2Proof.Machine.execWeirStop k s
  | .weirArm c w => Sys2Proof.Machine.execWeirArm c w s
  | .weirDisarm c w => Sys2Proof.Machine.execWeirDisarm c w s
  | .handoverCommit c => Sys2Proof.Machine.execHandoverCommit c s
  | .syncExitCommit c => Sys2Proof.Machine.execSyncExitCommit c s
  | .syncPeriodTimeout c => Sys2Proof.Machine.execSyncPeriodTimeout c s
  | .encoderStep c ab => Sys2Proof.Machine.execEncoderStep c ab s
  | .encoderIndex c => Sys2Proof.Machine.execEncoderIndex c s
  | .encoderLineFault c pairs => Sys2Proof.Machine.execEncoderLineFault c pairs s
  | .encoderLineFaultEnd c => Sys2Proof.Machine.execEncoderLineFaultEnd c s
  | .resolverPair c p => Sys2Proof.Machine.execResolverPair c p s
  | .ssiFrameEnd c bits lowAtStart => Sys2Proof.Machine.execSsiFrameEnd c bits lowAtStart s
  | .hallChange c code => Sys2Proof.Machine.execHallChange c code s
  | .positionLatchStrobe c => Sys2Proof.Machine.execPositionLatchStrobe c s
  | .positionLatchDelivery c => Sys2Proof.Machine.execPositionLatchDelivery c s
  | .standstillTimeout c => Sys2Proof.Machine.execStandstillTimeout c s
  | .posCntset c w => Sys2Proof.Machine.execPosCntset c w s
  | .posErrcntClear c => Sys2Proof.Machine.execPosErrcntClear c s
  | .emulationStep c => Sys2Proof.Machine.execEmulationStep c s
  | .positionCompareFire c n => Sys2Proof.Machine.execPositionCompareFire c n s
  | .xcmpFire c n => Sys2Proof.Machine.execXcmpFire c n s
  | .triggerFire c n => Sys2Proof.Machine.execTriggerFire c n s
  | .conversionStore c v vr vref e => Sys2Proof.Machine.execConversionStore c v vr vref e s
  | .groupEnd c => Sys2Proof.Machine.execGroupEnd c s
  | .subcmd c w => Sys2Proof.Machine.execSubcmd c w s
  | .refReadyRise c => Sys2Proof.Machine.execRefReadyRise c s
  | .refReadyFall c => Sys2Proof.Machine.execRefReadyFall c s
  | .sdWordComplete c q w => Sys2Proof.Machine.execSdWordComplete c q w s
  | .sdStreamStuck c q => Sys2Proof.Machine.execSdStreamStuck c q s
  | .fastComparatorChange c q v => Sys2Proof.Machine.execFastComparatorChange c q v s
  | .comparatorSettleEnd c q v => Sys2Proof.Machine.execComparatorSettleEnd c q v s
  | .calZeroStep c w => Sys2Proof.Machine.execCalZeroStep c w s
  | .calFullScaleStep c w => Sys2Proof.Machine.execCalFullScaleStep c w s
  | .calStepDone c s0 s1 s2 s3 => Sys2Proof.Machine.execCalStepDone c s0 s1 s2 s3 s
  | .adcErrcntClear c => Sys2Proof.Machine.execAdcErrcntClear c s
  | .slowRound d m => Sys2Proof.Machine.execSlowRound d m s
  | .pulseDecision c leg => Sys2Proof.Machine.execPulseDecision c leg s
  | .compareFire c leg second => Sys2Proof.Machine.execCompareFire c leg second s
  | .deadTimeEnd c leg => Sys2Proof.Machine.execDeadTimeEnd c leg s
  | .nodeCrossing c leg x => Sys2Proof.Machine.execNodeCrossing c leg x s
  | .tripInputAssert c m => Sys2Proof.Machine.execTripInputAssert c m s
  | .blankingWindowEnd c m => Sys2Proof.Machine.execBlankingWindowEnd c m s
  | .ascSwitchOn c x => Sys2Proof.Machine.execAscSwitchOn c x s
  | .swtrip c w => Sys2Proof.Machine.execSwtrip c w s
  | .tripClear c w => Sys2Proof.Machine.execTripClear c w s
  | .pwmErrcntClear c => Sys2Proof.Machine.execPwmErrcntClear c s
  | .cascadeStartRequest c => Sys2Proof.Machine.execCascadeStartRequest c s
  | .casCmdStart c w => Sys2Proof.Machine.execCasCmdStart c w s
  | .rcset c w => Sys2Proof.Machine.execRcset c w s
  | .caparm c w => Sys2Proof.Machine.execCaparm c w s
  | .capstop c w => Sys2Proof.Machine.execCapstop c w s
  | .vld k vd x => Sys2Proof.Machine.execVld k vd x s
  | .vst k va x => Sys2Proof.Machine.execVst k va x s
  | .vlds k vd x => Sys2Proof.Machine.execVlds k vd x s
  | .ldr k vd x => Sys2Proof.Machine.execLdr k vd x s
  | .lda k vd x => Sys2Proof.Machine.execLda k vd x s
  | .ldref k vd x => Sys2Proof.Machine.execLdref k vd x s
  | .mov k vd va => Sys2Proof.Machine.execMov k vd va s
  | .splat k vd va x => Sys2Proof.Machine.execSplat k vd va x s
  | .perm k vd va x => Sys2Proof.Machine.execPerm k vd va x s
  | .sete k vd x => Sys2Proof.Machine.execSete k vd x s
  | .vadd k vd va vb => Sys2Proof.Machine.execVadd k vd va vb s
  | .vsub k vd va vb => Sys2Proof.Machine.execVsub k vd va vb s
  | .vaddw k vd va vb => Sys2Proof.Machine.execVaddw k vd va vb s
  | .vmul k vd va vb => Sys2Proof.Machine.execVmul k vd va vb s
  | .vneg k vd va => Sys2Proof.Machine.execVneg k vd va s
  | .vabs k vd va => Sys2Proof.Machine.execVabs k vd va s
  | .vmin k vd va vb => Sys2Proof.Machine.execVmin k vd va vb s
  | .vmax k vd va vb => Sys2Proof.Machine.execVmax k vd va vb s
  | .vmac k ac va vb => Sys2Proof.Machine.execVmac k ac va vb s
  | .aclr k ac x => Sys2Proof.Machine.execAclr k ac x s
  | .accr k vd ac => Sys2Proof.Machine.execAccr k vd ac s
  | .norm k vd va => Sys2Proof.Machine.execNorm k vd va s
  | .normx k vd va x => Sys2Proof.Machine.execNormx k vd va x s
  | .tst k va x => Sys2Proof.Machine.execTst k va x s
  | .clarke k vd va => Sys2Proof.Machine.execClarke k vd va s
  | .iclarke k vd va => Sys2Proof.Machine.execIclarke k vd va s
  | .park k vd va vb => Sys2Proof.Machine.execPark k vd va vb s
  | .ipark k vd va vb => Sys2Proof.Machine.execIpark k vd va vb s
  | .sincos k vd va => Sys2Proof.Machine.execSincos k vd va s
  | .pi k vd va vb x => Sys2Proof.Machine.execPi k vd va vb x s
  | .tint k vd va x => Sys2Proof.Machine.execTint k vd va x s
  | .rcl k vd va => Sys2Proof.Machine.execRcl k vd va s
  | .rcr k vd => Sys2Proof.Machine.execRcr k vd s
  | .inj k vd va x => Sys2Proof.Machine.execInj k vd va x s
  | .out k va => Sys2Proof.Machine.execOut k va s
  | .cap k va => Sys2Proof.Machine.execCap k va s
  | .putpos k va x => Sys2Proof.Machine.execPutpos k va x s
  | .casSig k x => Sys2Proof.Machine.execCasSig k x s
  | .casBr k cond x => Sys2Proof.Machine.execCasBr k cond x s
  | .nop k => Sys2Proof.Machine.execNop k s
  | .casEnd k => Sys2Proof.Machine.execCasEnd k s
  | .runmaxExpiry c => Sys2Proof.Machine.execRunmaxExpiry c s
  | .binAdvance c => Sys2Proof.Machine.execBinAdvance c s
  | .injectionStep c => Sys2Proof.Machine.execInjectionStep c s
  | .captureTrigger c => Sys2Proof.Machine.execCaptureTrigger c s
  | .capd23Read c => Sys2Proof.Machine.execCapd23Read c s
  | .runpkClear c => Sys2Proof.Machine.execRunpkClear c s
  | .runreq c w => Sys2Proof.Machine.execRunreq c w s
  | .stopreq c w => Sys2Proof.Machine.execStopreq c w s
  | .reqfwd c w => Sys2Proof.Machine.execReqfwd c w s
  | .reqrev c w => Sys2Proof.Machine.execReqrev c w s
  | .llack c w => Sys2Proof.Machine.execLlack c w s
  | .lockedRotorDetect c => Sys2Proof.Machine.execLockedRotorDetect c s
  | .linkHoldExpiry c => Sys2Proof.Machine.execLinkHoldExpiry c s
  | .catchEnd c => Sys2Proof.Machine.execCatchEnd c s
  | .coastExpiry c => Sys2Proof.Machine.execCoastExpiry c s
  | .cascadeWatchdogExpiry c => Sys2Proof.Machine.execCascadeWatchdogExpiry c s
  | .mscntClear c => Sys2Proof.Machine.execMscntClear c s
  | .threePinModeEntry c => Sys2Proof.Machine.execThreePinModeEntry c s
  | .threePinModeExit c => Sys2Proof.Machine.execThreePinModeExit c s
  | .ginCodeAccept c code => Sys2Proof.Machine.execGinCodeAccept c code s
  | .ginDwellEnd c => Sys2Proof.Machine.execGinDwellEnd c s
  | .gateFaultLatch c x => Sys2Proof.Machine.execGateFaultLatch c x s
  | .overvoltageStage2 x => Sys2Proof.Machine.execOvervoltageStage2 x s
  | .brakeStage1On x => Sys2Proof.Machine.execBrakeStage1On x s
  | .brakeStage1Off x => Sys2Proof.Machine.execBrakeStage1Off x s
  | .brakeIntervalEnd c => Sys2Proof.Machine.execBrakeIntervalEnd c s
  | .dstart c w => Sys2Proof.Machine.execDstart c w s
  | .dstop c w => Sys2Proof.Machine.execDstop c w s
  | .dischargeFeedback c active => Sys2Proof.Machine.execDischargeFeedback c active s
  | .dischargeFeedbackTimeout c => Sys2Proof.Machine.execDischargeFeedbackTimeout c s
  | .dischargeVoltageChange c v => Sys2Proof.Machine.execDischargeVoltageChange c v s
  | .dischargeVoltageTimeout c => Sys2Proof.Machine.execDischargeVoltageTimeout c s
  | .dischargeMaxExpiry c => Sys2Proof.Machine.execDischargeMaxExpiry c s
  | .bootstrapChargeEntry c leg => Sys2Proof.Machine.execBootstrapChargeEntry c leg s
  | .gdiErrcntClear c => Sys2Proof.Machine.execGdiErrcntClear c s
  | .lockstepMismatch d grp => Sys2Proof.Machine.execLockstepMismatch d grp s
  | .selfTestDone d mainFails shadowFails => Sys2Proof.Machine.execSelfTestDone d mainFails shadowFails s
  | .stateLoadDone d equal => Sys2Proof.Machine.execStateLoadDone d equal s
  | .restorationDone d journalEcc logEcc => Sys2Proof.Machine.execRestorationDone d journalEcc logEcc s
  | .checkpointOverdue d => Sys2Proof.Machine.execCheckpointOverdue d s
  | .splitEffect d => Sys2Proof.Machine.execSplitEffect d s
  | .joinEffect d => Sys2Proof.Machine.execJoinEffect d s
  | .splitmaxExpiry d => Sys2Proof.Machine.execSplitmaxExpiry d s
  | .codeCheckPass d mismatch => Sys2Proof.Machine.execCodeCheckPass d mismatch s
  | .lscCntClear d => Sys2Proof.Machine.execLscCntClear d s
  | .stoInputChange c inB level => Sys2Proof.Machine.execStoInputChange c inB level s
  | .stoDelayTimerExpiry c inB => Sys2Proof.Machine.execStoDelayTimerExpiry c inB s
  | .stoDiscrepancy c => Sys2Proof.Machine.execStoDiscrepancy c s
  | .storst c w => Sys2Proof.Machine.execStorst c w s
  | .stotest c w => Sys2Proof.Machine.execStotest c w s
  | .stoTestDone c pass => Sys2Proof.Machine.execStoTestDone c pass s
  | .ss1req c w => Sys2Proof.Machine.execSs1req c w s
  | .ss1clr c w => Sys2Proof.Machine.execSs1clr c w s
  | .ss1TimerExpiry c => Sys2Proof.Machine.execSs1TimerExpiry c s
  | .contactorClose c w => Sys2Proof.Machine.execContactorClose c w s
  | .contactorOpen c w => Sys2Proof.Machine.execContactorOpen c w s
  | .contactorFeedbackChange c q level => Sys2Proof.Machine.execContactorFeedbackChange c q level s
  | .contactorTimeLimit c q => Sys2Proof.Machine.execContactorTimeLimit c q s
  | .kclr c w => Sys2Proof.Machine.execKclr c w s
  | .torqueEstimate c => Sys2Proof.Machine.execTorqueEstimate c s
  | .tpstaleExpiry c => Sys2Proof.Machine.execTpstaleExpiry c s
  | .haltGuardExpiry c => Sys2Proof.Machine.execHaltGuardExpiry c s
  | .hgclr c w => Sys2Proof.Machine.execHgclr c w s
  | .safeUnlock c w => Sys2Proof.Machine.execSafeUnlock c w s
  | .relock c w => Sys2Proof.Machine.execRelock c w s
  | .unlockTimeout c => Sys2Proof.Machine.execUnlockTimeout c s
  | .labenter c w => Sys2Proof.Machine.execLabenter c w s
  | .labexit c w => Sys2Proof.Machine.execLabexit c w s
  | .oscWindowCheck c first count => Sys2Proof.Machine.execOscWindowCheck c first count s
  | .logEntryWrite c => Sys2Proof.Machine.execLogEntryWrite c s
  | .logd4Read c => Sys2Proof.Machine.execLogd4Read c s
  | .thermalShutdown d sensor => Sys2Proof.Machine.execThermalShutdown d sensor s
  | .thermalRestart d => Sys2Proof.Machine.execThermalRestart d s
  | .sdclr d w => Sys2Proof.Machine.execSdclr d w s
  | .outputStageFault c x => Sys2Proof.Machine.execOutputStageFault c x s
  | .outputStageChange c x => Sys2Proof.Machine.execOutputStageChange c x s
  | .comparatorTestDone c offset found => Sys2Proof.Machine.execComparatorTestDone c offset found s
  | .rowRepairDone d m row => Sys2Proof.Machine.execRowRepairDone d m row s
  | .marginReadPass d failing => Sys2Proof.Machine.execMarginReadPass d failing s
  | .liveBankParityError c x => Sys2Proof.Machine.execLiveBankParityError c x s
  | .wearRecordSave d ok => Sys2Proof.Machine.execWearRecordSave d ok s
  | .sprChangeStage c w => Sys2Proof.Machine.execSprChangeStage c w s
  | .sprSpareCell c w => Sys2Proof.Machine.execSprSpareCell c w s
  | .sprSaveRecord d w => Sys2Proof.Machine.execSprSaveRecord d w s
  | .portEnable w => Sys2Proof.Machine.execPortEnable w s
  | .bypassChange => Sys2Proof.Machine.execBypassChange s
  | .linkUp p => Sys2Proof.Machine.execLinkUp p s
  | .linkDown p => Sys2Proof.Machine.execLinkDown p s
  | .unwrap p => Sys2Proof.Machine.execUnwrap p s
  | .frameReceive p f => Sys2Proof.Machine.execFrameReceive p f s
  | .frameSend p => Sys2Proof.Machine.execFrameSend p s
  | .cycleStart => Sys2Proof.Machine.execCycleStart s
  | .cyclicTxPrepare => Sys2Proof.Machine.execCyclicTxPrepare s
  | .cyclicFrame p f => Sys2Proof.Machine.execCyclicFrame p f s
  | .cyclicRxCopy q => Sys2Proof.Machine.execCyclicRxCopy q s
  | .timeFrame p f own => Sys2Proof.Machine.execTimeFrame p f own s
  | .ringTimeInvalid => Sys2Proof.Machine.execRingTimeInvalid s
  | .cycleMiss => Sys2Proof.Machine.execCycleMiss s
  | .remoteRead p src tag addr rcnt => Sys2Proof.Machine.execRemoteRead p src tag addr rcnt s
  | .remoteWrite p src tag addr data => Sys2Proof.Machine.execRemoteWrite p src tag addr data s
  | .response tag stat data => Sys2Proof.Machine.execResponse tag stat data s
  | .remoteAccessTimeout tag => Sys2Proof.Machine.execRemoteAccessTimeout tag s
  | .neighbourDelayRequest p => Sys2Proof.Machine.execNeighbourDelayRequest p s
  | .neighbourDelayReply p delay => Sys2Proof.Machine.execNeighbourDelayReply p delay s
  | .linkDelayMeasure p => Sys2Proof.Machine.execLinkDelayMeasure p s
  | .discovery p src => Sys2Proof.Machine.execDiscovery p src s
  | .eventReport p src events => Sys2Proof.Machine.execEventReport p src events s
  | .updateChunk p src tag head data => Sys2Proof.Machine.execUpdateChunk p src tag head data s
  | .updateChunkWritten => Sys2Proof.Machine.execUpdateChunkWritten s
  | .ringTimeCapture d => Sys2Proof.Machine.execRingTimeCapture d s
  | .mbxDoor c w => Sys2Proof.Machine.execMbxDoor c w s
  | .ringErrcntClear => Sys2Proof.Machine.execRingErrcntClear s
  | .stagingOpen w => Sys2Proof.Machine.execStagingOpen w s
  | .stagingSeal w => Sys2Proof.Machine.execStagingSeal w s
  | .stagingSealDone => Sys2Proof.Machine.execStagingSealDone s
  | .stagingClose w => Sys2Proof.Machine.execStagingClose w s
  | .revert w => Sys2Proof.Machine.execRevert w s
  | .cancel w => Sys2Proof.Machine.execCancel w s
  | .updCntClear => Sys2Proof.Machine.execUpdCntClear s
  | .hostRomPhaseDone r => Sys2Proof.Machine.execHostRomPhaseDone r s
  | .debugRead d q => Sys2Proof.Machine.execDebugRead d q s
  | .debugWrite d q data => Sys2Proof.Machine.execDebugWrite d q data s
  | .debugPortAbort d => Sys2Proof.Machine.execDebugPortAbort d s
  | .debugAccessComplete d => Sys2Proof.Machine.execDebugAccessComplete d s
  | .dbgAuth d key => Sys2Proof.Machine.execDbgAuth d key s
  | .haltreq d w => Sys2Proof.Machine.execHaltreq d w s
  | .debugHaltEffect d => Sys2Proof.Machine.execDebugHaltEffect d s
  | .resume d w => Sys2Proof.Machine.execResume d w s
  | .step d w => Sys2Proof.Machine.execStep d w s
  | .whalt c w => Sys2Proof.Machine.execWhalt c w s
  | .wresume c w => Sys2Proof.Machine.execWresume c w s
  | .chalt c w => Sys2Proof.Machine.execChalt c w s
  | .cresume c w => Sys2Proof.Machine.execCresume c w s
  | .breakpointHit d q => Sys2Proof.Machine.execBreakpointHit d q s
  | .watchpointHit d q store addr => Sys2Proof.Machine.execWatchpointHit d q store addr s
  | .weirBreakpointHit c => Sys2Proof.Machine.execWeirBreakpointHit c s
  | .cascadeBreakpointHit c => Sys2Proof.Machine.execCascadeBreakpointHit c s
  | .perfCntloRead d e x => Sys2Proof.Machine.execPerfCntloRead d e x s
  | .perfCntclr d w => Sys2Proof.Machine.execPerfCntclr d w s
  | .perfSampleClear d w => Sys2Proof.Machine.execPerfSampleClear d w s
  | .extest lo hi => Sys2Proof.Machine.execExtest lo hi s
  | .fuseoff => Sys2Proof.Machine.execFuseoff s
  | .registerWrite d addr w => Sys2Proof.Machine.execRegisterWrite d addr w s
  | .linkAlign p => Sys2Proof.Machine.execLinkAlign p s
  | .ssiMonoEnd c => Sys2Proof.Machine.execSsiMonoEnd c s
  | .tripInputRelease c m => Sys2Proof.Machine.execTripInputRelease c m s
  | .overvoltageStage2Release x => Sys2Proof.Machine.execOvervoltageStage2Release x s
  | .gateFaultReportRelease c x => Sys2Proof.Machine.execGateFaultReportRelease c x s
  | .bootstrapReportChange c leg active => Sys2Proof.Machine.execBootstrapReportChange c leg active s

end Sys2Proof.Machine
end

