-- ==== Sys2Proof/Safety.lean ====
section
/-! DEFINITION. Safety.lean: the terms in which the statements about the block are made: a command that answers a next
state, what a command of a channel or an instruction of a core may touch, and the conditions under which a core or an
engine executes. -/

namespace Sys2Proof.Machine

/-! ## Answers -/

/-- The command answers a next state, and that state has property P. -/
def Answers (i : Instr) (s : State) (P : State → Prop) : Prop := ∃ t, exec i s = .next t ∧ P t

/-! ## What counting may touch -/

/-- A field that no event, counter, log entry or link indication writes: not of the wrap bits, EVT_OVR or MBX_STAT, and
apart from LSC_STAT.LOGOVF. -/
abbrev Fld.quiet (f : Fld) : Prop :=
  f.hi < 32 ∧ ¬(0xC0080 ≤ f.reg ∧ f.reg < 0xC00B0) ∧ ¬(0x10030 ≤ f.reg ∧ f.reg < 0x10040) ∧ f.reg ≠ 0xE0000 ∧
    (f.reg = 0x90100 → f.hi < 14 ∨ 14 < f.lo)

/-- The second domain is the first but for its counters, events that have joined those waiting, what has been noted of the
cycle, and fields that are not quiet. -/
structure Counted (a b : Domain) : Prop where
  parts : ∃ r p q n y, b = { a with regs := r, perf := p, evq := a.evq ++ q, evNext := n, cyc := y }
  rg : ∀ f : Fld, f.quiet → b.rg f = a.rg f

/-- Two channels that differ only as `Counted` domains do. -/
structure CountedCh (a b : Channel) : Prop where
  dom : Counted a.dom b.dom
  rest : b = { a with dom := b.dom }

/-- The event with this number and argument waits, stamped with the present cycle of the domain before the command. -/
def Waits (a b : Domain) (ev arg : Nat) : Prop := ⟨BitVec.ofNat 7 ev, a.time, BitVec.ofNat 16 arg⟩ ∈ b.evq

/-- The source of an event has room in its queue, and has raised none in this cycle (R167, R168). -/
def HasRoom (d : Domain) (ev : Nat) : Prop :=
  (d.evq.filter (fun e => e.src == BitVec.ofNat 7 ev)).length < 4 ∧ sget 0 d.evNext ev ≤ d.time

/-- Every domain has its own number, as R49 and R50 give it: 0 to 3 for the channels, 4 for the host domain. -/
structure Placed (s : State) : Prop where
  ch : ∀ n, (s.ch n).dom.id = n.idx
  host : s.host.dom.id = 4

/-! ## Commands of a channel -/

/-- The channel is not held in reset. -/
def State.up (s : State) (n : Chan) : Prop := (s.ch n).dom.inReset = false

/-- Nothing outside channel n changes, but registers, counters and events of the host domain that tell of the channel. -/
structure Outside (s t : State) (n : Chan) : Prop where
  other : ∀ m, m ≠ n → t.ch m = s.ch m
  dev : t.dev = s.dev
  pending : t.pending = s.pending
  ring : t.host.ring = s.host.ring
  upd : t.host.upd = s.host.upd
  host : ∃ r p q n y, t.host.dom = { s.host.dom with regs := r, perf := p, evq := q, evNext := n, cyc := y }

/-- A command of channel n answers a next state in which the channel has property P, and touches nothing outside it. -/
def ChAnswers (i : Instr) (s : State) (n : Chan) (P : Channel → Prop) : Prop :=
  Answers i s fun t => P (t.ch n) ∧ Outside s t n

/-- The channel becomes `c`, up to what is counted. -/
def ChBecomes (i : Instr) (s : State) (n : Chan) (c : Channel) : Prop := ChAnswers i s n (CountedCh c)

/-! ## Weir threads (R192, R193) -/

/-- Weir is not halted, nor to halt at a breakpoint, and it is the thread's turn to issue (R192, R533). -/
def Channel.turnOf (c : Channel) (t : Thread) : Prop :=
  c.weir.halted = false ∧ c.weir.nextReady = some t ∧ c.weirAtBreak t = false

/-- Weir after thread t has issued, the thread having become `x`. -/
def Weir.after (w : Weir) (t : Thread) (x : WThread) : Weir :=
  { w with last := t, issued := true, past := if w.past = some (w.th t).pc then none else w.past }.setTh t x

/-! ## Instructions of a core -/

def State.core (s : State) (d : Dom) (e : Eng) : Core := (s.dom d).core e

/-- The engine of `k` executes, waits for nothing, stands neither at a breakpoint nor, in a replay, before a logged entry,
fetches its instruction without a fault, and no register the instruction uses still awaits a load (R120, R129, R132, R133,
R398, R533). -/
structure Ready (s : State) (k : At) (uses : List GReg) : Prop where
  up : (s.dom k.d).inReset = false
  runs : (s.dom k.d).runs k.e = true
  wait : (s.core k.d k.e).wait = .none
  brk : (s.dom k.d).breakDue k.e = false
  entry : (s.dom k.d).entryDue k.e = none
  fetch : (s.dom k.d).fetchFault k.e k.f = none
  uses : (s.core k.d k.e).awaits uses = none

/-- A core whose instruction retires: it is counted and its reservation ages (R127, R396). -/
def Core.retiring (x : Core) : Core :=
  { x with
    retired := x.retired + 1, wait := .none
    rsv := match x.rsv with | some (a, n + 1) => some (a, n) | _ => none }

/-- Everything but the cores of the executing pair stays: memories, block registers but those that count and the cause of
a debug step, the blocks of every channel, the ring, the update manager, the device's own parts and the queue. -/
structure CoreFrame (s t : State) (d : Dom) (e : Eng) : Prop where
  cores : ∀ x y, (x ≠ d ∨ (y ≠ e ∧ (s.dom d).shadow ≠ some y)) → t.core x y = s.core x y
  mem : ∀ x, (t.dom x).mem = (s.dom x).mem
  regs : ∀ x f, f.quiet → f.reg ≠ DBG_STAT_CAUSE.reg → (t.dom x).rg f = (s.dom x).rg f
  blocks : ∀ n, t.ch n = { s.ch n with dom := (t.ch n).dom }
  ring : t.host.ring = s.host.ring
  upd : t.host.upd = s.host.upd
  dev : t.dev = s.dev
  pending : t.pending = s.pending

/-- The instruction retires, its core having become `x`, and nothing else changes. -/
def Retires (i : Instr) (s : State) (k : At) (x : Core) : Prop :=
  Answers i s fun t => t.core k.d k.e = x.retiring ∧ CoreFrame s t k.d k.e

/-- The instruction leaves its core as `x`, not retired, and nothing else changes. -/
def LeavesCore (i : Instr) (s : State) (k : At) (x : Core) : Prop :=
  Answers i s fun t => t.core k.d k.e = x ∧ CoreFrame s t k.d k.e

/-! ## Commands of a domain -/

/-- Only domain d changes: the memories and cores of the others, the blocks of every channel, the ring, the update manager,
the device's own parts and the queue stay. -/
structure DomFrame (s t : State) (d : Dom) : Prop where
  others : ∀ x, x ≠ d → (t.dom x).mem = (s.dom x).mem ∧ ∀ e, t.core x e = s.core x e
  blocks : ∀ n, t.ch n = { s.ch n with dom := (t.ch n).dom }
  ring : t.host.ring = s.host.ring
  upd : t.host.upd = s.host.upd
  dev : t.dev = s.dev
  pending : t.pending = s.pending

/-- A command of domain d answers a next state in which the domain has property P, and changes nothing outside it. -/
def DomAnswers (i : Instr) (s : State) (d : Dom) (P : Domain → Prop) : Prop :=
  Answers i s fun t => P (t.dom d) ∧ DomFrame s t d

/-! ## Commands of the ring port and the update manager -/

/-- Outside the host domain nothing changes but what the channels are told of the link; the host cores stay. -/
structure HostSide (s t : State) : Prop where
  chs : ∀ n, ∃ r p q x y, t.ch n =
    { s.ch n with dom := { (s.ch n).dom with regs := r, perf := p, evq := q, evNext := x, cyc := y } }
  cores : ∀ e, t.host.dom.core e = s.host.dom.core e
  dev : t.dev = s.dev
  pending : t.pending = s.pending

/-- Of the host domain nothing changes but registers, counters, events, the free values used, the ring and the update
manager. -/
structure HostFrame (s t : State) : Prop where
  side : HostSide s t
  host : ∃ r p q n y u, t.host.dom = { s.host.dom with regs := r, perf := p, evq := q, evNext := n, cyc := y, fresh := u }

/-- A command of the host domain answers a next state in which that domain has property P, and changes nothing else. -/
def HostAnswers (i : Instr) (s : State) (P : HostDom → Prop) : Prop :=
  Answers i s fun t => P t.host ∧ HostFrame s t

/-- The host domain becomes `h`, up to what is counted, and nothing outside it changes. -/
def HostBecomes (i : Instr) (s : State) (h : HostDom) : Prop :=
  Answers i s fun t => t.host = { h with dom := t.host.dom } ∧ Counted h.dom t.host.dom ∧ HostSide s t

/-! ## Exception entry (R135 to R138) -/

/-- The maskable path may be entered: neither handler level is active and no trip notification goes first, which during a
replay none does (R135 to R138, R398). -/
def MaskOpen (s : State) (k : At) : Prop :=
  (s.core k.d k.e).exl = false ∧ (s.core k.d k.e).nexl = false
    ∧ ((s.dom k.d).tripPending k.e = false ∨ (s.dom k.d).replays k.e = true)

/-- What entry to the maskable path makes of a core: EPC, CAUSE and XVAL saved, IE, IPL and the level moved to their
saved places, System level, the handler at VBASE + offset, no reservation and no wait (R127, R135). -/
def Entered (x y : Core) (cause value offset : Word) (ipl : Option (BitVec 4)) : Prop :=
  (∀ i, i < 32 → y.status.getLsbD i =
    (if i = 1 then false
     else if i = 2 then x.status.getLsbD 1
     else if i = 4 then decide (x.priv = .system)
     else if i = 5 then true
     else if 10 ≤ i ∧ i ≤ 13 then x.status.getLsbD (i - 4)
     else match ipl with
       | some l => if 6 ≤ i ∧ i ≤ 9 then l.getLsbD (i - 6) else x.status.getLsbD i
       | none => x.status.getLsbD i)) ∧
  y = { x with
    epc := x.pc, cause := cause, xval := value, status := y.status, priv := .system, pc := x.vbase + offset, wait := .none
    rsv := none }

/-! ## Cascade instructions (R316, R318) -/

/-- In this cycle the next instruction of run r issues, of which RUNMAX leaves `cycles`: the channel is up, the run is in
progress, the instruction before has finished, and Cascade is neither halted nor to halt at a breakpoint (R318, R319,
R533). -/
structure CasReady (s : State) (c : Chan) (r : Run) (cycles : Nat) : Prop where
  up : s.up c
  run : (s.ch c).issuing = some r
  lasts : r.outlasts (r.len + cycles) = false

/-- The run as an instruction finds it, with nothing said yet about saturation or shifts. -/
def Run.begun (r : Run) : Run := { r with satNow := false, shiftNow := false }

/-- The run after a result has been delivered: its flags join those of the run (R309, R318). -/
def Run.took (r : Run) (x : Res) : Run :=
  { r with sat := r.sat || x.sat, ovf := r.ovf || x.ovf, satNow := x.sat, shiftNow := x.shift }

/-- The instruction completes, the channel having become `y` and the run `r`: the run goes on at the next program address,
`cycles` longer, and CAS_STAT.PC shows it; nothing else changes but what is counted. -/
def CasGoes (i : Instr) (s : State) (c : Chan) (y : Channel) (r : Run) (cycles : Nat) : Prop :=
  ChBecomes i s c ({ y with cas := { y.cas with run := some { r with pc := r.pc + 1, len := r.len + cycles }, past := none } }.setN
    CAS_STAT_PC (r.pc + 1).toNat)

/-- The instruction aborts the run with a code of R319: no run remains, the code and ERRF stand in CAS_STAT, no register of
Cascade, no memory and nothing outside CAS changes. -/
def Aborts (i : Instr) (s : State) (c : Chan) (code : Nat) : Prop :=
  ChAnswers i s c fun y => y.cas.run = none ∧ y.rgN CAS_STAT_ERR = code ∧ y.rgB CAS_STAT_ERRF = true ∧
    y.rgB CAS_STAT_BUSY = false ∧ y.cas.v = (s.ch c).cas.v ∧ y.cas.ac = (s.ch c).cas.ac ∧ y.pwm = (s.ch c).pwm ∧
    y.pos = (s.ch c).pos ∧ y.adc = (s.ch c).adc ∧ y.weir = (s.ch c).weir ∧ y.live = (s.ch c).live ∧
    y.dom.mem = (s.ch c).dom.mem

end Sys2Proof.Machine
end

