-- ==== Sys2Proof/Certificates/Slice0/Obligations.lean ====
section
/-! DEFINITION. Obligations.lean: the statements about the block, family by family, that are to be proved. -/

section

open Sys2Proof Sys2Proof.Machine

/-! ## Dziphor: integer instructions (R125) -/

/-- Every instruction of three registers, of one register, and of a register and an immediate retires with its result in rd
(nowhere when rd is g0), the program counter on the next instruction and nothing else changed; g0 reads as zero and a write
to it is discarded; any other register reads as what was written last (R116, R125). -/
def Obligations.IntegerInstructions : Prop :=
  (∀ (s : State) (k : At) (rd rs1 rs2 : GReg), Ready s k [rd, rs1, rs2] →
     let x := s.core k.d k.e
     let a := x.rd rs1
     let b := x.rd rs2
     let one (p : Bool) : Word := if p then 1 else 0
     let sat (v : Int) : Word :=
       if v < -2147483648 then 0x80000000 else if 2147483647 < v then 0x7FFFFFFF else BitVec.ofInt 32 v
     let high (v : Int) : Word := BitVec.ofInt 32 (v / 4294967296)
     ∀ p ∈ [(Instr.add k rd rs1 rs2, a + b), (.sub k rd rs1 rs2, a - b), (.bAnd k rd rs1 rs2, a &&& b),
       (.bOr k rd rs1 rs2, a ||| b), (.bXor k rd rs1 rs2, a ^^^ b), (.shl k rd rs1 rs2, a <<< (b.toNat % 32)),
       (.shr k rd rs1 rs2, a >>> (b.toNat % 32)), (.sar k rd rs1 rs2, a.sshiftRight (b.toNat % 32)),
       (.setlt k rd rs1 rs2, one (decide (a.toInt < b.toInt))), (.setltu k rd rs1 rs2, one (decide (a.toNat < b.toNat))),
       (.min k rd rs1 rs2, if a.toInt ≤ b.toInt then a else b), (.max k rd rs1 rs2, if a.toInt ≤ b.toInt then b else a),
       (.minu k rd rs1 rs2, if a.toNat ≤ b.toNat then a else b), (.maxu k rd rs1 rs2, if a.toNat ≤ b.toNat then b else a),
       (.adds k rd rs1 rs2, sat (a.toInt + b.toInt)), (.subs k rd rs1 rs2, sat (a.toInt - b.toInt)),
       (.mul k rd rs1 rs2, a * b), (.mulhiSs k rd rs1 rs2, high (a.toInt * b.toInt)),
       (.mulhiUu k rd rs1 rs2, high ((a.toNat : Int) * b.toNat)), (.mulhiSu k rd rs1 rs2, high (a.toInt * b.toNat)),
       (.divs k rd rs1 rs2,
         if b = 0 then (if a.toInt < 0 then 0x80000000 else 0x7FFFFFFF) else sat (a.toInt.tdiv b.toInt)),
       (.divu k rd rs1 rs2, if b = 0 then 0xFFFFFFFF else BitVec.ofNat 32 (a.toNat / b.toNat)),
       (.mods k rd rs1 rs2, if b = 0 then a else BitVec.ofInt 32 (a.toInt.tmod b.toInt)),
       (.modu k rd rs1 rs2, if b = 0 then a else BitVec.ofNat 32 (a.toNat % b.toNat))],
       Retires p.1 s k (x.wr rd p.2).next) ∧
  (∀ (s : State) (k : At) (rd rs1 : GReg) (imm : BitVec 16) (n : BitVec 5), Ready s k [rd, rs1] →
     let x := s.core k.d k.e
     let a := x.rd rs1
     let one (p : Bool) : Word := if p then 1 else 0
     (∀ p ∈ [(Instr.clz k rd rs1, if a = 0 then 32 else BitVec.ofNat 32 (31 - a.toNat.log2)),
       (.addK k rd rs1 imm, a + imm.signExtend 32),
       (.setltK k rd rs1 imm, one (decide (a.toInt < imm.toInt))),
       (.setltuK k rd rs1 imm, one (decide (a.toNat < (imm.signExtend 32).toNat))),
       (.andK k rd rs1 imm, a &&& imm.zeroExtend 32), (.orK k rd rs1 imm, a ||| imm.zeroExtend 32),
       (.xorK k rd rs1 imm, a ^^^ imm.zeroExtend 32),
       (.shlK k rd rs1 n, a <<< n.toNat), (.shrK k rd rs1 n, a >>> n.toNat), (.sarK k rd rs1 n, a.sshiftRight n.toNat)],
       Retires p.1 s k (x.wr rd p.2).next)) ∧
  (∀ (s : State) (k : At) (rd : GReg) (imm : BitVec 16), Ready s k [rd] →
     Retires (.ldhi k rd imm) s k ((s.core k.d k.e).wr rd (imm.zeroExtend 32 <<< 16)).next) ∧
  (∀ (x : Core) (r q : GReg) (v : Word),
     x.rd 0 = 0 ∧ x.wr 0 v = x ∧ (x.wr r v).rd q = if q = r ∧ r ≠ 0 then v else x.rd q)

/-! ## Dziphor: control transfer and exceptions (R128 to R138) -/

/-- Branches go by their comparison; CALL and CALLR save the return address; a CALLR target off its boundary is taken by
`AccessesIssueOrTrap` (R128). -/
def Obligations.ControlTransfers : Prop :=
  ∀ (s : State) (k : At) (rd rs1 rs2 : GReg) (off imm : BitVec 16) (o21 : BitVec 21),
    let x := s.core k.d k.e
    let a := x.rd rs1
    let b := x.rd rs2
    (Ready s k [rs1, rs2] →
      ∀ p ∈ [(Instr.brEq k rs1 rs2 off, decide (a = b)), (.brNe k rs1 rs2 off, decide (a ≠ b)),
        (.brLt k rs1 rs2 off, decide (a.toInt < b.toInt)), (.brGe k rs1 rs2 off, decide (b.toInt ≤ a.toInt)),
        (.brLtu k rs1 rs2 off, decide (a.toNat < b.toNat)), (.brGeu k rs1 rs2 off, decide (b.toNat ≤ a.toNat))],
        Retires p.1 s k { x with pc := if p.2 then x.pc + 4 * off.signExtend 32 else x.pc + 4 }) ∧
    (Ready s k [rd] →
      Retires (.call k rd o21) s k { x.wr rd (x.pc + 4) with pc := x.pc + 4 * o21.signExtend 32 }) ∧
    (Ready s k [rd, rs1] → (a + imm.signExtend 32).toNat % 4 = 0 →
      Retires (.callr k rd rs1 imm) s k { x.wr rd (x.pc + 4) with pc := a + imm.signExtend 32 })

/-- SYSREQ takes exception 0x0B at User level and 0x0C at System level; DBGBRK exception 0x0D, or retires and asks for a
debug halt where the debug port has enabled it (R129, R133, R135). A privileged instruction at User level takes
exception 0x03 with the instruction word in XVAL (R129, R133). -/
def Obligations.SystemRequestsAndPrivilege : Prop :=
  (∀ (s : State) (k : At), Ready s k [] →
     let x := s.core k.d k.e
     (MaskOpen s k →
       Answers (.sysreq k) s (fun t => Entered x (t.core k.d k.e) (if x.priv = .user then 0x0B else 0x0C) 0 0 none
         ∧ CoreFrame s t k.d k.e)) ∧
     (MaskOpen s k → (s.dom k.d).rgB DBG_CTL_DBRKEN = false →
       Answers (.dbgbrk k) s (fun t => Entered x (t.core k.d k.e) 0x0D 0 0 none ∧ CoreFrame s t k.d k.e)) ∧
     ((s.dom k.d).rgB DBG_CTL_DBRKEN = true → (s.dom k.d).dbg.want = none →
       Answers (.dbgbrk k) s (fun t => t.core k.d k.e = x.next.retiring ∧ (t.dom k.d).dbg.want = some 2
         ∧ CoreFrame s t k.d k.e))) ∧
  (∀ (s : State) (k : At) (rd rs1 : GReg), Ready s k [] → (s.core k.d k.e).priv = .user →
     MaskOpen s k →
     ∀ i ∈ [Instr.retm k, .retn k, .idle k, .lsSplit k rd, .lsJoin k rd, .ckpt k rs1],
       Answers i s (fun t => Entered (s.core k.d k.e) (t.core k.d k.e) 3
         ((s.dom k.d).codeWord (s.core k.d k.e).pc) 0 none ∧ CoreFrame s t k.d k.e))

/-- RETM and RETN restore what their entries saved (R135, R136). -/
def Obligations.Returns : Prop :=
  ∀ (s : State) (k : At), Ready s k [] → (s.core k.d k.e).priv = .system →
    let x := s.core k.d k.e
    Answers (.retm k) s (fun t =>
      let y := t.core k.d k.e
      y.pc = x.epc ∧ y.priv = (if x.status.getLsbD 4 then .system else .user) ∧ y.ie = x.status.getLsbD 2 ∧ y.exl = false ∧
        y.ipl = min 8 (x.status.extractLsb' 10 4).toNat ∧
        y = { x.retiring with pc := y.pc, priv := y.priv, status := y.status } ∧ CoreFrame s t k.d k.e) ∧
    Answers (.retn k) s (fun t =>
      let y := t.core k.d k.e
      y.pc = x.nepc ∧ y.priv = (if x.nstatus.getLsbD 14 then .system else .user) ∧ y.nexl = false ∧
        y.status = statusStored (x.nstatus &&& 0x3FFF) ∧
        y = { x.retiring with pc := y.pc, priv := y.priv, status := y.status, nstatus := y.nstatus } ∧
        CoreFrame s t k.d k.e)

/-- INTERRUPT_ENTRY takes the highest pending class p at an open boundary: CAUSE 0x8000_0000 + p, IPL p + 1, the handler
at VBASE + 0x40 + 0x40 p; what XVAL then holds is a free value (log 3). TRIP_NOTIFICATION_ENTRY enters the non-maskable
path with the status saved whole. POSTED_STORE_BUS_ERROR takes exception 0x07 with the address of the oldest failure
(R134 to R139). In a replay the log says what is entered (R398), so these are entries outside one; they leave memory and
every core outside the pair as it is. -/
def Obligations.EntriesAtBoundaries : Prop :=
  ∀ (s : State) (d : Dom) (e : Eng),
    let k : At := ⟨d, e, .good⟩
    let x := s.core d e
    let rest (t : State) : Prop := ∀ b, (t.dom b).mem = (s.dom b).mem ∧
      ∀ y, (b ≠ d ∨ (y ≠ e ∧ (s.dom d).shadow ≠ some y)) → t.core b y = s.core b y
    (s.dom d).inReset = false → (s.dom d).runs e = true → x.wait = .none → (s.dom d).dbg.halted = false →
    (s.dom d).replays e = false →
    (∀ p, MaskOpen s k → (s.dom d).topLevel e = some p → x.ie = true → x.ipl ≤ p →
      Answers (.interruptEntry d e) s (fun t => ∃ v,
        Entered x (t.core d e) (0x80000000 + BitVec.ofNat 32 p) v (BitVec.ofNat 32 (0x40 + 0x40 * p))
          (some (BitVec.ofNat 4 (p + 1))) ∧ rest t)) ∧
    ((s.dom d).tripPending e = true → x.nexl = false →
      Answers (.tripNotificationEntry d e) s (fun t =>
        let y := t.core d e
        y.nepc = x.pc ∧ y.pc = x.vbase + 0x240 ∧ y.priv = .system ∧ y.ie = false ∧ y.exl = true ∧ y.nexl = true ∧
          y.nstatus.extractLsb' 0 14 = x.status.extractLsb' 0 14 ∧
          y.nstatus.getLsbD 14 = decide (x.priv = .system) ∧
          y = { x with
            nepc := x.pc, ncause := 0, nstatus := y.nstatus, status := y.status, priv := .system, pc := y.pc
            rsv := none } ∧ rest t)) ∧
    (∀ a more, x.postedErrs = a :: more → MaskOpen s k →
      Answers (.postedStoreBusError d e) s (fun t =>
        Entered { x with postedErrs := more } (t.core d e) 7 a 0 none ∧ rest t))

/-- CTL.SWAP, CTL.SET and CTL.CLR return the old CSR value; SWAP writes rs1, SET and CLR set or clear its bits, and with
rs1 = g0 they write nothing (R121, R129); at System level. TIME reads as the low
half of the domain's time and captures the upper half in TIMEH, at either level, with CTL.SET or CTL.CLR of g0; a write of
TIME or TIMEH returns the old value and changes nothing (R121, R122). In a replay both come from the log (R398). -/
def Obligations.ControlRegisterInstructions : Prop :=
  (∀ (s : State) (k : At) (rd rs1 : GReg) (csr : BitVec 12) (old : Word), Ready s k [rd, rs1] →
     (s.core k.d k.e).priv = .system → (s.dom k.d).csr k.e csr.toNat = some old → csr.toNat ≠ 0x010 → csr.toNat ≠ 0x011 →
     let x := s.core k.d k.e
     let v := x.rd rs1
     Retires (.ctlSwap k rd rs1 csr) s k ((x.csrWrite csr.toNat v).wr rd old).next ∧
     Retires (.ctlSet k rd rs1 csr) s k
       (((if rs1 = 0 then x else x.csrWrite csr.toNat (old ||| v)).wr rd old).next) ∧
     Retires (.ctlClr k rd rs1 csr) s k
       (((if rs1 = 0 then x else x.csrWrite csr.toNat (old &&& ~~~v)).wr rd old).next)) ∧
  (∀ (s : State) (k : At) (rd : GReg), Ready s k [rd, 0] → (s.dom k.d).replays k.e = false →
     let x := s.core k.d k.e
     let n := (s.dom k.d).time
     ∀ i ∈ [Instr.ctlSet k rd 0 0x010, .ctlClr k rd 0 0x010],
       Answers i s (fun t => t.core k.d k.e =
         (({ x with timeh := BitVec.ofNat 32 (n / 4294967296) } : Core).wr rd (BitVec.ofNat 32 n)).next.retiring ∧
         (t.dom k.d).mem = (s.dom k.d).mem)) ∧
  (∀ (s : State) (k : At) (rd rs1 : GReg) (csr : BitVec 12) (old : Word), Ready s k [rd, rs1] →
     (s.core k.d k.e).priv = .system → (s.dom k.d).replays k.e = false → csr = 0x010 ∨ csr = 0x011 →
     (s.dom k.d).csr k.e csr.toNat = some old →
     ∀ i ∈ Instr.ctlSwap k rd rs1 csr :: (if rs1 = 0 then [] else [.ctlSet k rd rs1 csr, .ctlClr k rd rs1 csr]),
       Answers i s (fun t => t.core k.d k.e = ((s.core k.d k.e).wr rd old).next.retiring ∧
         (t.dom k.d).mem = (s.dom k.d).mem)) ∧
  (∀ (s : State) (k : At) (rd rs1 : GReg) (csr : BitVec 12), Ready s k [rd, rs1] → MaskOpen s k →
     (s.core k.d k.e).priv = .user → csr ≠ 0x010 → csr ≠ 0x011 →
     ∀ i ∈ [Instr.ctlSwap k rd rs1 csr, .ctlSet k rd rs1 csr, .ctlClr k rd rs1 csr],
       Answers i s (fun t => Entered (s.core k.d k.e) (t.core k.d k.e)
         (if ((s.dom k.d).csr k.e csr.toNat).isSome then 3 else 2) ((s.dom k.d).codeWord (s.core k.d k.e).pc) 0 none ∧
         CoreFrame s t k.d k.e))

/-- IDLE waits until an interrupt or trip notification that passes IPL is pending, ignoring IE, and then retires;
IDLE_WAKE ends the wait (R129). A FENCE retires when every earlier access of its classes has been performed and no
failed posted store is owed, and waits otherwise; FENCE_RETIRE ends the wait (R129, R144). In a replay IDLE must stand in
the log (R398). -/
def Obligations.IdleAndFences : Prop :=
  (∀ (s : State) (k : At), (s.dom k.d).replays k.e = false →
     let x := s.core k.d k.e
     (Ready s k [] → x.priv = .system → (s.dom k.d).wakes k.e = true →
       Answers (.idle k) s (fun t => t.core k.d k.e = x.next.retiring ∧ (t.dom k.d).mem = (s.dom k.d).mem)) ∧
     (Ready s k [] → x.priv = .system → (s.dom k.d).wakes k.e = false →
       Answers (.idle k) s (fun t => (t.core k.d k.e).wait = .idle ∧ (t.core k.d k.e).pc = x.pc ∧
         (t.core k.d k.e).retired = x.retired)) ∧
     ((s.dom k.d).inReset = false → (s.dom k.d).runs k.e = true → x.wait = .idle → (s.dom k.d).wakes k.e = true →
       Answers (.idleWake k.d k.e) s (fun t => t.core k.d k.e = x.next.retiring ∧
         (t.dom k.d).mem = (s.dom k.d).mem))) ∧
  (∀ (s : State) (k : At) (o3 : BitVec 3) (o2 : BitVec 2) (o1 : BitVec 1),
     let x := s.core k.d k.e
     (Ready s k [] →
       ∀ p ∈ [(Instr.fenceM k o3, (o3 ++ (1 : BitVec 1) : BitVec 4)), (.fenceD k o2, (o2 ++ (2 : BitVec 2) : BitVec 4)),
         (.fenceP k o1, (o1 ++ (4 : BitVec 3) : BitVec 4)), (.fenceN k, 8), (.fenceAll k, 15)],
         ((s.dom k.d).drained k.e p.2 = true → (s.dom k.d).owes k.e p.2 = false → Retires p.1 s k x.next) ∧
         ((s.dom k.d).drained k.e p.2 = false ∨ (s.dom k.d).owes k.e p.2 = true →
           LeavesCore p.1 s k { x with wait := .fence p.2, since := (s.dom k.d).time })) ∧
     (∀ m, (s.dom k.d).inReset = false → (s.dom k.d).runs k.e = true → x.wait = .fence m →
       (s.dom k.d).drained k.e m = true → (s.dom k.d).owes k.e m = false →
       Answers (.fenceRetire k.d k.e) s (fun t => t.core k.d k.e = x.next.retiring ∧ CoreFrame s t k.d k.e)))

/-! ## Dziphor: memory accesses (R126, R127, R132, R141 to R143) -/

/-- An aligned, permitted load to a mapped address with room among the outstanding loads issues: from Normal memory it
retires at once, from a device or the ring the core waits for its result (R126, R132). An aligned, permitted store that
its region does not refuse joins the store buffer, or the posted-write queue for a device, where there is room (R126,
R132). An access that is off its boundary, not permitted, or without a target takes its exception with the address in
XVAL, and performs nothing (R127, R133). A store to an address outside the memories also joins the replay log (R397); in a
replay such an access is not made again (R398), so it is left out here. -/
def Obligations.AccessesIssueOrTrap : Prop :=
  (∀ (s : State) (k : At) (rd rs1 : GReg) (imm : BitVec 16), Ready s k [rd, rs1] →
     let x := s.core k.d k.e
     let d := s.dom k.d
     let a := x.rd rs1 + imm.signExtend 32
     let attr := x.attrOf (d.area a).normal a
     x.permits 0 a = true → d.area a ≠ .unmapped → x.loads.length < 4 →
     (d.outside a = false ∨ d.replays k.e = false) →
     ∀ p ∈ [(Instr.ldW k rd rs1 imm, 4, false), (.ldH k rd rs1 imm, 2, true), (.ldHu k rd rs1 imm, 2, false),
       (.ldB k rd rs1 imm, 1, true), (.ldBu k rd rs1 imm, 1, false)],
       a.toNat % p.2.1 = 0 →
       let y : Core := { x with seq := x.seq + 1, loads := x.loads ++ [⟨x.seq, x.pc, rd, a, p.2.1, p.2.2, attr⟩] }
       (attr.device = false → Retires p.1 s k y.next) ∧
       (attr.device = true →
         LeavesCore p.1 s k { y with wait := if inRing a then .ring x.seq else .load x.seq, since := d.time })) ∧
  (∀ (s : State) (k : At) (rs2 rs1 : GReg) (imm : BitVec 16), Ready s k [rs1, rs2] →
     let x := s.core k.d k.e
     let d := s.dom k.d
     let a := x.rd rs1 + imm.signExtend 32
     let attr := x.attrOf (d.area a).normal a
     x.permits 1 a = true → d.storeFails s.dev.inhibit a = false → x.stores.length < 8 → x.posted.length < 8 →
     (d.outside a = false ∨ d.replays k.e = false) →
     ∀ p ∈ [(Instr.stW k rs2 rs1 imm, 4), (.stH k rs2 rs1 imm, 2), (.stB k rs2 rs1 imm, 1)],
       a.toNat % p.2 = 0 →
       let q : StoreReq := ⟨x.seq, a, p.2, x.rd rs2, attr⟩
       let y : Core := (if attr.device then { x with seq := x.seq + 1, posted := x.posted ++ [q] }
         else { x with seq := x.seq + 1, stores := x.stores ++ [q] } : Core).next
       (d.outside a = false → Retires p.1 s k y) ∧
       (d.outside a = true → Answers p.1 s (fun t => t.core k.d k.e = y.retiring ∧
         ∀ b, (t.dom b).mem = (s.dom b).mem ∧
           ∀ z, (b ≠ k.d ∨ (z ≠ k.e ∧ d.shadow ≠ some z)) → t.core b z = s.core b z))) ∧
  (∀ (s : State) (k : At) (r rs1 : GReg) (imm : BitVec 16) (ord : AtomOrder), Ready s k [r, rs1] → MaskOpen s k →
     let x := s.core k.d k.e
     let d := s.dom k.d
     let a := x.rd rs1 + imm.signExtend 32
     let traps (i : Instr) (code : Word) (v : Word) : Prop :=
       Answers i s (fun t => Entered x (t.core k.d k.e) code v 0 none ∧ CoreFrame s t k.d k.e)
     (∀ p ∈ [(Instr.ldW k r rs1 imm, 4), (.ldH k r rs1 imm, 2), (.ldHu k r rs1 imm, 2), (.ldB k r rs1 imm, 1),
         (.ldBu k r rs1 imm, 1)],
       (a.toNat % p.2 ≠ 0 → traps p.1 0x04 a) ∧
       (a.toNat % p.2 = 0 → x.permits 0 a = false → traps p.1 0x09 a) ∧
       (a.toNat % p.2 = 0 → x.permits 0 a = true → d.area a = .unmapped → traps p.1 0x05 a)) ∧
     (∀ p ∈ [(Instr.stW k r rs1 imm, 4), (.stH k r rs1 imm, 2), (.stB k r rs1 imm, 1)],
       (a.toNat % p.2 ≠ 0 → traps p.1 0x04 a) ∧
       (a.toNat % p.2 = 0 → x.permits 1 a = false → traps p.1 0x0A a) ∧
       (a.toNat % p.2 = 0 → x.permits 1 a = true → d.storeFails s.dev.inhibit a = true → traps p.1 0x06 a)) ∧
     (∀ p ∈ [(Instr.ldRsv k r rs1 ord, true, false), (.stRsv k r rs1 r ord, false, true), (.atmSwap k r rs1 r ord, true, true),
         (.atmAdd k r rs1 r ord, true, true), (.atmAnd k r rs1 r ord, true, true), (.atmOr k r rs1 r ord, true, true),
         (.atmMax k r rs1 r ord, true, true), (.atmMin k r rs1 r ord, true, true)],
       let b := x.rd rs1
       (b.toNat % 4 ≠ 0 → traps p.1 0x04 b) ∧
       (b.toNat % 4 = 0 → p.2.1 = true → x.permits 0 b = false → traps p.1 0x09 b) ∧
       (b.toNat % 4 = 0 → (p.2.1 = true → x.permits 0 b = true) → p.2.2 = true → x.permits 1 b = false →
         traps p.1 0x0A b) ∧
       (b.toNat % 4 = 0 → (p.2.1 = true → x.permits 0 b = true) → (p.2.2 = true → x.permits 1 b = true) → d.area b ≠ .sram →
         traps p.1 (if p.2.1 then 0x05 else 0x06) b)) ∧
     (a.toNat % 4 ≠ 0 → traps (.callr k r rs1 imm) 0x04 a))

/-- An atomic instruction on a word of SRAM (aligned, permitted, no earlier access in its way) returns the old word and leaves the new one, and no other byte changes (R126, R127). LD.RSV reads the word and reserves it for 32 more instructions; ST.RSV stores only under a
reservation of its word, says in rd whether it did, and ends any reservation (R127); in a replay it goes by the log (R398). -/
def Obligations.AtomicsAndReservations : Prop :=
  (∀ (s : State) (k : At) (rd rs1 rs2 : GReg) (ord : AtomOrder), Ready s k [rd, rs1, rs2] →
     let x := s.core k.d k.e
     let d := s.dom k.d
     let a := x.rd rs1
     let old := memWord d.mem a.toNat
     let b := x.rd rs2
     a.toNat % 4 = 0 → x.permits 0 a = true → x.permits 1 a = true → d.area a = .sram →
     x.atomWaits ord a (x.attrOf true a) = false → ord.ecc ≠ .uncorrectable →
     ∀ p ∈ [(Instr.atmSwap k rd rs1 rs2 ord, b), (.atmAdd k rd rs1 rs2 ord, old + b), (.atmAnd k rd rs1 rs2 ord, old &&& b),
       (.atmOr k rd rs1 rs2 ord, old ||| b), (.atmMax k rd rs1 rs2 ord, if old.toInt ≤ b.toInt then b else old),
       (.atmMin k rd rs1 rs2 ord, if old.toInt ≤ b.toInt then old else b)],
       Answers p.1 s (fun t =>
         t.core k.d k.e = (x.wr rd old).next.retiring ∧ memWord (t.dom k.d).mem a.toNat = p.2 ∧
           ∀ j, (j < a.toNat ∨ a.toNat + 4 ≤ j) → memByte (t.dom k.d).mem j = memByte d.mem j)) ∧
  (∀ (s : State) (k : At) (rd rs1 rs2 : GReg) (ord : AtomOrder), Ready s k [rd, rs1, rs2] →
     let x := s.core k.d k.e
     let d := s.dom k.d
     let a := x.rd rs1
     let old := memWord d.mem a.toNat
     a.toNat % 4 = 0 → x.permits 0 a = true → x.permits 1 a = true → d.area a = .sram →
     x.atomWaits ord a (x.attrOf true a) = false → ord.ecc ≠ .uncorrectable →
     Answers (.ldRsv k rd rs1 ord) s (fun t =>
       t.core k.d k.e = { (x.wr rd old).next.retiring with rsv := some (a.toNat, 32) } ∧ (t.dom k.d).mem = d.mem) ∧
     (∀ n, d.replays k.e = false → x.rsv = some (a.toNat, n) → Answers (.stRsv k rd rs1 rs2 ord) s (fun t =>
       t.core k.d k.e = { (x.wr rd 1).next.retiring with rsv := none } ∧ memWord (t.dom k.d).mem a.toNat = x.rd rs2 ∧
         ∀ j, (j < a.toNat ∨ a.toNat + 4 ≤ j) → memByte (t.dom k.d).mem j = memByte d.mem j)) ∧
     (d.replays k.e = false → (∀ n, x.rsv ≠ some (a.toNat, n)) → Answers (.stRsv k rd rs1 rs2 ord) s (fun t =>
       t.core k.d k.e = { (x.wr rd 0).next.retiring with rsv := none } ∧ (t.dom k.d).mem = d.mem)))

/-- The result of an outstanding load from SRAM or code, with no earlier store of the core to the same bytes, reaches
its register extended from its size; the load leaves the queue; memory stays (R126, R132, R143). An uncorrectable error
raises 0x0E instead and writes nothing (R133). A buffered store to SRAM reaches memory: exactly its bytes, least
significant first, and it leaves the buffer (R4, R126, R141). -/
def Obligations.AccessesComplete : Prop :=
  (∀ (s : State) (d : Dom) (e : Eng) (i : Nat) (l : LoadReq) (ecc : Ecc),
     let x := s.core d e
     let m := s.dom d
     m.inReset = false → x.run = .running → x.loads[i]? = some l → x.mayPerform l.seq l.addr l.size l.attr true = true →
     (m.area l.addr = .sram ∨ m.area l.addr = .code) → (l.size = 1 ∨ l.size = 2 ∨ l.size = 4) → l.attr.device = false →
     (∀ q ∈ x.stores, q.addr.toNat + q.size ≤ l.addr.toNat ∨ l.addr.toNat + l.size ≤ q.addr.toNat) →
     let v := memRead m.mem (m.memKey l.addr.toNat) l.size
     (ecc ≠ .uncorrectable → Answers (.loadResult d e i ecc) s (fun t =>
       (∀ r, (t.core d e).rd r = if r = l.rd ∧ r ≠ 0 then
           (if l.signed then BitVec.ofInt 32 (BitVec.ofNat (8 * l.size) v).toInt else BitVec.ofNat 32 v) else x.rd r) ∧
         (t.core d e).loads = x.loads.filter (fun q => q.seq != l.seq) ∧ (t.dom d).mem = m.mem ∧ t.pending = s.pending)) ∧
     (ecc = .uncorrectable → MaskOpen s ⟨d, e, .good⟩ → Answers (.loadResult d e i ecc) s (fun t =>
       (t.core d e).cause = 0x0E ∧ (t.core d e).xval = l.addr ∧ (t.core d e).epc = l.pc ∧ (t.core d e).g = x.g))) ∧
  (∀ (s : State) (d : Dom) (e : Eng) (i : Nat) (q : StoreReq) (ecc : Ecc),
     let x := s.core d e
     let m := s.dom d
     m.inReset = false → x.stores[i]? = some q → x.mayPerform q.seq q.addr q.size q.attr false = true →
     m.area q.addr = .sram → ecc ≠ .uncorrectable →
     Answers (.storePerformed d e false i ecc) s (fun t =>
       (∀ j, j < q.size → memByte (t.dom d).mem (q.addr.toNat + j) = BitVec.ofNat 8 (q.data.toNat / 256 ^ j)) ∧
         (∀ j, (j < q.addr.toNat ∨ q.addr.toNat + q.size ≤ j) → memByte (t.dom d).mem j = memByte m.mem j) ∧
         (t.core d e).stores = x.stores.filter (fun p => p.seq != q.seq) ∧ (t.core d e).g = x.g ∧
         (∀ n, .ch n ≠ d → t.ch n = s.ch n)))

/-! ## Dziphor: events, lockstep requests and commits (R129 to R131, R145, R153) -/

/-- EV.WAIT retires at once with 0 in rd, the pending flag cleared, when the enabled event is pending, and with 1 when
the limit is 0; otherwise it waits, and its satisfaction or expiry retires it with 0 or 1 (R129). EV.FENCE retires, now
or later, once every watermark has passed (R145). A delivered event leaves its source's queue, oldest first; if it is
enabled its pending flag sets and keeps the stamp of the occurrence that set it. EVT_CLAIM clears the highest pending
enabled event and captures its stamp (R169, R173). In a replay waits go by the log (R398), which is left out here. -/
def Obligations.EventWaitsDeliveriesAndClaims : Prop :=
  (∀ (s : State) (k : At) (rd rs1 rs2 : GReg),
     let x := s.core k.d k.e
     let d := s.dom k.d
     let ev : BitVec 7 := (x.rd rs1).setWidth 7
     let lim := (x.rd rs2).toNat
     let cleared (t : State) (v : BitVec 7) : Prop := (t.dom k.d).evBit EVT_PEND_PEND v.toNat = false
     let goes : Prop := d.inReset = false ∧ d.runs k.e = true
     d.replays k.e = false →
     (Ready s k [rd, rs1, rs2] →
       (d.found ev = true →
         Answers (.evWait k rd rs1 rs2) s (fun t => t.core k.d k.e = (x.wr rd 0).next.retiring ∧ cleared t ev)) ∧
       (d.found ev = false → lim = 0 →
         Answers (.evWait k rd rs1 rs2) s (fun t => t.core k.d k.e = (x.wr rd 1).next.retiring)) ∧
       (d.found ev = false → lim ≠ 0 →
         LeavesCore (.evWait k rd rs1 rs2) s k { x with wait := .evWait ev (d.time + lim) rd, since := d.time })) ∧
     (∀ v dl r, goes → x.wait = .evWait v dl r →
       (d.found v = true → d.waitLoses k.e v = false →
         Answers (.evWaitSatisfied k.d k.e) s (fun t => t.core k.d k.e = (x.wr r 0).next.retiring ∧ cleared t v)) ∧
       (d.found v = false → dl ≤ d.time →
         Answers (.evWaitExpiry k.d k.e) s (fun t => t.core k.d k.e = (x.wr r 1).next.retiring))) ∧
     (Ready s k [rs1, rs2] →
       let n := (x.rd rs2).toNat * 4294967296 + (x.rd rs1).toNat
       (d.watermarks n = true → Answers (.evFence k rs1 rs2) s (fun t => t.core k.d k.e = x.next.retiring)) ∧
       (d.watermarks n = false →
         LeavesCore (.evFence k rs1 rs2) s k { x with wait := .evFence n, since := d.time })) ∧
     (∀ n, goes → x.wait = .evFence n → d.watermarks n = true →
       Answers (.evFenceRetire k.d k.e) s (fun t => t.core k.d k.e = x.next.retiring))) ∧
  (∀ (s : State) (d : Dom), (s.dom d).inReset = false →
     let x := s.dom d
     (∀ ev e, x.admits ev.toNat = true → x.oldest ev = some e →
       Answers (.eventDelivery d ev) s (fun t =>
         (t.dom d).evq = x.evq.erase e ∧
         (t.dom d).evBit EVT_PEND_PEND ev.toNat = (x.evBit EVT_PEND_PEND ev.toNat || x.evBit EVT_EN_EN ev.toNat) ∧
         (x.evBit EVT_PEND_PEND ev.toNat = false → x.evBit EVT_EN_EN ev.toNat = true →
           sget 0 (t.dom d).stamps ev.toNat = e.stamp) ∧
         (t.dom d).mem = x.mem ∧ t.pending = s.pending)) ∧
     (∀ e p ev, x.topClass e = some p → x.pendingOf e p = some ev →
       Answers (.evtClaim d e) s (fun t =>
         (t.dom d).evBit EVT_PEND_PEND ev = false ∧ (t.core d e).claimStamp = sget 0 x.stamps ev ∧
         (t.core d e).g = (s.core d e).g ∧ (t.dom d).evq = x.evq)))

/-- LS.SPLIT and LS.JOIN return a status in rd, and an accepted request waits; CKPT makes the core's state, with the program
counter after it, the current checkpoint with its tag, once no store is left in the buffer; in dual-core or degraded mode and
on a split core it records nothing (R131, R396, R399; that CKPT waits for the buffer is log 13). A split, 96 cycles after its
boundary, gives main the spare as its shadow and starts the former shadow on its own; with no spare it lapses (log 11); a join
undoes it; SPLITMAX forces one; an overdue checkpoint and a failed code check are told; LSC_CNT clears whole (R398 to R401,
R407, R409). -/
def Obligations.SplitJoinAndChecks : Prop :=
  (∀ (s : State) (k : At) (rd rs1 : GReg), (s.core k.d k.e).priv = .system →
     let x := s.core k.d k.e
     let d := s.dom k.d
     (Ready s k [rd] → d.replays k.e = false →
       Answers (.lsSplit k rd) s (fun t =>
         t.core k.d k.e = (x.wr rd (BitVec.ofNat 32 (d.splitStatus k.e false))).next.retiring ∧ (t.dom k.d).mem = d.mem ∧
         (d.splitStatus k.e false = 0 → (t.dom k.d).rgB LSC_STAT_SPLITPEND = true)) ∧
       Answers (.lsJoin k rd) s (fun t =>
         t.core k.d k.e = (x.wr rd (BitVec.ofNat 32 (d.splitStatus k.e true))).next.retiring ∧ (t.dom k.d).mem = d.mem ∧
         (d.splitStatus k.e true = 0 → d.lsc.split.isSome = true → (t.dom k.d).rgB LSC_STAT_JOINPEND = true))) ∧
     (let idle := d.dual || d.rgB SYS_CAP_DEGRADED || d.lsc.split == some k.e
      Ready s k [rs1] →
       (idle = true → Retires (.ckpt k rs1) s k x.next) ∧
       (idle = false → x.stores ≠ [] → LeavesCore (.ckpt k rs1) s k { x with wait := .full, since := d.time }) ∧
       (idle = false → x.stores = [] →
         Answers (.ckpt k rs1) s (fun t => t.core k.d k.e = x.next.retiring ∧
           (t.dom k.d).lsc.ck = some ⟨x.next, x.rd rs1, x.retired + 1, d.time⟩ ∧ (t.dom k.d).lsc.journal = [] ∧
           (t.dom k.d).lsc.rlog = [] ∧ (t.dom k.d).rgB LSC_STAT_CKVALID = true ∧
           (t.dom k.d).rgB LSC_STAT_LOGOVF = false ∧ (t.dom k.d).rg LSC_CKTAG_TAG = x.rd rs1 ∧
           (t.dom k.d).mem = d.mem)))) ∧
  (∀ (s : State) (d : Dom) (m h p : Eng), (s.dom d).inReset = false →
     let x := s.dom d
     let l := x.lsc
     let v := x.rgN LSC_SPLITVEC_VEC
     let same (y : Domain) : Prop := y.mem = x.mem ∧ ∀ e, y.core e = x.core e
     (x.main = some m → x.shadow = some h → x.spare = some p → m ≠ h → p ≠ m → p ≠ h →
       x.rgB LSC_STAT_SPLITPEND = true → ∀ c, x.transferred = some c →
       DomAnswers (.splitEffect d) s d (fun y =>
         y.main = some m ∧ y.shadow = some p ∧ y.spare = none ∧ y.lsc.split = some h ∧ y.rgB LSC_STAT_SPLIT = true ∧
         y.rgB LSC_STAT_SPLITPEND = false ∧ y.core m = x.core m ∧
         y.core p = { (x.core p).adopt (x.core m) with
           run := .running, wait := .none, rsv := (x.core m).rsv, retired := (x.core m).retired
           postedErrs := (x.core m).postedErrs } ∧
         y.core h = { Core.reset with
           run := .running, pc := BitVec.ofNat 32 ((if 767 < v then 0 else v) * 4096), stores := (x.core h).stores
           posted := (x.core h).posted, seq := (x.core h).seq, lost := (x.core h).lost } ∧
         y.lsc.splitSince = c ∧
         ((x.evq.filter (fun e => e.src == (0x76 : BitVec 7))).length < 4 → sget 0 x.evNext 0x76 ≤ c + 96 →
           ⟨0x76, c + 96, 1⟩ ∈ y.evq) ∧ y.mem = x.mem)) ∧
     (x.rgB LSC_STAT_SPLITPEND = true → x.spare = none → x.effectCycle.isSome = true →
       DomAnswers (.splitEffect d) s d (fun y => y.rgB LSC_STAT_SPLITPEND = false ∧ y.lsc = x.lsc ∧ same y)) ∧
     (x.main = some m → x.shadow = some h → l.split = some p → m ≠ h → p ≠ m → p ≠ h →
       x.rgB LSC_STAT_JOINPEND = true → ∀ c, x.transferred = some c →
       DomAnswers (.joinEffect d) s d (fun y =>
         y.main = some m ∧ y.shadow = some p ∧ y.spare = some h ∧ y.lsc.split = none ∧ y.rgB LSC_STAT_SPLIT = false ∧
         y.rgB LSC_STAT_JOINPEND = false ∧ y.core m = x.core m ∧
         y.core p = { (x.core p).adopt (x.core m) with
           run := .running, wait := .none, loads := [], rsv := (x.core m).rsv, retired := (x.core m).retired
           postedErrs := (x.core m).postedErrs } ∧
         y.core h = { x.core h with run := .held, wait := .none, loads := [] } ∧
         ((x.evq.filter (fun e => e.src == (0x76 : BitVec 7))).length < 3 → sget 0 x.evNext 0x76 ≤ c + 96 →
           ⟨0x76, c + 96, 2⟩ ∈ y.evq ∧ (l.forced = true → ⟨0x76, c + 97, 3⟩ ∈ y.evq)) ∧ y.mem = x.mem)) ∧
     (x.splitmaxDue = true → DomAnswers (.splitmaxExpiry d) s d (fun y =>
       y.rgB LSC_STAT_JOINPEND = true ∧ y.lsc.forced = true ∧ y.lsc.reqAt = x.time ∧ same y)) ∧
     (x.ckptDue = true → HasRoom x 0x77 → DomAnswers (.checkpointOverdue d) s d (fun y =>
       y.rgB LSC_STAT_CKOLD = true ∧ y.ckptDue = false ∧ Waits x y 0x77 1 ∧ same y)) ∧
     (x.rgB LSC_CTL_CODECHK = true → HasRoom x 0x77 → DomAnswers (.codeCheckPass d true) s d (fun y =>
       y.rgB LSC_STAT_CODEERR = true ∧ Waits x y 0x77 3 ∧ same y)) ∧
     (let hd := hdr x.mem x.host x.bank
      let good := BitVec.ofNat 32 (hd 3) = crc32 (memBytes x.mem (bankKey x.bank 0) (min (hd 1) (headerAt x.host)))
      x.rgB LSC_CTL_CODECHK = false ∨ good →
        DomAnswers (.codeCheckPass d false) s d (fun y => y.rgB LSC_STAT_CODEERR = x.rgB LSC_STAT_CODEERR ∧
          y.lsc = x.lsc ∧ same y)) ∧
     DomAnswers (.lscCntClear d) s d (fun y => y.rgN LSC_CNT_MISMATCH = 0 ∧ y.rgN LSC_CNT_TRANSIENT = 0 ∧
       y.rgN LSC_CNT_RETIRE = 0 ∧ y.rgN LSC_CNT_RESTORE = 0 ∧ y.lsc = x.lsc ∧ same y))

/-- PLAN.COMMIT with a zero mask writes 0 and commits nothing; otherwise, with no commit in its window, the controller takes
the request with a snapshot of the named plan banks as they stood before this cycle's writes, refuses it with REASON 0x3
where it names SAFE while that is locked, or with 0x5 where a named bank has a parity error, and the core stalls for its
status (R130, R152, R153, R159). At the edge that ends cycle Q + 10 an accepted request of a core copies the named banks to
live and counts, a refused one leaves the live bank; the status stands in EVT_CMTSTAT and EV_CMTOK or EV_CMTREF is stamped
Q + 10 (R149, R153, R160, R161; the argument 0 is the model's, log 21). At the edge that begins cycle Q + 14 PLAN.COMMIT
retires with that status (R130, R155). -/
def Obligations.CommitRequestsAndEffects : Prop :=
  (∀ (s : State) (n : Chan) (e : Eng) (f : Fetch) (rd rs1 : GReg) (imm : BitVec 7),
     let k : At := ⟨.ch n, e, f⟩
     let x := s.core k.d e
     let c := s.ch n
     let mask : BitVec 7 := imm ||| (x.rd rs1).setWidth 7
     let before := c.planOld.foldl (fun m p => rput m p.1 p.2) c.plan
     Ready s k [rd, rs1] → x.priv = .system → (s.dom k.d).replays e = false →
     (mask = 0 → Answers (.planCommit k rd rs1 imm) s (fun t => t.core k.d e = (x.wr rd 0).next.retiring ∧
       (t.ch n).cmt = c.cmt ∧ (t.ch n).live = c.live)) ∧
     (mask ≠ 0 → c.cmt = none → Answers (.planCommit k rd rs1 imm) s (fun t =>
       (t.core k.d e).wait = .commit rd ∧ (t.core k.d e).pc = x.pc ∧ (t.core k.d e).retired = x.retired ∧
         (∃ st, (t.ch n).cmt = some ⟨.core e, mask, c.now, st, before.filter (fun p => named mask p.1)⟩ ∧
           (mask.getLsbD 6 = true → c.rgB SAFE_STAT_UNLOCKED = false → st = 3) ∧
           (mask.getLsbD 6 = false → mask.getLsbD 3 = false → c.planBad.any (named mask) = true → st = 5)) ∧
         (t.ch n).live = c.live ∧ (t.ch n).plan = c.plan))) ∧
  (∀ (c : Channel) (e : Eng) (r : CommitReq), c.refusals = [] → c.retiring = [] → c.cmt = some r → r.by_ = .core e →
     r.q + 10 < c.now → c.now < r.q + 14 →
     let y := c.commitEdge
     let room (ev : Nat) : Prop := (c.dom.evq.filter (fun x => x.src == BitVec.ofNat 7 ev)).length < 4 ∧
       sget 0 c.dom.evNext ev ≤ r.q + 10
     y.cmt = none ∧ y.retiring = [r] ∧ rget y.dom.regs EVT_CMTSTAT_RULE.reg = r.status ∧
       (r.status &&& 15 = 0 →
         (∀ f : Fld, y.lv f = fld (mergeBanks r.mask r.snapshot c.live) f) ∧
         y.rgN EVT_CMTCNT_ACCEPTED = satN 65535 (c.rgN EVT_CMTCNT_ACCEPTED + 1) ∧
         y.rgN EVT_CMTTS_TS = (r.q + 10) % 4294967296 ∧
         (room 0x2F → ⟨0x2F, r.q + 10, 0⟩ ∈ y.dom.evq)) ∧
       (r.status &&& 15 ≠ 0 →
         y.live = c.live ∧ y.pwm = c.pwm ∧ y.adc = c.adc ∧ y.weir = c.weir ∧ y.gdi = c.gdi ∧ y.cas = c.cas ∧
         y.safe = c.safe ∧ y.pos = c.pos ∧
         y.rgN EVT_CMTCNT_REFUSED = satN 65535 (c.rgN EVT_CMTCNT_REFUSED + 1) ∧
         (room 0x2E → ⟨0x2E, r.q + 10, 0⟩ ∈ y.dom.evq))) ∧
  (∀ (c : Channel) (e : Eng) (r : CommitReq) (rd : GReg), c.refusals = [] → c.retiring = [r] → c.cmt = none →
     r.by_ = .core e → r.q + 14 ≤ c.now → (c.dom.core e).wait = .commit rd → c.dom.replays e = false →
     let y := c.commitEdge
     y.dom.core e = ((c.dom.core e).wr rd r.status).next.retiring ∧ y.retiring = [] ∧ y.live = c.live)

/-! ## Events and live writes (R163 to R175) -/

/-- A write of an RWL register reads back at once, cut to its RWL bits, and waits for the next boundary; under the live
hold it is collected. Releasing the hold sends what was collected to the boundary (R163, R166). At a carrier boundary
the waiting RWL values and the boundary fields come into use; a hold that has lasted LIMIT boundaries is given up with
TMO and its values are discarded (EV_LHTMO's argument 0 is the model's, log 21); after RUN is committed 0 the carrier stops
there; the first held cycle of an extrapolation is told (R163, R166, R180, R183, R279, R304). A cycle in which a boundary or a
stop is due performs it, and no other does. -/
def Obligations.LiveWritesAndCarrierBoundaries : Prop :=
  (∀ (s : State) (c : Chan) (r : RwlReg) (w : Word), s.up c →
     let x := s.ch c
     let k := RwlReg.key r
     (∃ row, rowOf k = some row ∧
       let v := w &&& BitVec.ofNat 32 row.rwl
       (x.rgB EVT_LHOLD_HOLD = false → ChAnswers (.rwlWrite c r w) s c (fun y =>
         rget y.dom.regs k = v ∧ (k, v) ∈ y.rwlNext ∧ y.rwlHeld = x.rwlHeld ∧ y.live = x.live)) ∧
       (x.rgB EVT_LHOLD_HOLD = true → ChAnswers (.rwlWrite c r w) s c (fun y =>
         rget y.dom.regs k = v ∧ (k, v) ∈ y.rwlHeld ∧ y.rwlNext = x.rwlNext ∧ y.live = x.live))) ∧
     (bitOf w 0 = false → x.rgB EVT_LHOLD_HOLD = true → (x.rwlHeld.map (·.1)).Nodup →
       ChAnswers (.liveHoldRelease c w) s c (fun y => y.rgB EVT_LHOLD_HOLD = false ∧ y.rwlHeld = [] ∧
         (∀ p ∈ x.rwlHeld, p ∈ y.rwlNext) ∧ y.live = x.live)) ∧
     ChAnswers (.cmtcntClear c) s c (fun y => y.rgN EVT_CMTCNT_ACCEPTED = 0 ∧ y.rgN EVT_CMTCNT_REFUSED = 0 ∧
       y.live = x.live ∧ y.dom.mem = x.dom.mem)) ∧
  (∀ x : Channel,
     let y := x.boundary
     let z := x.stopCarrier
     let st := x.stale
     (y.pwm.bndDue = false ∧ y.pwm.per = y.lvN PWM_CPER_PER ∧ y.rwlNext = [] ∧
       ((x.rwlNext.map (·.1)).Nodup → ∀ p ∈ x.rwlNext, rget y.live p.1 = p.2) ∧
       (HasRoom x.dom 0x25 → Waits x.dom y.dom 0x25 y.weir.mode.code)) ∧
     (x.rgB EVT_LHOLD_HOLD = true → x.rgN EVT_LHOLD_LIMIT ≤ x.holdBoundaries + 1 →
       y.rgB EVT_LHOLD_HOLD = false ∧ y.rgB EVT_LHOLD_TMO = true ∧ y.rwlHeld = [] ∧
       (HasRoom x.dom 0x2D → Waits x.dom y.dom 0x2D 0)) ∧
     (x.rgB EVT_LHOLD_HOLD = true → x.holdBoundaries + 1 < x.rgN EVT_LHOLD_LIMIT →
       y.rgB EVT_LHOLD_HOLD = true ∧ y.rwlHeld = x.rwlHeld ∧ y.holdBoundaries = x.holdBoundaries + 1) ∧
     (z.pwm.running = false ∧ z.rgB PWM_STAT_RUNNING = false ∧ z.pwm.n = 0 ∧ z.weir.phi = 0 ∧ z.weir.mode = .async) ∧
     (HasRoom x.dom 0x1D → st.rgB WEIR_STAT_STALE = true ∧ Waits x.dom st.dom 0x1D 0) ∧
     (x.boundaryDue = true → x.stopDue = false ∧ x.atBoundary = y) ∧
     (x.boundaryDue = false → x.stopDue = false → x.atBoundary = x))

/-! ## Rows that name what a clock edge brings (log 1) -/

/-- What the spec times to the cycle comes about at the channel's clock edge. Each of these rows names one such outcome:
where the channel's next edge brings it, the command answers the channel one edge later, and touches nothing else. The rows
of commits, boundaries and waits (R153, R166, R180, R183, R189, R192, R279), of hand-over and exit (R205, R207, R209), of
position (R225, R228, R229, R233, R236), sensing (R246, R251, R254, R264, R294), the bridge (R283, R286, R289, R296, R299),
the power stage (R366, R372, R375, R378, R381, R450), Cascade and the supervisor (R317, R319, R344, R349, R354, R355) and the
torque unit (R429). What the edge does for each of them is stated with its family. -/
def Obligations.EdgesBringTheirOutcomes : Prop :=
  ∀ (s : State) (n : Chan), s.up n →
    let c := s.ch n
    let b := c.begin.1
    let y := c.tick
    let phase (a z : Nat) (u v : Channel) : Bool := u.rgN GDI_STAT_DPHASE == a && v.rgN GDI_STAT_DPHASE == z
    let waits (t : Thread) (p : Armed → Bool) : Bool := match (c.weir.th t).st with
      | .waiting w => p w
      | .stopped | .running => false
    let decides (p : Channel → Channel → Bool) : Bool := match c.cas.sup.due with
      | some pb => p c (c.supervise pb)
      | none => false
    (∀ p ∈ [(Instr.commitSwap n, c.refusals.any (fun r => decide (r.q + 10 ≤ c.now)) ||
          (match c.cmt with | some r => decide (r.q + 10 ≤ c.now) | none => false)),
        (.carrierBoundary n, b.boundaryDue), (.carrierStop n, b.stopDue),
        (.liveHoldTimeout n, b.boundaryDue && b.rgB EVT_LHOLD_HOLD && !b.boundary.rgB EVT_LHOLD_HOLD),
        (.extrapolationStale n, !c.rgB WEIR_STAT_STALE && b.rgB WEIR_STAT_STALE),
        (.positionLatchStrobe n, c.weir.arrived.getLsbD 8),
        (.positionLatchDelivery n, match c.pos.inFlight with | l :: _ => decide (l.due ≤ c.now + 1) | [] => false),
        (.standstillTimeout n, !(c.pos.stillOf c.srcUse).on && (y.pos.stillOf y.srcUse).on),
        (.emulationStep n, decide (y.pos.emLast = y.now)), (.ssiMonoEnd n, c.pos.ssiMono.isSome && y.pos.ssiMono.isNone),
        (.handoverCommit n, c.begun.handoverDue), (.syncExitCommit n, c.begun.exitDue),
        (.syncPeriodTimeout n, decide (b.atBoundary.exitCause c.begin.2.1 c.begin.2.2 = 5)),
        (.groupEnd n, y.adc.ending), (.cascadeStartRequest n, !c.cas.starts.isEmpty), (.runmaxExpiry n, c.overrun.isSome),
        (.ginDwellEnd n, c.gdi.ginWait.isSome && y.gdi.ginWait.isNone && y.gdi.ginAt == y.now),
        (.brakeIntervalEnd n, y.gdi.brkStart == y.now && c.rgB GDI_STAT_BRK != y.rgB GDI_STAT_BRK),
        (.dischargeFeedbackTimeout n, phase 1 2 c y && !(y.gdi.dfb && decide (y.now ≤ y.gdi.dStart + 400 * y.lvN GDI_DSCH_DFBT))),
        (.dischargeVoltageTimeout n, !c.gdi.dLate && y.gdi.dLate), (.dischargeMaxExpiry n, c.dschBall && !y.dschBall),
        (.tpstaleExpiry n, (!c.tpStale && y.tpStale) || (!c.safe.tpTold && y.safe.tpTold)),
        (.catchEnd n, decides fun u v => decide (u.msState = 1) && decide (v.msState = 2)),
        (.coastExpiry n, decides fun u v =>
          decide (u.msState = 3) && decide (v.msState = 4) && decide (v.rgN CAS_MSSTAT_CAUSE = 2)),
        (.lockedRotorDetect n, match c.cas.sup.due with
          | some pb => c.lvB CAS_MSCTL_EN && !c.rgB CAS_MSSTAT_LOCKED
              && ((c.superLink pb).superLocked pb).rgB CAS_MSSTAT_LOCKED
          | none => false),
        (.linkHoldExpiry n, decides fun u v => decide (u.rgN CAS_MSSTAT_LLPH < 2) && decide (2 ≤ v.rgN CAS_MSSTAT_LLPH)),
        (.cascadeWatchdogExpiry n, decides fun u v =>
          decide (u.msState ≠ 4) && decide (v.msState = 4) && decide (v.rgN CAS_MSSTAT_CAUSE = 7))],
      p.2 = true → ChBecomes p.1 s n y) ∧
    (∀ k : BitVec 3, ∀ p ∈ [(Instr.triggerFire n k, c.fires k.toNat),
        (.positionCompareFire n k, decide (c.lvN (ADC_TSRC_SRC k.toNat) = 2) && c.posReached k.toNat),
        (.xcmpFire n k, c.xcmpDue k.toNat), (.pulseDecision n k, (y.leg k.toNat).decided == some y.now),
        (.compareFire n k false, (y.leg k.toNat).firedOn == some y.now),
        (.compareFire n k true, (y.leg k.toNat).firedOff == some y.now),
        (.deadTimeEnd n k, (y.leg k.toNat).deadEnd == some y.now),
        (.blankingWindowEnd n k, c.blanked k.toNat && !y.blanked k.toNat),
        (.bootstrapChargeEntry n k, b.boundaryDue && decide (k.toNat < 6) && !b.rgB (GDI_STAT_BSCHG.bit k.toNat)
          && b.boundary.rgB (GDI_STAT_BSCHG.bit k.toNat))],
      p.2 = true → ChBecomes p.1 s n y) ∧
    (∀ x : BitVec 5, ∀ p ∈ [(Instr.ascSwitchOn n x,
          y.patternNow.isSome && !c.pwm.sw.getLsbD x.toNat && y.pwm.sw.getLsbD x.toNat),
        (.outputStageChange n x, c.dom.spr.change.getLsbD x.toNat && !y.dom.spr.change.getLsbD x.toNat)],
      p.2 = true → ChBecomes p.1 s n y) ∧
    (∀ t : Thread, ∀ p ∈ [(Instr.waitSatisfied n t, waits t (·.hit)),
        (.waitExpiry n t, waits t (fun w => decide (w.limit ≠ 0) && !w.hit && decide (w.cycle + w.limit ≤ c.now)))],
      p.2 = true → ChBecomes p.1 s n y) ∧
    (∀ (q : BitVec 3) (v : Int),
      let a := c.vdcInput v
      let e := c.cmpInput q.toNat v
      ChBecomes (.dischargeVoltageChange n v) s n (if phase 2 3 a a.tick || phase 3 2 a a.tick then a.tick else a) ∧
      ChBecomes (.overvoltageStage2 ⟨n, v⟩) s n (if !a.gdi.ov2Req && a.tick.gdi.ov2Req then a.tick else a) ∧
      ChBecomes (.comparatorSettleEnd n q v) s n (if e.settling q.toNat && !e.tick.settling q.toNat then e.tick else e))

/-! ## Supplies, resets and boot (R82 to R92, R108 to R115) -/

/-- A supply reset: every domain that the rail covers is held in reset, a channel with the rail's bit and OV in
SYS_RSTSTAT; VIO overvoltage resets nothing, and an analogue rail only its own channel (R86, R91). The reset extension
ends only when no covering monitor is asserted; the domain then leaves reset, if no other source holds it. Write-inhibit
follows VNVM (R84, R86, R88). -/
def Obligations.SupplyResets : Prop :=
  (∀ (s : State) (rail : Rail) (isOver : Bool),
     (rail ≠ .vio → Answers (.supplyMonitorAssert rail isOver) s (fun t =>
       rail ∈ t.dev.bad ∧
         (∀ n, railCovers rail (.ch n) = true → (t.ch n).dom.inReset = true ∧ (t.ch n).rgB (railBit rail) = true ∧
           (t.ch n).rgB SYS_RSTSTAT_OV = isOver) ∧
         (railCovers rail .host = true → t.host.dom.inReset = true) ∧
         (∀ a n, rail = .vana a → n ≠ a → t.ch n = s.ch n) ∧ t.pending = s.pending)) ∧
     Answers (.supplyMonitorAssert .vio true) s (fun t => t = s) ∧
     Answers (.supplyMonitorAssert .vio false) s (fun t =>
       (∀ n, (t.ch n).dom.inReset = true) ∧ t.host.dom.inReset = true ∧ .vio ∈ t.dev.bad) ∧
     Answers .powerOnReset s (fun t =>
       (∀ n, (t.ch n).dom.inReset = true ∧ (t.ch n).dom.regs = [] ∧ (t.ch n).rgB SYS_RSTSTAT_POR = true) ∧
         t.host.dom.inReset = true ∧ t.host.dom.regs = []) ∧
     Answers (.supplyMonitorDeassert rail) s (fun t =>
       t = { s with dev := { s.dev with bad := s.dev.bad.filter (fun r => r != rail) } })) ∧
  (∀ (s : State) (d : Dom),
     ((s.dom d).rs = ⟨true, false, false, false⟩ → (∀ r ∈ s.dev.bad, railCovers r d = false) →
       Answers (.resetExtensionExpiry d) s (fun t => (t.dom d).inReset = false ∧ t.dev = s.dev)) ∧
     (∀ r ∈ s.dev.bad, railCovers r d = true → Answers (.resetExtensionExpiry d) s (fun t => t = s)) ∧
     Answers (.writeInhibitChange true) s (fun t => t = { s with dev := { s.dev with inhibit := true } }) ∧
     Answers (.writeInhibitChange false) s (fun t => t.dev.inhibit = false ∧ ∀ n, (t.ch n).pwm = (s.ch n).pwm))

/-- A reset ball, SWRST with its key and HSYS_CHRST reset a channel: its blocks return to their reset values, its data
NVM stays, the source is recorded; the other channels and the device's own parts stay as they are. A write of SWRST without
the key does nothing (R86 to R92). A channel in reset already stays there, with the source recorded. A channel held by its ball
or by software leaves reset when that ends, if no other source holds it; the host domain likewise. The host's reset leaves
every channel's blocks and memories as they are, and of its cores takes only what they have outstanding in the ring window
(R31, R86). -/
def Obligations.ChannelResetsAndResetBalls : Prop :=
  (∀ (s : State) (c : Chan) (w : Word),
     let cleared (x : Channel) : Prop :=
       x.dom.inReset = true ∧ x.plan = [] ∧ x.live = [] ∧ x.cmt = none ∧ x.weir = .reset ∧ x.pos = .reset ∧ x.adc = .reset ∧
         x.pwm = .reset ∧ x.gdi = .reset ∧ x.cas = .reset ∧ (∀ e, x.dom.core e = .reset) ∧
         ∀ a, 0x20000000 ≤ a → a < 0x30000000 → memByte x.dom.mem a = memByte (s.ch c).dom.mem a
     let others (t : State) : Prop := (∀ m, m ≠ c → t.ch m = s.ch m) ∧ t.dev = s.dev ∧ t.pending = s.pending
     (s.up c →
       Answers (.channelResetAssert c) s (fun t => cleared (t.ch c) ∧ (t.ch c).rgB SYS_RSTSTAT_PIN = true ∧ others t) ∧
       (bitOf w 0 = true → fget w 31 16 = 0xC3A5 →
         Answers (.swrst c w) s (fun t => cleared (t.ch c) ∧ (t.ch c).rgB SYS_RSTSTAT_SOFT = true ∧ others t)) ∧
       (s.host.dom.inReset = false → bitOf w c.idx = true → (s.ch c).rgB SYS_RSTCTL_HOSTRST_EN = true →
         Answers (.hostRequestReset w) s (fun t => cleared (t.ch c) ∧ (t.ch c).rgB SYS_RSTSTAT_HOST = true))) ∧
     ((s.ch c).dom.inReset = true →
       Answers (.channelResetAssert c) s (fun t => (t.ch c).dom.inReset = true ∧ (t.ch c).dom.rs.pin = true ∧
         (t.ch c).rgB SYS_RSTSTAT_PIN = true ∧ others t) ∧
       Answers (.swrst c w) s (fun t => t = s)) ∧
     (fget w 31 16 ≠ 0xC3A5 → Answers (.swrst c w) s (fun t => t = s)) ∧
     (s.host.dom.inReset = false → (bitOf w c.idx = false ∨ (s.ch c).rgB SYS_RSTCTL_HOSTRST_EN = false) →
       Answers (.hostRequestReset w) s (fun t => t.ch c = s.ch c))) ∧
  (∀ (s : State) (c : Chan),
     let r := (s.ch c).dom.rs
     Answers (.channelResetRelease c) s (fun t =>
         (t.ch c).dom.rs = ⟨r.supply, false, false, r.thermal⟩ ∧ (t.ch c).dom.inReset = (r.supply || r.thermal) ∧
         (t.ch c).live = (s.ch c).live ∧ (t.ch c).dom.mem = (s.ch c).dom.mem ∧ (∀ m, m ≠ c → t.ch m = s.ch m) ∧
         t.dev = s.dev)) ∧
  (∀ s : State,
     let r := s.host.dom.rs
     Answers .hostResetAssert s (fun t =>
       t.host.dom.inReset = true ∧ t.host.dom.rs = ⟨r.supply, true, r.soft, r.thermal⟩ ∧ t.dev = s.dev ∧
       ∀ n, (t.ch n).pwm = (s.ch n).pwm ∧ (t.ch n).weir = (s.ch n).weir ∧ (t.ch n).cas = (s.ch n).cas ∧
         (t.ch n).live = (s.ch n).live ∧ (t.ch n).dom.mem = (s.ch n).dom.mem ∧
         ∀ e, ∃ l, t.core (.ch n) e = { s.core (.ch n) e with lost := l }) ∧
     Answers .hostResetRelease s (fun t =>
         t.host.dom.rs = ⟨r.supply, false, r.soft, r.thermal⟩ ∧ t.host.dom.inReset = (r.supply || r.soft || r.thermal) ∧
         t.host.dom.mem = s.host.dom.mem ∧ ∀ n, (t.ch n).pwm = (s.ch n).pwm ∧ (t.ch n).live = (s.ch n).live))

/-- BOOT_PHASE_DONE moves a channel's boot on: B1 to B2, B3 to B4 once the PLL is locked and both searches are over, B5 with
SRAM cleared, a good image through B6 and B7, B8 with three good cores to the roles 0, 1 and 2, and B10 to completion; a bad
image, a wrong digest and a failed self-check of B7 stop it with FAIL 0x04, 0x03 and 0x05. Without a good reference B3 may
end on the RC oscillator (R108, R109, R111). -/
def Obligations.BootPhases : Prop :=
  ∀ (s : State) (c : Chan) (r : BootReport), Placed s → s.up c →
    let x := (s.ch c).dom
    let phase (t : State) (n : Nat) : Prop := (t.ch c).rgN SYS_BOOTSTAT_PHASE = n
    let fails (t : State) (n : Nat) : Prop := (t.ch c).rgN SYS_BOOTSTAT_FAIL = n
    let next := Instr.bootPhaseDone (.ch c) r
    (x.inPhase 1 = true → ChAnswers next s c (fun y => y.rgN SYS_BOOTSTAT_PHASE = 2)) ∧
    (x.inPhase 3 = true → x.rgB PLL_STAT_LOCK = true → x.pll.searches = [] →
      ChAnswers next s c (fun y => y.rgN SYS_BOOTSTAT_PHASE = 4)) ∧
    (x.inPhase 5 = true → Answers next s (fun t =>
      phase t 6 ∧ (r.fails = true → (t.ch c).rgB SPR_STAT_RECERR = true) ∧
        ∀ a, 0x10000000 ≤ a → a < 0x20000000 → memByte (t.ch c).dom.mem a = memByte [] a)) ∧
    (x.inPhase 6 = true →
      (headerOk x.mem false x.bank = false → Answers next s (fun t => phase t 6 ∧ fails t 4)) ∧
      (headerOk x.mem false x.bank = true → r.fails = true → Answers next s (fun t => phase t 6 ∧ fails t 3)) ∧
      (headerOk x.mem false x.bank = true → r.fails = false → Answers next s (fun t => phase t 7))) ∧
    (x.inPhase 7 = true → r.fails = false → Answers next s (fun t =>
      phase t 8 ∧ (t.ch c).dom.mem = placePrograms x.mem x.bank)) ∧
    (x.inPhase 7 = true → r.fails = true → Answers next s (fun t => phase t 7 ∧ fails t 5)) ∧
    (x.inPhase 8 = true → x.dual = false → r.fails = false → r.coreFails = 0 → Answers next s (fun t =>
      phase t 9 ∧ (t.ch c).dom.main = some .e0 ∧ (t.ch c).dom.shadow = some .e1 ∧ (t.ch c).dom.spare = some .e2)) ∧
    (x.inPhase 10 = true → Answers next s (fun t =>
      phase t 0xFF ∧ (t.ch c).rgB SYS_BOOTSTAT_DONE = true)) ∧
    (x.inPhase 3 = true → x.rgB PLL_STAT_REF_OK = false → Answers (.b3ReferenceTimeout (.ch c)) s (fun t =>
      phase t 4 ∧ (t.ch c).dom.onRc = true ∧ (t.ch c).dom.pll.fallback = true)) ∧
    (s.host.dom.inPhase 1 = true → Answers (.bootPhaseDone .host r) s (fun t => t.host.dom.rgN BOOT_STAT_PHASE = 2))

/-! ## The PLL and the reference (R93 to R107) -/

/-- Losing the reference puts a locked PLL into holdover with EV_REFLOSS (not while CCLK runs on the RC oscillator, log 26);
a good one ends it; when the holdover expires or both VCOs have failed, CCLK falls back to the RC oscillator and a channel's
trip latch sets (R93, R95, R96). With SPARE_AUTO an unlocked VCO hands over to the idle one in its stored band, and the change
of source locks on it or marks it failed, SPARE_FAIL telling of the spare; a SYNC edge aligns a locked integer PLL, and is
otherwise ignored with SYNC_IGN (R102, R104, R107). The host's PLL does the same but raises no event (R106). -/
def Obligations.ReferenceFallbackAndSync : Prop :=
  (∀ (s : State) (d : Dom), (s.dom d).inReset = false →
     let x := s.dom d
     let fallen (y : Domain) : Prop :=
       y.rgB PLL_STAT_RC = true ∧ y.rgB PLL_STAT_HOLD = false ∧ y.pll.fallback = true ∧ y.pll.searches = []
     let falls (i : Instr) : Prop := Answers i s (fun t => fallen (t.dom d) ∧ t.dev = s.dev ∧ t.pending = s.pending ∧
       ∀ n, (d = .ch n → (t.ch n).rgB PWM_TRIP_LATCH = true) ∧ (d ≠ .ch n → (t.ch n).pwm = (s.ch n).pwm))
     (x.rgB PLL_STAT_REF_OK = true → x.rgB PLL_STAT_LOCK = true → x.rgB PLL_STAT_RC = false →
       x.rgN PLL_CLKMON_HOLD_MAX ≠ 0 →
       DomAnswers (.referenceLost d) s d (fun y => y.rgB PLL_STAT_REF_OK = false ∧ y.rgB PLL_STAT_HOLD = true ∧
         (x.host = false → HasRoom x 0x7B → Waits x y 0x7B 0))) ∧
     (x.rgB PLL_STAT_REF_OK = true → x.rgB PLL_STAT_LOCK = true → x.rgB PLL_STAT_RC = false →
       x.rgN PLL_CLKMON_HOLD_MAX = 0 → falls (.referenceLost d)) ∧
     (x.rgB PLL_STAT_LOCK = false ∨ x.rgB PLL_STAT_RC = true →
       DomAnswers (.referenceLost d) s d (fun y => y.rgB PLL_STAT_REF_OK = false ∧
         y.rgB PLL_STAT_HOLD = x.rgB PLL_STAT_HOLD ∧ y.pll = x.pll)) ∧
     DomAnswers (.referenceGood d) s d (fun y => y.rgB PLL_STAT_REF_OK = true ∧ y.rgB PLL_STAT_HOLD = false ∧
       y.pll = x.pll ∧ y.mem = x.mem) ∧
     (x.rgB PLL_STAT_HOLD = true → falls (.holdoverExpiry d)) ∧
     (x.bothVcosFailed = true → falls (.rcFallbackSwitch d))) ∧
  (∀ (s : State) (d : Dom), (s.dom d).inReset = false →
     let x := s.dom d
     let other := (x.rg (PLL_HOP_BAND (if x.vcoSel then 0 else 1))).setWidth 6
     (x.rgB PLL_CTL_SPARE_AUTO = true → x.rgB PLL_STAT_LOCK = false → x.rgB PLL_STAT_REF_OK = true →
       x.rgB PLL_STAT_RC = false → x.pll.switching = false → x.vcoRetired (!x.vcoSel) = false →
       DomAnswers (.vcoSwitchOver d) s d (fun y =>
         y.pll = { x.pll with
           switching := true, hop := none, band0 := if x.vcoSel then other else x.pll.band0
           band1 := if x.vcoSel then x.pll.band1 else other } ∧ y.mem = x.mem)) ∧
     (x.pll.switching = true →
       DomAnswers (.vcoSwitchOverDone d true) s d (fun y => y.rgB PLL_STAT_VCO_SEL = !x.vcoSel ∧
         y.rgB PLL_STAT_LOCK = true ∧ (x.vcoSel = false → y.rgB PLL_STAT_SPARE_FAIL = false) ∧ y.pll.switching = false) ∧
       DomAnswers (.vcoSwitchOverDone d false) s d (fun y =>
         y.rgB PLL_STAT_SPARE_FAIL = (if x.vcoSel then x.rgB PLL_STAT_SPARE_FAIL else true) ∧
         y.rgB PLL_STAT_VCO_SEL = x.vcoSel ∧ y.rgB PLL_STAT_LOCK = x.rgB PLL_STAT_LOCK ∧ y.pll.switching = false))) ∧
  (∀ (s : State) (c : Chan), s.up c →
     let x := (s.ch c).dom
     let aligns := x.rgB PLL_CTL_SYNC_EN && decide (x.pll.nfrac = 0) && !x.rgB PLL_STAT_SSC_ON && x.rgB PLL_STAT_LOCK
       && !x.pll.aligning
     (aligns = true → ChAnswers (.syncEdge c) s c (fun y => y.dom.pll = { x.pll with aligning := true } ∧
       y.rgB PLL_STAT_SYNC_IGN = x.rgB PLL_STAT_SYNC_IGN)) ∧
     (aligns = false → ChAnswers (.syncEdge c) s c (fun y => y.rgB PLL_STAT_SYNC_IGN = true ∧ y.dom.pll = x.pll)))

/-- LOCK rises once the running VCO has been searched and the reference is good; it falls with UNLK_STICKY and EV_PLLUNLK; a
finished search writes its VCO's hop-table entry and the one that software named (R100, R101). APPLY, RC_RETURN and a hop that
is no switch-over are refused while a gate output is enabled, each with its own flag, and otherwise accepted: APPLY takes the
settings and relocks on the RC oscillator (R97 to R99, R101, R107). -/
def Obligations.LockSearchAndClockCommands : Prop :=
  (∀ (s : State) (d : Dom) (v : Bool) (named_ : Option Nat) (rest : List (Bool × Option Nat)) (band : BitVec 6),
     (s.dom d).inReset = false →
     let x := s.dom d
     (x.rgB PLL_STAT_LOCK = false → x.pll.searches.any (fun q => q.1 == x.vcoSel) = false → x.rgB PLL_STAT_REF_OK = true →
       DomAnswers (.pllLock d) s d (fun y => y.rgB PLL_STAT_LOCK = true ∧
         y.rgB PLL_STAT_RC = (x.rgB PLL_STAT_RC && !x.pll.returnOnLock) ∧ y.pll.searches = x.pll.searches ∧
         (x.pll.returnOnLock = true → y.pll.returnOnLock = false ∧ y.pll.fallback = false))) ∧
     (x.rgB PLL_STAT_LOCK = true → x.rgB PLL_STAT_HOLD = false →
       DomAnswers (.pllUnlock d) s d (fun y => y.rgB PLL_STAT_LOCK = false ∧ y.rgB PLL_STAT_UNLK_STICKY = true ∧
         (x.host = false → HasRoom x 0x7A → Waits x y 0x7A 0))) ∧
     (x.pll.searches = (v, named_) :: rest → (∀ j, named_ = some j → j < 8) → x.rgB PLL_STAT_REF_OK = true →
       DomAnswers (.pllBandSearchDone d v band) s d (fun y =>
         (∀ i ∈ (if v then 1 else 0) :: named_.toList,
           y.rgB (PLL_HOP_VALID i) = true ∧ y.rgB (PLL_HOP_VCO i) = v ∧ y.rg (PLL_HOP_BAND i) = band.setWidth 32 ∧
           y.rgN (PLL_HOP_TBAND i) = x.rgN THM_STAT_BAND ∧ y.rgB (PLL_HOP_REFDIV i) = x.pll.refdiv ∧
           y.rg (PLL_HOP_NINT i) = x.pll.nint.setWidth 32) ∧
         y.pll.searches = rest ∧ (if v then y.pll.band1 else y.pll.band0) = band))) ∧
  (∀ (s : State) (d : Dom) (w : Word) (fref : Nat), (s.dom d).inReset = false →
     let x := s.dom d
     let gates := s.gateMask d
     let others := x.pll.searches.filter (fun q => q.1 != x.vcoSel)
     let entry := fget w 2 0
     let named_ := if x.rgN PLL_HOPCTL_IDX < 2 then none else some (x.rgN PLL_HOPCTL_IDX)
     let good := settingOk fref (if x.rgB PLL_DIV_REFDIV then 2 else 1) (x.rgN PLL_DIV_NINT) (x.rgN PLL_FRAC_NFRAC)
     (bitOf w 1 = true → bitOf w 0 = false →
       (gates ≠ 0 ∨ x.sscOk = false ∨ x.pll.fallback = true ∨ good = false →
         DomAnswers (.apply d w fref) s d (fun y => y.rgB PLL_STAT_APPLY_ERR = true ∧ y.pll = x.pll ∧
           y.rgB PLL_STAT_RC = x.rgB PLL_STAT_RC)) ∧
       (gates = 0 → x.sscOk = true → x.pll.fallback = false → good = true →
         DomAnswers (.apply d w fref) s d (fun y => y.rgB PLL_STAT_RC = true ∧ y.rgB PLL_STAT_LOCK = false ∧
           y.pll.nint = (x.rg PLL_DIV_NINT).setWidth 9 ∧ y.pll.nfrac = (x.rg PLL_FRAC_NFRAC).setWidth 24 ∧
           y.pll.refdiv = x.rgB PLL_DIV_REFDIV ∧ y.pll.searches = (x.vcoSel, named_) :: others ∧
           y.pll.returnOnLock = true))) ∧
     (bitOf w 0 = true → bitOf w 1 = false →
       (gates = 0 → x.rgB PLL_STAT_REF_OK = true →
         DomAnswers (.rcReturn d w) s d (fun y => y.pll.searches = (x.vcoSel, none) :: others ∧
           y.pll.returnOnLock = true ∧ y.rgB PLL_STAT_BAND_DONE = false ∧ y.rgB PLL_STAT_RC = true)) ∧
       (gates ≠ 0 ∨ x.rgB PLL_STAT_REF_OK = false →
         DomAnswers (.rcReturn d w) s d (fun y => y.rgB PLL_STAT_APPLY_ERR = true ∧ y.pll = x.pll))) ∧
     (bitOf w 3 = true →
       ((x.set PLL_HOPCTL_IDX entry).hopRefused gates = true →
         DomAnswers (.hop d w) s d (fun y => y.rgB PLL_STAT_HOP_REF = true ∧ y.pll = x.pll)) ∧
       (x.rgB (PLL_HOP_VALID entry.toNat) = false ∨ x.rgB PLL_STAT_REF_OK = false ∨ x.rgB PLL_STAT_HOLD = true →
         (x.set PLL_HOPCTL_IDX entry).hopRefused gates = true) ∧
       ((x.set PLL_HOPCTL_IDX entry).hopRefused gates = false →
         DomAnswers (.hop d w) s d (fun y => y.rgN PLL_HOPCTL_IDX = entry.toNat ∧
           (y.pll.switching = true ∨ y.rgB PLL_STAT_VCO_SEL = x.rgB (PLL_HOP_VCO entry.toNat))))))

/-! ## Weir (R183 to R209) -/

/-- WAITA, WAITC and WAITE arm the thread at its slot with their target, limit and expiry address; with PAST = 1 a
target already passed by at most 2^30 satisfies the wait at once, with EV_WLATE (R186, R187, R195, R196; that the limit is
the one live in the issue cycle is the model's, log 69). At the end of a cycle a satisfied wait readies its thread at the
slot after it, and one whose limit is over continues at its address with EV_WEXP; the others wait on, and the strobes of the
cycle reach their destinations (R189, R192). WEIR_ARM sets arm flags and WEIR_DISARM clears them (R201). -/
def Obligations.WeirWaitsAndWakes : Prop :=
  (∀ (s : State) (c : Chan) (t : Thread) (dir : BitVec 2) (past rel : Bool) (kr : BitVec 2) (lim : BitVec 3)
     (addr : BitVec 13) (imm : Word), s.up c → (s.ch c).turnOf t →
     let x := s.ch c
     let k : WAt := ⟨c, t, .good⟩
     let slot := (x.weir.th t).pc
     let target := if rel then x.rg (WEIR_K_K kr.toNat) + imm else imm
     let armed (what : WaitFor) (late : Bool) : Channel :=
       { x with weir := x.weir.after t { x.weir.th t with
           st := .waiting ⟨what, x.now, slot, addr, x.lvN (WEIR_LIM_LIM lim.toNat), late, late, false⟩, pc := slot } }
     let lateA := past && decide ((if dir = 0 then (x.weir.theta - target).toNat else (target - x.weir.theta).toNat) ≤ 2 ^ 30)
     let lateC := past && decide ((x.weir.phi - target).toNat ≤ 2 ^ 30)
     let told (late : Bool) (y : Channel) : Prop :=
       late = true → HasRoom x.dom 0x19 → Waits x.dom y.dom 0x19 (threadArg t slot)
     (dir ≠ 3 → (past = true → dir ≠ 2) → ChAnswers (.waita k dir past rel kr lim addr imm) s c (fun y =>
       CountedCh (armed (.angle (if dir = 0 then .forward else if dir = 1 then .backward else .either) target) lateA) y ∧
         told lateA y)) ∧
     (dir = 0 → ChAnswers (.waitc k dir past rel kr lim addr imm) s c (fun y =>
       CountedCh (armed (.carrier target) lateC) y ∧ told lateC y)) ∧
     (imm.toNat < 128 → ChBecomes (.waite k lim addr imm) s c (armed (.event (imm.setWidth 7)) false))) ∧
  (∀ (s : State) (c : Chan) (v : Word), s.up c →
     let x := s.ch c
     ChBecomes (.weirArm c v) s c { x.set WEIR_ARM_ARM (x.rg WEIR_ARM_ARM ||| (v &&& 15)) with
       weir := { x.weir with armed := x.weir.armed ||| v.setWidth 4 } } ∧
     ChBecomes (.weirDisarm c v) s c { x.set WEIR_ARM_ARM (x.rg WEIR_ARM_ARM &&& ~~~(v &&& 15)) with
       weir := { x.weir with armed := x.weir.armed &&& ~~~(v.setWidth 4) } }) ∧
  (∀ (x : Channel) (t : Thread),
     let y := x.endWeirCycle
     y.weir.arrived = x.weir.strobes ∧ y.weir.strobes = 0 ∧ y.weir.issued = false ∧
     match (x.weir.th t).st with
     | .waiting w =>
       let late := decide (w.limit ≠ 0) && decide (w.cycle + w.limit ≤ x.now)
       y.weir.th t =
         (if w.hit then { st := .running, pc := w.slot + 1, late := w.late, jump := w.jump }
          else if late then { x.weir.th t with st := .running, pc := w.addr }
          else x.weir.th t) ∧
       (w.hit = false → late = true → HasRoom x.dom 0x18 →
         Waits x.dom (x.waitExpired t).dom 0x18 (threadArg t w.slot))
     | .stopped | .running => y.weir.th t = x.weir.th t)

/-- START sends its entry to Cascade, SIGNAL raises EV_WSIGn, STROBE sets its lines, COMMIT takes the controller with
the issue cycle as Q (R196, R198, R200). Weir's own commits: the hand-over and the exit take the controller with the
masks of WEIR_HOCMT, once each; a synchronous period that has lasted STMAX is detected with EV_SYNCFX 0x5, and in the next
cycle the carrier is asynchronous at the counter position of φ (R205, R207, R209). -/
def Obligations.WeirActionsAndOwnCommits : Prop :=
  (∀ (s : State) (c : Chan) (t : Thread) (imm : Word), s.up c → (s.ch c).turnOf t →
     let x := s.ch c
     let k : WAt := ⟨c, t, .good⟩
     let th := x.weir.th t
     let on : Weir := x.weir.after t { th with pc := th.pc + 1 }
     let before := x.planOld.foldl (fun m p => rput m p.1 p.2) x.plan
     (imm.toNat < 16384 → ChBecomes (.weirStart k imm) s c
       { x with weir := on, cas := { x.cas with starts := x.cas.starts ++ [imm.setWidth 14] } }) ∧
     (imm.toNat < 524288 → HasRoom x.dom (0x10 + (imm.toNat / 65536)) → ChAnswers (.weirSignal k imm) s c (fun y =>
       CountedCh { x with weir := on } y ∧ Waits x.dom y.dom (0x10 + imm.toNat / 65536) (imm.toNat % 65536))) ∧
     (imm.toNat < 32768 → ChBecomes (.strobe k imm) s c
       { x with weir := { on with strobes := x.weir.strobes ||| imm.setWidth 16 } }) ∧
     (imm.toNat < 128 → imm ≠ 0 → x.cmt = none → ChAnswers (.weirCommit k imm) s c (fun y =>
       y.weir = on ∧ y.live = x.live ∧ y.plan = x.plan ∧
         ∃ st, y.cmt = some ⟨.thread, imm.setWidth 7, x.now, st, before.filter (fun p => named (imm.setWidth 7) p.1)⟩)) ∧
     ChBecomes (.weirCommit k 0) s c { x with weir := on }) ∧
  (∀ (x : Channel) (th : Word) (jump : Bool),
     let before := x.planOld.foldl (fun m p => rput m p.1 p.2) x.plan
     let took (by_ : CommitBy) (mask : BitVec 7) : Prop :=
       let y := x.ownCommit
       y.weir = { x.weir with requested := true } ∧ y.live = x.live ∧
         ∃ st, y.cmt = some ⟨by_, mask, x.now, st, before.filter (fun p => named mask p.1)⟩
     (x.handoverDue = true → x.cmt = none → took .handover ((x.lv WEIR_HOCMT_HMASK).setWidth 7)) ∧
     (x.exitDue = true → x.cmt = none → took .exit ((x.lv WEIR_HOCMT_XMASK).setWidth 7)) ∧
     (x.handoverDue = false → x.exitDue = false → x.ownCommit = x) ∧
     (x.weir.mode = .sync → x.weir.syncStart + x.lvN WEIR_STMAX_STMAX ≤ x.now → x.weir.fx = 0 →
       x.rgB WEIR_STAT_STALE = false → x.weir.absOmega ≤ x.lvN WEIR_SMAX_SMAX →
       (x.detect false false).weir = { x.weir with fx := 5 } ∧
         (HasRoom x.dom 0x23 → Waits x.dom (x.detect false false).dom 0x23 5)) ∧
     (x.weir.mode = .sync → x.weir.fx ≠ 0 →
       let y := x.advance th jump
       y.weir.mode = .async ∧ y.weir.fx = 0 ∧ y.weir.theta = th ∧ y.weir.phi = x.weir.phi ∧ y.live = x.live ∧
         y.pwm.n = x.weir.phi.toNat * x.pwm.per / 4294967296))

/-- A slot that does not hold a legal instruction stops its thread alone, with EV_WERR, and WEIR_ERR records the first
such error with its code, thread and slot, for every Weir instruction; so does a field that the instruction does not allow
(R195, R196, R199). The register and branch instructions of Weir: LDK, ADDK, CAPK, DJNZ, JMP, BR, CHKARM and STOP change
their k register, their arm flag and their thread, and nothing else; CHKARM consumes the flag as the cycle began with it, and
one set anew in the cycle stays (R12, R196, R197, R201). -/
def Obligations.WeirRegistersBranchesAndStops : Prop :=
  (∀ (s : State) (c : Chan) (t : Thread) (f : SlotFetch) (code : Nat) (dir kr : BitVec 2) (past rel : Bool) (lim : BitVec 3)
     (addr : BitVec 13) (cond : BitVec 4) (imm : Word), s.up c → (s.ch c).turnOf t →
     let x := s.ch c
     let k : WAt := ⟨c, t, f⟩
     let stops (i : Instr) (code : Nat) : Prop :=
       ChAnswers i s c (fun y => y.weir = x.weir.after t { x.weir.th t with st := .stopped } ∧
         (HasRoom x.dom 0x1A → Waits x.dom y.dom 0x1A (threadArg t (x.weir.th t).pc)) ∧
         (x.rgB WEIR_ERR_VALID = false → y.rgB WEIR_ERR_VALID = true ∧ y.rgN WEIR_ERR_CODE = code ∧
           y.rgN WEIR_ERR_THREAD = t.idx ∧ y.rgN WEIR_ERR_ADDR = (x.weir.th t).pc.toNat) ∧
         y.pwm = x.pwm ∧ y.cas = x.cas ∧ y.cmt = x.cmt ∧ y.live = x.live)
     ((f, code) ∈ [(SlotFetch.badOpcode, 1), (.badField, 2), (.ecc, 3)] →
       ∀ i ∈ [Instr.waita k dir past rel kr lim addr imm, .waitc k dir past rel kr lim addr imm, .waite k lim addr imm,
         .strobe k imm, .weirStart k imm, .weirCommit k imm, .weirSignal k imm, .ldk k kr imm, .addk k kr imm,
         .capk k kr imm, .djnz k kr addr, .jmp k addr, .weirBr k cond addr, .chkarm k addr imm, .weirStop k],
         stops i code) ∧
     (f = .good →
       ∀ p ∈ [(Instr.waita k dir past rel kr lim addr imm, decide (dir = 3) || (past && decide (dir = 2))),
         (.waitc k dir past rel kr lim addr imm, decide (dir ≠ 0)), (.waite k lim addr imm, decide (128 ≤ imm.toNat)),
         (.strobe k imm, decide (32768 ≤ imm.toNat)), (.weirStart k imm, decide (16384 ≤ imm.toNat)),
         (.weirCommit k imm, decide (128 ≤ imm.toNat)), (.weirSignal k imm, decide (524288 ≤ imm.toNat)),
         (.capk k kr imm, decide (2 ≤ imm.toNat)), (.weirBr k cond addr, decide (7 ≤ cond.toNat)),
         (.chkarm k addr imm, decide (4 ≤ imm.toNat))],
         p.2 = true → stops p.1 2)) ∧
  (∀ (s : State) (c : Chan) (t : Thread) (kr : BitVec 2) (addr : BitVec 13) (cond : BitVec 4) (imm : Word),
     s.up c → (s.ch c).turnOf t →
     let x := s.ch c
     let k : WAt := ⟨c, t, .good⟩
     let th := x.weir.th t
     let v := x.rg (WEIR_K_K kr.toNat)
     let goes (p : BitVec 13) : Channel := { x with weir := x.weir.after t { th with pc := p } }
     let writes (p : BitVec 13) (w : Word) : Channel := (goes p).set (WEIR_K_K kr.toNat) w
     ChBecomes (.ldk k kr imm) s c (writes (th.pc + 1) imm) ∧
     ChBecomes (.addk k kr imm) s c (writes (th.pc + 1) (v + imm)) ∧
     (imm.toNat < 2 → ChBecomes (.capk k kr imm) s c
       (writes (th.pc + 1) (if imm = 0 then x.weir.theta else x.weir.phi))) ∧
     ChBecomes (.djnz k kr addr) s c (writes (if v - 1 = 0 then th.pc + 1 else addr) (v - 1)) ∧
     ChBecomes (.jmp k addr) s c (goes addr) ∧
     (cond.toNat < 7 → ChBecomes (.weirBr k cond addr) s c (goes (if x.weirCond t cond then addr else th.pc + 1))) ∧
     (imm.toNat < 4 →
       (x.weir.arm0.getLsbD imm.toNat = true → x.weir.armed.getLsbD imm.toNat = false →
         ChBecomes (.chkarm k addr imm) s c ((goes (th.pc + 1)).setB (WEIR_ARM_ARM.bit imm.toNat) false)) ∧
       (x.weir.arm0.getLsbD imm.toNat = true → x.weir.armed.getLsbD imm.toNat = true →
         ChBecomes (.chkarm k addr imm) s c (goes (th.pc + 1))) ∧
       (x.weir.arm0.getLsbD imm.toNat = false → ChBecomes (.chkarm k addr imm) s c (goes addr))) ∧
     ChBecomes (.weirStop k) s c { x with weir := x.weir.after t { th with st := .stopped } })

/-! ## Position feedback (R213 to R238) -/

/-- One quadrature step moves the encoder's count by one in its direction; a double change moves it by two with EV_QINF
where it may be inferred and otherwise only puts the count in doubt; while the encoder is not active its state is followed and
nothing counts; an accepted Z edge captures the count and, with ZMODE 2, sets it to ZPOS; a line fault takes the count's
validity (R214, R217 to R220, R557). POS_CNTSET presets a count. In each cycle a due emulation step leaves towards the backlog,
standstill begins once no edge has come for ZTMO, and a MONO interval ends (R220, R225, R233, R236). -/
def Obligations.EncoderAndCounts : Prop :=
  (∀ (s : State) (c : Chan) (ab : BitVec 2) (pairs : BitVec 3) (w : Word), s.up c →
    let x := s.ch c
    let on : Prop := x.active 1 = true ∧ x.lvB POS_CTL_RXEN = true
    let elsewhere (y : Channel) : Prop :=
      y.pwm = x.pwm ∧ y.adc = x.adc ∧ y.cas = x.cas ∧ y.weir = x.weir ∧ y.live = x.live ∧ y.dom.mem = x.dom.mem
    (x.lvB POS_CTL_RXEN = true → x.pos.encRef = none ∨ x.active 1 = false →
      ChBecomes (.encoderStep c ab) s c { x with pos := { x.pos with encRef := some ab } }) ∧
    (∀ r, on → x.pos.encRef = some r →
      (quadIndex ab = (quadIndex r + 1) % 4 → ChAnswers (.encoderStep c ab) s c (fun y =>
        y.pos.encP = x.pos.encP + 1 ∧ y.pos.encRef = some ab ∧ elsewhere y)) ∧
      (quadIndex r = (quadIndex ab + 1) % 4 → ChAnswers (.encoderStep c ab) s c (fun y =>
        y.pos.encP = x.pos.encP - 1 ∧ y.pos.encRef = some ab ∧ elsewhere y)) ∧
      (ab = ~~~r → ¬(x.lvN POS_QINF_QINF < x.weir.absOmega ∧ x.rgB POS_STAT_DIRSET = true) →
        HasRoom x.dom 0x32 → ChAnswers (.encoderStep c ab) s c (fun y =>
          y.pos.encP = x.pos.encP ∧ y.rgB POS_STAT_CNTDBT = true ∧ Waits x.dom y.dom 0x32 ab.toNat ∧ elsewhere y)) ∧
      (ab = ~~~r → x.lvN POS_QINF_QINF < x.weir.absOmega → x.rgB POS_STAT_DIRSET = true → HasRoom x.dom 0x31 →
        ChAnswers (.encoderStep c ab) s c (fun y =>
          y.pos.encP = (if x.rgB POS_STAT_DIR then x.pos.encP - 2 else x.pos.encP + 2) ∧
          Waits x.dom y.dom 0x31 (if x.rgB POS_STAT_DIR then 1 else 0) ∧ elsewhere y))) ∧
    (on → x.lvN POS_ENC_ZMODE = 1 → HasRoom x.dom 0x33 → ChAnswers (.encoderIndex c) s c (fun y =>
      y.rgN POS_ZCAP_CAP = countMod x.pos.encP x.encCpr ∧ y.pos = x.pos ∧
        Waits x.dom y.dom 0x33 (countMod x.pos.encP x.encCpr % 65536) ∧ elsewhere y)) ∧
    (on → x.lvN POS_ENC_ZMODE = 2 → x.rgB POS_STAT_LFAULT = false → ChAnswers (.encoderIndex c) s c (fun y =>
      y.pos.encP = x.pos.encP +
        BitVec.ofInt 48 (zError (x.lvN POS_ZPOS_ZPOS) (countMod x.pos.encP x.encCpr) x.encCpr) ∧
      y.rgB POS_STAT_HOMED = true ∧ y.rgB POS_STAT_CNTDBT = false ∧ y.pos.encAv = true ∧ elsewhere y)) ∧
    (x.lvB POS_CTL_RXEN = true → x.rgB POS_STAT_LFAULT = false → HasRoom x.dom 0x3C →
      ChAnswers (.encoderLineFault c pairs) s c (fun y =>
        CountedCh ({ x with pos := { x.pos with encAv := false } }.setB POS_STAT_LFAULT true) y ∧
          Waits x.dom y.dom 0x3C pairs.toNat)) ∧
    ChBecomes (.encoderLineFaultEnd c) s c (x.setB POS_STAT_LFAULT false) ∧
    (fget w 31 29 = 1 → ChAnswers (.posCntset c w) s c (fun y =>
      y.pos.encP = x.pos.encP + BitVec.ofInt 48
        (((fget w 23 0).toNat % x.encCpr : Nat) - (countMod x.pos.encP x.encCpr : Nat) : Int) ∧
      y.rgB POS_STAT_CNTDBT = false ∧ elsewhere y)) ∧
    (fget w 31 29 = 2 → ChAnswers (.posCntset c w) s c (fun y => y.pos.resPreset = true ∧ y.pos.encP = x.pos.encP ∧
      elsewhere y)) ∧
    ChAnswers (.posErrcntClear c) s c (fun y =>
      y.rgN POS_ERRCNT_SKIP = 0 ∧ y.rgN POS_ERRCNT_SSIERR = 0 ∧ y.rgN POS_ERRCNT_HALLERR = 0 ∧
        y.rgN POS_ERRCNT_QERR = 0 ∧ y.pos = x.pos ∧ elsewhere y)) ∧
  (∀ x : Channel,
    let y := x.tickPos
    let z := x.pos.stillOf x.srcUse
    let due := x.lvB POS_CTL_EMEN && !x.emErr && decide (x.pos.emBacklog ≠ 0)
      && decide (x.pos.emLast + (if x.lvN POS_EMCTL_EMMIN < 2 then 2 else x.lvN POS_EMCTL_EMMIN) ≤ x.now)
    (due = true → 0 < x.pos.emBacklog → y.pos.emBacklog = x.pos.emBacklog - 1 ∧ y.pos.emPhase = x.pos.emPhase + 1 ∧
      y.pos.emLast = x.now) ∧
    (due = true → x.pos.emBacklog < 0 → y.pos.emBacklog = x.pos.emBacklog + 1 ∧ y.pos.emPhase = x.pos.emPhase - 1 ∧
      y.pos.emLast = x.now) ∧
    (due = false → y.pos.emBacklog = x.pos.emBacklog ∧ y.pos.emPhase = x.pos.emPhase ∧ y.pos.emLast = x.pos.emLast) ∧
    (x.srcUse = 1 ∨ x.srcUse = 4 → z.on = false → z.from_ + atLeast1 (x.lvN POS_ZTMO_ZTMO) ≤ x.now →
      (y.pos.stillOf x.srcUse).on = true ∧ (y.pos.stillOf x.srcUse).told = false) ∧
    (x.srcUse = 1 ∨ x.srcUse = 4 → x.now < z.from_ + atLeast1 (x.lvN POS_ZTMO_ZTMO) → y.pos.stillOf x.srcUse = z) ∧
    (∀ t, x.pos.ssiMono = some t → t + x.lvN POS_SSI2_MONO ≤ x.now →
      y.pos.ssiMono = none ∧ y.rgB POS_STAT_SSIBUSY = false) ∧
    (y.pos.encP = x.pos.encP ∧ y.pos.resP = x.pos.resP ∧ y.pos.ssiP = x.pos.ssiP ∧ y.pos.hallP = x.pos.hallP ∧
      y.pwm = x.pwm ∧ y.adc = x.adc ∧ y.live = x.live))

/-- A resolver pair, 44 cycles after its hold, updates the loop and its registers where the reference was ready at the hold,
or is counted as skipped where strobed sampling finds too little reference; a completed SSI frame gives the count
and its stamp, or is discarded with EV_SSIERR, and one of a source no longer active leaves the count; an accepted Hall code
moves the count by the sector difference, an impossible one is counted (R214, R222 to R227, R265). A strobe forms a latch of
the source in use, due 4 CCLK later, and its delivery writes the latch registers and gives Weir the latch; without a valid
source it is counted in SKIP (R228, R229). -/
def Obligations.PositionSourcesAndLatch : Prop :=
  (∀ (s : State) (c : Chan) (p : ResolverPair) (bits : BitVec 48) (h : BitVec 3), s.up c →
    let x := s.ch c
    let elsewhere (y : Channel) : Prop := y.pwm = x.pwm ∧ y.live = x.live ∧ y.dom.mem = x.dom.mem
    let held (y : Channel) : Prop :=
      y.adc = { x.adc with resHold := x.adc.resHold.filter (fun q => q + 44 != x.now) } ∧
      y.rg ADC_RSLV_SIN = p.sin.setWidth 32 ∧ y.rg ADC_RSLV_COS = p.cos.setWidth 32 ∧ elsewhere y
    (x.resolverDue = true →
      (x.readyAt (x.now - 44) = true → x.active 2 = true → (x.lvB POS_RSLV_SMODE = true → x.excUsable 44 = true) →
        ChAnswers (.resolverPair c p) s c (fun y =>
          y.pos.resP = x.pos.resP + (p.angle - x.pos.resP.setWidth 16).signExtend 48 ∧ y.pos.resVel = p.vel ∧
          y.pos.resStamp = x.now - 44 ∧ y.rg POS_RVEC_RMAG = p.mag.setWidth 32 ∧
          y.rg POS_RVEC_RERR = p.err.setWidth 32 ∧ y.rgB ADC_RSLVTAG_INVALID = false ∧ held y)) ∧
      (x.readyAt (x.now - 44) = true → x.active 2 = true → x.lvB POS_RSLV_SMODE = true → x.excUsable 44 = false →
        ChAnswers (.resolverPair c p) s c (fun y =>
          y.pos = x.pos ∧ y.rgN POS_ERRCNT_SKIP = satN 255 (x.rgN POS_ERRCNT_SKIP + 1) ∧ held y)) ∧
      (x.readyAt (x.now - 44) = false → ChAnswers (.resolverPair c p) s c (fun y =>
        y.pos = x.pos ∧ y.rgB ADC_RSLVTAG_INVALID = true ∧ held y))) ∧
    (2 ≤ x.rgN SYS_BOOTSTAT_PHASE → ∀ t, x.pos.ssiStart = some t →
      let f := x.withPosBank x.pos.ssiBank
      let ends := t + f.ssiFrameTime
      let room : Prop := (x.dom.evq.filter (fun e => e.src == (0x3B : BitVec 7))).length < 4 ∧ sget 0 x.dom.evNext 0x3B ≤ ends
      ends ≤ x.now → f.lvB POS_SSI_PAR = false → f.lvB POS_SSI_ERRB = false →
      (x.active 3 = true → f.lvB POS_SSI_GRAY = false → ChAnswers (.ssiFrameEnd c bits false) s c (fun y =>
        y.pos.ssiP = bits &&& BitVec.ofNat 48 (2 ^ f.ssiLen - 1) ∧ y.pos.ssiAv = true ∧
          y.pos.ssiStamp = t + f.lvN POS_SSI2_TLAT ∧ y.pos.ssiStart = none ∧ y.adc = x.adc ∧ elsewhere y)) ∧
      (x.active 3 = true → ChAnswers (.ssiFrameEnd c bits true) s c (fun y =>
        y.pos.ssiP = x.pos.ssiP ∧ y.pos.ssiAv = false ∧ y.pos.ssiStart = none ∧ (room → ⟨0x3B, ends, 4⟩ ∈ y.dom.evq) ∧
          y.adc = x.adc ∧ elsewhere y)) ∧
      (x.active 3 = false → ∀ low, ChBecomes (.ssiFrameEnd c bits low) s c
        { x with pos := { x.pos with ssiStart := none, ssiMono := some ends } })) ∧
    (2 ≤ x.rgN SYS_BOOTSTAT_PHASE →
      (∀ a : BitVec 3, a.toNat < 6 → x.active 4 = true → x.hallPossible h = true → x.pos.hallSector = some a →
        let b := (fget (x.lv POS_HALLMAP_MAP) (3 * h.toNat + 2) (3 * h.toNat)).toNat
        (b = (a.toNat + 1) % 6 → HasRoom x.dom 0x35 → ChAnswers (.hallChange c h) s c (fun y =>
          y.pos.hallP = x.pos.hallP + 1 ∧ y.pos.hallCode = h ∧ Waits x.dom y.dom 0x35 b ∧ y.adc = x.adc ∧ elsewhere y)) ∧
        (a.toNat = (b + 1) % 6 → HasRoom x.dom 0x35 → ChAnswers (.hallChange c h) s c (fun y =>
          y.pos.hallP = x.pos.hallP - 1 ∧ y.pos.hallCode = h ∧ Waits x.dom y.dom 0x35 b ∧ y.adc = x.adc ∧ elsewhere y)) ∧
        (b = (a.toNat + 2) % 6 → HasRoom x.dom 0x37 → ChAnswers (.hallChange c h) s c (fun y =>
          y.pos.hallP = x.pos.hallP + 2 ∧ Waits x.dom y.dom 0x37 2 ∧ y.adc = x.adc ∧ elsewhere y))) ∧
      (x.active 4 = true → x.hallPossible h = false → HasRoom x.dom 0x36 → ChAnswers (.hallChange c h) s c (fun y =>
        y.pos.hallP = x.pos.hallP ∧ y.pos.hallCode = h ∧ Waits x.dom y.dom 0x36 h.toNat ∧
          y.rgN POS_ERRCNT_HALLERR = satN 255 (x.rgN POS_ERRCNT_HALLERR + 1) ∧ y.adc = x.adc ∧ elsewhere y)) ∧
      (x.active 4 = false → ChAnswers (.hallChange c h) s c (fun y =>
        y.pos.hallP = x.pos.hallP ∧ y.pos.hallCode = h ∧ y.cas = x.cas ∧ elsewhere y)))) ∧
  (∀ x : Channel,
    let y := x.latchStrobe
    let edge := x.endPosCycle
    (x.srcUse ≠ 3 → x.avalid x.srcUse = true →
      y.pos.inFlight.dropLast = x.pos.inFlight ∧
      y.pos.inFlight.getLast?.map (fun l => (l.due, l.src, l.count)) = some (x.now + 4, BitVec.ofNat 3 x.srcUse,
        x.countOf x.psrc - (if x.psrc = 1 then x.pos.zShift else 0)) ∧
      y.pwm = x.pwm ∧ y.adc = x.adc ∧ y.live = x.live) ∧
    (x.srcUse ≠ 3 → x.avalid x.srcUse = false → x.lvB POS_CTL_FAILOVER = false → x.active 3 = false →
      y.pos = x.pos ∧ y.rgN POS_ERRCNT_SKIP = satN 255 (x.rgN POS_ERRCNT_SKIP + 1)) ∧
    (edge.pos = { (if x.weir.arrived.getLsbD 8 then y else x).pos with zShift := 0 }) ∧
    (∀ (l : Latch) (ls : List Latch), x.pos.inFlight = l :: ls → l.due ≤ x.now →
      let d := x.latchDue
      d.1.pos.inFlight = ls ∧
      (x.avalid x.srcUse = true → d.2 = some (l.theta, l.omega, l.stamp) ∧ d.1.rg POS_LANG_THETA = l.theta ∧
        d.1.rg POS_LSPD_OMEGA = l.omega ∧ d.1.rg POS_MPOSLO_P = l.count.setWidth 32 ∧
        (HasRoom x.dom 0x30 → Waits x.dom d.1.dom 0x30 l.src.toNat)) ∧
      (x.avalid x.srcUse = false → d.2 = none ∧ d.1.rg POS_LANG_THETA = x.rg POS_LANG_THETA ∧
        d.1.rgN POS_ERRCNT_SKIP = satN 255 (x.rgN POS_ERRCNT_SKIP + 1))) ∧
    (∀ (theta omega : Word) (stamp : Nat),
      let u := (x.useLatch theta omega stamp).1
      u.weir.thL = theta ∧ u.weir.omL = omega ∧ u.weir.tL = stamp ∧ u.weir.latched = true ∧
        u.rgB WEIR_STAT_STALE = false ∧ u.pos = x.pos ∧ u.live = x.live))

/-! ## Sensing and calibration (R239 to R271) -/

/-- The conversion due in a cycle, 44 cycles after its hold, is stored calibrated at its word (R241, R251, R255, R257). At
the end of a cycle the trigger lines that fired are taken: a line starts a group where none runs, otherwise it waits, and one
that waits already counts an overrun; a line that waits starts late with EV_TRGLATE (R245, R246, R248, R254, R270, R294). A
group ends in the cycle after its last store with EV_GDONEn, and its multiplexers go to line PRESEL's first inputs (R251,
R252, R255). -/
def Obligations.ConversionGroups : Prop :=
  (∀ (s : State) (c : Chan) (q : Sample) (g : Group), s.up c →
    let x := s.ch c
    x.adc.grp = some g → g.conv < g.total → g.hold0 + g.conv * (g.ts + 42) + 44 = x.now →
      ChAnswers (.conversionStore c ⟨q.v0, q.v1, q.v2⟩ q.vr q.vref ⟨q.e0, q.e1, q.e2, q.er⟩) s c (fun y =>
        (∃ g', y.adc.grp = some g' ∧ g'.conv = g.conv + 1 ∧ g'.line = g.line ∧ g'.total = g.total ∧ g'.hold0 = g.hold0) ∧
        (∀ j, j < 3 → g.conv < seqCount g.bank g.line j →
          let i := seqEntry g.bank g.line j g.conv
          (sget 0 y.adc.results (32 * g.line + (4 * j + g.conv))).setWidth 16 = BitVec.ofInt 16 (satS 16
            (calibrate g.bank (g.phys.getD j 0) i
              (entryCode i ([q.v0, q.v1, q.v2].getD j 0) q.vref ([q.e0, q.e1, q.e2].getD j 0))))) ∧
        y.weir = x.weir ∧ y.pwm = x.pwm ∧ y.pos = x.pos ∧ y.cas = x.cas ∧ y.live = x.live ∧ y.dom.mem = x.dom.mem)) ∧
  (∀ (x : Channel) (n : BitVec 3),
    let line := n.toNat
    let elsewhere (y : Channel) : Prop :=
      y.pwm = x.pwm ∧ y.pos = x.pos ∧ y.cas = x.cas ∧ y.weir = x.weir ∧ y.live = x.live ∧ y.dom.mem = x.dom.mem
    let starts (late : Bool) (y : Channel) : Prop :=
      ∃ g, y.adc.grp = some g ∧ g.line = line ∧ g.start = x.now ∧ g.late = late ∧ g.conv = 0 ∧
        g.seq = (sget 0 x.adc.seqs line + 1) % 16 ∧ g.ts = x.sampleTime ∧
        (g.hold0 = x.now + 1 ∨ g.hold0 = x.now + 1 + g.ts)
    let free : Prop := x.adc.grp = none ∧ x.adc.ending = false
    let at_ := x.lvN (ADC_TRIG_POS line) * 2 ^ 32 / x.lvN PWM_CPER_PER
    (free → starts false (x.lineFire line) ∧ elsewhere (x.lineFire line)) ∧
    (¬free → x.adc.pend.getLsbD line = false →
      x.lineFire line = { x with adc := { x.adc with pend := x.adc.pend ||| BitVec.ofNat 8 (2 ^ line) } }) ∧
    (¬free → x.adc.pend.getLsbD line = true → CountedCh (x.count ADC_ERRCNT_TRGOVR) (x.lineFire line) ∧
      (HasRoom x.dom 0x48 → Waits x.dom (x.lineFire line).dom 0x48 line)) ∧
    (free → lowestBit x.adc.pend = some line → starts true x.startPending ∧ elsewhere x.startPending ∧
      x.startPending.adc.pend.getLsbD line = false ∧ (HasRoom x.dom 0x49 → Waits x.dom x.startPending.dom 0x49 line)) ∧
    (¬free → x.startPending = x) ∧
    (free → x.adc.pend = 0 → x.fires line = true → (∀ j, j < line → x.fires j = false) →
      starts false x.endLines ∧ elsewhere x.endLines) ∧
    (x.fires line = match x.lvN (ADC_TSRC_SRC line) with
      | 1 => x.weir.arrived.getLsbD line
      | 2 => x.posReached line
      | 3 => x.pwm.xSent.getLsbD line
      | _ => false) ∧
    (x.posReached line = true ↔ x.pwm.running = true ∧ x.pwm.frozen = false ∧ x.adc.posFired.getLsbD line = false ∧
      0 < x.lvN PWM_CPER_PER ∧ at_ ≤ x.weir.phi.toNat ∧ (x.pwm.begun = true ∨ x.pwm.phiWas.toNat < at_)) ∧
    (x.lvN (ADC_TSRC_SRC line) = 2 → x.posReached line = true → x.endLines.adc.posFired.getLsbD line = true) ∧
    (x.weir.mode = .async → x.pwm.running = true → x.pwm.frozen = false → x.lvB (PWM_XCMP_EN line) = true →
      x.pwm.xFired.getLsbD line = false → (x.xcmpDue line = true ↔ x.pwm.n = x.lvN (PWM_XCMP_POS line))) ∧
    (x.endPwmCycle.pwm.xSent.getLsbD line = x.xcmpDue line) ∧
    (x.xcmpDue line = true → x.endPwmCycle.pwm.xFired.getLsbD line = true)) ∧
  (∀ (x : Channel) (g : Group), x.adc.grp = some g →
    let y := x.groupEdge
    let line := (fld g.bank ADC_CTL_PRESEL).toNat
    (g.conv = g.total → g.total ≠ 0 → g.hold0 + (g.total - 1) * (g.ts + 42) + 45 = x.now →
      y.adc.grp = none ∧ y.adc.ending = true ∧ y.adc.pend = x.adc.pend ∧
      (g.line < 8 → HasRoom x.dom (0x40 + g.line) → Waits x.dom y.dom (0x40 + g.line)
        (g.seq * 4096 + (if g.invalid then 2048 else 0) + (if g.late then 1024 else 0))) ∧
      (∀ j, j < 3 → (∀ i, i < 3 → i ≠ j → g.phys.getD i 0 ≠ g.phys.getD j 0) → g.rover ≠ g.phys.getD j 0 →
        sget 0 y.adc.muxIn (g.phys.getD j 0) = seqEntry g.bank line j 0) ∧
      y.weir = x.weir ∧ y.pwm = x.pwm ∧ y.pos = x.pos ∧ y.live = x.live) ∧
    (g.conv < g.total → y = { x with adc := { x.adc with ending := false } }))

/-- The reference buffer, the sigma-delta demodulators, the comparators, SUBCMD and the calibration engine: each command
changes its own part of ADC, raises its event, and leaves the other blocks alone (R242, R260 to R264, R267 to R269,
R271). At the clock edge a comparator whose hold ends shows the comparison of the voltage on its ball (R264, R372). -/
def Obligations.SensingAndCalibration : Prop :=
  (∀ (s : State) (c : Chan) (w : Word) (q : BitVec 3) (k : BitVec 2) (sum s0 s1 s2 s3 : Nat) (toggled : Bool) (v : Int),
    s.up c →
    let x := s.ch c
    let elsewhere (y : Channel) : Prop :=
      y.pwm = x.pwm ∧ y.pos = x.pos ∧ y.cas = x.cas ∧ y.weir = x.weir ∧ y.live = x.live ∧ y.dom.mem = x.dom.mem
    let sampled : Prop := 2 ≤ x.rgN SYS_BOOTSTAT_PHASE
    let d := q.toNat
    let sd := sget SdState.reset x.adc.sd d
    let D := x.lvN (ADC_SDCFG_DEC d)
    let S := satN (D ^ 3) sum
    let exact : Int := Int.fdiv ((2 * (S : Int) - (D ^ 3 : Nat)) * 32768) (D ^ 3 : Nat)
    let stuck := sd.stuck && !toggled
    let skip := if sd.stuck && toggled then 2 else sd.skip
    let word : SdState :=
      ⟨BitVec.ofInt 16 (satS 16 exact), decide (skip = 0) && !stuck, decide (exact ≠ satS 16 exact), x.now, skip - 1, stuck,
        sd.bits, sd.seen, true⟩
    let input := (fget w 20 16).toNat
    let ball := x.lvN (ADC_FCMP_SEL k.toNat)
    let due (st : CalStep) : Prop := x.adc.cal = some st ∧ st.due = x.now
    let sums (st : CalStep) : List Nat := [s0, s1, s2, s3].map (satN (65535 * 2 ^ st.avg))
    let coeffs (st : CalStep) (p : Nat) : Option (Int × Int) :=
      let z := sget ZeroCap.none x.adc.zeros st.input
      calCoeffs z.target st.target z.avg (z.sums.getD p 0) st.avg ((sums st).getD p 0)
    (x.lvB ADC_CTL_REFEN = true → x.rgB ADC_STAT_REF_READY = false → x.adc.refOn + 800000 ≤ x.now →
      x.adc.refOut + 400000 ≤ x.now → HasRoom x.dom 0x4E → ChAnswers (.refReadyRise c) s c (fun y =>
        y.rgB ADC_STAT_REF_READY = true ∧ Waits x.dom y.dom 0x4E 0 ∧ elsewhere y)) ∧
    (x.rgB ADC_STAT_REF_READY = true → HasRoom x.dom 0x4F → ChAnswers (.refReadyFall c) s c (fun y =>
      y.rgB ADC_STAT_REF_READY = false ∧ y.rgB ADC_STAT_REFLOST = true ∧ y.adc.refOut = x.now ∧ Waits x.dom y.dom 0x4F 0 ∧
        elsewhere y)) ∧
    (sampled → x.sdWordEnds d = true → sd.done = false → ChBecomes (.sdWordComplete c q ⟨sum, toggled⟩) s c
      { x with adc := { x.adc with sd := sset SdState.reset x.adc.sd d word } }) ∧
    (sampled → x.sdBit d = true → 63 ≤ sd.seen → sd.stuck = false → HasRoom x.dom 0x50 →
      ChAnswers (.sdStreamStuck c q) s c (fun y =>
        (sget SdState.reset y.adc.sd d).stuck = true ∧ Waits x.dom y.dom 0x50 d ∧
          y.rgN ADC_ERRCNT_SDFLT = satN 255 (x.rgN ADC_ERRCNT_SDFLT + 1) ∧ elsewhere y)) ∧
    (x.cmpOn k.toNat = true → ChAnswers (.fastComparatorChange c k v) s c (fun y =>
      sget 0 y.adc.ain ball = v ∧
      (∀ j, j < 4 →
        let follows : Bool := x.cmpOn j && decide (x.lvN (ADC_FCMP_SEL j) = ball) && !x.settling j
        let active := compares (x.lvB (ADC_FCMP_POL j)) (x.adc.cmpOut.getLsbD j) v (x.lvN (ADC_FCMP_TH j))
          (1024 * hysteresis (x.lvN (ADC_FCMP_HYS j)))
        y.adc.cmpOut.getLsbD j = (if follows then active else x.adc.cmpOut.getLsbD j) ∧
        (follows = true → active = true → x.adc.cmpOut.getLsbD j = false → HasRoom x.dom (0x0C + j) →
          Waits x.dom y.dom (0x0C + j) ball)) ∧ elsewhere y)) ∧
    (bitOf w 2 = true → (fget w 1 0).toNat < 3 → x.rgB ADC_STAT_NOROVE = false → ChBecomes (.subcmd c w) s c
      { x with adc := { x.adc with subPend := some ((fget w 1 0).toNat, x.now) } }) ∧
    (bitOf w 2 = false ∨ fget w 1 0 = 3 ∨ x.rgB ADC_STAT_NOROVE = true → ChBecomes (.subcmd c w) s c x) ∧
    (fget w 31 30 = 1 → x.calRefusal false input = 0 → ChAnswers (.calZeroStep c w) s c (fun y =>
      (∃ st, y.adc.cal = some st ∧ st.full = false ∧ st.input = input ∧ st.target = sgn 16 (fget w 15 0).toNat) ∧
        y.rgB ADC_CALSTAT_BUSY = true ∧ y.rgN ADC_CALSTAT_INPUT = input ∧ elsewhere y)) ∧
    (fget w 31 30 = 1 → x.calRefusal false input ≠ 0 → HasRoom x.dom 0x52 → ChAnswers (.calZeroStep c w) s c (fun y =>
      y.rgN ADC_CALSTAT_ERR = x.calRefusal false input ∧ y.rgB ADC_CALSTAT_ERRF = true ∧ y.adc = x.adc ∧
        Waits x.dom y.dom 0x52 (x.calRefusal false input) ∧ elsewhere y)) ∧
    (fget w 31 30 = 2 → x.calRefusal true input = 0 → ChAnswers (.calFullScaleStep c w) s c (fun y =>
      (∃ st, y.adc.cal = some st ∧ st.full = true ∧ st.input = input ∧ st.target = sgn 16 (fget w 15 0).toNat) ∧
        y.rgB ADC_CALSTAT_BUSY = true ∧ elsewhere y)) ∧
    (∀ st, due st → st.full = false → HasRoom x.dom 0x51 → ChAnswers (.calStepDone c s0 s1 s2 s3) s c (fun y =>
      y.adc.cal = none ∧ sget ZeroCap.none y.adc.zeros st.input = ⟨st.target, st.avg, sums st⟩ ∧
      y.rgB ADC_CALSTAT_BUSY = false ∧ y.rgB ADC_CALSTAT_DONE = true ∧ Waits x.dom y.dom 0x51 st.input ∧
      y.plan = x.plan ∧ elsewhere y)) ∧
    (∀ st, due st → st.full = true → st.input < 24 → (∀ p ∈ x.convs, (coeffs st p).isSome = true) →
      ChAnswers (.calStepDone c s0 s1 s2 s3) s c (fun y =>
        y.adc.cal = none ∧ y.rgB ADC_CALSTAT_BUSY = false ∧ y.rgB ADC_CALSTAT_DONE = true ∧ y.rgN ADC_CALSTAT_ERR = 0 ∧
        sget ZeroCap.none y.adc.zeros st.input = ZeroCap.none ∧
        (x.cmt = none → ∀ p ∈ x.convs, ∀ g o, coeffs st p = some (g, o) →
          let gf := ADC_CGAIN_GAIN st.input p
          let cf := ADC_COFFS_OFFS st.input p
          (x.dom.cyc.wrote.contains gf.reg = false → rget y.plan gf.reg = wordOfInt g &&& 0xFFFFFF) ∧
          (x.dom.cyc.wrote.contains cf.reg = false → rget y.plan cf.reg = wordOfInt o &&& 0xFFFFFF)) ∧ elsewhere y)) ∧
    (∀ st, due st → st.full = true → (∃ p ∈ x.convs, coeffs st p = none) → HasRoom x.dom 0x52 →
      ChAnswers (.calStepDone c s0 s1 s2 s3) s c (fun y =>
        y.adc.cal = none ∧ y.rgB ADC_CALSTAT_BUSY = false ∧ y.rgN ADC_CALSTAT_ERR = 4 ∧ y.rgB ADC_CALSTAT_ERRF = true ∧
          Waits x.dom y.dom 0x52 4 ∧ y.plan = x.plan ∧ elsewhere y)) ∧
    ChAnswers (.adcErrcntClear c) s c (fun y => y.rgN ADC_ERRCNT_SDFLT = 0 ∧ y.rgN ADC_ERRCNT_PLMIS = 0 ∧
      y.rgN ADC_ERRCNT_TRGLATE = 0 ∧ y.rgN ADC_ERRCNT_TRGOVR = 0 ∧ y.adc = x.adc ∧ elsewhere y)) ∧
  (∀ (x : Channel) (k : Nat), k < 7 → x.settling k = true →
    let y := x.settleEdge
    (sget 0 x.adc.settle k ≤ x.now → y.settling k = false ∧
      y.adc.cmpOut.getLsbD k = (if k < 4 then x.cmpSense k else x.vdcSense k)) ∧
    (x.now < sget 0 x.adc.settle k → y.settling k = true ∧ y.adc.cmpOut.getLsbD k = x.adc.cmpOut.getLsbD k) ∧
    y.live = x.live ∧ y.pos = x.pos) ∧
  (∀ (x : Channel) (d : Nat),
    let old := sget SdState.reset x.adc.sd d
    let new := sget SdState.reset (x.endSd d).adc.sd d
    (x.sdBit d = true → new.bits = (if x.sdWordEnds d then 0 else old.bits + 1) ∧ new.seen = satN 64 (old.seen + 1) ∧
      new.done = false ∧ (old.done = true → new.word = old.word ∧ new.valid = old.valid)) ∧
    (x.sdBit d = false → x.endSd d = x))

/-! ## Bridge modulation and trips (R272 to R306) -/

/-- In the cycle in which the carrier reaches it, the pulse decision gives a leg its pulse by the table of R286, with the
instants of R283, and the carry what is left (R283, R286, R288). A compare switches the outgoing switch of a two-level
leg off at once and the incoming one when its dead time ends (R283, R289). A first crossing of the node in a measured transition
is its measurement and adapts the dead time, with EV_DTSAT above DT_MAX; a second one makes it a sense fault and the
measurement is taken back (R290, R291). -/
def Obligations.PulsesAndDeadTimes : Prop :=
  (∀ (x : Channel) (k : Nat), k < 6 → x.decisionDue k = true → x.bootstrapLimit k = none →
    let y := x.legCycle k
    let w := x.width k
    let pt : Int := x.periodUnits
    let m : Int := x.tmin
    let ext := x.lvB PWM_CTL_EXT
    let used : Int := if w < m then m else if pt - m < w then pt - m else w
    let rest : Int :=
      if w ≤ 0 then w else if pt ≤ w then w - pt
      else if w < m then (if ext then w - m else w)
      else if w ≤ pt - m then 0
      else if ext then w - (pt - m) else w - pt
    m ≤ pt - m →
      (y.leg k).decided = some x.now ∧
      ((y.leg k).kind = .none ↔ w ≤ 0 ∨ 0 < w ∧ w < m ∧ w < pt ∧ ext = false) ∧
      ((y.leg k).kind = .whole ↔ 0 < w ∧ (pt ≤ w ∨ m ≤ w ∧ pt - m < w ∧ ext = false)) ∧
      ((y.leg k).kind = .pulse → (y.leg k).ta = x.turnOn used ∧ (y.leg k).tb = (y.leg k).ta + used) ∧
      (x.lvB PWM_CTL_CARRYEN = true → x.legExcluded k = false →
        y.carry k = clampI (-(x.lvN PWM_CARRY_CMAX : Int)) (x.lvN PWM_CARRY_CMAX) rest) ∧
      (x.lvB PWM_CTL_CARRYEN = false → y.carry k = 0) ∧
      y.pwm.gate = x.pwm.gate ∧ y.live = x.live ∧ y.weir = x.weir ∧ ∀ j, j ≠ k → y.leg j = x.leg j) ∧
  (∀ (x : Channel) (k t : Nat) (second : Bool), (x.topo = 1 ∨ x.topo = 2) → k < 6 →
    let y := x.compareAt k second t
    let p := x.pair k 0
    let want := pairOf (0, 1) (x.applyOverrides k (if second then 2 else 1))
    let q := y.pair k 0
    p.out = p.on → p.on = p.want → p.held = 0 → p.freeAt = none →
      (if second then (y.leg k).firedOff else (y.leg k).firedOn) = some x.now ∧
      (p.on = want → q.on = want ∧ q.out = want) ∧
      (p.on ≠ want → p.on ≠ 3 → q.on = p.on &&& want ∧ q.out = p.on &&& want ∧ q.want = want ∧
        (want = 1 → p.on = 2 → q.due = some (t + x.deadTime k true)) ∧
        (want = 2 → p.on = 1 → q.due = some (t + x.deadTime k false))) ∧
      y.pwm.gate = x.pwm.gate ∧ y.live = x.live ∧ ∀ j, j ≠ k → y.leg j = x.leg j) ∧
  (∀ (x : Channel) (k i t : Nat),
    let y := x.pairDue k i t
    let p := x.pair k i
    let q := y.pair k i
    q.due = none ∧ q.on = p.want ∧ (p.held = 0 → p.freeAt = none → p.want ≠ 3 → q.out = p.want) ∧
      (y.leg k).deadEnd = some x.now ∧ y.pwm.gate = x.pwm.gate ∧ y.live = x.live ∧ ∀ j, j ≠ k → y.leg j = x.leg j) ∧
  (∀ (s : State) (c : Chan) (leg : BitVec 3) (v : Int) (tap : BitVec 5), s.up c → leg.toNat < 6 →
    let x := s.ch c
    let k := leg.toNat
    let l := x.leg k
    let t := x.now * 32 + tap.toNat
    let others (y : Channel) : Prop :=
      (y.leg k).vsw = v ∧ (y.leg k).cmd = l.cmd ∧ (y.leg k).out = l.out ∧ (y.leg k).pairs = l.pairs ∧
      y.pwm.gate = x.pwm.gate ∧ y.live = x.live ∧ y.pos = x.pos ∧ y.adc = x.adc ∧ y.cas = x.cas ∧ y.weir = x.weir ∧
      ∀ j, j ≠ k → y.leg j = x.leg j
    let crosses (m : Meas) : Prop :=
      x.pwm.frozen = false ∧ x.nodeHigh m.pair l.vsw ≠ x.nodeHigh m.pair v ∧ m.off < t
    (∀ m, l.meas = some m → m.was = none → crosses m →
      (∀ d, (x.pair k m.pair).due = some d → t < d) → ((x.pair k m.pair).due = none → m.ended = false) →
      let hist := ((t - m.off) :: (l.adapt m.rising).hist).take 4
      let sum := hist.sum / hist.length + x.dtGuard (x.rgN THM_STAT_BAND)
      ChAnswers (.nodeCrossing c leg ⟨v, tap⟩) s c (fun y =>
        ((y.leg k).adapt m.rising).hist = hist ∧ ((y.leg k).adapt m.rising).run = 0 ∧ (y.leg k).faults = 0 ∧
        (y.leg k).adapt (!m.rising) = l.adapt (!m.rising) ∧
        (x.lvB PWM_CTL_DTMODE = true → l.faulted = false → y.deadTime k m.rising = x.clampDt sum) ∧
        (x.lvN PWM_DTMAX_DT_MAX < sum → HasRoom x.dom 0x5F →
          Waits x.dom y.dom 0x5F (k + (if m.rising then 0 else 8))) ∧ others y)) ∧
    (∀ m a f, l.meas = some m → m.was = some (a, f) → crosses m →
      ChAnswers (.nodeCrossing c leg ⟨v, tap⟩) s c (fun y =>
        (y.leg k).meas = none ∧
        (f + 1 < atLeast1 (x.lvN PWM_DTCTL_FLTN) → (y.leg k).faults = f + 1 ∧
          (a.run + 1 < atLeast1 (x.lvN PWM_DTCTL_NOTR) → (y.leg k).adapt m.rising = { a with run := a.run + 1 })) ∧
        (atLeast1 (x.lvN PWM_DTCTL_FLTN) ≤ f + 1 →
          (y.leg k).faulted = true ∧ y.rgB PWM_STAT_VSWFLT = true ∧ y.rgB (PWM_STAT_DTDEFL.bit k) = true ∧
          y.deadTime k true = x.clampDt (x.lvN PWM_DTDEF_DTDEF) ∧ y.deadTime k false = x.clampDt (x.lvN PWM_DTDEF_DTDEF)) ∧
        others y)) ∧
    (l.meas = none → ChBecomes (.nodeCrossing c leg ⟨v, tap⟩) s c (x.setLeg k { l with vsw := v })))

/-- An enabled request that is not blanked sets the trip latch in the cycle in which it reaches PWM, with EV_TRIP: every leg
goes to state 0, the switch-on edges of that cycle are not produced, and the pattern applies from the next edge, with TPAT 0
every gate output low (R295 to R299). SWTRIP is such a request. A clear is decided at the end of its cycle, and granted only
while no enabled request is asserted (R300 to R302). -/
def Obligations.Trips : Prop :=
  (∀ (s : State) (c : Chan) (m : BitVec 3) (w : Word), s.up c →
    let x := s.ch c
    let sampled : Prop := 2 ≤ x.rgN SYS_BOOTSTAT_PHASE
    (sampled → ChBecomes (.tripInputAssert c m) s c (x.setB (GDI_TRIPIN_ACT.bit m.toNat) true)) ∧
    (sampled → ChBecomes (.tripInputRelease c m) s c (x.setB (GDI_TRIPIN_ACT.bit m.toNat) false)) ∧
    (∀ i ∈ Instr.swtrip c w :: (if bitOf w 0 then [.tripClear c w] else []), bitOf w 1 = true →
      (x.rgB PWM_TRIP_LATCH = false → HasRoom x.dom 0 → ChAnswers i s c (fun y =>
      y.rgB PWM_TRIP_LATCH = true ∧ y.rg PWM_TRIP_SRC = (16384 ||| x.actingRequests) &&& 0x7FFF ∧
        Waits x.dom y.dom 0x00 (16384 ||| x.actingRequests).toNat ∧ (∀ k, k < 6 → (y.leg k).out = 0) ∧
        y.rgN PWM_TRIP_PAT = x.patternInL ∧ y.pwm.gate = x.pwm.gate &&& ~~~x.pwm.rose ∧ y.live = x.live ∧
        y.pos = x.pos ∧ y.adc = x.adc)) ∧
      (x.rgB PWM_TRIP_LATCH = true → ChAnswers i s c (fun y => y.rgB PWM_TRIP_LATCH = true ∧
        y.rg PWM_TRIP_SRC = x.rg PWM_TRIP_SRC ||| 16384 ∧ y.pwm.clrReq = (x.pwm.clrReq || bitOf w 0) ∧
        y.pwm.gate = x.pwm.gate ∧ y.dom.evq = x.dom.evq ∧ y.live = x.live ∧ y.pos = x.pos ∧ y.adc = x.adc))) ∧
    (bitOf w 1 = false → ChBecomes (.swtrip c w) s c x) ∧
    (bitOf w 0 = true → bitOf w 1 = false → x.rgB PWM_TRIP_LATCH = true →
      ChBecomes (.tripClear c w) s c { x with pwm := { x.pwm with clrReq := true } }) ∧
    (bitOf w 0 = false ∨ bitOf w 1 = false ∧ x.rgB PWM_TRIP_LATCH = false → ChBecomes (.tripClear c w) s c x) ∧
    ChAnswers (.pwmErrcntClear c) s c (fun y => y.rgN PWM_ERRCNT_NOTR = 0 ∧ y.rgN PWM_ERRCNT_LSREF = 0 ∧
      y.rgN PWM_ERRCNT_SHOOT = 0 ∧ y.rgN PWM_ERRCNT_PDROP = 0 ∧ y.pwm = x.pwm)) ∧
  (∀ (x : Channel),
    let y := x.tripEdge
    let quiet (y : Channel) : Prop := y.live = x.live ∧ y.pos = x.pos ∧ y.adc = x.adc ∧ y.cas = x.cas ∧ y.weir = x.weir
    (x.pwm.tripNext = 0 → x.actingRequests ≠ 0 → x.rgB PWM_TRIP_LATCH = false →
      y.rgB PWM_TRIP_LATCH = true ∧ y.rg PWM_TRIP_SRC = x.actingRequests &&& 0x7FFF ∧ y.rgN PWM_TRIP_PAT = x.patternInL ∧
      (HasRoom x.dom 0 → Waits x.dom y.dom 0x00 x.actingRequests.toNat) ∧ (∀ k, k < 6 → (y.leg k).out = 0) ∧
      y.pwm.gate = x.pwm.gate &&& ~~~x.pwm.rose ∧ quiet y) ∧
    (x.pwm.tripNext = 0 → x.actingRequests ≠ 0 → x.rgB PWM_TRIP_LATCH = true →
      y.rgB PWM_TRIP_LATCH = true ∧ y.rg PWM_TRIP_SRC = x.rg PWM_TRIP_SRC ||| (x.actingRequests &&& 0x7FFF) ∧
      y.pwm.gate = x.pwm.gate ∧ y.dom.evq = x.dom.evq ∧ quiet y) ∧
    (x.pwm.tripNext = 0 → x.actingRequests = 0 → y = { x with pwm := { x.pwm with tripNow := 0 } }) ∧
    (∀ m, m < 8 → x.actingRequests.getLsbD m =
      (x.rgB (GDI_TRIPIN_ACT.bit m) && bitOf (x.lv PWM_TRIPEN_EN) m && !x.blanked m)) ∧
    (∀ m, m < 8 → (x.blanked m = true ↔ x.lvN (PWM_TBLK_LEG m) < 6 ∧ x.lvN (PWM_TBLK_BLK m) ≠ 0 ∧
      ∃ e, (x.leg (x.lvN (PWM_TBLK_LEG m))).lastEdge = some e ∧ x.now < e + x.lvN (PWM_TBLK_BLK m))) ∧
    (x.patternNow = some 0 → x.gateEdge.pwm.gate = 0) ∧
    (∀ (p : Nat) (b z : Nat), x.patternNow = some p → b < 18 → x.booted = true → x.elementA = false →
      x.rgB (GDI_GFLATCH_LATCH.bit b) = false → bitOf (x.lv PWM_OEN_OEN) b = true →
      x.pwm.ovrs &&& 0xFFFF = 0 → (p = 1 ∨ p = 2) → (x.groupSwitches (p == 2)).getLsbD b = true → partner x.topo b = some z →
      x.pwm.sw.getLsbD z = false → sget 0 x.pwm.swAt z + x.lvN PWM_DTMIN_DT_MIN ≤ x.lastTick →
      x.stage7.getLsbD b = true)) ∧
  (∀ (x : Channel), x.pwm.clrReq = true →
    let y := x.endTrip
    (x.enabledRequests = 0 → y.rgB PWM_TRIP_LATCH = false ∧ y.rgN PWM_TRIP_SRC = 0 ∧ y.pwm.hold = true ∧
      y.pwm.gate = x.pwm.gate ∧ y.rgN PWM_TRIP_PAT = x.rgN PWM_TRIP_PAT ∧ y.pwm.tripNext = x.pwm.tripNow) ∧
    (x.enabledRequests ≠ 0 → y.rgB PWM_TRIP_LATCH = x.rgB PWM_TRIP_LATCH ∧ y.rgB PWM_TRIP_STILL = true ∧
      (HasRoom x.dom 0x60 → Waits x.dom y.dom 0x60 x.enabledRequests.toNat) ∧
      y.pwm = { x.pwm with clrReq := false }))

/-! ## Gate interface and power-stage protection (R364 to R383) -/

/-- Three-pin mode follows filtered GSEL and TPEN at the clock edge, with EV_TPM; an accepted code is applied at once or
after the dwell; an active report of a monitored switch latches its fault, and its ball is low from the next edge (R62, R365,
R366, R369). A voltage on Cn_VDC moves the comparators that do not settle, and with stage 1 the chopper; stage 2 becomes a
request after OV2FLT + 1 cycles, and a brake interval ends by itself (R372, R375). Active discharge follows its commands, its
feedback, its comparator and its time limits (R377, R378). A leg enters and leaves the charge state at a boundary (R381). -/
def Obligations.GateFaultsBrakeAndDischarge : Prop :=
  (∀ (s : State) (c : Chan) (code : BitVec 3) (b : BitVec 5) (leg : BitVec 3) (active : Bool) (w : Word), s.up c →
     let x := s.ch c
     let sampled : Prop := 2 ≤ x.rgN SYS_BOOTSTAT_PHASE
     let k := b.toNat
     let up := 2 * leg.toNat
     let elsewhere (y : Channel) : Prop :=
       y.pwm = x.pwm ∧ y.adc = x.adc ∧ y.pos = x.pos ∧ y.cas = x.cas ∧ y.weir = x.weir ∧ y.live = x.live ∧
         y.dom.mem = x.dom.mem
     let applied (y : Channel) : Prop :=
       y.rgN GDI_STAT_GIN = code.toNat ∧ y.gdi.ginAt = x.now ∧ y.gdi.ginWait = none ∧ y.gdi.tpDo = !x.gdi.tpWait
     let phase (n : Nat) : Prop := x.rgN GDI_STAT_DPHASE = n
     let limit := x.gdi.dStart + 400 * x.lvN GDI_DSCH_DFBT
     (sampled →
       ChBecomes (.threePinModeEntry c) s c (x.setB GDI_STAT_GSELREQ true) ∧
       ChBecomes (.threePinModeExit c) s c (x.setB GDI_STAT_GSELREQ false) ∧
       (x.rgB GDI_STAT_TPM = false →
         ChBecomes (.ginCodeAccept c code) s c { x with gdi := { x.gdi with ginAcc := some code } }) ∧
       (x.rgB GDI_STAT_TPM = true → x.rgN GDI_STAT_GIN = code.toNat →
         ChBecomes (.ginCodeAccept c code) s c { x with gdi := { x.gdi with ginAcc := some code, ginWait := none } }) ∧
       (x.rgB GDI_STAT_TPM = true → x.rgN GDI_STAT_GIN ≠ code.toNat →
         (x.gdi.ginAt + x.lvN GDI_GINCFG_TPMIN ≤ x.now →
           ChAnswers (.ginCodeAccept c code) s c (fun y => applied y ∧ elsewhere y)) ∧
         (x.now < x.gdi.ginAt + x.lvN GDI_GINCFG_TPMIN → ChBecomes (.ginCodeAccept c code) s c
           { x with gdi := { x.gdi with ginAcc := some code, ginWait := some code } })) ∧
       (k < 18 → x.isBootReport k = false → ChAnswers (.gateFaultLatch c b) s c (fun y =>
         y.rgB (GDI_GFIN_ACT.bit k) = true ∧
         y.rgB (GDI_GFLATCH_LATCH.bit k) = (x.rgB (GDI_GFLATCH_LATCH.bit k) || x.lvB (GDI_GFEN_GFEN.bit k)) ∧
         (x.rgB (GDI_GFLATCH_LATCH.bit k) = false → x.lvB (GDI_GFEN_GFEN.bit k) = true →
           y.rgB (GDI_GFSTKY_STKY.bit k) = true ∧ (HasRoom x.dom 1 → Waits x.dom y.dom 1 k)) ∧ elsewhere y)) ∧
       (k < 18 → x.isBootReport k = false → ChAnswers (.gateFaultReportRelease c b) s c (fun y =>
         y.rgB (GDI_GFIN_ACT.bit k) = false ∧ y.rgB (GDI_GFLATCH_LATCH.bit k) = x.rgB (GDI_GFLATCH_LATCH.bit k) ∧
         elsewhere y)) ∧
       (18 ≤ k ∨ x.isBootReport k = true → ∀ i ∈ [Instr.gateFaultLatch c b, .gateFaultReportRelease c b],
         ChBecomes i s c x) ∧
       (x.isBootReport up = true → ChAnswers (.bootstrapReportChange c leg active) s c (fun y =>
         y.rgB (GDI_GFIN_ACT.bit up) = active ∧ (∀ j, j < 18 → y.rgB (GDI_GFLATCH_LATCH.bit j) = x.rgB (GDI_GFLATCH_LATCH.bit j)) ∧
         (let q := sget Boot.reset x.gdi.boot leg.toNat
          let r := sget Boot.reset y.gdi.boot leg.toNat
          r.allAct = (q.allAct && active) ∧ r.noneAct = (q.noneAct && !active)) ∧ elsewhere y)) ∧
       (x.isBootReport up = false → ChBecomes (.bootstrapReportChange c leg active) s c x) ∧
       (phase 0 → ChBecomes (.dischargeFeedback c active) s c { x with gdi := { x.gdi with dfb := active, dfbRun := 0 } }) ∧
       (phase 1 → x.now < limit → ChAnswers (.dischargeFeedback c true) s c (fun y =>
         y.rgN GDI_STAT_DPHASE = 2 ∧ y.gdi.dSeen = true ∧ y.gdi.dfb = true ∧ elsewhere y)) ∧
       (¬phase 0 → (phase 1 → limit ≤ x.now) → ChAnswers (.dischargeFeedback c true) s c (fun y =>
         y.rgN GDI_STAT_DPHASE = x.rgN GDI_STAT_DPHASE ∧ y.gdi.dSeen = true ∧ y.gdi.dfb = true ∧ elsewhere y)) ∧
       (¬phase 0 → x.gdi.dSeen = true → HasRoom x.dom 0x0A → ChAnswers (.dischargeFeedback c false) s c (fun y =>
         y.rgB GDI_STAT_DFBF = true ∧ Waits x.dom y.dom 0x0A 1 ∧ y.rgN GDI_STAT_DPHASE = x.rgN GDI_STAT_DPHASE ∧
           y.gdi.dfb = false ∧ elsewhere y)) ∧
       (¬phase 0 → x.gdi.dSeen = false → ChBecomes (.dischargeFeedback c false) s c
         { x with gdi := { x.gdi with dfb := false, dfbRun := 0 } })) ∧
     (bitOf w 1 = true → bitOf w 2 = false →
       (phase 0 → x.dischargeRefused = true → HasRoom x.dom 0x0A → ChAnswers (.dstart c w) s c (fun y =>
         y.rgB GDI_STAT_DSREF = true ∧ y.rgN GDI_STAT_DPHASE = 0 ∧ Waits x.dom y.dom 0x0A 3 ∧ y.gdi = x.gdi ∧
           elsewhere y)) ∧
       (phase 0 → x.dischargeRefused = false → ChAnswers (.dstart c w) s c (fun y =>
         y.rgN GDI_STAT_DPHASE = 1 ∧ y.dschBall = true ∧ y.gdi.dStart = x.now ∧ y.gdi.dRef = x.now ∧ elsewhere y)) ∧
       (¬phase 0 → ChBecomes (.dstart c w) s c x)) ∧
     (bitOf w 1 = false → ChBecomes (.dstart c w) s c x) ∧
     (bitOf w 1 = false → bitOf w 2 = true → ChBecomes (.dstop c w) s c (x.setN GDI_STAT_DPHASE 0)) ∧
     (bitOf w 2 = false → ChBecomes (.dstop c w) s c x) ∧
     (bitOf w 1 = true → bitOf w 2 = true → ∀ i ∈ [Instr.dstart c w, .dstop c w], ChAnswers i s c (fun y =>
       y.rgN GDI_STAT_DPHASE = 0 ∧ y.dschBall = false ∧ elsewhere y)) ∧
     ChAnswers (.gdiErrcntClear c) s c (fun y => y.rgN GDI_ERRCNT_OV1 = 0 ∧ y.rgN GDI_ERRCNT_BSCHG = 0 ∧
       y.rgN GDI_ERRCNT_GINERR = 0 ∧ y.rgN GDI_ERRCNT_GF = 0 ∧ y.gdi = x.gdi ∧ elsewhere y)) ∧
  (∀ (s : State) (c : Chan) (v : Int), s.up c →
     let x := s.ch c
     let now (k : Nat) : Bool := if x.settling k then x.adc.cmpOut.getLsbD k else (x.setVolts 24 v).vdcSense k
     ∀ i ∈ [Instr.brakeStage1On ⟨c, v⟩, .brakeStage1Off ⟨c, v⟩, .overvoltageStage2Release ⟨c, v⟩], ChAnswers i s c (fun y =>
       (∀ k ∈ [4, 5, 6], y.adc.cmpOut.getLsbD k = now k) ∧ sget 0 y.adc.ain 24 = v ∧
       (now 4 = x.adc.cmpOut.getLsbD 4 → y.rgB GDI_STAT_OV1 = x.rgB GDI_STAT_OV1 ∧ y.rgB GDI_STAT_BRK = x.rgB GDI_STAT_BRK) ∧
       (now 4 = true → x.adc.cmpOut.getLsbD 4 = false →
         y.rgB GDI_STAT_OV1 = true ∧ y.rgB GDI_STAT_BRK = (x.rgB GDI_STAT_BRK || x.lvB GDI_CTL_BRKEN) ∧
         (HasRoom x.dom 3 → Waits x.dom y.dom 3 0)) ∧
       (now 4 = false → x.adc.cmpOut.getLsbD 4 = true →
         y.rgB GDI_STAT_OV1 = false ∧
         y.rgB GDI_STAT_BRK = (x.rgB GDI_STAT_BRK && decide (x.now < x.gdi.brkStart + x.lvN GDI_BRKMIN_BRKMIN)) ∧
         (HasRoom x.dom 4 → Waits x.dom y.dom 4 0)) ∧
       (now 5 ≠ x.adc.cmpOut.getLsbD 5 → y.rgB GDI_STAT_OV2 = now 5 ∧ y.gdi.ov2Req = false ∧ y.gdi.ov2Run = 0) ∧
       (now 5 = x.adc.cmpOut.getLsbD 5 → y.gdi.ov2Req = x.gdi.ov2Req) ∧
       y.pwm = x.pwm ∧ y.pos = x.pos ∧ y.cas = x.cas ∧ y.weir = x.weir ∧ y.live = x.live ∧ y.dom.mem = x.dom.mem)) ∧
  (∀ (x : Channel),
     let phase (n : Nat) : Prop := x.rgN GDI_STAT_DPHASE = n
     let limit := x.gdi.dStart + 400 * x.lvN GDI_DSCH_DFBT
     let held : Bool := x.lvB GDI_CTL_VDCEN && decide (16 ≤ x.gdi.dvRun)
     let far (y : Channel) : Prop := y.pwm = x.pwm ∧ y.adc = x.adc ∧ y.pos = x.pos ∧ y.weir = x.weir ∧ y.live = x.live
     (x.tpEdge.rgB GDI_STAT_TPM = (x.lvB GDI_CTL_TPEN && x.rgB GDI_STAT_GSELREQ)) ∧
     (let y := x.tpEnter
      y.rgB GDI_STAT_TPM = true ∧ (HasRoom x.dom 6 → Waits x.dom y.dom 6 1) ∧
      (∀ k i, k < 6 → i < 3 → (y.pair k i).due = none ∧ (y.pair k i).on = (x.pair k i).on) ∧ y.pwm.gate = x.pwm.gate) ∧
     (let y := x.tpExit
      y.rgB GDI_STAT_TPM = false ∧ y.pwm.resume = true ∧ y.gdi.ginWait = none ∧ (HasRoom x.dom 6 → Waits x.dom y.dom 6 0) ∧
      y.pwm.gate = x.pwm.gate) ∧
     (∀ code : BitVec 3, x.gdi.ginWait = some code → x.rgB GDI_STAT_TPM = true → x.gdi.ginAt + x.lvN GDI_GINCFG_TPMIN ≤ x.now →
       x.ginDwell.rgN GDI_STAT_GIN = code.toNat ∧ x.ginDwell.gdi.ginAt = x.now ∧ x.ginDwell.gdi.ginWait = none ∧ far x.ginDwell) ∧
     (∀ b, b < 18 → x.rgB (GDI_GFLATCH_LATCH.bit b) = true → x.stage7.getLsbD b = false) ∧
     (x.adc.cmpOut.getLsbD 5 = true → x.gdi.ov2Req = false → x.lvN GDI_OVTH_OV2FLT + 1 ≤ x.gdi.ov2Run →
       x.ov2Edge.gdi.ov2Req = true ∧ x.ov2Edge.requests.testBit 12 = true ∧
         (HasRoom x.dom 5 → Waits x.dom x.ov2Edge.dom 5 0) ∧ far x.ov2Edge) ∧
     (∀ n, x.brkLength = some n → x.gdi.brkStart + n ≤ x.now → x.brakeEdge =
       { x.setB GDI_STAT_BRK (!x.rgB GDI_STAT_BRK) with gdi := { x.gdi with brkStart := x.now } }) ∧
     (let y := x.feedbackEdge
      (phase 1 → x.gdi.dfb = true → x.now ≤ limit → y.rgN GDI_STAT_DPHASE = 2 ∧ y.gdi.dSeen = true ∧
        y.rgB GDI_STAT_DFBF = x.rgB GDI_STAT_DFBF ∧ far y) ∧
      (phase 1 → limit ≤ x.now → ¬(x.gdi.dfb = true ∧ x.now ≤ limit) → y.rgN GDI_STAT_DPHASE = 2 ∧
        y.rgB GDI_STAT_DFBF = true ∧ (HasRoom x.dom 0x0A → Waits x.dom y.dom 0x0A 1) ∧ far y)) ∧
     (let y := x.voltageEdge
      (phase 2 → held = true → x.adc.cmpOut.getLsbD 6 = true →
        y.rgN GDI_STAT_DPHASE = 3 ∧ y.rgN GDI_DSCHTIME_T = satN 0xFFFFFF ((x.now - x.gdi.dStart) / 400) ∧
        y.gdi.dReached = true ∧
        (HasRoom x.dom 9 → Waits x.dom y.dom 9 (satN 0xFFFF ((x.now - x.gdi.dStart) / 40000))) ∧ far y) ∧
      (phase 3 → held = true → x.adc.cmpOut.getLsbD 6 = false →
        y.rgN GDI_STAT_DPHASE = 2 ∧ y.gdi.dRef = x.now ∧ y.gdi.dLate = false ∧ far y) ∧
      (phase 2 → x.adc.cmpOut.getLsbD 6 = false → x.gdi.dLate = false →
        x.gdi.dRef + 40000 * x.lvN GDI_DSCH_DSCHT ≤ x.now → y.rgB GDI_STAT_DTMOF = true ∧ y.rgN GDI_STAT_DPHASE = 2 ∧
        y.gdi.dLate = true ∧ (HasRoom x.dom 0x0A → Waits x.dom y.dom 0x0A 2) ∧ far y)) ∧
     (let y := x.maxEdge
      ¬phase 0 → x.gdi.dStart + 40000 * x.lvN GDI_DSCHMAX_DSCHMAX ≤ x.now → y.rgN GDI_STAT_DPHASE = 0 ∧
        (x.gdi.dReached = false → HasRoom x.dom 0x0A → Waits x.dom y.dom 0x0A 5) ∧ far y) ∧
     (phase 0 → x.gdi.dfb = true → x.gdi.dfbRun = 15 → x.idleEdge.rgB GDI_STAT_DFBF = true ∧
       (HasRoom x.dom 0x0A → Waits x.dom x.idleEdge.dom 0x0A 4) ∧ far x.idleEdge) ∧
     (∀ k, k < 6 →
       let q := sget Boot.reset x.gdi.boot k
       let y := x.boundaryBoot k
       (x.isBootReport (2 * k) = true → x.rgB (GDI_STAT_BSCHG.bit k) = false → q.allAct = true →
         atLeast1 (x.lvN GDI_BSUV_BSUVN) ≤ q.uv + 1 →
         y.rgB (GDI_STAT_BSCHG.bit k) = true ∧ (HasRoom x.dom 8 → Waits x.dom y.dom 8 k)) ∧
       (x.rgB (GDI_STAT_BSCHG.bit k) = true → q.allAct = false → q.noneAct = true ∨ x.isBootReport (2 * k) = false →
         y.rgB (GDI_STAT_BSCHG.bit k) = false) ∧ far y))

/-! ## The motor supervisor (R337 to R363) -/

/-- A write of CAS_MSCMD is held for the next carrier boundary, or for the one after when it falls in a boundary cycle, and
discarded while EN = 0, whichever command it carries; CAS_MSCNT clears whole (R337, R345, R363). What the supervisor does at
the end of a boundary cycle: the watchdog and the end of COAST take it to SAFE with a trip, CATCH ends in RUN, a rotor
that has not commutated for LRWIN is locked, and an elapsed link hold ends (R344, R349, R354, R355). -/
def Obligations.DriveSupervisor : Prop :=
  (∀ (s : State) (c : Chan) (w : Word), s.up c →
     let x := s.ch c
     let u := x.cas.sup
     let held : Channel :=
       if x.lvB CAS_MSCTL_EN = false then x
       else if u.due.isSome then { x with cas := { x.cas with sup := { u with late := u.late ||| (w &&& 0x3E) } } }
       else { x with cas := { x.cas with sup := { u with held := u.held ||| (w &&& 0x3E) } } }
     (∀ p ∈ [(Instr.runreq c w, 1), (.stopreq c w, 2), (.llack c w, 3), (.reqfwd c w, 4), (.reqrev c w, 5)],
       (bitOf w p.2 = true → ChBecomes p.1 s c held) ∧ (bitOf w p.2 = false → ChBecomes p.1 s c x)) ∧
     ChAnswers (.mscntClear c) s c (fun y => y.rgN CAS_MSCNT_TRIPS = 0 ∧ y.rgN CAS_MSCNT_COASTS = 0 ∧
       y.rgN CAS_MSCNT_REVREF = 0 ∧ y.rgN CAS_MSCNT_LOCKED = 0 ∧ y.cas = x.cas ∧ y.live = x.live ∧ y.pwm = x.pwm)) ∧
  (∀ (x : Channel) (pb : Nat), x.lvB CAS_MSCTL_EN = true →
     let u := x.cas.sup
     let y := x.supervise pb
     let calm : Prop := x.rgB PWM_TRIP_LATCH = false ∧ x.rgB SAFE_STAT_STODEM = false
     let safe (cause : Nat) : Prop :=
       y.rgN CAS_MSSTAT_STATE = 4 ∧ y.rgN CAS_MSSTAT_CAUSE = cause ∧ y.rgB CAS_MSSTAT_TRIPD = true ∧
         y.rg CAS_MSTOUT_TOUT = 0 ∧ y.rg CAS_MSIOUT_IOUT = 0 ∧ y.cas.sup.tripReq = true
     let next := satN 255 (x.rgN CAS_MSSTAT_CNT + 1)
     (y.cas.sup.held = u.late ∧ y.cas.sup.late = 0 ∧ y.cas.sup.due = none ∧ y.pwm = x.pwm ∧ y.live = x.live ∧
       y.pos = x.pos ∧ y.adc = x.adc ∧ y.weir = x.weir) ∧
     (x.msState ≠ 4 → x.rgB PWM_TRIP_LATCH = true →
       y.rgN CAS_MSSTAT_STATE = 4 ∧ y.rgN CAS_MSSTAT_CAUSE = 8 ∧ y.cas.sup.tripReq = u.tripReq) ∧
     (x.msState ≠ 4 → calm → x.cascadeSilent = true → safe 7) ∧
     (x.msState = 3 → calm → x.cascadeSilent = false → x.rgB WEIR_STAT_STALE = false →
       (x.avalid x.srcUse = false ∨ u.latchSince = false) → atLeast1 (x.lvN CAS_MSCTL_NCOAST) ≤ next → safe 2) ∧
     (x.msState = 1 → calm → x.cascadeSilent = false → x.rgB WEIR_STAT_STALE = false → x.avalid x.srcUse = true →
       (u.xchk = true → x.lvN CAS_MSCTL_XACT ≠ 1) → x.lvN CAS_MSCTL_NCATCH ≤ next →
       x.rgB CAS_MSSTAT_STOPPING = false → y.rgN CAS_MSSTAT_STATE = 2) ∧
     (x.msState = 2 → u.comm = false → x.linkLost = false → x.rgN CAS_MSSTAT_LLPH = 0 →
       x.rgB CAS_MSSTAT_LOCKED = false → x.lvN CAS_MSLRWIN_LRWIN ≠ 0 →
       (numOf (x.lv CAS_MSLRTQ_LRTQ)).lt (numOf x.torqueTarget).abs = true →
       x.lvN CAS_MSLRWIN_LRWIN * 1000 ≤ u.lrTimer + pb → x.rgN CAS_MSCNT_LOCKED < 255 →
       y.rgB CAS_MSSTAT_LRDET = true ∧ y.rgN CAS_MSCNT_LOCKED = x.rgN CAS_MSCNT_LOCKED + 1) ∧
     (x.rgN CAS_MSSTAT_LLPH = 1 → x.lvN CAS_MSLLHOLD_LLHOLD * 1000 ≤ u.holdTime + pb → bitOf u.held 3 = false →
       2 ≤ y.rgN CAS_MSSTAT_LLPH))

/-! ## Cascade (R307 to R336) -/

/-- Reduction (R309): every mantissa and exponent of a result is in its format; values that fit at the requested
exponent keep it and are rounded, halves up, with no flag; a result is block-shifted by no more than it needs. -/
def Obligations.ReductionOfResults : Prop :=
  ∀ (er : Int) (xs : List Dy), -256 ≤ er → er ≤ 300 →
    let x := reduce er xs
    (-128 ≤ x.v.exp ∧ x.v.exp ≤ 127 ∧ x.v.m.length = xs.length ∧ ∀ m ∈ x.v.m, -8388608 ≤ m ∧ m ≤ 8388607) ∧
    (-128 ≤ er → er ≤ 127 → (∀ y ∈ xs, y.fits er = true) → x.v.exp = er ∧ x.ovf = false ∧ x.shift = false) ∧
    (-128 ≤ er → er < x.v.exp → ∃ y ∈ xs, y.fits (x.v.exp - 1) = false) ∧
    (x.ovf = true → x.sat = true ∧ x.v.exp = 127) ∧
    (∀ (m : Int) (e : Int), (dyOf m e).round = (if e ≥ 23 then m * 2 ^ (e - 23).toNat
      else Int.fdiv (2 * m + 2 ^ (23 - e).toNat) (2 * 2 ^ (23 - e).toNat)))

/-- The arithmetic instructions deliver the exact lane values, reduced at the exponent the table gives, and merge their
flags into the run; no other register changes (R309, R325, R326). An exponent operand above 255 aborts the run (R319). -/
def Obligations.VectorArithmetic : Prop :=
  ∀ (s : State) (c : Chan) (r : Run) (vd va vb : VReg) (ac : BitVec 2) (im : BitVec 14),
    let x := s.ch c
    let k : CAt := ⟨c, .good⟩
    let a := x.vr va
    let b := x.vr vb
    let m := maxI a.exp b.exp
    let A (i : Nat) : Dy := (a.val i).alignTo m
    let B (i : Nat) : Dy := (b.val i).alignTo m
    let quad (f : Nat → Nat → Dy) : List Dy := lanes.map (fun i => f (i / 4) (i % 4))
    let pe := maxI (a.exp + b.exp) a.exp
    let prod (i j : Nat) : Dy := dyOf (Dy.mk (a.lane i * b.lane j) (-23)).round (a.exp + b.exp)
    let pk (f : Nat → Nat → Dy) : List Dy := quad fun q j => (f q j).alignTo pe
    ∀ p ∈ ([
        (.vadd k vd va vb, 1, reduce m (lanes.map fun i => (A i).add (B i))),
        (.vsub k vd va vb, 1, reduce m (lanes.map fun i => (A i).sub (B i))),
        (.vmin k vd va vb, 1, reduce m (lanes.map fun i => if (A i).le (B i) then A i else B i)),
        (.vmax k vd va vb, 1, reduce m (lanes.map fun i => if (A i).le (B i) then B i else A i)),
        (.vmul k vd va vb, 1, reduce (a.exp + b.exp) (lanes.map fun i => (a.val i).mul (b.val i))),
        (.vneg k vd va, 1, reduce a.exp (lanes.map fun i => (a.val i).neg)),
        (.vabs k vd va, 1, reduce a.exp (lanes.map fun i => ⟨(a.val i).n.natAbs, (a.val i).e⟩)),
        (.accr k vd ac, 2, reduce (x.acc ac).exp (lanes.map fun i => ⟨(x.acc ac).lane i, (x.acc ac).exp - 46⟩)),
        (.clarke k vd va, 2, reduce a.exp (quad fun q j =>
          let u := a.val (4 * q)
          let w := a.val (4 * q + 1)
          let z := a.val (4 * q + 2)
          match j with
          | 0 => (((u.scale 1).sub w).sub z).mul third
          | 1 => (w.sub z).mul invSqrt3
          | 2 => ((u.add w).add z).mul third
          | _ => a.val (4 * q + 3))),
        (.iclarke k vd va, 2, reduce a.exp (quad fun q j =>
          let al := a.val (4 * q)
          let be := (a.val (4 * q + 1)).mul halfSqrt3
          let z := a.val (4 * q + 2)
          match j with
          | 0 => al.add z
          | 1 => (be.sub (al.scale (-1))).add z
          | 2 => ((al.scale (-1)).neg.sub be).add z
          | _ => a.val (4 * q + 3))),
        (.park k vd va vb, 2, reduce pe (pk fun q j =>
          match j with
          | 0 => (prod (4 * q) (4 * q + 1)).add (prod (4 * q + 1) (4 * q))
          | 1 => (prod (4 * q + 1) (4 * q + 1)).sub (prod (4 * q) (4 * q))
          | _ => a.val (4 * q + j))),
        (.ipark k vd va vb, 2, reduce pe (pk fun q j =>
          match j with
          | 0 => (prod (4 * q) (4 * q + 1)).sub (prod (4 * q + 1) (4 * q))
          | 1 => (prod (4 * q) (4 * q)).add (prod (4 * q + 1) (4 * q + 1))
          | _ => a.val (4 * q + j)))] : List (Instr × Nat × Res)),
      CasReady s c r p.2.1 → CasGoes p.1 s c (x.setVr vd p.2.2.v) (r.begun.took p.2.2) p.2.1 ∧
    (im.toNat < 256 → CasReady s c r 1 → CasGoes (.normx k vd va im) s c (x.setVr vd (normTo a (sgn 8 im.toNat)).v)
      (r.begun.took (normTo a (sgn 8 im.toNat))) 1) ∧
    (let sum (i : Nat) : Int := (x.acc ac).lane i +
        (Dy.mk (a.lane i * b.lane i) (a.exp + b.exp - (x.acc ac).exp)).round
      let lim : Int := 2 ^ 47 - 1
      CasReady s c r 1 → CasGoes (.vmac k ac va vb) s c
        (x.setAcc ac { exp := (x.acc ac).exp, m := lanes.map (fun i => clampI (-lim) lim (sum i)) })
        (r.begun.saturated (lanes.any fun i => decide (sum i < -lim) || decide (lim < sum i))) 1) ∧
    (im.toNat < 256 → CasReady s c r 1 → CasGoes (.aclr k ac im) s c
      (x.setAcc ac { exp := sgn 8 im.toNat, m := lanes.map (fun _ => 0) }) r.begun 1) ∧
    (256 ≤ im.toNat → s.up c → x.issuing = some r → ∀ i ∈ [Instr.normx k vd va im, .aclr k ac im], Aborts i s c 1)

/-- Moves, loads and stores of Cascade: the destination register takes the words, lanes or number named, VST stores the
sixteen lanes as words of the number format and changes no other byte; TST, BR, SIG and NOP change the run alone (R310,
R311, R313, R322 to R325). An operand out of range, a word that does not decode, and an uncorrectable error abort the run,
and an instruction that RUNMAX cuts off has no effect (R319; the cut-off is log 78). -/
def Obligations.VectorMovesAndFlow : Prop :=
  ∀ (s : State) (c : Chan) (r : Run) (vd va vb : VReg) (im : BitVec 14) (cond : BitVec 4),
    let x := s.ch c
    let ready (cycles : Nat) : Prop := CasReady s c r cycles
    let issues : Prop := s.up c ∧ x.issuing = some r
    let k : CAt := ⟨c, .good⟩
    let a := x.vr va
    let word (i : Nat) : Word := x.dataWord r (im.toNat + i)
    let gets (i : Instr) (cycles : Nat) (v : Vec) : Prop := ready cycles → CasGoes i s c (x.setVr vd v) r.begun cycles
    let all (w : Word) : Vec := { exp := wordE w, m := lanes.map (fun _ => wordM w) }
    gets (.mov k vd va) 1 a ∧
    gets (.vlds k vd im) 2 (all (word 0)) ∧
    gets (.vaddw k vd va vb) 1 { exp := a.exp, m := lanes.map (fun i =>
      sgn 24 (Int.emod (a.lane i + (x.vr vb).lane i) 16777216).toNat) } ∧
    (im.toNat < 16 → gets (.splat k vd va im) 1 { exp := a.exp, m := lanes.map (fun _ => a.lane im.toNat) }) ∧
    (im.toNat < 256 → gets (.sete k vd im) 1 { x.vr vd with exp := sgn 8 im.toNat }) ∧
    (im.toNat < 5 → gets (.ldref k vd im) 2 (all (x.refUse im.toNat))) ∧
    (im = 0 → gets (.lda k vd im) 2 { exp := 0, m := lanes.map (fun _ => angleM x.weir.theta) }) ∧
    (im = 1 → gets (.lda k vd im) 2 { exp := 0, m := lanes.map (fun _ => angleM (x.angleTo r.sst)) }) ∧
    (im = 2 → gets (.lda k vd im) 2 { exp := 16, m := lanes.map (fun _ => Dy.round ⟨x.weir.omega, -9⟩) }) ∧
    (im = 3 → gets (.lda k vd im) 2 { exp := 0, m := lanes.map (fun _ => angleM x.weir.phi) }) ∧
    (im.toNat ≤ 16368 →
      (ready 2 → CasGoes (.vld k vd im) s c (x.setVr vd (gather (lanes.map word)).v) (r.begun.took (gather (lanes.map word))) 2) ∧
      gets (.perm k vd va im) 2 { exp := a.exp, m := lanes.map (fun i => a.lane ((word i).toNat % 16)) } ∧
      (ready 1 → ChAnswers (.vst k va im) s c (fun y =>
        (∀ i, i < 16 → y.dataWord r (im.toNat + i) = wordOf (a.lane i) a.exp) ∧
        (∀ q, (∀ i b, i < 16 → b < 4 → q ≠ casAddr r.bank (im.toNat + i) + b) →
          memByte y.dom.mem q = memByte x.dom.mem q) ∧
        y.cas = { x.cas with run := some { r.begun with pc := r.pc + 1, len := r.len + 1 }, past := none } ∧
        y.pwm = x.pwm))) ∧
    (issues → 16368 < im.toNat → ∀ i ∈ [Instr.vld k vd im, .perm k vd va im, .vst k va im], Aborts i s c 2) ∧
    (issues → 16 ≤ im.toNat → ∀ i ∈ [Instr.splat k vd va im, .ldr k vd im, .tst k va im], Aborts i s c 1) ∧
    (issues → 256 ≤ im.toNat → Aborts (.sete k vd im) s c 1) ∧
    (issues → 5 ≤ im.toNat → ∀ i ∈ [Instr.ldref k vd im, .lda k vd im], Aborts i s c 1) ∧
    (issues → im = 4 → Aborts (.lda k vd im) s c 1) ∧
    (issues → x.casCond r.begun cond.toNat = none → Aborts (.casBr k cond im) s c 1) ∧
    (issues → Aborts (.nop ⟨c, .illegal⟩) s c 1 ∧ Aborts (.nop ⟨c, .fetchEcc⟩) s c 3) ∧
    (issues → im.toNat ≤ 16368 → Aborts (.vld ⟨c, .dataEcc⟩ vd im) s c 4) ∧
    (issues → r.outlasts (r.len + 1) = true → ∀ i ∈ [Instr.nop k, .mov k vd va], ChBecomes i s c
      { x with cas := { x.cas with run := some { r with len := r.len + 1 }, past := none } }) ∧
    (im.toNat < 16 → ready 4 → ChAnswers (.ldr k vd im) s c (fun y =>
      (y.vr vd).exp = 0 ∧
      (∀ i, i < 16 → let j := (if im.getLsbD 3 then 16 else 0) + i
        (y.vr vd).lane i = if 24 ≤ j then 0
          else sgn 16 ((sget 0 x.adc.results (32 * (im.toNat % 8) + j)).toNat % 65536) * 256) ∧
      (∃ r', y.cas.run = some r' ∧ r'.pc = r.pc + 1 ∧ r'.len = r.len + 4 ∧
        (r.tag = true → r'.tag = true) ∧ (r.clip = true → r'.clip = true)) ∧ y.pwm = x.pwm)) ∧
    (im.toNat < 16 → ready 1 → CasGoes (.tst k va im) s c x { r.begun with t := decide (0 < a.lane im.toNat) } 1) ∧
    (x.casCond r.begun cond.toNat = some true → ready 2 →
      CasGoes (.casBr k cond im) s c x { r.begun with pc := im - 1, len := r.len + 1 } 1) ∧
    (x.casCond r.begun cond.toNat = some false → ready 1 → CasGoes (.casBr k cond im) s c x r.begun 1) ∧
    (ready 1 → CasGoes (.casSig k im) s c (x.raise 0x6B im.toNat) r.begun 1 ∧
      (HasRoom x.dom 0x6B → ChAnswers (.casSig k im) s c (fun y => Waits x.dom y.dom 0x6B im.toNat)) ∧
      CasGoes (.nop k) s c x r.begun 1)

/-- NORM, SINCOS, PI, TINT, RCL, RCR, INJ, OUT, CAP and PUTPOS write their registers, references, samples and delivery,
and nothing else; what OUT and PUTPOS write arrives in the next cycle (R325 to R333). -/
def Obligations.ControlInstructions : Prop :=
  (∀ (s : State) (c : Chan) (r : Run) (vd va vb : VReg) (im : BitVec 14),
    let x := s.ch c
    let k : CAt := ⟨c, .good⟩
    let a := x.vr va
    let ready (cycles : Nat) : Prop := CasReady s c r cycles
    let issues : Prop := s.up c ∧ x.issuing = some r
    let goes (i : Instr) (v : Vec) (cycles : Nat) : Prop := ready cycles → CasGoes i s c (x.setVr vd v) r.begun cycles
    let delivers (i : Instr) (res : Res) (cycles : Nat) : Prop :=
      ready cycles → CasGoes i s c (x.setVr vd res.v) (r.begun.took res) cycles
    let off (f : Fld) : Prop := fld r.bank f = 0
    let zero : Vec := { exp := 0, m := lanes.map (fun _ => 0) }
    let bin := x.rgN CAS_RCBIN_BIN
    let goesOn (cycles : Nat) (y : Channel) : Prop :=
      ∃ r', y.cas.run = some r' ∧ r'.pc = r.pc + 1 ∧ r'.len = r.len + cycles
    let elsewhere (y : Channel) : Prop :=
      y.pos = x.pos ∧ y.adc = x.adc ∧ y.weir = x.weir ∧ y.live = x.live ∧ y.dom.mem = x.dom.mem
    let outs := List.range (satN 6 (fld r.bank CAS_CTL_OUTPH).toNat)
    let ref (q : Nat) : Int := ((a.val q).scale 22).round
    ((∀ i, i < 16 → a.lane i = 0) → goes (.norm k vd va) a 1) ∧
    (∀ j, (∃ i, i < 16 ∧ a.lane i ≠ 0) → normShift a = j →
      goes (.norm k vd va) { exp := a.exp - j, m := lanes.map (fun i => a.lane i * 2 ^ j) } 1) ∧
    (let v : Res := if a.exp = 0 then ⟨a, false, false, false⟩ else normTo a 0
     let u := v.v
     ready 6 → CasGoes (.sincos k vd va) s c (x.setVr vd { exp := 0, m := lanes.map (fun i =>
       if i % 4 = 0 then sinM (u.lane (4 * (i / 4))) else if i % 4 = 1 then cosM (u.lane (4 * (i / 4))) else u.lane i) })
       (r.begun.saturated v.sat) 6) ∧
    (let e := a
     let i0 := x.vr vb
     let block (b : Nat) : Vec := (gather (lanes.map (fun j => x.dataWord r (im.toNat + 16 * b + j)))).v
     let product (g : Vec) : Res := reduce (g.exp + e.exp) (lanes.map fun j => (g.val j).mul (e.val j))
     let sum (p q : Vec) : Res :=
       reduce (maxI p.exp q.exp) (lanes.map fun j =>
         ((p.val j).alignTo (maxI p.exp q.exp)).add ((q.val j).alignTo (maxI p.exp q.exp)))
     let pe := product (block 0)
     let ie := product (block 1)
     let i1 := sum i0 ie.v
     let u := sum pe.v i1.v
     let above (j : Nat) : Bool := ((block 2).val j).lt (u.v.val j)
     let capped (j : Nat) : Dy := if above j then ((block 2).val j).alignTo u.v.exp else u.v.val j
     let below (j : Nat) : Bool := (capped j).lt ((block 3).val j)
     let uo := reduce u.v.exp (lanes.map fun j => if below j then ((block 3).val j).alignTo u.v.exp else capped j)
     let io := reduce i1.v.exp (lanes.map fun j =>
       if (above j && decide (0 < e.lane j)) || (below j && decide (e.lane j < 0)) then (i0.val j).alignTo i1.v.exp
       else i1.v.val j)
     let flags : Res := ⟨uo.v, pe.sat || ie.sat || i1.sat || u.sat || uo.sat || io.sat,
       pe.ovf || ie.ovf || i1.ovf || u.ovf || uo.ovf || io.ovf,
       pe.shift || ie.shift || i1.shift || u.shift || uo.shift || io.shift⟩
     im.toNat + 63 ≤ 16383 → ready 6 →
       CasGoes (.pi k vd va vb im) s c ((x.setVr vb io.v).setVr vd uo.v) (r.begun.took flags) 6) ∧
    (let h := (x.dataWord r im.toNat).toNat
     let n : Nat := 2 ^ (h % 16)
     let nt := if h / 16 % 16 = 0 then 16 else h / 16 % 16
     let unit (i : Nat) : Dy :=
       if (a.val i).lt Dy.zero then Dy.zero else if (Dy.ofInt 1).lt (a.val i) then Dy.ofInt 1 else a.val i
     let place (i : Nat) : Dy := (unit i).scale (h % 16)
     let cell (i : Nat) : Nat := (minI (place i).floor ((n : Int) - 1)).toNat
     let point (i o : Nat) : Word := x.dataWord r (im.toNat + 1 + (i % nt) * (n + 1) + cell i + o)
     let largest := lanes.foldl (fun m i => maxI m (maxI (wordE (point i 0)) (wordE (point i 1)))) (-128)
     (0 < h % 16 → h % 16 ≤ 10 → im.toNat + nt * (n + 1) ≤ 16383 →
       delivers (.tint k vd va im) (reduce largest (lanes.map fun i =>
         (numOf (point i 0)).add (((place i).sub (Dy.ofInt (cell i))).mul
           ((numOf (point i 1)).sub (numOf (point i 0)))))) 4) ∧
     (issues → h % 16 = 0 ∨ 10 < h % 16 → Aborts (.tint k vd va im) s c 1) ∧
     (issues → 0 < h % 16 → h % 16 ≤ 10 → 16383 < im.toNat + nt * (n + 1) → Aborts (.tint k vd va im) s c 2)) ∧
    (issues → 16383 < im.toNat + 63 → Aborts (.pi k vd va vb im) s c 2) ∧
    (off CAS_RCCTL_EN → goes (.rcl k vd va) zero 3 ∧ goes (.rcr k vd) zero 2) ∧
    (¬off CAS_RCCTL_EN → (x.cas.bR = bin → delivers (.rcl k vd va) (x.rcRead r.begun) 3) ∧
      delivers (.rcr k vd) (x.rcRead r.begun) 2) ∧
    (¬off CAS_RCCTL_EN → bin < 2047 → x.cas.bR + 1 = bin → ready 4 → ChAnswers (.rcl k vd va) s c (fun y =>
      y.cas.bR = bin ∧ goesOn 4 y ∧ y.pwm = x.pwm ∧ ∀ q, q < 3 →
        let t := numOf (x.dataWord r (rcWord q bin))
        y.dataWord r (rcWord q bin) = smallestWord
          ((t.sub ((Dy.mk (fld r.bank CAS_RCGAIN_FGT).toNat (-16)).mul t)).add
            ((Dy.mk (fld r.bank CAS_RCGAIN_LGAIN).toNat (-16)).mul (a.val q))))) ∧
    (im.toNat < 8 → x.injRunning = false ∨ bitOf (fld r.bank CAS_INJCTL_PMASK) im.toNat = false →
      goes (.inj k vd va im) a 1) ∧
    (im.toNat < 8 → x.injRunning = true → bitOf (fld r.bank CAS_INJCTL_PMASK) im.toNat = true →
      let e := maxI a.exp x.cas.inj.outE
      delivers (.inj k vd va im) (reduce e (lanes.map fun i =>
        if bitOf (fld r.bank CAS_INJCTL_LANES) i
        then ((a.val i).alignTo e).add ((dyOf x.cas.inj.outM x.cas.inj.outE).alignTo e) else (a.val i).alignTo e)) 1) ∧
    (issues → 8 ≤ im.toNat → Aborts (.inj k vd va im) s c 1) ∧
    (ready 1 → CasGoes (.out k va) s c
      { x with cas := { x.cas with outs := outs.map fun q => (q, wordOfInt (clampI (-8388608) 8388607 (ref q))) } }
      (r.begun.saturated (outs.any fun q => decide (ref q < -8388608) || decide (8388607 < ref q))) 1) ∧
    (x.rgN CAS_CAPSTAT_STATE = 2 → x.rgN CAS_CAPSTAT_COUNT < 16384 → ready 1 →
      ChAnswers (.cap k va) s c (fun y =>
        y.rgN CAS_CAPSTAT_COUNT = x.rgN CAS_CAPSTAT_COUNT + 1 ∧
        sget 0 y.cas.cap01 ((x.rgN CAS_CAPSTAT_FIRST + x.rgN CAS_CAPSTAT_COUNT) % 16384) =
          (capSignal a r.bank CAS_CAPCTL_SH1 CAS_CAPLANE_L1 <<< 16) ||| capSignal a r.bank CAS_CAPCTL_SH0 CAS_CAPLANE_L0 ∧
        goesOn 1 y ∧ y.pwm = x.pwm ∧ elsewhere y)) ∧
    (x.rgN CAS_CAPSTAT_STATE = 0 ∨ x.rgN CAS_CAPSTAT_STATE = 3 → ready 1 → CasGoes (.cap k va) s c x r.begun 1) ∧
    (im.toNat < 2 → off CAS_CTL_OBSEN → ready 1 → CasGoes (.putpos k va im) s c x r.begun 1) ∧
    (im.toNat < 2 → ¬off CAS_CTL_OBSEN → ready 1 → CasGoes (.putpos k va im) s c
      { x with cas := { x.cas with obs := some ⟨wordOfInt (a.lane 0 * 256),
        wordOfInt (satS 32 (((a.val 1).scale 16).round)), r.sst, im.getLsbD 0⟩ } } r.begun 1) ∧
    (issues → 2 ≤ im.toNat → Aborts (.putpos k va im) s c 1)) ∧
  (∀ (x : Channel) (n : Nat) (v : Nat → Word), n ≤ 6 → x.cas.outs = (List.range n).map (fun q => (q, v q)) →
    let y := x.takeOuts
    (∀ q, q < 6 → y.rg (PWM_REF_V q) = if q < n then v q &&& 0xFFFFFF else x.rg (PWM_REF_V q)) ∧
    y.cas = { x.cas with outs := [], obs := none } ∧ y.pwm.gate = x.pwm.gate ∧ y.live = x.live ∧ y.weir = x.weir ∧
    (x.cas.obs = none → y.pos = x.pos) ∧
    (∀ o, x.cas.obs = some o →
      y.pos = { x.pos with obsTheta := o.theta, obsOmega := o.omega, obsStamp := o.stamp } ∧
      y.rgB CAS_STAT_OBSV = o.valid ∧ y.rg CAS_OBSANG_THETA = o.theta ∧ y.rg CAS_OBSSPD_OMEGA = o.omega))

/-- A request starts a run in the cycle in which it reaches CAS, waits while one is in progress, and is dropped with EV_CSOVR
where CAS is off or a request waits already; END ends the run with EV_CDONE, RUNMAX aborts it (R316 to R319). The bits of
CAS_CMD, the strobes for the repetitive controller, the injection generator and the capture buffer, and the reads and
writes that clear or advance (R330, R331, R333, R336). -/
def Obligations.CascadeRuns : Prop :=
  (∀ (x : Channel) (f : BitVec 14),
    let begins (y : Channel) : Prop :=
      (∃ r, y.cas.run = some r ∧ r.pc = f ∧ r.start = x.now ∧ r.len = 0 ∧ r.sst = x.now) ∧
        y.rgB CAS_STAT_BUSY = true ∧ y.pwm = x.pwm ∧ y.adc = x.adc ∧ y.pos = x.pos ∧ y.live = x.live
    let can : Prop := x.lvB CAS_CTL_EN = true ∧ x.rgB CAS_STAT_STOPPED = false
    let y := x.startRequest f
    let dropped (bits : Nat) : Prop := y.rgB CAS_STAT_OVR = true ∧ y.cas = x.cas ∧
      (HasRoom x.dom 0x69 → Waits x.dom y.dom 0x69 (bits + f.toNat))
    (x.cas.starts = [f] → x.takeStarts = ({ x with cas := { x.cas with starts := [] } } : Channel).startRequest f) ∧
    (can → x.cas.run = none → x.cas.freeAt ≤ x.now → begins y) ∧
    (can → x.cas.run ≠ none ∨ x.now < x.cas.freeAt → x.cas.pend = none →
      y = { x with cas := { x.cas with pend := some f } }.setB CAS_STAT_PEND true) ∧
    (can → x.cas.run ≠ none ∨ x.now < x.cas.freeAt → x.cas.pend ≠ none → dropped 0) ∧
    (x.lvB CAS_CTL_EN = true → x.rgB CAS_STAT_STOPPED = true → dropped 0x4000) ∧
    (x.lvB CAS_CTL_EN = false → dropped 0x8000) ∧
    (x.cas.run = none → x.cas.pend = some f → begins x.takePending ∧ x.takePending.cas.pend = none ∧
      x.takePending.rgB CAS_STAT_PEND = false) ∧
    (∀ r, x.overrun = some r → x.endCasCycle.cas.run = none ∧ x.endCasCycle.rgN CAS_STAT_ERR = 5 ∧
      x.endCasCycle.rgB CAS_STAT_ERRF = true ∧ x.endCasCycle.rgN CAS_ERRADDR_ADDR = r.pc.toNat ∧
      x.endCasCycle.cas.v = x.cas.v)) ∧
  (∀ (s : State) (c : Chan) (w : Word), s.up c →
    let x := s.ch c
    let e := (fget w 29 16).setWidth 14
    let can : Prop := x.lvB CAS_CTL_EN = true ∧ x.rgB CAS_STAT_STOPPED = false
    let strobe (b : Nat) : Prop := x.weir.arrived.getLsbD b = true
    let taken (b : Nat) : Channel :=
      { x with weir := { x.weir with arrived := x.weir.arrived &&& ~~~(BitVec.ofNat 16 (2 ^ b)) } }
    (∀ p ∈ [(Instr.casCmdStart c w, 0), (.rcset c w, 1), (.caparm c w, 2), (.capstop c w, 3)],
      (bitOf w p.2 = false → ChBecomes p.1 s c x) ∧
      (bitOf w p.2 = true → ChAnswers p.1 s c (fun y =>
        y.rg CAS_RCBIN_BIN = (if bitOf w 1 then fget w 14 4 else x.rg CAS_RCBIN_BIN) ∧
        (bitOf w 3 = true → y.rgN CAS_CAPSTAT_STATE = 3 ∧
          (bitOf w 2 = false → x.rgN CAS_CAPSTAT_STATE ≠ 3 → HasRoom x.dom 0x6D →
            Waits x.dom y.dom 0x6D (satN 0xFFFF (x.rgN CAS_CAPSTAT_COUNT)))) ∧
        (bitOf w 2 = true → y.rgN CAS_CAPSTAT_COUNT = 0 ∧ y.rgN CAS_CAPSTAT_FIRST = 0 ∧
          (bitOf w 3 = false → y.rgN CAS_CAPSTAT_STATE = 1)) ∧
        (bitOf w 2 = false → bitOf w 3 = false → y.rgN CAS_CAPSTAT_STATE = x.rgN CAS_CAPSTAT_STATE) ∧
        (bitOf w 0 = true → can → x.cas.run = none → x.cas.freeAt ≤ x.now →
          (∃ r, y.cas.run = some r ∧ r.pc = e ∧ r.start = x.now ∧ r.len = 0 ∧ r.sst = x.now) ∧
          y.rgB CAS_STAT_BUSY = true) ∧
        (bitOf w 0 = true → can → x.cas.run ≠ none → x.cas.pend = none → y.cas = { x.cas with pend := some e }) ∧
        (bitOf w 0 = true → ¬can → y.rgB CAS_STAT_OVR = true ∧ y.cas = x.cas) ∧
        (bitOf w 0 = false → y.cas = x.cas) ∧
        y.pwm = x.pwm ∧ y.adc = x.adc ∧ y.pos = x.pos ∧ y.weir = x.weir ∧ y.live = x.live ∧ y.dom.mem = x.dom.mem))) ∧
    (∀ r, s.up c → x.issuing = some r →
      (HasRoom x.dom 0x68 → ∀ f ∈ [CasFetch.good, .dataEcc], ChAnswers (.casEnd ⟨c, f⟩) s c (fun y =>
        y.cas.run = none ∧ y.rgB CAS_STAT_BUSY = false ∧ y.rgN CAS_RUNLEN_LAST = satN 0xFFFFF (r.len + 1) ∧
        y.rgN CAS_RUNPK_PEAK = Nat.max (x.rgN CAS_RUNPK_PEAK) (satN 0xFFFFF (r.len + 1)) ∧
        Waits x.dom y.dom 0x68 (satN 0xFFFF (r.len + 1)) ∧ y.cas.v = x.cas.v ∧ y.pwm = x.pwm ∧ y.dom.mem = x.dom.mem)) ∧
      Aborts (.casEnd ⟨c, .illegal⟩) s c 1 ∧ Aborts (.casEnd ⟨c, .fetchEcc⟩) s c 3 ∧
      (HasRoom x.dom 0x6A → ChAnswers (.casEnd ⟨c, .illegal⟩) s c (fun y =>
        y.rgN CAS_ERRADDR_ADDR = r.pc.toNat ∧ Waits x.dom y.dom 0x6A (4096 + r.pc.toNat % 4096)))) ∧
    (strobe 10 → ChBecomes (.binAdvance c) s c ((taken 10).setN CAS_RCBIN_BIN
      ((x.rgN CAS_RCBIN_BIN + (if x.weir.lastDir = some false then 1 else 2047)) % 2048))) ∧
    (strobe 11 → x.rgN CAS_CAPSTAT_STATE = 1 → ChBecomes (.captureTrigger c) s c
      { (taken 11).setN CAS_CAPSTAT_STATE 2 with cas := { x.cas with capH := x.rgN CAS_CAPSTAT_COUNT } }) ∧
    (strobe 11 → x.rgN CAS_CAPSTAT_STATE ≠ 1 → ChBecomes (.captureTrigger c) s c (taken 11)) ∧
    (strobe 12 → x.lvB CAS_INJCTL_STEPSRC = true ∨ x.injRunning = false → ChBecomes (.injectionStep c) s c (taken 12)) ∧
    (strobe 12 → x.lvB CAS_INJCTL_STEPSRC = false → x.injRunning = true → ChAnswers (.injectionStep c) s c (fun y =>
      y.cas.inj.k = x.cas.inj.k + 1 ∧ y.rgN CAS_INJSTAT_STEP = satN 0xFFFFFF (x.cas.inj.k + 1) ∧
        (x.lvN CAS_INJLEN_NSTEP = 0 → y.rgB CAS_INJSTAT_RUN = true) ∧
        y.weir = (taken 12).weir ∧ y.pwm = x.pwm ∧ y.cas.run = x.cas.run ∧ y.cas.v = x.cas.v)) ∧
    ChBecomes (.capd23Read c) s c (x.setN CAS_CAPIDX_IDX ((x.rgN CAS_CAPIDX_IDX + 1) % 16384)) ∧
    ChAnswers (.runpkClear c) s c (fun y => y.rgN CAS_RUNPK_PEAK = 0 ∧ y.cas = x.cas))

/-! ## Redundant execution (R384 to R409) -/

/-- A mismatch holds the pair and starts its self-test; the verdict decides between the return of the pair, a pair with the
spare, one core alone, a restoration and the core-less state (R389 to R391). A restoration loads the checkpoint and undoes
the journal at once, and the replay follows; when its log is exhausted the pair goes on (R391, R392, R398). Each recovery
ends with EV_LSREC (R408). That a mismatch within a replay returns to the replay is the model's (log 13). -/
def Obligations.MismatchAndRecovery : Prop :=
  (∀ (s : State) (d : Dom) (m h : Eng) (grp : BitVec 6), (s.dom d).inReset = false →
    let x := s.dom d
    let l := x.lsc
    x.main = some m → x.shadow = some h → m ≠ h →
    let roles (y : Domain) (a b f : Option Eng) : Prop := y.main = a ∧ y.shadow = b ∧ y.spare = f
    let told (y : Domain) (o : Nat) : Prop :=
      HasRoom x 0x75 → Waits x y 0x75 (o + 16 * l.lost.toNat + if o = 4 ∨ o = 6 then 64 else 0)
    let loaded : Core := { (x.core h).adopt (x.core m) with
      run := .running, wait := .none, rsv := (x.core m).rsv, retired := (x.core m).retired
      postedErrs := (x.core m).postedErrs }
    let restored (y : Domain) (k : Ckpt) (e : Eng) : Prop :=
      (y.core e).g = k.core.g ∧ (y.core e).pc = k.core.pc ∧ (y.core e).status = k.core.status ∧
        (y.core e).retired = k.retired ∧ (y.core e).run = .running ∧ (y.core e).wait = .none ∧ (y.core e).stores = [] ∧
        (y.core e).loads = []
    let restoring (y : Domain) (outcome : Nat) : Prop :=
      y.phase = 3 ∧ y.lsc.outcome = outcome ∧ y.lsc.due = l.m + 16026 + undoTime l.journal ∧ y.lsc.journal = [] ∧
        y.lsc.replay = some l.rlog ∧ y.mem = undoJournal x.mem l.journal
    let whole : Prop := x.rgB LSC_STAT_CKVALID = true ∧ x.rgB LSC_STAT_LOGOVF = false
    let tested (i : Instr) (P : Domain → Prop) : Prop := Answers i s fun t =>
      P (t.dom d) ∧ (∀ y, y ≠ d → (t.dom y).mem = (s.dom y).mem ∧ ∀ e, t.core y e = s.core y e) ∧
      (∀ n, t.ch n = { s.ch n with dom := (t.ch n).dom }) ∧ t.host.upd = s.host.upd ∧ t.dev = s.dev ∧ t.pending = s.pending ∧
      t.host.ring = { s.host.ring with reqs := t.host.ring.reqs } ∧ t.host.ring.reqs.length = s.host.ring.reqs.length ∧
      (∀ q ∈ s.host.ring.reqs, q.d ≠ d → q ∈ t.host.ring.reqs)
    (x.mismatchable = true → x.booting = false → grp.toNat ≤ 42 → HasRoom x 0x74 →
      DomAnswers (.lockstepMismatch d grp) s d (fun y =>
        y.phase = 1 ∧ y.rgN LSC_STAT_MISGRP = grp.toNat ∧ y.rgN LSC_MISTS_TS = x.time % 4294967296 ∧
        y.rgN LSC_CNT_MISMATCH = satN 255 (x.rgN LSC_CNT_MISMATCH + 1) ∧ y.lsc.m = x.time ∧
        Waits x y 0x74 grp.toNat ∧ y.mem = x.mem ∧ (∀ e, (y.core e).g = (x.core e).g ∧ (y.core e).pc = (x.core e).pc) ∧
        (y.core m).wait = .none ∧ (y.core h).wait = .none ∧
        ∀ q, l.split = some q → y.spare = some q ∧ y.rgB LSC_STAT_SPLIT = false ∧ y.lsc.split = none)) ∧
    (x.phase = 1 → l.m + 16002 ≤ x.time →
      DomAnswers (.selfTestDone d false false) s d (fun y =>
        y.phase = 2 ∧ y.lsc.outcome = 2 ∧ y.lsc.due = l.m + 16050 ∧ roles y x.main x.shadow x.spare ∧ y.mem = x.mem) ∧
      (∀ p ∈ [(Instr.selfTestDone d true false, m, h), (.selfTestDone d false true, h, m)],
        (∀ q, x.spare = some q → tested p.1 (fun y =>
          y.phase = 2 ∧ y.lsc.outcome = 1 ∧ y.lsc.due = l.m + 16098 ∧ roles y (some p.2.2) (some q) none ∧
          y.rgB (LSC_STAT_RETIRED.bit p.2.1.idx) = true ∧ y.mem = x.mem)) ∧
        (x.spare = none → tested p.1 (fun y =>
          roles y (some p.2.2) none none ∧ y.rgB (LSC_STAT_RETIRED.bit p.2.1.idx) = true ∧
          y.rgB SYS_CAP_DEGRADED = true ∧ y.rgB SYS_CAP_SAFE_CAP = false ∧
          (l.replay = none → y.phase = 4 ∧ (HasRoom x 0x75 → Waits x y 0x75 (5 + 16 * p.2.1.idx))) ∧
          (l.replay.isSome = true → y.phase = 3) ∧ y.mem = x.mem))) ∧
      (x.spare = none → tested (.selfTestDone d true true) (fun y =>
        y.phase = 5 ∧ roles y none none none ∧ told y 6 ∧ y.rgB SYS_CAP_SAFE_CAP = false ∧ y.mem = x.mem ∧
        ∀ e, (y.core e).run ≠ .running)) ∧
      (∀ q k, x.spare = some q → q ≠ m → q ≠ h → whole → l.ck = some k → tested (.selfTestDone d true true) (fun y =>
        restoring y 4 ∧ roles y (some q) none none ∧ restored y k q)) ∧
      (∀ q, x.spare = some q → q ≠ m → q ≠ h → ¬whole → tested (.selfTestDone d true true) (fun y =>
        y.phase = 5 ∧ (HasRoom x 0x77 → Waits x y 0x77 2) ∧ told y 4 ∧ y.mem = x.mem))) ∧
    (x.phase = 2 → l.due ≤ x.time →
      (∀ same, l.outcome = 1 → DomAnswers (.stateLoadDone d same) s d (fun y =>
        y.core h = loaded ∧ y.core m = x.core m ∧ y.mem = x.mem ∧
        (l.replay = none → y.phase = 0 ∧ told y 1) ∧ (l.replay.isSome = true → y.phase = 3))) ∧
      (l.outcome = 2 → DomAnswers (.stateLoadDone d true) s d (fun y =>
        (∀ e, y.core e = x.core e) ∧ y.mem = x.mem ∧
        (l.replay = none → y.phase = 0 ∧ told y 2 ∧
          y.rgN LSC_CNT_TRANSIENT = satN 255 (x.rgN LSC_CNT_TRANSIENT + 1)) ∧
        (l.replay.isSome = true → y.phase = 3))) ∧
      (∀ k, l.outcome = 2 → whole → l.ck = some k → DomAnswers (.stateLoadDone d false) s d (fun y =>
        restoring y 3 ∧ restored y k m ∧ restored y k h)) ∧
      (l.outcome = 2 → ¬whole → DomAnswers (.stateLoadDone d false) s d (fun y =>
        y.phase = 5 ∧ (HasRoom x 0x77 → Waits x y 0x77 2) ∧ told y 3 ∧ y.mem = x.mem)))) ∧
  (∀ (s : State) (d : Dom), (s.dom d).inReset = false → (s.dom d).phase = 3 →
    let x := s.dom d
    let l := x.lsc
    let told (y : Domain) : Prop :=
      HasRoom x 0x75 → Waits x y 0x75 (l.outcome + 16 * l.lost.toNat + if l.outcome = 4 ∨ l.outcome = 6 then 64 else 0)
    (l.due ≤ x.time → l.replay = some [] → DomAnswers (.restorationDone d false false) s d (fun y =>
      y.phase = (if x.shadow.isSome then 0 else 4) ∧ y.lsc.replay = none ∧ told y ∧
        y.rgN LSC_CNT_RESTORE = satN 255 (x.rgN LSC_CNT_RESTORE + 1) ∧ (∀ e, y.core e = x.core e) ∧ y.mem = x.mem)) ∧
    (x.time < l.due ∨ l.replay ≠ some [] → DomAnswers (.restorationDone d false false) s d (fun y =>
      y.phase = 3 ∧ y.lsc = l ∧ (∀ e, y.core e = x.core e) ∧ y.mem = x.mem)) ∧
    ∀ a b, (a || b) = true → DomAnswers (.restorationDone d a b) s d (fun y =>
      y.phase = 5 ∧ y.rgB LSC_STAT_LOGOVF = true ∧ (l.ovfTold = false → HasRoom x 0x77 → Waits x y 0x77 2) ∧ told y ∧
        (∀ e, (y.core e).run ≠ .running) ∧ y.mem = x.mem))

/-! ## Machine safety (R410 to R440) -/

/-- Safe torque off follows its filtered inputs, their delay timers, a discrepancy, the readback test and the oscillator
check: a demand takes Cn_GEN low, and every gate output from the next edge; with manual restart its end waits for STORST
(R410, R413 to R418). A write of SAFE_CMD with several bits carries out each (log 8). -/
def Obligations.SafeTorqueOff : Prop :=
  (∀ x : Channel, x.elementA = true → x.stage7 = 0 ∧ x.gateEdge.pwm.gate = 0) ∧
  ∀ (s : State) (c : Chan) (inB : Bool) (first count : Nat) (w : Word), s.up c →
    let x := s.ch c
    let sampled : Prop := 2 ≤ x.rgN SYS_BOOTSTAT_PHASE
    let f := if inB then SAFE_STAT_STOB else SAFE_STAT_STOA
    let g := if inB then SAFE_STAT_STOA else SAFE_STAT_STOB
    let direct (y : Channel) : Bool := if inB then y.safe.dirB else y.safe.dirA
    let timer (y : Channel) : Option Nat := if inB then y.safe.timerB else y.safe.timerA
    let arg (y : Channel) (code : Nat) : Nat := code + 256 * y.rgN SAFE_STAT_STOA + 512 * y.rgN SAFE_STAT_STOB
    let off (y : Channel) : Prop := y.rgB SAFE_STAT_STODEM = true ∧ y.elementA = true ∧ y.gen = false
    let kept (y : Channel) : Prop := y.pos = x.pos ∧ y.adc = x.adc ∧ y.weir = x.weir ∧ y.live = x.live ∧
      y.cas = x.cas ∧ y.dom.mem = x.dom.mem
    let clear : Prop := x.rgB SAFE_STAT_DISCF = false ∧ x.rgN SAFE_STAT_SS1PH = 0 ∧ x.rgB SAFE_STAT_OSCF = false ∧
      x.rgB SAFE_STAT_STOTF = false ∧ x.kTrips = false
    let e : Nat := if x.rgB PLL_STAT_RC then 5000 else 20000
    let far : Prop := 100 * count + 8 * e < 100 * e ∨ 108 * e < 100 * count
    let changed : Prop := first < x.dom.pll.srcAt ∨ x.dom.pll.srcWas ≠ x.dom.source
    (∀ p ∈ [(Instr.stotest c w, 6), (.storst c w, 5), (.ss1req c w, 4), (.ss1clr c w, 3), (.kclr c w, 2), (.hgclr c w, 1)],
      (bitOf w p.2 = true → ChBecomes p.1 s c (x.safeCmd w)) ∧ (bitOf w p.2 = false → ChBecomes p.1 s c x)) ∧
    (sampled → (∀ level, x.rgB f = level → ChBecomes (.stoInputChange c inB level) s c x)) ∧
    (sampled → x.rgB f = true → x.rgB g = true → x.lvB SAFE_STOCFG_INMODE = false → HasRoom x.dom 0x70 →
      ChAnswers (.stoInputChange c inB false) s c (fun y =>
        y.rgB f = false ∧ direct y = true ∧ off y ∧ Waits x.dom y.dom 0x70 (if inB then 257 else 513) ∧ kept y)) ∧
    (sampled → x.rgB f = true → x.rgB g = true → x.lvB SAFE_STOCFG_INMODE = true → x.rgN SAFE_STAT_SS1PH = 0 →
      HasRoom x.dom 0x71 →
      ChAnswers (.stoInputChange c inB false) s c (fun y =>
        y.rgB f = false ∧ direct y = direct x ∧ timer y = some (x.lvN SAFE_SS1CFG_SS1T) ∧ y.rgN SAFE_STAT_SS1PH = 1 ∧
        y.safe.ss1In = true ∧ Waits x.dom y.dom 0x71 1 ∧ kept y)) ∧
    (sampled → x.rgB f = false → x.rgB g = true → clear → x.rgB SAFE_STAT_RESTWAIT = false →
      (x.lvB SAFE_STOCFG_MANREST = false → ChAnswers (.stoInputChange c inB true) s c (fun y =>
        y.rgB f = true ∧ direct y = false ∧ timer y = none ∧ y.rgB SAFE_STAT_STODEM = false ∧ kept y)) ∧
      (x.lvB SAFE_STOCFG_MANREST = true → x.safe.cond ≠ 0 → ChAnswers (.stoInputChange c inB true) s c (fun y =>
        y.rgB f = true ∧ y.rgB SAFE_STAT_RESTWAIT = true ∧ off y ∧ kept y))) ∧
    ((timer x).isSome = true → ChAnswers (.stoDelayTimerExpiry c inB) s c (fun y =>
      timer y = none ∧ direct y = true ∧ (if inB then y.gen = false else y.elementA = true) ∧ kept y)) ∧
    (timer x = none → ChBecomes (.stoDelayTimerExpiry c inB) s c x) ∧
    (x.rgB f = false → x.rgB g = true → x.rgB SAFE_STAT_DISCF = false → HasRoom x.dom 0x70 →
      ChAnswers (.stoDiscrepancy c) s c (fun y =>
        y.rgB SAFE_STAT_DISCF = true ∧ off y ∧ Waits x.dom y.dom 0x70 (arg x 3) ∧ kept y)) ∧
    (x.stoCond = 0 → x.safe.cond = 0 → ChAnswers (.storst c 0x20) s c (fun y =>
      y.rgB SAFE_STAT_RESTWAIT = false ∧ y.rgB SAFE_STAT_STODEM = false ∧ kept y)) ∧
    (x.stoCond ≠ 0 → ChBecomes (.storst c 0x20) s c x) ∧
    (x.rgB SAFE_STAT_STOA = false → x.rgB SAFE_STAT_STOB = false → x.rgB SAFE_STAT_DISCF = false →
      ChAnswers (.stotest c 0x40) s c (fun y => y.safe.testing = true ∧
        (x.safe.testing = false → ∀ k, k < 6 → (y.leg k).out = 0) ∧ kept y)) ∧
    (x.rgB SAFE_STAT_STOA = true ∨ x.rgB SAFE_STAT_STOB = true ∨ x.rgB SAFE_STAT_DISCF = true ∨ x.safe.testing = true →
      ChBecomes (.stotest c 0x40) s c x) ∧
    (x.safe.testing = true → HasRoom x.dom 0x70 →
      ChBecomes (.stoTestDone c true) s c
        { x with dom := (x.dom.raise 0x70 (arg x 5)), safe := { x.safe with testing := false } } ∧
      ChAnswers (.stoTestDone c false) s c (fun y => y.safe.testing = false ∧ y.rgB SAFE_STAT_STOTF = true ∧ off y ∧
        Waits x.dom y.dom 0x70 (arg x 6) ∧ kept y)) ∧
    (x.safe.testing = false → ∀ pass, ChBecomes (.stoTestDone c pass) s c x) ∧
    (first + count = x.now → ¬changed → x.rgB SAFE_STAT_OSCF = false → far → HasRoom x.dom 0x73 →
      ChAnswers (.oscWindowCheck c first count) s c (fun y =>
        y.rgB SAFE_STAT_OSCF = true ∧ off y ∧ Waits x.dom y.dom 0x73 0xA ∧ kept y)) ∧
    (first + count ≠ x.now ∨ changed ∨ x.rgB SAFE_STAT_OSCF = true ∨ ¬far → ChBecomes (.oscWindowCheck c first count) s c x)

/-- Safe stop 1 begins by SS1REQ, goes to its STO phase when its timer expires, and ends by SS1CLR (R419 to R421). The
contactors follow SAFE_KCMD, and a feedback that contradicts the command, or comes too late, is a fault (R422 to R424). The
faults that one KCLR clears are told by events stamped one cycle apart (R167; the model's choice, log 46). -/
def Obligations.SafeStopAndContactors : Prop :=
  ∀ (s : State) (c : Chan) (q : BitVec 2) (level : Bool) (w : Word), s.up c →
    let x := s.ch c
    let sampled : Prop := 2 ≤ x.rgN SYS_BOOTSTAT_PHASE
    let k := q.toNat
    let kept (y : Channel) : Prop := y.pos = x.pos ∧ y.adc = x.adc ∧ y.weir = x.weir ∧ y.live = x.live ∧
      y.cas = x.cas ∧ y.dom.mem = x.dom.mem
    let both : Prop := x.rgB SAFE_STAT_STOA = true ∧ x.rgB SAFE_STAT_STOB = true
    let faulted (y : Channel) (kind : Nat) : Prop :=
      y.rgB (SAFE_STAT_KFAULT.bit k) = true ∧ y.rgN (SAFE_KSTAT_KIND k) = kind ∧ y.rgB (SAFE_STAT_KCL.bit k) = false ∧
        Waits x.dom y.dom 0x72 (k + 16 * kind) ∧
        (x.lvB (SAFE_KCFG_KTRIP k) = true → y.rgB SAFE_STAT_STODEM = true ∧ y.elementA = true) ∧ kept y
    (∀ p ∈ [(Instr.contactorClose c w, SAFE_KCMD_CLOSE), (.contactorOpen c w, SAFE_KCMD_OPEN)],
      (fget w p.2.hi p.2.lo ≠ 0 → ChBecomes p.1 s c (x.kCmd w)) ∧ (fget w p.2.hi p.2.lo = 0 → ChBecomes p.1 s c x)) ∧
    (x.rgN SAFE_STAT_SS1PH = 0 → x.rgB SAFE_STAT_STODEM = false → HasRoom x.dom 0x71 →
      ChAnswers (.ss1req c 0x10) s c (fun y => y.rgN SAFE_STAT_SS1PH = 1 ∧ y.safe.ss1In = false ∧
        y.safe.ss1T = x.lvN SAFE_SS1CFG_SS1T ∧ y.safe.ss1Start = x.weir.absOmega ∧ Waits x.dom y.dom 0x71 2 ∧
        y.pwm = x.pwm ∧ kept y)) ∧
    (x.rgN SAFE_STAT_SS1PH ≠ 0 ∨ x.rgB SAFE_STAT_STODEM = true → ChBecomes (.ss1req c 0x10) s c x) ∧
    (x.rgN SAFE_STAT_SS1PH ≠ 0 → x.safe.ss1In = false → both → ChAnswers (.ss1clr c 8) s c (fun y =>
      y.rgN SAFE_STAT_SS1PH = 0 ∧ (x.rgN SAFE_STAT_SS1PH = 1 → HasRoom x.dom 0x71 → Waits x.dom y.dom 0x71 6) ∧
        kept y)) ∧
    (x.safe.ss1In = true ∨ ¬both → ChBecomes (.ss1clr c 8) s c x) ∧
    (x.rgN SAFE_STAT_SS1PH = 1 → HasRoom x.dom 0x71 → ChAnswers (.ss1TimerExpiry c) s c (fun y =>
      y.rgN SAFE_STAT_SS1PH = 2 ∧ y.rgB SAFE_STAT_STODEM = true ∧ y.elementA = true ∧ y.gen = false ∧
        Waits x.dom y.dom 0x71 4 ∧ kept y)) ∧
    (x.rgN SAFE_STAT_SS1PH ≠ 1 → ChBecomes (.ss1TimerExpiry c) s c x) ∧
    (k < 3 → x.lvB (SAFE_KCFG_EN k) = true →
      let fault := x.rgB (SAFE_STAT_KFAULT.bit k)
      let closed := level != x.lvB (SAFE_KCFG_FBPOL k)
      let cl := x.rgB (SAFE_STAT_KCL.bit k)
      (fault = false → ChAnswers (.contactorClose c (BitVec.ofNat 32 (2 ^ k))) s c (fun y =>
        y.rgB (SAFE_STAT_KCL.bit k) = true ∧
          (cl = false → y.safe.conf.getLsbD k = x.rgB (SAFE_STAT_KFB.bit k)) ∧ y.pwm = x.pwm ∧ kept y)) ∧
      (fault = true → HasRoom x.dom 0x72 → ChAnswers (.contactorClose c (BitVec.ofNat 32 (2 ^ k))) s c (fun y =>
        y.rgB (SAFE_STAT_KCL.bit k) = cl ∧ Waits x.dom y.dom 0x72 (k + 0x60) ∧ y.safe = x.safe ∧ kept y)) ∧
      ChAnswers (.contactorOpen c (BitVec.ofNat 32 (8 * 2 ^ k))) s c (fun y =>
        y.rgB (SAFE_STAT_KCL.bit k) = false ∧ y.pwm = x.pwm ∧ kept y) ∧
      (sampled → fault = false → closed = cl → ChAnswers (.contactorFeedbackChange c q level) s c (fun y =>
        y.rgB (SAFE_STAT_KFB.bit k) = closed ∧ y.safe.conf.getLsbD k = true ∧ y.rgB (SAFE_STAT_KCL.bit k) = cl ∧
          y.pwm = x.pwm ∧ kept y)) ∧
      (sampled → fault = false → closed ≠ cl → x.safe.conf.getLsbD k = true → HasRoom x.dom 0x72 →
        ChAnswers (.contactorFeedbackChange c q level) s c (fun y =>
          y.rgB (SAFE_STAT_KFB.bit k) = closed ∧ faulted y (if cl then 3 else 4))) ∧
      (sampled → fault = false → closed ≠ cl → x.safe.conf.getLsbD k = false →
        ChBecomes (.contactorFeedbackChange c q level) s c (x.setB (SAFE_STAT_KFB.bit k) closed)) ∧
      (sampled → fault = true → ChAnswers (.contactorFeedbackChange c q level) s c (fun y =>
        y.rgB (SAFE_STAT_KFB.bit k) = closed ∧ y.rgB (SAFE_STAT_KCL.bit k) = cl ∧
          y.rgB (SAFE_STAT_KFAULT.bit k) = true ∧ y.pwm = x.pwm ∧ kept y)) ∧
      (fault = false → x.safe.conf.getLsbD k = false → HasRoom x.dom 0x72 →
        ChAnswers (.contactorTimeLimit c q) s c (fun y => faulted y (if cl then 2 else 1)))) ∧
    (sampled → k < 3 → ChAnswers (.contactorFeedbackChange c q level) s c (fun y =>
      y.rgB (SAFE_STAT_KFB.bit k) = (level != x.lvB (SAFE_KCFG_FBPOL k)) ∧ kept y)) ∧
    (k = 3 → ∀ i ∈ [Instr.contactorFeedbackChange c q level, .contactorTimeLimit c q], ChBecomes i s c x) ∧
    (let kmon (d : Domain) : List Event := d.evq.filter (fun e => e.src == 0x72)
      let clears (j : Nat) : Bool := x.rgB (SAFE_STAT_KFAULT.bit j) && !x.rgB (SAFE_STAT_KFB.bit j)
      w.getLsbD 2 = true → (kmon x.dom).length ≤ 1 → ChAnswers (.kclr c w) s c (fun y =>
        (kmon y.dom).map (·.stamp) = (kmon x.dom).map (·.stamp) ++ ((List.range 3).filter clears).zipIdx.map fun p =>
          max x.dom.time (sget 0 x.dom.evNext 0x72) + p.2)) ∧
    (k < 3 → x.rgB (SAFE_STAT_KFAULT.bit k) = true → ChAnswers (.kclr c 4) s c (fun y =>
      y.rgB (SAFE_STAT_KFAULT.bit k) = x.rgB (SAFE_STAT_KFB.bit k) ∧
        (x.rgB (SAFE_STAT_KFB.bit k) = false → y.rgN (SAFE_KSTAT_KIND k) = 0) ∧ kept y))

/-- Three samples close enough together give the torque estimate of R427, whose rounding is free (log 9); TPCNT failed
comparisons in a row set TPFAIL. A unit without an estimate for TPSTALE is suspended, and a suspension as long with TPREQ = 1
is a failure (R427 to R429; that both codes are raised then is log 80). The halt guard puts its pattern in force (R427 to R429, R432,
R433). The safety configuration is unlocked by its password alone and locked again by RELOCK or the timeout; four failed
tries lock it out; lab mode is entered only while unlocked and clears SAFE_CAP; log entries go to the data NVM in turn
(R46, R434 to R440). -/
def Obligations.PlausibilityHaltGuardAndConfiguration : Prop :=
  (∀ (s : State) (c : Chan), s.up c →
     let x := s.ch c
     let kept (y : Channel) : Prop := y.pos = x.pos ∧ y.adc = x.adc ∧ y.weir = x.weir ∧ y.live = x.live ∧
       y.dom.mem = x.dom.mem
     (∀ u v w, x.safe.tpU = some u → x.safe.tpV = some v → x.safe.tpW = some w → x.tpBlocked = false →
       x.safe.tpNew.isSome = true →
       max u.h (max v.h w.h) - min u.h (min v.h w.h) ≤ 1000 * atLeast1 (x.lvN SAFE_TPLIM_TPSPAN) →
       let e := torqueOf u v w (x.lv SAFE_TPKT_KT) (x.lv SAFE_TPKR_KR)
       let est (y : Channel) : Prop := y.rg SAFE_TPEST_TEST = e ∧ y.safe.tpLast = x.now ∧ y.safe.tpNew = none ∧
         y.rgB SAFE_STAT_TPSUSP = false ∧ y.pwm = x.pwm ∧ kept y
       let counts : Prop := x.lvB SAFE_TPCFG_TPWIN = false ∨ u.win = true ∧ v.win = true ∧ w.win = true
       ChAnswers (.torqueEstimate c) s c est ∧
       (x.lvB SAFE_TPCFG_TPWIN = true → u.win = false → v.win = false → w.win = false →
         ChAnswers (.torqueEstimate c) s c (fun y => y.safe.tpRun = x.safe.tpRun ∧
           y.rgB SAFE_STAT_TPFAIL = x.rgB SAFE_STAT_TPFAIL)) ∧
       (counts → x.tpFails e = false →
         ChAnswers (.torqueEstimate c) s c (fun y => y.safe.tpRun = 0 ∧ y.rgB SAFE_STAT_TPFAIL = x.rgB SAFE_STAT_TPFAIL)) ∧
       (counts → x.tpFails e = true → x.safe.tpRun + 1 ≠ atLeast1 (x.lvN SAFE_TPCFG_TPCNT) →
         ChAnswers (.torqueEstimate c) s c (fun y => y.safe.tpRun = x.safe.tpRun + 1 ∧
           y.rgB SAFE_STAT_TPFAIL = x.rgB SAFE_STAT_TPFAIL)) ∧
       (counts → x.tpFails e = true → x.safe.tpRun + 1 = atLeast1 (x.lvN SAFE_TPCFG_TPCNT) →
         HasRoom x.dom 0x73 → ChAnswers (.torqueEstimate c) s c (fun y =>
           y.rgB SAFE_STAT_TPFAIL = true ∧ Waits x.dom y.dom 0x73 1 ∧
             (x.lvB SAFE_TPCFG_TPTRIP = true → y.cas.sup.tripReq = true)))) ∧
     (x.tpSamples = none ∨ x.tpBlocked = true → ChBecomes (.torqueEstimate c) s c x) ∧
     (x.dom.dbg.halted = true → x.rgB GDI_STAT_TPM = false → x.rgB SAFE_STAT_HGACT = false →
       x.lvB SAFE_HG_HGEN = true ∨ x.rgB SAFE_STAT_LAB = false → HasRoom x.dom 0x73 → ChAnswers (.haltGuardExpiry c) s c (fun y =>
         y.rgB SAFE_STAT_HGACT = true ∧ y.pwm.hg = some x.hgPattern ∧ Waits x.dom y.dom 0x73 3 ∧
           (∀ k, k < 6 → (y.leg k).out = 0) ∧ kept y)) ∧
     (x.dom.dbg.halted = false → ChBecomes (.hgclr c 2) s c (x.setB SAFE_STAT_HGACT false)) ∧
     (x.dom.dbg.halted = true → ChBecomes (.hgclr c 2) s c x)) ∧
  (∀ x : Channel,
     let wait := 1000 * atLeast1 (x.lvN SAFE_TPSTALE_TPSTALE)
     let y := x.tpRefresh
     let z := x.tpSuspension
     (x.safe.tpLast + wait ≤ x.now → y.rgB SAFE_STAT_TPSUSP = true ∧ y.safe.tpRun = 0 ∧ y.pwm = x.pwm ∧ y.live = x.live ∧
       (x.rgB SAFE_STAT_TPSUSP = false → y.safe.tpSince = x.now ∧ y.safe.tpTold = false)) ∧
     (x.rgB SAFE_STAT_TPSUSP = true → x.lvB SAFE_TPCFG_TPREQ = true → x.safe.tpTold = false →
       x.safe.tpSince + wait ≤ x.now → z.rgB SAFE_STAT_TPFAIL = true ∧ z.safe.tpTold = true ∧
       (HasRoom x.dom 0x73 → Waits x.dom z.dom 0x73 2) ∧ z.pwm = x.pwm ∧ z.live = x.live)) ∧
  (∀ (s : State) (c : Chan) (w : Word), s.up c →
     let x := s.ch c
     let kept (y : Channel) : Prop := y.pos = x.pos ∧ y.adc = x.adc ∧ y.weir = x.weir ∧ y.live = x.live ∧
       y.cas = x.cas ∧ y.pwm = x.pwm
     let unlocked := x.rgB SAFE_STAT_UNLOCKED
     let n := x.rgN SAFE_STAT_FAILCNT
     (∀ p ∈ [(Instr.relock c w, 0), (.labenter c w, 1), (.labexit c w, 2)],
       (bitOf w p.2 = true → ChBecomes p.1 s c (x.lockCtl w)) ∧ (bitOf w p.2 = false → ChBecomes p.1 s c x)) ∧
     (x.rgB SAFE_STAT_LOCKOUT = true → ChBecomes (.safeUnlock c w) s c x) ∧
     (x.rgB SAFE_STAT_LOCKOUT = false → w = x.safe.password → HasRoom x.dom 0x73 →
       ChAnswers (.safeUnlock c w) s c (fun y => y.rgB SAFE_STAT_UNLOCKED = true ∧ y.rgN SAFE_STAT_FAILCNT = 0 ∧
         Waits x.dom y.dom 0x73 7 ∧ y.dom.mem = x.dom.mem ∧ kept y)) ∧
     (x.rgB SAFE_STAT_LOCKOUT = false → w ≠ x.safe.password → n < 4 → HasRoom x.dom 0x73 →
       ChAnswers (.safeUnlock c w) s c (fun y => y.rgB SAFE_STAT_UNLOCKED = unlocked ∧ y.rgN SAFE_STAT_FAILCNT = n + 1 ∧
         y.rgB SAFE_STAT_LOCKOUT = decide (n = 3) ∧ Waits x.dom y.dom 0x73 6 ∧ y.dom.mem = x.dom.mem ∧
         y.safe = x.safe ∧ kept y)) ∧
     (unlocked = true → HasRoom x.dom 0x73 → ∀ i ∈ [Instr.relock c 1, .unlockTimeout c],
       ChAnswers i s c (fun y => y.rgB SAFE_STAT_UNLOCKED = false ∧ Waits x.dom y.dom 0x73 8 ∧ y.dom.mem = x.dom.mem ∧
         kept y)) ∧
     (unlocked = false → ∀ i ∈ [Instr.relock c 1, .unlockTimeout c, .labenter c 2], ChBecomes i s c x) ∧
     (unlocked = true → x.rgB SAFE_STAT_LAB = false → HasRoom x.dom 0x73 → ChAnswers (.labenter c 2) s c (fun y =>
       y.rgB SAFE_STAT_LAB = true ∧ y.rgB SYS_CAP_LAB = true ∧ y.rgB SYS_CAP_SAFE_CAP = false ∧
         Waits x.dom y.dom 0x73 4 ∧ y.dom.mem = x.dom.mem ∧ kept y)) ∧
     (x.rgB SAFE_STAT_LAB = true → HasRoom x.dom 0x73 → ChAnswers (.labexit c 4) s c (fun y =>
       y.rgB SAFE_STAT_LAB = false ∧ y.rgB SYS_CAP_LAB = false ∧
         y.rgB SYS_CAP_SAFE_CAP =
           (!x.rgB SYS_CAP_DUAL_CORE && !x.rgB SYS_CAP_DEGRADED && x.rgB SYS_BOOTSTAT_DONE) ∧
         Waits x.dom y.dom 0x73 5 ∧ y.dom.mem = x.dom.mem ∧ kept y)) ∧
     (∀ e rest, s.dev.inhibit = false → x.safe.logQ = e :: rest → HasRoom x.dom 0x73 →
       let i := x.rgN SAFE_LOGSTAT_NEXT
       ChAnswers (.logEntryWrite c) s c (fun y => y.safe.logQ = rest ∧
         (∀ j, j < 5 → y.word (0x201E1000 + 20 * i + 4 * j) = e.getD j 0) ∧
         (∀ a, a < 0x201E1000 + 20 * i ∨ 0x201E1014 + 20 * i ≤ a → memByte y.dom.mem a = memByte x.dom.mem a) ∧
         y.rgN SAFE_LOGSTAT_NEXT = (i + 1) % 256 ∧ Waits x.dom y.dom 0x73 9 ∧ kept y)) ∧
     (s.dev.inhibit = false → x.safe.logQ = [] → ChBecomes (.logEntryWrite c) s c x) ∧
     (s.dev.inhibit = true → Answers (.logEntryWrite c) s (fun t => t = s)) ∧
     ChBecomes (.logd4Read c) s c (x.setN SAFE_LOGIDX_IDX ((x.rgN SAFE_LOGIDX_IDX + 1) % 256)))

/-! ## Heat, wear and spares (R441 to R464) -/

/-- A slow round stores its readings under the next round number and sets the host domain's band; a thermal shutdown
resets the domain and is counted; restart waits until SDCNT allows it, and SDCLR clears it (R441, R443, R446, R447). An
output stage whose ball has differed for RBWIN is noted, and in the next cycle the other stage drives, once, or the ball is
declared faulty; a change that wear or a command names is made at an edge that finds the ball's command low; a comparator
whose working cell fails its test stays on its spare cell; repaired rows, the NVM repair list, parity errors of the plan and
live banks and the wear record are kept as R152, R450, R451 and R454 to R459 say; so is SPR_CMD (R464). -/
def Obligations.HeatSparesAndWear : Prop :=
  (∀ (s : State) (d : Dom) (m : SlowRound) (sensor : BitVec 2) (w : Word), Placed s →
     let x := s.dom d
     let n := x.rgN THM_SDSTAT_SDCNT
     (x.inReset = false → DomAnswers (.slowRound d m) s d (fun y =>
       y.thm.rounds = x.thm.rounds + 1 ∧ y.rgN THM_STAT_SEQ = (x.thm.rounds + 1) % 16 ∧
       (∀ k ∈ x.sensors, y.rg (THM_TEMP_T k) = ([m.t0, m.t1, m.t2].getD k 0).setWidth 32 ∧
         y.rgN (THM_TEMP_SEQ k) = (x.thm.rounds + 1) % 16 ∧ y.rgB (THM_TEMP_VALID k) = true) ∧
       y.rg THM_SUP0_VCORE = m.vcore.setWidth 32 ∧ y.rg THM_SUP0_VNVM = m.vnvm.setWidth 32 ∧
       y.rg THM_SUP1_VIO = m.vio.setWidth 32 ∧ y.rg THM_SUP2_VRING = m.vring.setWidth 32 ∧
       (d ≠ .host → y.rg THM_SUP1_VANA = m.vana.setWidth 32) ∧
       (d = .host → x.suspect 0 = false →
         y.rgN THM_STAT_BAND = bandOf (x.rgN THM_STAT_BAND) m.t0.toInt ∧ y.rgB THM_STAT_NOVALID = false) ∧
       y.mem = x.mem)) ∧
     (x.rs.thermal = false → sensor.toNat ∈ x.sensors → Answers (.thermalShutdown d sensor) s (fun t =>
       let y := t.dom d
       y.inReset = true ∧ y.rs.thermal = true ∧ y.rgN THM_SDSTAT_SDCNT = satN 15 (n + 1) ∧
         y.rgN THM_SDSTAT_SENSOR = sensor.toNat ∧ y.rgN THM_SDSTAT_LAST = x.rgN (THM_TEMP_T sensor.toNat) ∧
         ∀ c, d = .ch c → (t.ch c).rgB SYS_RSTSTAT_THERM = true ∧
           (x.inReset = false → (t.ch c).pwm = .reset) ∧ ∀ o, o ≠ c → t.ch o = s.ch o)) ∧
     (x.rs.thermal = true → Answers (.thermalShutdown d sensor) s (fun t => t = s)) ∧
     (x.rs = ⟨false, false, false, true⟩ → n ≤ x.rgN THM_SDCFG_SDMAX →
       Answers (.thermalRestart d) s (fun t => (t.dom d).inReset = false)) ∧
     (x.rgN THM_SDCFG_SDMAX < n ∨ x.rs.thermal = false → Answers (.thermalRestart d) s (fun t => t = s)) ∧
     (x.inReset = false → bitOf w 8 = false → DomAnswers (.sdclr d w) s d (fun y =>
       y.rg THM_SDCFG_SDMAX = x.rg THM_SDCFG_SDMAX ∧ y.rgN THM_SDSTAT_SDCNT = n ∧ y.mem = x.mem ∧ y.thm = x.thm)) ∧
     (x.inReset = false → bitOf w 8 = true → DomAnswers (.sdclr d w) s d (fun y =>
       y.rgN THM_SDSTAT_SDCNT = 0 ∧ y.rg THM_SDCFG_SDMAX = fget w 3 0 ∧ y.mem = x.mem ∧ y.thm = x.thm))) ∧
  (∀ (s : State) (c : Chan) (d : Dom) (b : BitVec 5) (offset : BitVec 16) (found ok : Bool) (m : RowMem) (row : Nat)
     (failing : List Nat) (k : Bank) (off : BitVec 16) (v w : Word), Placed s →
     let x := s.ch c
     let y₀ := s.dom d
     let r := y₀.spr
     let key := 131072 + 65536 * Bank.idx k + off.toNat
     let n := b.toNat
     let changed (i : Nat) : Nat := if i = 18 then x.pwm.genAt else sget 0 x.pwm.gateAt i / 32
     let told (y : Channel) (arg : Nat) : Prop := HasRoom x.dom 0x7D → Waits x.dom y.dom 0x7D arg
     let kept (y : Channel) : Prop := y.pwm = x.pwm ∧ y.adc = x.adc ∧ y.gdi = x.gdi ∧ y.live = x.live ∧
       y.dom.mem = x.dom.mem
     let saved (y : Domain) : Prop := y.spr.recRows = r.fixed ∧ y.spr.recList = r.list ∧ y.spr.saveReq = false ∧
       (∀ a ∈ recordKeys, sget 0 y.spr.record a = rget y₀.regs a) ∧ y.mem = y₀.mem
     (s.up c →
       (n ≤ 18 → x.rgB (SPR_GFAIL_FAIL.bit n) = false → changed n + x.rbwin ≤ x.now →
         sget 0 x.dom.spr.stageAt n + x.rbwin ≤ x.now + 1 → ChBecomes (.outputStageFault c b) s c (x.mapDom
           (·.setSpr (fun u => { u with bad := u.bad ||| BitVec.ofNat 19 (2 ^ n) })))) ∧
       (18 < n ∨ x.rgB (SPR_GFAIL_FAIL.bit n) = true ∨ x.now < changed n + x.rbwin →
         ChBecomes (.outputStageFault c b) s c x) ∧
       (∀ i at_, x.dom.spr.test = some (i, at_) → i < 7 → at_ + 4009 ≤ x.now →
         let beyond := x.rgN SPR_LIM_CMPOLIM * 5 < offset.toInt.natAbs
         let bad := found = false ∨ beyond
         ChAnswers (.comparatorTestDone c offset found) s c (fun y =>
           y.dom.spr.test = none ∧ y.rgB (SPR_CMP_TESTING.bit i) = false ∧
             y.rg (SPR_CMPOFF_WORK i) = offset.setWidth 32 ∧
             (bad → y.rgB (SPR_CMP_SPARE.bit i) = true ∧ told y (20 + 256 * i)) ∧
             (beyond → y.rgB SPR_STAT_WEARALM = true) ∧
             (¬bad → y.rgB (SPR_CMP_SPARE.bit i) = x.rgB (SPR_CMP_SPARE.bit i)) ∧ kept y)) ∧
       ((x.dom.spr.test = none ∨ ∃ i at_, x.dom.spr.test = some (i, at_) ∧ x.now < at_ + 4009) →
         ChBecomes (.comparatorTestDone c offset found) s c x) ∧
       (isPlanKey key = true →
         ChBecomes (.liveBankParityError c ⟨k, off, true, v⟩) s c
           { x with plan := rput x.plan key v, planBad := key :: x.planBad } ∧
         ChAnswers (.liveBankParityError c ⟨k, off, false, v⟩) s c (fun y =>
           y.rgB (SPR_STAT_LBPAR.bit (Bank.idx k)) = true ∧ y.live = rput x.live key v ∧ y.plan = x.plan ∧
             (x.rgB (SPR_STAT_LBPAR.bit (Bank.idx k)) = false → told y (105 + 256 * Bank.idx k)) ∧
             (x.rgB SPR_CTL_LBTRIP = true → y.dom.thm.tripReq = true) ∧ y.pwm = x.pwm ∧ y.adc = x.adc ∧
             y.gdi = x.gdi ∧ y.dom.mem = x.dom.mem)) ∧
       (isPlanKey key = false → ∀ p, ChBecomes (.liveBankParityError c ⟨k, off, p, v⟩) s c x) ∧
       (fget w 10 8 ≠ 1 → ChBecomes (.sprChangeStage c w) s c x) ∧ (fget w 10 8 ≠ 2 → ChBecomes (.sprSpareCell c w) s c x) ∧
       (fget w 10 8 = 1 → (fget w 4 0).toNat ≤ 18 → ChAnswers (.sprChangeStage c w) s c (fun y =>
         y.dom.spr.change = x.dom.spr.change ||| BitVec.ofNat 19 (2 ^ (fget w 4 0).toNat) ∧ kept y)) ∧
       (fget w 10 8 = 2 → (fget w 4 0).toNat ≤ 6 → ChBecomes (.sprSpareCell c w) s c
         (x.setB (SPR_CMP_SPARE.bit (fget w 4 0).toNat) true))) ∧
     (y₀.inReset = false →
       ((RowMem.idx m, row) ∈ r.fixing → DomAnswers (.rowRepairDone d m row) s d (fun y =>
         y.spr.fixed = r.fixed ++ [(RowMem.idx m, row)] ∧ (RowMem.idx m, row) ∉ y.spr.fixing ∧
           (∀ p ∈ r.fixing, p ≠ (RowMem.idx m, row) → p ∈ y.spr.fixing) ∧ y.mem = y₀.mem)) ∧
       ((RowMem.idx m, row) ∉ r.fixing → DomAnswers (.rowRepairDone d m row) s d (fun y => y.spr = r ∧ y.mem = y₀.mem)) ∧
       (y₀.rgB SPR_CTL_MARGIN = true → DomAnswers (.marginReadPass d failing) s d (fun y =>
         y.rgN SPR_ROWS_MRFAIL = satN 255 failing.length ∧
           y.spr.list = failing.foldl (fun l q => if l.contains q ∨ 32 ≤ l.length then l else l ++ [q]) r.list ∧
           (failing ≠ [] → y.rgB SPR_STAT_WEARALM = true) ∧ y.mem = y₀.mem)) ∧
       (y₀.rgB SPR_CTL_MARGIN = false → DomAnswers (.marginReadPass d failing) s d (fun y =>
         y.spr = r ∧ y.mem = y₀.mem)) ∧
       (s.dev.inhibit = false → DomAnswers (.wearRecordSave d true) s d saved ∧
         DomAnswers (.wearRecordSave d false) s d (fun y =>
           y.rgB SPR_STAT_RECERR = true ∧ y.spr.record = r.record ∧ y.mem = y₀.mem) ∧
         (fget w 10 8 = 3 → DomAnswers (.sprSaveRecord d w) s d saved)) ∧
       (fget w 10 8 ≠ 3 → DomAnswers (.sprSaveRecord d w) s d (fun y => y.spr = r ∧ y.mem = y₀.mem)) ∧
       (s.dev.inhibit = true → DomAnswers (.wearRecordSave d ok) s d (fun y =>
         y.spr = { r with saveReq := true } ∧ y.mem = y₀.mem)))) ∧
  (∀ (x : Channel) (n : Nat), n ≤ 18 →
     let y := x.stageEdge n
     let z := x.stageChange n
     let told (y : Channel) (arg : Nat) : Prop := HasRoom x.dom 0x7D → Waits x.dom y.dom 0x7D arg
     let other (y : Channel) : Prop := y.rgB (SPR_GSTAGE_SPARE.bit n) = (!x.rgB (SPR_GSTAGE_SPARE.bit n)) ∧
       sget 0 y.dom.spr.stageAt n = x.now
     let kept (y : Channel) : Prop := y.pwm = x.pwm ∧ y.adc = x.adc ∧ y.gdi = x.gdi ∧ y.live = x.live ∧
       y.dom.mem = x.dom.mem
     (x.dom.spr.bad.getLsbD n = false → y = x) ∧
     (x.dom.spr.bad.getLsbD n = true → y.dom.spr.bad.getLsbD n = false ∧ kept y ∧
       (x.rgB (SPR_GRET_RET.bit n) = false → other y ∧ y.rgB (SPR_GRET_RET.bit n) = true ∧
         y.rgB (SPR_GFAIL_FAIL.bit n) = x.rgB (SPR_GFAIL_FAIL.bit n) ∧ told y (19 + 256 * n)) ∧
       (x.rgB (SPR_GRET_RET.bit n) = true → y.rgB (SPR_GSTAGE_SPARE.bit n) = x.rgB (SPR_GSTAGE_SPARE.bit n) ∧
         y.rgB (SPR_GFAIL_FAIL.bit n) = true ∧ told y (51 + 256 * n) ∧
         (x.rgB SPR_CTL_BALLTRIP = true → y.dom.thm.tripReq = true))) ∧
     other z ∧ z.dom.spr.change.getLsbD n = false ∧ z.rgB (SPR_GRET_RET.bit n) = x.rgB (SPR_GRET_RET.bit n) ∧
     told z (35 + 256 * n) ∧ kept z)

/-! ## The Runnel ring (R465 to R492) -/

/-- A write of RING_CTL enables or disables the ports; links come up by way of alignment and go down with their waiting
frame, wrapping the port where WRAPEN = 1; a wrap ends UNWRAPT after the link is UP; a change of the by-pass loses the
frames in transit (R70, R467, R468, R476, R487). -/
def Obligations.RingPortsAndLinks : Prop :=
  ∀ (s : State) (p : Port) (w : Word),
    let h := s.host
    let d := h.dom
    let link := d.rgN (linkFld p)
    let code := portCode p
    let lost (x : PortSt) : Prop := x.fwd = [] ∧ x.out = []
    (d.inReset = false →
      HostAnswers (.portEnable w) s (fun y =>
        y.dom.rgB RING_CTL_PORTEN = bitOf w 0 ∧ y.dom.rgB RING_CTL_CMASTER = bitOf w 2 ∧
        y.dom.rgB RING_CTL_WRAPEN = bitOf w 3 ∧ y.dom.rgB RING_CTL_LLFORCE = bitOf w 4 ∧
        (bitOf w 0 = true → d.rgB RING_CTL_PORTEN = false → bitOf w 2 = true →
          y.ring.t2 = 0 ∧ y.dom.rgB RING_STAT_RTVALID = true) ∧
        (bitOf w 0 = false → d.rgB RING_CTL_PORTEN = true →
          y.dom.rgN RING_STAT_LINKA = 0 ∧ y.dom.rgN RING_STAT_LINKB = 0 ∧ lost y.ring.a ∧ lost y.ring.b) ∧
        (d.rgB RING_CTL_PORTEN = bitOf w 0 → y.ring = h.ring)) ∧
      (d.rgB RING_CTL_PORTEN = true →
        (link = 0 → HasRoom d (0x10 + code) → HostAnswers (.linkAlign p) s (fun y =>
          y.dom.rgN (linkFld p) = 1 ∧ Waits d y.dom (0x10 + code) 1 ∧ y.ring = h.ring)) ∧
        (link = 1 → HasRoom d (0x10 + code) → HostAnswers (.linkUp p) s (fun y =>
          y.dom.rgN (linkFld p) = 2 ∧ Waits d y.dom (0x10 + code) 2 ∧ (y.ring.port p).upAt = d.time ∧
            y.ring.port (otherPort p) = h.ring.port (otherPort p))) ∧
        (link ≠ 0 → HasRoom d (0x10 + code) → HostAnswers (.linkDown p) s (fun y =>
          y.dom.rgN (linkFld p) = 0 ∧ Waits d y.dom (0x10 + code) 0 ∧ lost (y.ring.port p) ∧
            y.dom.rgB (wrapFld p) = (d.rgB (wrapFld p) || d.rgB RING_CTL_WRAPEN) ∧
            y.ring.port (otherPort p) = h.ring.port (otherPort p)))) ∧
      (d.rgB (wrapFld p) = true → link = 2 →
        (h.ring.port p).upAt + 400 * atLeast1 (d.rgN RING_UNWRAP_UNWRAPT) ≤ d.time → (h.ring.port p).free ≤ d.time →
        HasRoom d 0x12 → HostAnswers (.unwrap p) s (fun y =>
          y.dom.rgB (wrapFld p) = false ∧ Waits d y.dom 0x12 code ∧ y.ring = h.ring))) ∧
    (d.rgB RING_STAT_BYPASS ≠ s.bypassClosed → HostAnswers .bypassChange s (fun y =>
      y.dom.rgB RING_STAT_BYPASS = s.bypassClosed ∧ lost y.ring.a ∧ lost y.ring.b)) ∧
    (d.rgB RING_STAT_BYPASS = s.bypassClosed → Answers .bypassChange s (fun t => t = s))

/-- A frame is discarded for its header CRC or for having no hops left, taken at its destination, and forwarded
otherwise with one hop fewer; a node's own frames leave in the order of R474, within R480's window, and an outstanding
access of a core becomes a request (R472 to R474, R480, R485). -/
def Obligations.RingFrames : Prop :=
  ∀ (s : State) (p : Port) (f : List Byte),
    let h := s.host
    let d := h.dom
    let q := otherPort p
    let up : Prop := d.inReset = false ∧ h.enabled = true ∧ d.rgN (linkFld p) = 2
    let plain : Prop := fBroadcast f = false ∧ isNeighbour f = false
    let sent (y : HostDom) (p : Port) (g : List Byte) : Prop :=
      (y.ring.port p).out = g ∧ (y.ring.port p).free = d.time + airTime g.length
    (up → hcrcOk f = false → HasRoom d 0x1B → HostAnswers (.frameReceive p f) s (fun y =>
      y.dom.rgN RING_ERRCNT_HCRC = satN 255 (d.rgN RING_ERRCNT_HCRC + 1) ∧ Waits d y.dom 0x1B 0 ∧ y.ring = h.ring)) ∧
    (up → hcrcOk f = true → fType f ≠ 1 → fType f ≠ 5 → plain →
      (fDst f = h.node → wellFormedFrame f = true → pcrcOk f = true → (fType f = 6 → fSub f = 4) →
        HostAnswers (.frameReceive p f) s (fun y => y.ring = h.ring ∧ ∃ n, Counted { d with fresh := n } y.dom)) ∧
      (fDst f = h.node → wellFormedFrame f = true → pcrcOk f = true → fType f = 6 →
        fSub f = 0 ∨ fSub f = 3 ∨ 4 < fSub f →
        HasRoom d 0x32 → HostAnswers (.frameReceive p f) s (fun y => y.ring = h.ring ∧ Waits d y.dom 0x32 (fSub f))) ∧
      (fDst f = h.node → wellFormedFrame f = true → pcrcOk f = false → HasRoom d 0x1B →
        HostAnswers (.frameReceive p f) s (fun y => y.ring = h.ring ∧ Waits d y.dom 0x1B 1 ∧
          y.dom.rgN RING_ERRCNT_PCRC = satN 255 (d.rgN RING_ERRCNT_PCRC + 1))) ∧
      (fDst f ≠ h.node → fHops f = 0 → HasRoom d 0x1B →
        HostAnswers (.frameReceive p f) s (fun y => y.ring = h.ring ∧ Waits d y.dom 0x1B 3 ∧
          y.dom.rgN RING_ERRCNT_HOP = satN 255 (d.rgN RING_ERRCNT_HOP + 1))) ∧
      (fDst f ≠ h.node → fHops f ≠ 0 → d.rgB (wrapFld q) = false → d.rgN (linkFld q) = 2 →
        ((h.ring.port q).free ≤ d.time → (h.ring.port q).fwd = [] → HostAnswers (.frameReceive p f) s (fun y =>
          sent y q (forwarded f) ∧ y.ring.port p = h.ring.port p)) ∧
        (d.time < (h.ring.port q).free → HostAnswers (.frameReceive p f) s (fun y =>
          y.ring.port q = { h.ring.port q with fwd := (h.ring.port q).fwd ++ [forwarded f] } ∧ y.ring.port p = h.ring.port p)))) ∧
    (up → d.rgB RING_STAT_DUPID = false → d.rgB (wrapFld p) = false → (h.ring.port p).free ≤ d.time →
      (h.ring.port p).fwd = [] →
      (∀ rest, h.ring.mine = (p, f) :: rest → frameClass f = 0 → h.windowOpen p f.length = true →
        HostAnswers (.frameSend p) s (fun y => sent y p f ∧ y.ring.mine = rest ∧ y.ring.reqs = h.ring.reqs)) ∧
      (∀ w, h.ring.mine = [] → h.ring.reqs = [] → s.nextWant p = some w →
        let req : RingReq := ⟨h.ring.nextTag, w.d, w.e, w.seq, w.write, ringNode w.addr, ringOff w.addr, w.data,
          some d.time, 0, none⟩
        h.windowOpen p (h.reqFrame p req).length = true →
        HostAnswers (.frameSend p) s (fun y => sent y p (h.reqFrame p req) ∧ y.ring.reqs = [req] ∧
          y.ring.nextTag = (h.ring.nextTag + 1) % 256)) ∧
      (s.nextFrame p = none → Answers (.frameSend p) s (fun t => t = s)))

/-- Cycles, cyclic copies and ring time: the edge at which ring time reaches a multiple of the cycle period begins a cycle,
with its number and EV_RCYC; a cycle without a valid cyclic frame is missed, LLCYC of them lose the ring, and 16 without a
usable time frame make ring time invalid; TX words are read once before the cycle, RX words go to their destination; a
cyclic frame that passes goes on with the TX words, and the node's own is kept; the first good time frame of a cycle trims
ring time, or sets it where it is more than 1,000 ns off (R475 to R479, R489). -/
def Obligations.RingCyclesAndTime : Prop :=
  (∀ x : HostDom,
    let y := x.cycleBegin
    let cyc := x.rt / x.cycPer
    let none := !x.ring.timed && !x.rgB RING_CTL_CMASTER
    let whole := x.rgB RING_CTL_CMASTER = false ∨ (x.rgB RING_STAT_WRAPA = false ∧ x.rgB RING_STAT_WRAPB = false)
    y.rgN RING_CYCNT_CYC = cyc % 4294967296 ∧ (HasRoom x.dom 0x16 → Waits x.dom y.dom 0x16 (cyc % 65536)) ∧
    y.ring.timed = false ∧ y.ring.txReady = false ∧ y.ring.txFresh = x.ring.txReady ∧ y.ring.t2 = x.ring.t2 ∧
    (whole → y.ring.seen = false ∧ y.ring.missed = (if x.ring.seen then x.ring.missed else x.ring.missed + 1) ∧
      y.rgB RING_STAT_RLOST = (x.rgB RING_STAT_RLOST ||
        (!x.ring.seen && decide (atLeast1 (x.rgN RING_CYC_LLCYC) ≤ x.ring.missed + 1)))) ∧
    (x.ring.seen = false → HasRoom x.dom 0x18 → Waits x.dom y.dom 0x18 (x.rgN RING_CYCNT_CYC % 65536)) ∧
    y.ring.noTime = (if none then x.ring.noTime + 1 else 0) ∧
    y.rgB RING_STAT_RTVALID = (x.rgB RING_STAT_RTVALID && !(none && decide (16 ≤ x.ring.noTime + 1))) ∧
    (x.rgB RING_STAT_RTVALID = true → y.rgB RING_STAT_RTVALID = false → HasRoom x.dom 0x14 → Waits x.dom y.dom 0x14 0)) ∧
  (∀ (s : State) (p : Port) (f : List Byte) (q : BitVec 4) (own : Nat),
    let h := s.host
    let d := h.dom
    let up : Prop := d.inReset = false ∧ h.enabled = true ∧ d.rgN (linkFld p) = 2
    let good : Prop := hcrcOk f = true ∧ wellFormedFrame f = true ∧ pcrcOk f = true
    let slots := payloadWords f
    let off : Int := ((slots.getD 0 0).toNat + 4294967296 * (slots.getD 1 0).toNat : Nat) +
      ((slots.getD 2 0).toNat + d.rgN (delayFld p) : Nat) - (h.rt : Nat)
    let read (y : HostDom) : Prop := ∀ k e, k < 16 → h.copyEntry k = some e → e.rx = false →
      e.inRange h.slotCount = true → sget [] y.ring.tx k = s.txWords e
    let before := h.cycPer ≤ h.rt % h.cycPer + d.rgN RING_CFRM_CPREP
    let seen (y : HostDom) : Prop := y.ring.seen = true ∧ y.dom.rgB RING_STAT_RLOST = false ∧
      (h.ring.seen = false → y.ring.missed = 0 ∧ (HasRoom d 0x17 → Waits d y.dom 0x17 (fPath f)))
    (d.inReset = false → h.cycleDue = true → HostBecomes .cycleStart s h.tick ∧
      (h.ring.seen = false → HostBecomes .cycleMiss s h.tick) ∧
      (d.rgB RING_STAT_RTVALID = true → d.rgB RING_CTL_CMASTER = false → h.ring.timed = false → 15 ≤ h.ring.noTime →
        HostBecomes .ringTimeInvalid s h.tick)) ∧
    (h.cycleDue = false → ∀ i ∈ [Instr.cycleStart, .cycleMiss, .ringTimeInvalid], HostBecomes i s h) ∧
    (d.inReset = false → h.enabled = true → h.ring.txReady = false → before → HostAnswers .cyclicTxPrepare s (fun y =>
      y.ring.txReady = true ∧ y.ring.txFresh = h.ring.txFresh ∧ read y)) ∧
    (d.inReset = false → h.enabled = true → h.ring.txFresh = false → h.ring.txReady = true ∨ ¬before →
      HostAnswers .cyclicTxPrepare s (fun y =>
        y.ring.txReady = h.ring.txReady ∧ y.ring.txFresh = true ∧ read y)) ∧
    (up → hcrcOk f = false → ∀ i ∈ [(Instr.cyclicFrame p f, 1), (.timeFrame p f own, 5)], fType f = i.2 →
      HostAnswers i.1 s (fun y => y.dom.rgN RING_ERRCNT_HCRC = satN 255 (d.rgN RING_ERRCNT_HCRC + 1) ∧
        (HasRoom d 0x1B → Waits d y.dom 0x1B 0) ∧ y.ring = h.ring)) ∧
    (up → good → fType f = 1 → fSrc f = h.node → fWraps f ≠ 1 → HostAnswers (.cyclicFrame p f) s (fun y =>
      (if fPath f = 0 then y.ring.prevA = slots else y.ring.prevB = slots) ∧ seen y)) ∧
    (up → good → fType f = 1 → fSrc f ≠ h.node → fHops f ≠ 0 → HostAnswers (.cyclicFrame p f) s (fun y => seen y ∧
      y.ring.prevA = h.ring.prevA ∧ y.ring.prevB = h.ring.prevB ∧
      ((∀ k, h.copyEntry k = none) → d.rgB (wrapFld (otherPort p)) = false → d.rgN (linkFld (otherPort p)) = 2 →
        (h.ring.port (otherPort p)).free ≤ d.time → (h.ring.port (otherPort p)).fwd = [] → (y.ring.port (otherPort p)).out =
          rehead (repay f slots) (fput (frameWord (repay f slots) 0) 16 12 (BitVec.ofNat 32 (fHops f - 1)))))) ∧
    (∀ e, d.inReset = false → h.copyEntry q.toNat = some e → e.rx = true → sget [] h.ring.rx q.toNat ≠ [] →
      let ws := sget [] h.ring.rx q.toNat
      (e.unit = 4 → HostAnswers (.cyclicRxCopy q) s (fun y =>
        (∀ i, i < ws.length → y.dom.rg (RING_CRX_D (e.woff + i)) = ws.getD i 0) ∧ sget [] y.ring.rx q.toNat = [])) ∧
      (e.unit < 4 → (s.ch (chanOf e.unit)).dom.inReset = false → Answers (.cyclicRxCopy q) s (fun t =>
        (∀ i, i < ws.length → (t.ch (chanOf e.unit)).word (0x400E1000 + 4 * (e.woff + i)) = ws.getD i 0) ∧
          (HasRoom (s.ch (chanOf e.unit)).dom 0x7E →
            Waits (s.ch (chanOf e.unit)).dom (t.ch (chanOf e.unit)).dom 0x7E (e.woff + 2048)) ∧
          t.dev = s.dev ∧ t.pending = s.pending))) ∧
    (up → good → fType f = 5 → fSrc f ≠ h.node → fHops f ≠ 0 →
      (d.rgB RING_CTL_CMASTER = true → HostAnswers (.timeFrame p f own) s (fun y =>
        y.dom.rgB RING_STAT_MCONF = true ∧ y.ring.t2 = h.ring.t2)) ∧
      (d.rgB RING_CTL_CMASTER = false → h.ring.timed = false →
        (off.natAbs ≤ 1000 → HostAnswers (.timeFrame p f own) s (fun y =>
          y.ring.timed = true ∧ y.ring.noTime = 0 ∧ y.ring.trim = some (wordOfInt off) ∧ y.ring.t2 = h.ring.t2 ∧
            y.dom.rg RING_RTOFS_OFFS = wordOfInt off)) ∧
        (1000 < off.natAbs → HostAnswers (.timeFrame p f own) s (fun y =>
          y.ring.timed = true ∧ y.ring.trim = none ∧ y.ring.t2 = ((h.ring.t2 : Int) + 2 * off).toNat ∧
            y.dom.rgB RING_STAT_RTVALID = false)))) ∧
    (∀ n, s.up n → ChAnswers (.ringTimeCapture (.ch n)) s n (fun y =>
      y.rgN MBX_RTLO_T = h.rt % 4294967296 ∧ y.rgN MBX_RTHI_T = h.rt / 4294967296 % 4294967296 ∧
        y.rgN MBX_RTTSLO_T = (s.ch n).now % 4294967296 ∧ y.rgN MBX_RTTSHI_T = (s.ch n).now / 4294967296 % 4294967296 ∧
        y.pwm = (s.ch n).pwm)) ∧
    (d.inReset = false → HostAnswers (.ringTimeCapture .host) s (fun y =>
      y.dom.rgN RING_RTLO_T = h.rt % 4294967296 ∧ y.dom.rgN RING_RTHI_T = h.rt / 4294967296 % 4294967296 ∧
        y.ring = h.ring)))

/-- A remote read or write that is permitted is served and answered, a refused one is answered with its status and
EV_RDENY, a repeated tag with the stored response; a response completes its request, and a timeout repeats it up to
RETRY times; management frames and the doorbell do as R486, R491 and R492 say (R482 to R486). -/
def Obligations.RingMemoryAndManagement : Prop :=
  ∀ (s : State) (p : Port) (src : BitVec 4) (tag : BitVec 8) (addr w : Word) (rcnt : Nat) (data : List Word)
    (stat : BitVec 4) (delay : BitVec 16) (evs : List Nat),
    let h := s.host
    let d := h.dom
    let reply (st : Nat) (ws : List Word) : Port × List Byte :=
      (p, mkFrame 4 src.toNat h.node tag.toNat (portCode p) 31 ws.length st (BitVec.ofNat 32 addr.toNat) ws)
    let fresh : Prop := h.ring.last.find? (fun l => l.src == src.toNat && l.tag == tag.toNat) = none
    let words := (List.range rcnt).map (fun i => s.targetWord (addr.toNat + 4 * i))
    d.inReset = false →
    (h.enabled = true →
      (fresh → s.accessStatus src.toNat addr.toNat rcnt false = 0 →
        HostAnswers (.remoteRead p src tag addr rcnt) s (fun y =>
          y.ring.mine = h.ring.mine ++ [reply 0 words] ∧ (⟨src.toNat, tag.toNat, 0, words⟩ : LastReq) ∈ y.ring.last ∧
            y.ring.reqs = h.ring.reqs)) ∧
      (fresh → s.accessStatus src.toNat addr.toNat rcnt false ≠ 0 → HasRoom d 0x31 →
        HostAnswers (.remoteRead p src tag addr rcnt) s (fun y =>
          y.ring.mine = h.ring.mine ++ [reply (s.accessStatus src.toNat addr.toNat rcnt false) []] ∧
            y.ring.last = h.ring.last ∧ Waits d y.dom 0x31 src.toNat)) ∧
      (∀ l, h.ring.last.find? (fun l => l.src == src.toNat && l.tag == tag.toNat) = some l →
        HostAnswers (.remoteRead p src tag addr rcnt) s (fun y =>
          y.ring.mine = h.ring.mine ++ [reply l.stat.toNat l.data] ∧ y.dom = d)) ∧
      (∀ c i, fresh → s.accessStatus src.toNat addr.toNat data.length true = 0 →
        targetOf addr.toNat = .mailbox c i → Answers (.remoteWrite p src tag addr data) s (fun t =>
          t.host.ring.mine = h.ring.mine ++ [reply 0 []] ∧
            (∀ j, j < data.length → (t.ch c).word (0x400E1000 + 4 * (i + j)) = data.getD j 0) ∧
            (HasRoom (s.ch c).dom 0x7E → Waits (s.ch c).dom (t.ch c).dom 0x7E (i + 1024)) ∧
            ∀ n, n ≠ c → t.ch n = s.ch n)) ∧
      (fresh → s.accessStatus src.toNat addr.toNat data.length true ≠ 0 →
        HostAnswers (.remoteWrite p src tag addr data) s (fun y =>
          y.ring.mine = h.ring.mine ++ [reply (s.accessStatus src.toNat addr.toNat data.length true) []])) ∧
      (HasRoom d 0x32 → HostAnswers (.neighbourDelayRequest p) s (fun y =>
          y.ring.mine = h.ring.mine ++
            [(p, mkFrame 6 ((h.node + 1) % 16) h.node 0 (portCode p) 0 0 0 2 [])] ∧ Waits d y.dom 0x32 1) ∧
        HostAnswers (.neighbourDelayReply p delay) s (fun y =>
          y.dom.rg (delayFld p) = delay.setWidth 32 ∧ Waits d y.dom 0x32 2 ∧ y.ring = h.ring) ∧
        HostAnswers (.eventReport p src evs) s (fun y => Waits d y.dom 0x32 4 ∧ y.ring = h.ring) ∧
        HostAnswers (.discovery p src) s (fun y => Waits d y.dom 0x32 3 ∧
          (src.toNat = h.node → y.dom.rgB RING_STAT_DUPID = true ∧ y.ring = h.ring) ∧
          (src.toNat ≠ h.node → y.ring.mine = h.ring.mine ++
            [(p, mkFrame 6 src.toNat h.node 0 (portCode p) 31 0 0 3 ((List.range 11).map s.infoWord))]))) ∧
      (d.rgN (linkFld p) = 2 → HostAnswers (.linkDelayMeasure p) s (fun y =>
        y.ring.mine = h.ring.mine ++ [(p, mkFrame 6 ((h.node + 1) % 16) h.node 0 (portCode p) 0 0 0 1 [])]))) ∧
    HostAnswers (.response tag stat w) s (fun y =>
      y.ring.reqs = h.ring.reqs.map (fun q =>
        if q.tag = tag.toNat ∧ q.reply = none then { q with reply := some (stat, w) } else q) ∧
      y.ring.mine = h.ring.mine ∧ Counted d y.dom) ∧
    (∀ q ∈ h.ring.reqs, ∀ t, q.tag = tag.toNat → q.reply = none → q.sent = some t →
      t + 40 * atLeast1 (d.rgN RING_RACFG_RATMO) ≤ d.time + 1 → HostBecomes (.remoteAccessTimeout tag) s h.tick) ∧
    ((∀ q ∈ h.ring.reqs, q.tag = tag.toNat → q.reply.isSome = true ∨ q.sent = none) →
      HostBecomes (.remoteAccessTimeout tag) s h) ∧
    h.timeouts = h.setRing (fun r => { r with reqs := r.reqs.map (fun q =>
      if q.reply = none ∧ ∃ t, q.sent = some t ∧ t + 40 * atLeast1 (d.rgN RING_RACFG_RATMO) ≤ d.time then
        (if q.tries < d.rgN RING_RACFG_RETRY then { q with sent := none, tries := q.tries + 1 }
        else { q with reply := some (4, 0) })
      else q) }) ∧
    (∀ c, s.up c → HasRoom d (0x60 + 4 * c.idx) → HostAnswers (.mbxDoor c w) s (fun y =>
      Waits d y.dom (0x60 + 4 * c.idx) (fget w 15 0).toNat ∧ y.ring = h.ring)) ∧
    HostAnswers .ringErrcntClear s (fun y => y.dom.rgN RING_ERRCNT_HCRC = 0 ∧ y.dom.rgN RING_ERRCNT_PCRC = 0 ∧
      y.dom.rgN RING_ERRCNT_HOP = 0 ∧ y.dom.rgN RING_ERRCNT_FMT = 0 ∧ y.ring = h.ring)

/-! ## Staging, update and the host boot ROM (R493 to R519) -/

/-- UPD_STGCTL and UPD_CMD act only with their key: they open, seal and close a staging session and ask for a revert; a
chunk from the update source is taken into a buffer and written to its area in turn, any other is refused with EV_UCHUNK;
under write-inhibit none of them writes: control writes wait in turn (R84, R508, R509, R514, R518; log 81). -/
def Obligations.StagingAndChunks : Prop :=
  ∀ (s : State) (p : Port) (src : BitVec 4) (tag : BitVec 8) (head w : Word) (data : List Word),
    let h := s.host
    let d := h.dom
    let stg := d.rgN UPD_STAT_STG
    let area := (fget head 31 28).toNat
    let off := (fget head 23 0).toNat
    let kept (y : HostDom) : Prop := y.ring = h.ring
    let does (i : Instr) (P : HostDom → Prop) : Prop := Answers i s (fun t => P t.host ∧ HostSide s t)
    (fget w 31 16 ≠ 0x5A3C → ∀ i ∈ [Instr.stagingOpen w, .stagingClose w, .stagingSeal w, .revert w, .cancel w],
      Answers i s (fun t => t = s)) ∧
    (∀ p ∈ [(Instr.stagingOpen w, 0), (.stagingClose w, 1), (.stagingSeal w, 2), (.revert w, 0), (.cancel w, 1)],
      bitOf w p.2 = false → Answers p.1 s (fun t => t = s)) ∧
    (d.inReset = false → fget w 31 16 = 0x5A3C → s.dev.inhibit = false →
      (∀ p ∈ [(Instr.stagingOpen w, 0), (.stagingClose w, 1), (.stagingSeal w, 2)], bitOf w p.2 = true →
        does p.1 (fun y => y = h.stgctl w)) ∧
      ∀ p ∈ [(Instr.revert w, 0), (.cancel w, 1)], bitOf w p.2 = true → does p.1 (fun y => y = h.updCmd w)) ∧
    (d.inReset = false → s.dev.inhibit = true →
      (fget w 31 16 = 0x5A3C →
        ∀ p ∈ [(Instr.stagingOpen w, 0, false), (.stagingClose w, 1, false), (.stagingSeal w, 2, false), (.revert w, 0, true),
          (.cancel w, 1, true)], bitOf w p.2.1 = true →
          does p.1 (fun y => y = { h with upd := { h.upd with waiting := h.upd.waiting ++ [(p.2.2, w)] } })) ∧
      ∀ i ∈ [Instr.stagingSealDone, .updateChunkWritten], Answers i s (fun t => t = s)) ∧
    (d.inReset = false → s.dev.inhibit = false →
      (h.pendingBit = false → propOf h.act = false → does (.stagingOpen 0x5A3C0001) (fun y =>
        y.dom.rgN UPD_STAT_STG = 1 ∧ y.word 0x20001000 = 0 ∧ y.revpend = false ∧ y.revok = false ∧
          y.upd = { h.upd with sealing := false } ∧ kept y)) ∧
      (h.pendingBit = true ∨ propOf h.act = true → does (.stagingOpen 0x5A3C0001) (fun y => y = h)) ∧
      does (.stagingClose 0x5A3C0002) (fun y => y.dom.rgN UPD_STAT_STG = 0 ∧ y.pendingBit = false ∧
        y.revpend = h.revpend ∧ y.revok = h.revok ∧ y.upd.sealing = false ∧ kept y) ∧
      (stg = 1 → does (.stagingSeal 0x5A3C0004) (fun y => y = { h with upd := { h.upd with sealing := true } })) ∧
      (h.upd.sealing = true → h.upd.bufs = [] → stg = 1 → does .stagingSealDone (fun y =>
        y.dom.rgN UPD_STAT_STG = 2 ∧ y.pendingBit = true ∧ y.dom.rgB UPD_STAT_PENDING = true ∧
          y.upd.sealing = false ∧ kept y)) ∧
      does (.cancel 0x5A3C0002) (fun y => y.pendingBit = false ∧ y.revpend = false ∧ y.revok = h.revok ∧ y.upd = h.upd ∧
        kept y) ∧
      (h.revok = true → h.pendingBit = false → does (.revert 0x5A3C0001) (fun y =>
        y.revpend = true ∧ y.pendingBit = false ∧ y.revok = true ∧ y.upd = h.upd ∧ kept y)) ∧
      (h.revok = false ∨ h.pendingBit = true → does (.revert 0x5A3C0001) (fun y => y = h)) ∧
      (h.ring.last.any (fun l => l.src == src.toNat && l.tag == tag.toNat) = false →
        src.toNat = d.rgN RING_UPDSRC_NODE → d.rgB RING_UPDSRC_EN = true → stg = 1 → h.upd.sealing = false →
        (off % 4 = 0 → data.length ≤ 250 → areaSize area ≠ 0 → off + 4 * data.length ≤ areaSize area →
          (1 ≤ area → area ≤ 5 → s.runsFrom area = false) →
          (h.upd.bufs.length < 2 → HostAnswers (.updateChunk p src tag head data) s (fun y =>
            y.upd = { h.upd with bufs := h.upd.bufs ++ [⟨p, src.toNat, tag.toNat, area, off, data⟩] } ∧ y.dom = d ∧
              kept y)) ∧
          (2 ≤ h.upd.bufs.length → HostAnswers (.updateChunk p src tag head data) s (fun y =>
            y.dom.rgN UPD_CNT_DROPPED = satN 255 (d.rgN UPD_CNT_DROPPED + 1) ∧ y.upd = h.upd ∧ kept y))) ∧
        ((off % 4 ≠ 0 ∨ 250 < data.length ∨ areaSize area < off + 4 * data.length) → HasRoom d 0x41 →
          HostAnswers (.updateChunk p src tag head data) s (fun y =>
            y.dom.rgN UPD_CNT_REFUSED = satN 255 (d.rgN UPD_CNT_REFUSED + 1) ∧ Waits d y.dom 0x41 (1 + 16 * area) ∧
              y.upd = h.upd))) ∧
      (h.ring.last.any (fun l => l.src == src.toNat && l.tag == tag.toNat) = false →
        (src.toNat ≠ d.rgN RING_UPDSRC_NODE ∨ d.rgB RING_UPDSRC_EN = false ∨ stg ≠ 1) → HasRoom d 0x41 →
        HostAnswers (.updateChunk p src tag head data) s (fun y =>
          y.dom.rgN UPD_CNT_REFUSED = satN 255 (d.rgN UPD_CNT_REFUSED + 1) ∧ Waits d y.dom 0x41 (3 + 16 * area) ∧
            y.upd = h.upd)) ∧
      (∀ k rest, h.upd.bufs = k :: rest →
        let a := h.areaKey k.area + k.off
        (areaChan k.area = none → does .updateChunkWritten (fun y =>
          (∀ j, j < k.data.length → y.word (a + 4 * j) = k.data.getD j 0) ∧ y.upd = { h.upd with bufs := rest } ∧
            y.dom.rgN UPD_CNT_TAKEN = satN 65535 (d.rgN UPD_CNT_TAKEN + 1))) ∧
        (∀ n, areaChan k.area = some n → (s.ch n).dom.inPhase 4 = false → Answers .updateChunkWritten s (fun t =>
          (∀ j, j < k.data.length → (t.ch n).word (a + 4 * j) = k.data.getD j 0) ∧
            t.host.upd = { h.upd with bufs := rest } ∧ t.host.dom.mem = d.mem ∧
            t.host.dom.rgN UPD_CNT_TAKEN = satN 65535 (d.rgN UPD_CNT_TAKEN + 1) ∧ ∀ o, o ≠ n → t.ch o = s.ch o)) ∧
        (∀ n, areaChan k.area = some n → (s.ch n).dom.inPhase 4 = true → Answers .updateChunkWritten s (fun t => t = s)))) ∧
    (d.inReset = false → HostAnswers .updCntClear s (fun y => y.dom.rgN UPD_CNT_TAKEN = 0 ∧
      y.dom.rgN UPD_CNT_REFUSED = 0 ∧ y.dom.rgN UPD_CNT_DROPPED = 0 ∧ y.upd = h.upd ∧ kept y))

/-- The host boot ROM: H6 goes on to the checks of a pending update; H7 and H8 refuse it with the first failing check;
H9 activates it under the next generation number, or reverts, or does nothing; H10 selects the active image, reverts or stops;
H11 releases the cores and completes boot (R501, R510 to R515). -/
def Obligations.HostBootRom : Prop :=
  ∀ (s : State) (r : RomReport), Placed s → s.dev.inhibit = false → (∀ n, (s.ch n).dom.inPhase 4 = false) →
    let h := s.host
    let d := h.dom
    let phase (t : State) (n : Nat) : Prop := t.host.dom.rgN BOOT_STAT_PHASE = n
    let goes (P : State → Prop) : Prop := Answers (.hostRomPhaseDone r) s (fun t => P t ∧ t.pending = s.pending)
    let svn := (fget (h.man 2) 15 0).toNat
    let first : Nat :=
      if h.formatOk = false then 3 else if s.keySlotOk = false ∨ r.keyOk = false then 4 else if r.sigOk = false then 5
      else if svn < s.floor then 6 else 0
    let refused (t : State) (code part : Nat) : Prop :=
      phase t 9 ∧ t.host.pendingBit = false ∧ t.host.dom.rgN UPD_STAT_RESULT = code ∧
        t.host.dom.rgN UPD_STAT_PART = part ∧ t.host.act = h.act ∧ t.host.prev = h.prev
    (d.inPhase 6 = true →
      let a := if r.actBad then h.word 0x20000004 else h.act
      (propOf a = false → goes (fun t =>
        phase t (if h.pendingBit then 7 else 9) ∧ t.host.act = a ∧ t.host.dom.rg UPD_ACT_ACT = a)) ∧
      (propOf a = true → goes (fun t => phase t 9 ∧ t.host.act = fput a 9 9 0 ∧ t.host.pendingBit = false ∧
        t.host.dom.rgN UPD_STAT_RESULT = 11 ∧ svnOf a ≤ t.floor ∧
        ∀ n, (t.ch n).word 0x201E0000 = BitVec.ofNat 32 (1024 * genOf a) + 2 * ofB (cfgOf a n) + ofB (codeOf a n)))) ∧
    (d.inPhase 7 = true → first = 0 → goes (fun t => phase t 8 ∧ t.host.dom.mem = d.mem)) ∧
    (d.inPhase 7 = true → first ≠ 0 → goes (fun t => refused t first 15)) ∧
    (d.inPhase 8 = true → (∀ k, k < 9 → s.partResult r k = 0) → goes (fun t => phase t 9 ∧ t.host.dom.mem = d.mem)) ∧
    (∀ k, k < 9 → d.inPhase 8 = true → (∀ j, j < k → s.partResult r j = 0) → s.partResult r k ≠ 0 →
      goes (fun t => refused t (s.partResult r k) k)) ∧
    (d.inPhase 9 = true → h.revpend = false → h.pendingBit = true → goes (fun t =>
      phase t 10 ∧ t.host.prev = h.act ∧ genOf t.host.act = (genOf h.act + 1) % 64 ∧ svnOf t.host.act = svn ∧
        propOf t.host.act = false ∧ t.host.pendingBit = false ∧ t.host.revok = true ∧
        t.host.dom.rgN UPD_STAT_RESULT = 1 ∧ (t.dev.revoked0 = (s.dev.revoked0 || h.revoke0)))) ∧
    (d.inPhase 9 = true → h.revpend = true → s.mayRevert r.revertOk = true → goes (fun t =>
      phase t 10 ∧ fget t.host.act 8 0 = fget h.prev 8 0 ∧ svnOf t.host.act = svnOf h.prev ∧
        genOf t.host.act = (genOf h.act + 1) % 64 ∧ t.host.revpend = false ∧ t.host.revok = false ∧
        t.host.dom.rgN UPD_STAT_RESULT = 2)) ∧
    (d.inPhase 9 = true → h.revpend = true → s.mayRevert r.revertOk = false → goes (fun t =>
      phase t 10 ∧ t.host.act = h.act ∧ t.host.revpend = false ∧ t.host.dom.rgN UPD_STAT_RESULT = 10)) ∧
    (d.inPhase 9 = true → h.revpend = false → h.pendingBit = false → goes (fun t => phase t 10 ∧
      t.host.dom.mem = d.mem)) ∧
    (d.inPhase 10 = true → headerOk d.mem true (hostBankOf h.act) = true → r.imageOk = true → goes (fun t =>
      phase t 11 ∧ t.host.dom.bank = hostBankOf h.act ∧ t.host.dom.mem = d.mem)) ∧
    (d.inPhase 10 = true → h.revok = true → (headerOk d.mem true (hostBankOf h.act) = false ∨ r.imageOk = false) →
      (s.mayRevert r.revertOk = true → goes (fun t => phase t 10 ∧ fget t.host.act 8 0 = fget h.prev 8 0 ∧
        svnOf t.host.act = svnOf h.prev ∧ genOf t.host.act = (genOf h.act + 1) % 64 ∧ t.host.revok = false ∧
        t.host.dom.rgN UPD_STAT_RESULT = 12)) ∧
      (s.mayRevert r.revertOk = false → goes (fun t => phase t 10 ∧ t.host.act = h.act ∧
        t.host.dom.rgN UPD_STAT_RESULT = 10 ∧ t.host.dom.rgN BOOT_STAT_FAIL =
          (if headerOk d.mem true (hostBankOf h.act) = false then 4 else 3)))) ∧
    (d.inPhase 10 = true → h.revok = false → (headerOk d.mem true (hostBankOf h.act) = false ∨ r.imageOk = false) →
      goes (fun t => phase t 10 ∧ t.host.dom.rgN BOOT_STAT_FAIL =
        (if headerOk d.mem true (hostBankOf h.act) = false then 4 else 3))) ∧
    (d.inPhase 11 = true → goes (fun t => phase t 255 ∧ t.host.dom.rgB BOOT_STAT_DONE = true ∧
      t.host.dom.rgB UPD_STAT_ROMGATE = false ∧ t.host.dom.mem = d.mem))

/-! ## The debug ports, counters and register writes (R12, R520 to R535) -/

/-- A transaction of a debug port: a wrong check gets no response, a request before authentication is refused but for
the registers R529 opens, and an admitted one is performed in its space, or held while the domain is busy (R528 to
R530). -/
def Obligations.DebugTransactions : Prop :=
  ∀ (s : State) (d : Dom) (q : DebugReq) (data : Word) (e : Eng) (r : BitVec 5),
    let x := s.dom d
    let a := q.addr.toNat
    let tells (y : Domain) (code : BitVec 4) (v : Word) : Prop := y.dbg.resp = code ∧ y.dbg.data = v
    let refuses (i : Instr) (code : BitVec 4) (flt : Nat) : Prop :=
      DomAnswers i s d (fun y => tells y code 0 ∧ y.rgN DBG_STAT_FLT = flt ∧ y.mem = x.mem ∧ ∀ e, y.core e = x.core e)
    let authed := x.rgB DBG_STAT_AUTH
    let value := BitVec.ofNat 32 (x.readMem a 4).1
    x.inReset = false →
    (x.dbg.held = none →
      (q.checkOk = false → ∀ i ∈ [Instr.debugRead d q, .debugWrite d q data], refuses i 0xF 4) ∧
      (q.checkOk = true → authed = false →
        (openAccess false q = false → refuses (.debugRead d q) 9 1) ∧
        (openAccess true q = false → refuses (.debugWrite d q data) 9 1)) ∧
      (q.checkOk = true → q.space = 0 → a = 0 → DomAnswers (.debugRead d q) s d (fun y => tells y 5 x.sysId)) ∧
      (q.checkOk = true → q.space = 0 → a = 0xC → DomAnswers (.debugRead d q) s d (fun y =>
        tells y 5 (rget x.regs DBG_STAT_FLT.reg))) ∧
      (q.checkOk = true → authed = true → q.space = 1 → a % 4 = 0 → x.area q.addr = .sram →
        (q.held = false → x.ahead q.addr = false → x.countBusy q.addr = false →
          DomAnswers (.debugRead d q) s d (fun y => tells y 5 value ∧ y.mem = x.mem) ∧
          (x.storeFails s.dev.inhibit q.addr = false → DomAnswers (.debugWrite d q data) s d (fun y =>
            tells y 5 0 ∧ y.mem = memPutWord x.mem a data))) ∧
        (q.held = true ∨ x.ahead q.addr = true ∨ x.countBusy q.addr = true → DomAnswers (.debugRead d q) s d (fun y =>
          tells y 6 0 ∧ y.mem = x.mem ∧
          y.dbg.held = some ⟨q, false, 0, none⟩))) ∧
      (q.checkOk = true → authed = true → q.space = 2 → a = 65536 * e.idx + 4 * r.toNat →
        (x.dbg.halted = false → refuses (.debugRead d q) 9 3) ∧
        (x.dbg.halted = true → e ∉ x.dbg.stepping →
          DomAnswers (.debugRead d q) s d (fun y => tells y 5 ((x.core e).rd r) ∧ ∀ e, y.core e = x.core e) ∧
          DomAnswers (.debugWrite d q data) s d (fun y =>
            tells y 5 0 ∧ y.core e = (x.core e).wr r data ∧ y.mem = x.mem)))) ∧
    (∀ h, x.dbg.held = some h → h.result = none → h.req.space = 1 → h.write = false → h.req.addr.toNat % 4 = 0 →
      x.area h.req.addr = .sram → x.ahead h.req.addr = false → x.countBusy h.req.addr = false →
      DomAnswers (.debugAccessComplete d) s d (fun y => y.mem = x.mem ∧
        y.dbg.held = some { h with result := some (some (BitVec.ofNat 32 (x.readMem h.req.addr.toNat 4).1)) })) ∧
    ((x.dbg.held = none ∨ ∃ h v, x.dbg.held = some h ∧ h.result = some v) →
      Answers (.debugAccessComplete d) s (fun t => t = s)) ∧
    DomAnswers (.debugPortAbort d) s d (fun y => y = { x with dbg := { x.dbg with resp := 0xF, data := 0 } })

/-- Authentication, and what it opens: a debug halt waits for a boundary and ends lockstep, RESUME and STEP go on from
it, Weir halts in the cycle after WHALT and Cascade at CHALT, and breakpoints and watchpoints halt, a breakpoint once for
each arrival at it (R303, R404, R529, R531, R533; log 32). -/
def Obligations.DebugHalting : Prop :=
  ∀ (s : State) (d : Dom) (c : Chan) (key w : Word) (b : BitVec 2) (k store : Bool),
    let x := s.dom d
    let y₀ := s.ch c
    let auth : Prop := x.inReset = false ∧ x.rgB DBG_STAT_AUTH = true
    let chAuth : Prop := s.up c ∧ y₀.rgB DBG_STAT_AUTH = true
    let kept (y : Channel) : Prop := y.pwm = y₀.pwm ∧ y.live = y₀.live ∧ y.dom.mem = y₀.dom.mem
    let n := x.rgN DBG_STAT_FAILCNT
    (x.inReset = false → x.rgB DBG_STAT_LOCKOUT = false →
      (key = s.debugKeyOf d → DomAnswers (.dbgAuth d key) s d (fun y => y.rgB DBG_STAT_AUTH = true)) ∧
      (key ≠ s.debugKeyOf d → n < 4 → DomAnswers (.dbgAuth d key) s d (fun y =>
        y.rgN DBG_STAT_FAILCNT = n + 1 ∧ y.rgB DBG_STAT_LOCKOUT = decide (n = 3) ∧
          y.rgB DBG_STAT_AUTH = x.rgB DBG_STAT_AUTH))) ∧
    (x.inReset = false → x.rgB DBG_STAT_LOCKOUT = true → DomAnswers (.dbgAuth d key) s d (fun y =>
      y.rgB DBG_STAT_AUTH = x.rgB DBG_STAT_AUTH ∧ y.rgB DBG_STAT_LOCKOUT = true)) ∧
    (x.rgB DBG_STAT_AUTH = false → ∀ i ∈ [Instr.haltreq d w, .resume d w, .step d w], Answers i s (fun t => t = s)) ∧
    (auth → ∀ p ∈ [(Instr.haltreq d w, 0), (.resume d w, 1), (.step d w, 2)],
      (bitOf w p.2 = true → Answers p.1 s (fun t => t = s.writeDbgCtl d w)) ∧
      (bitOf w p.2 = false → Answers p.1 s (fun t => t = s))) ∧
    (auth → x.dbg.halted = false → x.heldNow = false → DomAnswers (.haltreq d 1) s d (fun y =>
      y.dbg.want = some (x.dbg.want.getD 1) ∧ y.dbg.halted = false ∧ ∀ e, y.core e = x.core e)) ∧
    (auth → x.dbg.halted = false → x.heldNow = true → DomAnswers (.haltreq d 1) s d (fun y =>
      y.dbg.halted = true ∧ y.rgB DBG_STAT_HALTED = true ∧ y.rgN DBG_STAT_CAUSE = 1)) ∧
    (∀ cause, x.inReset = false → x.dbg.want = some cause → x.haltReady = true → x.booting = false →
      Answers (.debugHaltEffect d) s (fun t =>
        let y := t.dom d
        y.dbg.halted = true ∧ y.dbg.want = none ∧ y.rgB DBG_STAT_HALTED = true ∧
          y.rgN DBG_STAT_CAUSE = cause.toNat ∧ (x.dual = false → y.rgB LSC_STAT_DBG_BROKEN = true) ∧ y.mem = x.mem ∧
          ∀ m, d = .ch m → (t.ch m).weir.halted = ((s.ch m).weir.halted || (s.ch m).rgB DBG_CTL_XWEIR) ∧
            (t.ch m).cas.halted = ((s.ch m).cas.halted || (s.ch m).rgB DBG_CTL_XCAS) ∧
            ((s.ch m).rgB GDI_STAT_TPM = false → (t.ch m).pwm.frozen = true))) ∧
    (auth → Answers (.resume d 2) s (fun t =>
      let y := t.dom d
      y.dbg.halted = false ∧ y.rgB DBG_STAT_HALTED = false ∧ y.rgN DBG_STAT_CAUSE = 0 ∧ y.rgN DBG_STAT_BPHIT = 0 ∧
        y.rgN DBG_STAT_WPHIT = 0 ∧ y.mem = x.mem ∧ ∀ e, y.core e = x.core e)) ∧
    (auth → x.dbg.halted = true → DomAnswers (.step d 4) s d (fun y => y.dbg.halted = true ∧
      ∀ e, e ∈ y.dbg.stepping ↔ ({ x with dbg := { x.dbg with halted := false } } : Domain).runs e = true)) ∧
    (chAuth →
      (∀ p ∈ [(Instr.whalt c w, 3), (.wresume c w, 4), (.chalt c w, 5), (.cresume c w, 6)],
        (bitOf w p.2 = true → Answers p.1 s (fun t => t = s.writeDbgCtl (.ch c) w)) ∧
        (bitOf w p.2 = false → Answers p.1 s (fun t => t = s))) ∧
      ChAnswers (.whalt c 8) s c (fun y => y.weir = { y₀.weir with haltReq := true } ∧
        y.rgB DBG_STAT_WHALTED = y₀.rgB DBG_STAT_WHALTED ∧ y.cas = y₀.cas ∧ kept y) ∧
      ChAnswers (.wresume c 0x10) s c (fun y => y.weir = { y₀.weir with halted := false, haltReq := false } ∧
        y.rgB DBG_STAT_WHALTED = false ∧ y.cas = y₀.cas ∧ kept y) ∧
      ChAnswers (.chalt c 0x20) s c (fun y => y.cas = { y₀.cas with halted := true } ∧
        y.rgB DBG_STAT_CHALTED = true ∧ y.weir = y₀.weir ∧ kept y) ∧
      ChAnswers (.cresume c 0x40) s c (fun y => y.cas = { y₀.cas with halted := false } ∧
        y.rgB DBG_STAT_CHALTED = false ∧ y.weir = y₀.weir ∧ kept y)) ∧
    (∀ e, x.inReset = false → x.rgB (DBG_BP_EN b.toNat) = true → x.haltReady = true → x.runs e = true →
      (x.core e).wait = .none → fget (x.core e).pc 31 2 = x.rg (DBG_BP_ADDR b.toNat) → (e, (x.core e).pc) ∉ x.dbg.past →
      Answers (.breakpointHit d b) s (fun t => (t.dom d).dbg.halted = true ∧ (e, (x.core e).pc) ∈ (t.dom d).dbg.past ∧
        (t.dom d).rgB (DBG_STAT_BPHIT.bit b.toNat) = true ∧ (t.dom d).rgN DBG_STAT_CAUSE = 3)) ∧
    (x.rgB (DBG_BP_EN b.toNat) = false → Answers (.breakpointHit d b) s (fun t => t = s)) ∧
    (let i : Nat := if k then 1 else 0;
      x.inReset = false → x.dbg.halted = false → (store, w) ∈ x.cyc.accesses →
      (if store then x.rgB (DBG_WP_M_STORE i) else x.rgB (DBG_WP_M_LOAD i)) = true →
      fget (w ^^^ x.rg (DBG_WP_A_ADDR i)) 31 2 &&& x.rg (DBG_WP_M_MASK i) = 0 →
      DomAnswers (.watchpointHit d k store w) s d (fun y => y.rgB (DBG_STAT_WPHIT.bit i) = true ∧
        y.dbg.want = some (x.dbg.want.getD 4) ∧ y.mem = x.mem)) ∧
    ((store, w) ∉ x.cyc.accesses → x.inReset = false →
      DomAnswers (.watchpointHit d k store w) s d (fun y => y.dbg = x.dbg ∧ y.mem = x.mem)) ∧
    (∀ t, s.up c → y₀.rgB DBG_WBP_EN = true → y₀.weir.halted = false → y₀.weir.nextReady = some t →
      y₀.weir.past ≠ some (y₀.weir.th t).pc →
      (y₀.weir.th t).pc.setWidth 32 = y₀.rg DBG_WBP_SLOT → ChAnswers (.weirBreakpointHit c) s c (fun y =>
        y.weir = { y₀.weir with halted := true, haltReq := false, past := some (y₀.weir.th t).pc } ∧ y.rgB DBG_STAT_WBPHIT = true ∧ y.rgB DBG_STAT_WHALTED = true ∧
          y.cas = y₀.cas ∧ kept y)) ∧
    (∀ r, s.up c → y₀.rgB DBG_CBP_EN = true → y₀.cas.halted = false → y₀.cas.run = some r →
      y₀.cas.past ≠ some r.pc → r.pc.setWidth 32 = y₀.rg DBG_CBP_ADDR → ChAnswers (.cascadeBreakpointHit c) s c (fun y =>
        y.cas = { y₀.cas with halted := true, past := some r.pc } ∧ y.rgB DBG_STAT_CBPHIT = true ∧ y.rgB DBG_STAT_CHALTED = true ∧
          y.weir = y₀.weir ∧ kept y)) ∧
    (s.up c → y₀.rgB DBG_WBP_EN = false → ChBecomes (.weirBreakpointHit c) s c y₀) ∧
    (s.up c → y₀.rgB DBG_CBP_EN = false → ChBecomes (.cascadeBreakpointHit c) s c y₀) ∧
    (y₀.weir.haltReq = true → y₀.weirHaltEdge.weir = { y₀.weir with halted := true, haltReq := false } ∧
      y₀.weirHaltEdge.rgB DBG_STAT_WHALTED = true) ∧
    (y₀.weir.haltReq = false → y₀.weirHaltEdge = y₀)

/-- A counter read captures the count before its cycle for its reader, one in a cycle; clears act on their counter, but for what it gains in
the same cycle, or on the samples; EXTEST acts while the scan fuse is intact and VIO is good, and a register write acts by the access of its register: a plan register's write reaches the
plan bank, an event-enable register takes all its bits, an address outside the blocks changes nothing (R12, R148, R155,
R522, R526, R535). -/
def Obligations.CountersScanAndRegisterWrites : Prop :=
  ∀ (s : State) (d : Dom) (c : Chan) (e : Eng) (j : BitVec 9) (w addr : Word) (lo hi : BitVec 60),
    let x := s.dom d
    let count := sget 0 x.perf.cnt j.toNat + 281474976710656 - sget 0 x.cyc.gained j.toNat % 281474976710656
    (x.inReset = false → x.assigned (0xC1000 + 8 * j.toNat) = true → x.cyc.counted = false →
      DomAnswers (.perfCntloRead d e j) s d (fun y =>
        y = { x with
          perf := { x.perf with cap := sset 0 x.perf.cap e.idx (count % 281474976710656) }
          cyc := { x.cyc with counted := true } })) ∧
    (x.cyc.counted = true → Answers (.perfCntloRead d e j) s (fun t => t = s)) ∧
    (x.inReset = false → bitOf w 31 = true → DomAnswers (.perfCntclr d w) s d (fun y =>
      y.perf.cnt = x.cyc.gained ∧ y.mem = x.mem ∧ ∀ e, y.core e = x.core e)) ∧
    (x.inReset = false → bitOf w 31 = false → DomAnswers (.perfCntclr d w) s d (fun y =>
      y.perf.cnt = sset 0 x.perf.cnt (fget w 8 0).toNat (sget 0 x.cyc.gained (fget w 8 0).toNat) ∧ y.mem = x.mem ∧ ∀ e, y.core e = x.core e)) ∧
    (x.inReset = false → bitOf w 1 = true → DomAnswers (.perfSampleClear d w) s d (fun y =>
      y.perf.buf = [] ∧ y.rgN PERF_SMPSTAT_COUNT = 0 ∧ y.rgN PERF_SMPSTAT_NEXT = 0 ∧ y.rgN PERF_SMPSTAT_LOST = 0 ∧
        y.rg PERF_SMPCTL_WRAP = fget w 0 0 ∧ y.mem = x.mem)) ∧
    (s.dev.scanFuse = true → Rail.vio ∉ s.dev.bad → Answers (.extest lo hi) s (fun t =>
      t = { s with dev := { s.dev with extest := some (hi ++ lo) } })) ∧
    (s.dev.scanFuse = false ∨ Rail.vio ∈ s.dev.bad → Answers (.extest lo hi) s (fun t => t = s)) ∧
    Answers .fuseoff s (fun t => t = { s with dev := { s.dev with scanFuse := false, extest := none } }) ∧
    (addr.toNat % 4 ≠ 0 ∨ areaOf x.host addr.toNat ≠ .blocks →
      Answers (.registerWrite d addr w) s (fun t => t = s)) ∧
    (∀ i, i < 4 → x.inReset = false → addr.toNat % 4 = 0 → areaOf x.host addr.toNat = .blocks →
      x.regKey addr.toNat = (EVT_EN_EN i).reg → DomAnswers (.registerWrite d addr w) s d (fun y =>
        y.rg (EVT_EN_EN i) = w ∧ y.mem = x.mem ∧ ∀ e, y.core e = x.core e)) ∧
    (∀ r, s.up c → (s.ch c).dom.host = false → addr.toNat % 4 = 0 → areaOf false addr.toNat = .blocks →
      let k := (s.ch c).dom.regKey addr.toNat
      (s.ch c).dom.assigned k = true → rowOf k = some r → r.rwp ≠ 0 → (s.ch c).inWindow = none →
      ChBecomes (.registerWrite (.ch c) addr w) s c { s.ch c with
        plan := rput (s.ch c).plan k ((w &&& BitVec.ofNat 32 r.rwp) ||| planForced k) })

/-! ## Rules stated whole -/

/-- KCLR clears each contactor fault whose filtered feedback reports open, with one EV_KMON of kind 5 for each in turn, and
leaves any other fault set (R424). Room for three events at the source is assumed; the register shows KFAULT and KFB. -/
def Obligations.ContactorFaultsClear : Prop :=
  ∀ (s : State) (c : Chan) (w : Word), s.up c → w.getLsbD 2 = true →
    let x := s.ch c
    let kmon (d : Domain) : List (BitVec 16) := (d.evq.filter (fun e => e.src == 0x72)).map (·.arg)
    let clears (k : Nat) : Bool := x.rgB (SAFE_STAT_KFAULT.bit k) && !x.rgB (SAFE_STAT_KFB.bit k)
    ChAnswers (.kclr c w) s c (fun y => ∀ k, k < 3 →
      y.rgB (SAFE_STAT_KFAULT.bit k) = (x.rgB (SAFE_STAT_KFAULT.bit k) && x.rgB (SAFE_STAT_KFB.bit k))) ∧
    ((kmon x.dom).length ≤ 1 → ChAnswers (.kclr c w) s c (fun y =>
      kmon y.dom = kmon x.dom ++ ((List.range 3).filter clears).map fun k => BitVec.ofNat 16 (k + 0x50)))

/-- Safely limited speed: with SLSMAX ≠ 0 a latch leaves SLSOVR set exactly where |ω_L| exceeds the SLSLIM in use, a
first latch above it raises EV_SAFEDIAG 0xB, and neither PWM, GDI nor the supervisor reacts to it; with SLSMAX = 0 SLSOVR
stays (R431, the bounds by R163). What acts at a latch acts at the edge that delivers it, on the speed it delivers. -/
def Obligations.SafelyLimitedSpeed : Prop :=
  (∀ x : Channel,
    let y := x.latchActs
    let hi := x.lvN SAFE_SLSMAX_SLSMAX
    let lo := x.lvN SAFE_SLSMIN_SLSMIN
    let v := x.lvN SAFE_SLSLIM_SLSLIM
    let lim := if hi < lo ∨ hi < v then hi else if v < lo then lo else v
    let unlimited := x.tripAtLatch.superLatch.ss1Latch.hgLatch
    (hi ≠ 0 → y.rgB SAFE_STAT_SLSOVR = decide (lim < x.weir.absOmega) ∧
      (lim < x.weir.absOmega → x.rgB SAFE_STAT_SLSOVR = false → HasRoom x.dom 0x73 → Waits x.dom y.dom 0x73 0xB)) ∧
    (hi = 0 → y.rgB SAFE_STAT_SLSOVR = x.rgB SAFE_STAT_SLSOVR) ∧
    y.pwm = unlimited.pwm ∧ y.gdi = unlimited.gdi ∧ y.cas = unlimited.cas ∧ y.live = x.live) ∧
  (∀ x : Channel,
    let d := (x.endCycle.mapDom Domain.tick).weirHaltEdge.windowEdge.commitEdge.latchDue
    ∀ θ ω t, d.2 = some (θ, ω, t) →
      x.begin.1 = (d.1.coordinates d.2).1.latchActs ∧ (d.1.coordinates d.2).1.weir.omL = ω)

/-- PORTEN = 1 enables both ports, which may then align; the by-pass opens when VRING and VCORE are good, the host domain
is out of reset and PORTEN is 1, and closes otherwise; RING_NODE is written only while PORTEN = 0 (R468, the conditions by
R68). -/
def Obligations.PortEnableOpensTheByPass : Prop :=
  ∀ (s : State) (w : Word), s.host.dom.inReset = false →
    let d := s.host.dom
    let railsGood : Prop := Rail.vring ∉ s.dev.bad ∧ Rail.vcore ∉ s.dev.bad
    (bitOf w 0 = true → HostAnswers (.portEnable w) s (fun y => y.dom.rgB RING_CTL_PORTEN = true)) ∧
    (d.rgB RING_CTL_PORTEN = true → ∀ p, d.rgN (linkFld p) = 0 →
      HostAnswers (.linkAlign p) s (fun y => y.dom.rgN (linkFld p) = 1)) ∧
    (d.rgB RING_CTL_PORTEN = true → railsGood →
      HostAnswers .bypassChange s (fun y => y.dom.rgB RING_STAT_BYPASS = false)) ∧
    (d.rgB RING_CTL_PORTEN = false ∨ ¬railsGood →
      HostAnswers .bypassChange s (fun y => y.dom.rgB RING_STAT_BYPASS = true)) ∧
    (Placed s → d.rgB RING_CTL_PORTEN = true →
      HostAnswers (.registerWrite .host 0x41000004 w) s (fun y => y = s.host)) ∧
    (Placed s → d.rgB RING_CTL_PORTEN = false →
      HostAnswers (.registerWrite .host 0x41000004 w) s (fun y => y.dom.rgN RING_NODE_ID = w.toNat % 16))

/-! ## The block as a whole -/

/-- A step executes the command at the front of the queue with the rest waiting, and the rest is what waits afterwards; on
an empty queue one clock cycle passes (the model's choice, log 1). -/
def Obligations.StepRunsFrontCommand : Prop :=
  (∀ (s : State) (c : Instr) (rest : List Instr),
    step { s with pending := c :: rest } = exec c { s with pending := rest } ∧
    ∀ t, step { s with pending := c :: rest } = .next t → t.pending = rest) ∧
  (∀ s : State, s.pending = [] → step s = .next s.tick ∧ s.tick.pending = [])

/-- After power-on reset: no command waits, every domain has its number, every memory is in its canonical form and lists
nothing, TIME is 0 (R122), every core is as R118 has it, Weir, POS and Cascade as R182, R185, R215 and R308 have them, the
position is stale, POR is recorded alone and SAFE_CAP is 0 (R48, R86), the by-pass is closed (R68). That the fuses read as
shipped is the model's choice (log 20). -/
def Obligations.ResetState : Prop :=
  let s := State.reset
  s.pending = [] ∧ Placed s ∧
  (∀ d, (s.dom d).mem = [] ∧ Memory.wf (s.dom d).mem = true ∧ (s.dom d).time = 0 ∧ (s.dom d).evq = [] ∧
    ∀ e, let x := (s.dom d).core e
      x.priv = .system ∧ x.ie = false ∧ x.exl = false ∧ x.nexl = false ∧ x.mpuCtl = 0 ∧ x.vbase = 0x400 ∧
        (∀ r, x.rd r = 0) ∧ x.rsv = none) ∧
  (∀ n, let c := s.ch n
    c.weir.theta = 0 ∧ c.weir.omL = 0 ∧ c.weir.phi = 0 ∧ c.weir.mode = .async ∧ c.rgB WEIR_STAT_STALE = true ∧
      (∀ i, i < 5 → c.countOf i = 0 ∧ c.avalid i = false) ∧ c.cas.v = [] ∧ c.cas.ac = [] ∧ c.cas.run = none ∧
      c.rgB SYS_CAP_SAFE_CAP = false ∧ c.pwm.gate = 0 ∧ c.gen = false ∧ c.cmt = none) ∧
  s.host.dom.rgB RING_CTL_PORTEN = false ∧ s.host.dom.rgB RING_STAT_BYPASS = true ∧
  s.dev.floorFuses = 0 ∧ s.dev.key0 = true ∧ s.dev.key1 = true ∧ s.dev.revoked0 = false ∧ s.dev.scanFuse = true ∧
    s.dev.extest = none

/-- The word of every well-formed instruction of the three engines decodes to that instruction, with every operand
(R124 to R131, R195 to R199, R321 to R326). -/
def Obligations.DecodeOfEncode : Prop :=
  ∀ i : Instr, i.wf = true →
    (∀ k w, encodeCascade i = some (k, w) → decodeCascade k w = some i) ∧
    (∀ k w, encodeWeir i = some (k, w) → decodeWeir k w = some i) ∧
    (∀ k ecc w, encodeDziphor i = some (k, ecc, w) → decodeDziphor k ecc w = some i)

/-- An instruction decoded from a word is encoded as that word: no two words of an engine have one meaning, and none is
decoded with a bit ignored (R124, R199, R323). -/
def Obligations.EncodeOfDecode : Prop :=
  (∀ k w i, decodeCascade k w = some i → i.wf = true ∧ encodeCascade i = some (k, w)) ∧
  (∀ k w i, decodeWeir k w = some i → i.wf = true ∧ encodeWeir i = some (k, w)) ∧
  (∀ k ecc w i, decodeDziphor k ecc w = some i → i.wf = true ∧ ∃ ecc', encodeDziphor i = some (k, ecc', w))

/-- Every step keeps the numbers of the domains: whatever the commands, channel n stays channel n (R49, R50). -/
def Obligations.StepKeepsNumbers : Prop :=
  ∀ s t : State, Placed s → step s = .next t → Placed t

/-- Every step keeps every memory in its canonical form. -/
def Obligations.StepKeepsMemoriesCanonical : Prop :=
  ∀ s t : State, (∀ d, Memory.wf (s.dom d).mem = true) → step s = .next t → ∀ d, Memory.wf (t.dom d).mem = true

/-- No step blows a fuse back: the floor never falls, a revoked key slot stays revoked, a blown scan fuse stays blown, the
key slots stay as shipped, and EXTEST drives balls only while the scan fuse is intact (R507, R535). -/
def Obligations.FusesAreOneWay : Prop :=
  ∀ s t : State, step s = .next t →
    s.dev.floorFuses ≤ t.dev.floorFuses ∧ (s.dev.revoked0 = true → t.dev.revoked0 = true) ∧
    (s.dev.scanFuse = false → t.dev.scanFuse = false) ∧ t.dev.key0 = s.dev.key0 ∧ t.dev.key1 = s.dev.key1 ∧
    ((s.dev.extest.isSome → s.dev.scanFuse = true) → t.dev.extest.isSome → t.dev.scanFuse = true)

end
end

