-- ==== Sys2Proof/Laws/Store.lean ====
section
/-! SUPPORT. Laws/Store.lean: reading a store after writing it, and the canonical form. -/

namespace Sys2Proof.Machine

section

variable {α : Type}

theorem sget_serase_same (d : α) (m : List (Nat × α)) (k : Nat) : sget d (serase m k) k = d := by
  induction m with
  | nil => rfl
  | cons x m ih =>
    obtain ⟨k', v⟩ := x
    by_cases h : k' = k <;> simp [serase, sget, h, ih]

theorem sget_serase_other (d : α) (m : List (Nat × α)) {j k : Nat} (h : j ≠ k) :
    sget d (serase m k) j = sget d m j := by
  induction m with
  | nil => rfl
  | cons x m ih =>
    obtain ⟨k', v⟩ := x
    by_cases hk : k' = k
    · subst hk; simp [serase, sget, ih, Ne.symm h]
    · simp only [serase, hk, if_false, sget, ih]

theorem sget_sinsert (d : α) (m : List (Nat × α)) (k : Nat) (v : α) (j : Nat)
    (hm : ∀ x ∈ m, x.1 ≠ k) : sget d (sinsert m k v) j = if k = j then v else sget d m j := by
  induction m with
  | nil => simp [sinsert, sget]
  | cons x m ih =>
    obtain ⟨k', v'⟩ := x
    have hk : k' ≠ k := hm (k', v') (by simp)
    have ih := ih (fun y hy => hm y (by simp [hy]))
    by_cases hlt : k < k'
    · simp [sinsert, sget, hlt]
    · by_cases hj : k' = j
      · subst hj; simp [sinsert, sget, hlt, Ne.symm hk]
      · simp [sinsert, sget, hlt, hj, ih]

theorem serase_ne (m : List (Nat × α)) (k : Nat) : ∀ x ∈ serase m k, x.1 ≠ k := by
  induction m with
  | nil => simp [serase]
  | cons x m ih =>
    obtain ⟨k', v⟩ := x
    by_cases h : k' = k
    · simpa [serase, h] using ih
    · intro y hy
      simp only [serase, h, if_false, List.mem_cons] at hy
      rcases hy with rfl | hy
      · exact h
      · exact ih y hy

variable [DecidableEq α]

/-- What a read returns after a write: the value written at its key, and the old value elsewhere. -/
theorem sget_sset (d : α) (m : List (Nat × α)) (k : Nat) (v : α) (j : Nat) :
    sget d (sset d m k v) j = if k = j then v else sget d m j := by
  unfold sset
  by_cases hv : v = d
  · subst hv
    by_cases hk : k = j
    · subst hk; simp [sget_serase_same]
    · simp [hk, sget_serase_other v m (Ne.symm hk)]
  · rw [if_neg hv, sget_sinsert d (serase m k) k v j (serase_ne m k)]
    by_cases hk : k = j
    · simp [hk]
    · simp [hk, sget_serase_other d m (Ne.symm hk)]

@[simp] theorem sget_sset_same (d : α) (m : List (Nat × α)) (k : Nat) (v : α) : sget d (sset d m k v) k = v := by
  simp [sget_sset]

theorem sget_sset_other (d : α) (m : List (Nat × α)) {j k : Nat} (v : α) (h : k ≠ j) :
    sget d (sset d m k v) j = sget d m j := by
  simp [sget_sset, h]

/-- A write at a key of another default: reads of other keys keep theirs. -/
theorem sget_sset_ne (d e : α) (m : List (Nat × α)) {j k : Nat} (v : α) (h : k ≠ j) :
    sget d (sset e m k v) j = sget d m j := by
  unfold sset
  by_cases hv : v = e
  · simp [hv, sget_serase_other d m (Ne.symm h)]
  · rw [if_neg hv, sget_sinsert d (serase m k) k v j (serase_ne m k)]
    simp [h, sget_serase_other d m (Ne.symm h)]

/-! ## The canonical form -/

theorem swf_cons {f : Nat → α} {k : Nat} {v : α} {m : List (Nat × α)} :
    swf f ((k, v) :: m) = true ↔ sabove k m = true ∧ v ≠ f k ∧ swf f m = true := by
  simp [swf, and_assoc]

theorem sabove_serase {k j : Nat} {m : List (Nat × α)} {f : Nat → α} (h : sabove k m = true) (hw : swf f m = true) :
    sabove k (serase m j) = true := by
  induction m with
  | nil => rfl
  | cons x m ih =>
    obtain ⟨k', v⟩ := x
    rw [swf_cons] at hw
    simp only [sabove, decide_eq_true_eq] at h
    by_cases hj : k' = j
    · have h2 : sabove k m = true := by
        cases m with
        | nil => rfl
        | cons y m =>
          have := hw.1
          simp only [sabove, decide_eq_true_eq] at this ⊢
          omega
      simpa [serase, hj] using ih h2 hw.2.2
    · simp [serase, hj, sabove, h]

theorem swf_serase {m : List (Nat × α)} {f : Nat → α} (hw : swf f m = true) (j : Nat) : swf f (serase m j) = true := by
  induction m with
  | nil => rfl
  | cons x m ih =>
    obtain ⟨k', v⟩ := x
    rw [swf_cons] at hw
    by_cases hj : k' = j
    · simpa [serase, hj] using ih hw.2.2
    · simp only [serase, hj, if_false, swf_cons]
      exact ⟨sabove_serase hw.1 hw.2.2, hw.2.1, ih hw.2.2⟩

theorem swf_sinsert {m : List (Nat × α)} {f : Nat → α} {k : Nat} {v : α} (hw : swf f m = true) (hv : v ≠ f k)
    (hm : ∀ x ∈ m, x.1 ≠ k) :
    swf f (sinsert m k v) = true ∧ (∀ j, j < k → sabove j m = true → sabove j (sinsert m k v) = true) := by
  induction m with
  | nil => simp [sinsert, swf, sabove, hv]
  | cons x m ih =>
    obtain ⟨k', v'⟩ := x
    have hk : k' ≠ k := hm (k', v') (by simp)
    rw [swf_cons] at hw
    have ih := ih hw.2.2 (fun y hy => hm y (by simp [hy]))
    by_cases hlt : k < k'
    · simp only [sinsert, hlt, if_true]
      refine ⟨swf_cons.2 ⟨by simp [sabove, hlt], hv, swf_cons.2 hw⟩, fun j hj _ => by simp [sabove, hj]⟩
    · have hgt : k' < k := by omega
      simp only [sinsert, hlt, if_false]
      exact ⟨swf_cons.2 ⟨ih.2 k' hgt hw.1, hw.2.1, ih.1⟩, fun j _ hj => by simpa [sabove] using hj⟩

/-- A write keeps the canonical form. -/
theorem swf_sset {m : List (Nat × α)} {f : Nat → α} (hw : swf f m = true) (k : Nat) (v : α) :
    swf f (sset (f k) m k v) = true := by
  unfold sset
  by_cases hv : v = f k
  · simp [hv, swf_serase hw]
  · simpa [hv] using (swf_sinsert (swf_serase hw k) hv (serase_ne m k)).1

theorem sabove_sclear {k lo hi : Nat} {m : List (Nat × α)} {f : Nat → α} (h : sabove k m = true) (hw : swf f m = true) :
    sabove k (sclear lo hi m) = true := by
  induction m with
  | nil => rfl
  | cons x m ih =>
    obtain ⟨k', v⟩ := x
    rw [swf_cons] at hw
    simp only [sabove, decide_eq_true_eq] at h
    by_cases hj : lo ≤ k' ∧ k' < hi
    · have h2 : sabove k m = true := by
        cases m with
        | nil => rfl
        | cons y m =>
          have := hw.1
          simp only [sabove, decide_eq_true_eq] at this ⊢
          omega
      simpa [sclear, hj] using ih h2 hw.2.2
    · simp [sclear, hj, sabove, h]

/-- Forgetting a range keeps the canonical form. -/
theorem swf_sclear {m : List (Nat × α)} {f : Nat → α} (hw : swf f m = true) (lo hi : Nat) :
    swf f (sclear lo hi m) = true := by
  induction m with
  | nil => rfl
  | cons x m ih =>
    obtain ⟨k', v⟩ := x
    rw [swf_cons] at hw
    by_cases hj : lo ≤ k' ∧ k' < hi
    · simpa [sclear, hj] using ih hw.2.2
    · simp only [sclear, hj, if_false, swf_cons]
      exact ⟨sabove_sclear hw.1 hw.2.2, hw.2.1, ih hw.2.2⟩

end

end Sys2Proof.Machine
end

