-- ==== Sys2Proof/Laws/Reg.lean ====
section
/-! SUPPORT. Laws/Reg.lean: bit fields and register stores read after they are written. -/

namespace Sys2Proof.Machine

theorem lowMask_getLsbD (n i : Nat) : (lowMask n).getLsbD i = (decide (i < 32) && decide (i < n)) := by
  simp [lowMask, BitVec.getLsbD_ofNat, Nat.testBit_two_pow_sub_one]

theorem fget_getLsbD (w : Word) (hi lo i : Nat) :
    (fget w hi lo).getLsbD i = (decide (i < 32) && decide (i < hi + 1 - lo) && w.getLsbD (lo + i)) := by
  simp only [fget, BitVec.getLsbD_and, BitVec.getLsbD_ushiftRight, lowMask_getLsbD]
  by_cases h : i < hi + 1 - lo <;> by_cases h2 : i < 32 <;> simp [h, h2]

theorem fput_getLsbD (w : Word) (hi lo : Nat) (v : Word) (i : Nat) (h : i < 32) :
    (fput w hi lo v).getLsbD i = if lo ≤ i ∧ i < hi + 1 then v.getLsbD (i - lo) else w.getLsbD i := by
  simp only [fput, BitVec.getLsbD_or, BitVec.getLsbD_and, BitVec.getLsbD_not, BitVec.getLsbD_shiftLeft, lowMask_getLsbD]
  by_cases h1 : lo ≤ i
  · by_cases h2 : i < hi + 1
    · have h3 : i - lo < hi + 1 - lo := by omega
      have h4 : i - lo < 32 := by omega
      simp [h, h1, h2, h3, h4, Nat.not_lt.2 h1]
    · have h3 : ¬ i - lo < hi + 1 - lo := by omega
      simp [h, h1, h2, h3, Nat.not_lt.2 h1]
  · have h2 : i < lo := by omega
    simp [h, h1, h2]

/-- A field reads as what was written to it, cut to its width. -/
theorem fget_fput (w : Word) (hi lo : Nat) (v : Word) (h : hi < 32) :
    fget (fput w hi lo v) hi lo = v &&& lowMask (hi + 1 - lo) := by
  apply BitVec.eq_of_getLsbD_eq
  intro i hi'
  rw [fget_getLsbD, BitVec.getLsbD_and, lowMask_getLsbD]
  by_cases h1 : i < hi + 1 - lo
  · rw [fput_getLsbD _ _ _ _ _ (by omega)]
    have h2 : lo ≤ lo + i ∧ lo + i < hi + 1 := by omega
    simp [h1, hi', h2]
  · simp [h1]

/-- A field apart from the one written keeps its value. -/
theorem fget_fput_apart (w : Word) (hi lo : Nat) (v : Word) {hi' lo' : Nat} (hb : hi' < 32) (h : hi' < lo ∨ hi < lo') :
    fget (fput w hi lo v) hi' lo' = fget w hi' lo' := by
  apply BitVec.eq_of_getLsbD_eq
  intro i hi2
  rw [fget_getLsbD, fget_getLsbD]
  by_cases h1 : i < hi' + 1 - lo'
  · rw [fput_getLsbD _ _ _ _ _ (by omega)]
    rw [if_neg (by omega)]
  · simp [h1]

/-- What a register reads as after a write. -/
theorem rget_rput (m : List (Nat × Word)) (k j : Nat) (v : Word) : rget (rput m k v) j = if k = j then v else rget m j := by
  unfold rget rput
  by_cases h : k = j
  · subst h; simp
  · simp [h, sget_sset_ne _ _ _ _ h]

@[simp] theorem rget_rput_same (m : List (Nat × Word)) (k : Nat) (v : Word) : rget (rput m k v) k = v := by
  simp [rget_rput]

theorem fld_setFld (m : List (Nat × Word)) (f : Fld) (v : Word) (h : f.hi < 32) :
    fld (setFld m f v) f = v &&& lowMask f.width := by
  simp [fld, setFld, fget_fput _ _ _ _ h, Fld.width]

theorem fld_setFld_reg (m : List (Nat × Word)) (f g : Fld) (v : Word) (h : f.reg ≠ g.reg) :
    fld (setFld m f v) g = fld m g := by
  simp [fld, setFld, rget_rput, h]

theorem fld_setFld_apart (m : List (Nat × Word)) (f g : Fld) (v : Word) (hg : g.hi < 32)
    (h : f.reg ≠ g.reg ∨ g.hi < f.lo ∨ f.hi < g.lo) : fld (setFld m f v) g = fld m g := by
  by_cases hr : f.reg = g.reg
  · have h2 : g.hi < f.lo ∨ f.hi < g.lo := by tauto
    simp [fld, setFld, hr, fget_fput_apart _ _ _ _ hg h2]
  · exact fld_setFld_reg m f g v hr

/-- A truth value comes back from a one-bit field. -/
theorem ofB_and_lowMask (b : Bool) : ofB b &&& lowMask 1 = ofB b := by cases b <;> decide

theorem ofB_ne_zero (b : Bool) : (ofB b != 0#32) = b := by cases b <;> decide

/-! ## Domains and channels -/

@[simp] theorem Domain.rg_set_same (d : Domain) (f : Fld) (v : Word) (h : f.hi < 32 := by decide) :
    (d.set f v).rg f = v &&& lowMask f.width := fld_setFld d.regs f v h

theorem Domain.rg_set_apart (d : Domain) (f g : Fld) (v : Word) (hg : g.hi < 32)
    (h : f.reg ≠ g.reg ∨ g.hi < f.lo ∨ f.hi < g.lo) : (d.set f v).rg g = d.rg g := fld_setFld_apart d.regs f g v hg h

theorem Domain.rg_set_reg (d : Domain) (f g : Fld) (v : Word) (h : f.reg ≠ g.reg) : (d.set f v).rg g = d.rg g :=
  fld_setFld_reg d.regs f g v h

/-- To the registers a flag is a field of one bit. -/
theorem Domain.rg_setB (d : Domain) (f g : Fld) (b : Bool) : (d.setB f b).rg g = (d.set f (ofB b)).rg g := rfl

/-- A one-bit field reads as what was written. -/
theorem Domain.rgB_setB_same (d : Domain) (f : Fld) (b : Bool) (h : f.hi < 32) (hw : f.width = 1) :
    (d.setB f b).rgB f = b := by
  simp [Domain.rgB, Domain.rg_setB, Domain.rg_set_same d f _ h, hw, ofB_and_lowMask, ofB_ne_zero]

theorem Domain.rgB_setB_apart (d : Domain) (f g : Fld) (b : Bool) (hg : g.hi < 32)
    (h : f.reg ≠ g.reg ∨ g.hi < f.lo ∨ f.hi < g.lo) : (d.setB f b).rgB g = d.rgB g := by
  simp [Domain.rgB, Domain.rg_setB, Domain.rg_set_apart d f g _ hg h]

theorem Domain.rgN_setN_same (d : Domain) (f : Fld) (n : Nat) (h : f.hi < 32) (hn : n < 2 ^ f.width) (hw : f.width ≤ 32) :
    (d.setN f n).rgN f = n := by
  have h1 : n < 2 ^ 32 := lt_of_lt_of_le hn (Nat.pow_le_pow_right (by decide) hw)
  have h2 : 2 ^ f.width - 1 < 2 ^ 32 := by
    have := Nat.pow_le_pow_right (n := 2) (by decide) hw
    have := Nat.one_le_two_pow (n := f.width)
    omega
  simp only [Domain.rgN, Domain.rg, Domain.setN, Domain.set, fld_setFld _ _ _ h, BitVec.toNat_and, lowMask,
    BitVec.toNat_ofNat, Nat.mod_eq_of_lt h1, Nat.mod_eq_of_lt h2, Nat.and_two_pow_sub_one_eq_mod, Nat.mod_eq_of_lt hn]

theorem Domain.rgN_setN_apart (d : Domain) (f g : Fld) (n : Nat) (hg : g.hi < 32)
    (h : f.reg ≠ g.reg ∨ g.hi < f.lo ∨ f.hi < g.lo) : (d.setN f n).rgN g = d.rgN g := by
  simp [Domain.rgN, Domain.setN, Domain.rg_set_apart d f g _ hg h]

end Sys2Proof.Machine
end

