-- ==== Sys2Proof/Laws/State.lean ====
section
/-! SUPPORT. Laws/State.lean: what each named update of a domain, a channel or the device leaves as it was. -/

namespace Sys2Proof.Machine


/-! ### Domain.set -/

@[simp] theorem Domain.set_id (d : Domain) (f : Fld) (v : Word) : (d.set f v).id = d.id := rfl
@[simp] theorem Domain.set_time (d : Domain) (f : Fld) (v : Word) : (d.set f v).time = d.time := rfl
@[simp] theorem Domain.set_fresh (d : Domain) (f : Fld) (v : Word) : (d.set f v).fresh = d.fresh := rfl
@[simp] theorem Domain.set_rs (d : Domain) (f : Fld) (v : Word) : (d.set f v).rs = d.rs := rfl
@[simp] theorem Domain.set_mem (d : Domain) (f : Fld) (v : Word) : (d.set f v).mem = d.mem := rfl
@[simp] theorem Domain.set_evq (d : Domain) (f : Fld) (v : Word) : (d.set f v).evq = d.evq := rfl
@[simp] theorem Domain.set_stamps (d : Domain) (f : Fld) (v : Word) : (d.set f v).stamps = d.stamps := rfl
@[simp] theorem Domain.set_evNext (d : Domain) (f : Fld) (v : Word) : (d.set f v).evNext = d.evNext := rfl
@[simp] theorem Domain.set_evTurn (d : Domain) (f : Fld) (v : Word) : (d.set f v).evTurn = d.evTurn := rfl
@[simp] theorem Domain.set_cyc (d : Domain) (f : Fld) (v : Word) : (d.set f v).cyc = d.cyc := rfl
@[simp] theorem Domain.set_e0 (d : Domain) (f : Fld) (v : Word) : (d.set f v).e0 = d.e0 := rfl
@[simp] theorem Domain.set_e1 (d : Domain) (f : Fld) (v : Word) : (d.set f v).e1 = d.e1 := rfl
@[simp] theorem Domain.set_e2 (d : Domain) (f : Fld) (v : Word) : (d.set f v).e2 = d.e2 := rfl
@[simp] theorem Domain.set_pll (d : Domain) (f : Fld) (v : Word) : (d.set f v).pll = d.pll := rfl
@[simp] theorem Domain.set_lsc (d : Domain) (f : Fld) (v : Word) : (d.set f v).lsc = d.lsc := rfl
@[simp] theorem Domain.set_perf (d : Domain) (f : Fld) (v : Word) : (d.set f v).perf = d.perf := rfl
@[simp] theorem Domain.set_dbg (d : Domain) (f : Fld) (v : Word) : (d.set f v).dbg = d.dbg := rfl
@[simp] theorem Domain.set_thm (d : Domain) (f : Fld) (v : Word) : (d.set f v).thm = d.thm := rfl
@[simp] theorem Domain.set_spr (d : Domain) (f : Fld) (v : Word) : (d.set f v).spr = d.spr := rfl
@[simp] theorem Domain.set_bank (d : Domain) (f : Fld) (v : Word) : (d.set f v).bank = d.bank := rfl
@[simp] theorem Domain.set_onRc (d : Domain) (f : Fld) (v : Word) : (d.set f v).onRc = d.onRc := rfl
@[simp] theorem Domain.set_warm (d : Domain) (f : Fld) (v : Word) : (d.set f v).warm = d.warm := rfl

/-! ### Domain.setN -/

@[simp] theorem Domain.setN_id (d : Domain) (f : Fld) (n : Nat) : (d.setN f n).id = d.id := rfl
@[simp] theorem Domain.setN_time (d : Domain) (f : Fld) (n : Nat) : (d.setN f n).time = d.time := rfl
@[simp] theorem Domain.setN_fresh (d : Domain) (f : Fld) (n : Nat) : (d.setN f n).fresh = d.fresh := rfl
@[simp] theorem Domain.setN_rs (d : Domain) (f : Fld) (n : Nat) : (d.setN f n).rs = d.rs := rfl
@[simp] theorem Domain.setN_mem (d : Domain) (f : Fld) (n : Nat) : (d.setN f n).mem = d.mem := rfl
@[simp] theorem Domain.setN_evq (d : Domain) (f : Fld) (n : Nat) : (d.setN f n).evq = d.evq := rfl
@[simp] theorem Domain.setN_stamps (d : Domain) (f : Fld) (n : Nat) : (d.setN f n).stamps = d.stamps := rfl
@[simp] theorem Domain.setN_evNext (d : Domain) (f : Fld) (n : Nat) : (d.setN f n).evNext = d.evNext := rfl
@[simp] theorem Domain.setN_evTurn (d : Domain) (f : Fld) (n : Nat) : (d.setN f n).evTurn = d.evTurn := rfl
@[simp] theorem Domain.setN_cyc (d : Domain) (f : Fld) (n : Nat) : (d.setN f n).cyc = d.cyc := rfl
@[simp] theorem Domain.setN_e0 (d : Domain) (f : Fld) (n : Nat) : (d.setN f n).e0 = d.e0 := rfl
@[simp] theorem Domain.setN_e1 (d : Domain) (f : Fld) (n : Nat) : (d.setN f n).e1 = d.e1 := rfl
@[simp] theorem Domain.setN_e2 (d : Domain) (f : Fld) (n : Nat) : (d.setN f n).e2 = d.e2 := rfl
@[simp] theorem Domain.setN_pll (d : Domain) (f : Fld) (n : Nat) : (d.setN f n).pll = d.pll := rfl
@[simp] theorem Domain.setN_lsc (d : Domain) (f : Fld) (n : Nat) : (d.setN f n).lsc = d.lsc := rfl
@[simp] theorem Domain.setN_perf (d : Domain) (f : Fld) (n : Nat) : (d.setN f n).perf = d.perf := rfl
@[simp] theorem Domain.setN_dbg (d : Domain) (f : Fld) (n : Nat) : (d.setN f n).dbg = d.dbg := rfl
@[simp] theorem Domain.setN_thm (d : Domain) (f : Fld) (n : Nat) : (d.setN f n).thm = d.thm := rfl
@[simp] theorem Domain.setN_spr (d : Domain) (f : Fld) (n : Nat) : (d.setN f n).spr = d.spr := rfl
@[simp] theorem Domain.setN_bank (d : Domain) (f : Fld) (n : Nat) : (d.setN f n).bank = d.bank := rfl
@[simp] theorem Domain.setN_onRc (d : Domain) (f : Fld) (n : Nat) : (d.setN f n).onRc = d.onRc := rfl
@[simp] theorem Domain.setN_warm (d : Domain) (f : Fld) (n : Nat) : (d.setN f n).warm = d.warm := rfl

/-! ### Domain.setB -/

@[simp] theorem Domain.setB_id (d : Domain) (f : Fld) (b : Bool) : (d.setB f b).id = d.id := rfl
@[simp] theorem Domain.setB_time (d : Domain) (f : Fld) (b : Bool) : (d.setB f b).time = d.time := rfl
@[simp] theorem Domain.setB_fresh (d : Domain) (f : Fld) (b : Bool) : (d.setB f b).fresh = d.fresh := rfl
@[simp] theorem Domain.setB_rs (d : Domain) (f : Fld) (b : Bool) : (d.setB f b).rs = d.rs := rfl
@[simp] theorem Domain.setB_mem (d : Domain) (f : Fld) (b : Bool) : (d.setB f b).mem = d.mem := rfl
@[simp] theorem Domain.setB_evq (d : Domain) (f : Fld) (b : Bool) : (d.setB f b).evq = d.evq := rfl
@[simp] theorem Domain.setB_stamps (d : Domain) (f : Fld) (b : Bool) : (d.setB f b).stamps = d.stamps := rfl
@[simp] theorem Domain.setB_evNext (d : Domain) (f : Fld) (b : Bool) : (d.setB f b).evNext = d.evNext := rfl
@[simp] theorem Domain.setB_evTurn (d : Domain) (f : Fld) (b : Bool) : (d.setB f b).evTurn = d.evTurn := rfl
@[simp] theorem Domain.setB_e0 (d : Domain) (f : Fld) (b : Bool) : (d.setB f b).e0 = d.e0 := rfl
@[simp] theorem Domain.setB_e1 (d : Domain) (f : Fld) (b : Bool) : (d.setB f b).e1 = d.e1 := rfl
@[simp] theorem Domain.setB_e2 (d : Domain) (f : Fld) (b : Bool) : (d.setB f b).e2 = d.e2 := rfl
@[simp] theorem Domain.setB_pll (d : Domain) (f : Fld) (b : Bool) : (d.setB f b).pll = d.pll := rfl
@[simp] theorem Domain.setB_lsc (d : Domain) (f : Fld) (b : Bool) : (d.setB f b).lsc = d.lsc := rfl
@[simp] theorem Domain.setB_perf (d : Domain) (f : Fld) (b : Bool) : (d.setB f b).perf = d.perf := rfl
@[simp] theorem Domain.setB_dbg (d : Domain) (f : Fld) (b : Bool) : (d.setB f b).dbg = d.dbg := rfl
@[simp] theorem Domain.setB_thm (d : Domain) (f : Fld) (b : Bool) : (d.setB f b).thm = d.thm := rfl
@[simp] theorem Domain.setB_spr (d : Domain) (f : Fld) (b : Bool) : (d.setB f b).spr = d.spr := rfl
@[simp] theorem Domain.setB_bank (d : Domain) (f : Fld) (b : Bool) : (d.setB f b).bank = d.bank := rfl
@[simp] theorem Domain.setB_onRc (d : Domain) (f : Fld) (b : Bool) : (d.setB f b).onRc = d.onRc := rfl
@[simp] theorem Domain.setB_warm (d : Domain) (f : Fld) (b : Bool) : (d.setB f b).warm = d.warm := rfl

/-! ### Domain.count -/

@[simp] theorem Domain.count_id (d : Domain) (f : Fld) : (d.count f).id = d.id := rfl
@[simp] theorem Domain.count_time (d : Domain) (f : Fld) : (d.count f).time = d.time := rfl
@[simp] theorem Domain.count_fresh (d : Domain) (f : Fld) : (d.count f).fresh = d.fresh := rfl
@[simp] theorem Domain.count_rs (d : Domain) (f : Fld) : (d.count f).rs = d.rs := rfl
@[simp] theorem Domain.count_mem (d : Domain) (f : Fld) : (d.count f).mem = d.mem := rfl
@[simp] theorem Domain.count_evq (d : Domain) (f : Fld) : (d.count f).evq = d.evq := rfl
@[simp] theorem Domain.count_stamps (d : Domain) (f : Fld) : (d.count f).stamps = d.stamps := rfl
@[simp] theorem Domain.count_evNext (d : Domain) (f : Fld) : (d.count f).evNext = d.evNext := rfl
@[simp] theorem Domain.count_evTurn (d : Domain) (f : Fld) : (d.count f).evTurn = d.evTurn := rfl
@[simp] theorem Domain.count_cyc (d : Domain) (f : Fld) : (d.count f).cyc = d.cyc := rfl
@[simp] theorem Domain.count_e0 (d : Domain) (f : Fld) : (d.count f).e0 = d.e0 := rfl
@[simp] theorem Domain.count_e1 (d : Domain) (f : Fld) : (d.count f).e1 = d.e1 := rfl
@[simp] theorem Domain.count_e2 (d : Domain) (f : Fld) : (d.count f).e2 = d.e2 := rfl
@[simp] theorem Domain.count_pll (d : Domain) (f : Fld) : (d.count f).pll = d.pll := rfl
@[simp] theorem Domain.count_lsc (d : Domain) (f : Fld) : (d.count f).lsc = d.lsc := rfl
@[simp] theorem Domain.count_perf (d : Domain) (f : Fld) : (d.count f).perf = d.perf := rfl
@[simp] theorem Domain.count_dbg (d : Domain) (f : Fld) : (d.count f).dbg = d.dbg := rfl
@[simp] theorem Domain.count_thm (d : Domain) (f : Fld) : (d.count f).thm = d.thm := rfl
@[simp] theorem Domain.count_spr (d : Domain) (f : Fld) : (d.count f).spr = d.spr := rfl
@[simp] theorem Domain.count_bank (d : Domain) (f : Fld) : (d.count f).bank = d.bank := rfl
@[simp] theorem Domain.count_onRc (d : Domain) (f : Fld) : (d.count f).onRc = d.onRc := rfl
@[simp] theorem Domain.count_warm (d : Domain) (f : Fld) : (d.count f).warm = d.warm := rfl

/-! ### Domain.raiseAt and Domain.raise -/

@[simp] theorem Domain.raiseAt_id (d : Domain) (t ev arg : Nat) : (d.raiseAt t ev arg).id = d.id :=
  by unfold Domain.raiseAt; split <;> rfl
@[simp] theorem Domain.raise_id (d : Domain) (ev arg : Nat) : (d.raise ev arg).id = d.id := Domain.raiseAt_id d _ _ _
@[simp] theorem Domain.raiseAt_time (d : Domain) (t ev arg : Nat) : (d.raiseAt t ev arg).time = d.time :=
  by unfold Domain.raiseAt; split <;> rfl
@[simp] theorem Domain.raise_time (d : Domain) (ev arg : Nat) : (d.raise ev arg).time = d.time :=
  Domain.raiseAt_time d _ _ _
@[simp] theorem Domain.raiseAt_fresh (d : Domain) (t ev arg : Nat) : (d.raiseAt t ev arg).fresh = d.fresh :=
  by unfold Domain.raiseAt; split <;> rfl
@[simp] theorem Domain.raise_fresh (d : Domain) (ev arg : Nat) : (d.raise ev arg).fresh = d.fresh :=
  Domain.raiseAt_fresh d _ _ _
@[simp] theorem Domain.raiseAt_rs (d : Domain) (t ev arg : Nat) : (d.raiseAt t ev arg).rs = d.rs :=
  by unfold Domain.raiseAt; split <;> rfl
@[simp] theorem Domain.raise_rs (d : Domain) (ev arg : Nat) : (d.raise ev arg).rs = d.rs := Domain.raiseAt_rs d _ _ _
@[simp] theorem Domain.raiseAt_mem (d : Domain) (t ev arg : Nat) : (d.raiseAt t ev arg).mem = d.mem :=
  by unfold Domain.raiseAt; split <;> rfl
@[simp] theorem Domain.raise_mem (d : Domain) (ev arg : Nat) : (d.raise ev arg).mem = d.mem :=
  Domain.raiseAt_mem d _ _ _
@[simp] theorem Domain.raiseAt_stamps (d : Domain) (t ev arg : Nat) : (d.raiseAt t ev arg).stamps = d.stamps :=
  by unfold Domain.raiseAt; split <;> rfl
@[simp] theorem Domain.raise_stamps (d : Domain) (ev arg : Nat) : (d.raise ev arg).stamps = d.stamps :=
  Domain.raiseAt_stamps d _ _ _
@[simp] theorem Domain.raiseAt_evTurn (d : Domain) (t ev arg : Nat) : (d.raiseAt t ev arg).evTurn = d.evTurn :=
  by unfold Domain.raiseAt; split <;> rfl
@[simp] theorem Domain.raise_evTurn (d : Domain) (ev arg : Nat) : (d.raise ev arg).evTurn = d.evTurn :=
  Domain.raiseAt_evTurn d _ _ _
@[simp] theorem Domain.raiseAt_e0 (d : Domain) (t ev arg : Nat) : (d.raiseAt t ev arg).e0 = d.e0 :=
  by unfold Domain.raiseAt; split <;> rfl
@[simp] theorem Domain.raise_e0 (d : Domain) (ev arg : Nat) : (d.raise ev arg).e0 = d.e0 := Domain.raiseAt_e0 d _ _ _
@[simp] theorem Domain.raiseAt_e1 (d : Domain) (t ev arg : Nat) : (d.raiseAt t ev arg).e1 = d.e1 :=
  by unfold Domain.raiseAt; split <;> rfl
@[simp] theorem Domain.raise_e1 (d : Domain) (ev arg : Nat) : (d.raise ev arg).e1 = d.e1 := Domain.raiseAt_e1 d _ _ _
@[simp] theorem Domain.raiseAt_e2 (d : Domain) (t ev arg : Nat) : (d.raiseAt t ev arg).e2 = d.e2 :=
  by unfold Domain.raiseAt; split <;> rfl
@[simp] theorem Domain.raise_e2 (d : Domain) (ev arg : Nat) : (d.raise ev arg).e2 = d.e2 := Domain.raiseAt_e2 d _ _ _
@[simp] theorem Domain.raiseAt_pll (d : Domain) (t ev arg : Nat) : (d.raiseAt t ev arg).pll = d.pll :=
  by unfold Domain.raiseAt; split <;> rfl
@[simp] theorem Domain.raise_pll (d : Domain) (ev arg : Nat) : (d.raise ev arg).pll = d.pll :=
  Domain.raiseAt_pll d _ _ _
@[simp] theorem Domain.raiseAt_lsc (d : Domain) (t ev arg : Nat) : (d.raiseAt t ev arg).lsc = d.lsc :=
  by unfold Domain.raiseAt; split <;> rfl
@[simp] theorem Domain.raise_lsc (d : Domain) (ev arg : Nat) : (d.raise ev arg).lsc = d.lsc :=
  Domain.raiseAt_lsc d _ _ _
@[simp] theorem Domain.raiseAt_perf (d : Domain) (t ev arg : Nat) : (d.raiseAt t ev arg).perf = d.perf :=
  by unfold Domain.raiseAt; split <;> rfl
@[simp] theorem Domain.raise_perf (d : Domain) (ev arg : Nat) : (d.raise ev arg).perf = d.perf :=
  Domain.raiseAt_perf d _ _ _
@[simp] theorem Domain.raiseAt_dbg (d : Domain) (t ev arg : Nat) : (d.raiseAt t ev arg).dbg = d.dbg :=
  by unfold Domain.raiseAt; split <;> rfl
@[simp] theorem Domain.raise_dbg (d : Domain) (ev arg : Nat) : (d.raise ev arg).dbg = d.dbg :=
  Domain.raiseAt_dbg d _ _ _
@[simp] theorem Domain.raiseAt_thm (d : Domain) (t ev arg : Nat) : (d.raiseAt t ev arg).thm = d.thm :=
  by unfold Domain.raiseAt; split <;> rfl
@[simp] theorem Domain.raise_thm (d : Domain) (ev arg : Nat) : (d.raise ev arg).thm = d.thm :=
  Domain.raiseAt_thm d _ _ _
@[simp] theorem Domain.raiseAt_spr (d : Domain) (t ev arg : Nat) : (d.raiseAt t ev arg).spr = d.spr :=
  by unfold Domain.raiseAt; split <;> rfl
@[simp] theorem Domain.raise_spr (d : Domain) (ev arg : Nat) : (d.raise ev arg).spr = d.spr :=
  Domain.raiseAt_spr d _ _ _
@[simp] theorem Domain.raiseAt_bank (d : Domain) (t ev arg : Nat) : (d.raiseAt t ev arg).bank = d.bank :=
  by unfold Domain.raiseAt; split <;> rfl
@[simp] theorem Domain.raise_bank (d : Domain) (ev arg : Nat) : (d.raise ev arg).bank = d.bank :=
  Domain.raiseAt_bank d _ _ _
@[simp] theorem Domain.raiseAt_onRc (d : Domain) (t ev arg : Nat) : (d.raiseAt t ev arg).onRc = d.onRc :=
  by unfold Domain.raiseAt; split <;> rfl
@[simp] theorem Domain.raise_onRc (d : Domain) (ev arg : Nat) : (d.raise ev arg).onRc = d.onRc :=
  Domain.raiseAt_onRc d _ _ _
@[simp] theorem Domain.raiseAt_warm (d : Domain) (t ev arg : Nat) : (d.raiseAt t ev arg).warm = d.warm :=
  by unfold Domain.raiseAt; split <;> rfl
@[simp] theorem Domain.raise_warm (d : Domain) (ev arg : Nat) : (d.raise ev arg).warm = d.warm :=
  Domain.raiseAt_warm d _ _ _

/-! ### Domain.setLsc -/

@[simp] theorem Domain.setLsc_id (d : Domain) (f : Lsc → Lsc) : (d.setLsc f).id = d.id := rfl
@[simp] theorem Domain.setLsc_time (d : Domain) (f : Lsc → Lsc) : (d.setLsc f).time = d.time := rfl
@[simp] theorem Domain.setLsc_fresh (d : Domain) (f : Lsc → Lsc) : (d.setLsc f).fresh = d.fresh := rfl
@[simp] theorem Domain.setLsc_rs (d : Domain) (f : Lsc → Lsc) : (d.setLsc f).rs = d.rs := rfl
@[simp] theorem Domain.setLsc_regs (d : Domain) (f : Lsc → Lsc) : (d.setLsc f).regs = d.regs := rfl
@[simp] theorem Domain.setLsc_mem (d : Domain) (f : Lsc → Lsc) : (d.setLsc f).mem = d.mem := rfl
@[simp] theorem Domain.setLsc_evq (d : Domain) (f : Lsc → Lsc) : (d.setLsc f).evq = d.evq := rfl
@[simp] theorem Domain.setLsc_stamps (d : Domain) (f : Lsc → Lsc) : (d.setLsc f).stamps = d.stamps := rfl
@[simp] theorem Domain.setLsc_evNext (d : Domain) (f : Lsc → Lsc) : (d.setLsc f).evNext = d.evNext := rfl
@[simp] theorem Domain.setLsc_evTurn (d : Domain) (f : Lsc → Lsc) : (d.setLsc f).evTurn = d.evTurn := rfl
@[simp] theorem Domain.setLsc_cyc (d : Domain) (f : Lsc → Lsc) : (d.setLsc f).cyc = d.cyc := rfl
@[simp] theorem Domain.setLsc_e0 (d : Domain) (f : Lsc → Lsc) : (d.setLsc f).e0 = d.e0 := rfl
@[simp] theorem Domain.setLsc_e1 (d : Domain) (f : Lsc → Lsc) : (d.setLsc f).e1 = d.e1 := rfl
@[simp] theorem Domain.setLsc_e2 (d : Domain) (f : Lsc → Lsc) : (d.setLsc f).e2 = d.e2 := rfl
@[simp] theorem Domain.setLsc_pll (d : Domain) (f : Lsc → Lsc) : (d.setLsc f).pll = d.pll := rfl
@[simp] theorem Domain.setLsc_perf (d : Domain) (f : Lsc → Lsc) : (d.setLsc f).perf = d.perf := rfl
@[simp] theorem Domain.setLsc_dbg (d : Domain) (f : Lsc → Lsc) : (d.setLsc f).dbg = d.dbg := rfl
@[simp] theorem Domain.setLsc_thm (d : Domain) (f : Lsc → Lsc) : (d.setLsc f).thm = d.thm := rfl
@[simp] theorem Domain.setLsc_spr (d : Domain) (f : Lsc → Lsc) : (d.setLsc f).spr = d.spr := rfl
@[simp] theorem Domain.setLsc_bank (d : Domain) (f : Lsc → Lsc) : (d.setLsc f).bank = d.bank := rfl
@[simp] theorem Domain.setLsc_onRc (d : Domain) (f : Lsc → Lsc) : (d.setLsc f).onRc = d.onRc := rfl
@[simp] theorem Domain.setLsc_warm (d : Domain) (f : Lsc → Lsc) : (d.setLsc f).warm = d.warm := rfl
@[simp] theorem Domain.setLsc_lsc (d : Domain) (f : Lsc → Lsc) : (d.setLsc f).lsc = f d.lsc := rfl

/-! ### Domain.setPll -/

@[simp] theorem Domain.setPll_id (d : Domain) (f : Pll → Pll) : (d.setPll f).id = d.id := rfl
@[simp] theorem Domain.setPll_time (d : Domain) (f : Pll → Pll) : (d.setPll f).time = d.time := rfl
@[simp] theorem Domain.setPll_fresh (d : Domain) (f : Pll → Pll) : (d.setPll f).fresh = d.fresh := rfl
@[simp] theorem Domain.setPll_rs (d : Domain) (f : Pll → Pll) : (d.setPll f).rs = d.rs := rfl
@[simp] theorem Domain.setPll_regs (d : Domain) (f : Pll → Pll) : (d.setPll f).regs = d.regs := rfl
@[simp] theorem Domain.setPll_mem (d : Domain) (f : Pll → Pll) : (d.setPll f).mem = d.mem := rfl
@[simp] theorem Domain.setPll_evq (d : Domain) (f : Pll → Pll) : (d.setPll f).evq = d.evq := rfl
@[simp] theorem Domain.setPll_stamps (d : Domain) (f : Pll → Pll) : (d.setPll f).stamps = d.stamps := rfl
@[simp] theorem Domain.setPll_evNext (d : Domain) (f : Pll → Pll) : (d.setPll f).evNext = d.evNext := rfl
@[simp] theorem Domain.setPll_evTurn (d : Domain) (f : Pll → Pll) : (d.setPll f).evTurn = d.evTurn := rfl
@[simp] theorem Domain.setPll_cyc (d : Domain) (f : Pll → Pll) : (d.setPll f).cyc = d.cyc := rfl
@[simp] theorem Domain.setPll_e0 (d : Domain) (f : Pll → Pll) : (d.setPll f).e0 = d.e0 := rfl
@[simp] theorem Domain.setPll_e1 (d : Domain) (f : Pll → Pll) : (d.setPll f).e1 = d.e1 := rfl
@[simp] theorem Domain.setPll_e2 (d : Domain) (f : Pll → Pll) : (d.setPll f).e2 = d.e2 := rfl
@[simp] theorem Domain.setPll_lsc (d : Domain) (f : Pll → Pll) : (d.setPll f).lsc = d.lsc := rfl
@[simp] theorem Domain.setPll_perf (d : Domain) (f : Pll → Pll) : (d.setPll f).perf = d.perf := rfl
@[simp] theorem Domain.setPll_dbg (d : Domain) (f : Pll → Pll) : (d.setPll f).dbg = d.dbg := rfl
@[simp] theorem Domain.setPll_thm (d : Domain) (f : Pll → Pll) : (d.setPll f).thm = d.thm := rfl
@[simp] theorem Domain.setPll_spr (d : Domain) (f : Pll → Pll) : (d.setPll f).spr = d.spr := rfl
@[simp] theorem Domain.setPll_bank (d : Domain) (f : Pll → Pll) : (d.setPll f).bank = d.bank := rfl
@[simp] theorem Domain.setPll_onRc (d : Domain) (f : Pll → Pll) : (d.setPll f).onRc = d.onRc := rfl
@[simp] theorem Domain.setPll_warm (d : Domain) (f : Pll → Pll) : (d.setPll f).warm = d.warm := rfl
@[simp] theorem Domain.setPll_pll (d : Domain) (f : Pll → Pll) : (d.setPll f).pll = f d.pll := rfl

/-! ### Domain.setThm -/

@[simp] theorem Domain.setThm_id (d : Domain) (f : Thm → Thm) : (d.setThm f).id = d.id := rfl
@[simp] theorem Domain.setThm_time (d : Domain) (f : Thm → Thm) : (d.setThm f).time = d.time := rfl
@[simp] theorem Domain.setThm_fresh (d : Domain) (f : Thm → Thm) : (d.setThm f).fresh = d.fresh := rfl
@[simp] theorem Domain.setThm_rs (d : Domain) (f : Thm → Thm) : (d.setThm f).rs = d.rs := rfl
@[simp] theorem Domain.setThm_regs (d : Domain) (f : Thm → Thm) : (d.setThm f).regs = d.regs := rfl
@[simp] theorem Domain.setThm_mem (d : Domain) (f : Thm → Thm) : (d.setThm f).mem = d.mem := rfl
@[simp] theorem Domain.setThm_evq (d : Domain) (f : Thm → Thm) : (d.setThm f).evq = d.evq := rfl
@[simp] theorem Domain.setThm_stamps (d : Domain) (f : Thm → Thm) : (d.setThm f).stamps = d.stamps := rfl
@[simp] theorem Domain.setThm_evNext (d : Domain) (f : Thm → Thm) : (d.setThm f).evNext = d.evNext := rfl
@[simp] theorem Domain.setThm_evTurn (d : Domain) (f : Thm → Thm) : (d.setThm f).evTurn = d.evTurn := rfl
@[simp] theorem Domain.setThm_cyc (d : Domain) (f : Thm → Thm) : (d.setThm f).cyc = d.cyc := rfl
@[simp] theorem Domain.setThm_e0 (d : Domain) (f : Thm → Thm) : (d.setThm f).e0 = d.e0 := rfl
@[simp] theorem Domain.setThm_e1 (d : Domain) (f : Thm → Thm) : (d.setThm f).e1 = d.e1 := rfl
@[simp] theorem Domain.setThm_e2 (d : Domain) (f : Thm → Thm) : (d.setThm f).e2 = d.e2 := rfl
@[simp] theorem Domain.setThm_pll (d : Domain) (f : Thm → Thm) : (d.setThm f).pll = d.pll := rfl
@[simp] theorem Domain.setThm_lsc (d : Domain) (f : Thm → Thm) : (d.setThm f).lsc = d.lsc := rfl
@[simp] theorem Domain.setThm_perf (d : Domain) (f : Thm → Thm) : (d.setThm f).perf = d.perf := rfl
@[simp] theorem Domain.setThm_dbg (d : Domain) (f : Thm → Thm) : (d.setThm f).dbg = d.dbg := rfl
@[simp] theorem Domain.setThm_spr (d : Domain) (f : Thm → Thm) : (d.setThm f).spr = d.spr := rfl
@[simp] theorem Domain.setThm_bank (d : Domain) (f : Thm → Thm) : (d.setThm f).bank = d.bank := rfl
@[simp] theorem Domain.setThm_onRc (d : Domain) (f : Thm → Thm) : (d.setThm f).onRc = d.onRc := rfl
@[simp] theorem Domain.setThm_warm (d : Domain) (f : Thm → Thm) : (d.setThm f).warm = d.warm := rfl
@[simp] theorem Domain.setThm_thm (d : Domain) (f : Thm → Thm) : (d.setThm f).thm = f d.thm := rfl

/-! ### Domain.setSpr -/

@[simp] theorem Domain.setSpr_id (d : Domain) (f : Spr → Spr) : (d.setSpr f).id = d.id := rfl
@[simp] theorem Domain.setSpr_time (d : Domain) (f : Spr → Spr) : (d.setSpr f).time = d.time := rfl
@[simp] theorem Domain.setSpr_fresh (d : Domain) (f : Spr → Spr) : (d.setSpr f).fresh = d.fresh := rfl
@[simp] theorem Domain.setSpr_rs (d : Domain) (f : Spr → Spr) : (d.setSpr f).rs = d.rs := rfl
@[simp] theorem Domain.setSpr_regs (d : Domain) (f : Spr → Spr) : (d.setSpr f).regs = d.regs := rfl
@[simp] theorem Domain.setSpr_mem (d : Domain) (f : Spr → Spr) : (d.setSpr f).mem = d.mem := rfl
@[simp] theorem Domain.setSpr_evq (d : Domain) (f : Spr → Spr) : (d.setSpr f).evq = d.evq := rfl
@[simp] theorem Domain.setSpr_stamps (d : Domain) (f : Spr → Spr) : (d.setSpr f).stamps = d.stamps := rfl
@[simp] theorem Domain.setSpr_evNext (d : Domain) (f : Spr → Spr) : (d.setSpr f).evNext = d.evNext := rfl
@[simp] theorem Domain.setSpr_evTurn (d : Domain) (f : Spr → Spr) : (d.setSpr f).evTurn = d.evTurn := rfl
@[simp] theorem Domain.setSpr_cyc (d : Domain) (f : Spr → Spr) : (d.setSpr f).cyc = d.cyc := rfl
@[simp] theorem Domain.setSpr_e0 (d : Domain) (f : Spr → Spr) : (d.setSpr f).e0 = d.e0 := rfl
@[simp] theorem Domain.setSpr_e1 (d : Domain) (f : Spr → Spr) : (d.setSpr f).e1 = d.e1 := rfl
@[simp] theorem Domain.setSpr_e2 (d : Domain) (f : Spr → Spr) : (d.setSpr f).e2 = d.e2 := rfl
@[simp] theorem Domain.setSpr_pll (d : Domain) (f : Spr → Spr) : (d.setSpr f).pll = d.pll := rfl
@[simp] theorem Domain.setSpr_lsc (d : Domain) (f : Spr → Spr) : (d.setSpr f).lsc = d.lsc := rfl
@[simp] theorem Domain.setSpr_perf (d : Domain) (f : Spr → Spr) : (d.setSpr f).perf = d.perf := rfl
@[simp] theorem Domain.setSpr_dbg (d : Domain) (f : Spr → Spr) : (d.setSpr f).dbg = d.dbg := rfl
@[simp] theorem Domain.setSpr_thm (d : Domain) (f : Spr → Spr) : (d.setSpr f).thm = d.thm := rfl
@[simp] theorem Domain.setSpr_bank (d : Domain) (f : Spr → Spr) : (d.setSpr f).bank = d.bank := rfl
@[simp] theorem Domain.setSpr_onRc (d : Domain) (f : Spr → Spr) : (d.setSpr f).onRc = d.onRc := rfl
@[simp] theorem Domain.setSpr_warm (d : Domain) (f : Spr → Spr) : (d.setSpr f).warm = d.warm := rfl
@[simp] theorem Domain.setSpr_spr (d : Domain) (f : Spr → Spr) : (d.setSpr f).spr = f d.spr := rfl

/-! ### Domain.setCore -/

@[simp] theorem Domain.setCore_id (d : Domain) (e : Eng) (x : Core) : (d.setCore e x).id = d.id := by cases e <;> rfl
@[simp] theorem Domain.setCore_time (d : Domain) (e : Eng) (x : Core) : (d.setCore e x).time = d.time :=
  by cases e <;> rfl
@[simp] theorem Domain.setCore_fresh (d : Domain) (e : Eng) (x : Core) : (d.setCore e x).fresh = d.fresh :=
  by cases e <;> rfl
@[simp] theorem Domain.setCore_rs (d : Domain) (e : Eng) (x : Core) : (d.setCore e x).rs = d.rs := by cases e <;> rfl
@[simp] theorem Domain.setCore_regs (d : Domain) (e : Eng) (x : Core) : (d.setCore e x).regs = d.regs :=
  by cases e <;> rfl
@[simp] theorem Domain.setCore_mem (d : Domain) (e : Eng) (x : Core) : (d.setCore e x).mem = d.mem := by cases e <;> rfl
@[simp] theorem Domain.setCore_evq (d : Domain) (e : Eng) (x : Core) : (d.setCore e x).evq = d.evq := by cases e <;> rfl
@[simp] theorem Domain.setCore_stamps (d : Domain) (e : Eng) (x : Core) : (d.setCore e x).stamps = d.stamps :=
  by cases e <;> rfl
@[simp] theorem Domain.setCore_evNext (d : Domain) (e : Eng) (x : Core) : (d.setCore e x).evNext = d.evNext :=
  by cases e <;> rfl
@[simp] theorem Domain.setCore_evTurn (d : Domain) (e : Eng) (x : Core) : (d.setCore e x).evTurn = d.evTurn :=
  by cases e <;> rfl
@[simp] theorem Domain.setCore_cyc (d : Domain) (e : Eng) (x : Core) : (d.setCore e x).cyc = d.cyc := by cases e <;> rfl
@[simp] theorem Domain.setCore_pll (d : Domain) (e : Eng) (x : Core) : (d.setCore e x).pll = d.pll := by cases e <;> rfl
@[simp] theorem Domain.setCore_lsc (d : Domain) (e : Eng) (x : Core) : (d.setCore e x).lsc = d.lsc := by cases e <;> rfl
@[simp] theorem Domain.setCore_perf (d : Domain) (e : Eng) (x : Core) : (d.setCore e x).perf = d.perf :=
  by cases e <;> rfl
@[simp] theorem Domain.setCore_dbg (d : Domain) (e : Eng) (x : Core) : (d.setCore e x).dbg = d.dbg := by cases e <;> rfl
@[simp] theorem Domain.setCore_thm (d : Domain) (e : Eng) (x : Core) : (d.setCore e x).thm = d.thm := by cases e <;> rfl
@[simp] theorem Domain.setCore_spr (d : Domain) (e : Eng) (x : Core) : (d.setCore e x).spr = d.spr := by cases e <;> rfl
@[simp] theorem Domain.setCore_bank (d : Domain) (e : Eng) (x : Core) : (d.setCore e x).bank = d.bank :=
  by cases e <;> rfl
@[simp] theorem Domain.setCore_onRc (d : Domain) (e : Eng) (x : Core) : (d.setCore e x).onRc = d.onRc :=
  by cases e <;> rfl
@[simp] theorem Domain.setCore_warm (d : Domain) (e : Eng) (x : Core) : (d.setCore e x).warm = d.warm :=
  by cases e <;> rfl
@[simp] theorem Domain.setCore_core (d : Domain) (e : Eng) (x : Core) : (d.setCore e x).core e = x := by cases e <;> rfl
theorem Domain.setCore_core_other (d : Domain) {e f : Eng} (x : Core) (h : e ≠ f) : (d.setCore e x).core f = d.core f :=
  by
  cases e <;> cases f <;> first | exact absurd rfl h | rfl

/-! ### Channel.set -/

@[simp] theorem Channel.set_plan (c : Channel) (f : Fld) (v : Word) : (c.set f v).plan = c.plan := rfl
@[simp] theorem Channel.set_live (c : Channel) (f : Fld) (v : Word) : (c.set f v).live = c.live := rfl
@[simp] theorem Channel.set_cmt (c : Channel) (f : Fld) (v : Word) : (c.set f v).cmt = c.cmt := rfl
@[simp] theorem Channel.set_refusals (c : Channel) (f : Fld) (v : Word) : (c.set f v).refusals = c.refusals := rfl
@[simp] theorem Channel.set_retiring (c : Channel) (f : Fld) (v : Word) : (c.set f v).retiring = c.retiring := rfl
@[simp] theorem Channel.set_heldPlan (c : Channel) (f : Fld) (v : Word) : (c.set f v).heldPlan = c.heldPlan := rfl
@[simp] theorem Channel.set_planOld (c : Channel) (f : Fld) (v : Word) : (c.set f v).planOld = c.planOld := rfl
@[simp] theorem Channel.set_planBad (c : Channel) (f : Fld) (v : Word) : (c.set f v).planBad = c.planBad := rfl
@[simp] theorem Channel.set_rwlNext (c : Channel) (f : Fld) (v : Word) : (c.set f v).rwlNext = c.rwlNext := rfl
@[simp] theorem Channel.set_rwlHeld (c : Channel) (f : Fld) (v : Word) : (c.set f v).rwlHeld = c.rwlHeld := rfl
@[simp] theorem Channel.set_holdBoundaries (c : Channel) (f : Fld) (v : Word) : (c.set f v).holdBoundaries = c.holdBoundaries :=
  rfl
@[simp] theorem Channel.set_weir (c : Channel) (f : Fld) (v : Word) : (c.set f v).weir = c.weir := rfl
@[simp] theorem Channel.set_pos (c : Channel) (f : Fld) (v : Word) : (c.set f v).pos = c.pos := rfl
@[simp] theorem Channel.set_adc (c : Channel) (f : Fld) (v : Word) : (c.set f v).adc = c.adc := rfl
@[simp] theorem Channel.set_pwm (c : Channel) (f : Fld) (v : Word) : (c.set f v).pwm = c.pwm := rfl
@[simp] theorem Channel.set_gdi (c : Channel) (f : Fld) (v : Word) : (c.set f v).gdi = c.gdi := rfl
@[simp] theorem Channel.set_cas (c : Channel) (f : Fld) (v : Word) : (c.set f v).cas = c.cas := rfl
@[simp] theorem Channel.set_safe (c : Channel) (f : Fld) (v : Word) : (c.set f v).safe = c.safe := rfl
@[simp] theorem Channel.set_rt (c : Channel) (f : Fld) (v : Word) : (c.set f v).rt = c.rt := rfl
@[simp] theorem Channel.set_drivers (c : Channel) (f : Fld) (v : Word) : (c.set f v).drivers = c.drivers := rfl
@[simp] theorem Channel.set_dom (c : Channel) (f : Fld) (v : Word) : (c.set f v).dom = c.dom.set f v := rfl

/-! ### Channel.setN -/

@[simp] theorem Channel.setN_plan (c : Channel) (f : Fld) (n : Nat) : (c.setN f n).plan = c.plan := rfl
@[simp] theorem Channel.setN_live (c : Channel) (f : Fld) (n : Nat) : (c.setN f n).live = c.live := rfl
@[simp] theorem Channel.setN_cmt (c : Channel) (f : Fld) (n : Nat) : (c.setN f n).cmt = c.cmt := rfl
@[simp] theorem Channel.setN_refusals (c : Channel) (f : Fld) (n : Nat) : (c.setN f n).refusals = c.refusals := rfl
@[simp] theorem Channel.setN_retiring (c : Channel) (f : Fld) (n : Nat) : (c.setN f n).retiring = c.retiring := rfl
@[simp] theorem Channel.setN_heldPlan (c : Channel) (f : Fld) (n : Nat) : (c.setN f n).heldPlan = c.heldPlan := rfl
@[simp] theorem Channel.setN_planOld (c : Channel) (f : Fld) (n : Nat) : (c.setN f n).planOld = c.planOld := rfl
@[simp] theorem Channel.setN_planBad (c : Channel) (f : Fld) (n : Nat) : (c.setN f n).planBad = c.planBad := rfl
@[simp] theorem Channel.setN_rwlNext (c : Channel) (f : Fld) (n : Nat) : (c.setN f n).rwlNext = c.rwlNext := rfl
@[simp] theorem Channel.setN_rwlHeld (c : Channel) (f : Fld) (n : Nat) : (c.setN f n).rwlHeld = c.rwlHeld := rfl
@[simp] theorem Channel.setN_holdBoundaries (c : Channel) (f : Fld) (n : Nat) : (c.setN f n).holdBoundaries = c.holdBoundaries :=
  rfl
@[simp] theorem Channel.setN_weir (c : Channel) (f : Fld) (n : Nat) : (c.setN f n).weir = c.weir := rfl
@[simp] theorem Channel.setN_pos (c : Channel) (f : Fld) (n : Nat) : (c.setN f n).pos = c.pos := rfl
@[simp] theorem Channel.setN_adc (c : Channel) (f : Fld) (n : Nat) : (c.setN f n).adc = c.adc := rfl
@[simp] theorem Channel.setN_pwm (c : Channel) (f : Fld) (n : Nat) : (c.setN f n).pwm = c.pwm := rfl
@[simp] theorem Channel.setN_gdi (c : Channel) (f : Fld) (n : Nat) : (c.setN f n).gdi = c.gdi := rfl
@[simp] theorem Channel.setN_cas (c : Channel) (f : Fld) (n : Nat) : (c.setN f n).cas = c.cas := rfl
@[simp] theorem Channel.setN_safe (c : Channel) (f : Fld) (n : Nat) : (c.setN f n).safe = c.safe := rfl
@[simp] theorem Channel.setN_rt (c : Channel) (f : Fld) (n : Nat) : (c.setN f n).rt = c.rt := rfl
@[simp] theorem Channel.setN_drivers (c : Channel) (f : Fld) (n : Nat) : (c.setN f n).drivers = c.drivers := rfl
@[simp] theorem Channel.setN_dom (c : Channel) (f : Fld) (n : Nat) : (c.setN f n).dom = c.dom.setN f n := rfl

/-! ### Channel.setB -/

@[simp] theorem Channel.setB_plan (c : Channel) (f : Fld) (b : Bool) : (c.setB f b).plan = c.plan := rfl
@[simp] theorem Channel.setB_live (c : Channel) (f : Fld) (b : Bool) : (c.setB f b).live = c.live := rfl
@[simp] theorem Channel.setB_cmt (c : Channel) (f : Fld) (b : Bool) : (c.setB f b).cmt = c.cmt := rfl
@[simp] theorem Channel.setB_refusals (c : Channel) (f : Fld) (b : Bool) : (c.setB f b).refusals = c.refusals := rfl
@[simp] theorem Channel.setB_retiring (c : Channel) (f : Fld) (b : Bool) : (c.setB f b).retiring = c.retiring := rfl
@[simp] theorem Channel.setB_heldPlan (c : Channel) (f : Fld) (b : Bool) : (c.setB f b).heldPlan = c.heldPlan := rfl
@[simp] theorem Channel.setB_planOld (c : Channel) (f : Fld) (b : Bool) : (c.setB f b).planOld = c.planOld := rfl
@[simp] theorem Channel.setB_planBad (c : Channel) (f : Fld) (b : Bool) : (c.setB f b).planBad = c.planBad := rfl
@[simp] theorem Channel.setB_rwlNext (c : Channel) (f : Fld) (b : Bool) : (c.setB f b).rwlNext = c.rwlNext := rfl
@[simp] theorem Channel.setB_rwlHeld (c : Channel) (f : Fld) (b : Bool) : (c.setB f b).rwlHeld = c.rwlHeld := rfl
@[simp] theorem Channel.setB_holdBoundaries (c : Channel) (f : Fld) (b : Bool) : (c.setB f b).holdBoundaries = c.holdBoundaries :=
  rfl
@[simp] theorem Channel.setB_weir (c : Channel) (f : Fld) (b : Bool) : (c.setB f b).weir = c.weir := rfl
@[simp] theorem Channel.setB_pos (c : Channel) (f : Fld) (b : Bool) : (c.setB f b).pos = c.pos := rfl
@[simp] theorem Channel.setB_adc (c : Channel) (f : Fld) (b : Bool) : (c.setB f b).adc = c.adc := rfl
@[simp] theorem Channel.setB_pwm (c : Channel) (f : Fld) (b : Bool) : (c.setB f b).pwm = c.pwm := rfl
@[simp] theorem Channel.setB_gdi (c : Channel) (f : Fld) (b : Bool) : (c.setB f b).gdi = c.gdi := rfl
@[simp] theorem Channel.setB_cas (c : Channel) (f : Fld) (b : Bool) : (c.setB f b).cas = c.cas := rfl
@[simp] theorem Channel.setB_safe (c : Channel) (f : Fld) (b : Bool) : (c.setB f b).safe = c.safe := rfl
@[simp] theorem Channel.setB_rt (c : Channel) (f : Fld) (b : Bool) : (c.setB f b).rt = c.rt := rfl
@[simp] theorem Channel.setB_drivers (c : Channel) (f : Fld) (b : Bool) : (c.setB f b).drivers = c.drivers := rfl
@[simp] theorem Channel.setB_dom (c : Channel) (f : Fld) (b : Bool) : (c.setB f b).dom = c.dom.setB f b := rfl

/-! ### Channel.count -/

@[simp] theorem Channel.count_plan (c : Channel) (f : Fld) : (c.count f).plan = c.plan := rfl
@[simp] theorem Channel.count_live (c : Channel) (f : Fld) : (c.count f).live = c.live := rfl
@[simp] theorem Channel.count_cmt (c : Channel) (f : Fld) : (c.count f).cmt = c.cmt := rfl
@[simp] theorem Channel.count_refusals (c : Channel) (f : Fld) : (c.count f).refusals = c.refusals := rfl
@[simp] theorem Channel.count_retiring (c : Channel) (f : Fld) : (c.count f).retiring = c.retiring := rfl
@[simp] theorem Channel.count_heldPlan (c : Channel) (f : Fld) : (c.count f).heldPlan = c.heldPlan := rfl
@[simp] theorem Channel.count_planOld (c : Channel) (f : Fld) : (c.count f).planOld = c.planOld := rfl
@[simp] theorem Channel.count_planBad (c : Channel) (f : Fld) : (c.count f).planBad = c.planBad := rfl
@[simp] theorem Channel.count_rwlNext (c : Channel) (f : Fld) : (c.count f).rwlNext = c.rwlNext := rfl
@[simp] theorem Channel.count_rwlHeld (c : Channel) (f : Fld) : (c.count f).rwlHeld = c.rwlHeld := rfl
@[simp] theorem Channel.count_holdBoundaries (c : Channel) (f : Fld) : (c.count f).holdBoundaries = c.holdBoundaries :=
  rfl
@[simp] theorem Channel.count_weir (c : Channel) (f : Fld) : (c.count f).weir = c.weir := rfl
@[simp] theorem Channel.count_pos (c : Channel) (f : Fld) : (c.count f).pos = c.pos := rfl
@[simp] theorem Channel.count_adc (c : Channel) (f : Fld) : (c.count f).adc = c.adc := rfl
@[simp] theorem Channel.count_pwm (c : Channel) (f : Fld) : (c.count f).pwm = c.pwm := rfl
@[simp] theorem Channel.count_gdi (c : Channel) (f : Fld) : (c.count f).gdi = c.gdi := rfl
@[simp] theorem Channel.count_cas (c : Channel) (f : Fld) : (c.count f).cas = c.cas := rfl
@[simp] theorem Channel.count_safe (c : Channel) (f : Fld) : (c.count f).safe = c.safe := rfl
@[simp] theorem Channel.count_rt (c : Channel) (f : Fld) : (c.count f).rt = c.rt := rfl
@[simp] theorem Channel.count_drivers (c : Channel) (f : Fld) : (c.count f).drivers = c.drivers := rfl
@[simp] theorem Channel.count_dom (c : Channel) (f : Fld) : (c.count f).dom = c.dom.count f := rfl

/-! ### Channel.raise -/

@[simp] theorem Channel.raise_plan (c : Channel) (ev arg : Nat) : (c.raise ev arg).plan = c.plan := rfl
@[simp] theorem Channel.raise_live (c : Channel) (ev arg : Nat) : (c.raise ev arg).live = c.live := rfl
@[simp] theorem Channel.raise_cmt (c : Channel) (ev arg : Nat) : (c.raise ev arg).cmt = c.cmt := rfl
@[simp] theorem Channel.raise_refusals (c : Channel) (ev arg : Nat) : (c.raise ev arg).refusals = c.refusals := rfl
@[simp] theorem Channel.raise_retiring (c : Channel) (ev arg : Nat) : (c.raise ev arg).retiring = c.retiring := rfl
@[simp] theorem Channel.raise_heldPlan (c : Channel) (ev arg : Nat) : (c.raise ev arg).heldPlan = c.heldPlan := rfl
@[simp] theorem Channel.raise_planOld (c : Channel) (ev arg : Nat) : (c.raise ev arg).planOld = c.planOld := rfl
@[simp] theorem Channel.raise_planBad (c : Channel) (ev arg : Nat) : (c.raise ev arg).planBad = c.planBad := rfl
@[simp] theorem Channel.raise_rwlNext (c : Channel) (ev arg : Nat) : (c.raise ev arg).rwlNext = c.rwlNext := rfl
@[simp] theorem Channel.raise_rwlHeld (c : Channel) (ev arg : Nat) : (c.raise ev arg).rwlHeld = c.rwlHeld := rfl
@[simp] theorem Channel.raise_holdBoundaries (c : Channel) (ev arg : Nat) : (c.raise ev arg).holdBoundaries = c.holdBoundaries :=
  rfl
@[simp] theorem Channel.raise_weir (c : Channel) (ev arg : Nat) : (c.raise ev arg).weir = c.weir := rfl
@[simp] theorem Channel.raise_pos (c : Channel) (ev arg : Nat) : (c.raise ev arg).pos = c.pos := rfl
@[simp] theorem Channel.raise_adc (c : Channel) (ev arg : Nat) : (c.raise ev arg).adc = c.adc := rfl
@[simp] theorem Channel.raise_pwm (c : Channel) (ev arg : Nat) : (c.raise ev arg).pwm = c.pwm := rfl
@[simp] theorem Channel.raise_gdi (c : Channel) (ev arg : Nat) : (c.raise ev arg).gdi = c.gdi := rfl
@[simp] theorem Channel.raise_cas (c : Channel) (ev arg : Nat) : (c.raise ev arg).cas = c.cas := rfl
@[simp] theorem Channel.raise_safe (c : Channel) (ev arg : Nat) : (c.raise ev arg).safe = c.safe := rfl
@[simp] theorem Channel.raise_rt (c : Channel) (ev arg : Nat) : (c.raise ev arg).rt = c.rt := rfl
@[simp] theorem Channel.raise_drivers (c : Channel) (ev arg : Nat) : (c.raise ev arg).drivers = c.drivers := rfl
@[simp] theorem Channel.raise_dom (c : Channel) (ev arg : Nat) : (c.raise ev arg).dom = c.dom.raise ev arg := rfl

/-! ### Channel.raiseAt -/

@[simp] theorem Channel.raiseAt_plan (c : Channel) (t ev arg : Nat) : (c.raiseAt t ev arg).plan = c.plan := rfl
@[simp] theorem Channel.raiseAt_live (c : Channel) (t ev arg : Nat) : (c.raiseAt t ev arg).live = c.live := rfl
@[simp] theorem Channel.raiseAt_cmt (c : Channel) (t ev arg : Nat) : (c.raiseAt t ev arg).cmt = c.cmt := rfl
@[simp] theorem Channel.raiseAt_refusals (c : Channel) (t ev arg : Nat) : (c.raiseAt t ev arg).refusals = c.refusals :=
  rfl
@[simp] theorem Channel.raiseAt_retiring (c : Channel) (t ev arg : Nat) : (c.raiseAt t ev arg).retiring = c.retiring :=
  rfl
@[simp] theorem Channel.raiseAt_heldPlan (c : Channel) (t ev arg : Nat) : (c.raiseAt t ev arg).heldPlan = c.heldPlan :=
  rfl
@[simp] theorem Channel.raiseAt_planOld (c : Channel) (t ev arg : Nat) : (c.raiseAt t ev arg).planOld = c.planOld := rfl
@[simp] theorem Channel.raiseAt_planBad (c : Channel) (t ev arg : Nat) : (c.raiseAt t ev arg).planBad = c.planBad := rfl
@[simp] theorem Channel.raiseAt_rwlNext (c : Channel) (t ev arg : Nat) : (c.raiseAt t ev arg).rwlNext = c.rwlNext := rfl
@[simp] theorem Channel.raiseAt_rwlHeld (c : Channel) (t ev arg : Nat) : (c.raiseAt t ev arg).rwlHeld = c.rwlHeld := rfl
@[simp] theorem Channel.raiseAt_holdBoundaries (c : Channel) (t ev arg : Nat) : (c.raiseAt t ev arg).holdBoundaries = c.holdBoundaries :=
  rfl
@[simp] theorem Channel.raiseAt_weir (c : Channel) (t ev arg : Nat) : (c.raiseAt t ev arg).weir = c.weir := rfl
@[simp] theorem Channel.raiseAt_pos (c : Channel) (t ev arg : Nat) : (c.raiseAt t ev arg).pos = c.pos := rfl
@[simp] theorem Channel.raiseAt_adc (c : Channel) (t ev arg : Nat) : (c.raiseAt t ev arg).adc = c.adc := rfl
@[simp] theorem Channel.raiseAt_pwm (c : Channel) (t ev arg : Nat) : (c.raiseAt t ev arg).pwm = c.pwm := rfl
@[simp] theorem Channel.raiseAt_gdi (c : Channel) (t ev arg : Nat) : (c.raiseAt t ev arg).gdi = c.gdi := rfl
@[simp] theorem Channel.raiseAt_cas (c : Channel) (t ev arg : Nat) : (c.raiseAt t ev arg).cas = c.cas := rfl
@[simp] theorem Channel.raiseAt_safe (c : Channel) (t ev arg : Nat) : (c.raiseAt t ev arg).safe = c.safe := rfl
@[simp] theorem Channel.raiseAt_rt (c : Channel) (t ev arg : Nat) : (c.raiseAt t ev arg).rt = c.rt := rfl
@[simp] theorem Channel.raiseAt_drivers (c : Channel) (t ev arg : Nat) : (c.raiseAt t ev arg).drivers = c.drivers := rfl
@[simp] theorem Channel.raiseAt_dom (c : Channel) (t ev arg : Nat) : (c.raiseAt t ev arg).dom = c.dom.raiseAt t ev arg :=
  rfl

/-! ### Channel.mapDom -/

@[simp] theorem Channel.mapDom_plan (c : Channel) (f : Domain → Domain) : (c.mapDom f).plan = c.plan := rfl
@[simp] theorem Channel.mapDom_live (c : Channel) (f : Domain → Domain) : (c.mapDom f).live = c.live := rfl
@[simp] theorem Channel.mapDom_cmt (c : Channel) (f : Domain → Domain) : (c.mapDom f).cmt = c.cmt := rfl
@[simp] theorem Channel.mapDom_refusals (c : Channel) (f : Domain → Domain) : (c.mapDom f).refusals = c.refusals := rfl
@[simp] theorem Channel.mapDom_retiring (c : Channel) (f : Domain → Domain) : (c.mapDom f).retiring = c.retiring := rfl
@[simp] theorem Channel.mapDom_heldPlan (c : Channel) (f : Domain → Domain) : (c.mapDom f).heldPlan = c.heldPlan := rfl
@[simp] theorem Channel.mapDom_planOld (c : Channel) (f : Domain → Domain) : (c.mapDom f).planOld = c.planOld := rfl
@[simp] theorem Channel.mapDom_planBad (c : Channel) (f : Domain → Domain) : (c.mapDom f).planBad = c.planBad := rfl
@[simp] theorem Channel.mapDom_rwlNext (c : Channel) (f : Domain → Domain) : (c.mapDom f).rwlNext = c.rwlNext := rfl
@[simp] theorem Channel.mapDom_rwlHeld (c : Channel) (f : Domain → Domain) : (c.mapDom f).rwlHeld = c.rwlHeld := rfl
@[simp] theorem Channel.mapDom_holdBoundaries (c : Channel) (f : Domain → Domain) : (c.mapDom f).holdBoundaries = c.holdBoundaries :=
  rfl
@[simp] theorem Channel.mapDom_weir (c : Channel) (f : Domain → Domain) : (c.mapDom f).weir = c.weir := rfl
@[simp] theorem Channel.mapDom_pos (c : Channel) (f : Domain → Domain) : (c.mapDom f).pos = c.pos := rfl
@[simp] theorem Channel.mapDom_adc (c : Channel) (f : Domain → Domain) : (c.mapDom f).adc = c.adc := rfl
@[simp] theorem Channel.mapDom_pwm (c : Channel) (f : Domain → Domain) : (c.mapDom f).pwm = c.pwm := rfl
@[simp] theorem Channel.mapDom_gdi (c : Channel) (f : Domain → Domain) : (c.mapDom f).gdi = c.gdi := rfl
@[simp] theorem Channel.mapDom_cas (c : Channel) (f : Domain → Domain) : (c.mapDom f).cas = c.cas := rfl
@[simp] theorem Channel.mapDom_safe (c : Channel) (f : Domain → Domain) : (c.mapDom f).safe = c.safe := rfl
@[simp] theorem Channel.mapDom_rt (c : Channel) (f : Domain → Domain) : (c.mapDom f).rt = c.rt := rfl
@[simp] theorem Channel.mapDom_drivers (c : Channel) (f : Domain → Domain) : (c.mapDom f).drivers = c.drivers := rfl
@[simp] theorem Channel.mapDom_dom (c : Channel) (f : Domain → Domain) : (c.mapDom f).dom = f c.dom := rfl

/-! ### The device -/

@[simp] theorem State.setCh_host (s : State) (n : Chan) (c : Channel) : (s.setCh n c).host = s.host := by cases n <;> rfl
@[simp] theorem State.setCh_dev (s : State) (n : Chan) (c : Channel) : (s.setCh n c).dev = s.dev := by cases n <;> rfl
@[simp] theorem State.setCh_pending (s : State) (n : Chan) (c : Channel) : (s.setCh n c).pending = s.pending := by
  cases n <;> rfl
@[simp] theorem State.setCh_ch (s : State) (n : Chan) (c : Channel) : (s.setCh n c).ch n = c := by cases n <;> rfl
theorem State.setCh_ch_other (s : State) {n m : Chan} (c : Channel) (h : n ≠ m) : (s.setCh n c).ch m = s.ch m := by
  cases n <;> cases m <;> first | exact absurd rfl h | rfl
@[simp] theorem State.setDom_dev (s : State) (d : Dom) (x : Domain) : (s.setDom d x).dev = s.dev := by
  cases d with
  | ch n => exact State.setCh_dev s n _
  | host => rfl
@[simp] theorem State.setDom_pending (s : State) (d : Dom) (x : Domain) : (s.setDom d x).pending = s.pending := by
  cases d with
  | ch n => exact State.setCh_pending s n _
  | host => rfl
@[simp] theorem State.setDom_dom (s : State) (d : Dom) (x : Domain) : (s.setDom d x).dom d = x := by
  cases d with
  | ch n => cases n <;> rfl
  | host => rfl
theorem State.setDom_dom_other (s : State) {d e : Dom} (x : Domain) (h : d ≠ e) : (s.setDom d x).dom e = s.dom e := by
  rcases d with n | _ <;> rcases e with m | _
  · have : n ≠ m := fun hh => h (by rw [hh])
    cases n <;> cases m <;> first | exact absurd rfl this | rfl
  · cases n <;> rfl
  · rfl
  · exact absurd rfl h
@[simp] theorem State.dom_ch (s : State) (n : Chan) : s.dom (.ch n) = (s.ch n).dom := rfl
@[simp] theorem State.dom_host (s : State) : s.dom .host = s.host.dom := rfl
@[simp] theorem State.setDom_ch_blocks (s : State) (n : Chan) (x : Domain) :
    (s.setDom (.ch n) x).ch n = { s.ch n with dom := x } := by cases n <;> rfl

end Sys2Proof.Machine
end

