-- ==== Sys2Proof/Laws/Settle.lean ====
section
/-! SUPPORT. Laws/Settle.lean: everything that a command of one channel or of the host can change besides what its own
operation changes. What follows in the same cycle (counted signals, the link-loss indication, what the host learns)
touches only event queues, counters and the register fields that are not `quiet`. -/

namespace Sys2Proof.Machine

theorem Counted.refl (a : Domain) : Counted a a := ⟨⟨a.regs, a.perf, [], a.evNext, a.cyc, by simp⟩, fun _ _ => rfl⟩

theorem Counted.trans {a b c : Domain} (h : Counted a b) (g : Counted b c) : Counted a c := by
  obtain ⟨⟨r, p, q, n, y, rfl⟩, h2⟩ := h
  obtain ⟨⟨r', p', q', n', y', rfl⟩, g2⟩ := g
  exact ⟨⟨r', p', q ++ q', n', y', by simp⟩, fun f hf => (g2 f hf).trans (h2 f hf)⟩

/-- A fold of counted operations is counted. -/
theorem Counted.foldl {α : Type} (op : Domain → α → Domain) (h : ∀ d x, Counted d (op d x)) (l : List α) (d : Domain) :
    Counted d (l.foldl op d) := by
  induction l generalizing d with
  | nil => exact .refl d
  | cons x l ih => exact (h d x).trans (ih _)

section
variable {a b : Domain} (h : Counted a b)
include h
theorem Counted.id : b.id = a.id := by obtain ⟨⟨r, p, q, n, y, rfl⟩, -⟩ := h; rfl
theorem Counted.time : b.time = a.time := by obtain ⟨⟨r, p, q, n, y, rfl⟩, -⟩ := h; rfl
theorem Counted.fresh : b.fresh = a.fresh := by obtain ⟨⟨r, p, q, n, y, rfl⟩, -⟩ := h; rfl
theorem Counted.rs : b.rs = a.rs := by obtain ⟨⟨r, p, q, n, y, rfl⟩, -⟩ := h; rfl
theorem Counted.mem : b.mem = a.mem := by obtain ⟨⟨r, p, q, n, y, rfl⟩, -⟩ := h; rfl
theorem Counted.stamps : b.stamps = a.stamps := by obtain ⟨⟨r, p, q, n, y, rfl⟩, -⟩ := h; rfl
theorem Counted.core (e : Eng) : b.core e = a.core e := by obtain ⟨⟨r, p, q, n, y, rfl⟩, -⟩ := h; cases e <;> rfl
theorem Counted.pll : b.pll = a.pll := by obtain ⟨⟨r, p, q, n, y, rfl⟩, -⟩ := h; rfl
theorem Counted.lsc : b.lsc = a.lsc := by obtain ⟨⟨r, p, q, n, y, rfl⟩, -⟩ := h; rfl
theorem Counted.dbg : b.dbg = a.dbg := by obtain ⟨⟨r, p, q, n, y, rfl⟩, -⟩ := h; rfl
theorem Counted.thm : b.thm = a.thm := by obtain ⟨⟨r, p, q, n, y, rfl⟩, -⟩ := h; rfl
theorem Counted.spr : b.spr = a.spr := by obtain ⟨⟨r, p, q, n, y, rfl⟩, -⟩ := h; rfl
theorem Counted.bank : b.bank = a.bank := by obtain ⟨⟨r, p, q, n, y, rfl⟩, -⟩ := h; rfl
theorem Counted.inReset : b.inReset = a.inReset := by obtain ⟨⟨r, p, q, n, y, rfl⟩, -⟩ := h; rfl
theorem Counted.rgN (f : Fld) (hf : f.quiet) : b.rgN f = a.rgN f := by simp [Domain.rgN, h.rg f hf]
theorem Counted.rgB (f : Fld) (hf : f.quiet) : b.rgB f = a.rgB f := by simp [Domain.rgB, h.rg f hf]
end

/-- A write of a field that is not quiet, or none of its neighbours. -/
theorem Counted.set (d : Domain) (f : Fld) (v : Word) (h : ∀ g : Fld, g.quiet → f.reg ≠ g.reg ∨ g.hi < f.lo ∨ f.hi < g.lo) :
    Counted d (d.set f v) :=
  ⟨⟨(d.set f v).regs, d.perf, [], d.evNext, d.cyc, by simp; rfl⟩, fun g hg => Domain.rg_set_apart d f g v hg.1 (h g hg)⟩

/-- A flag that is not quiet, noted as set in this cycle. -/
theorem Counted.setB (d : Domain) (f : Fld) (b : Bool) (h : ∀ g : Fld, g.quiet → f.reg ≠ g.reg ∨ g.hi < f.lo ∨ f.hi < g.lo) :
    Counted d (d.setB f b) :=
  ⟨⟨(d.setB f b).regs, d.perf, [], d.evNext, (d.setB f b).cyc, by simp; rfl⟩,
    fun g hg => (d.rg_setB f g b).trans (Domain.rg_set_apart d f g _ hg.1 (h g hg))⟩

theorem Counted.setWrap (d : Domain) (f : Fld) (b : Bool) (h1 : 0xC0080 ≤ f.reg) (h2 : f.reg < 0xC00B0) :
    Counted d (d.setB f b) := .setB d f b (fun g hg => .inl (fun e => hg.2.1 (by omega)))

theorem Counted.perf (d : Domain) (p : Perf) (y : Cycle) : Counted d { d with perf := p, cyc := y } :=
  ⟨⟨d.regs, p, [], d.evNext, y, by simp⟩, fun _ _ => rfl⟩

theorem Counted.bump (d : Domain) (x n : Nat) (hx : x < 384) : Counted d (d.bump x n) := by
  unfold Domain.bump
  simp only []
  split
  · exact (Counted.perf d _ _).trans (.setWrap _ _ _ (by simp [Fld.bit]) (by simp [Fld.bit]; omega))
  · exact .perf d _ _

theorem Counted.sample (x : Nat) (o : Occ) (d : Domain) (k : Nat) : Counted d (d.sample x o k) := by
  unfold Domain.sample
  split
  · have : ∀ (p : Prop) [Decidable p] (y z : Perf),
        Counted d (if p then ({ d with perf := y }).smpEntry k x o else { d with perf := z }) := by
      intro p _ y z
      split
      · exact .perf d _ _
      · exact .perf d _ d.cyc
    exact this _ _ _
  · exact .refl d

theorem Counted.item (d : Domain) (e j : Nat) (o : Occ) (h : e < 5) (hj : j < 16) : Counted d (d.item e j o) :=
  (Counted.bump d _ 1 (by omega)).trans (.foldl _ (Counted.sample _ o) _ _)

theorem Counted.raiseAt (d : Domain) (t ev arg : Nat) (h : ev < 128) : Counted d (d.raiseAt t ev arg) := by
  unfold Domain.raiseAt
  split
  · exact ⟨⟨d.regs, d.perf, _, _, d.cyc, rfl⟩, fun _ _ => rfl⟩
  · refine .setB d _ _ fun g hg => .inl fun e => hg.2.2.1 ?_
    simp [Fld.bit] at e
    omega

theorem Counted.raise (d : Domain) (ev arg : Nat) (h : ev < 128) : Counted d (d.raise ev arg) := .raiseAt d _ ev arg h

theorem Counted.edge (d : Domain) (i : Nat) (p q : Bool) (h : i < 128) : Counted d (d.edge i p q) := by
  unfold Domain.edge
  split
  · exact .refl d
  · simp only []; split
    · exact .bump d _ 1 (by omega)
    · exact .refl d

theorem CountedCh.refl (a : Channel) : CountedCh a a := ⟨.refl _, rfl⟩

theorem CountedCh.trans {a b c : Channel} (h : CountedCh a b) (g : CountedCh b c) : CountedCh a c :=
  ⟨h.dom.trans g.dom, by rw [g.rest, h.rest]⟩

theorem CountedCh.mapDom (a : Channel) (f : Domain → Domain) (h : Counted a.dom (f a.dom)) : CountedCh a (a.mapDom f) :=
  ⟨h, rfl⟩

theorem CountedCh.settleSignals (old new : Channel) : CountedCh new (Channel.settleSignals old new) := by
  unfold Channel.settleSignals
  split
  · exact .refl _
  · refine .mapDom _ _ ?_
    have key : ∀ (l : List Nat), (∀ i ∈ l, i < 128) → ∀ d, Counted d (l.foldl (fun d i => d.edge i (old.signal i) (new.signal i)) d) := by
      intro l
      induction l with
      | nil => exact fun _ d => .refl d
      | cons x l ih =>
        intro hl d
        exact (Counted.edge d x _ _ (hl x (by simp))).trans (ih (fun i hi => hl i (by simp [hi])) _)
    exact key _ (fun i hi => by have := List.mem_range.1 hi; omega) _

/-! ## The device -/

@[simp] theorem State.setCh_same (s : State) (n : Chan) (c : Channel) : (s.setCh n c).ch n = c := by cases n <;> rfl
theorem State.setCh_other (s : State) {m n : Chan} (c : Channel) (h : m ≠ n) : (s.setCh n c).ch m = s.ch m := by
  cases m <;> cases n <;> first | rfl | exact absurd rfl h
@[simp] theorem State.mapHost_ch (s : State) (f : Domain → Domain) (n : Chan) : (s.mapHost f).ch n = s.ch n := by
  cases n <;> rfl
@[simp] theorem State.mapHost_dev (s : State) (f : Domain → Domain) : (s.mapHost f).dev = s.dev := rfl
@[simp] theorem State.mapHost_pending (s : State) (f : Domain → Domain) : (s.mapHost f).pending = s.pending := rfl

/-- The host domain of the second device is that of the first but for what is counted, and fields of CHEPOCH. -/
structure Told (s t : State) : Prop where
  ch : ∀ n, t.ch n = s.ch n
  dev : t.dev = s.dev
  pending : t.pending = s.pending
  ring : t.host.ring = s.host.ring
  upd : t.host.upd = s.host.upd
  parts : ∃ r p q n y, t.host.dom = { s.host.dom with regs := r, perf := p, evq := q, evNext := n, cyc := y }

theorem Told.refl (s : State) : Told s s :=
  ⟨fun _ => rfl, rfl, rfl, rfl, rfl, ⟨s.host.dom.regs, s.host.dom.perf, s.host.dom.evq, s.host.dom.evNext, s.host.dom.cyc, rfl⟩⟩

theorem Told.trans {a b c : State} (h : Told a b) (g : Told b c) : Told a c := by
  obtain ⟨r, p, q, n, y, hp⟩ := h.parts
  obtain ⟨r', p', q', n', y', gp⟩ := g.parts
  exact ⟨fun n => (g.ch n).trans (h.ch n), g.dev.trans h.dev, g.pending.trans h.pending, g.ring.trans h.ring,
    g.upd.trans h.upd, ⟨r', p', q', n', y', by rw [gp, hp]⟩⟩

theorem Told.mapHost (s : State) (f : Domain → Domain)
    (h : ∃ r p q n y, f s.host.dom = { s.host.dom with regs := r, perf := p, evq := q, evNext := n, cyc := y }) : Told s (s.mapHost f) :=
  ⟨fun n => by cases n <;> rfl, rfl, rfl, rfl, rfl, h⟩

theorem Domain.raise_parts (d : Domain) (ev arg : Nat) :
    ∃ r p q n y, d.raise ev arg = { d with regs := r, perf := p, evq := q, evNext := n, cyc := y } := by
  unfold Domain.raise Domain.raiseAt
  split
  · exact ⟨d.regs, d.perf, _, _, d.cyc, rfl⟩
  · exact ⟨_, d.perf, d.evq, d.evNext, _, rfl⟩

theorem Told.hostEvent (s : State) (ev arg : Nat) : Told s (s.hostEvent ev arg) := by
  unfold State.hostEvent
  split
  · exact .refl s
  · exact .mapHost _ _ (Domain.raise_parts _ _ _)

theorem Told.bumpEpoch (s : State) (i n : Nat) : Told s (s.bumpEpoch i n) := by
  unfold State.bumpEpoch
  split
  · exact .refl s
  · refine .mapHost _ _ ?_
    obtain ⟨r, p, q, m, y, h⟩ := Domain.raise_parts (s.host.dom.setN (RING_CHEPOCH_EPOCH i)
      ((s.host.dom.rgN (RING_CHEPOCH_EPOCH i) + n) % 4294967296)) (0x63 + 4 * i)
      ((s.host.dom.rgN (RING_CHEPOCH_EPOCH i) + n) % 4294967296 % 65536)
    exact ⟨r, p, q, m, y, h⟩

theorem Told.settleChan (a s : State) (n : Chan) : Told s (State.settleChan a s n) := by
  unfold State.settleChan
  simp only []
  by_cases h1 : ((a.ch n).dom.phase == 3) = ((s.ch n).dom.phase == 3)
  · simp only [h1, if_true]
    split
    · exact .refl s
    · exact .hostEvent _ _ _
  · simp only [h1, if_false]
    split
    · exact .bumpEpoch _ _ _
    · exact (Told.bumpEpoch _ _ _).trans (.hostEvent _ _ _)

/-- The link-loss indication of a channel changes MBX_STAT and may raise EV_LLINK. -/
structure Linked (s t : State) (n : Chan) : Prop where
  ch : CountedCh (s.ch n) (t.ch n)
  other : ∀ m, m ≠ n → t.ch m = s.ch m
  host : t.host = s.host
  dev : t.dev = s.dev
  pending : t.pending = s.pending

theorem Counted.setLink (d : Domain) (f : Fld) (b : Bool) (h : f.reg = 0xE0000) : Counted d (d.setB f b) :=
  .setB d f b (fun g hg => .inl (fun e => hg.2.2.2.1 (by rw [← e, h])))

theorem Linked.settleLink (s : State) (n : Chan) : Linked s (s.settleLink n) n := by
  unfold State.settleLink
  simp only []
  split
  · exact ⟨.refl _, fun _ _ => rfl, rfl, rfl, rfl⟩
  · refine ⟨?_, fun m hm => State.setCh_other _ _ hm, by simp, by simp, by simp⟩
    rw [State.setCh_same]
    split
    · exact ⟨.setLink _ _ _ rfl, rfl⟩
    · exact ⟨((Counted.setLink _ _ _ rfl).trans (.setLink _ _ _ rfl)).trans (.raise _ _ _ (by decide)), rfl⟩

/-- What a settled change of channel n comes to: the change itself, up to what is counted; the other channels, the
device's own parts and the queue as before. -/
structure Settled (s : State) (n : Chan) (c : Channel) (t : State) : Prop where
  ch : CountedCh c (t.ch n)
  other : ∀ m, m ≠ n → t.ch m = s.ch m
  dev : t.dev = s.dev
  pending : t.pending = s.pending
  ring : t.host.ring = s.host.ring
  upd : t.host.upd = s.host.upd
  parts : ∃ r p q n y, t.host.dom = { s.host.dom with regs := r, perf := p, evq := q, evNext := n, cyc := y }

theorem Settled.of (s : State) (n : Chan) (c : Channel) : Settled s n c (s.settleOne (s.setCh n c) n) := by
  unfold State.settleOne
  have h1 := CountedCh.settleSignals (s.ch n) c
  rw [State.setCh_same]
  generalize hx : (s.ch n).settleSignals c = x at h1 ⊢
  have h2 := Told.settleChan s ((s.setCh n c).setCh n x) n
  have h3 := Linked.settleLink (State.settleChan s ((s.setCh n c).setCh n x) n) n
  generalize State.settleChan s ((s.setCh n c).setCh n x) n = y at h2 h3
  refine ⟨?_, fun m hm => ?_, ?_, ?_, ?_, ?_, ?_⟩
  · have := h2.ch n
    rw [State.setCh_same] at this
    exact h1.trans (this ▸ h3.ch)
  · rw [h3.other m hm, h2.ch, State.setCh_other _ _ hm, State.setCh_other _ _ hm]
  · rw [h3.dev, h2.dev]; simp
  · rw [h3.pending, h2.pending]; simp
  · rw [h3.host, h2.ring]; simp
  · rw [h3.host, h2.upd]; simp
  · rw [h3.host]; simpa using h2.parts

/-- A change of a channel that is not held in reset. -/
theorem State.onCh_settled (s : State) (n : Chan) (f : Channel → Channel) (h : (s.ch n).dom.inReset = false) :
    Settled s n (f (s.ch n)) (s.onCh n f) := by
  unfold State.onCh
  rw [h]
  exact .of s n _

/-- A channel in reset admits no change. -/
theorem State.onCh_reset (s : State) (n : Chan) (f : Channel → Channel) (h : (s.ch n).dom.inReset = true) :
    s.onCh n f = s := by unfold State.onCh; rw [h]; rfl

@[simp] theorem State.onCh_pending (s : State) (n : Chan) (f : Channel → Channel) : (s.onCh n f).pending = s.pending := by
  cases h : (s.ch n).dom.inReset
  · exact (s.onCh_settled n f h).pending
  · rw [s.onCh_reset n f h]

@[simp] theorem State.onCh_dev (s : State) (n : Chan) (f : Channel → Channel) : (s.onCh n f).dev = s.dev := by
  cases h : (s.ch n).dom.inReset
  · exact (s.onCh_settled n f h).dev
  · rw [s.onCh_reset n f h]

theorem State.onCh_other (s : State) {m n : Chan} (f : Channel → Channel) (h : m ≠ n) : (s.onCh n f).ch m = s.ch m := by
  cases hr : (s.ch n).dom.inReset
  · exact (s.onCh_settled n f hr).other m h
  · rw [s.onCh_reset n f hr]

end Sys2Proof.Machine
end

