-- ==== Sys2Proof/Laws/Channel.lean ====
section
/-! SUPPORT. Laws/Channel.lean: what a command of a channel answers, from what it makes of the channel; events raised and
register fields of a channel. -/

namespace Sys2Proof.Machine

section
variable {i : Instr} {s : State} {n : Chan} {f : Channel → Channel} {P : Channel → Prop} {a b : Channel}

theorem Settled.outside {s t : State} {n : Chan} {c : Channel} (h : Settled s n c t) : Outside s t n :=
  ⟨h.other, h.dev, h.pending, h.ring, h.upd, h.parts⟩

/-- A command that is a change of its channel answers with whatever holds of every channel that counts as the changed
one. -/
theorem ChAnswers.of (hi : exec i s = .next (s.onCh n f)) (hu : s.up n) (hp : ∀ y, CountedCh (f (s.ch n)) y → P y) :
    ChAnswers i s n P :=
  have h := State.onCh_settled s n f hu
  ⟨_, hi, hp _ h.ch, h.outside⟩

theorem ChBecomes.of (hi : exec i s = .next (s.onCh n f)) (hu : s.up n) (hc : CountedCh a (f (s.ch n))) :
    ChBecomes i s n a := ChAnswers.of hi hu fun _ hy => hc.trans hy

theorem CountedCh.pos (h : CountedCh a b) : b.pos = a.pos := by rw [h.rest]
theorem CountedCh.weir (h : CountedCh a b) : b.weir = a.weir := by rw [h.rest]
theorem CountedCh.adc (h : CountedCh a b) : b.adc = a.adc := by rw [h.rest]
theorem CountedCh.pwm (h : CountedCh a b) : b.pwm = a.pwm := by rw [h.rest]
theorem CountedCh.gdi (h : CountedCh a b) : b.gdi = a.gdi := by rw [h.rest]
theorem CountedCh.cas (h : CountedCh a b) : b.cas = a.cas := by rw [h.rest]
theorem CountedCh.safe (h : CountedCh a b) : b.safe = a.safe := by rw [h.rest]
theorem CountedCh.plan (h : CountedCh a b) : b.plan = a.plan := by rw [h.rest]
theorem CountedCh.live (h : CountedCh a b) : b.live = a.live := by rw [h.rest]
theorem CountedCh.cmt (h : CountedCh a b) : b.cmt = a.cmt := by rw [h.rest]
theorem CountedCh.rwlNext (h : CountedCh a b) : b.rwlNext = a.rwlNext := by rw [h.rest]
theorem CountedCh.rwlHeld (h : CountedCh a b) : b.rwlHeld = a.rwlHeld := by rw [h.rest]
theorem CountedCh.rg (h : CountedCh a b) (f : Fld) (hf : f.quiet) : b.rg f = a.rg f := h.dom.rg f hf
theorem CountedCh.rgN (h : CountedCh a b) (f : Fld) (hf : f.quiet) : b.rgN f = a.rgN f := h.dom.rgN f hf
theorem CountedCh.rgB (h : CountedCh a b) (f : Fld) (hf : f.quiet) : b.rgB f = a.rgB f := h.dom.rgB f hf

theorem CountedCh.waits (h : CountedCh a b) {d : Domain} {ev arg : Nat} (w : Waits d a.dom ev arg) :
    Waits d b.dom ev arg := by
  obtain ⟨⟨r, p, q, n, y, hq⟩, -⟩ := h.dom
  unfold Waits at *
  rw [hq]
  exact List.mem_append_left _ w

theorem CountedCh.raise (c : Channel) (ev arg : Nat) (h : ev < 128 := by decide) : CountedCh c (c.raise ev arg) :=
  ⟨.raise _ _ _ h, rfl⟩

theorem Domain.raise_evq (d : Domain) (ev arg : Nat) (h : HasRoom d ev) :
    (d.raise ev arg).evq = d.evq ++ [⟨BitVec.ofNat 7 ev, d.time, BitVec.ofNat 16 arg⟩] := by
  unfold Domain.raise Domain.raiseAt
  rw [if_pos h.1, max_eq_left h.2]

theorem Domain.raise_grows (d : Domain) (ev arg : Nat) : ∃ q, (d.raise ev arg).evq = d.evq ++ q := by
  unfold Domain.raise Domain.raiseAt
  split
  · exact ⟨_, rfl⟩
  · exact ⟨[], by simp⟩

/-- An event with room waits once raised; one that waits goes on waiting. -/
theorem Waits.raise (d x : Domain) (ev arg : Nat) (h : HasRoom d ev) (ht : d.time = x.time) : Waits x (d.raise ev arg) ev arg := by
  unfold Waits
  rw [d.raise_evq ev arg h, ht]
  simp

theorem Waits.later {x d : Domain} {ev arg : Nat} (h : Waits x d ev arg) (ev' arg' : Nat) : Waits x (d.raise ev' arg') ev arg := by
  obtain ⟨q, hq⟩ := d.raise_grows ev' arg'
  unfold Waits at *
  rw [hq]
  exact List.mem_append_left _ h

@[simp] theorem Channel.when_true (c : Channel) (f : Channel → Channel) : c.when true f = f c := rfl
@[simp] theorem Channel.when_false (c : Channel) (f : Channel → Channel) : c.when false f = c := rfl

theorem Channel.rg_set_same (c : Channel) (f : Fld) (v : Word) (h : f.hi < 32) : (c.set f v).rg f = v &&& lowMask f.width :=
  Domain.rg_set_same c.dom f v h

theorem Channel.rg_set_apart (c : Channel) (f g : Fld) (v : Word) (hg : g.hi < 32)
    (h : f.reg ≠ g.reg ∨ g.hi < f.lo ∨ f.hi < g.lo) : (c.set f v).rg g = c.rg g := Domain.rg_set_apart c.dom f g v hg h

theorem Channel.rgB_setB_same (c : Channel) (f : Fld) (b : Bool) (h : f.hi < 32) (hw : f.width = 1) :
    (c.setB f b).rgB f = b := Domain.rgB_setB_same c.dom f b h hw

theorem Channel.rgN_setN_same (c : Channel) (f : Fld) (n : Nat) (h : f.hi < 32) (hn : n < 2 ^ f.width)
    (hw : f.width ≤ 32) : (c.setN f n).rgN f = n := Domain.rgN_setN_same c.dom f n h hn hw

theorem Channel.rg_setB_apart (c : Channel) (f g : Fld) (b : Bool) (hg : g.hi < 32)
    (h : f.reg ≠ g.reg ∨ g.hi < f.lo ∨ f.hi < g.lo) : (c.setB f b).rg g = c.rg g := Domain.rg_set_apart c.dom f g _ hg h

theorem Channel.rg_setN_apart (c : Channel) (f g : Fld) (n : Nat) (hg : g.hi < 32)
    (h : f.reg ≠ g.reg ∨ g.hi < f.lo ∨ f.hi < g.lo) : (c.setN f n).rg g = c.rg g := Domain.rg_set_apart c.dom f g _ hg h

theorem Channel.rgB_apart {c d : Channel} {g : Fld} (h : d.rg g = c.rg g) : d.rgB g = c.rgB g := by
  simp only [Channel.rgB, h]

end

end Sys2Proof.Machine
end

