-- ==== Sys2Proof/Laws/Cpu.lean ====
section
/-! SUPPORT. Laws/Cpu.lean: what an instruction of a Dziphor core can change (its core, what the shadow of its pair copies,
and counts), and what `insn` answers for a core that is ready. -/

namespace Sys2Proof.Machine

/-- The second domain is the first but for the cores of the pair of e, the debug step and what is counted. -/
structure CoreStep (a b : Domain) (e : Eng) : Prop where
  parts : ∃ x y z r p q n t g,
    b = { a with e0 := x, e1 := y, e2 := z, regs := r, perf := p, evq := q, evNext := n, cyc := t, dbg := g }
  rg : ∀ f : Fld, f.quiet → f.reg ≠ DBG_STAT_CAUSE.reg → b.rg f = a.rg f
  cores : ∀ y, y ≠ e → a.shadow ≠ some y → b.core y = a.core y

theorem CoreStep.refl (a : Domain) (e : Eng) : CoreStep a a e :=
  ⟨⟨a.e0, a.e1, a.e2, a.regs, a.perf, a.evq, a.evNext, a.cyc, a.dbg, rfl⟩, fun _ _ _ => rfl, fun _ _ _ => rfl⟩

theorem quiet_shadow : LSC_STAT_SHADOW.quiet := by decide
theorem quiet_main : LSC_STAT_MAIN.quiet := by decide

theorem CoreStep.shadow {a b : Domain} {e : Eng} (h : CoreStep a b e) : b.shadow = a.shadow := by
  simp [Domain.shadow, Domain.rgN, h.rg _ quiet_shadow (by decide)]

theorem quiet_phase : LSC_STAT_PHASE.quiet := by decide

theorem CoreStep.phase {a b : Domain} {e : Eng} (h : CoreStep a b e) : b.phase = a.phase := by
  simp [Domain.phase, Domain.rgN, h.rg _ quiet_phase (by decide)]

theorem CoreStep.trans {a b c : Domain} {e : Eng} (h : CoreStep a b e) (g : CoreStep b c e) : CoreStep a c e := by
  have hs := h.shadow
  obtain ⟨⟨x, y, z, r, p, q, n, t, gg, hb⟩, h2, h3⟩ := h
  obtain ⟨⟨x', y', z', r', p', q', n', t', gg', rfl⟩, g2, g3⟩ := g
  refine ⟨⟨x', y', z', r', p', q', n', t', gg', by rw [hb]⟩, fun f hf hd => (g2 f hf hd).trans (h2 f hf hd), fun w hw hsw => ?_⟩
  rw [g3 w hw (by rw [hs]; exact hsw), h3 w hw hsw]

theorem CoreStep.of_counted {a b : Domain} (e : Eng) (h : Counted a b) : CoreStep a b e := by
  obtain ⟨⟨r, p, q, n, y, rfl⟩, h2⟩ := h
  exact ⟨⟨a.e0, a.e1, a.e2, r, p, a.evq ++ q, n, y, a.dbg, rfl⟩, fun f hf _ => h2 f hf, fun y _ _ => by cases y <;> rfl⟩

/-! ## Writing a core -/

@[simp] theorem Domain.core_setCore (d : Domain) (e : Eng) (x : Core) : (d.setCore e x).core e = x := by cases e <;> rfl
theorem Domain.core_setCore_other (d : Domain) {e y : Eng} (x : Core) (h : y ≠ e) : (d.setCore e x).core y = d.core y := by
  cases e <;> cases y <;> first | rfl | exact absurd rfl h

theorem Domain.setCore_parts (d : Domain) (e : Eng) (x : Core) :
    ∃ a b c, d.setCore e x = { d with e0 := a, e1 := b, e2 := c } := by
  cases e
  · exact ⟨x, d.e1, d.e2, rfl⟩
  · exact ⟨d.e0, x, d.e2, rfl⟩
  · exact ⟨d.e0, d.e1, x, rfl⟩

@[simp] theorem Domain.core_putCore (d : Domain) (e : Eng) (x : Core) : (d.putCore e x).core e = x := by
  unfold Domain.putCore
  simp only []
  split
  · rename_i h _
    split
    · by_cases he : e = h
      · subst he; simp [Core.mirror]
      · rw [Domain.core_setCore_other _ _ he]; simp
    · simp
  · simp

theorem CoreStep.putCore (d : Domain) (e : Eng) (x : Core) : CoreStep d (d.putCore e x) e := by
  have one : ∀ (d : Domain) (e : Eng) (x : Core), ∀ f : Fld, (d.setCore e x).rg f = d.rg f := by
    intro d e x f; cases e <;> rfl
  unfold Domain.putCore
  simp only []
  obtain ⟨a, b, c, h⟩ := d.setCore_parts e x
  split
  · rename_i g hg
    split
    · obtain ⟨a', b', c', h'⟩ := (d.setCore e x).setCore_parts g (((d.setCore e x).core g).mirror x)
      refine ⟨⟨a', b', c', d.regs, d.perf, d.evq, d.evNext, d.cyc, d.dbg, by rw [h', h]⟩, fun f _ _ => by rw [one, one], fun y hy hs => ?_⟩
      rw [Domain.core_setCore_other _ _ (fun e' => hs (by rw [hg, e'])), Domain.core_setCore_other _ _ hy]
    · exact ⟨⟨a, b, c, d.regs, d.perf, d.evq, d.evNext, d.cyc, d.dbg, h⟩, fun f _ _ => one _ _ _ f, fun y hy _ => Domain.core_setCore_other _ _ hy⟩
  · exact ⟨⟨a, b, c, d.regs, d.perf, d.evq, d.evNext, d.cyc, d.dbg, h⟩, fun f _ _ => one _ _ _ f, fun y hy _ => Domain.core_setCore_other _ _ hy⟩

@[simp] theorem Domain.core_mapCore (d : Domain) (e : Eng) (f : Core → Core) : (d.mapCore e f).core e = f (d.core e) :=
  Domain.core_putCore d e _

theorem CoreStep.mapCore (d : Domain) (e : Eng) (f : Core → Core) : CoreStep d (d.mapCore e f) e := .putCore d e _

theorem Counted.coreItem (d : Domain) (e : Eng) (j : Nat) (o : Occ) (hj : j < 16) : Counted d (d.coreItem e j o) := by
  have he : ∀ e : Eng, e.idx < 5 := by intro e; cases e <;> decide
  unfold Domain.coreItem
  simp only []
  split
  · split
    · exact (Counted.item d _ j o (he _) hj).trans (.item _ _ j o (he _) hj)
    · exact .item d _ j o (he _) hj
  · exact .item d _ j o (he _) hj

theorem CoreStep.stepped (d : Domain) (e : Eng) : CoreStep d (d.stepped e) e := by
  unfold Domain.stepped
  split
  · have h1 : CoreStep d { d with dbg := { d.dbg with stepping := d.dbg.stepping.erase e } } e :=
      ⟨⟨d.e0, d.e1, d.e2, d.regs, d.perf, d.evq, d.evNext, d.cyc, _, rfl⟩, fun _ _ _ => rfl, fun y _ _ => by cases y <;> rfl⟩
    simp only []
    split
    · refine h1.trans ⟨⟨d.e0, d.e1, d.e2, _, d.perf, d.evq, d.evNext, d.cyc, _, rfl⟩, fun f hf hd => ?_, fun y _ _ => by cases y <;> rfl⟩
      exact Domain.rg_set_reg _ _ _ _ (fun e => hd e.symm)
    · exact h1
  · exact .refl d e

@[simp] theorem Domain.core_stepped (d : Domain) (e y : Eng) : (d.stepped e).core y = d.core y := by
  unfold Domain.stepped
  simp only []
  split
  · split <;> cases y <;> rfl
  · rfl

theorem CoreStep.passed (d : Domain) (e : Eng) : CoreStep d (d.passed e) e :=
  ⟨⟨d.e0, d.e1, d.e2, d.regs, d.perf, d.evq, d.evNext, d.cyc, _, rfl⟩, fun _ _ _ => rfl, fun y _ _ => by cases y <;> rfl⟩

@[simp] theorem Domain.core_passed (d : Domain) (e y : Eng) : (d.passed e).core y = d.core y := by cases y <;> rfl

/-- What retirement comes to. -/
theorem CoreStep.retireAt (d : Domain) (e : Eng) (pc : Word) (w : Bool) : CoreStep d (d.retireAt e pc w) e :=
  (((CoreStep.mapCore d e _).trans (.of_counted e (.coreItem _ e 0 _ (by decide)))).trans (.passed _ e)).trans (.stepped _ e)

@[simp] theorem Domain.core_retireAt (d : Domain) (e : Eng) (pc : Word) (w : Bool) :
    (d.retireAt e pc w).core e = (d.core e).retiring := by
  unfold Domain.retireAt
  simp only [Domain.core_stepped, Domain.core_passed, (Counted.coreItem _ e 0 _ (by decide)).core, Domain.core_mapCore]
  rfl

/-! ## insn -/

/-- What `insn` comes to for a core that is ready, and not kept from a privileged instruction. -/
theorem Domain.insn_ready (d : Domain) (e : Eng) (f : Fetch) (sys : Bool) (uses : List GReg) (body : Domain → Ins)
    (hr : d.runs e = true) (hw : (d.core e).wait = .none) (hk : d.breakDue e = false) (hn : d.entryDue e = none) (hf : d.fetchFault e f = none)
    (hp : sys = true → (d.core e).priv = .system) (hu : (d.core e).awaits uses = none) :
    d.insn e f sys uses body = match body d with
      | .retire d' => d'.retireAt e (d.core e).pc false
      | .stay d' => d'
      | .exc c v => d.exception e c v := by
  have hs : (sys && decide ((d.core e).priv = Priv.user)) = false := by
    cases hsys : sys
    · rfl
    · simp [hp hsys]
  unfold Domain.insn
  simp only [hr, hw, hk, hn, hf, hs, hu, Option.isNone_none, Bool.not_false, decide_true, Bool.and_true, if_true]
  rfl

/-! ## Lifting -/

/-- An instruction that leaves the phase of lockstep changes its domain and nothing beside. -/
theorem State.dom_onCore_ch (s : State) (n : Chan) (f : Domain → Domain) (h : (s.ch n).dom.inReset = false)
    (hp : (f (s.ch n).dom).phase = (s.ch n).dom.phase) :
    s.onCore (.ch n) f = s.setCh n { s.ch n with dom := f (s.ch n).dom } := by
  unfold State.onCore State.dom
  simp [h, hp]

/-- The indication of a lost link on every channel leaves all but what is counted. -/
theorem State.settleLinks (l : List Chan) (s : State) :
    (∀ n, CountedCh (s.ch n) ((l.foldl State.settleLink s).ch n)) ∧ (l.foldl State.settleLink s).host = s.host ∧
      (l.foldl State.settleLink s).dev = s.dev ∧ (l.foldl State.settleLink s).pending = s.pending := by
  induction l generalizing s with
  | nil => exact ⟨fun n => .refl _, rfl, rfl, rfl⟩
  | cons c l ih =>
    have h := Linked.settleLink s c
    obtain ⟨h1, h2, h3, h4⟩ := ih (s.settleLink c)
    refine ⟨fun n => ?_, h2.trans h.host, h3.trans h.dev, h4.trans h.pending⟩
    by_cases hn : n = c
    · subst hn; exact h.ch.trans (h1 n)
    · exact (h.other n hn) ▸ h1 n

/-- An instruction of a core, lifted: the core as the domain's operation leaves it, and the frame. -/
theorem State.onCore_frame (s : State) (d : Dom) (e : Eng) (f : Domain → Domain) (h : (s.dom d).inReset = false)
    (hf : CoreStep (s.dom d) (f (s.dom d)) e) :
    (s.onCore d f).core d e = (f (s.dom d)).core e ∧ CoreFrame s (s.onCore d f) d e := by
  have hp := hf.phase
  obtain ⟨⟨x, y, z, r, p, q, n', t', g, hb⟩, h2, h3⟩ := hf
  cases d with
  | ch n =>
    rw [s.dom_onCore_ch n f h hp]
    refine ⟨by simp [State.core, State.dom], ?_⟩
    have hch : ∀ m, m ≠ n → (s.setCh n { s.ch n with dom := f (s.ch n).dom }).ch m = s.ch m :=
      fun m hm => State.setCh_other _ _ hm
    have hdom : ∀ w : Dom, w ≠ .ch n → (s.setCh n { s.ch n with dom := f (s.ch n).dom }).dom w = s.dom w := by
      intro w hw
      cases w with
      | ch m => exact congrArg Channel.dom (hch m (fun e => hw (by rw [e])))
      | host => simp [State.dom]
    have hself : (s.setCh n { s.ch n with dom := f (s.ch n).dom }).dom (.ch n) = f (s.dom (.ch n)) := by
      simp [State.dom]
    refine ⟨fun w v hwv => ?_, fun w => ?_, fun w f' hq hd => ?_, fun m => ?_, by simp, by simp, by simp, by simp⟩
    · by_cases hw : w = .ch n
      · subst hw
        rcases hwv with hwv | ⟨h4, h5⟩
        · exact absurd rfl hwv
        · simp only [State.core, hself]; exact h3 v h4 h5
      · simp only [State.core, hdom w hw]
    · by_cases hw : w = .ch n
      · subst hw; rw [hself, hb]
      · rw [hdom w hw]
    · by_cases hw : w = .ch n
      · subst hw; rw [hself]; exact h2 f' hq hd
      · rw [hdom w hw]
    · by_cases hm : m = n
      · subst hm; simp
      · rw [hch m hm]
  | host =>
    have hr : s.host.dom.inReset = false := h
    have hu : s.onCore .host f = allChans.foldl State.settleLink { s with host := { s.host with dom := f s.host.dom } } := by
      unfold State.onCore; simp [State.dom, hr]
    rw [hu]
    obtain ⟨k1, k2, k3, k4⟩ := State.settleLinks allChans { s with host := { s.host with dom := f s.host.dom } }
    generalize allChans.foldl State.settleLink { s with host := { s.host with dom := f s.host.dom } } = t at k1 k2 k3 k4
    have k1 : ∀ n, CountedCh (s.ch n) (t.ch n) := fun n => by have := k1 n; cases n <;> exact this
    have hself : t.dom .host = f (s.dom .host) := by simp [State.dom, k2]
    have hb : f (s.dom .host) = _ := hb
    refine ⟨by simp [State.core, hself], ?_⟩
    refine ⟨fun w v hwv => ?_, fun w => ?_, fun w f' hq hd => ?_, fun m => (k1 m).rest, by rw [k2], by rw [k2], k3, k4⟩
    · cases w with
      | ch m => exact (k1 m).dom.core v
      | host =>
        rcases hwv with hwv | ⟨h4, h5⟩
        · exact absurd rfl hwv
        · simp only [State.core, hself]; exact h3 v h4 h5
    · cases w with
      | ch m => exact (k1 m).dom.mem
      | host => rw [hself, hb]
    · cases w with
      | ch m => exact (k1 m).dom.rg f' hq
      | host => rw [hself]; exact h2 f' hq hd

/-- An instruction that retires after changing its core alone. -/
theorem Retires.of {i : Instr} {s : State} {k : At} {uses : List GReg} {sys : Bool} {body : Domain → Ins} {x : Core}
    {d' : Domain} (hx : exec i s = .next (s.onCore k.d (·.insn k.e k.f sys uses body))) (hr : Ready s k uses)
    (hp : sys = true → (s.core k.d k.e).priv = .system) (hb : body (s.dom k.d) = .retire d')
    (hc : d'.core k.e = x) (hs : CoreStep (s.dom k.d) d' k.e) : Retires i s k x := by
  have hi := (s.dom k.d).insn_ready k.e k.f sys uses body hr.runs hr.wait hr.brk hr.entry hr.fetch hp hr.uses
  rw [hb] at hi
  refine ⟨_, hx, ?_⟩
  obtain ⟨h1, h2⟩ := s.onCore_frame k.d k.e (·.insn k.e k.f sys uses body) hr.up
    (by rw [hi]; exact hs.trans (.retireAt _ _ _ _))
  refine ⟨?_, h2⟩
  rw [h1, hi, Domain.core_retireAt, hc]

end Sys2Proof.Machine
end

