-- ==== Sys2Proof/Laws/Mem.lean ====
section
/-! SUPPORT. Laws/Mem.lean: a byte read after a write, and the canonical form of memory. -/

namespace Sys2Proof.Machine

@[simp] theorem memByte_memPut_same (m : List Host.Cell) (a : Nat) (b : Byte) : memByte (memPut m a b) a = b := by
  simp [memByte, memPut]

theorem memByte_memPut_other (m : List Host.Cell) {a x : Nat} (b : Byte) (h : a ≠ x) :
    memByte (memPut m a b) x = memByte m x := by
  simp [memByte, memPut, sget_sset, h]

/-- A write of n bytes changes no byte outside them. -/
theorem memByte_memWrite_other (m : List Host.Cell) (a n v x : Nat) (h : x < a ∨ a + n ≤ x) :
    memByte (memWrite m a n v) x = memByte m x := by
  induction n generalizing m a v with
  | zero => rfl
  | succ n ih =>
    rw [memWrite, ih _ _ _ (by omega), memByte_memPut_other _ _ (by omega)]

/-- Byte i of a write of n bytes. -/
theorem memByte_memWrite (m : List Host.Cell) (a n v i : Nat) (h : i < n) :
    memByte (memWrite m a n v) (a + i) = BitVec.ofNat 8 (v / 256 ^ i) := by
  induction n generalizing m a v i with
  | zero => omega
  | succ n ih =>
    rw [memWrite]
    cases i with
    | zero => rw [memByte_memWrite_other _ _ _ _ _ (by omega)]; simp
    | succ i =>
      have := ih (memPut m a (BitVec.ofNat 8 v)) (a + 1) (v / 256) i (by omega)
      rw [show a + (i + 1) = a + 1 + i by omega, this, Nat.div_div_eq_div_mul, Nat.pow_succ']

/-- What was written is read back, modulo its width. -/
theorem memRead_memWrite (m : List Host.Cell) (a n v : Nat) : memRead (memWrite m a n v) a n = v % 256 ^ n := by
  have key : ∀ (n a' v' : Nat) (m' : List Host.Cell), (∀ i, i < n → memByte m' (a' + i) = BitVec.ofNat 8 (v' / 256 ^ i)) →
      memRead m' a' n = v' % 256 ^ n := by
    intro n
    induction n with
    | zero => intro a' v' m' _; simp [memRead, Nat.mod_one]
    | succ n ih =>
      intro a' v' m' h
      have h0 := h 0 (by omega)
      have h1 := ih (a' + 1) (v' / 256) m' (fun i hi => by
        have := h (i + 1) (by omega)
        rw [show a' + (i + 1) = a' + 1 + i by omega] at this
        rw [this, Nat.div_div_eq_div_mul, Nat.pow_succ'])
      rw [memRead, h1]
      simp only [Nat.add_zero, Nat.pow_zero, Nat.div_one] at h0
      rw [h0, Nat.pow_succ', Nat.mod_mul]
      simp
  exact key n a v _ (fun i hi => memByte_memWrite m a n v i hi)

theorem wf_memPut {m : List Host.Cell} (h : Memory.wf m = true) (a : Nat) (b : Byte) : Memory.wf (memPut m a b) = true :=
  swf_sset (f := fun _ => (0 : BitVec 8)) h a b

/-- Every write keeps the canonical form. -/
theorem wf_memWrite {m : List Host.Cell} (h : Memory.wf m = true) (a n v : Nat) : Memory.wf (memWrite m a n v) = true := by
  induction n generalizing m a v with
  | zero => exact h
  | succ n ih => exact ih (wf_memPut h _ _) _ _

theorem wf_memPutWord {m : List Host.Cell} (h : Memory.wf m = true) (a : Nat) (w : Word) :
    Memory.wf (memPutWord m a w) = true := wf_memWrite h _ _ _

theorem wf_sclear {m : List Host.Cell} (h : Memory.wf m = true) (lo hi : Nat) : Memory.wf (sclear lo hi m) = true :=
  swf_sclear (f := fun _ => (0 : BitVec 8)) h lo hi

end Sys2Proof.Machine
end

