-- ==== Sys2Proof/Laws/MemOps.lean ====
section
/-! SUPPORT. Laws/MemOps.lean: every operation over a whole memory keeps its canonical form, and every memory has it at
reset. -/

namespace Sys2Proof.Machine

theorem wf_foldl {α : Type} {op : List Host.Cell → α → List Host.Cell}
    (h : ∀ m x, Memory.wf m = true → Memory.wf (op m x) = true) (l : List α) {m : List Host.Cell}
    (hm : Memory.wf m = true) : Memory.wf (l.foldl op m) = true := by
  induction l generalizing m with
  | nil => exact hm
  | cons x l ih => exact ih (h m x hm)

theorem wf_putWords {m : List Host.Cell} (h : Memory.wf m = true) (a : Nat) (ws : List Word) :
    Memory.wf (putWords m a ws) = true := wf_foldl (fun _ _ hm => wf_memPutWord hm _ _) _ h

theorem wf_undoJournal {m : List Host.Cell} (h : Memory.wf m = true) (j : List Journal) :
    Memory.wf (undoJournal m j) = true := wf_foldl (fun _ _ hm => wf_memPutWord hm _ _) _ h

theorem wf_memCopy {m : List Host.Cell} (h : Memory.wf m = true) (src dst n : Nat) :
    Memory.wf (memCopy m src dst n) = true := wf_foldl (fun _ _ hm => wf_memPut hm _ _) _ h

theorem wf_placePrograms {m : List Host.Cell} (h : Memory.wf m = true) (bank : Bool) :
    Memory.wf (placePrograms m bank) = true := wf_memCopy (wf_memCopy (wf_memCopy h _ _ _) _ _ _) _ _ _

/-- What a reset leaves of a memory. -/
theorem wf_nvmOnly {m : List Host.Cell} (h : Memory.wf m = true) : Memory.wf (nvmOnly m) = true :=
  wf_sclear (wf_sclear h _ _) _ _

theorem HostDom.wf_putWord {h : HostDom} (hw : Memory.wf h.dom.mem = true) (a : Nat) (w : Word) :
    Memory.wf (h.putWord a w).dom.mem = true := wf_memPutWord hw a w

theorem Channel.wf_putWord {c : Channel} (hw : Memory.wf c.dom.mem = true) (a : Nat) (w : Word) :
    Memory.wf (c.putWord a w).dom.mem = true := wf_memPutWord hw a w

/-- A word written is read back, and a word elsewhere stays. -/
theorem memWord_memPutWord_same (m : List Host.Cell) (a : Nat) (w : Word) : memWord (memPutWord m a w) a = w := by
  rw [memWord, memPutWord, memRead_memWrite]
  show BitVec.ofNat 32 (w.toNat % 2 ^ 32) = w
  rw [Nat.mod_eq_of_lt w.isLt, BitVec.ofNat_toNat, BitVec.setWidth_eq]

theorem memByte_memPutWord_other (m : List Host.Cell) (a : Nat) (w : Word) (x : Nat) (h : x < a ∨ a + 4 ≤ x) :
    memByte (memPutWord m a w) x = memByte m x := memByte_memWrite_other m a 4 w.toNat x h

theorem State.reset_mem_wf (d : Dom) : Memory.wf (State.reset.dom d).mem = true := by
  cases d with
  | ch n => cases n <;> rfl
  | host => rfl

end Sys2Proof.Machine
end

