-- ==== Sys2Proof/Laws/Trig.lean ====
section
/-! SUPPORT. Trig.lean (Laws): what the mantissa that CORDIC delivers may be (R326). -/

namespace Sys2Proof.Laws

open Sys2Proof.Machine

theorem cordicLo_le_cordicHi (x : Int) : cordicLo x ≤ cordicHi x := by
  unfold cordicLo cordicHi; omega

/-- Every delivered mantissa is in the number format. -/
theorem cordicPick_range (x : Int) (n : Nat) : -8388608 ≤ cordicPick x n ∧ cordicPick x n ≤ 8388607 := by
  unfold cordicPick; dsimp only; split
  · omega
  · split <;> omega

/-- It lies within the bound, or is the end of the format. -/
theorem cordicPick_bound (x : Int) (n : Nat) :
    (cordicLo x ≤ cordicPick x n ∨ cordicPick x n = 8388607) ∧
    (cordicPick x n ≤ cordicHi x ∨ cordicPick x n = -8388608) := by
  have h := cordicLo_le_cordicHi x
  have p : 0 < cordicHi x - cordicLo x + 1 := by omega
  obtain ⟨r, hr⟩ : ∃ r, r = Int.emod (n : Int) (cordicHi x - cordicLo x + 1) := ⟨_, rfl⟩
  have h1 : 0 ≤ r := hr ▸ Int.emod_nonneg (n : Int) (Int.ne_of_gt p)
  have h2 : r < cordicHi x - cordicLo x + 1 := hr ▸ Int.emod_lt_of_pos (n : Int) p
  unfold cordicPick; dsimp only
  rw [← hr]
  split
  · omega
  · split <;> omega

end Sys2Proof.Laws
end

