-- ==== Sys2Proof/Tests/Slice0.lean ====
section
/-! SUPPORT. Slice0.lean: the tests: ill-formed terms, words that decode to the commands they stand for, small
one-step tests, and for every obligation with hypotheses states and operands that meet the hypotheses of each clause. -/

namespace Sys2Proof.Tests

open Sys2Proof.Machine

-- one theorem at a time, so that the many kernel evaluations below do not run side by side
set_option Elab.async false

/-! ## Small states -/

/-- The state after reset, from which every state below is built. -/
def start : State := State.reset

def onChan (f : Channel → Channel) (s : State) : State := { s with c0 := f s.c0 }
def onChanDom (f : Domain → Domain) (s : State) : State := onChan (fun c => { c with dom := f c.dom }) s
def onHostDom (f : Domain → Domain) (s : State) : State := { s with host := { s.host with dom := f s.host.dom } }

/-- The same in channel 0 and in the host domain. -/
def onBoth (f : Domain → Domain) (s : State) : State := onHostDom f (onChanDom f s)

def setFields (l : List (Fld × Nat)) (d : Domain) : Domain := l.foldl (fun d p => d.setN p.1 p.2) d

/-- Registers of channel 0, its live bank, registers of the host domain. -/
def chRg (l : List (Fld × Nat)) (s : State) : State := onChanDom (setFields l) s
def chLive (l : List (Fld × Nat)) (s : State) : State :=
  onChan (fun c => { c with live := l.foldl (fun m p => setFld m p.1 (BitVec.ofNat 32 p.2)) c.live }) s
def hostRg (l : List (Fld × Nat)) (s : State) : State := onHostDom (setFields l) s

/-- Sources of reset asserted in channel 0 and in the host domain. -/
def inResets (a b : ResetSrc) (s : State) : State :=
  onHostDom (fun d => { d with rs := b }) (onChanDom (fun d => { d with rs := a }) s)

def onCores (f : Core → Core) (s : State) : State := onBoth (fun d => { d with e0 := f d.e0, e1 := f d.e1 }) s

def coreRuns (x : Core) : Core := { x with run := .running }

/-- Both domains execute: on a comparing pair, on one engine, on two engines. -/
def pair : State := onCores coreRuns (onBoth (setFields [(LSC_STAT_SHADOW, 1), (LSC_STAT_SPARE, 2)]) start)
def single : State :=
  onBoth (fun d => { d with e0 := coreRuns d.e0 })
    (onBoth (setFields [(LSC_STAT_SHADOW, 3), (LSC_STAT_SPARE, 3), (LSC_STAT_PHASE, 4)]) start)
def dual : State :=
  onCores coreRuns (onBoth (setFields [(SYS_CAP_DUAL_CORE, 1), (LSC_STAT_SHADOW, 1), (LSC_STAT_SPARE, 2)]) start)

/-- General registers 1 and 2 of the executing cores. -/
def g12 (a b : Word) (s : State) : State := onCores (fun x => { x with g := [(1, a), (2, b)] }) s

/-! Changes of one part of channel 0. -/

def onWeir (f : Weir → Weir) (s : State) : State := onChan (fun c => { c with weir := f c.weir }) s
def onPos (f : Pos → Pos) (s : State) : State := onChan (fun c => { c with pos := f c.pos }) s
def onAdc (f : Adc → Adc) (s : State) : State := onChan (fun c => { c with adc := f c.adc }) s
def onPwm (f : Pwm → Pwm) (s : State) : State := onChan (fun c => { c with pwm := f c.pwm }) s
def onGdi (f : Gdi → Gdi) (s : State) : State := onChan (fun c => { c with gdi := f c.gdi }) s
def onCas (f : Cas → Cas) (s : State) : State := onChan (fun c => { c with cas := f c.cas }) s
def onSafe (f : Safe → Safe) (s : State) : State := onChan (fun c => { c with safe := f c.safe }) s
def onRing (f : Ring → Ring) (s : State) : State := { s with host := { s.host with ring := f s.host.ring } }

/-- The time of channel 0 and of the host domain. -/
def atTime (n : Nat) (s : State) : State := onBoth (fun d => { d with time := n }) s

/-- Source 5 of events pends, is enabled and has class `p`. -/
def event5 (p : Nat) (s : State) : State :=
  onBoth (setFields [(EVT_PEND_PEND 0, 32), (EVT_EN_EN 0, 32), (EVT_PRI_PRI 0 5, p)]) s

/-- Accesses wait in the queues of the executing cores. -/
def queued (s : State) : State :=
  onCores (fun x => { x with
    seq := 3, loads := [⟨0, 0, 3, 0x10000000, 4, false, .normal⟩], stores := [⟨1, 0x10000008, 4, 0x11223344, .normal⟩]
    posted := [⟨2, 0x40020000, 4, 5, .deviceRelaxed⟩] }) s

/-- Weir thread 0 runs and is the next to issue. -/
def weirRuns (s : State) : State := onWeir (fun w => { w with t0 := { w.t0 with st := .running } }) s

/-- Modulation runs, with the first boundary reached and not yet acted on. -/
def pwmRuns (s : State) : State := onPwm (fun p => { p with running := true, bndDue := true }) s

/-- A run of Cascade is in progress, and its first instruction issues in this cycle. -/
def aRun : Run := ⟨4, 0, 0, [], false, false, false, false, false, false, 0, false, false⟩
def casRuns (s : State) : State := onCas (fun a => { a with run := some aRun }) (atTime 1 s)

/-! Frames of the ring, for a node with the number 3. -/

/-- A management frame for this node, whole and with a byte of its payload or header changed. -/
def frameOwn : List Byte := mkFrame 6 3 1 7 0 4 0 0 3 [1, 2]
def frameOwnBadPayload : List Byte := frameOwn.set 17 9
def frameOwnBadHead : List Byte := frameOwn.set 2 9
def frameOddSubtype : List Byte := mkFrame 6 3 1 7 0 4 0 0 9 []
/-- A response for another node, with hops left and without. -/
def frameOther : List Byte := mkFrame 4 5 1 7 0 4 0 0 3 [1, 2]
def frameNoHops : List Byte := mkFrame 4 5 1 7 0 0 0 0 3 [1, 2]
/-- A node's own response that waits to be sent. -/
def frameMine : List Byte := mkFrame 4 3 5 7 0 31 1 0 0 [7]
/-- A cyclic frame of this node, and time frames of node 5 near ring time and far from it. -/
def frameCyclic : List Byte := mkFrame 1 3 3 0 0 31 0 0 5 [1, 2, 3, 4]
def frameTime (mt : Nat) : List Byte := mkFrame 5 5 5 0 0 31 0 0 5 [BitVec.ofNat 32 mt, 0, 7]

/-- A cyclic frame of another node, and frames of both kinds with a changed header. -/
def frameCyclicFar : List Byte := mkFrame 1 5 5 0 0 31 0 0 5 [1, 2, 3, 4]
def frameCyclicBad : List Byte := frameCyclic.set 2 9
def frameTimeBad : List Byte := (frameTime 65000).set 2 9

/-- The ring port is enabled, both links are up, and the node has the number 3. -/
def ringUp (s : State) : State :=
  hostRg [(RING_CTL_PORTEN, 1), (RING_STAT_LINKA, 2), (RING_STAT_LINKB, 2), (RING_NODE_ID, 3), (RING_CTL_WRAPEN, 1)] s

def hostMem (l : List (Nat × Word)) (s : State) : State := { s with host := l.foldl (fun h p => h.putWord p.1 p.2) s.host }

/-- PSTATE of the host array. -/
def pstate (n : Nat) (s : State) : State := hostMem [(0x2000000C, BitVec.ofNat 32 n)] s

/-- A staging session open to node 1, and a chunk of it. -/
def staging (s : State) : State :=
  hostRg [(UPD_STAT_STG, 1), (RING_UPDSRC_NODE, 1), (RING_UPDSRC_EN, 1), (RING_CTL_PORTEN, 1), (RING_NODE_ID, 3)] s
def aChunk (area : Nat) : Chunk := ⟨.a, 1, 2, area, 16, [5, 6]⟩
def chunks (l : List Chunk) (sealing : Bool) (s : State) : State :=
  { s with host := { s.host with upd := { s.host.upd with bufs := l, sealing := sealing } } }

/-- A manifest that keeps every part, good host images of no bytes, and a readable version counter. -/
def romReady (s : State) : State :=
  hostMem ([(bankKey false (headerAt true), 0x56494D31),
    (0x20001000, 0x47444D31), (0x20001004, 1), (0x20001008, 5), (0x2000100C, 9), (0x20000010, 0xFFFC0003)] ++
    (List.range 9).flatMap (fun k => [(0x20001040 + 48 * k, BitVec.ofNat 32 (65536 +
      match k with | 0 => 1 | 1 => 257 | 2 => 513 | 3 => 769 | 4 => 2 | 5 => 258 | 6 => 514 | 7 => 770 | _ => 3)),
      (0x20001048 + 48 * k, 92)])) s
/-- A good code image of no bytes in channel 0. -/
def chCode (s : State) : State := onChan (fun c => c.putWord (bankKey false (headerAt false)) 0x56494D31) s
def romPhase (n : Nat) (s : State) : State := hostRg [(BOOT_STAT_PHASE, n)] s

def authed (s : State) : State := onBoth (setFields [(DBG_STAT_AUTH, 1)]) s
def debugs (f : Dbg → Dbg) (s : State) : State := onBoth (fun d => { d with dbg := f d.dbg }) s

/-! ## Sine and cosine -/

/-- 0°, 30°, 90° and 180° (R326): mantissas within two units of 0, 2^22, 2^23 and −2^23. -/
theorem test_sine_bounds :
    (cordicLo (sin60 0), cordicHi (sin60 0)) = (-2, 2) ∧
    (cordicLo (sin60 0x15555555), cordicHi (sin60 0x15555555)) = (4194302, 4194305) ∧
    (cordicLo (sin60 0x40000000), cordicHi (sin60 0x40000000)) = (8388606, 8388610) ∧
    (cordicLo (cos60 0x80000000), cordicHi (cos60 0x80000000)) = (-8388610, -8388606) := by decide +kernel

/-! ## Ill-formed commands -/

def k0 : At := ⟨.ch .c0, .e0, .good⟩
def w0 : WAt := ⟨.c0, .t0, .good⟩
def q0 : CAt := ⟨.c0, .good⟩

/-- One ill-formed term for each check of `Instr.wf`, with operands just past their range. -/
theorem test_ill_formed_operands :
    ([.pulseDecision .c0 6, .ascSwitchOn .c0 18, .outputStageFault .c0 19, .comparatorSettleEnd .c0 7 0,
      .contactorTimeLimit .c0 3, .thermalShutdown (.ch .c0) 3, .thermalShutdown .host 1, .frameReceive .a [],
      .remoteWrite .a 0 0 0 [], .rowRepairDone .host .casProg 0] : List Instr).all (fun i => !i.wf) = true := by decide

theorem test_ill_formed_slots :
    ([.waita w0 3 false false 0 0 0 0, .waita w0 2 true false 0 0 0 0, .waitc w0 1 false false 0 0 0 0, .waite w0 0 0 128,
      .strobe w0 32768, .weirStart w0 16384, .weirCommit w0 128, .weirSignal w0 524288, .capk w0 0 2, .weirBr w0 7 0,
      .chkarm w0 0 4] : List Instr).all (fun i => !i.wf) = true := by decide

theorem test_ill_formed_words :
    ([.fenceM k0 7, .ldr q0 0 16, .lda q0 0 4, .ldref q0 0 32, .aclr q0 0 256, .inj q0 0 0 8, .putpos q0 0 2,
      .casBr q0 10 0] : List Instr).all (fun i => !i.wf) = true := by decide

/-! ## Words that decode to the commands they stand for, written from R124, R129, R195, R199 and R321 to R326 -/

theorem test_no_row_has_a_word : decodeTableWord 32 0x04A4FFF8 = none := rfl

/-- Opcode 0x01, rd 5, rs1 4, immediate −8; opcode 0x00, rd 3, rs1 1, rs2 2, function 0x02. -/
theorem test_decode_dziphor_arithmetic :
    decodeDziphor k0 .clean 0x04A4FFF8 = some (.addK k0 5 4 0xFFF8) ∧
    decodeDziphor k0 .clean 0x00611002 = some (.sub k0 3 1 2) ∧ decodeDziphor k0 .clean 0 = none := by decide

/-- FENCE.P and PLAN.COMMIT of PWM and ADC into g7. -/
theorem test_decode_dziphor_system :
    decodeDziphor k0 .clean 0xD0000004 = some (.fenceP k0 0) ∧
    decodeDziphor k0 .clean 0xE0E0000C = some (.planCommit k0 7 0 0x0C) := by decide

/-- WAITC of half a period with limit 0, and WAITA past an angle, forward, with limit 2. -/
theorem test_decode_weir :
    decodeWeir w0 0x080000C080000000 = some (.waitc w0 0 false false 0 0 12 0x80000000) ∧
    decodeWeir w0 0x0454015000000000 = some (.waita w0 0 false true 1 2 21 0) ∧
    decodeWeir w0 0xFC00000000000000 = some (.weirStop w0) ∧ decodeWeir w0 0xFC00000000000001 = none := by decide

theorem test_decode_cascade :
    decodeCascade q0 0xA21E4000 = some (.pi q0 8 7 9 0) ∧ decodeCascade q0 0xC0380000 = some (.out q0 14) ∧
    decodeCascade q0 0xFC000000 = some (.casEnd q0) ∧ decodeCascade q0 0xFC000001 = none ∧ decodeCascade q0 0 = none := by decide

/-! ## One step on a small state, with results worked out from the rules -/

/-- What register r of channel 0's core 0 holds after command i. -/
def after (i : Instr) (s : State) (r : GReg) : Option Word :=
  match exec i s with
  | .next t => some (t.c0.dom.e0.rd r)
  | _ => none

/-- R125: the sum wraps, the saturated sum does not. -/
theorem test_add_wraps : after (.add k0 3 1 2) (g12 0x80000000 0xFFFFFFFF pair) 3 = some 0x7FFFFFFF := by decide +kernel
theorem test_adds_saturates : after (.adds k0 3 1 2) (g12 0x80000000 0xFFFFFFFF pair) 3 = some 0x80000000 := by decide +kernel
/-- R125: a quotient of −2^31 and −1 saturates; a remainder has the sign of the dividend. -/
theorem test_divs_saturates : after (.divs k0 3 1 2) (g12 0x80000000 0xFFFFFFFF pair) 3 = some 0x7FFFFFFF := by decide +kernel
theorem test_mods_sign : after (.mods k0 3 1 2) (g12 0xFFFFFFF9 3 pair) 3 = some 0xFFFFFFFF := by decide +kernel
theorem test_divu_by_zero : after (.divu k0 3 1 0) (g12 5 3 pair) 3 = some 0xFFFFFFFF := by decide +kernel
theorem test_clz_zero : after (.clz k0 3 0) pair 3 = some 32 := by decide +kernel
theorem test_sar_sign : after (.sarK k0 3 1 31) (g12 0x80000000 0 pair) 3 = some 0xFFFFFFFF := by decide +kernel
theorem test_mulhi_mixed : after (.mulhiSu k0 3 1 2) (g12 0xFFFFFFFF 0xFFFFFFFF pair) 3 = some 0xFFFFFFFF := by decide +kernel
/-- R116: a write to g0 is discarded. -/
theorem test_g0 : after (.addK k0 0 1 1) (g12 7 0 pair) 0 = some 0 := by decide +kernel

/-- What P says of the state after command i. -/
def holdsAfter (i : Instr) (s : State) (P : State → Bool) : Bool :=
  match exec i s with
  | .next t => P t
  | _ => false

/-- R126, R132: a load of a signed byte reaches its register once it is performed. -/
theorem test_load_sign :
    holdsAfter (.loadResult (.ch .c0) .e0 0 .clean)
      (onChanDom (fun d => { d with mem := memPutWord d.mem 0x10000000 0x80 }) (onCores (fun x => { x with
        loads := [⟨0, 0, 3, 0x10000000, 1, true, .normal⟩] }) pair)) (fun t => t.c0.dom.e0.rd 3 == 0xFFFFFF80) = true := by
  decide +kernel

/-- R135: SYSREQ at System level saves the pc and goes to VBASE. -/
theorem test_sysreq :
    holdsAfter (.sysreq k0) pair (fun t => t.c0.dom.e0.epc == 0 && t.c0.dom.e0.pc == 0x400 && t.c0.dom.e0.cause == 0x0C
      && t.c0.dom.e0.exl) = true := by decide +kernel

/-- R12: an unassigned address is written without effect. -/
theorem test_register_write_misaligned :
    holdsAfter (.registerWrite (.ch .c0) 0x40040002 5) start (fun t => decide (t = start)) = true := by decide +kernel

/-- R196, R198: STROBE takes its slot, and its strobes act in the next cycle. -/
theorem test_strobe :
    holdsAfter (.strobe w0 0x101) (weirRuns start) (fun t => t.c0.weir.strobes == 0x101 && t.c0.weir.t0.pc == 1) = true := by
  decide +kernel

/-- R309, R310: half of a number is its mantissa with an exponent one lower; zero has the exponent of its operand. -/
theorem test_vmul :
    holdsAfter (.vmul q0 2 0 1) (onCas (fun a => { a with v := [(0, ⟨1, [4194304]⟩), (1, ⟨0, [4194304]⟩)] }) (casRuns start))
      (fun t => (dyOf ((t.c0.vr 2).lane 0) (t.c0.vr 2).exp).le (dyOf 4194304 0) && (dyOf 4194304 0).le
        (dyOf ((t.c0.vr 2).lane 0) (t.c0.vr 2).exp)) = true := by decide +kernel

/-- R295: a software trip latches, with every leg off. -/
theorem test_swtrip : holdsAfter (.swtrip .c0 2) start (fun t => t.c0.rgB PWM_TRIP_LATCH && t.c0.pwm.gate == 0) = true := by
  decide +kernel

/-- R467: a link that is DOWN aligns. -/
theorem test_link_align :
    holdsAfter (.linkAlign .a) (hostRg [(RING_CTL_PORTEN, 1)] start) (fun t => t.host.rgN RING_STAT_LINKA == 1) = true := by
  decide +kernel

/-- R535: EXTEST drives the balls; a blown fuse ends it for good. -/
theorem test_extest : holdsAfter (.extest 5 1) start (fun t => t.dev.extest == some (2 ^ 60 + 5)) = true := by decide +kernel
theorem test_fuseoff : holdsAfter .fuseoff start (fun t => t.dev.extest == none && !t.dev.scanFuse) = true := by decide +kernel

/-- CRC-32 of the bytes 31H to 39H is CBF43926H (R470). -/
theorem test_crc : crc32 [0x31, 0x32, 0x33, 0x34, 0x35, 0x36, 0x37, 0x38, 0x39] = 0xCBF43926 := by decide +kernel

/-! ## Hypotheses met -/

theorem ready {s : State} {k : At} {u : List GReg}
    (h : (s.dom k.d).inReset = false ∧ (s.dom k.d).runs k.e = true ∧ (s.core k.d k.e).wait = .none ∧
      (s.dom k.d).breakDue k.e = false ∧ (s.dom k.d).entryDue k.e = none ∧ (s.dom k.d).fetchFault k.e k.f = none ∧
      (s.core k.d k.e).awaits u = none) : Ready s k u :=
  ⟨h.1, h.2.1, h.2.2.1, h.2.2.2.1, h.2.2.2.2.1, h.2.2.2.2.2.1, h.2.2.2.2.2.2⟩

theorem hasRoom {d : Domain} {ev : Nat} (h : (d.evq.filter (fun e => e.src == BitVec.ofNat 7 ev)).length < 4 ∧
    sget 0 d.evNext ev ≤ d.time) : HasRoom d ev := h

theorem placed {s : State} (h : [s.c0.dom.id, s.c1.dom.id, s.c2.dom.id, s.c3.dom.id, s.host.dom.id] = [0, 1, 2, 3, 4]) :
    Placed s := by
  injection h with h0 h; injection h with h1 h; injection h with h2 h; injection h with h3 h; injection h with h4
  exact ⟨fun n => by cases n <;> assumption, h4⟩

theorem witness_IntegerInstructions :
    (∃ (s : State) (k : At) (rd rs1 rs2 : GReg), Ready s k [rd, rs1, rs2])
    ∧ (∃ (s : State) (k : At) (rd rs1 : GReg), Ready s k [rd, rs1])
    ∧ (∃ (s : State) (k : At) (rd : GReg), Ready s k [rd]) :=
  ⟨⟨pair, ⟨.ch .c0, .e0, .good⟩, 0, 0, 0, ready (by decide +kernel)⟩,
   ⟨pair, ⟨.ch .c0, .e0, .good⟩, 0, 0, ready (by decide +kernel)⟩,
   ⟨pair, ⟨.ch .c0, .e0, .good⟩, 0, ready (by decide +kernel)⟩⟩

theorem witness_ControlTransfers :
    (∃ (s : State) (k : At) (rs1 rs2 : GReg), Ready s k [rs1, rs2])
    ∧ (∃ (s : State) (k : At) (rd : GReg), Ready s k [rd])
    ∧ (∃ (s : State) (k : At) (rd rs1 : GReg) (imm : BitVec 16), Ready s k [rd, rs1] ∧
      BitVec.toNat ((s.core k.d k.e).rd rs1 + BitVec.signExtend 32 imm) % 4 = 0) :=
  ⟨⟨pair, ⟨.ch .c0, .e0, .good⟩, 0, 0, ready (by decide +kernel)⟩,
   ⟨pair, ⟨.ch .c0, .e0, .good⟩, 0, ready (by decide +kernel)⟩,
   ⟨pair, ⟨.ch .c0, .e0, .good⟩, 0, 0, 4, ready (by decide +kernel), by decide +kernel⟩⟩

theorem witness_SystemRequestsAndPrivilege :
    (∃ (s : State) (k : At), Ready s k [] ∧ MaskOpen s k ∧ (s.dom k.d).rgB DBG_CTL_DBRKEN = false)
    ∧ (∃ (s : State) (k : At), Ready s k [] ∧ (s.dom k.d).rgB DBG_CTL_DBRKEN = true ∧ (s.dom k.d).dbg.want = none)
    ∧ (∃ (s : State) (k : At), Ready s k [] ∧ MaskOpen s k ∧ (s.core k.d k.e).priv = Priv.user) :=
  ⟨⟨pair, ⟨.ch .c0, .e0, .good⟩, ready (by decide +kernel), ⟨rfl, rfl, by decide +kernel⟩, by decide +kernel⟩,
   ⟨hostRg [(DBG_CTL_DBRKEN, 1)] pair, ⟨.host, .e0, .good⟩, ready (by decide +kernel), by decide +kernel⟩,
   ⟨onCores (fun x => { x with priv := .user }) pair, ⟨.ch .c0, .e0, .good⟩, ready (by decide +kernel), ⟨rfl, rfl,
    by decide +kernel⟩, by decide +kernel⟩⟩

theorem witness_Returns :
    (∃ (s : State) (k : At), Ready s k [] ∧ (s.core k.d k.e).priv = Priv.system) :=
  ⟨pair, ⟨.ch .c0, .e0, .good⟩, ready (by decide +kernel), by decide +kernel⟩

theorem witness_EntriesAtBoundaries :
    (∃ (s : State) (d : Dom) (e : Eng) (p : Nat), MaskOpen s ⟨d, e, .good⟩ ∧ (s.dom d).inReset = false ∧
      (s.dom d).runs e = true ∧ (s.core d e).wait = Wait.none ∧ (s.dom d).dbg.halted = false ∧
      (s.dom d).replays e = false ∧ (s.dom d).topLevel e = some p ∧ (s.core d e).ie = true ∧ (s.core d e).ipl ≤ p)
    ∧ (∃ (s : State) (d : Dom) (e : Eng), (s.dom d).inReset = false ∧ (s.dom d).runs e = true ∧
      (s.core d e).wait = Wait.none ∧ (s.dom d).dbg.halted = false ∧ (s.dom d).replays e = false ∧
      (s.dom d).tripPending e = true ∧ (s.core d e).nexl = false)
    ∧ (∃ (s : State) (d : Dom) (e : Eng) (a : Word) (more : List Word), MaskOpen s ⟨d, e, .good⟩ ∧
      (s.dom d).inReset = false ∧ (s.dom d).runs e = true ∧ (s.core d e).wait = Wait.none ∧
      (s.dom d).dbg.halted = false ∧ (s.dom d).replays e = false ∧ (s.core d e).postedErrs = a :: more) :=
  ⟨⟨onCores (fun x => { x with status := 0x12 }) (event5 3 single), .ch .c0, .e0, 3, ⟨rfl, rfl, by decide +kernel⟩,
    by decide +kernel⟩,
   ⟨event5 8 single, .ch .c0, .e0, by decide +kernel⟩,
   ⟨onCores (fun x => { x with postedErrs := [0x40000000, 0x41000000] }) pair, .ch .c0, .e0, 0x40000000, [0x41000000],
    ⟨rfl, rfl, by decide +kernel⟩, by decide +kernel⟩⟩

theorem witness_ControlRegisterInstructions :
    (∃ (s : State) (k : At) (rd rs1 : GReg) (csr : BitVec 12) (old : Word), Ready s k [rd, rs1] ∧
      (s.core k.d k.e).priv = Priv.system ∧ (s.dom k.d).csr k.e csr.toNat = some old ∧ csr.toNat ≠ 16 ∧
      csr.toNat ≠ 17)
    ∧ (∃ (s : State) (k : At) (rd : GReg), Ready s k [rd, 0] ∧ (s.dom k.d).replays k.e = false)
    ∧ (∃ (s : State) (k : At) (rd rs1 : GReg) (csr : BitVec 12) (old : Word) (i : Instr), Ready s k [rd, rs1] ∧
      (s.core k.d k.e).priv = Priv.system ∧ (s.dom k.d).replays k.e = false ∧ (csr = 16 ∨ csr = 17) ∧
      (s.dom k.d).csr k.e csr.toNat = some old ∧
      (i ∈ Instr.ctlSwap k rd rs1 csr :: if rs1 = 0 then [] else [Instr.ctlSet k rd rs1 csr,
      Instr.ctlClr k rd rs1 csr]))
    ∧ (∃ (s : State) (k : At) (rd rs1 : GReg) (csr : BitVec 12), Ready s k [rd, rs1] ∧ MaskOpen s k ∧
      (s.core k.d k.e).priv = Priv.user ∧ csr ≠ 16 ∧ csr ≠ 17) :=
  ⟨⟨pair, ⟨.ch .c0, .e0, .good⟩, 0, 0, 1, 0, ready (by decide +kernel), by decide +kernel⟩,
   ⟨pair, ⟨.ch .c0, .e0, .good⟩, 0, ready (by decide +kernel), by decide +kernel⟩,
   ⟨pair, ⟨.ch .c0, .e0, .good⟩, 0, 0, 0x10, 0, .ctlSwap ⟨.ch .c0, .e0, .good⟩ 0 0 0x10, ready (by decide +kernel),
    by decide +kernel⟩,
   ⟨onCores (fun x => { x with priv := .user }) pair, ⟨.ch .c0, .e0, .good⟩, 0, 0, 1, ready (by decide +kernel), ⟨rfl,
    rfl, by decide +kernel⟩, by decide +kernel⟩⟩

theorem witness_IdleAndFences :
    (∃ (s : State) (k : At), Ready s k [] ∧ (s.dom k.d).replays k.e = false ∧ (s.core k.d k.e).priv = Priv.system ∧
      (s.dom k.d).wakes k.e = true)
    ∧ (∃ (s : State) (k : At), Ready s k [] ∧ (s.dom k.d).replays k.e = false ∧ (s.core k.d k.e).priv = Priv.system ∧
      (s.dom k.d).wakes k.e = false)
    ∧ (∃ (s : State) (k : At), (s.dom k.d).replays k.e = false ∧ (s.dom k.d).inReset = false ∧
      (s.dom k.d).runs k.e = true ∧ (s.core k.d k.e).wait = Wait.idle ∧ (s.dom k.d).wakes k.e = true)
    ∧ (∃ (s : State) (k : At), Ready s k [] ∧ (s.dom k.d).drained k.e 15 = true ∧ (s.dom k.d).owes k.e 15 = false)
    ∧ (∃ (s : State) (k : At), Ready s k [] ∧ ((s.dom k.d).drained k.e 15 = false ∨ (s.dom k.d).owes k.e 15 = true))
    ∧ (∃ (s : State) (k : At), Ready s k [] ∧ (s.dom k.d).drained k.e 8 = true ∧ (s.dom k.d).owes k.e 8 = false)
    ∧ (∃ (s : State) (k : At), Ready s k [] ∧ ((s.dom k.d).drained k.e 8 = false ∨ (s.dom k.d).owes k.e 8 = true))
    ∧ (∃ (s : State) (k : At) (o1 : BitVec 1), Ready s k [] ∧ (s.dom k.d).drained k.e (o1 ++ (4 : BitVec 3)) = true ∧
      (s.dom k.d).owes k.e (o1 ++ (4 : BitVec 3)) = false)
    ∧ (∃ (s : State) (k : At) (o1 : BitVec 1), Ready s k [] ∧
      ((s.dom k.d).drained k.e (o1 ++ (4 : BitVec 3)) = false ∨ (s.dom k.d).owes k.e (o1 ++ (4 : BitVec 3)) = true))
    ∧ (∃ (s : State) (k : At) (o2 : BitVec 2), Ready s k [] ∧ (s.dom k.d).drained k.e (o2 ++ (2 : BitVec 2)) = true ∧
      (s.dom k.d).owes k.e (o2 ++ (2 : BitVec 2)) = false)
    ∧ (∃ (s : State) (k : At) (o2 : BitVec 2), Ready s k [] ∧
      ((s.dom k.d).drained k.e (o2 ++ (2 : BitVec 2)) = false ∨ (s.dom k.d).owes k.e (o2 ++ (2 : BitVec 2)) = true))
    ∧ (∃ (s : State) (k : At) (o3 : BitVec 3), Ready s k [] ∧ (s.dom k.d).drained k.e (o3 ++ (1 : BitVec 1)) = true ∧
      (s.dom k.d).owes k.e (o3 ++ (1 : BitVec 1)) = false)
    ∧ (∃ (s : State) (k : At) (o3 : BitVec 3), Ready s k [] ∧
      ((s.dom k.d).drained k.e (o3 ++ (1 : BitVec 1)) = false ∨ (s.dom k.d).owes k.e (o3 ++ (1 : BitVec 1)) = true))
    ∧ (∃ (s : State) (k : At) (m : BitVec 4), (s.dom k.d).inReset = false ∧ (s.dom k.d).runs k.e = true ∧
      (s.core k.d k.e).wait = Wait.fence m ∧ (s.dom k.d).drained k.e m = true ∧ (s.dom k.d).owes k.e m = false) :=
  ⟨⟨event5 3 pair, ⟨.ch .c0, .e0, .good⟩, ready (by decide +kernel), by decide +kernel⟩,
   ⟨pair, ⟨.ch .c0, .e0, .good⟩, ready (by decide +kernel), by decide +kernel⟩,
   ⟨onCores (fun x => { x with wait := .idle }) (event5 3 pair), ⟨.ch .c0, .e0, .good⟩, by decide +kernel⟩,
   ⟨pair, ⟨.ch .c0, .e0, .good⟩, ready (by decide +kernel), by decide +kernel⟩,
   ⟨queued pair, ⟨.ch .c0, .e0, .good⟩, ready (by decide +kernel), by decide +kernel⟩,
   ⟨pair, ⟨.ch .c0, .e0, .good⟩, ready (by decide +kernel), by decide +kernel⟩,
   ⟨onCores (fun x => { x with posted := [⟨2, 0x60000000, 4, 5, .deviceRelaxed⟩], loads := [⟨1, 0, 3, 0x61000000, 4, false, .deviceRelaxed⟩] })
    pair, ⟨.ch .c0, .e0, .good⟩, ready (by decide +kernel), by decide +kernel⟩,
   ⟨pair, ⟨.ch .c0, .e0, .good⟩, 0, ready (by decide +kernel), by decide +kernel⟩,
   ⟨queued pair, ⟨.ch .c0, .e0, .good⟩, 0, ready (by decide +kernel), by decide +kernel⟩,
   ⟨pair, ⟨.ch .c0, .e0, .good⟩, 0, ready (by decide +kernel), by decide +kernel⟩,
   ⟨queued pair, ⟨.ch .c0, .e0, .good⟩, 0, ready (by decide +kernel), by decide +kernel⟩,
   ⟨pair, ⟨.ch .c0, .e0, .good⟩, 0, ready (by decide +kernel), by decide +kernel⟩,
   ⟨queued pair, ⟨.ch .c0, .e0, .good⟩, 0, ready (by decide +kernel), by decide +kernel⟩,
   ⟨onCores (fun x => { x with wait := .fence 5 }) pair, ⟨.ch .c0, .e0, .good⟩, 5, by decide +kernel⟩⟩

theorem witness_AccessesIssueOrTrap :
    (∃ (s : State) (k : At) (rd rs1 : GReg) (imm : BitVec 16), Ready s k [rd, rs1] ∧
      (s.core k.d k.e).permits 0 ((s.core k.d k.e).rd rs1 + BitVec.signExtend 32 imm) = true ∧
      (s.dom k.d).area ((s.core k.d k.e).rd rs1 + BitVec.signExtend 32 imm) ≠ Area.unmapped ∧
      (s.core k.d k.e).loads.length < 4 ∧
      ((s.dom k.d).outside ((s.core k.d k.e).rd rs1 + BitVec.signExtend 32 imm) = false ∨ (s.dom
      k.d).replays k.e = false) ∧ BitVec.toNat ((s.core k.d k.e).rd rs1 + BitVec.signExtend 32 imm) % 1 = 0 ∧
      ((s.core k.d k.e).attrOf ((s.dom k.d).area ((s.core k.d k.e).rd rs1 + BitVec.signExtend
      32 imm)).normal ((s.core k.d k.e).rd rs1 + BitVec.signExtend 32 imm)).device = false)
    ∧ (∃ (s : State) (k : At) (rd rs1 : GReg) (imm : BitVec 16), Ready s k [rd, rs1] ∧
      (s.core k.d k.e).permits 0 ((s.core k.d k.e).rd rs1 + BitVec.signExtend 32 imm) = true ∧
      (s.dom k.d).area ((s.core k.d k.e).rd rs1 + BitVec.signExtend 32 imm) ≠ Area.unmapped ∧
      (s.core k.d k.e).loads.length < 4 ∧
      ((s.dom k.d).outside ((s.core k.d k.e).rd rs1 + BitVec.signExtend 32 imm) = false ∨ (s.dom
      k.d).replays k.e = false) ∧ BitVec.toNat ((s.core k.d k.e).rd rs1 + BitVec.signExtend 32 imm) % 1 = 0 ∧
      ((s.core k.d k.e).attrOf ((s.dom k.d).area ((s.core k.d k.e).rd rs1 + BitVec.signExtend
      32 imm)).normal ((s.core k.d k.e).rd rs1 + BitVec.signExtend 32 imm)).device = true)
    ∧ (∃ (s : State) (k : At) (rd rs1 : GReg) (imm : BitVec 16), Ready s k [rd, rs1] ∧
      (s.core k.d k.e).permits 0 ((s.core k.d k.e).rd rs1 + BitVec.signExtend 32 imm) = true ∧
      (s.dom k.d).area ((s.core k.d k.e).rd rs1 + BitVec.signExtend 32 imm) ≠ Area.unmapped ∧
      (s.core k.d k.e).loads.length < 4 ∧
      ((s.dom k.d).outside ((s.core k.d k.e).rd rs1 + BitVec.signExtend 32 imm) = false ∨ (s.dom
      k.d).replays k.e = false) ∧ BitVec.toNat ((s.core k.d k.e).rd rs1 + BitVec.signExtend 32 imm) % 2 = 0 ∧
      ((s.core k.d k.e).attrOf ((s.dom k.d).area ((s.core k.d k.e).rd rs1 + BitVec.signExtend
      32 imm)).normal ((s.core k.d k.e).rd rs1 + BitVec.signExtend 32 imm)).device = false)
    ∧ (∃ (s : State) (k : At) (rd rs1 : GReg) (imm : BitVec 16), Ready s k [rd, rs1] ∧
      (s.core k.d k.e).permits 0 ((s.core k.d k.e).rd rs1 + BitVec.signExtend 32 imm) = true ∧
      (s.dom k.d).area ((s.core k.d k.e).rd rs1 + BitVec.signExtend 32 imm) ≠ Area.unmapped ∧
      (s.core k.d k.e).loads.length < 4 ∧
      ((s.dom k.d).outside ((s.core k.d k.e).rd rs1 + BitVec.signExtend 32 imm) = false ∨ (s.dom
      k.d).replays k.e = false) ∧ BitVec.toNat ((s.core k.d k.e).rd rs1 + BitVec.signExtend 32 imm) % 2 = 0 ∧
      ((s.core k.d k.e).attrOf ((s.dom k.d).area ((s.core k.d k.e).rd rs1 + BitVec.signExtend
      32 imm)).normal ((s.core k.d k.e).rd rs1 + BitVec.signExtend 32 imm)).device = true)
    ∧ (∃ (s : State) (k : At) (rd rs1 : GReg) (imm : BitVec 16), Ready s k [rd, rs1] ∧
      (s.core k.d k.e).permits 0 ((s.core k.d k.e).rd rs1 + BitVec.signExtend 32 imm) = true ∧
      (s.dom k.d).area ((s.core k.d k.e).rd rs1 + BitVec.signExtend 32 imm) ≠ Area.unmapped ∧
      (s.core k.d k.e).loads.length < 4 ∧
      ((s.dom k.d).outside ((s.core k.d k.e).rd rs1 + BitVec.signExtend 32 imm) = false ∨ (s.dom
      k.d).replays k.e = false) ∧ BitVec.toNat ((s.core k.d k.e).rd rs1 + BitVec.signExtend 32 imm) % 4 = 0 ∧
      ((s.core k.d k.e).attrOf ((s.dom k.d).area ((s.core k.d k.e).rd rs1 + BitVec.signExtend
      32 imm)).normal ((s.core k.d k.e).rd rs1 + BitVec.signExtend 32 imm)).device = false)
    ∧ (∃ (s : State) (k : At) (rd rs1 : GReg) (imm : BitVec 16), Ready s k [rd, rs1] ∧
      (s.core k.d k.e).permits 0 ((s.core k.d k.e).rd rs1 + BitVec.signExtend 32 imm) = true ∧
      (s.dom k.d).area ((s.core k.d k.e).rd rs1 + BitVec.signExtend 32 imm) ≠ Area.unmapped ∧
      (s.core k.d k.e).loads.length < 4 ∧
      ((s.dom k.d).outside ((s.core k.d k.e).rd rs1 + BitVec.signExtend 32 imm) = false ∨ (s.dom
      k.d).replays k.e = false) ∧ BitVec.toNat ((s.core k.d k.e).rd rs1 + BitVec.signExtend 32 imm) % 4 = 0 ∧
      ((s.core k.d k.e).attrOf ((s.dom k.d).area ((s.core k.d k.e).rd rs1 + BitVec.signExtend
      32 imm)).normal ((s.core k.d k.e).rd rs1 + BitVec.signExtend 32 imm)).device = true)
    ∧ (∃ (s : State) (k : At) (rs2 rs1 : GReg) (imm : BitVec 16), Ready s k [rs1, rs2] ∧
      (s.core k.d k.e).permits 1 ((s.core k.d k.e).rd rs1 + BitVec.signExtend 32 imm) = true ∧
      (s.dom k.d).storeFails s.dev.inhibit ((s.core k.d k.e).rd rs1 + BitVec.signExtend 32 imm) = false ∧
      (s.core k.d k.e).stores.length < 8 ∧ (s.core k.d k.e).posted.length < 8 ∧
      ((s.dom k.d).outside ((s.core k.d k.e).rd rs1 + BitVec.signExtend 32 imm) = false ∨ (s.dom
      k.d).replays k.e = false) ∧ BitVec.toNat ((s.core k.d k.e).rd rs1 + BitVec.signExtend 32 imm) % 1 = 0 ∧
      (s.dom k.d).outside ((s.core k.d k.e).rd rs1 + BitVec.signExtend 32 imm) = false)
    ∧ (∃ (s : State) (k : At) (rs2 rs1 : GReg) (imm : BitVec 16), Ready s k [rs1, rs2] ∧
      (s.core k.d k.e).permits 1 ((s.core k.d k.e).rd rs1 + BitVec.signExtend 32 imm) = true ∧
      (s.dom k.d).storeFails s.dev.inhibit ((s.core k.d k.e).rd rs1 + BitVec.signExtend 32 imm) = false ∧
      (s.core k.d k.e).stores.length < 8 ∧ (s.core k.d k.e).posted.length < 8 ∧
      ((s.dom k.d).outside ((s.core k.d k.e).rd rs1 + BitVec.signExtend 32 imm) = false ∨ (s.dom
      k.d).replays k.e = false) ∧ BitVec.toNat ((s.core k.d k.e).rd rs1 + BitVec.signExtend 32 imm) % 1 = 0 ∧
      (s.dom k.d).outside ((s.core k.d k.e).rd rs1 + BitVec.signExtend 32 imm) = true)
    ∧ (∃ (s : State) (k : At) (rs2 rs1 : GReg) (imm : BitVec 16), Ready s k [rs1, rs2] ∧
      (s.core k.d k.e).permits 1 ((s.core k.d k.e).rd rs1 + BitVec.signExtend 32 imm) = true ∧
      (s.dom k.d).storeFails s.dev.inhibit ((s.core k.d k.e).rd rs1 + BitVec.signExtend 32 imm) = false ∧
      (s.core k.d k.e).stores.length < 8 ∧ (s.core k.d k.e).posted.length < 8 ∧
      ((s.dom k.d).outside ((s.core k.d k.e).rd rs1 + BitVec.signExtend 32 imm) = false ∨ (s.dom
      k.d).replays k.e = false) ∧ BitVec.toNat ((s.core k.d k.e).rd rs1 + BitVec.signExtend 32 imm) % 2 = 0 ∧
      (s.dom k.d).outside ((s.core k.d k.e).rd rs1 + BitVec.signExtend 32 imm) = false)
    ∧ (∃ (s : State) (k : At) (rs2 rs1 : GReg) (imm : BitVec 16), Ready s k [rs1, rs2] ∧
      (s.core k.d k.e).permits 1 ((s.core k.d k.e).rd rs1 + BitVec.signExtend 32 imm) = true ∧
      (s.dom k.d).storeFails s.dev.inhibit ((s.core k.d k.e).rd rs1 + BitVec.signExtend 32 imm) = false ∧
      (s.core k.d k.e).stores.length < 8 ∧ (s.core k.d k.e).posted.length < 8 ∧
      ((s.dom k.d).outside ((s.core k.d k.e).rd rs1 + BitVec.signExtend 32 imm) = false ∨ (s.dom
      k.d).replays k.e = false) ∧ BitVec.toNat ((s.core k.d k.e).rd rs1 + BitVec.signExtend 32 imm) % 2 = 0 ∧
      (s.dom k.d).outside ((s.core k.d k.e).rd rs1 + BitVec.signExtend 32 imm) = true)
    ∧ (∃ (s : State) (k : At) (rs2 rs1 : GReg) (imm : BitVec 16), Ready s k [rs1, rs2] ∧
      (s.core k.d k.e).permits 1 ((s.core k.d k.e).rd rs1 + BitVec.signExtend 32 imm) = true ∧
      (s.dom k.d).storeFails s.dev.inhibit ((s.core k.d k.e).rd rs1 + BitVec.signExtend 32 imm) = false ∧
      (s.core k.d k.e).stores.length < 8 ∧ (s.core k.d k.e).posted.length < 8 ∧
      ((s.dom k.d).outside ((s.core k.d k.e).rd rs1 + BitVec.signExtend 32 imm) = false ∨ (s.dom
      k.d).replays k.e = false) ∧ BitVec.toNat ((s.core k.d k.e).rd rs1 + BitVec.signExtend 32 imm) % 4 = 0 ∧
      (s.dom k.d).outside ((s.core k.d k.e).rd rs1 + BitVec.signExtend 32 imm) = false)
    ∧ (∃ (s : State) (k : At) (rs2 rs1 : GReg) (imm : BitVec 16), Ready s k [rs1, rs2] ∧
      (s.core k.d k.e).permits 1 ((s.core k.d k.e).rd rs1 + BitVec.signExtend 32 imm) = true ∧
      (s.dom k.d).storeFails s.dev.inhibit ((s.core k.d k.e).rd rs1 + BitVec.signExtend 32 imm) = false ∧
      (s.core k.d k.e).stores.length < 8 ∧ (s.core k.d k.e).posted.length < 8 ∧
      ((s.dom k.d).outside ((s.core k.d k.e).rd rs1 + BitVec.signExtend 32 imm) = false ∨ (s.dom
      k.d).replays k.e = false) ∧ BitVec.toNat ((s.core k.d k.e).rd rs1 + BitVec.signExtend 32 imm) % 4 = 0 ∧
      (s.dom k.d).outside ((s.core k.d k.e).rd rs1 + BitVec.signExtend 32 imm) = true)
    ∧ (∃ (s : State) (k : At) (r rs1 : GReg) (imm : BitVec 16), Ready s k [r, rs1] ∧ MaskOpen s k ∧
      BitVec.toNat ((s.core k.d k.e).rd rs1 + BitVec.signExtend 32 imm) % 1 = 0 ∧
      (s.core k.d k.e).permits 0 ((s.core k.d k.e).rd rs1 + BitVec.signExtend 32 imm) = false)
    ∧ (∃ (s : State) (k : At) (r rs1 : GReg) (imm : BitVec 16), Ready s k [r, rs1] ∧ MaskOpen s k ∧
      BitVec.toNat ((s.core k.d k.e).rd rs1 + BitVec.signExtend 32 imm) % 1 = 0 ∧
      (s.core k.d k.e).permits 0 ((s.core k.d k.e).rd rs1 + BitVec.signExtend 32 imm) = true ∧
      (s.dom k.d).area ((s.core k.d k.e).rd rs1 + BitVec.signExtend 32 imm) = Area.unmapped)
    ∧ (∃ (s : State) (k : At) (r rs1 : GReg) (imm : BitVec 16), Ready s k [r, rs1] ∧ MaskOpen s k ∧
      BitVec.toNat ((s.core k.d k.e).rd rs1 + BitVec.signExtend 32 imm) % 2 ≠ 0)
    ∧ (∃ (s : State) (k : At) (r rs1 : GReg) (imm : BitVec 16), Ready s k [r, rs1] ∧ MaskOpen s k ∧
      BitVec.toNat ((s.core k.d k.e).rd rs1 + BitVec.signExtend 32 imm) % 2 = 0 ∧
      (s.core k.d k.e).permits 0 ((s.core k.d k.e).rd rs1 + BitVec.signExtend 32 imm) = false)
    ∧ (∃ (s : State) (k : At) (r rs1 : GReg) (imm : BitVec 16), Ready s k [r, rs1] ∧ MaskOpen s k ∧
      BitVec.toNat ((s.core k.d k.e).rd rs1 + BitVec.signExtend 32 imm) % 2 = 0 ∧
      (s.core k.d k.e).permits 0 ((s.core k.d k.e).rd rs1 + BitVec.signExtend 32 imm) = true ∧
      (s.dom k.d).area ((s.core k.d k.e).rd rs1 + BitVec.signExtend 32 imm) = Area.unmapped)
    ∧ (∃ (s : State) (k : At) (r rs1 : GReg) (imm : BitVec 16), Ready s k [r, rs1] ∧ MaskOpen s k ∧
      BitVec.toNat ((s.core k.d k.e).rd rs1 + BitVec.signExtend 32 imm) % 4 ≠ 0)
    ∧ (∃ (s : State) (k : At) (r rs1 : GReg) (imm : BitVec 16), Ready s k [r, rs1] ∧ MaskOpen s k ∧
      BitVec.toNat ((s.core k.d k.e).rd rs1 + BitVec.signExtend 32 imm) % 4 = 0 ∧
      (s.core k.d k.e).permits 0 ((s.core k.d k.e).rd rs1 + BitVec.signExtend 32 imm) = false)
    ∧ (∃ (s : State) (k : At) (r rs1 : GReg) (imm : BitVec 16), Ready s k [r, rs1] ∧ MaskOpen s k ∧
      BitVec.toNat ((s.core k.d k.e).rd rs1 + BitVec.signExtend 32 imm) % 4 = 0 ∧
      (s.core k.d k.e).permits 0 ((s.core k.d k.e).rd rs1 + BitVec.signExtend 32 imm) = true ∧
      (s.dom k.d).area ((s.core k.d k.e).rd rs1 + BitVec.signExtend 32 imm) = Area.unmapped)
    ∧ (∃ (s : State) (k : At) (r rs1 : GReg) (imm : BitVec 16), Ready s k [r, rs1] ∧ MaskOpen s k ∧
      BitVec.toNat ((s.core k.d k.e).rd rs1 + BitVec.signExtend 32 imm) % 1 = 0 ∧
      (s.core k.d k.e).permits 1 ((s.core k.d k.e).rd rs1 + BitVec.signExtend 32 imm) = false)
    ∧ (∃ (s : State) (k : At) (r rs1 : GReg) (imm : BitVec 16), Ready s k [r, rs1] ∧ MaskOpen s k ∧
      BitVec.toNat ((s.core k.d k.e).rd rs1 + BitVec.signExtend 32 imm) % 1 = 0 ∧
      (s.core k.d k.e).permits 1 ((s.core k.d k.e).rd rs1 + BitVec.signExtend 32 imm) = true ∧
      (s.dom k.d).storeFails s.dev.inhibit ((s.core k.d k.e).rd rs1 + BitVec.signExtend 32 imm) = true)
    ∧ (∃ (s : State) (k : At) (r rs1 : GReg) (imm : BitVec 16), Ready s k [r, rs1] ∧ MaskOpen s k ∧
      BitVec.toNat ((s.core k.d k.e).rd rs1 + BitVec.signExtend 32 imm) % 2 = 0 ∧
      (s.core k.d k.e).permits 1 ((s.core k.d k.e).rd rs1 + BitVec.signExtend 32 imm) = false)
    ∧ (∃ (s : State) (k : At) (r rs1 : GReg) (imm : BitVec 16), Ready s k [r, rs1] ∧ MaskOpen s k ∧
      BitVec.toNat ((s.core k.d k.e).rd rs1 + BitVec.signExtend 32 imm) % 2 = 0 ∧
      (s.core k.d k.e).permits 1 ((s.core k.d k.e).rd rs1 + BitVec.signExtend 32 imm) = true ∧
      (s.dom k.d).storeFails s.dev.inhibit ((s.core k.d k.e).rd rs1 + BitVec.signExtend 32 imm) = true)
    ∧ (∃ (s : State) (k : At) (r rs1 : GReg) (imm : BitVec 16), Ready s k [r, rs1] ∧ MaskOpen s k ∧
      BitVec.toNat ((s.core k.d k.e).rd rs1 + BitVec.signExtend 32 imm) % 4 = 0 ∧
      (s.core k.d k.e).permits 1 ((s.core k.d k.e).rd rs1 + BitVec.signExtend 32 imm) = false)
    ∧ (∃ (s : State) (k : At) (r rs1 : GReg) (imm : BitVec 16), Ready s k [r, rs1] ∧ MaskOpen s k ∧
      BitVec.toNat ((s.core k.d k.e).rd rs1 + BitVec.signExtend 32 imm) % 4 = 0 ∧
      (s.core k.d k.e).permits 1 ((s.core k.d k.e).rd rs1 + BitVec.signExtend 32 imm) = true ∧
      (s.dom k.d).storeFails s.dev.inhibit ((s.core k.d k.e).rd rs1 + BitVec.signExtend 32 imm) = true)
    ∧ (∃ (s : State) (k : At) (r rs1 : GReg), Ready s k [r, rs1] ∧ MaskOpen s k ∧
      BitVec.toNat ((s.core k.d k.e).rd rs1) % 4 ≠ 0)
    ∧ (∃ (s : State) (k : At) (r rs1 : GReg), Ready s k [r, rs1] ∧ MaskOpen s k ∧
      BitVec.toNat ((s.core k.d k.e).rd rs1) % 4 = 0 ∧ true = true ∧
      (s.core k.d k.e).permits 0 ((s.core k.d k.e).rd rs1) = false)
    ∧ (∃ (s : State) (k : At) (r rs1 : GReg), Ready s k [r, rs1] ∧ MaskOpen s k ∧
      BitVec.toNat ((s.core k.d k.e).rd rs1) % 4 = 0 ∧
      (true = true → (s.core k.d k.e).permits 0 ((s.core k.d k.e).rd rs1) = true) ∧ true = true ∧
      (s.core k.d k.e).permits 1 ((s.core k.d k.e).rd rs1) = false)
    ∧ (∃ (s : State) (k : At) (r rs1 : GReg), Ready s k [r, rs1] ∧ MaskOpen s k ∧
      BitVec.toNat ((s.core k.d k.e).rd rs1) % 4 = 0 ∧
      (true = true → (s.core k.d k.e).permits 0 ((s.core k.d k.e).rd rs1) = true) ∧
      (true = true → (s.core k.d k.e).permits 1 ((s.core k.d k.e).rd rs1) = true) ∧
      (s.dom k.d).area ((s.core k.d k.e).rd rs1) ≠ Area.sram)
    ∧ (∃ (s : State) (k : At) (r rs1 : GReg), Ready s k [r, rs1] ∧ MaskOpen s k ∧
      BitVec.toNat ((s.core k.d k.e).rd rs1) % 4 = 0 ∧
      (false = true → (s.core k.d k.e).permits 0 ((s.core k.d k.e).rd rs1) = true) ∧ true = true ∧
      (s.core k.d k.e).permits 1 ((s.core k.d k.e).rd rs1) = false)
    ∧ (∃ (s : State) (k : At) (r rs1 : GReg), Ready s k [r, rs1] ∧ MaskOpen s k ∧
      BitVec.toNat ((s.core k.d k.e).rd rs1) % 4 = 0 ∧
      (false = true → (s.core k.d k.e).permits 0 ((s.core k.d k.e).rd rs1) = true) ∧
      (true = true → (s.core k.d k.e).permits 1 ((s.core k.d k.e).rd rs1) = true) ∧
      (s.dom k.d).area ((s.core k.d k.e).rd rs1) ≠ Area.sram)
    ∧ (∃ (s : State) (k : At) (r rs1 : GReg), Ready s k [r, rs1] ∧ MaskOpen s k ∧
      BitVec.toNat ((s.core k.d k.e).rd rs1) % 4 = 0 ∧
      (true = true → (s.core k.d k.e).permits 0 ((s.core k.d k.e).rd rs1) = true) ∧
      (false = true → (s.core k.d k.e).permits 1 ((s.core k.d k.e).rd rs1) = true) ∧
      (s.dom k.d).area ((s.core k.d k.e).rd rs1) ≠ Area.sram) :=
  ⟨⟨pair, ⟨.ch .c0, .e0, .good⟩, 0, 0, 0, ready (by decide +kernel), by decide +kernel⟩,
   ⟨g12 0x40020000 7 pair, ⟨.ch .c0, .e0, .good⟩, 0, 1, 0, ready (by decide +kernel), by decide +kernel⟩,
   ⟨pair, ⟨.ch .c0, .e0, .good⟩, 0, 0, 0, ready (by decide +kernel), by decide +kernel⟩,
   ⟨g12 0x40020000 7 pair, ⟨.ch .c0, .e0, .good⟩, 0, 1, 0, ready (by decide +kernel), by decide +kernel⟩,
   ⟨pair, ⟨.ch .c0, .e0, .good⟩, 0, 0, 0, ready (by decide +kernel), by decide +kernel⟩,
   ⟨g12 0x40020000 7 pair, ⟨.ch .c0, .e0, .good⟩, 0, 1, 0, ready (by decide +kernel), by decide +kernel⟩,
   ⟨g12 0x10000010 3 pair, ⟨.ch .c0, .e0, .good⟩, 0, 1, 0, ready (by decide +kernel), by decide +kernel⟩,
   ⟨g12 0x40020000 7 pair, ⟨.ch .c0, .e0, .good⟩, 0, 1, 0, ready (by decide +kernel), by decide +kernel⟩,
   ⟨g12 0x10000010 3 pair, ⟨.ch .c0, .e0, .good⟩, 0, 1, 0, ready (by decide +kernel), by decide +kernel⟩,
   ⟨g12 0x40020000 7 pair, ⟨.ch .c0, .e0, .good⟩, 0, 1, 0, ready (by decide +kernel), by decide +kernel⟩,
   ⟨g12 0x10000010 3 pair, ⟨.ch .c0, .e0, .good⟩, 0, 1, 0, ready (by decide +kernel), by decide +kernel⟩,
   ⟨g12 0x40020000 7 pair, ⟨.ch .c0, .e0, .good⟩, 0, 1, 0, ready (by decide +kernel), by decide +kernel⟩,
   ⟨onCores (fun x => { x with mpuCtl := 1, mpuBase := [(0, 0x10000001)], mpuLim := [(0, 0x100FF000)] })
    (g12 0x10000010 3 pair), ⟨.ch .c0, .e0, .good⟩, 0, 1, 0, ready (by decide +kernel), ⟨rfl, rfl, by decide +kernel⟩,
    by decide +kernel⟩,
   ⟨pair, ⟨.ch .c0, .e0, .good⟩, 0, 0, 0x8000, ready (by decide +kernel), ⟨rfl, rfl, by decide +kernel⟩,
    by decide +kernel⟩,
   ⟨pair, ⟨.ch .c0, .e0, .good⟩, 0, 0, 0x1235, ready (by decide +kernel), ⟨rfl, rfl, by decide +kernel⟩,
    by decide +kernel⟩,
   ⟨onCores (fun x => { x with mpuCtl := 1, mpuBase := [(0, 0x10000001)], mpuLim := [(0, 0x100FF000)] })
    (g12 0x10000010 3 pair), ⟨.ch .c0, .e0, .good⟩, 0, 1, 0, ready (by decide +kernel), ⟨rfl, rfl, by decide +kernel⟩,
    by decide +kernel⟩,
   ⟨pair, ⟨.ch .c0, .e0, .good⟩, 0, 0, 0x8000, ready (by decide +kernel), ⟨rfl, rfl, by decide +kernel⟩,
    by decide +kernel⟩,
   ⟨pair, ⟨.ch .c0, .e0, .good⟩, 0, 0, 0x1235, ready (by decide +kernel), ⟨rfl, rfl, by decide +kernel⟩,
    by decide +kernel⟩,
   ⟨onCores (fun x => { x with mpuCtl := 1, mpuBase := [(0, 0x10000001)], mpuLim := [(0, 0x100FF000)] })
    (g12 0x10000010 3 pair), ⟨.ch .c0, .e0, .good⟩, 0, 1, 0, ready (by decide +kernel), ⟨rfl, rfl, by decide +kernel⟩,
    by decide +kernel⟩,
   ⟨pair, ⟨.ch .c0, .e0, .good⟩, 0, 0, 0x8000, ready (by decide +kernel), ⟨rfl, rfl, by decide +kernel⟩,
    by decide +kernel⟩,
   ⟨onCores (fun x => { x with mpuCtl := 1, mpuBase := [(0, 0x10000001)], mpuLim := [(0, 0x100FF000)] })
    (g12 0x10000010 3 pair), ⟨.ch .c0, .e0, .good⟩, 0, 1, 0, ready (by decide +kernel), ⟨rfl, rfl, by decide +kernel⟩,
    by decide +kernel⟩,
   ⟨pair, ⟨.ch .c0, .e0, .good⟩, 0, 0, 0, ready (by decide +kernel), ⟨rfl, rfl, by decide +kernel⟩, by decide +kernel⟩,
   ⟨onCores (fun x => { x with mpuCtl := 1, mpuBase := [(0, 0x10000001)], mpuLim := [(0, 0x100FF000)] })
    (g12 0x10000010 3 pair), ⟨.ch .c0, .e0, .good⟩, 0, 1, 0, ready (by decide +kernel), ⟨rfl, rfl, by decide +kernel⟩,
    by decide +kernel⟩,
   ⟨pair, ⟨.ch .c0, .e0, .good⟩, 0, 0, 0, ready (by decide +kernel), ⟨rfl, rfl, by decide +kernel⟩, by decide +kernel⟩,
   ⟨onCores (fun x => { x with mpuCtl := 1, mpuBase := [(0, 0x10000001)], mpuLim := [(0, 0x100FF000)] })
    (g12 0x10000010 3 pair), ⟨.ch .c0, .e0, .good⟩, 0, 1, 0, ready (by decide +kernel), ⟨rfl, rfl, by decide +kernel⟩,
    by decide +kernel⟩,
   ⟨pair, ⟨.ch .c0, .e0, .good⟩, 0, 0, 0, ready (by decide +kernel), ⟨rfl, rfl, by decide +kernel⟩, by decide +kernel⟩,
   ⟨g12 0x10000010 3 pair, ⟨.ch .c0, .e0, .good⟩, 0, 2, ready (by decide +kernel), ⟨rfl, rfl, by decide +kernel⟩,
    by decide +kernel⟩,
   ⟨onCores (fun x => { x with mpuCtl := 1, mpuBase := [(0, 0x10000001)], mpuLim := [(0, 0x100FF000)] })
    (g12 0x10000010 3 pair), ⟨.ch .c0, .e0, .good⟩, 0, 1, ready (by decide +kernel), ⟨rfl, rfl, by decide +kernel⟩,
    by decide +kernel⟩,
   ⟨onCores (fun x => { x with mpuCtl := 1, mpuBase := [(0, 0x10000001)], mpuLim := [(0, 0x100FF001)] })
    (g12 0x10000010 3 pair), ⟨.ch .c0, .e0, .good⟩, 0, 1, ready (by decide +kernel), ⟨rfl, rfl, by decide +kernel⟩,
    by decide +kernel⟩,
   ⟨pair, ⟨.ch .c0, .e0, .good⟩, 0, 0, ready (by decide +kernel), ⟨rfl, rfl, by decide +kernel⟩, by decide +kernel⟩,
   ⟨onCores (fun x => { x with mpuCtl := 1, mpuBase := [(0, 0x10000001)], mpuLim := [(0, 0x100FF000)] })
    (g12 0x10000010 3 pair), ⟨.ch .c0, .e0, .good⟩, 0, 1, ready (by decide +kernel), ⟨rfl, rfl, by decide +kernel⟩,
    by decide +kernel⟩,
   ⟨pair, ⟨.ch .c0, .e0, .good⟩, 0, 0, ready (by decide +kernel), ⟨rfl, rfl, by decide +kernel⟩, by decide +kernel⟩,
   ⟨pair, ⟨.ch .c0, .e0, .good⟩, 0, 0, ready (by decide +kernel), ⟨rfl, rfl, by decide +kernel⟩, by decide +kernel⟩⟩

theorem witness_AtomicsAndReservations :
    (∃ (s : State) (k : At) (rd rs1 rs2 : GReg) (ord : AtomOrder) (n : Nat), Ready s k [rd, rs1, rs2] ∧
      BitVec.toNat ((s.core k.d k.e).rd rs1) % 4 = 0 ∧ (s.core k.d k.e).permits 0 ((s.core k.d k.e).rd rs1) = true ∧
      (s.core k.d k.e).permits 1 ((s.core k.d k.e).rd rs1) = true ∧
      (s.dom k.d).area ((s.core k.d k.e).rd rs1) = Area.sram ∧
      (s.core k.d k.e).atomWaits ord ((s.core k.d k.e).rd rs1) ((s.core k.d k.e).attrOf true
      ((s.core k.d k.e).rd rs1)) = false ∧ ord.ecc ≠ Ecc.uncorrectable ∧ (s.dom k.d).replays k.e = false ∧
      (s.core k.d k.e).rsv = some (BitVec.toNat ((s.core k.d k.e).rd rs1), n))
    ∧ (∃ (s : State) (k : At) (rd rs1 rs2 : GReg) (ord : AtomOrder), Ready s k [rd, rs1, rs2] ∧ (∀ (n : Nat),
      (s.core k.d k.e).rsv ≠ some (BitVec.toNat ((s.core k.d k.e).rd rs1), n)) ∧
      BitVec.toNat ((s.core k.d k.e).rd rs1) % 4 = 0 ∧ (s.core k.d k.e).permits 0 ((s.core k.d k.e).rd rs1) = true ∧
      (s.core k.d k.e).permits 1 ((s.core k.d k.e).rd rs1) = true ∧
      (s.dom k.d).area ((s.core k.d k.e).rd rs1) = Area.sram ∧
      (s.core k.d k.e).atomWaits ord ((s.core k.d k.e).rd rs1) ((s.core k.d k.e).attrOf true
      ((s.core k.d k.e).rd rs1)) = false ∧ ord.ecc ≠ Ecc.uncorrectable ∧ (s.dom k.d).replays k.e = false) :=
  ⟨⟨onCores (fun x => { x with rsv := some (0x10000010, 5) }) (g12 0x10000010 3 single), ⟨.ch .c0, .e0, .good⟩, 0, 1,
    0, { ordn := false, ordp := true, ecc := .clean }, 5, ready (by decide +kernel), by decide +kernel⟩,
   ⟨g12 0x10000010 3 pair, ⟨.ch .c0, .e0, .good⟩, 0, 1, 0, { ordn := false, ordp := true, ecc := .clean },
    ready (by decide +kernel), fun _ => nofun, by decide +kernel⟩⟩

theorem witness_AccessesComplete :
    (∃ (s : State) (d : Dom) (e : Eng) (i : Nat) (l : LoadReq) (ecc : Ecc), (s.dom d).inReset = false ∧
      (s.core d e).run = CoreRun.running ∧ (s.core d e).loads[i]? = some l ∧
      (s.core d e).mayPerform l.seq l.addr l.size l.attr true = true ∧
      ((s.dom d).area l.addr = Area.sram ∨ (s.dom d).area l.addr = Area.code) ∧
      (l.size = 1 ∨ l.size = 2 ∨ l.size = 4) ∧ l.attr.device = false ∧ (∀ (q : StoreReq),
      q ∈ (s.core d e).stores → BitVec.toNat q.addr + q.size ≤ BitVec.toNat l.addr ∨ BitVec.toNat
      l.addr + l.size ≤ BitVec.toNat q.addr) ∧ ecc ≠ Ecc.uncorrectable)
    ∧ (∃ (s : State) (d : Dom) (e : Eng) (i : Nat) (l : LoadReq) (ecc : Ecc), MaskOpen s ⟨d, e, .good⟩ ∧
      (s.dom d).inReset = false ∧ (s.core d e).run = CoreRun.running ∧ (s.core d e).loads[i]? = some l ∧
      (s.core d e).mayPerform l.seq l.addr l.size l.attr true = true ∧
      ((s.dom d).area l.addr = Area.sram ∨ (s.dom d).area l.addr = Area.code) ∧
      (l.size = 1 ∨ l.size = 2 ∨ l.size = 4) ∧ l.attr.device = false ∧ (∀ (q : StoreReq),
      q ∈ (s.core d e).stores → BitVec.toNat q.addr + q.size ≤ BitVec.toNat l.addr ∨ BitVec.toNat
      l.addr + l.size ≤ BitVec.toNat q.addr) ∧ ecc = Ecc.uncorrectable)
    ∧ (∃ (s : State) (d : Dom) (e : Eng) (i : Nat) (q : StoreReq) (ecc : Ecc), (s.dom d).inReset = false ∧
      (s.core d e).stores[i]? = some q ∧ (s.core d e).mayPerform q.seq q.addr q.size q.attr false = true ∧
      (s.dom d).area q.addr = Area.sram ∧ ecc ≠ Ecc.uncorrectable) :=
  ⟨⟨queued single, .ch .c0, .e0, 0,
    { seq := 0, pc := 0, rd := 3, addr := 0x10000000, size := 4, signed := false, attr := .normal }, .correctable,
    by decide +kernel⟩,
   ⟨queued single, .ch .c0, .e0, 0,
    { seq := 0, pc := 0, rd := 3, addr := 0x10000000, size := 4, signed := false, attr := .normal }, .uncorrectable,
    ⟨rfl, rfl, by decide +kernel⟩, by decide +kernel⟩,
   ⟨queued single, .ch .c0, .e0, 0, { seq := 1, addr := 0x10000008, size := 4, data := 0x11223344, attr := .normal },
    .correctable, by decide +kernel⟩⟩

theorem witness_EventWaitsDeliveriesAndClaims :
    (∃ (s : State) (k : At) (rd rs1 rs2 : GReg), Ready s k [rd, rs1, rs2] ∧ (s.dom k.d).replays k.e = false ∧
      (s.dom k.d).found (BitVec.setWidth 7 ((s.core k.d k.e).rd rs1)) = true)
    ∧ (∃ (s : State) (k : At) (rd rs1 rs2 : GReg), Ready s k [rd, rs1, rs2] ∧ (s.dom k.d).replays k.e = false ∧
      (s.dom k.d).found (BitVec.setWidth 7 ((s.core k.d k.e).rd rs1)) = false ∧
      BitVec.toNat ((s.core k.d k.e).rd rs2) = 0)
    ∧ (∃ (s : State) (k : At) (rd rs1 rs2 : GReg), Ready s k [rd, rs1, rs2] ∧ (s.dom k.d).replays k.e = false ∧
      (s.dom k.d).found (BitVec.setWidth 7 ((s.core k.d k.e).rd rs1)) = false ∧
      BitVec.toNat ((s.core k.d k.e).rd rs2) ≠ 0)
    ∧ (∃ (s : State) (k : At) (v : BitVec 7) (dl : Nat) (r : GReg), (s.dom k.d).replays k.e = false ∧
      (s.dom k.d).inReset = false ∧ (s.dom k.d).runs k.e = true ∧ (s.core k.d k.e).wait = Wait.evWait v dl r ∧
      (s.dom k.d).found v = true ∧ (s.dom k.d).waitLoses k.e v = false)
    ∧ (∃ (s : State) (k : At) (v : BitVec 7) (dl : Nat) (r : GReg), (s.dom k.d).replays k.e = false ∧
      (s.dom k.d).inReset = false ∧ (s.dom k.d).runs k.e = true ∧ (s.core k.d k.e).wait = Wait.evWait v dl r ∧
      (s.dom k.d).found v = false ∧ dl ≤ (s.dom k.d).time)
    ∧ (∃ (s : State) (k : At) (rs1 rs2 : GReg), Ready s k [rs1, rs2] ∧ (s.dom k.d).replays k.e = false ∧
      (s.dom k.d).watermarks (BitVec.toNat ((s.core k.d k.e).rd rs2) * 4294967296 + BitVec.toNat
      ((s.core k.d k.e).rd rs1)) = true)
    ∧ (∃ (s : State) (k : At) (rs1 rs2 : GReg), Ready s k [rs1, rs2] ∧ (s.dom k.d).replays k.e = false ∧
      (s.dom k.d).watermarks (BitVec.toNat ((s.core k.d k.e).rd rs2) * 4294967296 + BitVec.toNat
      ((s.core k.d k.e).rd rs1)) = false)
    ∧ (∃ (s : State) (k : At) (n : Nat), (s.dom k.d).replays k.e = false ∧ (s.dom k.d).inReset = false ∧
      (s.dom k.d).runs k.e = true ∧ (s.core k.d k.e).wait = Wait.evFence n ∧ (s.dom k.d).watermarks n = true)
    ∧ (∃ (s : State) (d : Dom) (ev : BitVec 7) (e : Event), (s.dom d).inReset = false ∧
      (s.dom d).admits ev.toNat = true ∧ (s.dom d).oldest ev = some e)
    ∧ (∃ (s : State) (d : Dom) (e : Eng) (p ev : Nat), (s.dom d).inReset = false ∧ (s.dom d).topClass e = some p ∧
      (s.dom d).pendingOf e p = some ev) :=
  ⟨⟨hostRg [(EVT_PEND_PEND 0, 3), (EVT_EN_EN 0, 1)] (onBoth (fun d => { d with evq := [⟨5, 0, 7⟩] }) pair), ⟨.host,
    .e0, .good⟩, 0, 0, 0, ready (by decide +kernel), by decide +kernel⟩,
   ⟨pair, ⟨.ch .c0, .e0, .good⟩, 0, 0, 0, ready (by decide +kernel), by decide +kernel⟩,
   ⟨g12 5 1 pair, ⟨.ch .c0, .e0, .good⟩, 0, 0, 1, ready (by decide +kernel), by decide +kernel⟩,
   ⟨onCores (fun x => { x with wait := .evWait 5 10 3 }) (event5 2 pair), ⟨.ch .c0, .e0, .good⟩, 5, 10, 3,
    by decide +kernel⟩,
   ⟨onCores (fun x => { x with wait := .evWait 5 10 3 }) (atTime 10 pair), ⟨.ch .c0, .e0, .good⟩, 5, 10, 3,
    by decide +kernel⟩,
   ⟨pair, ⟨.ch .c0, .e0, .good⟩, 0, 0, ready (by decide +kernel), by decide +kernel⟩,
   ⟨g12 5 1 pair, ⟨.ch .c0, .e0, .good⟩, 0, 1, ready (by decide +kernel), by decide +kernel⟩,
   ⟨onCores (fun x => { x with wait := .evFence 0 }) pair, ⟨.ch .c0, .e0, .good⟩, 0, by decide +kernel⟩,
   ⟨onBoth (fun d => { d with evq := [⟨2, 0, 7⟩] }) pair, .ch .c0, 2, { src := 2, stamp := 0, arg := 7 },
    by decide +kernel⟩,
   ⟨onCores (fun x => { x with wait := .evWait 5 10 3 }) (event5 2 pair), .ch .c0, .e0, 2, 5, by decide +kernel⟩⟩

theorem witness_SplitJoinAndChecks :
    (∃ (s : State) (k : At) (rd : GReg), Ready s k [rd] ∧ (s.core k.d k.e).priv = Priv.system ∧
      (s.dom k.d).replays k.e = false)
    ∧ (∃ (s : State) (k : At) (rs1 : GReg), Ready s k [rs1] ∧ (s.core k.d k.e).priv = Priv.system ∧
      ((s.dom k.d).dual || (s.dom k.d).rgB SYS_CAP_DEGRADED || (s.dom k.d).lsc.split == some k.e) = true)
    ∧ (∃ (s : State) (k : At) (rs1 : GReg), Ready s k [rs1] ∧ (s.core k.d k.e).priv = Priv.system ∧
      ((s.dom k.d).dual || (s.dom k.d).rgB SYS_CAP_DEGRADED || (s.dom k.d).lsc.split == some k.e) = false ∧
      (s.core k.d k.e).stores ≠ [])
    ∧ (∃ (s : State) (k : At) (rs1 : GReg), Ready s k [rs1] ∧ (s.core k.d k.e).priv = Priv.system ∧
      ((s.dom k.d).dual || (s.dom k.d).rgB SYS_CAP_DEGRADED || (s.dom k.d).lsc.split == some k.e) = false ∧
      (s.core k.d k.e).stores = [])
    ∧ (∃ (s : State) (d : Dom) (m h p : Eng) (c : Nat), (s.dom d).inReset = false ∧ (s.dom d).main = some m ∧
      (s.dom d).shadow = some h ∧ (s.dom d).spare = some p ∧ m ≠ h ∧ p ≠ m ∧ p ≠ h ∧
      (s.dom d).rgB LSC_STAT_SPLITPEND = true ∧ (s.dom d).transferred = some c)
    ∧ (∃ (s : State) (d : Dom), (s.dom d).inReset = false ∧ (s.dom d).rgB LSC_STAT_SPLITPEND = true ∧
      (s.dom d).spare = none ∧ (s.dom d).effectCycle.isSome = true)
    ∧ (∃ (s : State) (d : Dom) (m h p : Eng) (c : Nat), (s.dom d).inReset = false ∧ (s.dom d).main = some m ∧
      (s.dom d).shadow = some h ∧ (s.dom d).lsc.split = some p ∧ m ≠ h ∧ p ≠ m ∧ p ≠ h ∧
      (s.dom d).rgB LSC_STAT_JOINPEND = true ∧ (s.dom d).transferred = some c)
    ∧ (∃ (s : State) (d : Dom), (s.dom d).inReset = false ∧ (s.dom d).splitmaxDue = true)
    ∧ (∃ (s : State) (d : Dom), HasRoom (s.dom d) 119 ∧ (s.dom d).inReset = false ∧ (s.dom d).ckptDue = true)
    ∧ (∃ (s : State) (d : Dom), HasRoom (s.dom d) 119 ∧ (s.dom d).inReset = false ∧
      (s.dom d).rgB LSC_CTL_CODECHK = true)
    ∧ (∃ (s : State) (d : Dom), (s.dom d).inReset = false ∧
      ((s.dom d).rgB LSC_CTL_CODECHK = false ∨ BitVec.ofNat 32 (hdr (s.dom d).mem (s.dom d).host
      (s.dom d).bank 3) = crc32 (memBytes (s.dom d).mem (bankKey (s.dom d).bank 0) (min (hdr
      (s.dom d).mem (s.dom d).host (s.dom d).bank 1) (headerAt (s.dom d).host))))) :=
  ⟨⟨pair, ⟨.ch .c0, .e0, .good⟩, 0, ready (by decide +kernel), by decide +kernel⟩,
   ⟨dual, ⟨.ch .c0, .e0, .good⟩, 0, ready (by decide +kernel), by decide +kernel⟩,
   ⟨onCores (fun x => { x with seq := 3, stores := [⟨1, 0x10000008, 4, 0x11223344, .normal⟩] }) pair, ⟨.ch .c0, .e0,
    .good⟩, 0, ready (by decide +kernel), by decide +kernel⟩,
   ⟨pair, ⟨.ch .c0, .e0, .good⟩, 0, ready (by decide +kernel), by decide +kernel⟩,
   ⟨onBoth (fun d => { d with lsc := { d.lsc with reqAt := 0, bndAt := some 5 } }) (onBoth
    (setFields [(LSC_STAT_SPLITPEND, 1)]) (atTime 101 pair)), .ch .c0, .e0, .e1, .e2, 5, by decide +kernel⟩,
   ⟨chRg [(LSC_STAT_SPARE, 3)] (onBoth (fun d => { d with lsc := { d.lsc with reqAt := 0, bndAt := some 5 } }) (onBoth
    (setFields [(LSC_STAT_SPLITPEND, 1)]) (atTime 101 pair))), .ch .c0, by decide +kernel⟩,
   ⟨onBoth (fun d => { d with lsc := { d.lsc with reqAt := 0, bndAt := some 5, split := some .e2 } })
    (onBoth (setFields [(LSC_STAT_JOINPEND, 1)]) (atTime 101 pair)), .ch .c0, .e0, .e1, .e2, 5, by decide +kernel⟩,
   ⟨onBoth (fun d => { d with lsc := { d.lsc with split := some .e2 } }) (onBoth (setFields [(LSC_SPLITMAX_SPLITMAX,
    1)]) (atTime 1000 pair)), .ch .c0, by decide +kernel⟩,
   ⟨onBoth (setFields [(LSC_CKMAX_CKMAX, 5)]) (atTime 5 pair), .ch .c0, hasRoom (by decide +kernel),
    by decide +kernel⟩,
   ⟨start, .ch .c0, hasRoom (by decide +kernel), by decide +kernel⟩,
   ⟨start, .ch .c0, by decide +kernel⟩⟩

theorem witness_CommitRequestsAndEffects :
    (∃ (s : State) (n : Chan) (e : Eng) (f : Fetch) (rd rs1 : GReg) (imm : BitVec 7), Ready s ⟨.ch n, e, f⟩ [rd,
      rs1] ∧ (s.core (.ch n) e).priv = Priv.system ∧ (s.dom (.ch n)).replays e = false ∧
      imm ||| BitVec.setWidth 7 ((s.core (.ch n) e).rd rs1) = 0)
    ∧ (∃ (s : State) (n : Chan) (e : Eng) (f : Fetch) (rd rs1 : GReg) (imm : BitVec 7), Ready s ⟨.ch n, e, f⟩ [rd,
      rs1] ∧ (s.core (.ch n) e).priv = Priv.system ∧ (s.dom (.ch n)).replays e = false ∧
      imm ||| BitVec.setWidth 7 ((s.core (.ch n) e).rd rs1) ≠ 0 ∧ (s.ch n).cmt = none)
    ∧ (∃ (c : Channel) (e : Eng) (r : CommitReq), c.refusals = [] ∧ c.retiring = [] ∧ c.cmt = some r ∧
      r.by_ = CommitBy.core e ∧ r.q + 10 < c.now ∧ c.now < r.q + 14 ∧ r.status &&& 15 = 0 ∧
      (List.filter (fun (x : Event) => x.src == 47#7) c.dom.evq).length < 4 ∧ sget 0 c.dom.evNext 47 ≤ r.q + 10)
    ∧ (∃ (c : Channel) (e : Eng) (r : CommitReq), c.refusals = [] ∧ c.retiring = [] ∧ c.cmt = some r ∧
      r.by_ = CommitBy.core e ∧ r.q + 10 < c.now ∧ c.now < r.q + 14 ∧ r.status &&& 15 ≠ 0 ∧
      (List.filter (fun (x : Event) => x.src == 46#7) c.dom.evq).length < 4 ∧ sget 0 c.dom.evNext 46 ≤ r.q + 10)
    ∧ (∃ (c : Channel) (e : Eng) (r : CommitReq) (rd : GReg), c.refusals = [] ∧ c.retiring = [r] ∧ c.cmt = none ∧
      r.by_ = CommitBy.core e ∧ r.q + 14 ≤ c.now ∧ (c.dom.core e).wait = Wait.commit rd ∧ c.dom.replays e = false) :=
  ⟨⟨pair, .c0, .e0, .good, 0, 0, 0, ready (by decide +kernel), by decide +kernel⟩,
   ⟨pair, .c0, .e0, .good, 0, 1, 0x35, ready (by decide +kernel), by decide +kernel⟩,
   ⟨(onChan (fun c => { c with cmt := some ⟨.core .e0, 4, 0, 0, []⟩ }) (onCores (fun x =>
    { x with wait := .commit 3 }) (atTime 12 pair))).c0, .e0,
    { by_ := .core .e0, mask := 4, q := 0, status := 0, snapshot := [] }, by decide +kernel⟩,
   ⟨(onChan (fun c => { c with cmt := some ⟨.core .e0, 4, 0, 2, []⟩ }) (onCores (fun x =>
    { x with wait := .commit 3 }) (atTime 12 pair))).c0, .e0,
    { by_ := .core .e0, mask := 4, q := 0, status := 2, snapshot := [] }, by decide +kernel⟩,
   ⟨(onChan (fun c => { c with retiring := [⟨.core .e0, 4, 0, 2, []⟩] }) (onCores (fun x
    => { x with wait := .commit 3 }) (atTime 14 pair))).c0, .e0,
    { by_ := .core .e0, mask := 4, q := 0, status := 2, snapshot := [] }, 3, by decide +kernel⟩⟩

theorem witness_LiveWritesAndCarrierBoundaries :
    (∃ (s : State) (c : Chan) (w : Word), (s.ch c).dom.inReset = false ∧ bitOf w 0 = false ∧
      (s.ch c).rgB EVT_LHOLD_HOLD = true ∧ (List.map (fun (x : Nat × Word) => x.fst) (s.ch c).rwlHeld).Nodup)
    ∧ (∃ (x : Channel) (p : Nat × Word), (List.map (fun (x : Nat × Word) => x.fst) x.rwlNext).Nodup ∧ p ∈ x.rwlNext)
    ∧ (∃ (x : Channel), HasRoom x.dom 37)
    ∧ (∃ (x : Channel), HasRoom x.dom 45 ∧ x.rgB EVT_LHOLD_HOLD = true ∧ x.rgN EVT_LHOLD_LIMIT ≤ x.holdBoundaries + 1)
    ∧ (∃ (x : Channel), x.rgB EVT_LHOLD_HOLD = true ∧ x.holdBoundaries + 1 < x.rgN EVT_LHOLD_LIMIT)
    ∧ (∃ (x : Channel), HasRoom x.dom 29)
    ∧ (∃ (x : Channel), x.boundaryDue = true)
    ∧ (∃ (x : Channel), x.boundaryDue = false ∧ x.stopDue = false) :=
  ⟨⟨chRg [(EVT_LHOLD_HOLD, 1), (EVT_LHOLD_LIMIT, 1)] (pwmRuns start), .c0, 0, by decide +kernel⟩,
   ⟨(onChan (fun c => { c with rwlNext := [(PWM_MIMAX_MIMAX.reg, 5)] }) (pwmRuns start)).c0, (327904, 5),
    by decide +kernel⟩,
   ⟨start.c0, hasRoom (by decide +kernel)⟩,
   ⟨(chRg [(EVT_LHOLD_HOLD, 1), (EVT_LHOLD_LIMIT, 1)] (pwmRuns start)).c0, hasRoom (by decide +kernel),
    by decide +kernel⟩,
   ⟨(chRg [(EVT_LHOLD_HOLD, 1)] single).c0, by decide +kernel⟩,
   ⟨start.c0, hasRoom (by decide +kernel)⟩,
   ⟨(pwmRuns start).c0, by decide +kernel⟩,
   ⟨start.c0, by decide +kernel⟩⟩

theorem witness_EdgesBringTheirOutcomes :
    (∃ (s : State) (n : Chan), (s.ch n).dom.inReset = false ∧
      (match (s.ch n).cas.sup.due with
        | some pb => (fun (u v : Channel) => decide (u.msState
          ≠ 4) && decide (v.msState = 4) && decide (v.rgN CAS_MSSTAT_CAUSE = 7)) (s.ch n) ((s.ch
          n).supervise pb)
        | none => false) = true)
    ∧ (∃ (s : State) (n : Chan), (s.ch n).dom.inReset = false ∧
      (match (s.ch n).cas.sup.due with
        | some pb => (fun (u v : Channel) => decide (u.rgN CAS_MSSTAT_LLPH
          < 2) && decide (2 ≤ v.rgN CAS_MSSTAT_LLPH)) (s.ch n) ((s.ch n).supervise pb)
        | none => false) = true)
    ∧ (∃ (s : State) (n : Chan), (s.ch n).dom.inReset = false ∧
      (match (s.ch n).cas.sup.due with
        | some pb => (s.ch n).lvB CAS_MSCTL_EN && !(s.ch n).rgB
          CAS_MSSTAT_LOCKED && (((s.ch n).superLink pb).superLocked pb).rgB CAS_MSSTAT_LOCKED
        | none => false) = true)
    ∧ (∃ (s : State) (n : Chan), (s.ch n).dom.inReset = false ∧
      (match (s.ch n).cas.sup.due with
        | some pb => (fun (u v : Channel) => decide (u.msState
          = 3) && decide (v.msState = 4) && decide (v.rgN CAS_MSSTAT_CAUSE = 2)) (s.ch n) ((s.ch
          n).supervise pb)
        | none => false) = true)
    ∧ (∃ (s : State) (n : Chan), (s.ch n).dom.inReset = false ∧
      (match (s.ch n).cas.sup.due with
        | some pb => (fun (u v : Channel) => decide (u.msState
          = 1) && decide (v.msState = 2)) (s.ch n) ((s.ch n).supervise pb)
        | none => false) = true)
    ∧ (∃ (s : State) (n : Chan), (s.ch n).dom.inReset = false ∧
      (!(s.ch n).tpStale && (s.ch n).tick.tpStale || !(s.ch n).safe.tpTold && (s.ch n).tick.safe.tpTold) = true)
    ∧ (∃ (s : State) (n : Chan), (s.ch n).dom.inReset = false ∧ ((s.ch n).dschBall && !(s.ch n).tick.dschBall) = true)
    ∧ (∃ (s : State) (n : Chan), (s.ch n).dom.inReset = false ∧
      (!(s.ch n).gdi.dLate && (s.ch n).tick.gdi.dLate) = true)
    ∧ (∃ (s : State) (n : Chan), (s.ch n).dom.inReset = false ∧
      ((s.ch n).rgN GDI_STAT_DPHASE == 1 && (s.ch n).tick.rgN GDI_STAT_DPHASE == 2 && !((s.ch
      n).tick.gdi.dfb && decide ((s.ch n).tick.now ≤ (s.ch n).tick.gdi.dStart + 400 * (s.ch
      n).tick.lvN GDI_DSCH_DFBT))) = true)
    ∧ (∃ (s : State) (n : Chan), (s.ch n).dom.inReset = false ∧
      ((s.ch n).tick.gdi.brkStart == (s.ch n).tick.now && (s.ch n).rgB GDI_STAT_BRK != (s.ch
      n).tick.rgB GDI_STAT_BRK) = true)
    ∧ (∃ (s : State) (n : Chan), (s.ch n).dom.inReset = false ∧
      ((s.ch n).gdi.ginWait.isSome && (s.ch n).tick.gdi.ginWait.isNone && (s.ch n).tick.gdi.ginAt
      == (s.ch n).tick.now) = true)
    ∧ (∃ (s : State) (n : Chan), (s.ch n).dom.inReset = false ∧ (s.ch n).overrun.isSome = true)
    ∧ (∃ (s : State) (n : Chan), (s.ch n).dom.inReset = false ∧ (!(s.ch n).cas.starts.isEmpty) = true)
    ∧ (∃ (s : State) (n : Chan), (s.ch n).dom.inReset = false ∧ (s.ch n).tick.adc.ending = true)
    ∧ (∃ (s : State) (n : Chan), (s.ch n).dom.inReset = false ∧
      decide ((s.ch n).begin.fst.atBoundary.exitCause (s.ch n).begin.snd.fst (s.ch n).begin.snd.snd = 5) = true)
    ∧ (∃ (s : State) (n : Chan), (s.ch n).dom.inReset = false ∧ (s.ch n).begun.exitDue = true)
    ∧ (∃ (s : State) (n : Chan), (s.ch n).dom.inReset = false ∧ (s.ch n).begun.handoverDue = true)
    ∧ (∃ (s : State) (n : Chan), (s.ch n).dom.inReset = false ∧
      ((s.ch n).pos.ssiMono.isSome && (s.ch n).tick.pos.ssiMono.isNone) = true)
    ∧ (∃ (s : State) (n : Chan), (s.ch n).dom.inReset = false ∧
      decide ((s.ch n).tick.pos.emLast = (s.ch n).tick.now) = true)
    ∧ (∃ (s : State) (n : Chan), (s.ch n).dom.inReset = false ∧
      (!((s.ch n).pos.stillOf (s.ch n).srcUse).on && ((s.ch n).tick.pos.stillOf (s.ch n).tick.srcUse).on) = true)
    ∧ (∃ (s : State) (n : Chan), (s.ch n).dom.inReset = false ∧
      (match (s.ch n).pos.inFlight with | l :: tail => decide (l.due ≤ (s.ch n).now + 1) | [] => false) = true)
    ∧ (∃ (s : State) (n : Chan), (s.ch n).dom.inReset = false ∧ (s.ch n).weir.arrived.getLsbD 8 = true)
    ∧ (∃ (s : State) (n : Chan), (s.ch n).dom.inReset = false ∧
      (!(s.ch n).rgB WEIR_STAT_STALE && (s.ch n).begin.fst.rgB WEIR_STAT_STALE) = true)
    ∧ (∃ (s : State) (n : Chan), (s.ch n).dom.inReset = false ∧
      ((s.ch n).begin.fst.boundaryDue && (s.ch n).begin.fst.rgB EVT_LHOLD_HOLD && !(s.ch n).begin.fst.boundary.rgB
      EVT_LHOLD_HOLD) = true)
    ∧ (∃ (s : State) (n : Chan), (s.ch n).dom.inReset = false ∧ (s.ch n).begin.fst.stopDue = true)
    ∧ (∃ (s : State) (n : Chan), (s.ch n).dom.inReset = false ∧ (s.ch n).begin.fst.boundaryDue = true)
    ∧ (∃ (s : State) (n : Chan), (s.ch n).dom.inReset = false ∧
      (((s.ch n).refusals.any fun (r : CommitReq) => decide (r.q + 10 ≤ (s.ch n).now)) || match
      (s.ch n).cmt with
        | some r => decide (r.q + 10 ≤ (s.ch n).now)
        | none => false) = true)
    ∧ (∃ (s : State) (n : Chan) (k : BitVec 3), (s.ch n).dom.inReset = false ∧
      ((s.ch n).begin.fst.boundaryDue && decide (k.toNat < 6) && !(s.ch n).begin.fst.rgB (GDI_STAT_BSCHG.bit
      k.toNat) && (s.ch n).begin.fst.boundary.rgB (GDI_STAT_BSCHG.bit k.toNat)) = true)
    ∧ (∃ (s : State) (n : Chan) (k : BitVec 3), (s.ch n).dom.inReset = false ∧
      ((s.ch n).blanked k.toNat && !(s.ch n).tick.blanked k.toNat) = true)
    ∧ (∃ (s : State) (n : Chan) (k : BitVec 3), (s.ch n).dom.inReset = false ∧
      (((s.ch n).tick.leg k.toNat).deadEnd == some (s.ch n).tick.now) = true)
    ∧ (∃ (s : State) (n : Chan) (k : BitVec 3), (s.ch n).dom.inReset = false ∧
      (((s.ch n).tick.leg k.toNat).firedOff == some (s.ch n).tick.now) = true)
    ∧ (∃ (s : State) (n : Chan) (k : BitVec 3), (s.ch n).dom.inReset = false ∧
      (((s.ch n).tick.leg k.toNat).firedOn == some (s.ch n).tick.now) = true)
    ∧ (∃ (s : State) (n : Chan) (k : BitVec 3), (s.ch n).dom.inReset = false ∧
      (((s.ch n).tick.leg k.toNat).decided == some (s.ch n).tick.now) = true)
    ∧ (∃ (s : State) (n : Chan) (k : BitVec 3), (s.ch n).dom.inReset = false ∧ (s.ch n).xcmpDue k.toNat = true)
    ∧ (∃ (s : State) (n : Chan) (k : BitVec 3), (s.ch n).dom.inReset = false ∧
      (decide ((s.ch n).lvN (ADC_TSRC_SRC k.toNat) = 2) && (s.ch n).posReached k.toNat) = true)
    ∧ (∃ (s : State) (n : Chan) (k : BitVec 3), (s.ch n).dom.inReset = false ∧ (s.ch n).fires k.toNat = true)
    ∧ (∃ (s : State) (n : Chan) (x : BitVec 5), (s.ch n).dom.inReset = false ∧
      ((s.ch n).dom.spr.change.getLsbD x.toNat && !(s.ch n).tick.dom.spr.change.getLsbD x.toNat) = true)
    ∧ (∃ (s : State) (n : Chan) (x : BitVec 5), (s.ch n).dom.inReset = false ∧
      ((s.ch n).tick.patternNow.isSome && !(s.ch n).pwm.sw.getLsbD x.toNat && (s.ch n).tick.pwm.sw.getLsbD
      x.toNat) = true)
    ∧ (∃ (s : State) (n : Chan) (t : Thread), (s.ch n).dom.inReset = false ∧
      (match ((s.ch n).weir.th t).st with
        | TState.waiting w => (fun (w : Armed) => decide (w.limit
          ≠ 0) && !w.hit && decide (w.cycle + w.limit ≤ (s.ch n).now)) w
        | TState.stopped => false
        | TState.running => false) = true)
    ∧ (∃ (s : State) (n : Chan) (t : Thread), (s.ch n).dom.inReset = false ∧
      (match ((s.ch n).weir.th t).st with
        | TState.waiting w => (fun (x : Armed) => x.hit) w
        | TState.stopped => false
        | TState.running => false) = true) :=
  ⟨⟨onCas (fun a => { a with sup := { a.sup with due := some 5, lrTimer := 1000 } }) (chLive [(CAS_MSCTL_EN, 1),
    (CAS_MSCDWIN_CDWIN, 1)] (chRg [(CAS_STAT_STOPPED, 1), (CAS_MSSTAT_STATE, 2), (SAFE_STAT_STODEM, 0),
    (PWM_TRIP_LATCH, 0), (WEIR_STAT_STALE, 0), (MBX_STAT_LLOST, 0)] start)), .c0, by decide +kernel⟩,
   ⟨onCas (fun a => { a with sup := { a.sup with due := some 5, lrTimer := 1000 } }) (chLive [(CAS_MSCTL_EN,
    1)] (chRg [(CAS_MSSTAT_LLPH, 1), (SAFE_STAT_STODEM, 0), (PWM_TRIP_LATCH, 0), (WEIR_STAT_STALE, 0),
    (MBX_STAT_LLOST, 0)] start)), .c0, by decide +kernel⟩,
   ⟨onCas (fun a => { a with sup := { a.sup with due := some 5, lrTimer := 1000 } }) (chLive [(CAS_MSCTL_EN, 1),
    (CAS_MSLRTQ_LRTQ, 0x800000), (CAS_MSLRWIN_LRWIN, 1)] (chRg [(CAS_MSSTAT_STATE, 2), (SAFE_STAT_STODEM, 0),
    (PWM_TRIP_LATCH, 0), (WEIR_STAT_STALE, 0), (MBX_STAT_LLOST, 0)] start)), .c0, by decide +kernel⟩,
   ⟨onCas (fun a => { a with sup := { a.sup with due := some 5, lrTimer := 1000 } }) (chLive [(CAS_MSCTL_EN,
    1)] (chRg [(CAS_MSSTAT_STATE, 3), (CAS_MSSTAT_CNT, 255), (SAFE_STAT_STODEM, 0), (PWM_TRIP_LATCH, 0),
    (WEIR_STAT_STALE, 0), (MBX_STAT_LLOST, 0)] start)), .c0, by decide +kernel⟩,
   ⟨onPos (fun p => { p with encAv := true }) (onCas (fun a => { a with sup := { a.sup with due := some 5, lrTimer := 1000 } })
    (chLive [(CAS_MSCTL_EN, 1), (POS_CTL_PSRC, 1), (CAS_MSCTL_NCATCH, 1)] (chRg [(CAS_MSSTAT_STATE, 1),
    (CAS_MSSTAT_CNT, 255), (SAFE_STAT_STODEM, 0), (PWM_TRIP_LATCH, 0), (WEIR_STAT_STALE, 0), (MBX_STAT_LLOST,
    0)] start))), .c0, by decide +kernel⟩,
   ⟨chLive [(SAFE_TPSTALE_TPSTALE, 1)] (onSafe (fun x => { x with tpTold := false }) (chRg [(SAFE_STAT_TPSUSP,
    1)] (chLive [(SAFE_TPCFG_TPREQ, 1)] (atTime 1000 start)))), .c0, by decide +kernel⟩,
   ⟨onGdi (fun g => { g with dStart := 0, dRef := 0 }) (chRg [(GDI_STAT_DPHASE, 2)] (chLive [(GDI_CTL_VDCEN, 1),
    (GDI_DSCHMAX_DSCHMAX, 1)] (atTime 39999 start))), .c0, by decide +kernel⟩,
   ⟨onGdi (fun g => { g with dStart := 0, dRef := 0 }) (chRg [(GDI_STAT_DPHASE, 2)] (chLive [(GDI_CTL_VDCEN, 1),
    (GDI_DSCH_DSCHT, 1), (GDI_DSCHMAX_DSCHMAX, 9)] (atTime 39999 start))), .c0, by decide +kernel⟩,
   ⟨chLive [(GDI_DSCH_DFBT, 0)] (chRg [(GDI_STAT_DPHASE,
    1)] (onChanDom (fun d => { d with pll := { d.pll with searches := [(false, some 3)] } }) (chRg [(PLL_STAT_REF_OK,
    1)] start))), .c0, by decide +kernel⟩,
   ⟨chRg [(GDI_STAT_BRK,
    1)] (onPwm (fun p => { p with running := true, resume := false, n := 248, per := 1000, ctl := 0x310, legs := [] })
    (chLive [(PWM_CPER_PER, 1000)] (atTime 5000 start))), .c0, by decide +kernel⟩,
   ⟨onGdi (fun g => { g with ginWait := some 3 }) (chRg [(GDI_STAT_TPM, 1), (GDI_STAT_GSELREQ,
    1)] (chLive [(GDI_CTL_TPEN, 1)] (atTime 100000000 start))), .c0, by decide +kernel⟩,
   ⟨chLive [(CAS_RUNMAX_RUNMAX, 1)] (casRuns start), .c0, by decide +kernel⟩,
   ⟨onCas (fun a => { a with starts := [7] }) (chLive [(CAS_CTL_EN, 1)] start), .c0, by decide +kernel⟩,
   ⟨chLive [(ADC_TSRC_SRC 2, 2), (ADC_TRIG_POS 2,
    2)] (onWeir (fun w => { w with phi := 0xFFFFFFFF }) (onPwm (fun p => { p with n := 100000 })
    (onPwm (fun p => { p with legs := [(2, { Leg.reset with decided := none })], resume := false, ctl := 0x300 })
    (pwmRuns start)))), .c0, by decide +kernel⟩,
   ⟨chLive [(WEIR_STMAX_STMAX,
    0)] (onWeir (fun w => { w with mode := .sync, lastPeriod := true, phi := 0xFFFFFFF8, omL := 0x10000, nUse := 1, latched := true, tL := 4999, thL := 5, theta := 4 })
    (chLive [(WEIR_EXT_EXTMAX, 1000), (WEIR_SMAX_SMAX, 0x7FFFFFFF)] (chRg [(WEIR_STAT_STALE,
    0)] (atTime 5000 start)))), .c0, by decide +kernel⟩,
   ⟨onWeir (fun w => { w with mode := .sync, lastPeriod := true, phi := 0xFFFFFFF8, omL := 0x10000, nUse := 1, latched := true, tL := 4999, thL := 5, theta := 4 })
    (chLive [(WEIR_EXT_EXTMAX, 1000), (WEIR_SMAX_SMAX, 0x7FFFFFFF)] (chRg [(WEIR_STAT_STALE,
    0)] (atTime 5000 start))), .c0, by decide +kernel⟩,
   ⟨onWeir (fun w => { w with mode := .transition }) start, .c0, by decide +kernel⟩,
   ⟨onPos (fun p => { p with ssiStart := some 0, ssiMono := some 0 }) (atTime 100000 start), .c0, by decide +kernel⟩,
   ⟨onPos (fun p => { p with emBacklog := 1 }) (chLive [(POS_CTL_EMEN, 1), (POS_EMU_N, 1), (POS_EMU_M,
    1)] (atTime 999 start)), .c0, by decide +kernel⟩,
   ⟨onPos (fun p => { p with encStill := { p.encStill with from_ := 0 } }) (chLive [(POS_CTL_PSRC, 1), (POS_ZTMO_ZTMO,
    1)] (atTime 1 start)), .c0, by decide +kernel⟩,
   ⟨onPos (fun p => { p with inFlight := [⟨5, 6, 0, 10, 0, 1⟩] }) (atTime 10 start), .c0, by decide +kernel⟩,
   ⟨onWeir (fun w => { w with arrived := 0x100 }) start, .c0, by decide +kernel⟩,
   ⟨chRg [(WEIR_STAT_STALE, 0)] (onWeir (fun w => { w with latched := true }) (chLive [(WEIR_EXT_EXTMAX,
    1)] (chRg [(WEIR_EXT_EXTMAX, 1)] (atTime 2 start)))), .c0, by decide +kernel⟩,
   ⟨chRg [(EVT_LHOLD_HOLD, 1), (EVT_LHOLD_LIMIT, 1)] (pwmRuns start), .c0, by decide +kernel⟩,
   ⟨onPwm (fun p => { p with stopping := true }) (pwmRuns start), .c0, by decide +kernel⟩,
   ⟨onGdi (fun g => { g with boot := [(2, { Boot.reset with allAct := true, noneAct := false, uv := 9000 })] })
    (chLive [(GDI_CTL_BSEN, 4)] (onPwm (fun p => { p with ctl := 0x310 }) (pwmRuns start))), .c0, by decide +kernel⟩,
   ⟨onChan (fun c => { c with cmt := some ⟨.core .e0, 4, 0, 0, []⟩ }) (onCores (fun x =>
    { x with wait := .commit 3 }) (atTime 10 pair)), .c0, by decide +kernel⟩,
   ⟨onGdi (fun g => { g with boot := [(2, { Boot.reset with allAct := true, noneAct := false, uv := 9000 })] })
    (chLive [(GDI_CTL_BSEN, 4)] (onPwm (fun p => { p with ctl := 0x310 }) (pwmRuns start))), .c0, 2,
    by decide +kernel⟩,
   ⟨onPwm (fun p => { p with legs := [(2, { Leg.reset with lastEdge := some 4990 })] }) (chLive [(PWM_TBLK_LEG 2, 2),
    (PWM_TBLK_BLK 2, 11)] (atTime 5000 start)), .c0, 2, by decide +kernel⟩,
   ⟨onPwm (fun p => { p with running := true, resume := false, n := 9, per := 1000, ctl := 0x310, legs := [(2, { Leg.reset with decided := some 0, kind := .pulse, ta := 320, tb := 640, pt := 32000 })] })
    (chLive [(PWM_CPER_PER, 1000)] (atTime 5000 start)), .c0, 2, by decide +kernel⟩,
   ⟨onPwm (fun p => { p with running := true, resume := false, n := 19, per := 1000, ctl := 0x310, legs := [(2, { Leg.reset with decided := some 0, kind := .pulse, ta := 320, tb := 640, pt := 32000, firedOn := some 4 })] })
    (chLive [(PWM_CPER_PER, 1000)] (atTime 5000 start)), .c0, 2, by decide +kernel⟩,
   ⟨onPwm (fun p => { p with running := true, resume := false, n := 9, per := 1000, ctl := 0x310, legs := [(2, { Leg.reset with decided := some 0, kind := .pulse, ta := 320, tb := 640, pt := 32000 })] })
    (chLive [(PWM_CPER_PER, 1000)] (atTime 5000 start)), .c0, 2, by decide +kernel⟩,
   ⟨onPwm (fun p => { p with running := true, resume := false, n := 249, per := 1000, ctl := 0x310, legs := [] })
    (chLive [(PWM_CPER_PER, 1000)] (atTime 5000 start)), .c0, 0, by decide +kernel⟩,
   ⟨chLive [(PWM_XCMP_EN 3, 1), (ADC_TSRC_SRC 3, 3)] (pwmRuns start), .c0, 3, by decide +kernel⟩,
   ⟨chLive [(ADC_TSRC_SRC 2, 2), (ADC_TRIG_POS 2,
    2)] (onWeir (fun w => { w with phi := 0xFFFFFFFF }) (onPwm (fun p => { p with n := 100000 })
    (onPwm (fun p => { p with legs := [(2, { Leg.reset with decided := none })], resume := false, ctl := 0x300 })
    (pwmRuns start)))), .c0, 2, by decide +kernel⟩,
   ⟨chLive [(ADC_TSRC_SRC 2, 2), (ADC_TRIG_POS 2,
    2)] (onWeir (fun w => { w with phi := 0xFFFFFFFF }) (onPwm (fun p => { p with n := 100000 })
    (onPwm (fun p => { p with legs := [(2, { Leg.reset with decided := none })], resume := false, ctl := 0x300 })
    (pwmRuns start)))), .c0, 2, by decide +kernel⟩,
   ⟨onChanDom (fun d => { d with spr := { d.spr with change := 0x40001, test := some (6, 0), fixing := [(1, 5)] } })
    (atTime 4009 start), .c0, 0, by decide +kernel⟩,
   ⟨chRg [(SAFE_STAT_STODEM, 0)] (onPwm (fun p => { p with oen := 0x3FFFF, ctl := 0x310 }) (chRg [(PWM_TRIP_PAT, 1),
    (SYS_BOOTSTAT_DONE, 1)] (chLive [(PWM_OEN_OEN, 0x3FFFF)] (atTime 100000 start)))), .c0, 0, by decide +kernel⟩,
   ⟨onWeir (fun w => { w with t0 := { w.t0 with st := .waiting ⟨.angle .forward 5, 0, 3, 9, 4, false, false, false⟩ } })
    (atTime 4 start), .c0, .t0, by decide +kernel⟩,
   ⟨onWeir (fun w => { w with t0 := { w.t0 with st := .waiting ⟨.angle .forward 5, 0, 3, 9, 4, true, false, false⟩ } })
    (atTime 4 start), .c0, .t0, by decide +kernel⟩⟩

theorem witness_SupplyResets :
    (∃ (rail : Rail), rail ≠ Rail.vio)
    ∧ (∃ (s : State) (d : Dom), (s.dom d).rs = { supply := true, pin := false, soft := false, thermal := false } ∧
      (∀ (r : Rail), r ∈ s.dev.bad → railCovers r d = false))
    ∧ (∃ (s : State) (d : Dom) (r : Rail), r ∈ s.dev.bad ∧ railCovers r d = true) :=
  ⟨⟨.vcore, by decide +kernel⟩,
   ⟨inResets ⟨true, false, false, false⟩ ⟨true, false, false, false⟩ start, .ch .c0, by decide +kernel⟩,
   ⟨{ start with dev := { start.dev with bad := [.vcore] } }, .ch .c0, .vcore, by decide +kernel⟩⟩

theorem witness_ChannelResetsAndResetBalls :
    (∃ (s : State) (c : Chan) (w : Word), (s.ch c).dom.inReset = false ∧ bitOf w 0 = true ∧ fget w 31 16 = 50085)
    ∧ (∃ (s : State) (c : Chan) (w : Word), (s.ch c).dom.inReset = false ∧ s.host.dom.inReset = false ∧
      bitOf w c.idx = true ∧ (s.ch c).rgB SYS_RSTCTL_HOSTRST_EN = true)
    ∧ (∃ (s : State) (c : Chan), (s.ch c).dom.inReset = true)
    ∧ (∃ (w : Word), fget w 31 16 ≠ 50085)
    ∧ (∃ (s : State) (c : Chan) (w : Word), s.host.dom.inReset = false ∧
      (bitOf w c.idx = false ∨ (s.ch c).rgB SYS_RSTCTL_HOSTRST_EN = false)) :=
  ⟨⟨start, .c0, 0xC3A50001, by decide +kernel⟩,
   ⟨chRg [(SYS_RSTCTL_HOSTRST_EN, 1)] pair, .c0, 1, by decide +kernel⟩,
   ⟨inResets ⟨false, true, false, false⟩ ⟨false, true, false, false⟩ start, .c0, by decide +kernel⟩,
   ⟨0, by decide +kernel⟩,
   ⟨start, .c0, 0, by decide +kernel⟩⟩

theorem witness_BootPhases :
    (∃ (s : State) (c : Chan), Placed s ∧ (s.ch c).dom.inReset = false ∧ (s.ch c).dom.inPhase 1 = true)
    ∧ (∃ (s : State) (c : Chan), Placed s ∧ (s.ch c).dom.inReset = false ∧ (s.ch c).dom.inPhase 3 = true ∧
      (s.ch c).dom.rgB PLL_STAT_LOCK = true ∧ (s.ch c).dom.pll.searches = [])
    ∧ (∃ (s : State) (c : Chan), Placed s ∧ (s.ch c).dom.inReset = false ∧ (s.ch c).dom.inPhase 5 = true)
    ∧ (∃ (s : State) (c : Chan), Placed s ∧ (s.ch c).dom.inReset = false ∧ (s.ch c).dom.inPhase 6 = true ∧
      headerOk (s.ch c).dom.mem false (s.ch c).dom.bank = false)
    ∧ (∃ (s : State) (c : Chan) (r : BootReport), Placed s ∧ (s.ch c).dom.inReset = false ∧
      (s.ch c).dom.inPhase 6 = true ∧ headerOk (s.ch c).dom.mem false (s.ch c).dom.bank = true ∧ r.fails = true)
    ∧ (∃ (s : State) (c : Chan) (r : BootReport), Placed s ∧ (s.ch c).dom.inReset = false ∧
      (s.ch c).dom.inPhase 6 = true ∧ headerOk (s.ch c).dom.mem false (s.ch c).dom.bank = true ∧ r.fails = false)
    ∧ (∃ (s : State) (c : Chan) (r : BootReport), Placed s ∧ (s.ch c).dom.inReset = false ∧
      (s.ch c).dom.inPhase 7 = true ∧ r.fails = false)
    ∧ (∃ (s : State) (c : Chan) (r : BootReport), Placed s ∧ (s.ch c).dom.inReset = false ∧
      (s.ch c).dom.inPhase 7 = true ∧ r.fails = true)
    ∧ (∃ (s : State) (c : Chan) (r : BootReport), Placed s ∧ (s.ch c).dom.inReset = false ∧
      (s.ch c).dom.inPhase 8 = true ∧ (s.ch c).dom.dual = false ∧ r.fails = false ∧ r.coreFails = 0)
    ∧ (∃ (s : State) (c : Chan), Placed s ∧ (s.ch c).dom.inReset = false ∧ (s.ch c).dom.inPhase 10 = true)
    ∧ (∃ (s : State) (c : Chan), Placed s ∧ (s.ch c).dom.inReset = false ∧ (s.ch c).dom.inPhase 3 = true ∧
      (s.ch c).dom.rgB PLL_STAT_REF_OK = false)
    ∧ (∃ (s : State) (c : Chan), Placed s ∧ (s.ch c).dom.inReset = false ∧ s.host.dom.inPhase 1 = true) :=
  ⟨⟨start, .c0, placed (by decide +kernel), by decide +kernel⟩,
   ⟨chRg [(SYS_BOOTSTAT_PHASE, 3), (PLL_STAT_LOCK, 1)] start, .c0, placed (by decide +kernel), by decide +kernel⟩,
   ⟨chRg [(SYS_BOOTSTAT_PHASE, 5)] start, .c0, placed (by decide +kernel), by decide +kernel⟩,
   ⟨chRg [(SYS_BOOTSTAT_PHASE, 6)] start, .c0, placed (by decide +kernel), by decide +kernel⟩,
   ⟨chRg [(SYS_BOOTSTAT_PHASE, 6)] (chCode start), .c0,
    { fails := true, code := 3, coreFails := 1, cmpSpare := 0, tripSpare := 0, rowsLeft := 0 },
    placed (by decide +kernel), by decide +kernel⟩,
   ⟨chRg [(SYS_BOOTSTAT_PHASE, 6)] (chCode start), .c0,
    { fails := false, code := 0, coreFails := 0, cmpSpare := 0, tripSpare := 0, rowsLeft := 0xA4 },
    placed (by decide +kernel), by decide +kernel⟩,
   ⟨chRg [(SYS_BOOTSTAT_PHASE, 7)] start, .c0,
    { fails := false, code := 0, coreFails := 0, cmpSpare := 0, tripSpare := 0, rowsLeft := 0xA4 },
    placed (by decide +kernel), by decide +kernel⟩,
   ⟨chRg [(SYS_BOOTSTAT_PHASE, 7)] start, .c0,
    { fails := true, code := 3, coreFails := 1, cmpSpare := 0, tripSpare := 0, rowsLeft := 0 },
    placed (by decide +kernel), by decide +kernel⟩,
   ⟨chRg [(SYS_BOOTSTAT_PHASE, 8)] start, .c0,
    { fails := false, code := 0, coreFails := 0, cmpSpare := 0, tripSpare := 0, rowsLeft := 0xA4 },
    placed (by decide +kernel), by decide +kernel⟩,
   ⟨chRg [(SYS_BOOTSTAT_PHASE, 10)] start, .c0, placed (by decide +kernel), by decide +kernel⟩,
   ⟨chRg [(SYS_BOOTSTAT_PHASE, 3), (PLL_STAT_LOCK, 1)] start, .c0, placed (by decide +kernel), by decide +kernel⟩,
   ⟨start, .c0, placed (by decide +kernel), by decide +kernel⟩⟩

theorem witness_ReferenceFallbackAndSync :
    (∃ (s : State) (d : Dom), (s.dom d).inReset = false ∧ (s.dom d).rgB PLL_STAT_REF_OK = true ∧
      (s.dom d).rgB PLL_STAT_LOCK = true ∧ (s.dom d).rgB PLL_STAT_RC = false ∧ (s.dom d).rgN PLL_CLKMON_HOLD_MAX ≠ 0)
    ∧ (∃ (s : State) (d : Dom), (s.dom d).inReset = false ∧ (s.dom d).rgB PLL_STAT_REF_OK = true ∧
      (s.dom d).rgB PLL_STAT_LOCK = true ∧ (s.dom d).rgB PLL_STAT_RC = false ∧ (s.dom d).rgN PLL_CLKMON_HOLD_MAX = 0)
    ∧ (∃ (s : State) (d : Dom), (s.dom d).inReset = false ∧
      ((s.dom d).rgB PLL_STAT_LOCK = false ∨ (s.dom d).rgB PLL_STAT_RC = true))
    ∧ (∃ (s : State) (d : Dom), (s.dom d).inReset = false ∧ (s.dom d).rgB PLL_STAT_HOLD = true)
    ∧ (∃ (s : State) (d : Dom), (s.dom d).inReset = false ∧ (s.dom d).bothVcosFailed = true)
    ∧ (∃ (s : State) (d : Dom), (s.dom d).inReset = false ∧ (s.dom d).rgB PLL_CTL_SPARE_AUTO = true ∧
      (s.dom d).rgB PLL_STAT_LOCK = false ∧ (s.dom d).rgB PLL_STAT_REF_OK = true ∧ (s.dom d).rgB PLL_STAT_RC = false ∧
      (s.dom d).pll.switching = false ∧ ((s.dom d).vcoRetired !(s.dom d).vcoSel) = false)
    ∧ (∃ (s : State) (d : Dom), (s.dom d).inReset = false ∧ (s.dom d).pll.switching = true)
    ∧ (∃ (s : State) (c : Chan), (s.ch c).dom.inReset = false ∧
      ((s.ch c).dom.rgB PLL_CTL_SYNC_EN && decide ((s.ch c).dom.pll.nfrac = 0) && !(s.ch c).dom.rgB
      PLL_STAT_SSC_ON && (s.ch c).dom.rgB PLL_STAT_LOCK && !(s.ch c).dom.pll.aligning) = true)
    ∧ (∃ (s : State) (c : Chan), (s.ch c).dom.inReset = false ∧
      ((s.ch c).dom.rgB PLL_CTL_SYNC_EN && decide ((s.ch c).dom.pll.nfrac = 0) && !(s.ch c).dom.rgB
      PLL_STAT_SSC_ON && (s.ch c).dom.rgB PLL_STAT_LOCK && !(s.ch c).dom.pll.aligning) = false) :=
  ⟨⟨chRg [(PLL_STAT_REF_OK, 1), (PLL_STAT_LOCK, 1), (PLL_STAT_RC, 0), (PLL_CLKMON_HOLD_MAX, 1)] start, .ch .c0,
    by decide +kernel⟩,
   ⟨chRg [(PLL_CLKMON_HOLD_MAX, 0)] (chRg [(PLL_STAT_REF_OK, 1), (PLL_STAT_LOCK, 1), (PLL_STAT_RC, 0),
    (PLL_CLKMON_HOLD_MAX, 1)] start), .ch .c0, by decide +kernel⟩,
   ⟨start, .ch .c0, by decide +kernel⟩,
   ⟨hostRg [(PLL_STAT_HOLD, 1)] single, .host, by decide +kernel⟩,
   ⟨chRg [(SPR_VCO_RET1, 1), (PLL_STAT_RC, 0)] pair, .ch .c0, by decide +kernel⟩,
   ⟨chRg [(PLL_STAT_RC, 0), (PLL_STAT_REF_OK, 1)] single, .ch .c0, by decide +kernel⟩,
   ⟨onChanDom (fun d => { d with pll := { d.pll with switching := true } }) start, .ch .c0, by decide +kernel⟩,
   ⟨chRg [(PLL_CTL_SYNC_EN, 1), (PLL_STAT_LOCK, 1)] start, .c0, by decide +kernel⟩,
   ⟨start, .c0, by decide +kernel⟩⟩

theorem witness_LockSearchAndClockCommands :
    (∃ (s : State) (d : Dom), (s.dom d).inReset = false ∧ (s.dom d).rgB PLL_STAT_LOCK = false ∧
      ((s.dom d).pll.searches.any fun (q : Bool × Option Nat) => q.fst == (s.dom d).vcoSel) = false ∧
      (s.dom d).rgB PLL_STAT_REF_OK = true)
    ∧ (∃ (s : State) (d : Dom), (s.dom d).inReset = false ∧ (s.dom d).rgB PLL_STAT_LOCK = true ∧
      (s.dom d).rgB PLL_STAT_HOLD = false)
    ∧ (∃ (s : State) (d : Dom) (v : Bool) (named_ : Option Nat) (rest : List (Bool × Option Nat)),
      (s.dom d).inReset = false ∧ (s.dom d).pll.searches = (v, named_) :: rest ∧ (∀ (j : Nat),
      named_ = some j → j < 8) ∧ (s.dom d).rgB PLL_STAT_REF_OK = true)
    ∧ (∃ (s : State) (d : Dom) (w : Word) (fref : Nat), (s.dom d).inReset = false ∧ bitOf w 1 = true ∧
      bitOf w 0 = false ∧ (s.gateMask d ≠ 0 ∨ (s.dom d).sscOk = false ∨ (s.dom d).pll.fallback = true ∨ settingOk
      fref (if (s.dom d).rgB PLL_DIV_REFDIV = true then 2 else 1) ((s.dom d).rgN PLL_DIV_NINT)
      ((s.dom d).rgN PLL_FRAC_NFRAC) = false))
    ∧ (∃ (s : State) (d : Dom) (w : Word) (fref : Nat), (s.dom d).inReset = false ∧ bitOf w 1 = true ∧
      bitOf w 0 = false ∧ s.gateMask d = 0 ∧ (s.dom d).sscOk = true ∧ (s.dom d).pll.fallback = false ∧
      (settingOk fref (if (s.dom d).rgB PLL_DIV_REFDIV = true then 2 else 1) ((s.dom d).rgN
      PLL_DIV_NINT) ((s.dom d).rgN PLL_FRAC_NFRAC) = true))
    ∧ (∃ (s : State) (d : Dom) (w : Word), (s.dom d).inReset = false ∧ bitOf w 0 = true ∧ bitOf w 1 = false ∧
      s.gateMask d = 0 ∧ (s.dom d).rgB PLL_STAT_REF_OK = true)
    ∧ (∃ (s : State) (d : Dom) (w : Word), (s.dom d).inReset = false ∧ bitOf w 0 = true ∧ bitOf w 1 = false ∧
      (s.gateMask d ≠ 0 ∨ (s.dom d).rgB PLL_STAT_REF_OK = false))
    ∧ (∃ (s : State) (d : Dom) (w : Word), (s.dom d).inReset = false ∧ bitOf w 3 = true ∧
      ((s.dom d).set PLL_HOPCTL_IDX (fget w 2 0)).hopRefused (s.gateMask d) = true)
    ∧ (∃ (s : State) (d : Dom) (w : Word), (s.dom d).inReset = false ∧ bitOf w 3 = true ∧
      ((s.dom d).rgB (PLL_HOP_VALID (BitVec.toNat (fget w 2 0))) = false ∨ (s.dom d).rgB PLL_STAT_REF_OK
      = false ∨ (s.dom d).rgB PLL_STAT_HOLD = true))
    ∧ (∃ (s : State) (d : Dom) (w : Word), (s.dom d).inReset = false ∧ bitOf w 3 = true ∧
      ((s.dom d).set PLL_HOPCTL_IDX (fget w 2 0)).hopRefused (s.gateMask d) = false) :=
  ⟨⟨chRg [(PLL_HOP_VALID 2, 1), (PLL_STAT_REF_OK, 1), (PLL_HOP_VCO 2, 1)] start, .ch .c0, by decide +kernel⟩,
   ⟨chRg [(PLL_STAT_LOCK, 1)] (chRg [(PLL_DIV_NINT, 320), (PLL_FRAC_NFRAC, 0), (PLL_DIV_REFDIV, 1)] start), .ch .c0,
    by decide +kernel⟩,
   ⟨onChanDom (fun d => { d with pll := { d.pll with searches := [(false, some 3)] } }) (chRg [(PLL_STAT_REF_OK,
    1)] start), .ch .c0, false, some 3, [], by decide +kernel⟩,
   ⟨start, .ch .c0, 2, 40000000, by decide +kernel⟩,
   ⟨chRg [(PLL_DIV_NINT, 80), (PLL_FRAC_NFRAC, 0)] start, .ch .c0, 2, 40000000, by decide +kernel⟩,
   ⟨onChanDom (fun d => { d with pll := { d.pll with searches := [(false, some 3)] } }) (chRg [(PLL_STAT_REF_OK,
    1)] start), .ch .c0, 1, by decide +kernel⟩,
   ⟨start, .ch .c0, 1, by decide +kernel⟩,
   ⟨start, .ch .c0, 8, by decide +kernel⟩,
   ⟨start, .ch .c0, 8, by decide +kernel⟩,
   ⟨hostRg [(THM_STAT_BAND, 1), (PLL_HOP_VALID 0, 1), (PLL_HOP_TBAND 0, 1), (PLL_STAT_REF_OK,
    1)] (chRg [(PLL_DIV_NINT, 80), (PLL_FRAC_NFRAC, 0), (PLL_DIV_REFDIV, 1)] start), .host, 8, by decide +kernel⟩⟩

theorem witness_WeirWaitsAndWakes :
    (∃ (s : State) (c : Chan) (t : Thread) (dir : BitVec 2) (past : Bool), (s.ch c).dom.inReset = false ∧
      (s.ch c).weir.halted = false ∧ (s.ch c).weir.nextReady = some t ∧ (s.ch c).weirAtBreak t = false ∧ dir ≠ 3 ∧
      (past = true → dir ≠ 2))
    ∧ (∃ (s : State) (c : Chan) (t : Thread) (dir : BitVec 2), (s.ch c).dom.inReset = false ∧
      (s.ch c).weir.halted = false ∧ (s.ch c).weir.nextReady = some t ∧ (s.ch c).weirAtBreak t = false ∧ dir = 0)
    ∧ (∃ (s : State) (c : Chan) (t : Thread) (imm : Word), (s.ch c).dom.inReset = false ∧
      (s.ch c).weir.halted = false ∧ (s.ch c).weir.nextReady = some t ∧ (s.ch c).weirAtBreak t = false ∧
      BitVec.toNat imm < 128) :=
  ⟨⟨weirRuns start, .c0, .t0, 0, false, by decide +kernel⟩,
   ⟨weirRuns start, .c0, .t0, 0, by decide +kernel⟩,
   ⟨weirRuns start, .c0, .t0, 1, by decide +kernel⟩⟩

theorem witness_WeirActionsAndOwnCommits :
    (∃ (s : State) (c : Chan) (t : Thread) (imm : Word), (s.ch c).dom.inReset = false ∧
      (s.ch c).weir.halted = false ∧ (s.ch c).weir.nextReady = some t ∧ (s.ch c).weirAtBreak t = false ∧
      BitVec.toNat imm < 16384)
    ∧ (∃ (s : State) (c : Chan) (t : Thread) (imm : Word), HasRoom (s.ch c).dom (16 + BitVec.toNat imm / 65536) ∧
      (s.ch c).dom.inReset = false ∧ (s.ch c).weir.halted = false ∧ (s.ch c).weir.nextReady = some t ∧
      (s.ch c).weirAtBreak t = false ∧ BitVec.toNat imm < 524288)
    ∧ (∃ (s : State) (c : Chan) (t : Thread) (imm : Word), (s.ch c).dom.inReset = false ∧
      (s.ch c).weir.halted = false ∧ (s.ch c).weir.nextReady = some t ∧ (s.ch c).weirAtBreak t = false ∧
      BitVec.toNat imm < 32768)
    ∧ (∃ (s : State) (c : Chan) (t : Thread) (imm : Word), (s.ch c).dom.inReset = false ∧
      (s.ch c).weir.halted = false ∧ (s.ch c).weir.nextReady = some t ∧ (s.ch c).weirAtBreak t = false ∧
      BitVec.toNat imm < 128 ∧ imm ≠ 0 ∧ (s.ch c).cmt = none)
    ∧ (∃ (x : Channel), x.handoverDue = true ∧ x.cmt = none)
    ∧ (∃ (x : Channel), x.exitDue = true ∧ x.cmt = none)
    ∧ (∃ (x : Channel), x.handoverDue = false ∧ x.exitDue = false)
    ∧ (∃ (x : Channel), HasRoom x.dom 35 ∧ x.weir.mode = WMode.sync ∧
      x.weir.syncStart + x.lvN WEIR_STMAX_STMAX ≤ x.now ∧ x.weir.fx = 0 ∧ x.rgB WEIR_STAT_STALE = false ∧
      x.weir.absOmega ≤ x.lvN WEIR_SMAX_SMAX)
    ∧ (∃ (x : Channel), x.weir.mode = WMode.sync ∧ x.weir.fx ≠ 0) :=
  ⟨⟨weirRuns start, .c0, .t0, 0, by decide +kernel⟩,
   ⟨weirRuns start, .c0, .t0, 0, hasRoom (by decide +kernel), by decide +kernel⟩,
   ⟨weirRuns start, .c0, .t0, 0, by decide +kernel⟩,
   ⟨weirRuns start, .c0, .t0, 1, by decide +kernel⟩,
   ⟨(onWeir (fun w => { w with mode := .transition }) start).c0, by decide +kernel⟩,
   ⟨(onWeir (fun w => { w with mode := .sync, lastPeriod := true, phi := 0xFFFFFFFF, omL := 0x10000, nUse := 1 })
    start).c0, by decide +kernel⟩,
   ⟨start.c0, by decide +kernel⟩,
   ⟨(chLive [(WEIR_STMAX_STMAX, 0)] (chRg [(WEIR_STAT_STALE,
    0)] (onWeir (fun w => { w with mode := .sync }) start))).c0, hasRoom (by decide +kernel), by decide +kernel⟩,
   ⟨(onWeir (fun w => { w with mode := .sync, fx := 2, phi := 0x80000000 }) start).c0, by decide +kernel⟩⟩

theorem witness_WeirRegistersBranchesAndStops :
    (∃ (s : State) (c : Chan) (t : Thread) (f : SlotFetch) (code : Nat), (s.ch c).dom.inReset = false ∧
      (s.ch c).weir.halted = false ∧ (s.ch c).weir.nextReady = some t ∧ (s.ch c).weirAtBreak t = false ∧ (f,
      code) ∈ [(SlotFetch.badOpcode, 1), (SlotFetch.badField, 2), (SlotFetch.ecc, 3)])
    ∧ (∃ (s : State) (c : Chan) (t : Thread) (f : SlotFetch) (imm : Word), (s.ch c).dom.inReset = false ∧
      (s.ch c).weir.halted = false ∧ (s.ch c).weir.nextReady = some t ∧ (s.ch c).weirAtBreak t = false ∧
      f = SlotFetch.good ∧ decide (4 ≤ BitVec.toNat imm) = true)
    ∧ (∃ (s : State) (c : Chan) (t : Thread) (f : SlotFetch) (cond : BitVec 4), (s.ch c).dom.inReset = false ∧
      (s.ch c).weir.halted = false ∧ (s.ch c).weir.nextReady = some t ∧ (s.ch c).weirAtBreak t = false ∧
      f = SlotFetch.good ∧ decide (7 ≤ cond.toNat) = true)
    ∧ (∃ (s : State) (c : Chan) (t : Thread) (f : SlotFetch) (imm : Word), (s.ch c).dom.inReset = false ∧
      (s.ch c).weir.halted = false ∧ (s.ch c).weir.nextReady = some t ∧ (s.ch c).weirAtBreak t = false ∧
      f = SlotFetch.good ∧ decide (2 ≤ BitVec.toNat imm) = true)
    ∧ (∃ (s : State) (c : Chan) (t : Thread) (f : SlotFetch) (imm : Word), (s.ch c).dom.inReset = false ∧
      (s.ch c).weir.halted = false ∧ (s.ch c).weir.nextReady = some t ∧ (s.ch c).weirAtBreak t = false ∧
      f = SlotFetch.good ∧ decide (524288 ≤ BitVec.toNat imm) = true)
    ∧ (∃ (s : State) (c : Chan) (t : Thread) (f : SlotFetch) (imm : Word), (s.ch c).dom.inReset = false ∧
      (s.ch c).weir.halted = false ∧ (s.ch c).weir.nextReady = some t ∧ (s.ch c).weirAtBreak t = false ∧
      f = SlotFetch.good ∧ decide (128 ≤ BitVec.toNat imm) = true)
    ∧ (∃ (s : State) (c : Chan) (t : Thread) (f : SlotFetch) (imm : Word), (s.ch c).dom.inReset = false ∧
      (s.ch c).weir.halted = false ∧ (s.ch c).weir.nextReady = some t ∧ (s.ch c).weirAtBreak t = false ∧
      f = SlotFetch.good ∧ decide (16384 ≤ BitVec.toNat imm) = true)
    ∧ (∃ (s : State) (c : Chan) (t : Thread) (f : SlotFetch) (imm : Word), (s.ch c).dom.inReset = false ∧
      (s.ch c).weir.halted = false ∧ (s.ch c).weir.nextReady = some t ∧ (s.ch c).weirAtBreak t = false ∧
      f = SlotFetch.good ∧ decide (32768 ≤ BitVec.toNat imm) = true)
    ∧ (∃ (s : State) (c : Chan) (t : Thread) (f : SlotFetch) (dir : BitVec 2), (s.ch c).dom.inReset = false ∧
      (s.ch c).weir.halted = false ∧ (s.ch c).weir.nextReady = some t ∧ (s.ch c).weirAtBreak t = false ∧
      f = SlotFetch.good ∧ decide (dir ≠ 0) = true)
    ∧ (∃ (s : State) (c : Chan) (t : Thread) (f : SlotFetch) (dir : BitVec 2) (past : Bool),
      (s.ch c).dom.inReset = false ∧ (s.ch c).weir.halted = false ∧ (s.ch c).weir.nextReady = some t ∧
      (s.ch c).weirAtBreak t = false ∧ f = SlotFetch.good ∧ (decide (dir = 3) || past && decide (dir = 2)) = true)
    ∧ (∃ (s : State) (c : Chan) (t : Thread) (imm : Word), (s.ch c).dom.inReset = false ∧
      (s.ch c).weir.halted = false ∧ (s.ch c).weir.nextReady = some t ∧ (s.ch c).weirAtBreak t = false ∧
      BitVec.toNat imm < 2)
    ∧ (∃ (s : State) (c : Chan) (t : Thread) (cond : BitVec 4), (s.ch c).dom.inReset = false ∧
      (s.ch c).weir.halted = false ∧ (s.ch c).weir.nextReady = some t ∧ (s.ch c).weirAtBreak t = false ∧
      cond.toNat < 7)
    ∧ (∃ (s : State) (c : Chan) (t : Thread) (imm : Word), (s.ch c).dom.inReset = false ∧
      (s.ch c).weir.halted = false ∧ (s.ch c).weir.nextReady = some t ∧ (s.ch c).weirAtBreak t = false ∧
      BitVec.toNat imm < 4 ∧ (s.ch c).weir.arm0.getLsbD (BitVec.toNat imm) = true ∧
      (s.ch c).weir.armed.getLsbD (BitVec.toNat imm) = false)
    ∧ (∃ (s : State) (c : Chan) (t : Thread) (imm : Word), (s.ch c).dom.inReset = false ∧
      (s.ch c).weir.halted = false ∧ (s.ch c).weir.nextReady = some t ∧ (s.ch c).weirAtBreak t = false ∧
      BitVec.toNat imm < 4 ∧ (s.ch c).weir.arm0.getLsbD (BitVec.toNat imm) = true ∧
      (s.ch c).weir.armed.getLsbD (BitVec.toNat imm) = true)
    ∧ (∃ (s : State) (c : Chan) (t : Thread) (imm : Word), (s.ch c).dom.inReset = false ∧
      (s.ch c).weir.halted = false ∧ (s.ch c).weir.nextReady = some t ∧ (s.ch c).weirAtBreak t = false ∧
      BitVec.toNat imm < 4 ∧ (s.ch c).weir.arm0.getLsbD (BitVec.toNat imm) = false) :=
  ⟨⟨weirRuns start, .c0, .t0, .badOpcode, 1, by decide +kernel⟩,
   ⟨weirRuns start, .c0, .t0, .good, 0x80, by decide +kernel⟩,
   ⟨weirRuns start, .c0, .t0, .good, 7, by decide +kernel⟩,
   ⟨weirRuns start, .c0, .t0, .good, 0x80, by decide +kernel⟩,
   ⟨weirRuns start, .c0, .t0, .good, 0x20000123, by decide +kernel⟩,
   ⟨weirRuns start, .c0, .t0, .good, 0x80, by decide +kernel⟩,
   ⟨weirRuns start, .c0, .t0, .good, 0x20000123, by decide +kernel⟩,
   ⟨weirRuns start, .c0, .t0, .good, 0x20000123, by decide +kernel⟩,
   ⟨weirRuns start, .c0, .t0, .good, 1, by decide +kernel⟩,
   ⟨weirRuns start, .c0, .t0, .good, 3, false, by decide +kernel⟩,
   ⟨weirRuns start, .c0, .t0, 0, by decide +kernel⟩,
   ⟨weirRuns start, .c0, .t0, 0, by decide +kernel⟩,
   ⟨onWeir (fun w => { w with arm0 := 15 }) (weirRuns start), .c0, .t0, 1, by decide +kernel⟩,
   ⟨onWeir (fun w => { w with arm0 := 15, armed := 15 }) (weirRuns start), .c0, .t0, 0, by decide +kernel⟩,
   ⟨weirRuns start, .c0, .t0, 2, by decide +kernel⟩⟩

theorem witness_EncoderAndCounts :
    (∃ (s : State) (c : Chan), (s.ch c).dom.inReset = false ∧ (s.ch c).lvB POS_CTL_RXEN = true ∧
      ((s.ch c).pos.encRef = none ∨ (s.ch c).active 1 = false))
    ∧ (∃ (s : State) (c : Chan) (ab r : BitVec 2), (s.ch c).dom.inReset = false ∧ (s.ch c).active 1 = true ∧
      (s.ch c).lvB POS_CTL_RXEN = true ∧ (s.ch c).pos.encRef = some r ∧ quadIndex ab = (quadIndex r + 1) % 4)
    ∧ (∃ (s : State) (c : Chan) (ab r : BitVec 2), (s.ch c).dom.inReset = false ∧ (s.ch c).active 1 = true ∧
      (s.ch c).lvB POS_CTL_RXEN = true ∧ (s.ch c).pos.encRef = some r ∧ quadIndex r = (quadIndex ab + 1) % 4)
    ∧ (∃ (s : State) (c : Chan) (ab r : BitVec 2), HasRoom (s.ch c).dom 50 ∧ (s.ch c).dom.inReset = false ∧
      (s.ch c).active 1 = true ∧ (s.ch c).lvB POS_CTL_RXEN = true ∧ (s.ch c).pos.encRef = some r ∧ ab = ~~~r ∧
      ¬((s.ch c).lvN POS_QINF_QINF < (s.ch c).weir.absOmega ∧ (s.ch c).rgB POS_STAT_DIRSET = true))
    ∧ (∃ (s : State) (c : Chan) (ab r : BitVec 2), HasRoom (s.ch c).dom 49 ∧ (s.ch c).dom.inReset = false ∧
      (s.ch c).active 1 = true ∧ (s.ch c).lvB POS_CTL_RXEN = true ∧ (s.ch c).pos.encRef = some r ∧ ab = ~~~r ∧
      (s.ch c).lvN POS_QINF_QINF < (s.ch c).weir.absOmega ∧ (s.ch c).rgB POS_STAT_DIRSET = true)
    ∧ (∃ (s : State) (c : Chan), HasRoom (s.ch c).dom 51 ∧ (s.ch c).dom.inReset = false ∧ (s.ch c).active 1 = true ∧
      (s.ch c).lvB POS_CTL_RXEN = true ∧ (s.ch c).lvN POS_ENC_ZMODE = 1)
    ∧ (∃ (s : State) (c : Chan), (s.ch c).dom.inReset = false ∧ (s.ch c).active 1 = true ∧
      (s.ch c).lvB POS_CTL_RXEN = true ∧ (s.ch c).lvN POS_ENC_ZMODE = 2 ∧ (s.ch c).rgB POS_STAT_LFAULT = false)
    ∧ (∃ (s : State) (c : Chan), HasRoom (s.ch c).dom 60 ∧ (s.ch c).dom.inReset = false ∧
      (s.ch c).lvB POS_CTL_RXEN = true ∧ (s.ch c).rgB POS_STAT_LFAULT = false)
    ∧ (∃ (s : State) (c : Chan) (w : Word), (s.ch c).dom.inReset = false ∧ fget w 31 29 = 1)
    ∧ (∃ (s : State) (c : Chan) (w : Word), (s.ch c).dom.inReset = false ∧ fget w 31 29 = 2)
    ∧ (∃ (x : Channel), ((x.lvB POS_CTL_EMEN && !x.emErr && decide (x.pos.emBacklog ≠ 0) && decide ((x.pos.emLast
      + if x.lvN POS_EMCTL_EMMIN < 2 then 2 else x.lvN POS_EMCTL_EMMIN) ≤ x.now)) = true) ∧ 0 < x.pos.emBacklog)
    ∧ (∃ (x : Channel), ((x.lvB POS_CTL_EMEN && !x.emErr && decide (x.pos.emBacklog ≠ 0) && decide ((x.pos.emLast
      + if x.lvN POS_EMCTL_EMMIN < 2 then 2 else x.lvN POS_EMCTL_EMMIN) ≤ x.now)) = true) ∧ x.pos.emBacklog < 0)
    ∧ (∃ (x : Channel), ((x.lvB POS_CTL_EMEN && !x.emErr && decide (x.pos.emBacklog ≠ 0) && decide ((x.pos.emLast
      + if x.lvN POS_EMCTL_EMMIN < 2 then 2 else x.lvN POS_EMCTL_EMMIN) ≤ x.now)) = false))
    ∧ (∃ (x : Channel), (x.srcUse = 1 ∨ x.srcUse = 4) ∧ (x.pos.stillOf x.srcUse).on = false ∧
      (x.pos.stillOf x.srcUse).from_ + atLeast1 (x.lvN POS_ZTMO_ZTMO) ≤ x.now)
    ∧ (∃ (x : Channel), (x.srcUse = 1 ∨ x.srcUse = 4) ∧
      x.now < (x.pos.stillOf x.srcUse).from_ + atLeast1 (x.lvN POS_ZTMO_ZTMO))
    ∧ (∃ (x : Channel) (t : Nat), x.pos.ssiMono = some t ∧ t + x.lvN POS_SSI2_MONO ≤ x.now) :=
  ⟨⟨chLive [(POS_CTL_RXEN, 1)] start, .c0, by decide +kernel⟩,
   ⟨onPos (fun p => { p with encRef := some 0 }) (chLive [(POS_CTL_RXEN, 1), (POS_CTL_PSRC, 1)] start), .c0, 1, 0,
    by decide +kernel⟩,
   ⟨onPos (fun p => { p with encRef := some 0 }) (chLive [(POS_CTL_RXEN, 1), (POS_CTL_PSRC, 1)] start), .c0, 2, 0,
    by decide +kernel⟩,
   ⟨onPos (fun p => { p with encRef := some 0 }) (chLive [(POS_CTL_RXEN, 1), (POS_CTL_PSRC, 1)] start), .c0, 3, 0,
    hasRoom (by decide +kernel), by decide +kernel⟩,
   ⟨chLive [(POS_QINF_QINF, 1)] (onWeir (fun w => { w with omL := 0x7FFFFFFF }) (chRg [(POS_STAT_DIRSET,
    1)] (onPos (fun p => { p with encRef := some 0 }) (chLive [(POS_CTL_RXEN, 1), (POS_CTL_PSRC, 1)] start)))), .c0,
    3, 0, hasRoom (by decide +kernel), by decide +kernel⟩,
   ⟨chLive [(POS_CTL_RXEN, 1), (POS_ENC_ZMODE,
    1)] (onPos (fun p => { p with encStill := { p.encStill with from_ := 0 } }) (chLive [(POS_CTL_PSRC, 1),
    (POS_ZTMO_ZTMO, 1)] (atTime 1 start))), .c0, hasRoom (by decide +kernel), by decide +kernel⟩,
   ⟨chLive [(POS_ENC_ZMODE, 2)] (onPos (fun p => { p with encRef := some 0 }) (chLive [(POS_CTL_RXEN, 1),
    (POS_CTL_PSRC, 1)] start)), .c0, by decide +kernel⟩,
   ⟨onPos (fun p => { p with encRef := some 0 }) (chLive [(POS_CTL_RXEN, 1), (POS_CTL_PSRC, 1)] start), .c0,
    hasRoom (by decide +kernel), by decide +kernel⟩,
   ⟨start, .c0, 0x20000123, by decide +kernel⟩,
   ⟨start, .c0, 0x5A5A0001, by decide +kernel⟩,
   ⟨(chLive [(POS_EMCTL_EMMIN, 0)] (onPos (fun p => { p with emBacklog := 1 }) (chLive [(POS_CTL_EMEN,
    1)] (atTime 2 start)))).c0, by decide +kernel⟩,
   ⟨(chLive [(POS_EMCTL_EMMIN, 2)] (onPos (fun p => { p with emBacklog := -1 }) (chLive [(POS_CTL_EMEN,
    1)] (atTime 2 start)))).c0, by decide +kernel⟩,
   ⟨start.c0, by decide +kernel⟩,
   ⟨(onPos (fun p => { p with encStill := { p.encStill with from_ := 0 } }) (chLive [(POS_CTL_PSRC, 1),
    (POS_ZTMO_ZTMO, 1)] (atTime 1 start))).c0, by decide +kernel⟩,
   ⟨(onPos (fun p => { p with encRef := some 0 }) (chLive [(POS_CTL_RXEN, 1), (POS_CTL_PSRC, 1)] start)).c0,
    by decide +kernel⟩,
   ⟨(onPos (fun p => { p with ssiMono := some 0 }) (atTime 100000 start)).c0, 0, by decide +kernel⟩⟩

theorem witness_PositionSourcesAndLatch :
    (∃ (s : State) (c : Chan), (s.ch c).dom.inReset = false ∧ (s.ch c).resolverDue = true ∧
      (s.ch c).readyAt ((s.ch c).now - 44) = true ∧ (s.ch c).active 2 = true ∧
      ((s.ch c).lvB POS_RSLV_SMODE = true → (s.ch c).excUsable 44 = true))
    ∧ (∃ (s : State) (c : Chan), (s.ch c).dom.inReset = false ∧ (s.ch c).resolverDue = true ∧
      (s.ch c).readyAt ((s.ch c).now - 44) = true ∧ (s.ch c).active 2 = true ∧ (s.ch c).lvB POS_RSLV_SMODE = true ∧
      (s.ch c).excUsable 44 = false)
    ∧ (∃ (s : State) (c : Chan), (s.ch c).dom.inReset = false ∧ (s.ch c).resolverDue = true ∧
      (s.ch c).readyAt ((s.ch c).now - 44) = false)
    ∧ (∃ (s : State) (c : Chan) (t : Nat), (s.ch c).dom.inReset = false ∧ 2 ≤ (s.ch c).rgN SYS_BOOTSTAT_PHASE ∧
      (s.ch c).pos.ssiStart = some t ∧ t + ((s.ch c).withPosBank (s.ch c).pos.ssiBank).ssiFrameTime ≤ (s.ch c).now ∧
      ((s.ch c).withPosBank (s.ch c).pos.ssiBank).lvB POS_SSI_PAR = false ∧
      ((s.ch c).withPosBank (s.ch c).pos.ssiBank).lvB POS_SSI_ERRB = false ∧ (s.ch c).active 3 = true ∧
      ((s.ch c).withPosBank (s.ch c).pos.ssiBank).lvB POS_SSI_GRAY = false)
    ∧ (∃ (s : State) (c : Chan) (t : Nat), (s.ch c).dom.inReset = false ∧ 2 ≤ (s.ch c).rgN SYS_BOOTSTAT_PHASE ∧
      (s.ch c).pos.ssiStart = some t ∧ t + ((s.ch c).withPosBank (s.ch c).pos.ssiBank).ssiFrameTime ≤ (s.ch c).now ∧
      ((s.ch c).withPosBank (s.ch c).pos.ssiBank).lvB POS_SSI_PAR = false ∧
      ((s.ch c).withPosBank (s.ch c).pos.ssiBank).lvB POS_SSI_ERRB = false ∧ (s.ch c).active 3 = false)
    ∧ (∃ (s : State) (c : Chan) (h a : BitVec 3), HasRoom (s.ch c).dom 53 ∧ (s.ch c).dom.inReset = false ∧
      2 ≤ (s.ch c).rgN SYS_BOOTSTAT_PHASE ∧ a.toNat < 6 ∧ (s.ch c).active 4 = true ∧ (s.ch c).hallPossible h = true ∧
      (s.ch c).pos.hallSector = some a ∧
      BitVec.toNat (fget ((s.ch c).lv POS_HALLMAP_MAP) (3 * h.toNat + 2) (3 * h.toNat)) = (a.toNat + 1) % 6)
    ∧ (∃ (s : State) (c : Chan) (h a : BitVec 3), HasRoom (s.ch c).dom 53 ∧ (s.ch c).dom.inReset = false ∧
      2 ≤ (s.ch c).rgN SYS_BOOTSTAT_PHASE ∧ a.toNat < 6 ∧ (s.ch c).active 4 = true ∧ (s.ch c).hallPossible h = true ∧
      (s.ch c).pos.hallSector = some a ∧
      a.toNat = (BitVec.toNat (fget ((s.ch c).lv POS_HALLMAP_MAP) (3 * h.toNat + 2) (3 * h.toNat)) + 1) % 6)
    ∧ (∃ (s : State) (c : Chan) (h a : BitVec 3), HasRoom (s.ch c).dom 55 ∧ (s.ch c).dom.inReset = false ∧
      2 ≤ (s.ch c).rgN SYS_BOOTSTAT_PHASE ∧ a.toNat < 6 ∧ (s.ch c).active 4 = true ∧ (s.ch c).hallPossible h = true ∧
      (s.ch c).pos.hallSector = some a ∧
      BitVec.toNat (fget ((s.ch c).lv POS_HALLMAP_MAP) (3 * h.toNat + 2) (3 * h.toNat)) = (a.toNat + 2) % 6)
    ∧ (∃ (s : State) (c : Chan) (h : BitVec 3), HasRoom (s.ch c).dom 54 ∧ (s.ch c).dom.inReset = false ∧
      2 ≤ (s.ch c).rgN SYS_BOOTSTAT_PHASE ∧ (s.ch c).active 4 = true ∧ (s.ch c).hallPossible h = false)
    ∧ (∃ (s : State) (c : Chan), (s.ch c).dom.inReset = false ∧ 2 ≤ (s.ch c).rgN SYS_BOOTSTAT_PHASE ∧
      (s.ch c).active 4 = false)
    ∧ (∃ (x : Channel), x.srcUse ≠ 3 ∧ x.avalid x.srcUse = true)
    ∧ (∃ (x : Channel), x.srcUse ≠ 3 ∧ x.avalid x.srcUse = false ∧ x.lvB POS_CTL_FAILOVER = false ∧
      x.active 3 = false)
    ∧ (∃ (x : Channel) (l : Latch) (ls : List Latch), HasRoom x.dom 48 ∧ x.pos.inFlight = l :: ls ∧ l.due ≤ x.now ∧
      x.avalid x.srcUse = true)
    ∧ (∃ (x : Channel) (l : Latch) (ls : List Latch), x.pos.inFlight = l :: ls ∧ l.due ≤ x.now ∧
      x.avalid x.srcUse = false) :=
  ⟨⟨onAdc (fun a => { a with resHold := [6], refLog := [(0, true)] }) (chLive [(POS_CTL_PSRC, 2), (POS_CTL_EXCEN,
    1)] (atTime 50 start)), .c0, by decide +kernel⟩,
   ⟨onAdc (fun a => { a with resHold := [6], refLog := [(0, true)] }) (chLive [(POS_CTL_PSRC, 2), (POS_CTL_EXCEN, 1),
    (POS_RSLV_SMODE, 1)] (atTime 50 start)), .c0, by decide +kernel⟩,
   ⟨onAdc (fun a => { a with resHold := [6], refLog := [(0, false)] }) (chLive [(POS_CTL_PSRC, 2), (POS_CTL_EXCEN,
    1)] (atTime 50 start)), .c0, by decide +kernel⟩,
   ⟨chLive [(POS_CTL_PSRC, 3)] (chRg [(SYS_BOOTSTAT_PHASE,
    2)] (onPos (fun p => { p with ssiStart := some 0, ssiMono := some 0 }) (atTime 100000 start))), .c0, 0,
    by decide +kernel⟩,
   ⟨chRg [(SYS_BOOTSTAT_PHASE, 2)] (onPos (fun p => { p with ssiStart := some 0, ssiMono := some 0 }) (atTime 100000
    start)), .c0, 0, by decide +kernel⟩,
   ⟨chRg [(SYS_BOOTSTAT_PHASE, 2)] (onPos (fun p => { p with hallSector := some 0 }) (chLive [(POS_CTL_PSRC, 4),
    (POS_HALLMAP_MAP, 0x3F0688)] start)), .c0, 1, 0, hasRoom (by decide +kernel), by decide +kernel⟩,
   ⟨chRg [(SYS_BOOTSTAT_PHASE, 2)] (onPos (fun p => { p with hallSector := some 1 }) (chLive [(POS_CTL_PSRC, 4),
    (POS_HALLMAP_MAP, 0x3F0688)] start)), .c0, 4, 1, hasRoom (by decide +kernel), by decide +kernel⟩,
   ⟨chRg [(SYS_BOOTSTAT_PHASE, 2)] (onPos (fun p => { p with hallSector := some 0 }) (chLive [(POS_CTL_PSRC, 4),
    (POS_HALLMAP_MAP, 0x3F0688)] start)), .c0, 2, 0, hasRoom (by decide +kernel), by decide +kernel⟩,
   ⟨chRg [(SYS_BOOTSTAT_PHASE, 2)] (onPos (fun p => { p with hallSector := some 0 }) (chLive [(POS_CTL_PSRC, 4),
    (POS_HALLMAP_MAP, 0x3F0688)] start)), .c0, 0, hasRoom (by decide +kernel), by decide +kernel⟩,
   ⟨chRg [(SYS_BOOTSTAT_PHASE, 202)] (onAdc (fun a => { a with resHold := [6], refLog := [(0, true)] }) (onPos (fun p
    => { p with excPhase := 100000000 }) (chLive [(POS_CTL_PSRC, 2), (POS_CTL_EXCEN, 1), (POS_RSLV_SMODE,
    1)] (atTime 50 start)))), .c0, by decide +kernel⟩,
   ⟨(onPos (fun p => { p with encAv := true }) (onWeir (fun w => { w with strobes := 0x100 }) (chLive [(POS_CTL_PSRC,
    1)] start))).c0, by decide +kernel⟩,
   ⟨start.c0, by decide +kernel⟩,
   ⟨(onPos (fun p => { p with encAv := true, inFlight := [⟨5, 6, 0, 10, 0, 1⟩] }) (chLive [(POS_CTL_PSRC,
    1)] (atTime 10 start))).c0, { theta := 5, omega := 6, stamp := 0, due := 10, count := 0, src := 1 }, [],
    hasRoom (by decide +kernel), by decide +kernel⟩,
   ⟨(onPos (fun p => { p with inFlight := [⟨5, 6, 0, 10, 0, 1⟩] }) (atTime 10 start)).c0,
    { theta := 5, omega := 6, stamp := 0, due := 10, count := 0, src := 1 }, [], by decide +kernel⟩⟩

theorem witness_ConversionGroups :
    (∃ (s : State) (c : Chan) (g : Group), (s.ch c).dom.inReset = false ∧ (s.ch c).adc.grp = some g ∧
      g.conv < g.total ∧ g.hold0 + g.conv * (g.ts + 42) + 44 = (s.ch c).now)
    ∧ (∃ (x : Channel) (n : BitVec 3), ¬(x.adc.grp = none ∧ x.adc.ending = false) ∧
      x.adc.pend.getLsbD n.toNat = false)
    ∧ (∃ (x : Channel) (n : BitVec 3), HasRoom x.dom 72 ∧ ¬(x.adc.grp = none ∧ x.adc.ending = false) ∧
      x.adc.pend.getLsbD n.toNat = true)
    ∧ (∃ (x : Channel) (n : BitVec 3), HasRoom x.dom 73 ∧ x.adc.grp = none ∧ x.adc.ending = false ∧
      lowestBit x.adc.pend = some n.toNat)
    ∧ (∃ (x : Channel) (n : BitVec 3), x.adc.grp = none ∧ x.adc.ending = false ∧ x.adc.pend = 0 ∧
      x.fires n.toNat = true ∧ (∀ (j : Nat), j < n.toNat → x.fires j = false))
    ∧ (∃ (x : Channel) (n : BitVec 3), x.lvN (ADC_TSRC_SRC n.toNat) = 2 ∧ x.posReached n.toNat = true)
    ∧ (∃ (x : Channel) (n : BitVec 3), x.weir.mode = WMode.async ∧ x.pwm.running = true ∧ x.pwm.frozen = false ∧
      x.lvB (PWM_XCMP_EN n.toNat) = true ∧ x.pwm.xFired.getLsbD n.toNat = false)
    ∧ (∃ (x : Channel) (n : BitVec 3), x.xcmpDue n.toNat = true)
    ∧ (∃ (x : Channel) (g : Group), HasRoom x.dom (64 + g.line) ∧ x.adc.grp = some g ∧ g.conv = g.total ∧
      g.total ≠ 0 ∧ g.hold0 + (g.total - 1) * (g.ts + 42) + 45 = x.now ∧ g.line < 8)
    ∧ (∃ (x : Channel) (g : Group) (j : Nat), x.adc.grp = some g ∧ g.conv = g.total ∧ g.total ≠ 0 ∧
      g.hold0 + (g.total - 1) * (g.ts + 42) + 45 = x.now ∧ j < 3 ∧ (∀ (i : Nat),
      i < 3 → i ≠ j → g.phys.getD i 0 ≠ g.phys.getD j 0) ∧ g.rover ≠ g.phys.getD j 0)
    ∧ (∃ (x : Channel) (g : Group), x.adc.grp = some g ∧ g.conv < g.total) :=
  ⟨⟨onAdc (fun a => { a with grp := some ⟨1, 0, 0, 10, false, 1, [], [0, 1, 2], 3, none, [], 0, 2, 0, false⟩ })
    (atTime 44 start), .c0,
    { line := 1, start := 0, hold0 := 0, ts := 10, late := false, seq := 1, bank := [], phys := [0, 1, 2], rover := 3, check := none, sdWords := [], conv := 0, total := 2, stored := 0, invalid := false },
    by decide +kernel⟩,
   ⟨(onAdc (fun a => { a with grp := some ⟨1, 0, 0, 10, false, 1, [], [], 0, none, [], 0, 2, 0, false⟩, pend := 0 })
    (onWeir (fun w => { w with strobes := 8 }) (chLive [(ADC_TSRC_SRC 3, 1)] start))).c0, 0, by decide +kernel⟩,
   ⟨(onAdc (fun a => { a with grp := some ⟨1, 0, 0, 10, false, 1, [], [], 0, none, [], 0, 2, 0, false⟩, pend := 8 })
    (onWeir (fun w => { w with strobes := 8 }) (chLive [(ADC_TSRC_SRC 3, 1)] start))).c0, 3,
    hasRoom (by decide +kernel), by decide +kernel⟩,
   ⟨(onAdc (fun a => { a with pend := 8 }) (onWeir (fun w => { w with strobes := 8 }) (chLive [(ADC_TSRC_SRC 3,
    1)] start))).c0, 3, hasRoom (by decide +kernel), by decide +kernel⟩,
   ⟨(onWeir (fun w => { w with arrived := 8 }) (chLive [(ADC_TSRC_SRC 3, 1)] start)).c0, 3, by decide +kernel⟩,
   ⟨(onPwm (fun p => { p with begun := true }) (chLive [(ADC_TSRC_SRC 3, 2), (PWM_CPER_PER,
    100)] (pwmRuns start))).c0, 3, by decide +kernel⟩,
   ⟨(chLive [(PWM_XCMP_EN 3, 1), (ADC_TSRC_SRC 3, 3)] (pwmRuns start)).c0, 3, by decide +kernel⟩,
   ⟨(chLive [(PWM_XCMP_EN 3, 1), (ADC_TSRC_SRC 3, 3)] (pwmRuns start)).c0, 3, by decide +kernel⟩,
   ⟨(onAdc (fun a => { a with grp := some ⟨1, 0, 0, 10, false, 1, [], [0, 1, 2], 3, none, [], 2, 2, 2, false⟩ })
    (atTime 97 start)).c0,
    { line := 1, start := 0, hold0 := 0, ts := 10, late := false, seq := 1, bank := [], phys := [0, 1, 2], rover := 3, check := none, sdWords := [], conv := 2, total := 2, stored := 2, invalid := false },
    hasRoom (by decide +kernel), by decide +kernel⟩,
   ⟨(onAdc (fun a => { a with grp := some ⟨1, 0, 0, 10, false, 1, [], [0, 1, 2], 3, none, [], 2, 2, 2, false⟩ })
    (atTime 97 start)).c0,
    { line := 1, start := 0, hold0 := 0, ts := 10, late := false, seq := 1, bank := [], phys := [0, 1, 2], rover := 3, check := none, sdWords := [], conv := 2, total := 2, stored := 2, invalid := false },
    0, by decide +kernel⟩,
   ⟨(onAdc (fun a => { a with grp := some ⟨1, 0, 0, 10, false, 1, [], [], 0, none, [], 0, 2, 0, false⟩, pend := 0 })
    (onWeir (fun w => { w with strobes := 8 }) (chLive [(ADC_TSRC_SRC 3, 1)] start))).c0,
    { line := 1, start := 0, hold0 := 0, ts := 10, late := false, seq := 1, bank := [], phys := [], rover := 0, check := none, sdWords := [], conv := 0, total := 2, stored := 0, invalid := false },
    by decide +kernel⟩⟩

theorem witness_SensingAndCalibration :
    (∃ (s : State) (c : Chan), HasRoom (s.ch c).dom 78 ∧ (s.ch c).dom.inReset = false ∧
      (s.ch c).lvB ADC_CTL_REFEN = true ∧ (s.ch c).rgB ADC_STAT_REF_READY = false ∧
      (s.ch c).adc.refOn + 800000 ≤ (s.ch c).now ∧ (s.ch c).adc.refOut + 400000 ≤ (s.ch c).now)
    ∧ (∃ (s : State) (c : Chan), HasRoom (s.ch c).dom 79 ∧ (s.ch c).dom.inReset = false ∧
      (s.ch c).rgB ADC_STAT_REF_READY = true)
    ∧ (∃ (s : State) (c : Chan) (q : BitVec 3), (s.ch c).dom.inReset = false ∧ 2 ≤ (s.ch c).rgN SYS_BOOTSTAT_PHASE ∧
      (s.ch c).sdWordEnds q.toNat = true ∧ (sget SdState.reset (s.ch c).adc.sd q.toNat).done = false)
    ∧ (∃ (s : State) (c : Chan) (q : BitVec 3), HasRoom (s.ch c).dom 80 ∧ (s.ch c).dom.inReset = false ∧
      2 ≤ (s.ch c).rgN SYS_BOOTSTAT_PHASE ∧ (s.ch c).sdBit q.toNat = true ∧
      63 ≤ (sget SdState.reset (s.ch c).adc.sd q.toNat).seen ∧
      (sget SdState.reset (s.ch c).adc.sd q.toNat).stuck = false)
    ∧ (∃ (s : State) (c : Chan) (k : BitVec 2), (s.ch c).dom.inReset = false ∧ (s.ch c).cmpOn k.toNat = true)
    ∧ (∃ (s : State) (c : Chan) (w : Word), (s.ch c).dom.inReset = false ∧ bitOf w 2 = true ∧
      BitVec.toNat (fget w 1 0) < 3 ∧ (s.ch c).rgB ADC_STAT_NOROVE = false)
    ∧ (∃ (s : State) (c : Chan) (w : Word), (s.ch c).dom.inReset = false ∧
      (bitOf w 2 = false ∨ fget w 1 0 = 3 ∨ (s.ch c).rgB ADC_STAT_NOROVE = true))
    ∧ (∃ (s : State) (c : Chan) (w : Word), (s.ch c).dom.inReset = false ∧ fget w 31 30 = 1 ∧
      (s.ch c).calRefusal false (BitVec.toNat (fget w 20 16)) = 0)
    ∧ (∃ (s : State) (c : Chan) (w : Word), HasRoom (s.ch c).dom 82 ∧ (s.ch c).dom.inReset = false ∧
      fget w 31 30 = 1 ∧ (s.ch c).calRefusal false (BitVec.toNat (fget w 20 16)) ≠ 0)
    ∧ (∃ (s : State) (c : Chan) (w : Word), (s.ch c).dom.inReset = false ∧ fget w 31 30 = 2 ∧
      (s.ch c).calRefusal true (BitVec.toNat (fget w 20 16)) = 0)
    ∧ (∃ (s : State) (c : Chan) (st : CalStep), HasRoom (s.ch c).dom 81 ∧ (s.ch c).dom.inReset = false ∧
      (s.ch c).adc.cal = some st ∧ st.due = (s.ch c).now ∧ st.full = false)
    ∧ (∃ (s : State) (c : Chan) (s0 s1 s2 s3 : Nat) (st : CalStep), (s.ch c).dom.inReset = false ∧
      (s.ch c).adc.cal = some st ∧ st.due = (s.ch c).now ∧ st.full = true ∧ st.input < 24 ∧ (∀ (p : Nat),
      p ∈ (s.ch c).convs → (have z := sget ZeroCap.none (s.ch c).adc.zeros st.input; calCoeffs
      z.target st.target z.avg (z.sums.getD p 0) st.avg ((List.map (satN (65535 * 2 ^ st.avg)) [s0, s1, s2,
      s3]).getD p 0)).isSome = true))
    ∧ (∃ (s : State) (c : Chan) (s0 s1 s2 s3 : Nat) (st : CalStep), HasRoom (s.ch c).dom 82 ∧
      (s.ch c).dom.inReset = false ∧ (s.ch c).adc.cal = some st ∧ st.due = (s.ch c).now ∧ st.full = true ∧
      (∃ (p : Nat), p ∈ (s.ch c).convs ∧
      (have z := sget ZeroCap.none (s.ch c).adc.zeros st.input; calCoeffs z.target st.target
      z.avg (z.sums.getD p 0) st.avg ((List.map (satN (65535 * 2 ^ st.avg)) [s0, s1, s2, s3]).getD p 0)) = none))
    ∧ (∃ (x : Channel) (k : Nat), k < 7 ∧ x.settling k = true ∧ sget 0 x.adc.settle k ≤ x.now)
    ∧ (∃ (x : Channel) (k : Nat), k < 7 ∧ x.settling k = true ∧ x.now < sget 0 x.adc.settle k)
    ∧ (∃ (x : Channel) (d : Nat), x.sdBit d = true ∧ (sget SdState.reset x.adc.sd d).done = true)
    ∧ (∃ (x : Channel) (d : Nat), x.sdBit d = false) :=
  ⟨⟨chLive [(ADC_CTL_REFEN, 1)] (atTime 800000 start), .c0, hasRoom (by decide +kernel), by decide +kernel⟩,
   ⟨chRg [(ADC_STAT_REF_READY, 1)] start, .c0, hasRoom (by decide +kernel), by decide +kernel⟩,
   ⟨onAdc (fun a => { a with sdck := [(0, 1), (1, 1)], sd := [(0, { SdState.reset with bits := 15 }), (1, { SdState.reset with bits := 15 })] })
    (chRg [(SYS_BOOTSTAT_PHASE, 2)] (chLive [(ADC_SDCFG_EN 0, 1), (ADC_SDCFG_EN 1, 1), (ADC_SDCFG_DEC 0, 16),
    (ADC_SDCFG_DEC 1, 16)] start)), .c0, 0, by decide +kernel⟩,
   ⟨onAdc (fun a => { a with sdck := [(0, 1), (1, 1)], sd := [(0, { SdState.reset with seen := 63 }), (1, { SdState.reset with seen := 63 })] })
    (chRg [(SYS_BOOTSTAT_PHASE, 2)] (chLive [(ADC_SDCFG_EN 0, 1), (ADC_SDCFG_EN 1, 1), (ADC_SDCFG_DEC 0, 16),
    (ADC_SDCFG_DEC 1, 16)] start)), .c0, 0, hasRoom (by decide +kernel), by decide +kernel⟩,
   ⟨chLive [(ADC_FCMP_EN 0, 1)] start, .c0, 0, by decide +kernel⟩,
   ⟨start, .c0, 4, by decide +kernel⟩,
   ⟨start, .c0, 0, by decide +kernel⟩,
   ⟨chRg [(ADC_STAT_REF_READY, 1)] start, .c0, 0x40000000, by decide +kernel⟩,
   ⟨start, .c0, 0x5A5A0001, hasRoom (by decide +kernel), by decide +kernel⟩,
   ⟨onAdc (fun a => { a with zeros := (List.range 24).map (fun i => (i, ⟨5, 1, [1, 2, 3, 4]⟩)) })
    (chRg [(ADC_STAT_REF_READY, 1)] start), .c0, 0x80000000, by decide +kernel⟩,
   ⟨onAdc (fun a => { a with cal := some ⟨false, 1, 2, 5, 9⟩ }) (atTime 9 start), .c0,
    { full := false, avg := 1, input := 2, target := 5, due := 9 }, hasRoom (by decide +kernel), by decide +kernel⟩,
   ⟨onAdc (fun a => { a with cal := some ⟨true, 1, 2, 5, 9⟩ }) (atTime 9 start), .c0, 536870917, 1000, 536870912,
    536870912, { full := true, avg := 1, input := 2, target := 5, due := 9 }, by decide +kernel⟩,
   ⟨onAdc (fun a => { a with cal := some ⟨true, 1, 2, 5, 9⟩ }) (atTime 9 start), .c0, 7, 11, 15, 8,
    { full := true, avg := 1, input := 2, target := 5, due := 9 }, hasRoom (by decide +kernel), by decide +kernel⟩,
   ⟨(onAdc (fun a => { a with settle := [(3, 4), (5, 4)] }) (atTime 4 start)).c0, 3, by decide +kernel⟩,
   ⟨(onAdc (fun a => { a with settle := [(0, 9), (1, 9), (3, 9), (5, 9)] }) (atTime 4 start)).c0, 0,
    by decide +kernel⟩,
   ⟨(onAdc (fun a => { a with sdck := [(0, 1), (1, 1)], sd := [(0, { SdState.reset with done := true }), (1, { SdState.reset with done := true })] })
    (chRg [(SYS_BOOTSTAT_PHASE, 2)] (chLive [(ADC_SDCFG_EN 0, 1), (ADC_SDCFG_EN 1, 1), (ADC_SDCFG_DEC 0, 16),
    (ADC_SDCFG_DEC 1, 16)] start))).c0, 0, by decide +kernel⟩,
   ⟨start.c0, 0, by decide +kernel⟩⟩

theorem witness_PulsesAndDeadTimes :
    (∃ (x : Channel) (k : Nat), k < 6 ∧ x.decisionDue k = true ∧ x.bootstrapLimit k = none ∧
      (↑x.tmin : Int) ≤ (↑x.periodUnits : Int) - (↑x.tmin : Int) ∧ ((x.legCycle k).leg k).kind = PulseKind.pulse)
    ∧ (∃ (x : Channel) (k : Nat), k < 6 ∧ x.decisionDue k = true ∧ x.bootstrapLimit k = none ∧
      (↑x.tmin : Int) ≤ (↑x.periodUnits : Int) - (↑x.tmin : Int) ∧ x.lvB PWM_CTL_CARRYEN = true ∧
      x.legExcluded k = false)
    ∧ (∃ (x : Channel) (k : Nat), k < 6 ∧ x.decisionDue k = true ∧ x.bootstrapLimit k = none ∧
      (↑x.tmin : Int) ≤ (↑x.periodUnits : Int) - (↑x.tmin : Int) ∧ x.lvB PWM_CTL_CARRYEN = false)
    ∧ (∃ (x : Channel) (k j : Nat), k < 6 ∧ x.decisionDue k = true ∧ x.bootstrapLimit k = none ∧
      (↑x.tmin : Int) ≤ (↑x.periodUnits : Int) - (↑x.tmin : Int) ∧ j ≠ k)
    ∧ (∃ (x : Channel) (k : Nat) (second : Bool), (x.topo = 1 ∨ x.topo = 2) ∧ k < 6 ∧
      (x.pair k 0).out = (x.pair k 0).on ∧ (x.pair k 0).on = (x.pair k 0).want ∧ (x.pair k 0).held = 0 ∧
      (x.pair k 0).freeAt = none ∧ ((x.pair k 0).on = pairOf (0,
      1) (x.applyOverrides k (if second = true then 2 else 1))))
    ∧ (∃ (x : Channel) (k : Nat) (second : Bool), (x.topo = 1 ∨ x.topo = 2) ∧ k < 6 ∧
      (x.pair k 0).out = (x.pair k 0).on ∧ (x.pair k 0).on = (x.pair k 0).want ∧ (x.pair k 0).held = 0 ∧
      (x.pair k 0).freeAt = none ∧ ((x.pair k 0).on ≠ pairOf (0,
      1) (x.applyOverrides k (if second = true then 2 else 1))) ∧ (x.pair k 0).on ≠ 3 ∧ (pairOf (0,
      1) (x.applyOverrides k (if second = true then 2 else 1)) = 1) ∧ (x.pair k 0).on = 2)
    ∧ (∃ (x : Channel) (k : Nat) (second : Bool), (x.topo = 1 ∨ x.topo = 2) ∧ k < 6 ∧
      (x.pair k 0).out = (x.pair k 0).on ∧ (x.pair k 0).on = (x.pair k 0).want ∧ (x.pair k 0).held = 0 ∧
      (x.pair k 0).freeAt = none ∧ ((x.pair k 0).on ≠ pairOf (0,
      1) (x.applyOverrides k (if second = true then 2 else 1))) ∧ (x.pair k 0).on ≠ 3 ∧ (pairOf (0,
      1) (x.applyOverrides k (if second = true then 2 else 1)) = 2) ∧ (x.pair k 0).on = 1)
    ∧ (∃ (x : Channel) (k j : Nat), (x.topo = 1 ∨ x.topo = 2) ∧ k < 6 ∧ (x.pair k 0).out = (x.pair k 0).on ∧
      (x.pair k 0).on = (x.pair k 0).want ∧ (x.pair k 0).held = 0 ∧ (x.pair k 0).freeAt = none ∧ j ≠ k)
    ∧ (∃ (x : Channel) (k i : Nat), (x.pair k i).held = 0 ∧ (x.pair k i).freeAt = none ∧ (x.pair k i).want ≠ 3)
    ∧ (∃ (s : State) (c : Chan) (leg : BitVec 3) (v : Int) (tap : BitVec 5) (m : Meas), (s.ch c).dom.inReset = false ∧
      leg.toNat < 6 ∧ ((s.ch c).leg leg.toNat).meas = some m ∧ m.was = none ∧ (s.ch c).pwm.frozen = false ∧
      (s.ch c).nodeHigh m.pair ((s.ch c).leg leg.toNat).vsw ≠ (s.ch c).nodeHigh m.pair v ∧
      m.off < (s.ch c).now * 32 + tap.toNat ∧ (∀ (d : Nat),
      ((s.ch c).pair leg.toNat m.pair).due = some d → (s.ch c).now * 32 + tap.toNat < d) ∧
      (((s.ch c).pair leg.toNat m.pair).due = none → m.ended = false))
    ∧ (∃ (s : State) (c : Chan) (leg : BitVec 3) (v : Int) (tap : BitVec 5) (m : Meas) (a : Adapt) (f : Nat),
      (s.ch c).dom.inReset = false ∧ leg.toNat < 6 ∧ ((s.ch c).leg leg.toNat).meas = some m ∧ m.was = some (a, f) ∧
      (s.ch c).pwm.frozen = false ∧
      (s.ch c).nodeHigh m.pair ((s.ch c).leg leg.toNat).vsw ≠ (s.ch c).nodeHigh m.pair v ∧
      m.off < (s.ch c).now * 32 + tap.toNat)
    ∧ (∃ (s : State) (c : Chan) (leg : BitVec 3), (s.ch c).dom.inReset = false ∧ leg.toNat < 6 ∧
      ((s.ch c).leg leg.toNat).meas = none) :=
  ⟨⟨(onWeir (fun w => { w with phi := 0xFFFFFFFF }) (onPwm (fun p => { p with n := 100000 })
    (onPwm (fun p => { p with legs := [(2, { Leg.reset with decided := none })], resume := false, ctl := 0x300 })
    (pwmRuns start)))).c0, 0, by decide +kernel⟩,
   ⟨(chLive [(PWM_OEN_OEN, 262143), (PWM_TMIN_TMIN,
    1)] (onPwm (fun p => { p with running := true, resume := false, n := 250, per := 1000, ctl := 0x310, legs := [] })
    (chLive [(PWM_CPER_PER, 1000), (PWM_CTL_CARRYEN, 1)] (atTime 5000 start)))).c0, 0, by decide +kernel⟩,
   ⟨(onWeir (fun w => { w with phi := 0xFFFFFFFF }) (onPwm (fun p => { p with n := 100000 })
    (onPwm (fun p => { p with legs := [(2, { Leg.reset with decided := none })], resume := false, ctl := 0x300 })
    (pwmRuns start)))).c0, 0, by decide +kernel⟩,
   ⟨(onWeir (fun w => { w with phi := 0xFFFFFFFF }) (onPwm (fun p => { p with n := 100000 })
    (onPwm (fun p => { p with legs := [(2, { Leg.reset with decided := none })], resume := false, ctl := 0x300 })
    (pwmRuns start)))).c0, 0, 2, by decide +kernel⟩,
   ⟨(onPwm (fun p => { p with legs := [(2, { Leg.reset with pairs := [(0, { Pair.reset with want := 2, on := 2, out := 2 })] })], resume := false, ctl := 0x310 })
    (pwmRuns start)).c0, 2, true, by decide +kernel⟩,
   ⟨(onPwm (fun p => { p with legs := [(2, { Leg.reset with pairs := [(0, { Pair.reset with want := 2, on := 2, out := 2 })] })], resume := false, ctl := 0x310 })
    (pwmRuns start)).c0, 2, false, by decide +kernel⟩,
   ⟨(onPwm (fun p => { p with legs := [(2, { Leg.reset with pairs := [(0, { Pair.reset with want := 1, on := 1, out := 1 })] })], resume := false, ctl := 0x310 })
    (pwmRuns start)).c0, 2, true, by decide +kernel⟩,
   ⟨(onPwm (fun p => { p with legs := [(2, { Leg.reset with decided := none })], resume := false, ctl := 0x310 })
    (pwmRuns start)).c0, 0, 2, by decide +kernel⟩,
   ⟨start.c0, 0, 0, by decide +kernel⟩,
   ⟨chLive [(PWM_CTL_DTMODE,
    1)] (onPwm (fun p => { p with legs := [(2, { Leg.reset with meas := some ⟨0, true, 0, false, none⟩ })], resume := false, ctl := 0x300 })
    (pwmRuns start)), .c0, 2, 3000000, 1, { pair := 0, rising := true, off := 0, ended := false, was := none },
    by decide +kernel⟩,
   ⟨onPwm (fun p => { p with legs := [(2, { Leg.reset with meas := some ⟨0, true, 0, false, some (Adapt.reset, 0)⟩ })], resume := false, ctl := 0x310 })
    (pwmRuns start), .c0, 2, 3000000, 1,
    { pair := 0, rising := true, off := 0, ended := false, was := some ({ hist := [], band := 0, run := 0 }, 0) },
    { hist := [], band := 0, run := 0 }, 0, by decide +kernel⟩,
   ⟨start, .c0, 2, by decide +kernel⟩⟩

theorem witness_Trips :
    (∃ (s : State) (c : Chan), (s.ch c).dom.inReset = false ∧ 2 ≤ (s.ch c).rgN SYS_BOOTSTAT_PHASE)
    ∧ (∃ (s : State) (c : Chan) (w : Word) (i : Instr), HasRoom (s.ch c).dom 0 ∧ (s.ch c).dom.inReset = false ∧
      (i ∈ Instr.swtrip c w :: if bitOf w 0 = true then [Instr.tripClear c w] else []) ∧ bitOf w 1 = true ∧
      (s.ch c).rgB PWM_TRIP_LATCH = false)
    ∧ (∃ (s : State) (c : Chan) (w : Word) (i : Instr), (s.ch c).dom.inReset = false ∧
      (i ∈ Instr.swtrip c w :: if bitOf w 0 = true then [Instr.tripClear c w] else []) ∧ bitOf w 1 = true ∧
      (s.ch c).rgB PWM_TRIP_LATCH = true)
    ∧ (∃ (s : State) (c : Chan) (w : Word), (s.ch c).dom.inReset = false ∧ bitOf w 0 = true ∧ bitOf w 1 = false ∧
      (s.ch c).rgB PWM_TRIP_LATCH = true)
    ∧ (∃ (s : State) (c : Chan) (w : Word), (s.ch c).dom.inReset = false ∧ (bitOf w 0 = false ∨ bitOf w 1 = false ∧
      (s.ch c).rgB PWM_TRIP_LATCH = false))
    ∧ (∃ (x : Channel), HasRoom x.dom 0 ∧ x.pwm.tripNext = 0 ∧ x.actingRequests ≠ 0 ∧ x.rgB PWM_TRIP_LATCH = false)
    ∧ (∃ (x : Channel) (k : Nat), x.pwm.tripNext = 0 ∧ x.actingRequests ≠ 0 ∧ x.rgB PWM_TRIP_LATCH = false ∧ k < 6)
    ∧ (∃ (x : Channel), x.pwm.tripNext = 0 ∧ x.actingRequests ≠ 0 ∧ x.rgB PWM_TRIP_LATCH = true)
    ∧ (∃ (x : Channel), x.pwm.tripNext = 0 ∧ x.actingRequests = 0)
    ∧ (∃ (m : Nat), m < 8)
    ∧ (∃ (x : Channel), x.patternNow = some 0)
    ∧ (∃ (x : Channel) (p b z : Nat), x.patternNow = some p ∧ b < 18 ∧ x.booted = true ∧ x.elementA = false ∧
      x.rgB (GDI_GFLATCH_LATCH.bit b) = false ∧ bitOf (x.lv PWM_OEN_OEN) b = true ∧ x.pwm.ovrs &&& 65535 = 0 ∧
      (p = 1 ∨ p = 2) ∧ (x.groupSwitches (p == 2)).getLsbD b = true ∧ partner x.topo b = some z ∧
      x.pwm.sw.getLsbD z = false ∧ sget 0 x.pwm.swAt z + x.lvN PWM_DTMIN_DT_MIN ≤ x.lastTick)
    ∧ (∃ (x : Channel), x.pwm.clrReq = true ∧ x.enabledRequests = 0)
    ∧ (∃ (x : Channel), HasRoom x.dom 96 ∧ x.pwm.clrReq = true ∧ x.enabledRequests ≠ 0) :=
  ⟨⟨chRg [(SYS_BOOTSTAT_PHASE, 3)] (onPwm (fun p => { p with oen := 0x3FFFF }) (chRg [(PWM_TRIP_PAT,
    1)] (chLive [(PWM_OEN_OEN, 0x3FFFF)] start))), .c0, by decide +kernel⟩,
   ⟨start, .c0, 2, .swtrip .c0 2, hasRoom (by decide +kernel), by decide +kernel⟩,
   ⟨chRg [(PWM_TRIP_LATCH, 1)] pair, .c0, 2, .swtrip .c0 2, by decide +kernel⟩,
   ⟨chRg [(PWM_TRIP_LATCH, 1)] pair, .c0, 1, by decide +kernel⟩,
   ⟨start, .c0, 0, by decide +kernel⟩,
   ⟨(onPwm (fun p => { p with clrReq := true }) (chRg [(GDI_TRIPIN_ACT, 255)] (chLive [(PWM_TRIPEN_EN,
    255)] start))).c0, hasRoom (by decide +kernel), by decide +kernel⟩,
   ⟨(onPwm (fun p => { p with clrReq := true }) (chRg [(GDI_TRIPIN_ACT, 255)] (chLive [(PWM_TRIPEN_EN,
    255)] start))).c0, 0, by decide +kernel⟩,
   ⟨(chRg [(PWM_TRIP_LATCH, 1), (GDI_TRIPIN_ACT, 2)] pair).c0, by decide +kernel⟩,
   ⟨start.c0, by decide +kernel⟩,
   ⟨0, by decide +kernel⟩,
   ⟨(chRg [(PWM_TRIP_PAT, 0)] single).c0, by decide +kernel⟩,
   ⟨(onPwm (fun p => { p with oen := 0x3FFFF, ctl := 0x310 }) (chRg [(PWM_TRIP_PAT, 1), (SYS_BOOTSTAT_DONE, 1),
    (SAFE_STAT_STODEM, 0)] (chLive [(PWM_OEN_OEN, 0x3FFFF)] (atTime 100000 start)))).c0, 1, 0, 1, by decide +kernel⟩,
   ⟨(onPwm (fun p => { p with clrReq := true }) start).c0, by decide +kernel⟩,
   ⟨(onPwm (fun p => { p with clrReq := true }) (chRg [(GDI_TRIPIN_ACT, 255)] (chLive [(PWM_TRIPEN_EN,
    255)] start))).c0, hasRoom (by decide +kernel), by decide +kernel⟩⟩

theorem witness_GateFaultsBrakeAndDischarge :
    (∃ (s : State) (c : Chan), (s.ch c).dom.inReset = false ∧ 2 ≤ (s.ch c).rgN SYS_BOOTSTAT_PHASE ∧
      (s.ch c).rgB GDI_STAT_TPM = false)
    ∧ (∃ (s : State) (c : Chan) (code : BitVec 3), (s.ch c).dom.inReset = false ∧
      2 ≤ (s.ch c).rgN SYS_BOOTSTAT_PHASE ∧ (s.ch c).rgB GDI_STAT_TPM = true ∧ (s.ch c).rgN GDI_STAT_GIN = code.toNat)
    ∧ (∃ (s : State) (c : Chan) (code : BitVec 3), (s.ch c).dom.inReset = false ∧
      2 ≤ (s.ch c).rgN SYS_BOOTSTAT_PHASE ∧ (s.ch c).rgB GDI_STAT_TPM = true ∧
      (s.ch c).rgN GDI_STAT_GIN ≠ code.toNat ∧ (s.ch c).gdi.ginAt + (s.ch c).lvN GDI_GINCFG_TPMIN ≤ (s.ch c).now)
    ∧ (∃ (s : State) (c : Chan) (code : BitVec 3), (s.ch c).dom.inReset = false ∧
      2 ≤ (s.ch c).rgN SYS_BOOTSTAT_PHASE ∧ (s.ch c).rgB GDI_STAT_TPM = true ∧
      (s.ch c).rgN GDI_STAT_GIN ≠ code.toNat ∧ (s.ch c).now < (s.ch c).gdi.ginAt + (s.ch c).lvN GDI_GINCFG_TPMIN)
    ∧ (∃ (s : State) (c : Chan) (b : BitVec 5), (s.ch c).dom.inReset = false ∧ 2 ≤ (s.ch c).rgN SYS_BOOTSTAT_PHASE ∧
      b.toNat < 18 ∧ (s.ch c).isBootReport b.toNat = false)
    ∧ (∃ (s : State) (c : Chan) (b : BitVec 5), (s.ch c).dom.inReset = false ∧ 2 ≤ (s.ch c).rgN SYS_BOOTSTAT_PHASE ∧
      (18 ≤ b.toNat ∨ (s.ch c).isBootReport b.toNat = true))
    ∧ (∃ (s : State) (c : Chan) (leg : BitVec 3), (s.ch c).dom.inReset = false ∧ 2 ≤ (s.ch c).rgN SYS_BOOTSTAT_PHASE ∧
      (s.ch c).isBootReport (2 * leg.toNat) = true)
    ∧ (∃ (s : State) (c : Chan) (leg : BitVec 3), (s.ch c).dom.inReset = false ∧ 2 ≤ (s.ch c).rgN SYS_BOOTSTAT_PHASE ∧
      (s.ch c).isBootReport (2 * leg.toNat) = false)
    ∧ (∃ (s : State) (c : Chan), (s.ch c).dom.inReset = false ∧ 2 ≤ (s.ch c).rgN SYS_BOOTSTAT_PHASE ∧
      (s.ch c).rgN GDI_STAT_DPHASE = 0)
    ∧ (∃ (s : State) (c : Chan), (s.ch c).dom.inReset = false ∧ 2 ≤ (s.ch c).rgN SYS_BOOTSTAT_PHASE ∧
      (s.ch c).rgN GDI_STAT_DPHASE = 1 ∧ (s.ch c).now < (s.ch c).gdi.dStart + 400 * (s.ch c).lvN GDI_DSCH_DFBT)
    ∧ (∃ (s : State) (c : Chan), (s.ch c).dom.inReset = false ∧ 2 ≤ (s.ch c).rgN SYS_BOOTSTAT_PHASE ∧
      ¬(s.ch c).rgN GDI_STAT_DPHASE = 0 ∧
      ((s.ch c).rgN GDI_STAT_DPHASE = 1 → (s.ch c).gdi.dStart + 400 * (s.ch c).lvN GDI_DSCH_DFBT ≤ (s.ch c).now))
    ∧ (∃ (s : State) (c : Chan), HasRoom (s.ch c).dom 10 ∧ (s.ch c).dom.inReset = false ∧
      2 ≤ (s.ch c).rgN SYS_BOOTSTAT_PHASE ∧ ¬(s.ch c).rgN GDI_STAT_DPHASE = 0 ∧ (s.ch c).gdi.dSeen = true)
    ∧ (∃ (s : State) (c : Chan), (s.ch c).dom.inReset = false ∧ 2 ≤ (s.ch c).rgN SYS_BOOTSTAT_PHASE ∧
      ¬(s.ch c).rgN GDI_STAT_DPHASE = 0 ∧ (s.ch c).gdi.dSeen = false)
    ∧ (∃ (s : State) (c : Chan) (w : Word), HasRoom (s.ch c).dom 10 ∧ (s.ch c).dom.inReset = false ∧
      bitOf w 1 = true ∧ bitOf w 2 = false ∧ (s.ch c).rgN GDI_STAT_DPHASE = 0 ∧ (s.ch c).dischargeRefused = true)
    ∧ (∃ (s : State) (c : Chan) (w : Word), (s.ch c).dom.inReset = false ∧ bitOf w 1 = true ∧ bitOf w 2 = false ∧
      (s.ch c).rgN GDI_STAT_DPHASE = 0 ∧ (s.ch c).dischargeRefused = false)
    ∧ (∃ (s : State) (c : Chan) (w : Word), (s.ch c).dom.inReset = false ∧ bitOf w 1 = true ∧ bitOf w 2 = false ∧
      ¬(s.ch c).rgN GDI_STAT_DPHASE = 0)
    ∧ (∃ (s : State) (c : Chan) (w : Word), (s.ch c).dom.inReset = false ∧ bitOf w 1 = false ∧ bitOf w 2 = true)
    ∧ (∃ (s : State) (c : Chan) (w : Word), (s.ch c).dom.inReset = false ∧ bitOf w 1 = true ∧ bitOf w 2 = true)
    ∧ (∃ (x : Channel), HasRoom x.dom 6)
    ∧ (∃ (k i : Nat), k < 6 ∧ i < 3)
    ∧ (∃ (x : Channel) (code : BitVec 3), x.gdi.ginWait = some code ∧ x.rgB GDI_STAT_TPM = true ∧
      x.gdi.ginAt + x.lvN GDI_GINCFG_TPMIN ≤ x.now)
    ∧ (∃ (x : Channel) (b : Nat), b < 18 ∧ x.rgB (GDI_GFLATCH_LATCH.bit b) = true)
    ∧ (∃ (x : Channel), HasRoom x.dom 5 ∧ x.adc.cmpOut.getLsbD 5 = true ∧ x.gdi.ov2Req = false ∧
      x.lvN GDI_OVTH_OV2FLT + 1 ≤ x.gdi.ov2Run)
    ∧ (∃ (x : Channel) (n : Nat), x.brkLength = some n ∧ x.gdi.brkStart + n ≤ x.now)
    ∧ (∃ (x : Channel), x.rgN GDI_STAT_DPHASE = 1 ∧ x.gdi.dfb = true ∧
      x.now ≤ x.gdi.dStart + 400 * x.lvN GDI_DSCH_DFBT)
    ∧ (∃ (x : Channel), HasRoom x.dom 10 ∧ x.rgN GDI_STAT_DPHASE = 1 ∧
      x.gdi.dStart + 400 * x.lvN GDI_DSCH_DFBT ≤ x.now ∧ ¬(x.gdi.dfb = true ∧
      x.now ≤ x.gdi.dStart + 400 * x.lvN GDI_DSCH_DFBT))
    ∧ (∃ (x : Channel), HasRoom x.dom 9 ∧ x.rgN GDI_STAT_DPHASE = 2 ∧
      (x.lvB GDI_CTL_VDCEN && decide (16 ≤ x.gdi.dvRun)) = true ∧ x.adc.cmpOut.getLsbD 6 = true)
    ∧ (∃ (x : Channel), x.rgN GDI_STAT_DPHASE = 3 ∧ (x.lvB GDI_CTL_VDCEN && decide (16 ≤ x.gdi.dvRun)) = true ∧
      x.adc.cmpOut.getLsbD 6 = false)
    ∧ (∃ (x : Channel), HasRoom x.dom 10 ∧ x.rgN GDI_STAT_DPHASE = 2 ∧ x.adc.cmpOut.getLsbD 6 = false ∧
      x.gdi.dLate = false ∧ x.gdi.dRef + 40000 * x.lvN GDI_DSCH_DSCHT ≤ x.now)
    ∧ (∃ (x : Channel), HasRoom x.dom 10 ∧ ¬x.rgN GDI_STAT_DPHASE = 0 ∧
      x.gdi.dStart + 40000 * x.lvN GDI_DSCHMAX_DSCHMAX ≤ x.now ∧ x.gdi.dReached = false)
    ∧ (∃ (x : Channel), HasRoom x.dom 10 ∧ x.rgN GDI_STAT_DPHASE = 0 ∧ x.gdi.dfb = true ∧ x.gdi.dfbRun = 15)
    ∧ (∃ (x : Channel) (k : Nat), HasRoom x.dom 8 ∧ k < 6 ∧ x.isBootReport (2 * k) = true ∧
      x.rgB (GDI_STAT_BSCHG.bit k) = false ∧ (sget Boot.reset x.gdi.boot k).allAct = true ∧
      atLeast1 (x.lvN GDI_BSUV_BSUVN) ≤ (sget Boot.reset x.gdi.boot k).uv + 1)
    ∧ (∃ (x : Channel) (k : Nat), k < 6 ∧ x.rgB (GDI_STAT_BSCHG.bit k) = true ∧
      (sget Boot.reset x.gdi.boot k).allAct = false ∧
      ((sget Boot.reset x.gdi.boot k).noneAct = true ∨ x.isBootReport (2 * k) = false)) :=
  ⟨⟨chRg [(SYS_BOOTSTAT_PHASE, 255)] start, .c0, by decide +kernel⟩,
   ⟨chRg [(GDI_STAT_TPM, 1), (SYS_BOOTSTAT_PHASE, 255)] start, .c0, 0, by decide +kernel⟩,
   ⟨chRg [(GDI_STAT_DPHASE, 1), (SYS_BOOTSTAT_PHASE,
    255)] (onGdi (fun g => { g with ginWait := some 3 }) (chRg [(GDI_STAT_TPM, 1)] (atTime 100000000 start))), .c0, 1,
    by decide +kernel⟩,
   ⟨chRg [(GDI_STAT_TPM, 1), (SYS_BOOTSTAT_PHASE, 255)] start, .c0, 1, by decide +kernel⟩,
   ⟨chRg [(SYS_BOOTSTAT_PHASE, 255)] start, .c0, 0, by decide +kernel⟩,
   ⟨chRg [(SYS_BOOTSTAT_PHASE,
    213)] (onGdi (fun g => { g with bsen := 0x3F, boot := [(2, { Boot.reset with allAct := true, noneAct := false })] })
    (chLive [(GDI_CTL_BSEN, 0x3F)] (onPwm (fun p => { p with ctl := 0x310 }) (pwmRuns start)))), .c0, 0,
    by decide +kernel⟩,
   ⟨chRg [(SYS_BOOTSTAT_PHASE,
    213)] (onGdi (fun g => { g with bsen := 0x3F, boot := [(2, { Boot.reset with allAct := true, noneAct := false })] })
    (chLive [(GDI_CTL_BSEN, 0x3F)] (onPwm (fun p => { p with ctl := 0x310 }) (pwmRuns start)))), .c0, 0,
    by decide +kernel⟩,
   ⟨chRg [(SYS_BOOTSTAT_PHASE, 255)] start, .c0, 0, by decide +kernel⟩,
   ⟨chRg [(SYS_BOOTSTAT_PHASE, 255)] start, .c0, by decide +kernel⟩,
   ⟨chRg [(GDI_STAT_DPHASE, 1), (SYS_BOOTSTAT_PHASE,
    6)] (onGdi (fun g => { g with dvRun := 16 }) (onAdc (fun a => { a with cmpOut := 0x40 }) (chRg [(GDI_STAT_DPHASE,
    2)] (chLive [(GDI_CTL_VDCEN, 1)] start)))), .c0, by decide +kernel⟩,
   ⟨chRg [(GDI_STAT_DPHASE, 1), (SYS_BOOTSTAT_PHASE,
    255)] (onGdi (fun g => { g with ginWait := some 3 }) (chRg [(GDI_STAT_TPM, 1)] (atTime 100000000 start))), .c0,
    by decide +kernel⟩,
   ⟨chRg [(SYS_BOOTSTAT_PHASE, 3)] (onGdi (fun g => { g with dSeen := true }) (chRg [(GDI_STAT_DPHASE,
    2)] (chLive [(GDI_CTL_VDCEN, 1)] start))), .c0, hasRoom (by decide +kernel), by decide +kernel⟩,
   ⟨chRg [(GDI_STAT_DPHASE, 1), (SYS_BOOTSTAT_PHASE,
    255)] (onGdi (fun g => { g with ginWait := some 3 }) (chRg [(GDI_STAT_TPM, 1)] (atTime 100000000 start))), .c0,
    by decide +kernel⟩,
   ⟨start, .c0, 0x103, hasRoom (by decide +kernel), by decide +kernel⟩,
   ⟨chLive [(GDI_CTL_DSCHEN,
    1)] (onGdi (fun g => { g with ov2Run := 256 }) (onAdc (fun a => { a with cmpOut := 0x20 })
    (chRg [(GDI_STAT_DPHASE, 0)] (chLive [(GDI_CTL_VDCEN, 1)] start)))), .c0, 0x103, by decide +kernel⟩,
   ⟨onGdi (fun g => { g with dSeen := true }) (chRg [(GDI_STAT_DPHASE, 2)] (chLive [(GDI_CTL_VDCEN, 1)] start)), .c0,
    3, by decide +kernel⟩,
   ⟨start, .c0, 4, by decide +kernel⟩,
   ⟨start, .c0, 0xFFFFFFFF, by decide +kernel⟩,
   ⟨start.c0, hasRoom (by decide +kernel)⟩,
   ⟨0, 0, by decide +kernel⟩,
   ⟨(onGdi (fun g => { g with ginWait := some 3 }) (chRg [(GDI_STAT_TPM, 1)] (atTime 100000000 start))).c0, 3,
    by decide +kernel⟩,
   ⟨(chRg [(GDI_GFLATCH_LATCH, 262143)] single).c0, 0, by decide +kernel⟩,
   ⟨(onGdi (fun g => { g with ov2Run := 256 }) (onAdc (fun a => { a with cmpOut := 0x20 }) (chRg [(GDI_STAT_DPHASE,
    0)] (chLive [(GDI_CTL_VDCEN, 1)] start)))).c0, hasRoom (by decide +kernel), by decide +kernel⟩,
   ⟨(chLive [(GDI_CTL_BRKEN, 1)] (chRg [(GDI_STAT_OV1, 1)] start)).c0, 0, by decide +kernel⟩,
   ⟨(onGdi (fun g => { g with dfb := true }) (onAdc (fun a => { a with cmpOut := 0 }) (chRg [(GDI_STAT_DPHASE,
    1)] (chLive [(GDI_CTL_VDCEN, 1)] start)))).c0, by decide +kernel⟩,
   ⟨(chRg [(GDI_STAT_DPHASE, 1), (SYS_BOOTSTAT_PHASE,
    255)] (onGdi (fun g => { g with ginWait := some 3 }) (chRg [(GDI_STAT_TPM, 1)] (atTime 100000000 start)))).c0,
    hasRoom (by decide +kernel), by decide +kernel⟩,
   ⟨(onGdi (fun g => { g with dvRun := 16 }) (onAdc (fun a => { a with cmpOut := 0x40 }) (chRg [(GDI_STAT_DPHASE,
    2)] (chLive [(GDI_CTL_VDCEN, 1)] start)))).c0, hasRoom (by decide +kernel), by decide +kernel⟩,
   ⟨(onGdi (fun g => { g with dvRun := 16 }) (onAdc (fun a => { a with cmpOut := 0 }) (chRg [(GDI_STAT_DPHASE,
    3)] (chLive [(GDI_CTL_VDCEN, 1)] start)))).c0, by decide +kernel⟩,
   ⟨(chLive [(GDI_DSCH_DSCHT, 3)] (chRg [(GDI_STAT_DPHASE,
    2)] (onGdi (fun g => { g with ginWait := some 3 }) (chRg [(GDI_STAT_TPM, 1)] (atTime 100000000 start))))).c0,
    hasRoom (by decide +kernel), by decide +kernel⟩,
   ⟨(chLive [(GDI_DSCHMAX_DSCHMAX, 4)] (chRg [(GDI_STAT_DPHASE,
    1)] (onGdi (fun g => { g with ginWait := some 3 }) (chRg [(GDI_STAT_TPM, 1)] (atTime 100000000 start))))).c0,
    hasRoom (by decide +kernel), by decide +kernel⟩,
   ⟨(onGdi (fun g => { g with dfb := true, dfbRun := 15 }) (onAdc (fun a => { a with cmpOut := 0 })
    (chRg [(GDI_STAT_DPHASE, 0)] (chLive [(GDI_CTL_VDCEN, 1)] start)))).c0, hasRoom (by decide +kernel),
    by decide +kernel⟩,
   ⟨(chLive [(GDI_BSUV_BSUVN,
    0)] (onGdi (fun g => { g with bsen := 0x3F, boot := [(2, { Boot.reset with allAct := true, noneAct := false })] })
    (chLive [(GDI_CTL_BSEN, 0x3F)] (onPwm (fun p => { p with ctl := 0x310 }) (pwmRuns start))))).c0, 2,
    hasRoom (by decide +kernel), by decide +kernel⟩,
   ⟨(chRg [(GDI_STAT_BSCHG,
    2)] (onGdi (fun g => { g with bsen := 0x3F, boot := [(2, { Boot.reset with allAct := true, noneAct := false })] })
    (chLive [(GDI_CTL_BSEN, 0x3F)] (onPwm (fun p => { p with ctl := 0x300 }) (pwmRuns start))))).c0, 1,
    by decide +kernel⟩⟩

theorem witness_DriveSupervisor :
    (∃ (s : State) (c : Chan) (w : Word), (s.ch c).dom.inReset = false ∧ bitOf w 5 = true)
    ∧ (∃ (s : State) (c : Chan) (w : Word), (s.ch c).dom.inReset = false ∧ bitOf w 5 = false)
    ∧ (∃ (s : State) (c : Chan) (w : Word), (s.ch c).dom.inReset = false ∧ bitOf w 4 = true)
    ∧ (∃ (s : State) (c : Chan) (w : Word), (s.ch c).dom.inReset = false ∧ bitOf w 4 = false)
    ∧ (∃ (s : State) (c : Chan) (w : Word), (s.ch c).dom.inReset = false ∧ bitOf w 3 = true)
    ∧ (∃ (s : State) (c : Chan) (w : Word), (s.ch c).dom.inReset = false ∧ bitOf w 3 = false)
    ∧ (∃ (s : State) (c : Chan) (w : Word), (s.ch c).dom.inReset = false ∧ bitOf w 2 = true)
    ∧ (∃ (s : State) (c : Chan) (w : Word), (s.ch c).dom.inReset = false ∧ bitOf w 2 = false)
    ∧ (∃ (s : State) (c : Chan) (w : Word), (s.ch c).dom.inReset = false ∧ bitOf w 1 = true)
    ∧ (∃ (s : State) (c : Chan) (w : Word), (s.ch c).dom.inReset = false ∧ bitOf w 1 = false)
    ∧ (∃ (x : Channel), x.lvB CAS_MSCTL_EN = true ∧ x.msState ≠ 4 ∧ x.rgB PWM_TRIP_LATCH = true)
    ∧ (∃ (x : Channel), x.lvB CAS_MSCTL_EN = true ∧ x.msState ≠ 4 ∧ x.rgB PWM_TRIP_LATCH = false ∧
      x.rgB SAFE_STAT_STODEM = false ∧ x.cascadeSilent = true)
    ∧ (∃ (x : Channel), x.lvB CAS_MSCTL_EN = true ∧ x.msState = 3 ∧ x.rgB PWM_TRIP_LATCH = false ∧
      x.rgB SAFE_STAT_STODEM = false ∧ x.cascadeSilent = false ∧ x.rgB WEIR_STAT_STALE = false ∧
      (x.avalid x.srcUse = false ∨ x.cas.sup.latchSince = false) ∧
      atLeast1 (x.lvN CAS_MSCTL_NCOAST) ≤ satN 255 (x.rgN CAS_MSSTAT_CNT + 1))
    ∧ (∃ (x : Channel), x.lvB CAS_MSCTL_EN = true ∧ x.msState = 1 ∧ x.rgB PWM_TRIP_LATCH = false ∧
      x.rgB SAFE_STAT_STODEM = false ∧ x.cascadeSilent = false ∧ x.rgB WEIR_STAT_STALE = false ∧
      x.avalid x.srcUse = true ∧ (x.cas.sup.xchk = true → x.lvN CAS_MSCTL_XACT ≠ 1) ∧
      x.lvN CAS_MSCTL_NCATCH ≤ satN 255 (x.rgN CAS_MSSTAT_CNT + 1) ∧ x.rgB CAS_MSSTAT_STOPPING = false)
    ∧ (∃ (x : Channel) (pb : Nat), x.lvB CAS_MSCTL_EN = true ∧ x.msState = 2 ∧ x.cas.sup.comm = false ∧
      x.linkLost = false ∧ x.rgN CAS_MSSTAT_LLPH = 0 ∧ x.rgB CAS_MSSTAT_LOCKED = false ∧ x.lvN CAS_MSLRWIN_LRWIN ≠ 0 ∧
      (numOf (x.lv CAS_MSLRTQ_LRTQ)).lt (numOf x.torqueTarget).abs = true ∧
      x.lvN CAS_MSLRWIN_LRWIN * 1000 ≤ x.cas.sup.lrTimer + pb ∧ x.rgN CAS_MSCNT_LOCKED < 255)
    ∧ (∃ (x : Channel) (pb : Nat), x.lvB CAS_MSCTL_EN = true ∧ x.rgN CAS_MSSTAT_LLPH = 1 ∧
      x.lvN CAS_MSLLHOLD_LLHOLD * 1000 ≤ x.cas.sup.holdTime + pb ∧ bitOf x.cas.sup.held 3 = false) :=
  ⟨⟨start, .c0, 0xFFFFFFFF, by decide +kernel⟩,
   ⟨start, .c0, 0, by decide +kernel⟩,
   ⟨start, .c0, 0x10, by decide +kernel⟩,
   ⟨start, .c0, 0, by decide +kernel⟩,
   ⟨start, .c0, 8, by decide +kernel⟩,
   ⟨start, .c0, 0, by decide +kernel⟩,
   ⟨start, .c0, 4, by decide +kernel⟩,
   ⟨start, .c0, 0, by decide +kernel⟩,
   ⟨start, .c0, 2, by decide +kernel⟩,
   ⟨start, .c0, 0, by decide +kernel⟩,
   ⟨(chRg [(PWM_TRIP_LATCH, 1)] (chLive [(CAS_MSCTL_EN, 1), (CAS_MSCDWIN_CDWIN, 1)] (chRg [(CAS_STAT_STOPPED, 1),
    (CAS_MSSTAT_STATE, 2)] (pwmRuns start)))).c0, by decide +kernel⟩,
   ⟨(chRg [(SAFE_STAT_STODEM, 0)] (chLive [(CAS_MSCTL_EN, 1), (CAS_MSCDWIN_CDWIN, 1)] (chRg [(CAS_STAT_STOPPED, 1),
    (CAS_MSSTAT_STATE, 2)] (pwmRuns start)))).c0, by decide +kernel⟩,
   ⟨(onCas (fun a => { a with sup := { a.sup with due := some 5, lrTimer := 1000 } }) (chLive [(CAS_MSCTL_EN,
    1)] (chRg [(CAS_MSSTAT_STATE, 3), (CAS_MSSTAT_CNT, 255), (SAFE_STAT_STODEM, 0), (PWM_TRIP_LATCH, 0),
    (WEIR_STAT_STALE, 0), (MBX_STAT_LLOST, 0)] start))).c0, by decide +kernel⟩,
   ⟨(onPos (fun p => { p with encAv := true }) (onCas (fun a => { a with sup := { a.sup with due := some 5, lrTimer := 1000 } })
    (chLive [(CAS_MSCTL_EN, 1), (POS_CTL_PSRC, 1), (CAS_MSCTL_NCATCH, 1)] (chRg [(CAS_MSSTAT_STATE, 1),
    (CAS_MSSTAT_CNT, 255), (SAFE_STAT_STODEM, 0), (PWM_TRIP_LATCH, 0), (WEIR_STAT_STALE, 0), (MBX_STAT_LLOST,
    0)] start)))).c0, by decide +kernel⟩,
   ⟨(onCas (fun a => { a with sup := { a.sup with lrTimer := 1000 } }) (chLive [(CAS_MSLRTQ_LRTQ,
    0x800000)] (chLive [(CAS_MSCTL_EN, 1), (CAS_MSLRWIN_LRWIN, 1)] (chRg [(CAS_MSSTAT_STATE, 2), (MBX_STAT_LLOST,
    0)] (pwmRuns start))))).c0, 0, by decide +kernel⟩,
   ⟨(chLive [(CAS_MSCTL_EN, 1)] (chRg [(CAS_MSSTAT_LLPH, 1)] (pwmRuns start))).c0, 0, by decide +kernel⟩⟩

theorem witness_ReductionOfResults :
    (∃ (er : Int) (xs : List Dy) (m : Int), -256 ≤ er ∧ er ≤ 300 ∧ m ∈ (reduce er xs).v.m)
    ∧ (∃ (er : Int) (xs : List Dy), -256 ≤ er ∧ er ≤ 300 ∧ -128 ≤ er ∧ er ≤ 127 ∧ (∀ (y : Dy),
      y ∈ xs → y.fits er = true))
    ∧ (∃ (er : Int) (xs : List Dy), -256 ≤ er ∧ er ≤ 300 ∧ -128 ≤ er ∧ er < (reduce er xs).v.exp)
    ∧ (∃ (er : Int) (xs : List Dy), -256 ≤ er ∧ er ≤ 300 ∧ (reduce er xs).ovf = true) :=
  ⟨⟨0, [{ n := 177179715, e := -3 }, { n := 105243796, e := -122 }, { n := -1, e := 7 }], 5536866, by decide +kernel⟩,
   ⟨0, [], by decide +kernel⟩,
   ⟨0, [{ n := 177179715, e := -3 }, { n := 105243796, e := -122 }, { n := -1, e := 7 }], by decide +kernel⟩,
   ⟨0, [{ n := -46103202, e := -20 }, { n := 29444527, e := 109 }], by decide +kernel⟩⟩

theorem witness_VectorArithmetic :
    (∃ (s : State) (c : Chan) (r : Run) (im : BitVec 14), CasReady s c r 2 ∧ CasReady s c r 1 ∧ im.toNat < 256)
    ∧ (∃ (s : State) (c : Chan) (r : Run) (im : BitVec 14), CasReady s c r 2 ∧ 256 ≤ im.toNat ∧
      (s.ch c).dom.inReset = false ∧ (s.ch c).issuing = some r)
    ∧ (∃ (s : State) (c : Chan) (r : Run) (im : BitVec 14), CasReady s c r 1 ∧ 256 ≤ im.toNat ∧
      (s.ch c).dom.inReset = false ∧ (s.ch c).issuing = some r) :=
  ⟨⟨casRuns start, .c0,
    { pc := 4, start := 0, len := 0, bank := [], tag := false, clip := false, sat := false, ovf := false, t := false, rcskip := false, sst := 0, satNow := false, shiftNow := false },
    2, ⟨rfl, rfl, rfl⟩, ⟨rfl, rfl, rfl⟩, by decide +kernel⟩,
   ⟨casRuns start, .c0,
    { pc := 4, start := 0, len := 0, bank := [], tag := false, clip := false, sat := false, ovf := false, t := false, rcskip := false, sst := 0, satNow := false, shiftNow := false },
    0x3FFF, ⟨rfl, rfl, rfl⟩, by decide +kernel⟩,
   ⟨casRuns start, .c0,
    { pc := 4, start := 0, len := 0, bank := [], tag := false, clip := false, sat := false, ovf := false, t := false, rcskip := false, sst := 0, satNow := false, shiftNow := false },
    0x3FFF, ⟨rfl, rfl, rfl⟩, by decide +kernel⟩⟩

theorem witness_VectorMovesAndFlow :
    (∃ (s : State) (c : Chan) (r : Run) (im : BitVec 14), CasReady s c r 1 ∧ im.toNat < 16)
    ∧ (∃ (s : State) (c : Chan) (r : Run) (im : BitVec 14), CasReady s c r 1 ∧ im.toNat < 256)
    ∧ (∃ (s : State) (c : Chan) (r : Run) (im : BitVec 14), CasReady s c r 2 ∧ im.toNat < 5)
    ∧ (∃ (s : State) (c : Chan) (r : Run) (im : BitVec 14), CasReady s c r 2 ∧ im = 0)
    ∧ (∃ (s : State) (c : Chan) (r : Run) (im : BitVec 14), CasReady s c r 2 ∧ im = 1)
    ∧ (∃ (s : State) (c : Chan) (r : Run) (im : BitVec 14), CasReady s c r 2 ∧ im = 2)
    ∧ (∃ (s : State) (c : Chan) (r : Run) (im : BitVec 14), CasReady s c r 2 ∧ im = 3)
    ∧ (∃ (s : State) (c : Chan) (r : Run) (im : BitVec 14), CasReady s c r 2 ∧ im.toNat ≤ 16368)
    ∧ (∃ (s : State) (c : Chan) (r : Run) (im : BitVec 14), CasReady s c r 1 ∧ im.toNat ≤ 16368)
    ∧ (∃ (s : State) (c : Chan) (r : Run) (im : BitVec 14), (s.ch c).dom.inReset = false ∧ (s.ch c).issuing = some r ∧
      16368 < im.toNat)
    ∧ (∃ (s : State) (c : Chan) (r : Run) (im : BitVec 14), (s.ch c).dom.inReset = false ∧ (s.ch c).issuing = some r ∧
      16 ≤ im.toNat)
    ∧ (∃ (s : State) (c : Chan) (r : Run) (im : BitVec 14), (s.ch c).dom.inReset = false ∧ (s.ch c).issuing = some r ∧
      256 ≤ im.toNat)
    ∧ (∃ (s : State) (c : Chan) (r : Run) (im : BitVec 14), (s.ch c).dom.inReset = false ∧ (s.ch c).issuing = some r ∧
      5 ≤ im.toNat)
    ∧ (∃ (s : State) (c : Chan) (r : Run) (im : BitVec 14), (s.ch c).dom.inReset = false ∧ (s.ch c).issuing = some r ∧
      im = 4)
    ∧ (∃ (s : State) (c : Chan) (r : Run) (cond : BitVec 4), (s.ch c).dom.inReset = false ∧
      (s.ch c).issuing = some r ∧ (s.ch c).casCond r.begun cond.toNat = none)
    ∧ (∃ (s : State) (c : Chan) (r : Run) (im : BitVec 14), (s.ch c).dom.inReset = false ∧ (s.ch c).issuing = some r ∧
      im.toNat ≤ 16368)
    ∧ (∃ (s : State) (c : Chan) (r : Run), (s.ch c).dom.inReset = false ∧ (s.ch c).issuing = some r ∧
      r.outlasts (r.len + 1) = true)
    ∧ (∃ (s : State) (c : Chan) (r : Run) (im : BitVec 14), CasReady s c r 4 ∧ im.toNat < 16)
    ∧ (∃ (s : State) (c : Chan) (r : Run) (cond : BitVec 4), CasReady s c r 2 ∧
      (s.ch c).casCond r.begun cond.toNat = some true)
    ∧ (∃ (s : State) (c : Chan) (r : Run) (cond : BitVec 4), CasReady s c r 1 ∧
      (s.ch c).casCond r.begun cond.toNat = some false)
    ∧ (∃ (s : State) (c : Chan) (r : Run), CasReady s c r 1 ∧ HasRoom (s.ch c).dom 107) :=
  ⟨⟨casRuns start, .c0,
    { pc := 4, start := 0, len := 0, bank := [], tag := false, clip := false, sat := false, ovf := false, t := false, rcskip := false, sst := 0, satNow := false, shiftNow := false },
    3, ⟨rfl, rfl, rfl⟩, by decide +kernel⟩,
   ⟨casRuns start, .c0,
    { pc := 4, start := 0, len := 0, bank := [], tag := false, clip := false, sat := false, ovf := false, t := false, rcskip := false, sst := 0, satNow := false, shiftNow := false },
    3, ⟨rfl, rfl, rfl⟩, by decide +kernel⟩,
   ⟨casRuns start, .c0,
    { pc := 4, start := 0, len := 0, bank := [], tag := false, clip := false, sat := false, ovf := false, t := false, rcskip := false, sst := 0, satNow := false, shiftNow := false },
    3, ⟨rfl, rfl, rfl⟩, by decide +kernel⟩,
   ⟨casRuns start, .c0,
    { pc := 4, start := 0, len := 0, bank := [], tag := false, clip := false, sat := false, ovf := false, t := false, rcskip := false, sst := 0, satNow := false, shiftNow := false },
    0, ⟨rfl, rfl, rfl⟩, by decide +kernel⟩,
   ⟨casRuns start, .c0,
    { pc := 4, start := 0, len := 0, bank := [], tag := false, clip := false, sat := false, ovf := false, t := false, rcskip := false, sst := 0, satNow := false, shiftNow := false },
    1, ⟨rfl, rfl, rfl⟩, by decide +kernel⟩,
   ⟨casRuns start, .c0,
    { pc := 4, start := 0, len := 0, bank := [], tag := false, clip := false, sat := false, ovf := false, t := false, rcskip := false, sst := 0, satNow := false, shiftNow := false },
    2, ⟨rfl, rfl, rfl⟩, by decide +kernel⟩,
   ⟨casRuns start, .c0,
    { pc := 4, start := 0, len := 0, bank := [], tag := false, clip := false, sat := false, ovf := false, t := false, rcskip := false, sst := 0, satNow := false, shiftNow := false },
    3, ⟨rfl, rfl, rfl⟩, by decide +kernel⟩,
   ⟨casRuns start, .c0,
    { pc := 4, start := 0, len := 0, bank := [], tag := false, clip := false, sat := false, ovf := false, t := false, rcskip := false, sst := 0, satNow := false, shiftNow := false },
    3, ⟨rfl, rfl, rfl⟩, by decide +kernel⟩,
   ⟨casRuns start, .c0,
    { pc := 4, start := 0, len := 0, bank := [], tag := false, clip := false, sat := false, ovf := false, t := false, rcskip := false, sst := 0, satNow := false, shiftNow := false },
    3, ⟨rfl, rfl, rfl⟩, by decide +kernel⟩,
   ⟨casRuns start, .c0,
    { pc := 4, start := 0, len := 0, bank := [], tag := false, clip := false, sat := false, ovf := false, t := false, rcskip := false, sst := 0, satNow := false, shiftNow := false },
    0x3FFF, by decide +kernel⟩,
   ⟨casRuns start, .c0,
    { pc := 4, start := 0, len := 0, bank := [], tag := false, clip := false, sat := false, ovf := false, t := false, rcskip := false, sst := 0, satNow := false, shiftNow := false },
    0x2000, by decide +kernel⟩,
   ⟨casRuns start, .c0,
    { pc := 4, start := 0, len := 0, bank := [], tag := false, clip := false, sat := false, ovf := false, t := false, rcskip := false, sst := 0, satNow := false, shiftNow := false },
    0x2000, by decide +kernel⟩,
   ⟨casRuns start, .c0,
    { pc := 4, start := 0, len := 0, bank := [], tag := false, clip := false, sat := false, ovf := false, t := false, rcskip := false, sst := 0, satNow := false, shiftNow := false },
    0x2000, by decide +kernel⟩,
   ⟨casRuns start, .c0,
    { pc := 4, start := 0, len := 0, bank := [], tag := false, clip := false, sat := false, ovf := false, t := false, rcskip := false, sst := 0, satNow := false, shiftNow := false },
    4, by decide +kernel⟩,
   ⟨casRuns start, .c0,
    { pc := 4, start := 0, len := 0, bank := [], tag := false, clip := false, sat := false, ovf := false, t := false, rcskip := false, sst := 0, satNow := false, shiftNow := false },
    0xF, by decide +kernel⟩,
   ⟨casRuns start, .c0,
    { pc := 4, start := 0, len := 0, bank := [], tag := false, clip := false, sat := false, ovf := false, t := false, rcskip := false, sst := 0, satNow := false, shiftNow := false },
    3, by decide +kernel⟩,
   ⟨chLive [(CAS_RUNMAX_RUNMAX, 1)] (casRuns start), .c0,
    { pc := 4, start := 0, len := 0, bank := [(458756, 1)], tag := false, clip := false, sat := false, ovf := false, t := false, rcskip := false, sst := 0, satNow := false, shiftNow := false },
    by decide +kernel⟩,
   ⟨casRuns start, .c0,
    { pc := 4, start := 0, len := 0, bank := [], tag := false, clip := false, sat := false, ovf := false, t := false, rcskip := false, sst := 0, satNow := false, shiftNow := false },
    3, ⟨rfl, rfl, rfl⟩, by decide +kernel⟩,
   ⟨casRuns start, .c0,
    { pc := 4, start := 0, len := 0, bank := [], tag := false, clip := false, sat := false, ovf := false, t := false, rcskip := false, sst := 0, satNow := false, shiftNow := false },
    0, ⟨rfl, rfl, rfl⟩, by decide +kernel⟩,
   ⟨casRuns start, .c0,
    { pc := 4, start := 0, len := 0, bank := [], tag := false, clip := false, sat := false, ovf := false, t := false, rcskip := false, sst := 0, satNow := false, shiftNow := false },
    3, ⟨rfl, rfl, rfl⟩, by decide +kernel⟩,
   ⟨casRuns start, .c0,
    { pc := 4, start := 0, len := 0, bank := [], tag := false, clip := false, sat := false, ovf := false, t := false, rcskip := false, sst := 0, satNow := false, shiftNow := false },
    ⟨rfl, rfl, rfl⟩, hasRoom (by decide +kernel)⟩⟩

theorem witness_ControlInstructions :
    (∃ (s : State) (c : Chan) (r : Run) (va : VReg), CasReady s c r 1 ∧ (∀ (i : Nat),
      i < 16 → ((s.ch c).vr va).lane i = 0))
    ∧ (∃ (s : State) (c : Chan) (r : Run) (va : VReg) (j : Nat), CasReady s c r 1 ∧ (∃ (i : Nat), i < 16 ∧
      ((s.ch c).vr va).lane i ≠ 0) ∧ normShift ((s.ch c).vr va) = j)
    ∧ (∃ (s : State) (c : Chan) (r : Run) (im : BitVec 14), CasReady s c r 6 ∧ im.toNat + 63 ≤ 16383)
    ∧ (∃ (s : State) (c : Chan) (r : Run) (im : BitVec 14), CasReady s c r 4 ∧
      0 < BitVec.toNat ((s.ch c).dataWord r im.toNat) % 16 ∧ BitVec.toNat ((s.ch c).dataWord r im.toNat) % 16 ≤ 10 ∧
      (im.toNat + (if BitVec.toNat ((s.ch c).dataWord r im.toNat) / 16 % 16 = 0 then 16 else
      BitVec.toNat ((s.ch c).dataWord r im.toNat) / 16 % 16) * (2 ^ (BitVec.toNat ((s.ch c).dataWord
      r im.toNat) % 16) + 1) ≤ 16383))
    ∧ (∃ (s : State) (c : Chan) (r : Run) (im : BitVec 14), (s.ch c).dom.inReset = false ∧ (s.ch c).issuing = some r ∧
      (BitVec.toNat ((s.ch c).dataWord r im.toNat) % 16 = 0 ∨ 10 < BitVec.toNat ((s.ch c).dataWord r im.toNat) % 16))
    ∧ (∃ (s : State) (c : Chan) (r : Run) (im : BitVec 14), (s.ch c).dom.inReset = false ∧ (s.ch c).issuing = some r ∧
      0 < BitVec.toNat ((s.ch c).dataWord r im.toNat) % 16 ∧ BitVec.toNat ((s.ch c).dataWord r im.toNat) % 16 ≤ 10 ∧
      (16383 < im.toNat + (if BitVec.toNat ((s.ch c).dataWord r im.toNat) / 16 % 16 = 0 then
      16 else BitVec.toNat ((s.ch c).dataWord r im.toNat) / 16 % 16) * (2 ^ (BitVec.toNat ((s.ch
      c).dataWord r im.toNat) % 16) + 1)))
    ∧ (∃ (s : State) (c : Chan) (r : Run) (im : BitVec 14), (s.ch c).dom.inReset = false ∧ (s.ch c).issuing = some r ∧
      16383 < im.toNat + 63)
    ∧ (∃ (s : State) (c : Chan) (r : Run), CasReady s c r 3 ∧ fld r.bank CAS_RCCTL_EN = 0)
    ∧ (∃ (s : State) (c : Chan) (r : Run), CasReady s c r 2 ∧ fld r.bank CAS_RCCTL_EN = 0)
    ∧ (∃ (s : State) (c : Chan) (r : Run), CasReady s c r 3 ∧ ¬fld r.bank CAS_RCCTL_EN = 0 ∧
      (s.ch c).cas.bR = (s.ch c).rgN CAS_RCBIN_BIN)
    ∧ (∃ (s : State) (c : Chan) (r : Run), CasReady s c r 2 ∧ ¬fld r.bank CAS_RCCTL_EN = 0)
    ∧ (∃ (s : State) (c : Chan) (r : Run), CasReady s c r 4 ∧ ¬fld r.bank CAS_RCCTL_EN = 0 ∧
      (s.ch c).rgN CAS_RCBIN_BIN < 2047 ∧ (s.ch c).cas.bR + 1 = (s.ch c).rgN CAS_RCBIN_BIN)
    ∧ (∃ (s : State) (c : Chan) (r : Run) (im : BitVec 14), CasReady s c r 1 ∧ im.toNat < 8 ∧
      ((s.ch c).injRunning = false ∨ bitOf (fld r.bank CAS_INJCTL_PMASK) im.toNat = false))
    ∧ (∃ (s : State) (c : Chan) (r : Run) (im : BitVec 14), CasReady s c r 1 ∧ im.toNat < 8 ∧
      (s.ch c).injRunning = true ∧ bitOf (fld r.bank CAS_INJCTL_PMASK) im.toNat = true)
    ∧ (∃ (s : State) (c : Chan) (r : Run) (im : BitVec 14), (s.ch c).dom.inReset = false ∧ (s.ch c).issuing = some r ∧
      8 ≤ im.toNat)
    ∧ (∃ (s : State) (c : Chan) (r : Run), CasReady s c r 1 ∧ (s.ch c).rgN CAS_CAPSTAT_STATE = 2 ∧
      (s.ch c).rgN CAS_CAPSTAT_COUNT < 16384)
    ∧ (∃ (s : State) (c : Chan) (r : Run), CasReady s c r 1 ∧
      ((s.ch c).rgN CAS_CAPSTAT_STATE = 0 ∨ (s.ch c).rgN CAS_CAPSTAT_STATE = 3))
    ∧ (∃ (s : State) (c : Chan) (r : Run) (im : BitVec 14), CasReady s c r 1 ∧ im.toNat < 2 ∧
      fld r.bank CAS_CTL_OBSEN = 0)
    ∧ (∃ (s : State) (c : Chan) (r : Run) (im : BitVec 14), CasReady s c r 1 ∧ im.toNat < 2 ∧
      ¬fld r.bank CAS_CTL_OBSEN = 0)
    ∧ (∃ (s : State) (c : Chan) (r : Run) (im : BitVec 14), (s.ch c).dom.inReset = false ∧ (s.ch c).issuing = some r ∧
      2 ≤ im.toNat)
    ∧ (∃ (x : Channel) (n : Nat) (v : Nat → Word) (q : Nat), n ≤ 6 ∧ x.cas.outs = List.map (fun (q : Nat) => (q,
      v q)) (List.range n) ∧ q < 6)
    ∧ (∃ (x : Channel) (n : Nat) (v : Nat → Word), n ≤ 6 ∧ x.cas.outs = List.map (fun (q : Nat) => (q,
      v q)) (List.range n) ∧ x.cas.obs = none)
    ∧ (∃ (x : Channel) (n : Nat) (v : Nat → Word) (o : Observed), n ≤ 6 ∧ x.cas.outs = List.map (fun (q : Nat) => (q,
      v q)) (List.range n) ∧ x.cas.obs = some o) :=
  ⟨⟨casRuns start, .c0,
    { pc := 4, start := 0, len := 0, bank := [], tag := false, clip := false, sat := false, ovf := false, t := false, rcskip := false, sst := 0, satNow := false, shiftNow := false },
    0, ⟨rfl, rfl, rfl⟩, by decide +kernel⟩,
   ⟨onCas (fun a => { a with v := [(0, ⟨0, [5]⟩)] }) (casRuns start), .c0,
    { pc := 4, start := 0, len := 0, bank := [], tag := false, clip := false, sat := false, ovf := false, t := false, rcskip := false, sst := 0, satNow := false, shiftNow := false },
    0, 20, ⟨rfl, rfl, rfl⟩, by decide +kernel⟩,
   ⟨casRuns start, .c0,
    { pc := 4, start := 0, len := 0, bank := [], tag := false, clip := false, sat := false, ovf := false, t := false, rcskip := false, sst := 0, satNow := false, shiftNow := false },
    1, ⟨rfl, rfl, rfl⟩, by decide +kernel⟩,
   ⟨onChan (fun c => c.putData aRun 0 5) (casRuns start), .c0,
    { pc := 4, start := 0, len := 0, bank := [], tag := false, clip := false, sat := false, ovf := false, t := false, rcskip := false, sst := 0, satNow := false, shiftNow := false },
    0, ⟨rfl, rfl, rfl⟩, by decide +kernel⟩,
   ⟨casRuns start, .c0,
    { pc := 4, start := 0, len := 0, bank := [], tag := false, clip := false, sat := false, ovf := false, t := false, rcskip := false, sst := 0, satNow := false, shiftNow := false },
    0x3FFF, by decide +kernel⟩,
   ⟨onChan (fun c => c.putData aRun 16383 5) (casRuns start), .c0,
    { pc := 4, start := 0, len := 0, bank := [], tag := false, clip := false, sat := false, ovf := false, t := false, rcskip := false, sst := 0, satNow := false, shiftNow := false },
    0x3FFF, by decide +kernel⟩,
   ⟨casRuns start, .c0,
    { pc := 4, start := 0, len := 0, bank := [], tag := false, clip := false, sat := false, ovf := false, t := false, rcskip := false, sst := 0, satNow := false, shiftNow := false },
    0x3FFF, by decide +kernel⟩,
   ⟨casRuns start, .c0,
    { pc := 4, start := 0, len := 0, bank := [], tag := false, clip := false, sat := false, ovf := false, t := false, rcskip := false, sst := 0, satNow := false, shiftNow := false },
    ⟨rfl, rfl, rfl⟩, by decide +kernel⟩,
   ⟨casRuns start, .c0,
    { pc := 4, start := 0, len := 0, bank := [], tag := false, clip := false, sat := false, ovf := false, t := false, rcskip := false, sst := 0, satNow := false, shiftNow := false },
    ⟨rfl, rfl, rfl⟩, by decide +kernel⟩,
   ⟨chLive [(CAS_RCCTL_EN, 1), (CAS_CTL_OBSEN, 1)] (casRuns start), .c0,
    { pc := 4, start := 0, len := 0, bank := [(458752, 0x320), (458768, 0x80000000)], tag := false, clip := false, sat := false, ovf := false, t := false, rcskip := false, sst := 0, satNow := false, shiftNow := false },
    ⟨rfl, rfl, rfl⟩, by decide +kernel⟩,
   ⟨chLive [(CAS_RCCTL_EN, 1)] (chRg [(CAS_RCBIN_BIN, 1)] (casRuns start)), .c0,
    { pc := 4, start := 0, len := 0, bank := [(458768, 0x80000000)], tag := false, clip := false, sat := false, ovf := false, t := false, rcskip := false, sst := 0, satNow := false, shiftNow := false },
    ⟨rfl, rfl, rfl⟩, by decide +kernel⟩,
   ⟨chLive [(CAS_RCCTL_EN, 1)] (chRg [(CAS_RCBIN_BIN, 1)] (casRuns start)), .c0,
    { pc := 4, start := 0, len := 0, bank := [(458768, 0x80000000)], tag := false, clip := false, sat := false, ovf := false, t := false, rcskip := false, sst := 0, satNow := false, shiftNow := false },
    ⟨rfl, rfl, rfl⟩, by decide +kernel⟩,
   ⟨casRuns start, .c0,
    { pc := 4, start := 0, len := 0, bank := [], tag := false, clip := false, sat := false, ovf := false, t := false, rcskip := false, sst := 0, satNow := false, shiftNow := false },
    1, ⟨rfl, rfl, rfl⟩, by decide +kernel⟩,
   ⟨chLive [(CAS_INJCTL_EN, 1), (CAS_INJCTL_TYPE, 1), (CAS_INJCTL_PMASK, 255)] (chRg [(CAS_INJSTAT_RUN,
    1)] (casRuns start)), .c0,
    { pc := 4, start := 0, len := 0, bank := [(458800, 0xA0FF0000)], tag := false, clip := false, sat := false, ovf := false, t := false, rcskip := false, sst := 0, satNow := false, shiftNow := false },
    0, ⟨rfl, rfl, rfl⟩, by decide +kernel⟩,
   ⟨casRuns start, .c0,
    { pc := 4, start := 0, len := 0, bank := [], tag := false, clip := false, sat := false, ovf := false, t := false, rcskip := false, sst := 0, satNow := false, shiftNow := false },
    0x3FFF, by decide +kernel⟩,
   ⟨chRg [(CAS_CAPSTAT_STATE, 2)] (onChan (fun c => c.putData aRun 16383 5) (casRuns start)), .c0,
    { pc := 4, start := 0, len := 0, bank := [], tag := false, clip := false, sat := false, ovf := false, t := false, rcskip := false, sst := 0, satNow := false, shiftNow := false },
    ⟨rfl, rfl, rfl⟩, by decide +kernel⟩,
   ⟨casRuns start, .c0,
    { pc := 4, start := 0, len := 0, bank := [], tag := false, clip := false, sat := false, ovf := false, t := false, rcskip := false, sst := 0, satNow := false, shiftNow := false },
    ⟨rfl, rfl, rfl⟩, by decide +kernel⟩,
   ⟨casRuns start, .c0,
    { pc := 4, start := 0, len := 0, bank := [], tag := false, clip := false, sat := false, ovf := false, t := false, rcskip := false, sst := 0, satNow := false, shiftNow := false },
    1, ⟨rfl, rfl, rfl⟩, by decide +kernel⟩,
   ⟨chLive [(CAS_RCCTL_EN, 1), (CAS_CTL_OBSEN, 1)] (casRuns start), .c0,
    { pc := 4, start := 0, len := 0, bank := [(458752, 0x320), (458768, 0x80000000)], tag := false, clip := false, sat := false, ovf := false, t := false, rcskip := false, sst := 0, satNow := false, shiftNow := false },
    1, ⟨rfl, rfl, rfl⟩, by decide +kernel⟩,
   ⟨casRuns start, .c0,
    { pc := 4, start := 0, len := 0, bank := [], tag := false, clip := false, sat := false, ovf := false, t := false, rcskip := false, sst := 0, satNow := false, shiftNow := false },
    0x3FFF, by decide +kernel⟩,
   ⟨start.c0, 0, fun _ => 0, 0, by decide +kernel⟩,
   ⟨start.c0, 0, fun _ => 0, by decide +kernel⟩,
   ⟨(onCas (fun a => { a with obs := some ⟨1, 2, 3, true⟩ }) start).c0, 0, fun _ => 0,
    { theta := 1, omega := 2, stamp := 3, valid := true }, by decide +kernel⟩⟩

theorem witness_CascadeRuns :
    (∃ (x : Channel) (f : BitVec 14), x.cas.starts = [f])
    ∧ (∃ (x : Channel), x.lvB CAS_CTL_EN = true ∧ x.rgB CAS_STAT_STOPPED = false ∧ x.cas.run = none ∧
      x.cas.freeAt ≤ x.now)
    ∧ (∃ (x : Channel), x.lvB CAS_CTL_EN = true ∧ x.rgB CAS_STAT_STOPPED = false ∧
      (x.cas.run ≠ none ∨ x.now < x.cas.freeAt) ∧ x.cas.pend = none)
    ∧ (∃ (x : Channel), HasRoom x.dom 105 ∧ x.lvB CAS_CTL_EN = true ∧ x.rgB CAS_STAT_STOPPED = false ∧
      (x.cas.run ≠ none ∨ x.now < x.cas.freeAt) ∧ x.cas.pend ≠ none)
    ∧ (∃ (x : Channel), HasRoom x.dom 105 ∧ x.lvB CAS_CTL_EN = true ∧ x.rgB CAS_STAT_STOPPED = true)
    ∧ (∃ (x : Channel), HasRoom x.dom 105 ∧ x.lvB CAS_CTL_EN = false)
    ∧ (∃ (x : Channel) (f : BitVec 14), x.cas.run = none ∧ x.cas.pend = some f)
    ∧ (∃ (x : Channel) (r : Run), x.overrun = some r)
    ∧ (∃ (s : State) (c : Chan) (w : Word), (s.ch c).dom.inReset = false ∧ bitOf w 3 = false)
    ∧ (∃ (s : State) (c : Chan) (w : Word), (s.ch c).dom.inReset = false ∧ bitOf w 3 = true)
    ∧ (∃ (s : State) (c : Chan) (w : Word), (s.ch c).dom.inReset = false ∧ bitOf w 2 = false)
    ∧ (∃ (s : State) (c : Chan) (w : Word), (s.ch c).dom.inReset = false ∧ bitOf w 2 = true)
    ∧ (∃ (s : State) (c : Chan) (w : Word), (s.ch c).dom.inReset = false ∧ bitOf w 1 = false)
    ∧ (∃ (s : State) (c : Chan) (w : Word), (s.ch c).dom.inReset = false ∧ bitOf w 1 = true)
    ∧ (∃ (s : State) (c : Chan) (w : Word), (s.ch c).dom.inReset = false ∧ bitOf w 0 = false)
    ∧ (∃ (s : State) (c : Chan) (w : Word), (s.ch c).dom.inReset = false ∧ bitOf w 0 = true)
    ∧ (∃ (s : State) (c : Chan) (r : Run), HasRoom (s.ch c).dom 104 ∧ (s.ch c).dom.inReset = false ∧
      (s.ch c).issuing = some r)
    ∧ (∃ (s : State) (c : Chan) (r : Run), HasRoom (s.ch c).dom 106 ∧ (s.ch c).dom.inReset = false ∧
      (s.ch c).issuing = some r)
    ∧ (∃ (s : State) (c : Chan), (s.ch c).dom.inReset = false ∧ (s.ch c).weir.arrived.getLsbD 10 = true)
    ∧ (∃ (s : State) (c : Chan), (s.ch c).dom.inReset = false ∧ (s.ch c).weir.arrived.getLsbD 11 = true ∧
      (s.ch c).rgN CAS_CAPSTAT_STATE = 1)
    ∧ (∃ (s : State) (c : Chan), (s.ch c).dom.inReset = false ∧ (s.ch c).weir.arrived.getLsbD 11 = true ∧
      (s.ch c).rgN CAS_CAPSTAT_STATE ≠ 1)
    ∧ (∃ (s : State) (c : Chan), (s.ch c).dom.inReset = false ∧ (s.ch c).weir.arrived.getLsbD 12 = true ∧
      ((s.ch c).lvB CAS_INJCTL_STEPSRC = true ∨ (s.ch c).injRunning = false))
    ∧ (∃ (s : State) (c : Chan), (s.ch c).dom.inReset = false ∧ (s.ch c).weir.arrived.getLsbD 12 = true ∧
      (s.ch c).lvB CAS_INJCTL_STEPSRC = false ∧ (s.ch c).injRunning = true) :=
  ⟨⟨(onCas (fun a => { a with starts := [7] }) (chLive [(CAS_CTL_EN, 1)] start)).c0, 7, by decide +kernel⟩,
   ⟨(onCas (fun a => { a with starts := [7] }) (chLive [(CAS_CTL_EN, 1)] start)).c0, by decide +kernel⟩,
   ⟨(onCas (fun a => { a with starts := [7] }) (chLive [(CAS_CTL_EN, 1)] (casRuns start))).c0, by decide +kernel⟩,
   ⟨(onCas (fun a => { a with pend := some 7 }) (chLive [(CAS_CTL_EN, 1)] (casRuns start))).c0,
    hasRoom (by decide +kernel), by decide +kernel⟩,
   ⟨(chLive [(CAS_CTL_EN, 1)] (chRg [(CAS_STAT_STOPPED, 1)] (onCas (fun a => { a with starts := [7] }) start))).c0,
    hasRoom (by decide +kernel), by decide +kernel⟩,
   ⟨start.c0, hasRoom (by decide +kernel), by decide +kernel⟩,
   ⟨(onCas (fun a => { a with pend := some 7 }) start).c0, 7, by decide +kernel⟩,
   ⟨(chLive [(CAS_RUNMAX_RUNMAX, 1)] (onCas (fun a => { a with pend := some 7 }) (chLive [(CAS_CTL_EN,
    1)] (casRuns start)))).c0,
    { pc := 4, start := 0, len := 0, bank := [(458752, 0x301), (458756, 1)], tag := false, clip := false, sat := false, ovf := false, t := false, rcskip := false, sst := 0, satNow := false, shiftNow := false },
    by decide +kernel⟩,
   ⟨start, .c0, 0, by decide +kernel⟩,
   ⟨start, .c0, 8, by decide +kernel⟩,
   ⟨start, .c0, 0, by decide +kernel⟩,
   ⟨start, .c0, 4, by decide +kernel⟩,
   ⟨start, .c0, 0, by decide +kernel⟩,
   ⟨start, .c0, 2, by decide +kernel⟩,
   ⟨start, .c0, 0, by decide +kernel⟩,
   ⟨start, .c0, 1, by decide +kernel⟩,
   ⟨casRuns start, .c0,
    { pc := 4, start := 0, len := 0, bank := [], tag := false, clip := false, sat := false, ovf := false, t := false, rcskip := false, sst := 0, satNow := false, shiftNow := false },
    hasRoom (by decide +kernel), by decide +kernel⟩,
   ⟨casRuns start, .c0,
    { pc := 4, start := 0, len := 0, bank := [], tag := false, clip := false, sat := false, ovf := false, t := false, rcskip := false, sst := 0, satNow := false, shiftNow := false },
    hasRoom (by decide +kernel), by decide +kernel⟩,
   ⟨onWeir (fun w => { w with arrived := 0x1C00 }) start, .c0, by decide +kernel⟩,
   ⟨onWeir (fun w => { w with arrived := 0x1C00 }) (chRg [(CAS_CAPSTAT_STATE, 1)] start), .c0, by decide +kernel⟩,
   ⟨onWeir (fun w => { w with arrived := 0x1C00 }) start, .c0, by decide +kernel⟩,
   ⟨onWeir (fun w => { w with arrived := 0x1C00 }) start, .c0, by decide +kernel⟩,
   ⟨onWeir (fun w => { w with arrived := 0x1C00 }) (chLive [(CAS_INJCTL_EN, 1), (CAS_INJCTL_TYPE,
    1)] (chRg [(CAS_INJSTAT_RUN, 1)] start)), .c0, by decide +kernel⟩⟩

theorem witness_MismatchAndRecovery :
    (∃ (s : State) (d : Dom) (m h : Eng) (grp : BitVec 6), HasRoom (s.dom d) 116 ∧ (s.dom d).inReset = false ∧
      (s.dom d).main = some m ∧ (s.dom d).shadow = some h ∧ m ≠ h ∧ (s.dom d).mismatchable = true ∧
      (s.dom d).booting = false ∧ grp.toNat ≤ 42)
    ∧ (∃ (s : State) (d : Dom) (m h : Eng), (s.dom d).inReset = false ∧ (s.dom d).main = some m ∧
      (s.dom d).shadow = some h ∧ m ≠ h ∧ (s.dom d).phase = 1 ∧ (s.dom d).lsc.m + 16002 ≤ (s.dom d).time ∧
      (s.dom d).spare = none)
    ∧ (∃ (s : State) (d : Dom) (m h q : Eng) (k : Ckpt), (s.dom d).inReset = false ∧ (s.dom d).main = some m ∧
      (s.dom d).shadow = some h ∧ m ≠ h ∧ (s.dom d).phase = 1 ∧ (s.dom d).lsc.m + 16002 ≤ (s.dom d).time ∧
      (s.dom d).spare = some q ∧ q ≠ m ∧ q ≠ h ∧ (s.dom d).rgB LSC_STAT_CKVALID = true ∧
      (s.dom d).rgB LSC_STAT_LOGOVF = false ∧ (s.dom d).lsc.ck = some k)
    ∧ (∃ (s : State) (d : Dom) (m h q : Eng), (s.dom d).inReset = false ∧ (s.dom d).main = some m ∧
      (s.dom d).shadow = some h ∧ m ≠ h ∧ (s.dom d).phase = 1 ∧ (s.dom d).lsc.m + 16002 ≤ (s.dom d).time ∧
      (s.dom d).spare = some q ∧ q ≠ m ∧ q ≠ h ∧ ¬((s.dom d).rgB LSC_STAT_CKVALID = true ∧
      (s.dom d).rgB LSC_STAT_LOGOVF = false))
    ∧ (∃ (s : State) (d : Dom) (m h : Eng), (s.dom d).inReset = false ∧ (s.dom d).main = some m ∧
      (s.dom d).shadow = some h ∧ m ≠ h ∧ (s.dom d).phase = 2 ∧ (s.dom d).lsc.due ≤ (s.dom d).time ∧
      (s.dom d).lsc.outcome = 1)
    ∧ (∃ (s : State) (d : Dom) (m h : Eng) (k : Ckpt), (s.dom d).inReset = false ∧ (s.dom d).main = some m ∧
      (s.dom d).shadow = some h ∧ m ≠ h ∧ (s.dom d).phase = 2 ∧ (s.dom d).lsc.due ≤ (s.dom d).time ∧
      (s.dom d).lsc.outcome = 2 ∧ (s.dom d).rgB LSC_STAT_CKVALID = true ∧ (s.dom d).rgB LSC_STAT_LOGOVF = false ∧
      (s.dom d).lsc.ck = some k)
    ∧ (∃ (s : State) (d : Dom) (m h : Eng), (s.dom d).inReset = false ∧ (s.dom d).main = some m ∧
      (s.dom d).shadow = some h ∧ m ≠ h ∧ (s.dom d).phase = 2 ∧ (s.dom d).lsc.due ≤ (s.dom d).time ∧
      (s.dom d).lsc.outcome = 2 ∧ ¬((s.dom d).rgB LSC_STAT_CKVALID = true ∧ (s.dom d).rgB LSC_STAT_LOGOVF = false))
    ∧ (∃ (s : State) (d : Dom), (s.dom d).inReset = false ∧ (s.dom d).phase = 3 ∧ (s.dom d).lsc.due ≤ (s.dom d).time ∧
      (s.dom d).lsc.replay = some [])
    ∧ (∃ (s : State) (d : Dom), (s.dom d).inReset = false ∧ (s.dom d).phase = 3 ∧
      ((s.dom d).time < (s.dom d).lsc.due ∨ (s.dom d).lsc.replay ≠ some []))
    ∧ (∃ (s : State) (d : Dom) (a b : Bool), (s.dom d).inReset = false ∧ (s.dom d).phase = 3 ∧ (a || b) = true) :=
  ⟨⟨pair, .ch .c0, .e0, .e1, 0, hasRoom (by decide +kernel), by decide +kernel⟩,
   ⟨onBoth (fun d => { d with lsc := { d.lsc with outcome := 0 } }) (onBoth (setFields [(LSC_STAT_PHASE, 1),
    (LSC_STAT_SPARE, 3)]) (atTime 16002 pair)), .ch .c0, .e0, .e1, by decide +kernel⟩,
   ⟨onBoth (fun d => { d with lsc := { d.lsc with outcome := 0, ck := some ⟨{ Core.reset with pc := 0x44 }, 5, 7, 3⟩, replay := none } })
    (onBoth (setFields [(LSC_STAT_PHASE, 1), (LSC_STAT_CKVALID, 1)]) (atTime 16100 pair)), .ch .c0, .e0, .e1, .e2,
    { core := { g := [], pc := 0x44, priv := .system, run := .held, status := 0x10, epc := 0, cause := 0, xval := 0, vbase := 0x400, xsave := 0, nstatus := 0x4000, nepc := 0, ncause := 0, timeh := 0, mpuBase := [], mpuLim := [], mpuCtl := 0, wait := .none, loads := [], stores := [], posted := [], postedErrs := [], seq := 0, rsv := none, claimStamp := 0, retired := 0, since := 0, lost := [] }, tag := 5, retired := 7, time := 3 },
    by decide +kernel⟩,
   ⟨onBoth (fun d => { d with lsc := { d.lsc with outcome := 0 } }) (onBoth (setFields [(LSC_STAT_PHASE,
    1)]) (atTime 16002 pair)), .ch .c0, .e0, .e1, .e2, by decide +kernel⟩,
   ⟨onBoth (fun d => { d with lsc := { d.lsc with outcome := 1 } }) (onBoth (setFields [(LSC_STAT_PHASE,
    2)]) (atTime 16002 pair)), .ch .c0, .e0, .e1, by decide +kernel⟩,
   ⟨onBoth (fun d => { d with lsc := { d.lsc with outcome := 2, ck := some ⟨{ Core.reset with pc := 0x44 }, 5, 7, 3⟩, replay := none } })
    (onBoth (setFields [(LSC_STAT_PHASE, 2), (LSC_STAT_CKVALID, 1)]) (atTime 16100 pair)), .ch .c0, .e0, .e1,
    { core := { g := [], pc := 0x44, priv := .system, run := .held, status := 0x10, epc := 0, cause := 0, xval := 0, vbase := 0x400, xsave := 0, nstatus := 0x4000, nepc := 0, ncause := 0, timeh := 0, mpuBase := [], mpuLim := [], mpuCtl := 0, wait := .none, loads := [], stores := [], posted := [], postedErrs := [], seq := 0, rsv := none, claimStamp := 0, retired := 0, since := 0, lost := [] }, tag := 5, retired := 7, time := 3 },
    by decide +kernel⟩,
   ⟨onBoth (fun d => { d with lsc := { d.lsc with outcome := 2 } }) (onBoth (setFields [(LSC_STAT_PHASE,
    2)]) (atTime 16002 pair)), .ch .c0, .e0, .e1, by decide +kernel⟩,
   ⟨onBoth (fun d => { d with lsc := { d.lsc with outcome := 4, ck := some ⟨{ Core.reset with pc := 0x44 }, 5, 7, 3⟩, replay := some [] } })
    (onBoth (setFields [(LSC_STAT_PHASE, 3), (LSC_STAT_CKVALID, 1)]) (atTime 16100 pair)), .ch .c0, by decide +kernel⟩,
   ⟨chRg [(LSC_STAT_PHASE, 3)] pair, .ch .c0, by decide +kernel⟩,
   ⟨onBoth (fun d => { d with lsc := { d.lsc with outcome := 4, ck := some ⟨{ Core.reset with pc := 0x44 }, 5, 7, 3⟩, replay := some [] } })
    (onBoth (setFields [(LSC_STAT_PHASE, 3), (LSC_STAT_CKVALID, 1)]) (atTime 16100 pair)), .ch .c0, false, true,
    by decide +kernel⟩⟩

theorem witness_SafeTorqueOff :
    (∃ (x : Channel), x.elementA = true)
    ∧ (∃ (s : State) (c : Chan) (w : Word), (s.ch c).dom.inReset = false ∧ bitOf w 1 = true)
    ∧ (∃ (s : State) (c : Chan) (w : Word), (s.ch c).dom.inReset = false ∧ bitOf w 1 = false)
    ∧ (∃ (s : State) (c : Chan) (w : Word), (s.ch c).dom.inReset = false ∧ bitOf w 2 = true)
    ∧ (∃ (s : State) (c : Chan) (w : Word), (s.ch c).dom.inReset = false ∧ bitOf w 2 = false)
    ∧ (∃ (s : State) (c : Chan) (w : Word), (s.ch c).dom.inReset = false ∧ bitOf w 3 = true)
    ∧ (∃ (s : State) (c : Chan) (w : Word), (s.ch c).dom.inReset = false ∧ bitOf w 3 = false)
    ∧ (∃ (s : State) (c : Chan) (w : Word), (s.ch c).dom.inReset = false ∧ bitOf w 4 = true)
    ∧ (∃ (s : State) (c : Chan) (w : Word), (s.ch c).dom.inReset = false ∧ bitOf w 4 = false)
    ∧ (∃ (s : State) (c : Chan) (w : Word), (s.ch c).dom.inReset = false ∧ bitOf w 5 = true)
    ∧ (∃ (s : State) (c : Chan) (w : Word), (s.ch c).dom.inReset = false ∧ bitOf w 5 = false)
    ∧ (∃ (s : State) (c : Chan) (w : Word), (s.ch c).dom.inReset = false ∧ bitOf w 6 = true)
    ∧ (∃ (s : State) (c : Chan) (w : Word), (s.ch c).dom.inReset = false ∧ bitOf w 6 = false)
    ∧ (∃ (s : State) (c : Chan) (inB level : Bool), (s.ch c).dom.inReset = false ∧
      2 ≤ (s.ch c).rgN SYS_BOOTSTAT_PHASE ∧
      ((s.ch c).rgB (if inB = true then SAFE_STAT_STOB else SAFE_STAT_STOA) = level))
    ∧ (∃ (s : State) (c : Chan) (inB : Bool), HasRoom (s.ch c).dom 112 ∧ (s.ch c).dom.inReset = false ∧
      2 ≤ (s.ch c).rgN SYS_BOOTSTAT_PHASE ∧
      ((s.ch c).rgB (if inB = true then SAFE_STAT_STOB else SAFE_STAT_STOA) = true) ∧
      ((s.ch c).rgB (if inB = true then SAFE_STAT_STOA else SAFE_STAT_STOB) = true) ∧
      (s.ch c).lvB SAFE_STOCFG_INMODE = false)
    ∧ (∃ (s : State) (c : Chan) (inB : Bool), HasRoom (s.ch c).dom 113 ∧ (s.ch c).dom.inReset = false ∧
      2 ≤ (s.ch c).rgN SYS_BOOTSTAT_PHASE ∧
      ((s.ch c).rgB (if inB = true then SAFE_STAT_STOB else SAFE_STAT_STOA) = true) ∧
      ((s.ch c).rgB (if inB = true then SAFE_STAT_STOA else SAFE_STAT_STOB) = true) ∧
      (s.ch c).lvB SAFE_STOCFG_INMODE = true ∧ (s.ch c).rgN SAFE_STAT_SS1PH = 0)
    ∧ (∃ (s : State) (c : Chan) (inB : Bool), (s.ch c).dom.inReset = false ∧ 2 ≤ (s.ch c).rgN SYS_BOOTSTAT_PHASE ∧
      ((s.ch c).rgB (if inB = true then SAFE_STAT_STOB else SAFE_STAT_STOA) = false) ∧
      ((s.ch c).rgB (if inB = true then SAFE_STAT_STOA else SAFE_STAT_STOB) = true) ∧
      (s.ch c).rgB SAFE_STAT_DISCF = false ∧ (s.ch c).rgN SAFE_STAT_SS1PH = 0 ∧ (s.ch c).rgB SAFE_STAT_OSCF = false ∧
      (s.ch c).rgB SAFE_STAT_STOTF = false ∧ (s.ch c).kTrips = false ∧ (s.ch c).rgB SAFE_STAT_RESTWAIT = false ∧
      (s.ch c).lvB SAFE_STOCFG_MANREST = false)
    ∧ (∃ (s : State) (c : Chan) (inB : Bool), (s.ch c).dom.inReset = false ∧ 2 ≤ (s.ch c).rgN SYS_BOOTSTAT_PHASE ∧
      ((s.ch c).rgB (if inB = true then SAFE_STAT_STOB else SAFE_STAT_STOA) = false) ∧
      ((s.ch c).rgB (if inB = true then SAFE_STAT_STOA else SAFE_STAT_STOB) = true) ∧
      (s.ch c).rgB SAFE_STAT_DISCF = false ∧ (s.ch c).rgN SAFE_STAT_SS1PH = 0 ∧ (s.ch c).rgB SAFE_STAT_OSCF = false ∧
      (s.ch c).rgB SAFE_STAT_STOTF = false ∧ (s.ch c).kTrips = false ∧ (s.ch c).rgB SAFE_STAT_RESTWAIT = false ∧
      (s.ch c).lvB SAFE_STOCFG_MANREST = true ∧ (s.ch c).safe.cond ≠ 0)
    ∧ (∃ (s : State) (c : Chan) (inB : Bool), (s.ch c).dom.inReset = false ∧
      ((if inB = true then (s.ch c).safe.timerB else (s.ch c).safe.timerA).isSome = true))
    ∧ (∃ (s : State) (c : Chan) (inB : Bool), (s.ch c).dom.inReset = false ∧
      ((if inB = true then (s.ch c).safe.timerB else (s.ch c).safe.timerA) = none))
    ∧ (∃ (s : State) (c : Chan) (inB : Bool), HasRoom (s.ch c).dom 112 ∧ (s.ch c).dom.inReset = false ∧
      ((s.ch c).rgB (if inB = true then SAFE_STAT_STOB else SAFE_STAT_STOA) = false) ∧
      ((s.ch c).rgB (if inB = true then SAFE_STAT_STOA else SAFE_STAT_STOB) = true) ∧
      (s.ch c).rgB SAFE_STAT_DISCF = false)
    ∧ (∃ (s : State) (c : Chan), (s.ch c).dom.inReset = false ∧ (s.ch c).stoCond = 0 ∧ (s.ch c).safe.cond = 0)
    ∧ (∃ (s : State) (c : Chan), (s.ch c).dom.inReset = false ∧ (s.ch c).stoCond ≠ 0)
    ∧ (∃ (s : State) (c : Chan), (s.ch c).dom.inReset = false ∧ (s.ch c).rgB SAFE_STAT_STOA = false ∧
      (s.ch c).rgB SAFE_STAT_STOB = false ∧ (s.ch c).rgB SAFE_STAT_DISCF = false)
    ∧ (∃ (s : State) (c : Chan), (s.ch c).dom.inReset = false ∧
      ((s.ch c).rgB SAFE_STAT_STOA = true ∨ (s.ch c).rgB SAFE_STAT_STOB = true ∨ (s.ch c).rgB
      SAFE_STAT_DISCF = true ∨ (s.ch c).safe.testing = true))
    ∧ (∃ (s : State) (c : Chan), HasRoom (s.ch c).dom 112 ∧ (s.ch c).dom.inReset = false ∧
      (s.ch c).safe.testing = true)
    ∧ (∃ (s : State) (c : Chan), (s.ch c).dom.inReset = false ∧ (s.ch c).safe.testing = false)
    ∧ (∃ (s : State) (c : Chan) (first count : Nat), HasRoom (s.ch c).dom 115 ∧ (s.ch c).dom.inReset = false ∧
      first + count = (s.ch c).now ∧
      (¬(first < (s.ch c).dom.pll.srcAt ∨ (s.ch c).dom.pll.srcWas ≠ (s.ch c).dom.source)) ∧
      (s.ch c).rgB SAFE_STAT_OSCF = false ∧
      (((100 * count + 8 * if (s.ch c).rgB PLL_STAT_RC = true then 5000 else 20000) < 100 *
      if (s.ch c).rgB PLL_STAT_RC = true then 5000 else 20000) ∨ (108 * if (s.ch c).rgB PLL_STAT_RC
      = true then 5000 else 20000) < 100 * count))
    ∧ (∃ (s : State) (c : Chan) (first count : Nat), (s.ch c).dom.inReset = false ∧
      (first + count ≠ (s.ch c).now ∨ (first < (s.ch c).dom.pll.srcAt ∨ (s.ch c).dom.pll.srcWas
      ≠ (s.ch c).dom.source) ∨ (s.ch c).rgB SAFE_STAT_OSCF = true ∨ ¬(((100 * count + 8 * if
      (s.ch c).rgB PLL_STAT_RC = true then 5000 else 20000) < 100 * if (s.ch c).rgB PLL_STAT_RC
      = true then 5000 else 20000) ∨ (108 * if (s.ch c).rgB PLL_STAT_RC = true then 5000 else 20000) < 100 * count))) :=
  ⟨⟨start.c0, by decide +kernel⟩,
   ⟨start, .c0, 0x103, by decide +kernel⟩,
   ⟨start, .c0, 0x40, by decide +kernel⟩,
   ⟨start, .c0, 4, by decide +kernel⟩,
   ⟨start, .c0, 0x40, by decide +kernel⟩,
   ⟨start, .c0, 0x12345678, by decide +kernel⟩,
   ⟨start, .c0, 0x40, by decide +kernel⟩,
   ⟨start, .c0, 0x12345678, by decide +kernel⟩,
   ⟨start, .c0, 0x40, by decide +kernel⟩,
   ⟨start, .c0, 0x12345678, by decide +kernel⟩,
   ⟨start, .c0, 0x40, by decide +kernel⟩,
   ⟨start, .c0, 0x40, by decide +kernel⟩,
   ⟨start, .c0, 0x5A5A0001, by decide +kernel⟩,
   ⟨chRg [(SYS_BOOTSTAT_PHASE, 255)] (chRg [(SAFE_STAT_STOA, 1)] (chLive [(SAFE_STOCFG_MANREST, 1)] start)), .c0,
    false, true, by decide +kernel⟩,
   ⟨chRg [(SAFE_STAT_STOB, 1), (SYS_BOOTSTAT_PHASE, 3), (SAFE_STAT_STOA, 1)] single, .c0, false,
    hasRoom (by decide +kernel), by decide +kernel⟩,
   ⟨chLive [(SAFE_STOCFG_INMODE, 1)] (chRg [(SAFE_STAT_STOB, 1), (SYS_BOOTSTAT_PHASE, 10), (SAFE_STAT_STOA,
    1)] (onSafe (fun x => { x with testing := true }) start)), .c0, false, hasRoom (by decide +kernel),
    by decide +kernel⟩,
   ⟨chRg [(SAFE_STAT_STOB, 1), (SYS_BOOTSTAT_PHASE,
    47)] (onSafe (fun x => { x with started := true, cond := 0 }) (chLive [(SAFE_STOCFG_INMODE, 1)] start)), .c0,
    false, by decide +kernel⟩,
   ⟨chRg [(SYS_BOOTSTAT_PHASE, 255)] (chRg [(SAFE_STAT_STOA, 1)] (chLive [(SAFE_STOCFG_MANREST, 1)] start)), .c0,
    true, by decide +kernel⟩,
   ⟨onSafe (fun x => { x with timerA := some 5, timerB := some 0 }) start, .c0, false, by decide +kernel⟩,
   ⟨start, .c0, false, by decide +kernel⟩,
   ⟨chRg [(SAFE_STAT_STOA, 1)] (chLive [(SAFE_STOCFG_MANREST, 1)] start), .c0, true, hasRoom (by decide +kernel),
    by decide +kernel⟩,
   ⟨onSafe (fun x => { x with started := true, cond := 0 }) (chLive [(SAFE_STOCFG_INMODE, 1)] start), .c0,
    by decide +kernel⟩,
   ⟨start, .c0, by decide +kernel⟩,
   ⟨start, .c0, by decide +kernel⟩,
   ⟨onSafe (fun x => { x with testing := true }) start, .c0, by decide +kernel⟩,
   ⟨onSafe (fun x => { x with testing := true }) start, .c0, hasRoom (by decide +kernel), by decide +kernel⟩,
   ⟨start, .c0, by decide +kernel⟩,
   ⟨start, .c0, 0, 0, hasRoom (by decide +kernel), by decide +kernel⟩,
   ⟨start, .c0, 0, 1, by decide +kernel⟩⟩

theorem witness_SafeStopAndContactors :
    (∃ (s : State) (c : Chan) (w : Word), (s.ch c).dom.inReset = false ∧
      fget w SAFE_KCMD_OPEN.hi SAFE_KCMD_OPEN.lo ≠ 0)
    ∧ (∃ (s : State) (c : Chan) (w : Word), (s.ch c).dom.inReset = false ∧
      fget w SAFE_KCMD_OPEN.hi SAFE_KCMD_OPEN.lo = 0)
    ∧ (∃ (s : State) (c : Chan) (w : Word), (s.ch c).dom.inReset = false ∧
      fget w SAFE_KCMD_CLOSE.hi SAFE_KCMD_CLOSE.lo ≠ 0)
    ∧ (∃ (s : State) (c : Chan) (w : Word), (s.ch c).dom.inReset = false ∧
      fget w SAFE_KCMD_CLOSE.hi SAFE_KCMD_CLOSE.lo = 0)
    ∧ (∃ (s : State) (c : Chan), HasRoom (s.ch c).dom 113 ∧ (s.ch c).dom.inReset = false ∧
      (s.ch c).rgN SAFE_STAT_SS1PH = 0 ∧ (s.ch c).rgB SAFE_STAT_STODEM = false)
    ∧ (∃ (s : State) (c : Chan), (s.ch c).dom.inReset = false ∧
      ((s.ch c).rgN SAFE_STAT_SS1PH ≠ 0 ∨ (s.ch c).rgB SAFE_STAT_STODEM = true))
    ∧ (∃ (s : State) (c : Chan), (s.ch c).dom.inReset = false ∧ (s.ch c).rgN SAFE_STAT_SS1PH ≠ 0 ∧
      (s.ch c).safe.ss1In = false ∧ (s.ch c).rgB SAFE_STAT_STOA = true ∧ (s.ch c).rgB SAFE_STAT_STOB = true)
    ∧ (∃ (s : State) (c : Chan), (s.ch c).dom.inReset = false ∧
      ((s.ch c).safe.ss1In = true ∨ ¬((s.ch c).rgB SAFE_STAT_STOA = true ∧ (s.ch c).rgB SAFE_STAT_STOB = true)))
    ∧ (∃ (s : State) (c : Chan), HasRoom (s.ch c).dom 113 ∧ (s.ch c).dom.inReset = false ∧
      (s.ch c).rgN SAFE_STAT_SS1PH = 1)
    ∧ (∃ (s : State) (c : Chan), (s.ch c).dom.inReset = false ∧ (s.ch c).rgN SAFE_STAT_SS1PH ≠ 1)
    ∧ (∃ (s : State) (c : Chan) (q : BitVec 2), HasRoom (s.ch c).dom 114 ∧ (s.ch c).dom.inReset = false ∧
      q.toNat < 3 ∧ (s.ch c).lvB (SAFE_KCFG_EN q.toNat) = true ∧ (s.ch c).rgB (SAFE_STAT_KFAULT.bit q.toNat) = true)
    ∧ (∃ (s : State) (c : Chan) (q : BitVec 2) (level : Bool), (s.ch c).dom.inReset = false ∧ q.toNat < 3 ∧
      (s.ch c).lvB (SAFE_KCFG_EN q.toNat) = true ∧ 2 ≤ (s.ch c).rgN SYS_BOOTSTAT_PHASE ∧
      (s.ch c).rgB (SAFE_STAT_KFAULT.bit q.toNat) = false ∧
      (level != (s.ch c).lvB (SAFE_KCFG_FBPOL q.toNat)) = (s.ch c).rgB (SAFE_STAT_KCL.bit q.toNat))
    ∧ (∃ (s : State) (c : Chan) (q : BitVec 2) (level : Bool), HasRoom (s.ch c).dom 114 ∧
      (s.ch c).dom.inReset = false ∧ q.toNat < 3 ∧ (s.ch c).lvB (SAFE_KCFG_EN q.toNat) = true ∧
      2 ≤ (s.ch c).rgN SYS_BOOTSTAT_PHASE ∧ (s.ch c).rgB (SAFE_STAT_KFAULT.bit q.toNat) = false ∧
      (level != (s.ch c).lvB (SAFE_KCFG_FBPOL q.toNat)) ≠ (s.ch c).rgB (SAFE_STAT_KCL.bit q.toNat) ∧
      (s.ch c).safe.conf.getLsbD q.toNat = true)
    ∧ (∃ (s : State) (c : Chan) (q : BitVec 2) (level : Bool), (s.ch c).dom.inReset = false ∧ q.toNat < 3 ∧
      (s.ch c).lvB (SAFE_KCFG_EN q.toNat) = true ∧ 2 ≤ (s.ch c).rgN SYS_BOOTSTAT_PHASE ∧
      (s.ch c).rgB (SAFE_STAT_KFAULT.bit q.toNat) = false ∧
      (level != (s.ch c).lvB (SAFE_KCFG_FBPOL q.toNat)) ≠ (s.ch c).rgB (SAFE_STAT_KCL.bit q.toNat) ∧
      (s.ch c).safe.conf.getLsbD q.toNat = false)
    ∧ (∃ (s : State) (c : Chan) (q : BitVec 2), (s.ch c).dom.inReset = false ∧ q.toNat < 3 ∧
      (s.ch c).lvB (SAFE_KCFG_EN q.toNat) = true ∧ 2 ≤ (s.ch c).rgN SYS_BOOTSTAT_PHASE ∧
      (s.ch c).rgB (SAFE_STAT_KFAULT.bit q.toNat) = true)
    ∧ (∃ (s : State) (c : Chan) (q : BitVec 2), HasRoom (s.ch c).dom 114 ∧ (s.ch c).dom.inReset = false ∧
      q.toNat < 3 ∧ (s.ch c).lvB (SAFE_KCFG_EN q.toNat) = true ∧ (s.ch c).rgB (SAFE_STAT_KFAULT.bit q.toNat) = false ∧
      (s.ch c).safe.conf.getLsbD q.toNat = false)
    ∧ (∃ (s : State) (c : Chan) (q : BitVec 2), (s.ch c).dom.inReset = false ∧ q.toNat = 3)
    ∧ (∃ (s : State) (c : Chan) (w : Word), (s.ch c).dom.inReset = false ∧ BitVec.getLsbD w 2 = true ∧
      (List.filter (fun (e : Event) => e.src == 114) (s.ch c).dom.evq).length ≤ 1) :=
  ⟨⟨start, .c0, 8, by decide +kernel⟩,
   ⟨start, .c0, 0, by decide +kernel⟩,
   ⟨start, .c0, 1, by decide +kernel⟩,
   ⟨start, .c0, 0, by decide +kernel⟩,
   ⟨chRg [(SAFE_STAT_STODEM, 0)] single, .c0, hasRoom (by decide +kernel), by decide +kernel⟩,
   ⟨start, .c0, by decide +kernel⟩,
   ⟨chRg [(SAFE_STAT_SS1PH, 1), (SAFE_STAT_STOA, 1), (SAFE_STAT_STOB, 1)] start, .c0, by decide +kernel⟩,
   ⟨start, .c0, by decide +kernel⟩,
   ⟨chRg [(SAFE_STAT_SS1PH, 1), (SAFE_STAT_STOA, 1), (SAFE_STAT_STOB, 1)] start, .c0, hasRoom (by decide +kernel),
    by decide +kernel⟩,
   ⟨start, .c0, by decide +kernel⟩,
   ⟨chRg [(SAFE_STAT_KFAULT, 7)] (onSafe (fun x => { x with conf := 0 }) (chLive [(SAFE_KCFG_EN 2, 1)] start)), .c0,
    2, hasRoom (by decide +kernel), by decide +kernel⟩,
   ⟨chRg [(SYS_BOOTSTAT_PHASE, 255)] (onSafe (fun x => { x with conf := 0 }) (chLive [(SAFE_KCFG_EN 2, 1)] start)),
    .c0, 2, false, by decide +kernel⟩,
   ⟨chLive [(SAFE_KCFG_EN 0, 1)] (chRg [(SYS_BOOTSTAT_PHASE, 3)] start), .c0, 0, true, hasRoom (by decide +kernel),
    by decide +kernel⟩,
   ⟨chRg [(SYS_BOOTSTAT_PHASE, 255)] (onSafe (fun x => { x with conf := 0 }) (chLive [(SAFE_KCFG_EN 2, 1)] start)),
    .c0, 2, true, by decide +kernel⟩,
   ⟨chRg [(SAFE_STAT_KFAULT, 7), (SYS_BOOTSTAT_PHASE,
    3)] (onSafe (fun x => { x with conf := 0 }) (chLive [(SAFE_KCFG_EN 2, 1)] start)), .c0, 2, by decide +kernel⟩,
   ⟨onSafe (fun x => { x with conf := 0 }) (chLive [(SAFE_KCFG_EN 2, 1)] start), .c0, 2, hasRoom (by decide +kernel),
    by decide +kernel⟩,
   ⟨start, .c0, 3, by decide +kernel⟩,
   ⟨start, .c0, 4, by decide +kernel⟩⟩

theorem witness_PlausibilityHaltGuardAndConfiguration :
    (∃ (s : State) (c : Chan) (u v w : TpSample), (s.ch c).dom.inReset = false ∧ (s.ch c).safe.tpU = some u ∧
      (s.ch c).safe.tpV = some v ∧ (s.ch c).safe.tpW = some w ∧ (s.ch c).tpBlocked = false ∧
      (s.ch c).safe.tpNew.isSome = true ∧
      max u.h (max v.h w.h) - min u.h (min v.h w.h) ≤ 1000 * atLeast1 ((s.ch c).lvN SAFE_TPLIM_TPSPAN) ∧
      (s.ch c).lvB SAFE_TPCFG_TPWIN = true ∧ u.win = false ∧ v.win = false ∧ w.win = false)
    ∧ (∃ (s : State) (c : Chan), (s.ch c).dom.inReset = false ∧
      ((s.ch c).tpSamples = none ∨ (s.ch c).tpBlocked = true))
    ∧ (∃ (s : State) (c : Chan), HasRoom (s.ch c).dom 115 ∧ (s.ch c).dom.inReset = false ∧
      (s.ch c).dom.dbg.halted = true ∧ (s.ch c).rgB GDI_STAT_TPM = false ∧ (s.ch c).rgB SAFE_STAT_HGACT = false ∧
      ((s.ch c).lvB SAFE_HG_HGEN = true ∨ (s.ch c).rgB SAFE_STAT_LAB = false))
    ∧ (∃ (s : State) (c : Chan), (s.ch c).dom.inReset = false ∧ (s.ch c).dom.dbg.halted = false)
    ∧ (∃ (x : Channel), x.safe.tpLast + 1000 * atLeast1 (x.lvN SAFE_TPSTALE_TPSTALE) ≤ x.now ∧
      x.rgB SAFE_STAT_TPSUSP = false)
    ∧ (∃ (x : Channel), HasRoom x.dom 115 ∧ x.rgB SAFE_STAT_TPSUSP = true ∧ x.lvB SAFE_TPCFG_TPREQ = true ∧
      x.safe.tpTold = false ∧ x.safe.tpSince + 1000 * atLeast1 (x.lvN SAFE_TPSTALE_TPSTALE) ≤ x.now)
    ∧ (∃ (s : State) (c : Chan) (w : Word), (s.ch c).dom.inReset = false ∧ bitOf w 2 = true)
    ∧ (∃ (s : State) (c : Chan) (w : Word), (s.ch c).dom.inReset = false ∧ bitOf w 2 = false)
    ∧ (∃ (s : State) (c : Chan) (w : Word), (s.ch c).dom.inReset = false ∧ bitOf w 1 = true)
    ∧ (∃ (s : State) (c : Chan) (w : Word), (s.ch c).dom.inReset = false ∧ bitOf w 1 = false)
    ∧ (∃ (s : State) (c : Chan) (w : Word), (s.ch c).dom.inReset = false ∧ bitOf w 0 = true)
    ∧ (∃ (s : State) (c : Chan) (w : Word), (s.ch c).dom.inReset = false ∧ bitOf w 0 = false)
    ∧ (∃ (s : State) (c : Chan), (s.ch c).dom.inReset = false ∧ (s.ch c).rgB SAFE_STAT_LOCKOUT = true)
    ∧ (∃ (s : State) (c : Chan) (w : Word), HasRoom (s.ch c).dom 115 ∧ (s.ch c).dom.inReset = false ∧
      (s.ch c).rgB SAFE_STAT_LOCKOUT = false ∧ w = (s.ch c).safe.password)
    ∧ (∃ (s : State) (c : Chan) (w : Word), HasRoom (s.ch c).dom 115 ∧ (s.ch c).dom.inReset = false ∧
      (s.ch c).rgB SAFE_STAT_LOCKOUT = false ∧ w ≠ (s.ch c).safe.password ∧ (s.ch c).rgN SAFE_STAT_FAILCNT < 4)
    ∧ (∃ (s : State) (c : Chan), (s.ch c).dom.inReset = false ∧ (s.ch c).rgB SAFE_STAT_UNLOCKED = false)
    ∧ (∃ (s : State) (c : Chan), HasRoom (s.ch c).dom 115 ∧ (s.ch c).dom.inReset = false ∧
      (s.ch c).rgB SAFE_STAT_UNLOCKED = true ∧ (s.ch c).rgB SAFE_STAT_LAB = false)
    ∧ (∃ (s : State) (c : Chan), HasRoom (s.ch c).dom 115 ∧ (s.ch c).dom.inReset = false ∧
      (s.ch c).rgB SAFE_STAT_LAB = true)
    ∧ (∃ (s : State) (c : Chan) (e : List Word) (rest : List (List Word)), HasRoom (s.ch c).dom 115 ∧
      (s.ch c).dom.inReset = false ∧ s.dev.inhibit = false ∧ (s.ch c).safe.logQ = e :: rest)
    ∧ (∃ (s : State) (c : Chan), (s.ch c).dom.inReset = false ∧ s.dev.inhibit = false ∧ (s.ch c).safe.logQ = [])
    ∧ (∃ (s : State) (c : Chan), (s.ch c).dom.inReset = false ∧ s.dev.inhibit = true) :=
  ⟨⟨onSafe (fun x => { x with tpU := some ⟨5, 0, 0, false⟩, tpV := some ⟨6, 0, 1000, false⟩, tpW := some ⟨7, 0, 500, false⟩, tpNew := some 0 })
    (onPos (fun p => { p with encAv := true }) (chLive [(SAFE_TPCFG_TPEN, 1), (POS_CTL_SSRC, 1), (ADC_CTL_ROVMODE, 1),
    (SAFE_TPCFG_TPWIN, 1)] start)), .c0, { value := 5, angle := 0, h := 0, win := false },
    { value := 6, angle := 0, h := 1000, win := false }, { value := 7, angle := 0, h := 500, win := false },
    by decide +kernel⟩,
   ⟨start, .c0, by decide +kernel⟩,
   ⟨onChanDom (fun d => { d with dbg := { d.dbg with halted := true } }) (chLive [(SAFE_HG_HGEN, 1)] start), .c0,
    hasRoom (by decide +kernel), by decide +kernel⟩,
   ⟨start, .c0, by decide +kernel⟩,
   ⟨(chLive [(SAFE_TPSTALE_TPSTALE, 0)] (chRg [(SAFE_STAT_TPSUSP, 0)] (atTime 1000 start))).c0, by decide +kernel⟩,
   ⟨(chLive [(SAFE_TPSTALE_TPSTALE, 0)] (onSafe (fun x => { x with tpTold := false }) (chRg [(SAFE_STAT_TPSUSP,
    1)] (chLive [(SAFE_TPCFG_TPREQ, 1)] (atTime 1000 start))))).c0, hasRoom (by decide +kernel), by decide +kernel⟩,
   ⟨start, .c0, 4, by decide +kernel⟩,
   ⟨start, .c0, 0, by decide +kernel⟩,
   ⟨start, .c0, 2, by decide +kernel⟩,
   ⟨start, .c0, 0, by decide +kernel⟩,
   ⟨start, .c0, 1, by decide +kernel⟩,
   ⟨start, .c0, 0, by decide +kernel⟩,
   ⟨chRg [(SAFE_STAT_LOCKOUT, 1)] pair, .c0, by decide +kernel⟩,
   ⟨start, .c0, 0, hasRoom (by decide +kernel), by decide +kernel⟩,
   ⟨start, .c0, 1, hasRoom (by decide +kernel), by decide +kernel⟩,
   ⟨start, .c0, by decide +kernel⟩,
   ⟨chRg [(SAFE_STAT_UNLOCKED,
    1)] (onSafe (fun x => { x with tpU := some ⟨5, 0, 0, false⟩, tpV := some ⟨6, 0, 1000, false⟩, tpW := some ⟨7, 0, 500, false⟩, tpNew := some 0 })
    (onPos (fun p => { p with encAv := true }) (chLive [(SAFE_TPCFG_TPEN, 1), (POS_CTL_SSRC, 1), (ADC_CTL_ROVMODE, 1),
    (SAFE_TPCFG_TPWIN, 1)] start))), .c0, hasRoom (by decide +kernel), by decide +kernel⟩,
   ⟨chRg [(SAFE_STAT_LAB,
    1)] (onSafe (fun x => { x with tpU := some ⟨5, 0, 0, true⟩, tpV := some ⟨6, 0, 1000, true⟩, tpW := some ⟨7, 0, 500, true⟩, tpNew := some 0 })
    (onPos (fun p => { p with encAv := true }) (chLive [(SAFE_TPCFG_TPEN, 1), (POS_CTL_SSRC, 1), (ADC_CTL_ROVMODE,
    1)] start))), .c0, hasRoom (by decide +kernel), by decide +kernel⟩,
   ⟨onSafe (fun x => { x with logQ := [[1, 2, 3, 4]] }) start, .c0, [1, 2, 3, 4], [], hasRoom (by decide +kernel),
    by decide +kernel⟩,
   ⟨start, .c0, by decide +kernel⟩,
   ⟨{ start with dev := { start.dev with inhibit := true } }, .c0, by decide +kernel⟩⟩

theorem witness_HeatSparesAndWear :
    (∃ (s : State) (d : Dom) (sensor : BitVec 2), Placed s ∧ (s.dom d).rs.thermal = false ∧
      sensor.toNat ∈ (s.dom d).sensors)
    ∧ (∃ (s : State) (d : Dom), Placed s ∧ (s.dom d).rs.thermal = true)
    ∧ (∃ (s : State) (d : Dom), Placed s ∧
      (s.dom d).rs = { supply := false, pin := false, soft := false, thermal := true } ∧
      (s.dom d).rgN THM_SDSTAT_SDCNT ≤ (s.dom d).rgN THM_SDCFG_SDMAX)
    ∧ (∃ (s : State) (d : Dom), Placed s ∧
      ((s.dom d).rgN THM_SDCFG_SDMAX < (s.dom d).rgN THM_SDSTAT_SDCNT ∨ (s.dom d).rs.thermal = false))
    ∧ (∃ (s : State) (d : Dom) (w : Word), Placed s ∧ (s.dom d).inReset = false ∧ bitOf w 8 = false)
    ∧ (∃ (s : State) (d : Dom) (w : Word), Placed s ∧ (s.dom d).inReset = false ∧ bitOf w 8 = true)
    ∧ (∃ (s : State) (c : Chan) (b : BitVec 5), Placed s ∧ (s.ch c).dom.inReset = false ∧ b.toNat ≤ 18 ∧
      (s.ch c).rgB (SPR_GFAIL_FAIL.bit b.toNat) = false ∧
      ((if b.toNat = 18 then (s.ch c).pwm.genAt else sget 0 (s.ch c).pwm.gateAt b.toNat / 32)
      + (s.ch c).rbwin ≤ (s.ch c).now) ∧ sget 0 (s.ch c).dom.spr.stageAt b.toNat + (s.ch c).rbwin ≤ (s.ch c).now + 1)
    ∧ (∃ (s : State) (c : Chan) (b : BitVec 5), Placed s ∧ (s.ch c).dom.inReset = false ∧
      (18 < b.toNat ∨ (s.ch c).rgB (SPR_GFAIL_FAIL.bit b.toNat) = true ∨ (s.ch c).now < (if
      b.toNat = 18 then (s.ch c).pwm.genAt else sget 0 (s.ch c).pwm.gateAt b.toNat / 32) + (s.ch c).rbwin))
    ∧ (∃ (s : State) (c : Chan) (i at_ : Nat), Placed s ∧ (s.ch c).dom.inReset = false ∧
      (s.ch c).dom.spr.test = some (i, at_) ∧ i < 7 ∧ at_ + 4009 ≤ (s.ch c).now)
    ∧ (∃ (s : State) (c : Chan), Placed s ∧ ((s.ch c).dom.spr.test = none ∨ ∃ (i : Nat), ∃ (at_ : Nat),
      (s.ch c).dom.spr.test = some (i, at_) ∧ (s.ch c).now < at_ + 4009) ∧ (s.ch c).dom.inReset = false)
    ∧ (∃ (s : State) (c : Chan) (k : Bank) (off : BitVec 16), Placed s ∧ (s.ch c).dom.inReset = false ∧
      isPlanKey (131072 + 65536 * Bank.idx k + off.toNat) = true)
    ∧ (∃ (s : State) (c : Chan) (k : Bank) (off : BitVec 16), Placed s ∧ (s.ch c).dom.inReset = false ∧
      isPlanKey (131072 + 65536 * Bank.idx k + off.toNat) = false)
    ∧ (∃ (s : State) (c : Chan) (w : Word), Placed s ∧ (s.ch c).dom.inReset = false ∧ fget w 10 8 ≠ 1)
    ∧ (∃ (s : State) (c : Chan) (w : Word), Placed s ∧ (s.ch c).dom.inReset = false ∧ fget w 10 8 ≠ 2)
    ∧ (∃ (s : State) (c : Chan) (w : Word), Placed s ∧ (s.ch c).dom.inReset = false ∧ fget w 10 8 = 1 ∧
      BitVec.toNat (fget w 4 0) ≤ 18)
    ∧ (∃ (s : State) (c : Chan) (w : Word), Placed s ∧ (s.ch c).dom.inReset = false ∧ fget w 10 8 = 2 ∧
      BitVec.toNat (fget w 4 0) ≤ 6)
    ∧ (∃ (s : State) (d : Dom) (m : RowMem) (row : Nat), Placed s ∧ (s.dom d).inReset = false ∧ (RowMem.idx m,
      row) ∈ (s.dom d).spr.fixing)
    ∧ (∃ (s : State) (d : Dom) (m : RowMem) (row : Nat), Placed s ∧ (s.dom d).inReset = false ∧ ¬(RowMem.idx m,
      row) ∈ (s.dom d).spr.fixing)
    ∧ (∃ (s : State) (d : Dom), Placed s ∧ (s.dom d).inReset = false ∧ (s.dom d).rgB SPR_CTL_MARGIN = true)
    ∧ (∃ (s : State) (d : Dom), Placed s ∧ (s.dom d).inReset = false ∧ (s.dom d).rgB SPR_CTL_MARGIN = false)
    ∧ (∃ (s : State) (d : Dom) (w : Word), Placed s ∧ (s.dom d).inReset = false ∧ s.dev.inhibit = false ∧
      fget w 10 8 = 3)
    ∧ (∃ (s : State) (d : Dom) (w : Word), Placed s ∧ (s.dom d).inReset = false ∧ fget w 10 8 ≠ 3)
    ∧ (∃ (s : State) (d : Dom), Placed s ∧ (s.dom d).inReset = false ∧ s.dev.inhibit = true)
    ∧ (∃ (x : Channel) (n : Nat), n ≤ 18 ∧ x.dom.spr.bad.getLsbD n = false)
    ∧ (∃ (x : Channel) (n : Nat), HasRoom x.dom 125 ∧ n ≤ 18 ∧ x.dom.spr.bad.getLsbD n = true ∧
      x.rgB (SPR_GRET_RET.bit n) = false)
    ∧ (∃ (x : Channel) (n : Nat), HasRoom x.dom 125 ∧ n ≤ 18 ∧ x.dom.spr.bad.getLsbD n = true ∧
      x.rgB (SPR_GRET_RET.bit n) = true)
    ∧ (∃ (x : Channel) (n : Nat), n ≤ 18 ∧ x.dom.spr.bad.getLsbD n = true ∧ x.rgB (SPR_GRET_RET.bit n) = true ∧
      x.rgB SPR_CTL_BALLTRIP = true) :=
  ⟨⟨start, .ch .c0, 0, placed (by decide +kernel), by decide +kernel⟩,
   ⟨inResets ⟨false, false, false, true⟩ ⟨false, false, false, true⟩ start, .ch .c0, placed (by decide +kernel),
    by decide +kernel⟩,
   ⟨inResets ⟨false, false, false, true⟩ ⟨false, false, false, true⟩ start, .ch .c0, placed (by decide +kernel),
    by decide +kernel⟩,
   ⟨start, .ch .c0, placed (by decide +kernel), by decide +kernel⟩,
   ⟨start, .ch .c0, 0, placed (by decide +kernel), by decide +kernel⟩,
   ⟨start, .ch .c0, 0x100, placed (by decide +kernel), by decide +kernel⟩,
   ⟨onChanDom (fun d => { d with spr := { d.spr with change := 0x40001, test := some (6, 0), fixing := [(1, 5)] } })
    (atTime 4009 start), .c0, 0, placed (by decide +kernel), by decide +kernel⟩,
   ⟨start, .c0, 0, placed (by decide +kernel), by decide +kernel⟩,
   ⟨onChanDom (fun d => { d with spr := { d.spr with change := 0x40001, test := some (6, 0), fixing := [(1, 5)] } })
    (atTime 4009 start), .c0, 6, 0, placed (by decide +kernel), by decide +kernel⟩,
   ⟨start, .c0, placed (by decide +kernel), .inl (by decide +kernel), by decide +kernel⟩,
   ⟨start, .c0, .safe, 0, placed (by decide +kernel), by decide +kernel⟩,
   ⟨start, .c0, .safe, 0x8000, placed (by decide +kernel), by decide +kernel⟩,
   ⟨start, .c0, 0x12345678, placed (by decide +kernel), by decide +kernel⟩,
   ⟨start, .c0, 0x12345678, placed (by decide +kernel), by decide +kernel⟩,
   ⟨start, .c0, 0x20000123, placed (by decide +kernel), by decide +kernel⟩,
   ⟨start, .c0, 0x203, placed (by decide +kernel), by decide +kernel⟩,
   ⟨onChanDom (fun d => { d with spr := { d.spr with change := 0x40001, test := some (6, 0), fixing := [(1, 5)] } })
    (atTime 4009 start), .ch .c0, .casProg, 5, placed (by decide +kernel), by decide +kernel⟩,
   ⟨start, .ch .c0, .casProg, 1000, placed (by decide +kernel), by decide +kernel⟩,
   ⟨start, .ch .c0, placed (by decide +kernel), by decide +kernel⟩,
   ⟨chRg [(SPR_CTL_MARGIN,
    0)] (onChanDom (fun d => { d with spr := { d.spr with change := 0x40001, test := some (6, 0), fixing := [(1, 5)] } })
    (atTime 4009 start)), .ch .c0, placed (by decide +kernel), by decide +kernel⟩,
   ⟨start, .host, 0x300, placed (by decide +kernel), by decide +kernel⟩,
   ⟨start, .ch .c0, 0x12345678, placed (by decide +kernel), by decide +kernel⟩,
   ⟨{ start with dev := { start.dev with inhibit := true } }, .ch .c0, placed (by decide +kernel), by decide +kernel⟩,
   ⟨start.c0, 0, by decide +kernel⟩,
   ⟨(onChanDom (fun d => { d with spr := { d.spr with bad := 0x7FFFF } }) (chRg [] start)).c0, 0,
    hasRoom (by decide +kernel), by decide +kernel⟩,
   ⟨(onChanDom (fun d => { d with spr := { d.spr with bad := 0x7FFFF } }) (chRg [(SPR_GRET_RET, 0x7FFFF)] start)).c0,
    0, hasRoom (by decide +kernel), by decide +kernel⟩,
   ⟨(onChanDom (fun d => { d with spr := { d.spr with bad := 0x7FFFF } }) (chRg [(SPR_GRET_RET, 0x7FFFF)] start)).c0,
    0, by decide +kernel⟩⟩

theorem witness_RingPortsAndLinks :
    (∃ (s : State) (p : Port), HasRoom s.host.dom (16 + portCode p) ∧ s.host.dom.inReset = false ∧
      s.host.dom.rgB RING_CTL_PORTEN = true ∧ s.host.dom.rgN (linkFld p) = 0)
    ∧ (∃ (s : State) (p : Port), HasRoom s.host.dom (16 + portCode p) ∧ s.host.dom.inReset = false ∧
      s.host.dom.rgB RING_CTL_PORTEN = true ∧ s.host.dom.rgN (linkFld p) = 1)
    ∧ (∃ (s : State) (p : Port), HasRoom s.host.dom (16 + portCode p) ∧ s.host.dom.inReset = false ∧
      s.host.dom.rgB RING_CTL_PORTEN = true ∧ s.host.dom.rgN (linkFld p) ≠ 0)
    ∧ (∃ (s : State) (p : Port), HasRoom s.host.dom 18 ∧ s.host.dom.inReset = false ∧
      s.host.dom.rgB (wrapFld p) = true ∧ s.host.dom.rgN (linkFld p) = 2 ∧
      (s.host.ring.port p).upAt + 400 * atLeast1 (s.host.dom.rgN RING_UNWRAP_UNWRAPT) ≤ s.host.dom.time ∧
      (s.host.ring.port p).free ≤ s.host.dom.time)
    ∧ (∃ (s : State), s.host.dom.rgB RING_STAT_BYPASS ≠ s.bypassClosed)
    ∧ (∃ (s : State), s.host.dom.rgB RING_STAT_BYPASS = s.bypassClosed) :=
  ⟨⟨hostRg [(RING_CTL_PORTEN, 1)] start, .a, hasRoom (by decide +kernel), by decide +kernel⟩,
   ⟨hostRg [(RING_STAT_LINKB, 1)] (onRing (fun r => { r with a := { r.a with upAt := 0 } }) (hostRg [(RING_STAT_WRAPA,
    1)] (atTime 1000000 (ringUp start)))), .b, hasRoom (by decide +kernel), by decide +kernel⟩,
   ⟨onRing (fun r => { r with a := { r.a with upAt := 0 } }) (hostRg [(RING_STAT_WRAPA,
    1)] (atTime 1000000 (ringUp start))), .a, hasRoom (by decide +kernel), by decide +kernel⟩,
   ⟨hostRg [(RING_UNWRAP_UNWRAPT,
    0)] (onRing (fun r => { r with a := { r.a with upAt := 0 } }) (hostRg [(RING_STAT_WRAPA,
    1)] (atTime 1000000 (ringUp start)))), .a, hasRoom (by decide +kernel), by decide +kernel⟩,
   ⟨onRing (fun r => { r with a := { r.a with upAt := 0 } }) (hostRg [(RING_STAT_WRAPA,
    1)] (atTime 1000000 (ringUp start))), by decide +kernel⟩,
   ⟨start, by decide +kernel⟩⟩

theorem witness_RingFrames :
    (∃ (s : State) (p : Port) (f : List Byte), HasRoom s.host.dom 27 ∧ s.host.dom.inReset = false ∧
      s.host.enabled = true ∧ s.host.dom.rgN (linkFld p) = 2 ∧ hcrcOk f = false)
    ∧ (∃ (s : State) (p : Port) (f : List Byte), s.host.dom.inReset = false ∧ s.host.enabled = true ∧
      s.host.dom.rgN (linkFld p) = 2 ∧ hcrcOk f = true ∧ fType f ≠ 1 ∧ fType f ≠ 5 ∧ fBroadcast f = false ∧
      isNeighbour f = false ∧ fDst f = s.host.node ∧ wellFormedFrame f = true ∧ pcrcOk f = true ∧
      (fType f = 6 → fSub f = 4))
    ∧ (∃ (s : State) (p : Port) (f : List Byte), HasRoom s.host.dom 50 ∧ s.host.dom.inReset = false ∧
      s.host.enabled = true ∧ s.host.dom.rgN (linkFld p) = 2 ∧ hcrcOk f = true ∧ fType f ≠ 1 ∧ fType f ≠ 5 ∧
      fBroadcast f = false ∧ isNeighbour f = false ∧ fDst f = s.host.node ∧ wellFormedFrame f = true ∧
      pcrcOk f = true ∧ fType f = 6 ∧ (fSub f = 0 ∨ fSub f = 3 ∨ 4 < fSub f))
    ∧ (∃ (s : State) (p : Port) (f : List Byte), HasRoom s.host.dom 27 ∧ s.host.dom.inReset = false ∧
      s.host.enabled = true ∧ s.host.dom.rgN (linkFld p) = 2 ∧ hcrcOk f = true ∧ fType f ≠ 1 ∧ fType f ≠ 5 ∧
      fBroadcast f = false ∧ isNeighbour f = false ∧ fDst f = s.host.node ∧ wellFormedFrame f = true ∧
      pcrcOk f = false)
    ∧ (∃ (s : State) (p : Port) (f : List Byte), HasRoom s.host.dom 27 ∧ s.host.dom.inReset = false ∧
      s.host.enabled = true ∧ s.host.dom.rgN (linkFld p) = 2 ∧ hcrcOk f = true ∧ fType f ≠ 1 ∧ fType f ≠ 5 ∧
      fBroadcast f = false ∧ isNeighbour f = false ∧ fDst f ≠ s.host.node ∧ fHops f = 0)
    ∧ (∃ (s : State) (p : Port) (f : List Byte), s.host.dom.inReset = false ∧ s.host.enabled = true ∧
      s.host.dom.rgN (linkFld p) = 2 ∧ hcrcOk f = true ∧ fType f ≠ 1 ∧ fType f ≠ 5 ∧ fBroadcast f = false ∧
      isNeighbour f = false ∧ fDst f ≠ s.host.node ∧ fHops f ≠ 0 ∧ s.host.dom.rgB (wrapFld (otherPort p)) = false ∧
      s.host.dom.rgN (linkFld (otherPort p)) = 2 ∧ (s.host.ring.port (otherPort p)).free ≤ s.host.dom.time ∧
      (s.host.ring.port (otherPort p)).fwd = [])
    ∧ (∃ (s : State) (p : Port) (f : List Byte), s.host.dom.inReset = false ∧ s.host.enabled = true ∧
      s.host.dom.rgN (linkFld p) = 2 ∧ hcrcOk f = true ∧ fType f ≠ 1 ∧ fType f ≠ 5 ∧ fBroadcast f = false ∧
      isNeighbour f = false ∧ fDst f ≠ s.host.node ∧ fHops f ≠ 0 ∧ s.host.dom.rgB (wrapFld (otherPort p)) = false ∧
      s.host.dom.rgN (linkFld (otherPort p)) = 2 ∧ s.host.dom.time < (s.host.ring.port (otherPort p)).free)
    ∧ (∃ (s : State) (p : Port) (f : List Byte) (rest : List (Port × List Byte)), s.host.dom.inReset = false ∧
      s.host.enabled = true ∧ s.host.dom.rgN (linkFld p) = 2 ∧ s.host.dom.rgB RING_STAT_DUPID = false ∧
      s.host.dom.rgB (wrapFld p) = false ∧ (s.host.ring.port p).free ≤ s.host.dom.time ∧
      (s.host.ring.port p).fwd = [] ∧ s.host.ring.mine = (p, f) :: rest ∧ frameClass f = 0 ∧
      s.host.windowOpen p f.length = true)
    ∧ (∃ (s : State) (p : Port) (w : Want), s.host.dom.inReset = false ∧ s.host.enabled = true ∧
      s.host.dom.rgN (linkFld p) = 2 ∧ s.host.dom.rgB RING_STAT_DUPID = false ∧ s.host.dom.rgB (wrapFld p) = false ∧
      (s.host.ring.port p).free ≤ s.host.dom.time ∧ (s.host.ring.port p).fwd = [] ∧ s.host.ring.mine = [] ∧
      s.host.ring.reqs = [] ∧ s.nextWant p = some w ∧
      s.host.windowOpen p (s.host.reqFrame p { tag := s.host.ring.nextTag, d := w.d, e := w.e, seq := w.seq, write := w.write, node := ringNode w.addr, off := ringOff w.addr, data := w.data, sent := some s.host.dom.time, tries := 0, reply := none }).length
      = true)
    ∧ (∃ (s : State) (p : Port), s.host.dom.inReset = false ∧ s.host.enabled = true ∧ s.host.dom.rgN (linkFld p) = 2 ∧
      s.host.dom.rgB RING_STAT_DUPID = false ∧ s.host.dom.rgB (wrapFld p) = false ∧
      (s.host.ring.port p).free ≤ s.host.dom.time ∧ (s.host.ring.port p).fwd = [] ∧ s.nextFrame p = none) :=
  ⟨⟨ringUp start, .a, frameOwnBadHead, hasRoom (by decide +kernel), by decide +kernel⟩,
   ⟨ringUp start, .a, frameMine, by decide +kernel⟩,
   ⟨ringUp start, .a, frameOwn, hasRoom (by decide +kernel), by decide +kernel⟩,
   ⟨ringUp start, .a, frameOwnBadPayload, hasRoom (by decide +kernel), by decide +kernel⟩,
   ⟨ringUp start, .a, frameNoHops, hasRoom (by decide +kernel), by decide +kernel⟩,
   ⟨ringUp start, .a, frameOther, by decide +kernel⟩,
   ⟨onRing (fun r => { r with a := { r.a with free := 100 }, b := { r.b with free := 100 } }) (ringUp start), .a,
    frameOther, by decide +kernel⟩,
   ⟨atTime 5000 (onRing (fun r => { r with mine := [(.a, frameMine)], t2 := 130000 }) (ringUp start)), .a, frameMine,
    [], by decide +kernel⟩,
   ⟨atTime 5000 (onRing (fun r => { r with t2 := 130000 }) (ringUp (onBoth (fun d => { d with e0 := { d.e0 with loads := [⟨0, 0, 3, 0x65000010, 4, false, .deviceRelaxed⟩] } })
    pair))), .a, { d := .ch .c0, e := .e0, seq := 0, write := false, addr := 1694498832, data := 0 },
    by decide +kernel⟩,
   ⟨ringUp start, .a, by decide +kernel⟩⟩

theorem witness_RingCyclesAndTime :
    (∃ (x : HostDom), HasRoom x.dom 22)
    ∧ (∃ (x : HostDom), (x.rgB RING_CTL_CMASTER = false ∨ x.rgB RING_STAT_WRAPA = false ∧
      x.rgB RING_STAT_WRAPB = false))
    ∧ (∃ (x : HostDom), HasRoom x.dom 24 ∧ x.ring.seen = false)
    ∧ (∃ (x : HostDom), HasRoom x.dom 20 ∧ x.rgB RING_STAT_RTVALID = true ∧
      x.cycleBegin.rgB RING_STAT_RTVALID = false)
    ∧ (∃ (s : State), s.host.dom.inReset = false ∧ s.host.cycleDue = true ∧ s.host.ring.seen = false)
    ∧ (∃ (s : State), s.host.dom.inReset = false ∧ s.host.cycleDue = true ∧ s.host.dom.rgB RING_STAT_RTVALID = true ∧
      s.host.dom.rgB RING_CTL_CMASTER = false ∧ s.host.ring.timed = false ∧ 15 ≤ s.host.ring.noTime)
    ∧ (∃ (s : State), s.host.cycleDue = false)
    ∧ (∃ (s : State), s.host.dom.inReset = false ∧ s.host.enabled = true ∧ s.host.ring.txReady = false ∧
      s.host.cycPer ≤ s.host.rt % s.host.cycPer + s.host.dom.rgN RING_CFRM_CPREP)
    ∧ (∃ (s : State), s.host.dom.inReset = false ∧ s.host.enabled = true ∧ s.host.ring.txFresh = false ∧
      (s.host.ring.txReady = true ∨ ¬s.host.cycPer ≤ s.host.rt % s.host.cycPer + s.host.dom.rgN RING_CFRM_CPREP))
    ∧ (∃ (s : State) (p : Port) (f : List Byte), s.host.dom.inReset = false ∧ s.host.enabled = true ∧
      s.host.dom.rgN (linkFld p) = 2 ∧ hcrcOk f = false ∧ fType f = 5)
    ∧ (∃ (s : State) (p : Port) (f : List Byte), s.host.dom.inReset = false ∧ s.host.enabled = true ∧
      s.host.dom.rgN (linkFld p) = 2 ∧ hcrcOk f = false ∧ fType f = 1)
    ∧ (∃ (s : State) (p : Port) (f : List Byte), s.host.dom.inReset = false ∧ s.host.enabled = true ∧
      s.host.dom.rgN (linkFld p) = 2 ∧ hcrcOk f = true ∧ wellFormedFrame f = true ∧ pcrcOk f = true ∧ fType f = 1 ∧
      fSrc f = s.host.node ∧ fWraps f ≠ 1)
    ∧ (∃ (s : State) (p : Port) (f : List Byte), s.host.dom.inReset = false ∧ s.host.enabled = true ∧
      s.host.dom.rgN (linkFld p) = 2 ∧ hcrcOk f = true ∧ wellFormedFrame f = true ∧ pcrcOk f = true ∧ fType f = 1 ∧
      fSrc f ≠ s.host.node ∧ fHops f ≠ 0)
    ∧ (∃ (s : State) (q : BitVec 4) (e : CopyEntry), s.host.dom.inReset = false ∧ s.host.copyEntry q.toNat = some e ∧
      e.rx = true ∧ sget [] s.host.ring.rx q.toNat ≠ [] ∧ e.unit = 4)
    ∧ (∃ (s : State) (q : BitVec 4) (e : CopyEntry), s.host.dom.inReset = false ∧ s.host.copyEntry q.toNat = some e ∧
      e.rx = true ∧ sget [] s.host.ring.rx q.toNat ≠ [] ∧ e.unit < 4 ∧ (s.ch (chanOf e.unit)).dom.inReset = false)
    ∧ (∃ (s : State) (p : Port) (f : List Byte), s.host.dom.inReset = false ∧ s.host.enabled = true ∧
      s.host.dom.rgN (linkFld p) = 2 ∧ hcrcOk f = true ∧ wellFormedFrame f = true ∧ pcrcOk f = true ∧ fType f = 5 ∧
      fSrc f ≠ s.host.node ∧ fHops f ≠ 0 ∧ s.host.dom.rgB RING_CTL_CMASTER = true)
    ∧ (∃ (s : State) (p : Port) (f : List Byte), s.host.dom.inReset = false ∧ s.host.enabled = true ∧
      s.host.dom.rgN (linkFld p) = 2 ∧ hcrcOk f = true ∧ wellFormedFrame f = true ∧ pcrcOk f = true ∧ fType f = 5 ∧
      fSrc f ≠ s.host.node ∧ fHops f ≠ 0 ∧ s.host.dom.rgB RING_CTL_CMASTER = false ∧ s.host.ring.timed = false ∧
      ((↑(BitVec.toNat ((payloadWords f).getD 0 0) + 4294967296 * BitVec.toNat ((payloadWords
      f).getD 1 0)) : Int) + (↑(BitVec.toNat ((payloadWords f).getD 2 0) + s.host.dom.rgN (delayFld
      p)) : Int) - (↑s.host.rt : Int)).natAbs ≤ 1000)
    ∧ (∃ (s : State) (p : Port) (f : List Byte), s.host.dom.inReset = false ∧ s.host.enabled = true ∧
      s.host.dom.rgN (linkFld p) = 2 ∧ hcrcOk f = true ∧ wellFormedFrame f = true ∧ pcrcOk f = true ∧ fType f = 5 ∧
      fSrc f ≠ s.host.node ∧ fHops f ≠ 0 ∧ s.host.dom.rgB RING_CTL_CMASTER = false ∧ s.host.ring.timed = false ∧
      1000 < ((↑(BitVec.toNat ((payloadWords f).getD 0 0) + 4294967296 * BitVec.toNat ((payloadWords
      f).getD 1 0)) : Int) + (↑(BitVec.toNat ((payloadWords f).getD 2 0) + s.host.dom.rgN (delayFld
      p)) : Int) - (↑s.host.rt : Int)).natAbs)
    ∧ (∃ (s : State) (n : Chan), (s.ch n).dom.inReset = false) :=
  ⟨⟨start.host, hasRoom (by decide +kernel)⟩,
   ⟨start.host, by decide +kernel⟩,
   ⟨start.host, hasRoom (by decide +kernel), by decide +kernel⟩,
   ⟨(hostRg [(RING_STAT_RTVALID,
    1)] (onRing (fun r => { r with t2 := 130000, noTime := 16, rx := [(0, [5, 6]), (1, [7])] })
    (hostRg [(RING_CMAP_A_EN 0, 1), (RING_CMAP_A_DIR 0, 1), (RING_CMAP_A_UNIT 0, 4), (RING_CMAP_B_NW 0, 2),
    (RING_CMAP_A_EN 1, 1), (RING_CMAP_A_DIR 1, 1), (RING_CMAP_B_NW 1, 1)] (ringUp start)))).host,
    hasRoom (by decide +kernel), by decide +kernel⟩,
   ⟨hostRg [(RING_CYC_CYCPER, 0)] (hostRg [(RING_CTL_CMASTER,
    1)] (onRing (fun r => { r with t2 := 99998, noTime := 16, rx := [(0, [5, 6]), (1, [7])] })
    (hostRg [(RING_CMAP_A_EN 0, 1), (RING_CMAP_A_DIR 0, 1), (RING_CMAP_A_UNIT 0, 4), (RING_CMAP_B_NW 0, 2),
    (RING_CMAP_A_EN 1, 1), (RING_CMAP_A_DIR 1, 1), (RING_CMAP_B_NW 1, 1)] (ringUp start)))), by decide +kernel⟩,
   ⟨hostRg [(RING_CYC_CYCPER, 2)] (hostRg [(RING_STAT_RTVALID,
    1)] (onRing (fun r => { r with t2 := 99998, noTime := 16, rx := [(0, [5, 6]), (1, [7])] })
    (hostRg [(RING_CMAP_A_EN 0, 1), (RING_CMAP_A_DIR 0, 1), (RING_CMAP_A_UNIT 0, 4), (RING_CMAP_B_NW 0, 2),
    (RING_CMAP_A_EN 1, 1), (RING_CMAP_A_DIR 1, 1), (RING_CMAP_B_NW 1, 1)] (ringUp start)))), by decide +kernel⟩,
   ⟨start, by decide +kernel⟩,
   ⟨hostRg [(RING_CFRM_CPREP,
    65535)] (onRing (fun r => { r with t2 := 130000, noTime := 16, rx := [(0, [5, 6]), (1, [7])] })
    (hostRg [(RING_CMAP_A_EN 0, 1), (RING_CMAP_A_DIR 0, 1), (RING_CMAP_A_UNIT 0, 4), (RING_CMAP_B_NW 0, 2),
    (RING_CMAP_A_EN 1, 1), (RING_CMAP_A_DIR 1, 1), (RING_CMAP_B_NW 1, 1)] (ringUp start))), by decide +kernel⟩,
   ⟨onRing (fun r => { r with t2 := 130000, noTime := 16, rx := [(0, [5, 6]), (1, [7])] }) (hostRg [(RING_CMAP_A_EN 0,
    1), (RING_CMAP_A_DIR 0, 1), (RING_CMAP_A_UNIT 0, 4), (RING_CMAP_B_NW 0, 2), (RING_CMAP_A_EN 1, 1),
    (RING_CMAP_A_DIR 1, 1), (RING_CMAP_B_NW 1, 1)] (ringUp start)), by decide +kernel⟩,
   ⟨onRing (fun r => { r with t2 := 130000, noTime := 16, rx := [(0, [5, 6]), (1, [7])] }) (hostRg [(RING_CMAP_A_EN 0,
    1), (RING_CMAP_A_DIR 0, 1), (RING_CMAP_A_UNIT 0, 4), (RING_CMAP_B_NW 0, 2), (RING_CMAP_A_EN 1, 1),
    (RING_CMAP_A_DIR 1, 1), (RING_CMAP_B_NW 1, 1)] (ringUp start)), .a, frameTimeBad, by decide +kernel⟩,
   ⟨onRing (fun r => { r with t2 := 130000, noTime := 16, rx := [(0, [5, 6]), (1, [7])] }) (hostRg [(RING_CMAP_A_EN 0,
    1), (RING_CMAP_A_DIR 0, 1), (RING_CMAP_A_UNIT 0, 4), (RING_CMAP_B_NW 0, 2), (RING_CMAP_A_EN 1, 1),
    (RING_CMAP_A_DIR 1, 1), (RING_CMAP_B_NW 1, 1)] (ringUp start)), .a, frameCyclicBad, by decide +kernel⟩,
   ⟨onRing (fun r => { r with t2 := 130000, noTime := 16, rx := [(0, [5, 6]), (1, [7])] }) (hostRg [(RING_CMAP_A_EN 0,
    1), (RING_CMAP_A_DIR 0, 1), (RING_CMAP_A_UNIT 0, 4), (RING_CMAP_B_NW 0, 2), (RING_CMAP_A_EN 1, 1),
    (RING_CMAP_A_DIR 1, 1), (RING_CMAP_B_NW 1, 1)] (ringUp start)), .a, frameCyclic, by decide +kernel⟩,
   ⟨onRing (fun r => { r with t2 := 130000, noTime := 16, rx := [(0, [5, 6]), (1, [7])] }) (hostRg [(RING_CMAP_A_EN 0,
    1), (RING_CMAP_A_DIR 0, 1), (RING_CMAP_A_UNIT 0, 4), (RING_CMAP_B_NW 0, 2), (RING_CMAP_A_EN 1, 1),
    (RING_CMAP_A_DIR 1, 1), (RING_CMAP_B_NW 1, 1)] (ringUp start)), .a, frameCyclicFar, by decide +kernel⟩,
   ⟨onRing (fun r => { r with t2 := 130000, noTime := 16, rx := [(0, [5, 6]), (1, [7])] }) (hostRg [(RING_CMAP_A_EN 0,
    1), (RING_CMAP_A_DIR 0, 1), (RING_CMAP_A_UNIT 0, 4), (RING_CMAP_B_NW 0, 2), (RING_CMAP_A_EN 1, 1),
    (RING_CMAP_A_DIR 1, 1), (RING_CMAP_B_NW 1, 1)] (ringUp start)), 0,
    { rx := true, unit := 4, psel := 0, woff := 0, nw := 2, foff := 0 }, by decide +kernel⟩,
   ⟨onRing (fun r => { r with t2 := 130000, noTime := 16, rx := [(0, [5, 6]), (1, [7])] }) (hostRg [(RING_CMAP_A_EN 0,
    1), (RING_CMAP_A_DIR 0, 1), (RING_CMAP_A_UNIT 0, 4), (RING_CMAP_B_NW 0, 2), (RING_CMAP_A_EN 1, 1),
    (RING_CMAP_A_DIR 1, 1), (RING_CMAP_B_NW 1, 1)] (ringUp start)), 1,
    { rx := true, unit := 0, psel := 0, woff := 0, nw := 1, foff := 0 }, by decide +kernel⟩,
   ⟨hostRg [(RING_CTL_CMASTER,
    1)] (onRing (fun r => { r with t2 := 130000, noTime := 16, rx := [(0, [5, 6]), (1, [7])] })
    (hostRg [(RING_CMAP_A_EN 0, 1), (RING_CMAP_A_DIR 0, 1), (RING_CMAP_A_UNIT 0, 4), (RING_CMAP_B_NW 0, 2),
    (RING_CMAP_A_EN 1, 1), (RING_CMAP_A_DIR 1, 1), (RING_CMAP_B_NW 1, 1)] (ringUp start))), .a, frameTime 65000,
    by decide +kernel⟩,
   ⟨onRing (fun r => { r with t2 := 130000, noTime := 16, rx := [(0, [5, 6]), (1, [7])] }) (hostRg [(RING_CMAP_A_EN 0,
    1), (RING_CMAP_A_DIR 0, 1), (RING_CMAP_A_UNIT 0, 4), (RING_CMAP_B_NW 0, 2), (RING_CMAP_A_EN 1, 1),
    (RING_CMAP_A_DIR 1, 1), (RING_CMAP_B_NW 1, 1)] (ringUp start)), .a, frameTime 65000, by decide +kernel⟩,
   ⟨onRing (fun r => { r with t2 := 130000, noTime := 16, rx := [(0, [5, 6]), (1, [7])] }) (hostRg [(RING_CMAP_A_EN 0,
    1), (RING_CMAP_A_DIR 0, 1), (RING_CMAP_A_UNIT 0, 4), (RING_CMAP_B_NW 0, 2), (RING_CMAP_A_EN 1, 1),
    (RING_CMAP_A_DIR 1, 1), (RING_CMAP_B_NW 1, 1)] (ringUp start)), .a, frameTime 66995, by decide +kernel⟩,
   ⟨start, .c0, by decide +kernel⟩⟩

theorem witness_RingMemoryAndManagement :
    (∃ (s : State) (src : BitVec 4) (tag : BitVec 8) (addr : Word) (rcnt : Nat), s.host.dom.inReset = false ∧
      s.host.enabled = true ∧
      List.find? (fun (l : LastReq) => l.src == src.toNat && l.tag == tag.toNat) s.host.ring.last = none ∧
      s.accessStatus src.toNat (BitVec.toNat addr) rcnt false = 0)
    ∧ (∃ (s : State) (src : BitVec 4) (tag : BitVec 8) (addr : Word) (rcnt : Nat), HasRoom s.host.dom 49 ∧
      s.host.dom.inReset = false ∧ s.host.enabled = true ∧
      List.find? (fun (l : LastReq) => l.src == src.toNat && l.tag == tag.toNat) s.host.ring.last = none ∧
      s.accessStatus src.toNat (BitVec.toNat addr) rcnt false ≠ 0)
    ∧ (∃ (s : State) (src : BitVec 4) (tag : BitVec 8) (l : LastReq), s.host.dom.inReset = false ∧
      s.host.enabled = true ∧
      List.find? (fun (l : LastReq) => l.src == src.toNat && l.tag == tag.toNat) s.host.ring.last = some l)
    ∧ (∃ (s : State) (src : BitVec 4) (tag : BitVec 8) (addr : Word) (data : List Word) (c : Chan) (i : Nat),
      s.host.dom.inReset = false ∧ s.host.enabled = true ∧
      List.find? (fun (l : LastReq) => l.src == src.toNat && l.tag == tag.toNat) s.host.ring.last = none ∧
      s.accessStatus src.toNat (BitVec.toNat addr) data.length true = 0 ∧
      targetOf (BitVec.toNat addr) = Target.mailbox c i)
    ∧ (∃ (s : State) (src : BitVec 4) (tag : BitVec 8) (addr : Word) (data : List Word), s.host.dom.inReset = false ∧
      s.host.enabled = true ∧
      List.find? (fun (l : LastReq) => l.src == src.toNat && l.tag == tag.toNat) s.host.ring.last = none ∧
      s.accessStatus src.toNat (BitVec.toNat addr) data.length true ≠ 0)
    ∧ (∃ (s : State), HasRoom s.host.dom 50 ∧ s.host.dom.inReset = false ∧ s.host.enabled = true)
    ∧ (∃ (s : State) (p : Port), s.host.dom.inReset = false ∧ s.host.enabled = true ∧ s.host.dom.rgN (linkFld p) = 2)
    ∧ (∃ (s : State) (tag : BitVec 8) (q : RingReq) (t : Nat), s.host.dom.inReset = false ∧ q ∈ s.host.ring.reqs ∧
      q.tag = tag.toNat ∧ q.reply = none ∧ q.sent = some t ∧
      t + 40 * atLeast1 (s.host.dom.rgN RING_RACFG_RATMO) ≤ s.host.dom.time + 1)
    ∧ (∃ (s : State) (tag : BitVec 8), s.host.dom.inReset = false ∧ (∀ (q : RingReq),
      q ∈ s.host.ring.reqs → q.tag = tag.toNat → q.reply.isSome = true ∨ q.sent = none))
    ∧ (∃ (s : State) (c : Chan), HasRoom s.host.dom (96 + 4 * c.idx) ∧ s.host.dom.inReset = false ∧
      (s.ch c).dom.inReset = false) :=
  ⟨⟨onRing (fun r => { r with last := [⟨1, 2, 0, [5, 6]⟩], reqs := [⟨7, .host, .e0, 3, false, 5, 16, 0, some 0, 1, none⟩] })
    (hostRg [(RING_ACL_RD 0, 0xFFFF), (RING_ACL_WR 0, 0xFFFF), (RING_RACFG_RATMO, 10), (RING_RACFG_RETRY,
    3)] (ringUp (atTime 100000 start))), 0, 2, 0, 1, by decide +kernel⟩,
   ⟨onRing (fun r => { r with last := [⟨1, 2, 0, [5, 6]⟩], reqs := [⟨7, .host, .e0, 3, false, 5, 16, 0, some 0, 1, none⟩] })
    (hostRg [(RING_ACL_RD 0, 0xFFFF), (RING_ACL_WR 0, 0xFFFF), (RING_RACFG_RATMO, 10), (RING_RACFG_RETRY,
    3)] (ringUp (atTime 100000 start))), 0, 2, 0x10000, 1, hasRoom (by decide +kernel), by decide +kernel⟩,
   ⟨onRing (fun r => { r with last := [⟨1, 2, 0, [5, 6]⟩], reqs := [⟨7, .host, .e0, 3, false, 5, 16, 0, some 0, 1, none⟩] })
    (hostRg [(RING_ACL_RD 0, 0xFFFF), (RING_ACL_WR 0, 0xFFFF), (RING_RACFG_RATMO, 10), (RING_RACFG_RETRY,
    3)] (ringUp (atTime 100000 start))), 1, 2, { src := 1, tag := 2, stat := 0, data := [5, 6] }, by decide +kernel⟩,
   ⟨onRing (fun r => { r with last := [⟨1, 2, 0, [5, 6]⟩], reqs := [⟨7, .host, .e0, 3, false, 5, 16, 0, some 0, 1, none⟩] })
    (hostRg [(RING_ACL_RD 0, 0xFFFF), (RING_ACL_WR 0, 0xFFFF), (RING_RACFG_RATMO, 10), (RING_RACFG_RETRY,
    3)] (ringUp (atTime 100000 start))), 0, 2, 0x10000, [5], .c0, 0, by decide +kernel⟩,
   ⟨onRing (fun r => { r with last := [⟨1, 2, 0, [5, 6]⟩], reqs := [⟨7, .host, .e0, 3, false, 5, 16, 0, some 0, 1, none⟩] })
    (hostRg [(RING_ACL_RD 0, 0xFFFF), (RING_ACL_WR 0, 0xFFFF), (RING_RACFG_RATMO, 10), (RING_RACFG_RETRY,
    3)] (ringUp (atTime 100000 start))), 0, 2, 0, [], by decide +kernel⟩,
   ⟨onRing (fun r => { r with last := [⟨1, 2, 0, [5, 6]⟩], reqs := [⟨7, .host, .e0, 3, false, 5, 16, 0, some 0, 1, none⟩] })
    (hostRg [(RING_ACL_RD 0, 0xFFFF), (RING_ACL_WR 0, 0xFFFF), (RING_RACFG_RATMO, 10), (RING_RACFG_RETRY,
    3)] (ringUp (atTime 100000 start))), hasRoom (by decide +kernel), by decide +kernel⟩,
   ⟨onRing (fun r => { r with last := [⟨1, 2, 0, [5, 6]⟩], reqs := [⟨7, .host, .e0, 3, false, 5, 16, 0, some 0, 1, none⟩] })
    (hostRg [(RING_ACL_RD 0, 0xFFFF), (RING_ACL_WR 0, 0xFFFF), (RING_RACFG_RATMO, 10), (RING_RACFG_RETRY,
    3)] (ringUp (atTime 100000 start))), .a, by decide +kernel⟩,
   ⟨onRing (fun r => { r with last := [⟨1, 2, 0, [5, 6]⟩], reqs := [⟨7, .host, .e0, 3, false, 5, 16, 0, some 0, 1, none⟩] })
    (hostRg [(RING_ACL_RD 0, 0xFFFF), (RING_ACL_WR 0, 0xFFFF), (RING_RACFG_RATMO, 10), (RING_RACFG_RETRY,
    3)] (ringUp (atTime 100000 start))), 7,
    { tag := 7, d := .host, e := .e0, seq := 3, write := false, node := 5, off := 16, data := 0, sent := some 0, tries := 1, reply := none },
    0, by decide +kernel⟩,
   ⟨start, 2, by decide +kernel⟩,
   ⟨start, .c0, hasRoom (by decide +kernel), by decide +kernel⟩⟩

theorem witness_StagingAndChunks :
    (∃ (w : Word), fget w 31 16 ≠ 23100)
    ∧ (∃ (w : Word), bitOf w 1 = false)
    ∧ (∃ (w : Word), bitOf w 0 = false)
    ∧ (∃ (w : Word), bitOf w 2 = false)
    ∧ (∃ (s : State) (w : Word), s.host.dom.inReset = false ∧ fget w 31 16 = 23100 ∧ s.dev.inhibit = false ∧
      bitOf w 2 = true)
    ∧ (∃ (s : State) (w : Word), s.host.dom.inReset = false ∧ fget w 31 16 = 23100 ∧ s.dev.inhibit = false ∧
      bitOf w 1 = true)
    ∧ (∃ (s : State) (w : Word), s.host.dom.inReset = false ∧ fget w 31 16 = 23100 ∧ s.dev.inhibit = false ∧
      bitOf w 0 = true)
    ∧ (∃ (s : State) (w : Word), s.host.dom.inReset = false ∧ s.dev.inhibit = true ∧ fget w 31 16 = 23100 ∧
      bitOf w 1 = true)
    ∧ (∃ (s : State) (w : Word), s.host.dom.inReset = false ∧ s.dev.inhibit = true ∧ fget w 31 16 = 23100 ∧
      bitOf w 0 = true)
    ∧ (∃ (s : State) (w : Word), s.host.dom.inReset = false ∧ s.dev.inhibit = true ∧ fget w 31 16 = 23100 ∧
      bitOf w 2 = true)
    ∧ (∃ (s : State), s.host.dom.inReset = false ∧ s.dev.inhibit = false ∧ s.host.pendingBit = false ∧
      propOf s.host.act = false)
    ∧ (∃ (s : State), s.host.dom.inReset = false ∧ s.dev.inhibit = false ∧
      (s.host.pendingBit = true ∨ propOf s.host.act = true))
    ∧ (∃ (s : State), s.host.dom.inReset = false ∧ s.dev.inhibit = false ∧ s.host.upd.sealing = true ∧
      s.host.upd.bufs = [] ∧ s.host.dom.rgN UPD_STAT_STG = 1)
    ∧ (∃ (s : State), s.host.dom.inReset = false ∧ s.dev.inhibit = false ∧ s.host.revok = true ∧
      s.host.pendingBit = false)
    ∧ (∃ (s : State), s.host.dom.inReset = false ∧ s.dev.inhibit = false ∧
      (s.host.revok = false ∨ s.host.pendingBit = true))
    ∧ (∃ (s : State) (src : BitVec 4) (tag : BitVec 8) (head : Word) (data : List Word), s.host.dom.inReset = false ∧
      s.dev.inhibit = false ∧ (s.host.ring.last.any fun (l : LastReq) => l.src == src.toNat && l.tag == tag.toNat) =
      false ∧ src.toNat = s.host.dom.rgN RING_UPDSRC_NODE ∧ s.host.dom.rgB RING_UPDSRC_EN = true ∧
      s.host.dom.rgN UPD_STAT_STG = 1 ∧ s.host.upd.sealing = false ∧ BitVec.toNat (fget head 23 0) % 4 = 0 ∧
      data.length ≤ 250 ∧ areaSize (BitVec.toNat (fget head 31 28)) ≠ 0 ∧
      BitVec.toNat (fget head 23 0) + 4 * data.length ≤ areaSize (BitVec.toNat (fget head 31 28)) ∧
      (1 ≤ BitVec.toNat (fget head 31 28) → BitVec.toNat (fget head 31 28) ≤ 5 → s.runsFrom
      (BitVec.toNat (fget head 31 28)) = false) ∧ s.host.upd.bufs.length < 2)
    ∧ (∃ (s : State) (src : BitVec 4) (tag : BitVec 8) (head : Word) (data : List Word), s.host.dom.inReset = false ∧
      s.dev.inhibit = false ∧ (s.host.ring.last.any fun (l : LastReq) => l.src == src.toNat && l.tag == tag.toNat) =
      false ∧ src.toNat = s.host.dom.rgN RING_UPDSRC_NODE ∧ s.host.dom.rgB RING_UPDSRC_EN = true ∧
      s.host.dom.rgN UPD_STAT_STG = 1 ∧ s.host.upd.sealing = false ∧ BitVec.toNat (fget head 23 0) % 4 = 0 ∧
      data.length ≤ 250 ∧ areaSize (BitVec.toNat (fget head 31 28)) ≠ 0 ∧
      BitVec.toNat (fget head 23 0) + 4 * data.length ≤ areaSize (BitVec.toNat (fget head 31 28)) ∧
      (1 ≤ BitVec.toNat (fget head 31 28) → BitVec.toNat (fget head 31 28) ≤ 5 → s.runsFrom
      (BitVec.toNat (fget head 31 28)) = false) ∧ 2 ≤ s.host.upd.bufs.length)
    ∧ (∃ (s : State) (src : BitVec 4) (tag : BitVec 8) (head : Word) (data : List Word), HasRoom s.host.dom 65 ∧
      s.host.dom.inReset = false ∧ s.dev.inhibit = false ∧
      (s.host.ring.last.any fun (l : LastReq) => l.src == src.toNat && l.tag == tag.toNat) = false ∧
      src.toNat = s.host.dom.rgN RING_UPDSRC_NODE ∧ s.host.dom.rgB RING_UPDSRC_EN = true ∧
      s.host.dom.rgN UPD_STAT_STG = 1 ∧ s.host.upd.sealing = false ∧
      (BitVec.toNat (fget head 23 0) % 4 ≠ 0 ∨ 250 < data.length ∨ areaSize (BitVec.toNat (fget
      head 31 28)) < BitVec.toNat (fget head 23 0) + 4 * data.length))
    ∧ (∃ (s : State) (src : BitVec 4) (tag : BitVec 8), HasRoom s.host.dom 65 ∧ s.host.dom.inReset = false ∧
      s.dev.inhibit = false ∧ (s.host.ring.last.any fun (l : LastReq) => l.src == src.toNat && l.tag == tag.toNat) =
      false ∧ (src.toNat ≠ s.host.dom.rgN RING_UPDSRC_NODE ∨ s.host.dom.rgB RING_UPDSRC_EN = false ∨
      s.host.dom.rgN UPD_STAT_STG ≠ 1))
    ∧ (∃ (s : State) (k : Chunk) (rest : List Chunk), s.host.dom.inReset = false ∧ s.dev.inhibit = false ∧
      s.host.upd.bufs = k :: rest ∧ areaChan k.area = none)
    ∧ (∃ (s : State) (k : Chunk) (rest : List Chunk) (n : Chan), s.host.dom.inReset = false ∧ s.dev.inhibit = false ∧
      s.host.upd.bufs = k :: rest ∧ areaChan k.area = some n ∧ (s.ch n).dom.inPhase 4 = false)
    ∧ (∃ (s : State) (k : Chunk) (rest : List Chunk) (n : Chan), s.host.dom.inReset = false ∧ s.dev.inhibit = false ∧
      s.host.upd.bufs = k :: rest ∧ areaChan k.area = some n ∧ (s.ch n).dom.inPhase 4 = true) :=
  ⟨⟨0x50180000, by decide +kernel⟩,
   ⟨0, by decide +kernel⟩,
   ⟨0, by decide +kernel⟩,
   ⟨0, by decide +kernel⟩,
   ⟨start, 0x5A3C0007, by decide +kernel⟩,
   ⟨start, 0x5A3C0007, by decide +kernel⟩,
   ⟨start, 0x5A3C0007, by decide +kernel⟩,
   ⟨{ (staging start) with dev := { (staging start).dev with inhibit := true } }, 0x5A3C0007, by decide +kernel⟩,
   ⟨{ (staging start) with dev := { (staging start).dev with inhibit := true } }, 0x5A3C0007, by decide +kernel⟩,
   ⟨{ (staging start) with dev := { (staging start).dev with inhibit := true } }, 0x5A3C0007, by decide +kernel⟩,
   ⟨start, by decide +kernel⟩,
   ⟨pstate 1 (staging start), by decide +kernel⟩,
   ⟨chunks [] true (staging start), by decide +kernel⟩,
   ⟨pstate 4 (staging start), by decide +kernel⟩,
   ⟨start, by decide +kernel⟩,
   ⟨staging start, 1, 2, 0, [6, 7], by decide +kernel⟩,
   ⟨chunks [aChunk 2, aChunk 0] false (staging start), 1, 2, 0, [6, 7], by decide +kernel⟩,
   ⟨staging start, 1, 2, 0x5A3C0007, [6, 7], hasRoom (by decide +kernel), by decide +kernel⟩,
   ⟨start, 1, 2, hasRoom (by decide +kernel), by decide +kernel⟩,
   ⟨chunks [aChunk 0] false (staging start), { port := .a, src := 1, tag := 2, area := 0, off := 16, data := [5, 6] },
    [], by decide +kernel⟩,
   ⟨chunks [aChunk 2, aChunk 0] false (staging start),
    { port := .a, src := 1, tag := 2, area := 2, off := 16, data := [5, 6] },
    [{ port := .a, src := 1, tag := 2, area := 0, off := 16, data := [5, 6] }], .c1, by decide +kernel⟩,
   ⟨chRg [(SYS_BOOTSTAT_PHASE, 4)] (chunks [aChunk 1] false (staging start)),
    { port := .a, src := 1, tag := 2, area := 1, off := 16, data := [5, 6] }, [], .c0, by decide +kernel⟩⟩

theorem witness_HostBootRom :
    (∃ (s : State) (r : RomReport), Placed s ∧ s.dev.inhibit = false ∧ (s.ch Chan.c0).dom.inPhase 4 = false ∧
      (s.ch Chan.c1).dom.inPhase 4 = false ∧ (s.ch Chan.c2).dom.inPhase 4 = false ∧
      (s.ch Chan.c3).dom.inPhase 4 = false ∧ s.host.dom.inPhase 6 = true ∧
      (propOf (if r.actBad = true then s.host.word 536870916 else s.host.act) = false))
    ∧ (∃ (s : State) (r : RomReport), Placed s ∧ s.dev.inhibit = false ∧ (s.ch Chan.c0).dom.inPhase 4 = false ∧
      (s.ch Chan.c1).dom.inPhase 4 = false ∧ (s.ch Chan.c2).dom.inPhase 4 = false ∧
      (s.ch Chan.c3).dom.inPhase 4 = false ∧ s.host.dom.inPhase 6 = true ∧
      (propOf (if r.actBad = true then s.host.word 536870916 else s.host.act) = true))
    ∧ (∃ (s : State) (r : RomReport), Placed s ∧ s.dev.inhibit = false ∧ (s.ch Chan.c0).dom.inPhase 4 = false ∧
      (s.ch Chan.c1).dom.inPhase 4 = false ∧ (s.ch Chan.c2).dom.inPhase 4 = false ∧
      (s.ch Chan.c3).dom.inPhase 4 = false ∧ s.host.dom.inPhase 7 = true ∧
      ((if s.host.formatOk = false then 3 else if s.keySlotOk = false ∨ r.keyOk = false then
      4 else if r.sigOk = false then 5 else if BitVec.toNat (fget (s.host.man 2) 15 0) < s.floor then 6 else 0) = 0))
    ∧ (∃ (s : State) (r : RomReport), Placed s ∧ s.dev.inhibit = false ∧ (s.ch Chan.c0).dom.inPhase 4 = false ∧
      (s.ch Chan.c1).dom.inPhase 4 = false ∧ (s.ch Chan.c2).dom.inPhase 4 = false ∧
      (s.ch Chan.c3).dom.inPhase 4 = false ∧ s.host.dom.inPhase 7 = true ∧
      ((if s.host.formatOk = false then 3 else if s.keySlotOk = false ∨ r.keyOk = false then
      4 else if r.sigOk = false then 5 else if BitVec.toNat (fget (s.host.man 2) 15 0) < s.floor then 6 else 0) ≠ 0))
    ∧ (∃ (s : State) (r : RomReport), Placed s ∧ s.dev.inhibit = false ∧ (s.ch Chan.c0).dom.inPhase 4 = false ∧
      (s.ch Chan.c1).dom.inPhase 4 = false ∧ (s.ch Chan.c2).dom.inPhase 4 = false ∧
      (s.ch Chan.c3).dom.inPhase 4 = false ∧ s.host.dom.inPhase 8 = true ∧ (∀ (k : Nat),
      k < 9 → s.partResult r k = 0))
    ∧ (∃ (s : State) (r : RomReport) (k : Nat), Placed s ∧ s.dev.inhibit = false ∧
      (s.ch Chan.c0).dom.inPhase 4 = false ∧ (s.ch Chan.c1).dom.inPhase 4 = false ∧
      (s.ch Chan.c2).dom.inPhase 4 = false ∧ (s.ch Chan.c3).dom.inPhase 4 = false ∧ k < 9 ∧
      s.host.dom.inPhase 8 = true ∧ (∀ (j : Nat), j < k → s.partResult r j = 0) ∧ s.partResult r k ≠ 0)
    ∧ (∃ (s : State), Placed s ∧ s.dev.inhibit = false ∧ (s.ch Chan.c0).dom.inPhase 4 = false ∧
      (s.ch Chan.c1).dom.inPhase 4 = false ∧ (s.ch Chan.c2).dom.inPhase 4 = false ∧
      (s.ch Chan.c3).dom.inPhase 4 = false ∧ s.host.dom.inPhase 9 = true ∧ s.host.revpend = false ∧
      s.host.pendingBit = true)
    ∧ (∃ (s : State) (r : RomReport), Placed s ∧ s.dev.inhibit = false ∧ (s.ch Chan.c0).dom.inPhase 4 = false ∧
      (s.ch Chan.c1).dom.inPhase 4 = false ∧ (s.ch Chan.c2).dom.inPhase 4 = false ∧
      (s.ch Chan.c3).dom.inPhase 4 = false ∧ s.host.dom.inPhase 9 = true ∧ s.host.revpend = true ∧
      s.mayRevert r.revertOk = true)
    ∧ (∃ (s : State) (r : RomReport), Placed s ∧ s.dev.inhibit = false ∧ (s.ch Chan.c0).dom.inPhase 4 = false ∧
      (s.ch Chan.c1).dom.inPhase 4 = false ∧ (s.ch Chan.c2).dom.inPhase 4 = false ∧
      (s.ch Chan.c3).dom.inPhase 4 = false ∧ s.host.dom.inPhase 9 = true ∧ s.host.revpend = true ∧
      s.mayRevert r.revertOk = false)
    ∧ (∃ (s : State), Placed s ∧ s.dev.inhibit = false ∧ (s.ch Chan.c0).dom.inPhase 4 = false ∧
      (s.ch Chan.c1).dom.inPhase 4 = false ∧ (s.ch Chan.c2).dom.inPhase 4 = false ∧
      (s.ch Chan.c3).dom.inPhase 4 = false ∧ s.host.dom.inPhase 9 = true ∧ s.host.revpend = false ∧
      s.host.pendingBit = false)
    ∧ (∃ (s : State) (r : RomReport), Placed s ∧ s.dev.inhibit = false ∧ (s.ch Chan.c0).dom.inPhase 4 = false ∧
      (s.ch Chan.c1).dom.inPhase 4 = false ∧ (s.ch Chan.c2).dom.inPhase 4 = false ∧
      (s.ch Chan.c3).dom.inPhase 4 = false ∧ s.host.dom.inPhase 10 = true ∧
      headerOk s.host.dom.mem true (hostBankOf s.host.act) = true ∧ r.imageOk = true)
    ∧ (∃ (s : State) (r : RomReport), Placed s ∧ s.dev.inhibit = false ∧ (s.ch Chan.c0).dom.inPhase 4 = false ∧
      (s.ch Chan.c1).dom.inPhase 4 = false ∧ (s.ch Chan.c2).dom.inPhase 4 = false ∧
      (s.ch Chan.c3).dom.inPhase 4 = false ∧ s.host.dom.inPhase 10 = true ∧ s.host.revok = true ∧
      (headerOk s.host.dom.mem true (hostBankOf s.host.act) = false ∨ r.imageOk = false) ∧
      s.mayRevert r.revertOk = true)
    ∧ (∃ (s : State) (r : RomReport), Placed s ∧ s.dev.inhibit = false ∧ (s.ch Chan.c0).dom.inPhase 4 = false ∧
      (s.ch Chan.c1).dom.inPhase 4 = false ∧ (s.ch Chan.c2).dom.inPhase 4 = false ∧
      (s.ch Chan.c3).dom.inPhase 4 = false ∧ s.host.dom.inPhase 10 = true ∧ s.host.revok = true ∧
      (headerOk s.host.dom.mem true (hostBankOf s.host.act) = false ∨ r.imageOk = false) ∧
      s.mayRevert r.revertOk = false)
    ∧ (∃ (s : State) (r : RomReport), Placed s ∧ s.dev.inhibit = false ∧ (s.ch Chan.c0).dom.inPhase 4 = false ∧
      (s.ch Chan.c1).dom.inPhase 4 = false ∧ (s.ch Chan.c2).dom.inPhase 4 = false ∧
      (s.ch Chan.c3).dom.inPhase 4 = false ∧ s.host.dom.inPhase 10 = true ∧ s.host.revok = false ∧
      (headerOk s.host.dom.mem true (hostBankOf s.host.act) = false ∨ r.imageOk = false))
    ∧ (∃ (s : State), Placed s ∧ s.dev.inhibit = false ∧ (s.ch Chan.c0).dom.inPhase 4 = false ∧
      (s.ch Chan.c1).dom.inPhase 4 = false ∧ (s.ch Chan.c2).dom.inPhase 4 = false ∧
      (s.ch Chan.c3).dom.inPhase 4 = false ∧ s.host.dom.inPhase 11 = true) :=
  ⟨⟨romPhase 6 (pstate 0 (romReady start)),
    { actBad := true, keyOk := false, sigOk := true, badDigest := 0x100, revertOk := false, imageOk := true },
    placed (by decide +kernel), by decide +kernel⟩,
   ⟨romPhase 6 (hostMem [(0x20000000, 0x200), (0x20000004, 0x200)] (romReady start)),
    { actBad := true, keyOk := false, sigOk := true, badDigest := 0x100, revertOk := false, imageOk := true },
    placed (by decide +kernel), by decide +kernel⟩,
   ⟨romPhase 7 (pstate 1 (romReady start)),
    { actBad := false, keyOk := true, sigOk := true, badDigest := 0, revertOk := false, imageOk := true },
    placed (by decide +kernel), by decide +kernel⟩,
   ⟨romPhase 7 (pstate 1 (romReady start)),
    { actBad := true, keyOk := false, sigOk := true, badDigest := 0x100, revertOk := false, imageOk := true },
    placed (by decide +kernel), by decide +kernel⟩,
   ⟨romPhase 8 (pstate 1 (romReady start)),
    { actBad := true, keyOk := false, sigOk := true, badDigest := 0x100, revertOk := false, imageOk := true },
    placed (by decide +kernel), by decide +kernel⟩,
   ⟨romPhase 8 (pstate 1 (romReady start)),
    { actBad := true, keyOk := true, sigOk := false, badDigest := 0x1A5, revertOk := true, imageOk := false }, 5,
    placed (by decide +kernel), by decide +kernel⟩,
   ⟨romPhase 9 (pstate 1 (romReady start)), placed (by decide +kernel), by decide +kernel⟩,
   ⟨romPhase 9 (pstate 2 (hostMem [(0x20000008, 0x00090D0F)] (romReady start))),
    { actBad := true, keyOk := true, sigOk := false, badDigest := 0x1A5, revertOk := true, imageOk := false },
    placed (by decide +kernel), by decide +kernel⟩,
   ⟨romPhase 9 (pstate 2 (romReady start)),
    { actBad := true, keyOk := false, sigOk := true, badDigest := 0x100, revertOk := false, imageOk := true },
    placed (by decide +kernel), by decide +kernel⟩,
   ⟨romPhase 9 (pstate 0 (romReady start)), placed (by decide +kernel), by decide +kernel⟩,
   ⟨romPhase 10 (pstate 0 (romReady start)),
    { actBad := true, keyOk := false, sigOk := true, badDigest := 0x100, revertOk := false, imageOk := true },
    placed (by decide +kernel), by decide +kernel⟩,
   ⟨romPhase 10 (hostMem [(0x20000008, 0x00090D0F)] (pstate 4 (romReady start))),
    { actBad := true, keyOk := true, sigOk := false, badDigest := 0x1A5, revertOk := true, imageOk := false },
    placed (by decide +kernel), by decide +kernel⟩,
   ⟨romPhase 10 (hostMem [(0x20000008, 0x00090D0F)] (pstate 4 start)),
    { actBad := true, keyOk := false, sigOk := true, badDigest := 0x100, revertOk := false, imageOk := true },
    placed (by decide +kernel), by decide +kernel⟩,
   ⟨romPhase 10 (pstate 0 (romReady start)),
    { actBad := true, keyOk := true, sigOk := false, badDigest := 0x1A5, revertOk := true, imageOk := false },
    placed (by decide +kernel), by decide +kernel⟩,
   ⟨romPhase 11 (pstate 0 (romReady start)), placed (by decide +kernel), by decide +kernel⟩⟩

theorem witness_DebugTransactions :
    (∃ (s : State) (d : Dom) (q : DebugReq), (s.dom d).inReset = false ∧ (s.dom d).dbg.held = none ∧
      q.checkOk = false)
    ∧ (∃ (s : State) (d : Dom) (q : DebugReq), (s.dom d).inReset = false ∧ (s.dom d).dbg.held = none ∧
      q.checkOk = true ∧ (s.dom d).rgB DBG_STAT_AUTH = false ∧ openAccess false q = false)
    ∧ (∃ (s : State) (d : Dom) (q : DebugReq), (s.dom d).inReset = false ∧ (s.dom d).dbg.held = none ∧
      q.checkOk = true ∧ (s.dom d).rgB DBG_STAT_AUTH = false ∧ openAccess true q = false)
    ∧ (∃ (s : State) (d : Dom) (q : DebugReq), (s.dom d).inReset = false ∧ (s.dom d).dbg.held = none ∧
      q.checkOk = true ∧ q.space = 0 ∧ q.addr.toNat = 0)
    ∧ (∃ (s : State) (d : Dom) (q : DebugReq), (s.dom d).inReset = false ∧ (s.dom d).dbg.held = none ∧
      q.checkOk = true ∧ q.space = 0 ∧ q.addr.toNat = 12)
    ∧ (∃ (s : State) (d : Dom) (q : DebugReq), (s.dom d).inReset = false ∧ (s.dom d).dbg.held = none ∧
      q.checkOk = true ∧ (s.dom d).rgB DBG_STAT_AUTH = true ∧ q.space = 1 ∧ q.addr.toNat % 4 = 0 ∧
      (s.dom d).area q.addr = Area.sram ∧ q.held = false ∧ (s.dom d).ahead q.addr = false ∧
      (s.dom d).countBusy q.addr = false ∧ (s.dom d).storeFails s.dev.inhibit q.addr = false)
    ∧ (∃ (s : State) (d : Dom) (q : DebugReq), (s.dom d).inReset = false ∧ (s.dom d).dbg.held = none ∧
      q.checkOk = true ∧ (s.dom d).rgB DBG_STAT_AUTH = true ∧ q.space = 1 ∧ q.addr.toNat % 4 = 0 ∧
      (s.dom d).area q.addr = Area.sram ∧
      (q.held = true ∨ (s.dom d).ahead q.addr = true ∨ (s.dom d).countBusy q.addr = true))
    ∧ (∃ (s : State) (d : Dom) (q : DebugReq) (e : Eng) (r : BitVec 5), (s.dom d).inReset = false ∧
      (s.dom d).dbg.held = none ∧ q.checkOk = true ∧ (s.dom d).rgB DBG_STAT_AUTH = true ∧ q.space = 2 ∧
      q.addr.toNat = 65536 * e.idx + 4 * r.toNat ∧ (s.dom d).dbg.halted = false)
    ∧ (∃ (s : State) (d : Dom) (q : DebugReq) (e : Eng) (r : BitVec 5), (s.dom d).inReset = false ∧
      (s.dom d).dbg.held = none ∧ q.checkOk = true ∧ (s.dom d).rgB DBG_STAT_AUTH = true ∧ q.space = 2 ∧
      q.addr.toNat = 65536 * e.idx + 4 * r.toNat ∧ (s.dom d).dbg.halted = true ∧ ¬e ∈ (s.dom d).dbg.stepping)
    ∧ (∃ (s : State) (d : Dom) (h : HeldAccess), (s.dom d).inReset = false ∧ (s.dom d).dbg.held = some h ∧
      h.result = none ∧ h.req.space = 1 ∧ h.write = false ∧ h.req.addr.toNat % 4 = 0 ∧
      (s.dom d).area h.req.addr = Area.sram ∧ (s.dom d).ahead h.req.addr = false ∧
      (s.dom d).countBusy h.req.addr = false)
    ∧ (∃ (s : State) (d : Dom), ((s.dom d).dbg.held = none ∨ ∃ (h : HeldAccess), ∃ (v : Option Word),
      (s.dom d).dbg.held = some h ∧ h.result = some v) ∧ (s.dom d).inReset = false) :=
  ⟨⟨start, .ch .c0, { space := 0, tag := 3, addr := 0, checkOk := false, held := true }, by decide +kernel⟩,
   ⟨start, .ch .c0, { space := 0, tag := 3, addr := 4, checkOk := true, held := false }, by decide +kernel⟩,
   ⟨start, .ch .c0, { space := 0, tag := 3, addr := 0, checkOk := true, held := false }, by decide +kernel⟩,
   ⟨start, .ch .c0, { space := 0, tag := 3, addr := 0, checkOk := true, held := false }, by decide +kernel⟩,
   ⟨start, .ch .c0, { space := 0, tag := 3, addr := 0xC, checkOk := true, held := false }, by decide +kernel⟩,
   ⟨authed pair, .ch .c0, { space := 1, tag := 3, addr := 0x10000010, checkOk := true, held := false },
    by decide +kernel⟩,
   ⟨authed pair, .ch .c0, { space := 1, tag := 3, addr := 0x10000010, checkOk := true, held := true },
    by decide +kernel⟩,
   ⟨authed pair, .ch .c0, { space := 2, tag := 3, addr := 0x20004, checkOk := true, held := false }, .e2, 1,
    by decide +kernel⟩,
   ⟨debugs (fun x => { x with halted := true }) (authed pair), .ch .c0,
    { space := 2, tag := 3, addr := 0x1000C, checkOk := true, held := false }, .e1, 3, by decide +kernel⟩,
   ⟨debugs (fun x => { x with held := some ⟨⟨1, 3, 0x10000010, true, true⟩, false, 0, none⟩ }) pair, .ch .c0,
    { req := { space := 1, tag := 3, addr := 0x10000010, checkOk := true, held := true }, write := false, data := 0, result := none },
    by decide +kernel⟩,
   ⟨start, .ch .c0, .inl (by decide +kernel), by decide +kernel⟩⟩

theorem witness_DebugHalting :
    (∃ (s : State) (d : Dom) (key : Word), (s.dom d).inReset = false ∧ (s.dom d).rgB DBG_STAT_LOCKOUT = false ∧
      key = s.debugKeyOf d)
    ∧ (∃ (s : State) (d : Dom) (key : Word), (s.dom d).inReset = false ∧ (s.dom d).rgB DBG_STAT_LOCKOUT = false ∧
      key ≠ s.debugKeyOf d ∧ (s.dom d).rgN DBG_STAT_FAILCNT < 4)
    ∧ (∃ (s : State) (d : Dom), (s.dom d).inReset = false ∧ (s.dom d).rgB DBG_STAT_LOCKOUT = true)
    ∧ (∃ (s : State) (d : Dom), (s.dom d).rgB DBG_STAT_AUTH = false)
    ∧ (∃ (s : State) (d : Dom) (w : Word), (s.dom d).inReset = false ∧ (s.dom d).rgB DBG_STAT_AUTH = true ∧
      bitOf w 2 = true)
    ∧ (∃ (s : State) (d : Dom) (w : Word), (s.dom d).inReset = false ∧ (s.dom d).rgB DBG_STAT_AUTH = true ∧
      bitOf w 2 = false)
    ∧ (∃ (s : State) (d : Dom) (w : Word), (s.dom d).inReset = false ∧ (s.dom d).rgB DBG_STAT_AUTH = true ∧
      bitOf w 1 = true)
    ∧ (∃ (s : State) (d : Dom) (w : Word), (s.dom d).inReset = false ∧ (s.dom d).rgB DBG_STAT_AUTH = true ∧
      bitOf w 1 = false)
    ∧ (∃ (s : State) (d : Dom) (w : Word), (s.dom d).inReset = false ∧ (s.dom d).rgB DBG_STAT_AUTH = true ∧
      bitOf w 0 = true)
    ∧ (∃ (s : State) (d : Dom) (w : Word), (s.dom d).inReset = false ∧ (s.dom d).rgB DBG_STAT_AUTH = true ∧
      bitOf w 0 = false)
    ∧ (∃ (s : State) (d : Dom), (s.dom d).inReset = false ∧ (s.dom d).rgB DBG_STAT_AUTH = true ∧
      (s.dom d).dbg.halted = false ∧ (s.dom d).heldNow = false)
    ∧ (∃ (s : State) (d : Dom), (s.dom d).inReset = false ∧ (s.dom d).rgB DBG_STAT_AUTH = true ∧
      (s.dom d).dbg.halted = false ∧ (s.dom d).heldNow = true)
    ∧ (∃ (s : State) (d : Dom) (cause : BitVec 3), (s.dom d).inReset = false ∧ (s.dom d).dbg.want = some cause ∧
      (s.dom d).haltReady = true ∧ (s.dom d).booting = false)
    ∧ (∃ (s : State) (d : Dom), (s.dom d).inReset = false ∧ (s.dom d).rgB DBG_STAT_AUTH = true ∧
      (s.dom d).dbg.halted = true)
    ∧ (∃ (s : State) (c : Chan) (w : Word), (s.ch c).dom.inReset = false ∧ (s.ch c).rgB DBG_STAT_AUTH = true ∧
      bitOf w 6 = true)
    ∧ (∃ (s : State) (c : Chan) (w : Word), (s.ch c).dom.inReset = false ∧ (s.ch c).rgB DBG_STAT_AUTH = true ∧
      bitOf w 6 = false)
    ∧ (∃ (s : State) (c : Chan) (w : Word), (s.ch c).dom.inReset = false ∧ (s.ch c).rgB DBG_STAT_AUTH = true ∧
      bitOf w 5 = true)
    ∧ (∃ (s : State) (c : Chan) (w : Word), (s.ch c).dom.inReset = false ∧ (s.ch c).rgB DBG_STAT_AUTH = true ∧
      bitOf w 5 = false)
    ∧ (∃ (s : State) (c : Chan) (w : Word), (s.ch c).dom.inReset = false ∧ (s.ch c).rgB DBG_STAT_AUTH = true ∧
      bitOf w 4 = true)
    ∧ (∃ (s : State) (c : Chan) (w : Word), (s.ch c).dom.inReset = false ∧ (s.ch c).rgB DBG_STAT_AUTH = true ∧
      bitOf w 4 = false)
    ∧ (∃ (s : State) (c : Chan) (w : Word), (s.ch c).dom.inReset = false ∧ (s.ch c).rgB DBG_STAT_AUTH = true ∧
      bitOf w 3 = true)
    ∧ (∃ (s : State) (c : Chan) (w : Word), (s.ch c).dom.inReset = false ∧ (s.ch c).rgB DBG_STAT_AUTH = true ∧
      bitOf w 3 = false)
    ∧ (∃ (s : State) (d : Dom) (b : BitVec 2) (e : Eng), (s.dom d).inReset = false ∧
      (s.dom d).rgB (DBG_BP_EN b.toNat) = true ∧ (s.dom d).haltReady = true ∧ (s.dom d).runs e = true ∧
      ((s.dom d).core e).wait = Wait.none ∧ fget ((s.dom d).core e).pc 31 2 = (s.dom d).rg (DBG_BP_ADDR b.toNat) ∧
      ¬(e, ((s.dom d).core e).pc) ∈ (s.dom d).dbg.past)
    ∧ (∃ (s : State) (d : Dom) (b : BitVec 2), (s.dom d).rgB (DBG_BP_EN b.toNat) = false)
    ∧ (∃ (s : State) (d : Dom) (w : Word) (k store : Bool), (s.dom d).inReset = false ∧ (s.dom d).dbg.halted = false ∧
      (store, w) ∈ (s.dom d).cyc.accesses ∧
      ((if store = true then (s.dom d).rgB (DBG_WP_M_STORE (if k = true then 1 else 0)) else
      (s.dom d).rgB (DBG_WP_M_LOAD (if k = true then 1 else 0))) = true) ∧
      (fget (w ^^^ (s.dom d).rg (DBG_WP_A_ADDR (if k = true then 1 else 0))) 31 2 &&& (s.dom
      d).rg (DBG_WP_M_MASK (if k = true then 1 else 0)) = 0))
    ∧ (∃ (s : State) (d : Dom) (w : Word) (store : Bool), ¬(store, w) ∈ (s.dom d).cyc.accesses ∧
      (s.dom d).inReset = false)
    ∧ (∃ (s : State) (c : Chan) (t : Thread), (s.ch c).dom.inReset = false ∧ (s.ch c).rgB DBG_WBP_EN = true ∧
      (s.ch c).weir.halted = false ∧ (s.ch c).weir.nextReady = some t ∧
      (s.ch c).weir.past ≠ some ((s.ch c).weir.th t).pc ∧
      BitVec.setWidth 32 ((s.ch c).weir.th t).pc = (s.ch c).rg DBG_WBP_SLOT)
    ∧ (∃ (s : State) (c : Chan) (r : Run), (s.ch c).dom.inReset = false ∧ (s.ch c).rgB DBG_CBP_EN = true ∧
      (s.ch c).cas.halted = false ∧ (s.ch c).cas.run = some r ∧ (s.ch c).cas.past ≠ some r.pc ∧
      BitVec.setWidth 32 r.pc = (s.ch c).rg DBG_CBP_ADDR)
    ∧ (∃ (s : State) (c : Chan), (s.ch c).dom.inReset = false ∧ (s.ch c).rgB DBG_WBP_EN = false)
    ∧ (∃ (s : State) (c : Chan), (s.ch c).dom.inReset = false ∧ (s.ch c).rgB DBG_CBP_EN = false)
    ∧ (∃ (s : State) (c : Chan), (s.ch c).weir.haltReq = true)
    ∧ (∃ (s : State) (c : Chan), (s.ch c).weir.haltReq = false) :=
  ⟨⟨start, .ch .c0, 0, by decide +kernel⟩,
   ⟨start, .ch .c0, 5, by decide +kernel⟩,
   ⟨onBoth (setFields [(DBG_STAT_LOCKOUT, 1)]) start, .ch .c0, by decide +kernel⟩,
   ⟨start, .ch .c0, by decide +kernel⟩,
   ⟨authed start, .ch .c0, 5, by decide +kernel⟩,
   ⟨authed start, .ch .c0, 0, by decide +kernel⟩,
   ⟨authed start, .ch .c0, 0x7F, by decide +kernel⟩,
   ⟨authed start, .ch .c0, 0, by decide +kernel⟩,
   ⟨authed start, .ch .c0, 5, by decide +kernel⟩,
   ⟨authed start, .ch .c0, 0, by decide +kernel⟩,
   ⟨authed pair, .ch .c0, by decide +kernel⟩,
   ⟨authed start, .ch .c0, by decide +kernel⟩,
   ⟨debugs (fun x => { x with want := some 2 }) pair, .ch .c0, 2, by decide +kernel⟩,
   ⟨debugs (fun x => { x with halted := true }) (authed pair), .ch .c0, by decide +kernel⟩,
   ⟨authed start, .c0, 0x7F, by decide +kernel⟩,
   ⟨authed start, .c0, 0, by decide +kernel⟩,
   ⟨authed start, .c0, 0x7F, by decide +kernel⟩,
   ⟨authed start, .c0, 0, by decide +kernel⟩,
   ⟨authed start, .c0, 0x10000010, by decide +kernel⟩,
   ⟨authed start, .c0, 0, by decide +kernel⟩,
   ⟨authed start, .c0, 0x7F, by decide +kernel⟩,
   ⟨authed start, .c0, 0, by decide +kernel⟩,
   ⟨onCores (fun x => { x with pc := 0x10000010 }) (onBoth (setFields [(DBG_BP_EN 3, 1), (DBG_BP_ADDR 3, 0x4000004),
    (DBG_WP_M_STORE 0, 1), (DBG_WP_M_LOAD 0, 1), (DBG_WP_A_ADDR 0, 0x4000004)]) single), .ch .c0, 3, .e0,
    by decide +kernel⟩,
   ⟨start, .ch .c0, 0, by decide +kernel⟩,
   ⟨onBoth (fun d => { d with cyc := { d.cyc with accesses := [(true, 0x10000010), (false, 0x10000010)] } })
    (onBoth (setFields [(DBG_WP_M_STORE 0, 1), (DBG_WP_M_LOAD 0, 1), (DBG_WP_A_ADDR 0, 0x4000004), (DBG_WP_M_STORE 1,
    1), (DBG_WP_M_LOAD 1, 1), (DBG_WP_A_ADDR 1, 0x4000004)]) single), .ch .c0, 0x10000010, false, true,
    by decide +kernel⟩,
   ⟨start, .ch .c0, 0, false, by decide +kernel⟩,
   ⟨onWeir (fun w => { w with t0 := { w.t0 with st := .running, pc := 5 } }) (chRg [(DBG_WBP_EN, 1), (DBG_WBP_SLOT,
    5)] start), .c0, .t0, by decide +kernel⟩,
   ⟨chRg [(DBG_CBP_EN, 1), (DBG_CBP_ADDR, 4)] (casRuns start), .c0,
    { pc := 4, start := 0, len := 0, bank := [], tag := false, clip := false, sat := false, ovf := false, t := false, rcskip := false, sst := 0, satNow := false, shiftNow := false },
    by decide +kernel⟩,
   ⟨start, .c0, by decide +kernel⟩,
   ⟨start, .c0, by decide +kernel⟩,
   ⟨onWeir (fun w => { w with haltReq := true }) start, .c0, by decide +kernel⟩,
   ⟨start, .c0, by decide +kernel⟩⟩

theorem witness_CountersScanAndRegisterWrites :
    (∃ (s : State) (d : Dom) (j : BitVec 9), (s.dom d).inReset = false ∧
      (s.dom d).assigned (790528 + 8 * j.toNat) = true ∧ (s.dom d).cyc.counted = false)
    ∧ (∃ (s : State) (d : Dom), (s.dom d).cyc.counted = true)
    ∧ (∃ (s : State) (d : Dom) (w : Word), (s.dom d).inReset = false ∧ bitOf w 31 = true)
    ∧ (∃ (s : State) (d : Dom) (w : Word), (s.dom d).inReset = false ∧ bitOf w 31 = false)
    ∧ (∃ (s : State) (d : Dom) (w : Word), (s.dom d).inReset = false ∧ bitOf w 1 = true)
    ∧ (∃ (s : State), s.dev.scanFuse = true ∧ ¬Rail.vio ∈ s.dev.bad)
    ∧ (∃ (s : State), (s.dev.scanFuse = false ∨ Rail.vio ∈ s.dev.bad))
    ∧ (∃ (s : State) (d : Dom) (addr : Word),
      (BitVec.toNat addr % 4 ≠ 0 ∨ areaOf (s.dom d).host (BitVec.toNat addr) ≠ Area.blocks))
    ∧ (∃ (s : State) (d : Dom) (addr : Word) (i : Nat), i < 4 ∧ (s.dom d).inReset = false ∧
      BitVec.toNat addr % 4 = 0 ∧ areaOf (s.dom d).host (BitVec.toNat addr) = Area.blocks ∧
      (s.dom d).regKey (BitVec.toNat addr) = (EVT_EN_EN i).reg)
    ∧ (∃ (s : State) (c : Chan) (addr : Word) (r : RegRow), (s.ch c).dom.inReset = false ∧ (s.ch c).dom.host = false ∧
      BitVec.toNat addr % 4 = 0 ∧ areaOf false (BitVec.toNat addr) = Area.blocks ∧
      (s.ch c).dom.assigned ((s.ch c).dom.regKey (BitVec.toNat addr)) = true ∧
      rowOf ((s.ch c).dom.regKey (BitVec.toNat addr)) = some r ∧ r.rwp ≠ 0 ∧ (s.ch c).inWindow = none) :=
  ⟨⟨start, .ch .c0, 0, by decide +kernel⟩,
   ⟨onBoth (fun d => { d with cyc := { d.cyc with counted := true } }) start, .ch .c0, by decide +kernel⟩,
   ⟨start, .ch .c0, 0x80000001, by decide +kernel⟩,
   ⟨start, .ch .c0, 0x40010010, by decide +kernel⟩,
   ⟨start, .ch .c0, 3, by decide +kernel⟩,
   ⟨start, by decide +kernel⟩,
   ⟨{ start with dev := { start.dev with scanFuse := false } }, by decide +kernel⟩,
   ⟨start, .ch .c0, 3, by decide +kernel⟩,
   ⟨pair, .ch .c0, 0x40010010, 0, by decide +kernel⟩,
   ⟨start, .c0, 0x40050000,
    { key := 327680, stride := 4, count := 1, reset := 768, rw := 0, rwp := 460671, rwl := 0, w1c := 0, w1s := 0 },
    by decide +kernel⟩⟩

theorem witness_ContactorFaultsClear :
    (∃ (s : State) (c : Chan) (w : Word), (s.ch c).dom.inReset = false ∧ BitVec.getLsbD w 2 = true ∧
      (List.map (fun (x : Event) => x.arg) (List.filter (fun (e : Event) => e.src == 114) (s.ch
      c).dom.evq)).length ≤ 1) :=
  ⟨start, .c0, 4, by decide +kernel⟩

theorem witness_SafelyLimitedSpeed :
    (∃ (x : Channel), HasRoom x.dom 115 ∧ x.lvN SAFE_SLSMAX_SLSMAX ≠ 0 ∧
      ((if x.lvN SAFE_SLSMAX_SLSMAX < x.lvN SAFE_SLSMIN_SLSMIN ∨ x.lvN SAFE_SLSMAX_SLSMAX <
      x.lvN SAFE_SLSLIM_SLSLIM then x.lvN SAFE_SLSMAX_SLSMAX else if x.lvN SAFE_SLSLIM_SLSLIM
      < x.lvN SAFE_SLSMIN_SLSMIN then x.lvN SAFE_SLSMIN_SLSMIN else x.lvN SAFE_SLSLIM_SLSLIM) < x.weir.absOmega) ∧
      x.rgB SAFE_STAT_SLSOVR = false)
    ∧ (∃ (x : Channel), x.lvN SAFE_SLSMAX_SLSMAX = 0)
    ∧ (∃ (x : Channel) (θ ω : Word) (t : Nat),
      (x.endCycle.mapDom Domain.tick).weirHaltEdge.windowEdge.commitEdge.latchDue.snd = some (θ, ω, t)) :=
  ⟨⟨(onWeir (fun w => { w with omL := 0x7FFFFFFF }) (chLive [(SAFE_SLSMAX_SLSMAX, 1)] start)).c0,
    hasRoom (by decide +kernel), by decide +kernel⟩,
   ⟨start.c0, by decide +kernel⟩,
   ⟨(onPos (fun p => { p with encAv := true, inFlight := [⟨5, 6, 0, 10, 0, 1⟩] }) (chLive [(POS_CTL_PSRC,
    1)] (atTime 10 start))).c0, 5, 6, 0, by decide +kernel⟩⟩

theorem witness_PortEnableOpensTheByPass :
    (∃ (s : State) (w : Word), s.host.dom.inReset = false ∧ bitOf w 0 = true)
    ∧ (∃ (s : State) (p : Port), s.host.dom.inReset = false ∧ s.host.dom.rgB RING_CTL_PORTEN = true ∧
      s.host.dom.rgN (linkFld p) = 0)
    ∧ (∃ (s : State), s.host.dom.inReset = false ∧ s.host.dom.rgB RING_CTL_PORTEN = true ∧ ¬Rail.vring ∈ s.dev.bad ∧
      ¬Rail.vcore ∈ s.dev.bad)
    ∧ (∃ (s : State), s.host.dom.inReset = false ∧
      (s.host.dom.rgB RING_CTL_PORTEN = false ∨ ¬(¬Rail.vring ∈ s.dev.bad ∧ ¬Rail.vcore ∈ s.dev.bad)))
    ∧ (∃ (s : State), Placed s ∧ s.host.dom.inReset = false ∧ s.host.dom.rgB RING_CTL_PORTEN = true)
    ∧ (∃ (s : State), Placed s ∧ s.host.dom.inReset = false ∧ s.host.dom.rgB RING_CTL_PORTEN = false) :=
  ⟨⟨start, 1, by decide +kernel⟩,
   ⟨hostRg [(RING_CTL_PORTEN, 1)] start, .a, by decide +kernel⟩,
   ⟨hostRg [(RING_CTL_PORTEN, 1)] start, by decide +kernel⟩,
   ⟨start, by decide +kernel⟩,
   ⟨hostRg [(RING_CTL_PORTEN, 1)] start, placed (by decide +kernel), by decide +kernel⟩,
   ⟨start, placed (by decide +kernel), by decide +kernel⟩⟩

/-! The torque estimate is a free value (log 9): a negative tolerance fails every estimate, and a command equal to the
estimate passes it. -/

theorem lt_of_neg {a b : Dy} (ha : a.n < 0) (hb : 0 ≤ b.n) : a.lt b = true := by
  have p (k : Int) : 0 < pow2 k := Int.pow_pos (by decide)
  have h1 : a.over (minI a.e b.e) < 0 := Int.mul_neg_of_neg_of_pos ha (p _)
  have h2 : 0 ≤ b.over (minI a.e b.e) := Int.mul_nonneg hb (Int.le_of_lt (p _))
  exact decide_eq_true (Int.lt_of_lt_of_le h1 h2)

/-- Three samples that lie close enough together, torque plausibility being enabled. -/
def samples (l : List (Fld × Nat)) (s : State) : State :=
  onSafe (fun x => { x with tpU := some ⟨5, 0, 0, true⟩, tpV := some ⟨6, 0, 1000, true⟩, tpW := some ⟨7, 0, 500, true⟩, tpNew := some 0 })
    (onPos (fun p => { p with encAv := true })
      (chLive ([(SAFE_TPCFG_TPEN, 1), (POS_CTL_SSRC, 1), (ADC_CTL_ROVMODE, 1)] ++ l) s))

/-- How it is rounded is left open. -/
def anEstimate : Word := torqueOf ⟨5, 0, 0, true⟩ ⟨6, 0, 1000, true⟩ ⟨7, 0, 500, true⟩ 0 0

/-- A failing estimate that is not yet, and that is, the last of its run. -/
theorem witness_PlausibilityHaltGuardAndConfiguration_fails :
    (∃ (s : State) (c : Chan) (u v w : TpSample),
      (∀ t, (s.ch c).tpFails t = true) ∧ HasRoom (s.ch c).dom 0x73 ∧ (s.ch c).dom.inReset = false ∧
      (s.ch c).safe.tpU = some u ∧ (s.ch c).safe.tpV = some v ∧ (s.ch c).safe.tpW = some w ∧
      (s.ch c).tpBlocked = false ∧ (s.ch c).safe.tpNew.isSome = true ∧
      max u.h (max v.h w.h) - min u.h (min v.h w.h) ≤ 1000 * atLeast1 ((s.ch c).lvN SAFE_TPLIM_TPSPAN) ∧
      (s.ch c).lvB SAFE_TPCFG_TPWIN = false ∧ (s.ch c).safe.tpRun + 1 < atLeast1 ((s.ch c).lvN SAFE_TPCFG_TPCNT)) ∧
    (∃ (s : State) (c : Chan) (u v w : TpSample),
      (∀ t, (s.ch c).tpFails t = true) ∧ HasRoom (s.ch c).dom 0x73 ∧ (s.ch c).dom.inReset = false ∧
      (s.ch c).safe.tpU = some u ∧ (s.ch c).safe.tpV = some v ∧ (s.ch c).safe.tpW = some w ∧
      (s.ch c).tpBlocked = false ∧ (s.ch c).safe.tpNew.isSome = true ∧
      max u.h (max v.h w.h) - min u.h (min v.h w.h) ≤ 1000 * atLeast1 ((s.ch c).lvN SAFE_TPLIM_TPSPAN) ∧
      (s.ch c).lvB SAFE_TPCFG_TPWIN = false ∧ atLeast1 ((s.ch c).lvN SAFE_TPCFG_TPCNT) ≤ (s.ch c).safe.tpRun + 1) :=
  ⟨⟨samples [(SAFE_TPTOL_TPTOL, 0xFFFFFF), (SAFE_TPCFG_TPCNT, 2)] start, .c0, ⟨5, 0, 0, true⟩, ⟨6, 0, 1000, true⟩, ⟨7, 0, 500, true⟩,
      fun _ => lt_of_neg (by decide +kernel) (Int.natCast_nonneg _), hasRoom (by decide +kernel), by decide +kernel⟩,
   ⟨samples [(SAFE_TPTOL_TPTOL, 0xFFFFFF), (SAFE_TPCFG_TPCNT, 1)] start, .c0, ⟨5, 0, 0, true⟩, ⟨6, 0, 1000, true⟩, ⟨7, 0, 500, true⟩,
      fun _ => lt_of_neg (by decide +kernel) (Int.natCast_nonneg _), hasRoom (by decide +kernel), by decide +kernel⟩⟩

/-- The torque commanded is the estimate. -/
def asEstimated : State :=
  onChanDom (fun d => { d with regs := [(CAS_MSTOUT_TOUT.reg, anEstimate)] }) (samples [(CAS_MSCTL_EN, 1)] start)

theorem sub_self_abs (a : Dy) : (a.sub a).abs.n = 0 := by
  have : (a.sub a).n = 0 := by
    show a.n * pow2 (a.e - minI a.e a.e) + -a.n * pow2 (a.e - minI a.e a.e) = 0
    rw [← Int.add_mul, Int.add_right_neg, Int.zero_mul]
  show ((a.sub a).n.natAbs : Int) = 0
  rw [this]; rfl

theorem fget_all (w : Word) : fget w 31 0 = w := by
  show (w >>> 0) &&& BitVec.allOnes 32 = w
  rw [BitVec.and_allOnes, BitVec.ushiftRight_zero]

theorem witness_PlausibilityHaltGuardAndConfiguration_passes :
    ∃ (s : State) (c : Chan) (u v w : TpSample),
      (s.ch c).tpFails (torqueOf u v w ((s.ch c).lv SAFE_TPKT_KT) ((s.ch c).lv SAFE_TPKR_KR)) = false ∧
      (s.ch c).dom.inReset = false ∧
      (s.ch c).safe.tpU = some u ∧ (s.ch c).safe.tpV = some v ∧ (s.ch c).safe.tpW = some w ∧
      (s.ch c).tpBlocked = false ∧ (s.ch c).safe.tpNew.isSome = true ∧
      max u.h (max v.h w.h) - min u.h (min v.h w.h) ≤ 1000 * atLeast1 ((s.ch c).lvN SAFE_TPLIM_TPSPAN) ∧
      (s.ch c).lvB SAFE_TPCFG_TPWIN = false :=
  ⟨asEstimated, .c0, ⟨5, 0, 0, true⟩, ⟨6, 0, 1000, true⟩, ⟨7, 0, 500, true⟩,
    by
      have e1 : (asEstimated.ch .c0).lv SAFE_TPKT_KT = 0 := by decide +kernel
      have e2 : (asEstimated.ch .c0).lv SAFE_TPKR_KR = 0 := by decide +kernel
      have r : (asEstimated.ch .c0).refUse 0 = anEstimate := fget_all anEstimate
      rw [e1, e2]
      show (asEstimated.ch .c0).tpFails anEstimate = false
      show Dy.lt _ ((numOf anEstimate).sub (numOf ((asEstimated.ch .c0).refUse 0))).abs = false
      rw [r]
      refine decide_eq_false (Int.not_lt.mpr ?_)
      rw [Dy.over, sub_self_abs, Int.zero_mul]
      have p (k : Int) : 0 < pow2 k := Int.pow_pos (by decide)
      refine Int.mul_nonneg ?_ (Int.le_of_lt (p _))
      show 0 ≤ _ * _ + _ * _
      have t1 : (numOf ((asEstimated.ch .c0).lv SAFE_TPTOL_TPTOL)).n = 0 := by decide +kernel
      rw [t1, Int.zero_mul, Int.zero_add]
      refine Int.mul_nonneg (Int.mul_nonneg (Int.natCast_nonneg _) (Int.natCast_nonneg _)) (Int.le_of_lt (p _)),
    by decide +kernel⟩

/-! ## Hypotheses of the statements about every step -/

theorem witness_StepKeepsNumbers : ∃ s t : State, Placed s ∧ step s = .next t :=
  ⟨start, start.tick, placed (by decide +kernel), rfl⟩

theorem witness_StepKeepsMemoriesCanonical :
    ∃ s t : State, (∀ d, Memory.wf (s.dom d).mem = true) ∧ step s = .next t :=
  ⟨start, start.tick, fun d => by cases d with | ch n => cases n <;> rfl | host => rfl, rfl⟩

theorem witness_FusesAreOneWay :
    ∃ s t : State, step s = .next t ∧ s.dev.revoked0 = true ∧ s.dev.scanFuse = false ∧
      (s.dev.extest.isSome → s.dev.scanFuse = true) :=
  ⟨{ start with dev := { start.dev with revoked0 := true, scanFuse := false } }, _, rfl, rfl, rfl, nofun⟩

theorem witness_StepRunsFrontCommand :
    (∃ (s : State) (c : Instr) (rest : List Instr) (t : State), step { s with pending := c :: rest } = .next t) ∧
    ∃ s : State, s.pending = [] :=
  ⟨⟨start, .fuseoff, [.fuseoff], _, rfl⟩, start, rfl⟩

theorem witness_DecodeOfEncode :
    (∃ i k w, Instr.wf i = true ∧ encodeCascade i = some (k, w)) ∧ (∃ i k w, Instr.wf i = true ∧ encodeWeir i = some (k, w)) ∧
    (∃ i k e w, Instr.wf i = true ∧ encodeDziphor i = some (k, e, w)) :=
  ⟨⟨.ldr q0 0 15, _, _, rfl, rfl⟩, ⟨.strobe w0 32767, _, _, rfl, rfl⟩, ⟨.fenceM k0 6, _, _, _, rfl, rfl⟩⟩

theorem witness_EncodeOfDecode :
    (∃ k w i, decodeCascade k w = some i) ∧ (∃ k w i, decodeWeir k w = some i) ∧
    (∃ k e w i, decodeDziphor k e w = some i) :=
  ⟨⟨q0, 0xA21E4000, _, test_decode_cascade.1⟩, ⟨w0, 0x080000C080000000, _, test_decode_weir.1⟩,
   ⟨k0, .clean, 0x04A4FFF8, _, test_decode_dziphor_arithmetic.1⟩⟩

end Sys2Proof.Tests
end

section
/-! PROOF. Plan writes: what a register write makes of a channel's plan bank (R12, R148, R155). -/

namespace Sys2Proof.Machine

/-- A register write to a plan register of a channel is a change of that channel alone. The two registers of a channel whose
write reaches beyond it hold no plan field. -/
theorem exec_registerWrite_plan {s : State} {c : Chan} {addr w : Word} {r : RegRow} (hu : s.up c)
    (hb : areaOf (s.ch c).dom.host addr.toNat = .blocks) (h4 : addr.toNat % 4 = 0)
    (ha : (s.ch c).dom.assigned ((s.ch c).dom.regKey addr.toNat) = true)
    (hr : rowOf ((s.ch c).dom.regKey addr.toNat) = some r) (hp : r.rwp ≠ 0) :
    exec (.registerWrite (.ch c) addr w) s =
      .next (s.onCh c (·.writeReg s.dev.inhibit r ((s.ch c).dom.regKey addr.toNat) w)) := by
  have rwpOf : ∀ k, rowOf ((s.ch c).dom.regKey addr.toNat) = rowOf k → (rowOf k).all (·.rwp == 0) = true → False := by
    intro k hk h0
    rw [← hk, hr] at h0
    simp [hp] at h0
  have hrst : (s.ch c).dom.regKey addr.toNat ≠ SYS_RSTCTL_HOSTRST_EN.reg := fun e => rwpOf _ (by rw [e]) (by decide)
  have hdoor : (s.ch c).dom.regKey addr.toNat ≠ MBX_DOOR_VALUE.reg := fun e => rwpOf _ (by rw [e]) (by decide)
  have hu : (s.ch c).dom.inReset = false := hu
  show Host.Outcome.next (s.registerWrite (.ch c) addr.toNat w) = _
  simp [State.registerWrite, State.writeBlock, hu, hb, h4, ha, hr, hrst, hdoor]

/-- The first write to a plan register in a cycle keeps what the register held before it, for a commit of that cycle
(R12). -/
theorem Channel.writeReg_plan_planOld {x : Channel} {r : RegRow} (inhibit : Bool) (k : Nat) (w : Word) (hp : r.rwp ≠ 0)
    (hw : x.inWindow = none) (ho : x.planOld = []) : (x.writeReg inhibit r k w).planOld = [(k, rget x.plan k)] := by
  simp [Channel.writeReg, Channel.writePlan, Channel.planPut, hp, hw, ho]

/-- A channel that becomes `a` under an operation has the old plan values of `a`: what is counted touches none. -/
theorem ChBecomes.planOld_eq {i : Instr} {s : State} {n : Chan} {f : Channel → Channel} {a : Channel} (h : ChBecomes i s n a)
    (hx : exec i s = .next (s.onCh n f)) (hu : s.up n) : (f (s.ch n)).planOld = a.planOld := by
  obtain ⟨t, ht, hc, -⟩ := h
  obtain rfl : s.onCh n f = t := by simpa [hx] using ht
  have hs := (State.onCh_settled s n f hu).ch
  calc (f (s.ch n)).planOld = ((s.onCh n f).ch n).planOld := by rw [hs.rest]
    _ = a.planOld := by rw [hc.rest]

/-- Refutes O50, by its last clause: besides the plan bank, a plan write also notes what the register held before it
(`planOld`, from which a commit of the same cycle takes its values, R12), and so the channel does not become what it was
with another plan bank. In the state after reset, a write of 0 to PWM_CTL of channel 0 (address 0x40050000) leaves the
note of that register's reset value. -/
theorem not_countersScanAndRegisterWrites : ¬ Obligations.CountersScanAndRegisterWrites := by
  unfold Obligations.CountersScanAndRegisterWrites
  intro h
  obtain ⟨-, -, -, -, -, -, -, -, -, -, hplan⟩ := h State.reset .host .c0 .e0 0 0 0x40050000 0 0
  obtain ⟨r, hr, hp⟩ : ∃ r, rowOf ((State.reset.ch .c0).dom.regKey (0x40050000 : Word).toNat) = some r ∧ r.rwp ≠ 0 :=
    ⟨_, rfl, by decide⟩
  have hc := hplan r rfl rfl rfl rfl rfl hr hp rfl
  have ho := hc.planOld_eq (exec_registerWrite_plan rfl rfl rfl rfl hr hp) rfl
  rw [Channel.writeReg_plan_planOld _ _ _ hp rfl rfl] at ho
  exact List.cons_ne_nil _ _ ho

end Sys2Proof.Machine
end

section
/-! PROOF. What a memory error that a read reports leaves as it was (R406, R454, R455): it is counted, SPR notes its row, and
events may be raised; no core, no memory and no register outside the counters and row counts changes. -/

namespace Sys2Proof.Machine

/-- The second domain is the first but for its counters, the notes and row counts of SPR, events that have joined those
waiting and the free values used. -/
structure EccNoted (a b : Domain) : Prop where
  parts : ∃ r p q n y w u,
    b = { a with regs := r, perf := p, evq := a.evq ++ q, evNext := n, cyc := y, spr := w, fresh := u }
  rg : ∀ f : Fld, f.quiet → f.reg ≠ SPR_ROWS_NVMPEND.reg → f.reg ≠ BOOT_ROWS_LIST.reg → b.rg f = a.rg f

theorem EccNoted.of_counted {a b : Domain} (h : Counted a b) : EccNoted a b := by
  obtain ⟨⟨r, p, q, n, y, rfl⟩, hr⟩ := h
  exact ⟨⟨r, p, q, n, y, a.spr, a.fresh, rfl⟩, fun f hf _ _ => hr f hf⟩

theorem EccNoted.refl (a : Domain) : EccNoted a a := .of_counted (.refl a)

theorem EccNoted.trans {a b c : Domain} (h : EccNoted a b) (g : EccNoted b c) : EccNoted a c := by
  obtain ⟨⟨r, p, q, n, y, w, u, rfl⟩, h2⟩ := h
  obtain ⟨⟨r', p', q', n', y', w', u', rfl⟩, g2⟩ := g
  exact ⟨⟨r', p', q ++ q', n', y', w', u', by simp⟩, fun f hf h3 h4 => (g2 f hf h3 h4).trans (h2 f hf h3 h4)⟩

section
variable {a b : Domain} (h : EccNoted a b)
include h
theorem EccNoted.id : b.id = a.id := by obtain ⟨⟨r, p, q, n, y, w, u, rfl⟩, -⟩ := h; rfl
theorem EccNoted.time : b.time = a.time := by obtain ⟨⟨r, p, q, n, y, w, u, rfl⟩, -⟩ := h; rfl
theorem EccNoted.mem : b.mem = a.mem := by obtain ⟨⟨r, p, q, n, y, w, u, rfl⟩, -⟩ := h; rfl
theorem EccNoted.bank : b.bank = a.bank := by obtain ⟨⟨r, p, q, n, y, w, u, rfl⟩, -⟩ := h; rfl
theorem EccNoted.lsc : b.lsc = a.lsc := by obtain ⟨⟨r, p, q, n, y, w, u, rfl⟩, -⟩ := h; rfl
theorem EccNoted.inReset : b.inReset = a.inReset := by obtain ⟨⟨r, p, q, n, y, w, u, rfl⟩, -⟩ := h; rfl
theorem EccNoted.core (e : Eng) : b.core e = a.core e := by
  obtain ⟨⟨r, p, q, n, y, w, u, rfl⟩, -⟩ := h; cases e <;> rfl

theorem EccNoted.host : b.host = a.host := by simp [Domain.host, h.id]
theorem EccNoted.area (x : Word) : b.area x = a.area x := by simp [Domain.area, h.host]
theorem EccNoted.memKey (x : Nat) : b.memKey x = a.memKey x := by simp [Domain.memKey, h.host, h.bank]

/-- An event that waits goes on waiting. -/
theorem EccNoted.waits {x : Domain} {ev arg : Nat} (hw : Waits x a ev arg) : Waits x b ev arg := by
  obtain ⟨⟨r, p, q, n, y, w, u, rfl⟩, -⟩ := h
  exact List.mem_append_left _ hw
end

theorem EccNoted.spr (d : Domain) (w : Spr) : EccNoted d { d with spr := w } :=
  ⟨⟨d.regs, d.perf, [], d.evNext, d.cyc, w, d.fresh, by simp⟩, fun _ _ _ _ => rfl⟩

theorem EccNoted.setSpr (d : Domain) (f : Spr → Spr) : EccNoted d (d.setSpr f) := .spr d _

theorem EccNoted.setN (d : Domain) (f : Fld) (n : Nat)
    (h : f.reg = SPR_ROWS_NVMPEND.reg ∨ f.reg = BOOT_ROWS_LIST.reg) : EccNoted d (d.setN f n) :=
  ⟨⟨_, d.perf, [], d.evNext, d.cyc, d.spr, d.fresh, by simp; rfl⟩,
    fun g _ h1 h2 => Domain.rg_set_reg d f g _ fun e => h.elim (fun h => h1 (e ▸ h)) (fun h => h2 (e ▸ h))⟩

theorem EccNoted.ite {a b c : Domain} {p : Prop} [Decidable p] (h : EccNoted a b) (g : EccNoted a c) :
    EccNoted a (if p then b else c) := by
  split
  · exact h
  · exact g

theorem EccNoted.refreshRows (d : Domain) : EccNoted d d.refreshRows := by
  unfold Domain.refreshRows
  extract_lets used d1 d2 d3
  have h1 : EccNoted d d1 := .setN _ _ _ (.inl rfl)
  have h2 : EccNoted d1 d2 := .ite (.refl _) (.setN _ _ _ (.inl rfl))
  have h3 : EccNoted d2 d3 := .ite (.setN _ _ _ (.inr rfl)) (.refl _)
  exact ((h1.trans h2).trans h3).trans (.setN _ _ _ (.inl rfl))

theorem EccNoted.evSpr (d : Domain) (kind action idx : Nat) : EccNoted d (d.evSpr kind action idx) := by
  have hev : (if d.id = 4 then 0x7F else 0x7D) < 128 := by split <;> decide
  exact (EccNoted.of_counted (.raise d _ _ hev)).trans (.spr _ _)

theorem EccNoted.evRow (d : Domain) (kind action : Nat) : EccNoted d (d.evRow kind action) := by
  have hfree : EccNoted d (d.free 60).2 :=
    ⟨⟨d.regs, d.perf, [], d.evNext, d.cyc, d.spr, _, by simp; rfl⟩, fun _ _ _ _ => rfl⟩
  exact hfree.trans (.evSpr _ _ _ _)

theorem EccNoted.listRow (d : Domain) (row : Nat) : EccNoted d (d.listRow row) :=
  .ite (.refl d) (.ite (((EccNoted.setSpr d _).trans (.refreshRows _)).trans (.evRow _ _ _)) (.evRow _ _ _))

theorem EccNoted.startRepair (d : Domain) (m row : Nat) : EccNoted d (d.startRepair m row) := .ite (.setSpr _ _) (.refl d)

theorem EccNoted.noteCorrectable (d : Domain) (a : Nat) : EccNoted d (d.noteCorrectable a) := by
  refine (EccNoted.of_counted (.bump d 0x150 1 (by decide))).trans ?_
  unfold Domain.noteCorrectable
  extract_lets x
  split
  · exact .refl _
  · exact .ite (.ite ((EccNoted.setSpr _ _).trans (.listRow _ _)) (.setSpr _ _))
      (.ite ((EccNoted.setSpr _ _).trans (.startRepair _ _ _)) (.setSpr _ _))

theorem EccNoted.noteUncorrectable (d : Domain) (a : Nat) : EccNoted d (d.noteUncorrectable a) := by
  refine (EccNoted.of_counted (.bump d 0x151 1 (by decide))).trans ?_
  unfold Domain.noteUncorrectable
  extract_lets x
  split
  · exact .refl _
  · exact .ite (.refl _) ((EccNoted.setSpr _ _).trans (.startRepair _ _ _))

theorem EccNoted.noteEcc (d : Domain) (e : Ecc) (a : Nat) : EccNoted d (d.noteEcc e a) := by
  cases e
  · exact .refl d
  · exact .noteCorrectable d a
  · exact .noteUncorrectable d a

end Sys2Proof.Machine
end

section
/-! PROOF. What an instruction that a Weir thread issues makes of its channel (R192, R195 to R201). -/

namespace Sys2Proof.Machine

/-! ## Writes of a field on domains that count as each other -/

/-- A bit of a register, as a field of its own. -/
theorem getLsbD_eq_fget (w : Word) (k : Nat) : w.getLsbD k = (fget w k k).getLsbD 0 := by
  rw [fget_getLsbD]; simp

/-- Every bit of a quiet field is a quiet field. -/
theorem Fld.quiet.bit {f : Fld} (h : f.quiet) {k : Nat} (h1 : f.lo ≤ k) (h2 : k ≤ f.hi) : Fld.quiet ⟨f.reg, k, k⟩ := by
  obtain ⟨hhi, hw, ho, hm, hl⟩ := h
  exact ⟨by simp only; omega, hw, ho, hm, fun e => (hl e).imp (by simp only; omega) (by simp only; omega)⟩

/-- The same field written on two domains that count as each other. -/
theorem Counted.set_both {a b : Domain} (h : Counted a b) (f : Fld) (v : Word) : Counted (a.set f v) (b.set f v) := by
  obtain ⟨⟨r, p, q, n, y, hb⟩, hr⟩ := h
  refine ⟨⟨(b.set f v).regs, p, q, n, y, by rw [hb]; rfl⟩, fun g hg => ?_⟩
  by_cases he : f.reg = g.reg
  · have hbit (k : Nat) (h1 : g.lo ≤ k) (h2 : k ≤ g.hi) : (rget b.regs g.reg).getLsbD k = (rget a.regs g.reg).getLsbD k := by
      rw [getLsbD_eq_fget _ k, getLsbD_eq_fget _ k]
      exact congrArg (·.getLsbD 0) (hr ⟨g.reg, k, k⟩ (hg.bit h1 h2))
    simp only [Domain.rg, Domain.set, fld, setFld, he, rget_rput_same]
    apply BitVec.eq_of_getLsbD_eq
    intro i hi
    rw [fget_getLsbD, fget_getLsbD]
    by_cases hin : i < g.hi + 1 - g.lo
    · have hlo : g.lo + i < 32 := by have := hg.1; omega
      rw [fput_getLsbD _ _ _ _ _ hlo, fput_getLsbD _ _ _ _ _ hlo, hbit _ (by omega) (by omega)]
    · simp [hin]
  · rw [Domain.rg_set_reg _ _ _ _ he, Domain.rg_set_reg _ _ _ _ he, hr g hg]

theorem CountedCh.set_both {a b : Channel} (h : CountedCh a b) (f : Fld) (v : Word) : CountedCh (a.set f v) (b.set f v) :=
  ⟨h.dom.set_both f v, by rw [h.rest]; rfl⟩

theorem Counted.setB_both {a b : Domain} (h : Counted a b) (f : Fld) (v : Bool) : Counted (a.setB f v) (b.setB f v) := by
  obtain ⟨⟨r, p, q, n, y, hb⟩, hr⟩ := h.set_both f (ofB v)
  exact ⟨⟨r, p, q, n, (b.setB f v).cyc, by unfold Domain.setB; rw [hb]⟩, hr⟩

theorem CountedCh.setB_both {a b : Channel} (h : CountedCh a b) (f : Fld) (v : Bool) : CountedCh (a.setB f v) (b.setB f v) :=
  ⟨h.dom.setB_both f v, by rw [h.rest]; rfl⟩

/-- The same state of Weir on two channels that count as each other. -/
theorem CountedCh.weir_both {a b : Channel} (h : CountedCh a b) (w : Weir) :
    CountedCh { a with weir := w } { b with weir := w } := ⟨h.dom, by rw [h.rest]⟩

/-! ## Threads -/

@[simp] theorem Weir.th_setTh (w : Weir) (t : Thread) (x : WThread) : (w.setTh t x).th t = x := by cases t <;> rfl
@[simp] theorem Weir.setTh_setTh (w : Weir) (t : Thread) (x y : WThread) : (w.setTh t x).setTh t y = w.setTh t y := by
  cases t <;> rfl

section
variable (w : Weir) (t : Thread) (x y : WThread)
@[simp] theorem Weir.th_after : (w.after t x).th t = x := by simp [Weir.after]
@[simp] theorem Weir.setTh_after : (w.after t x).setTh t y = w.after t y := by simp [Weir.after]
@[simp] theorem Weir.after_theta : (w.after t x).theta = w.theta := by cases t <;> rfl
@[simp] theorem Weir.after_phi : (w.after t x).phi = w.phi := by cases t <;> rfl
@[simp] theorem Weir.after_mode : (w.after t x).mode = w.mode := by cases t <;> rfl
@[simp] theorem Weir.after_lastDir : (w.after t x).lastDir = w.lastDir := by cases t <;> rfl
@[simp] theorem Weir.after_arm0 : (w.after t x).arm0 = w.arm0 := by cases t <;> rfl
@[simp] theorem Weir.after_armed : (w.after t x).armed = w.armed := by cases t <;> rfl
end

/-! ## Issue -/

/-- The code with which a slot stops its thread, if it does (R199): a bad fetch has its own, a field that the instruction
does not allow has 2. -/
def stopCode (fieldsOk : Bool) : SlotFetch → Option Nat
  | .badOpcode => some 1
  | .badField => some 2
  | .ecc => some 3
  | .good => if fieldsOk then none else some 2

theorem stopCode_lt {ok : Bool} {f : SlotFetch} {code : Nat} (h : stopCode ok f = some code) : code < 16 := by
  cases f <;> cases ok <;> simp [stopCode] at h <;> omega

/-- Weir once thread t has issued, its threads as they were. -/
def Weir.issuing (w : Weir) (t : Thread) : Weir :=
  { w with last := t, issued := true, past := if w.past = some (w.th t).pc then none else w.past }

theorem Weir.issuing_setTh (w : Weir) (t : Thread) (x : WThread) : (w.issuing t).setTh t x = w.after t x := rfl
@[simp] theorem Weir.issuing_th (w : Weir) (t u : Thread) : (w.issuing t).th u = w.th u := by cases u <;> rfl

/-- The channel as a legal instruction of thread t finds it: the slot is counted, and the thread stands at the next one
(R192, R193). -/
def Channel.issuedBy (x : Channel) (t : Thread) : Channel :=
  { x.weirItem 0 (x.weir.th t).pc.toNat 1 with weir := x.weir.after t { x.weir.th t with pc := (x.weir.th t).pc + 1 } }

/-- What issue comes to at the thread's turn. -/
theorem Channel.weirIssue_eq {x : Channel} {t : Thread} {f : SlotFetch} {ok : Bool} {op : Channel → BitVec 13 → Channel}
    (hu : x.dom.inReset = false) (ht : x.turnOf t) :
    x.weirIssue t f ok op = match stopCode ok f with
      | some code => ({ x with weir := x.weir.issuing t } : Channel).weirStopAt t code
      | none => op (x.issuedBy t) (x.weir.th t).pc := by
  obtain ⟨hhalt, hnext, hbreak⟩ := ht
  have hwhen : (!x.weir.halted && decide (x.weir.nextReady = some t) && !x.weirAtBreak t && !x.dom.inReset) = true := by
    simp [hhalt, hnext, hbreak, hu]
  unfold Channel.weirIssue
  rw [hwhen, Channel.when_true]
  cases f with
  | good =>
    cases ok with
    | true => cases t <;> rfl
    | false => rfl
  | badOpcode => rfl
  | badField => rfl
  | ecc => rfl

/-! ## Stops -/

/-- WEIR_ERR records an error where none is recorded yet (R199). -/
def Domain.recordsError (d : Domain) (t : Thread) (slot : BitVec 13) (code : Nat) : Domain :=
  if d.rgB WEIR_ERR_VALID then d
  else (((d.setB WEIR_ERR_VALID true).setN WEIR_ERR_CODE code).setN WEIR_ERR_THREAD t.idx).setN WEIR_ERR_ADDR slot.toNat

/-- A stop in its domain: the record, EV_WERR, and the row of a slot with an uncorrectable error noted. -/
def Domain.weirStops (d : Domain) (t : Thread) (slot : BitVec 13) (code : Nat) : Domain :=
  let d := (d.recordsError t slot code).raise 0x1A (threadArg t slot)
  if code = 3 then d.noteUncorrectable (0x51000000 + 8 * slot.toNat) else d

theorem Channel.recordsError_eq (x : Channel) (t : Thread) (slot : BitVec 13) (code : Nat) :
    (if x.rgB WEIR_ERR_VALID then x
      else (((x.setB WEIR_ERR_VALID true).setN WEIR_ERR_CODE code).setN WEIR_ERR_THREAD t.idx).setN WEIR_ERR_ADDR slot.toNat)
      = x.mapDom (·.recordsError t slot code) := by
  by_cases h : x.rgB WEIR_ERR_VALID = true
  · have h' : x.dom.rgB WEIR_ERR_VALID = true := h
    simp only [Channel.mapDom, Domain.recordsError, h, h', if_true]
  · have h' : ¬ x.dom.rgB WEIR_ERR_VALID = true := h
    simp only [Channel.mapDom, Domain.recordsError, h, h']
    rfl

theorem Channel.weirStopAt_eq (x : Channel) (t : Thread) (code : Nat) :
    x.weirStopAt t code =
      (x.setTh t { x.weir.th t with st := .stopped }).mapDom (·.weirStops t (x.weir.th t).pc code) := by
  unfold Channel.weirStopAt Domain.weirStops
  simp only [Channel.recordsError_eq]
  generalize x.setTh t { x.weir.th t with st := .stopped } = y
  by_cases h3 : code = 3
  · simp only [h3, if_true]; rfl
  · simp only [h3, if_false]; rfl

theorem Domain.recordsError_hasRoom {d : Domain} {ev : Nat} (t : Thread) (slot : BitVec 13) (code : Nat)
    (h : HasRoom d ev) : HasRoom (d.recordsError t slot code) ev := by
  unfold Domain.recordsError
  split
  · exact h
  · exact h

theorem Domain.recordsError_time (d : Domain) (t : Thread) (slot : BitVec 13) (code : Nat) :
    (d.recordsError t slot code).time = d.time := by
  unfold Domain.recordsError
  split <;> rfl

theorem Domain.rgB_setN_apart (d : Domain) (f g : Fld) (n : Nat) (hg : g.hi < 32)
    (h : f.reg ≠ g.reg ∨ g.hi < f.lo ∨ f.hi < g.lo) : (d.setN f n).rgB g = d.rgB g := by
  simp [Domain.rgB, Domain.setN, Domain.rg_set_apart d f g _ hg h]

/-- The record as later reads find it. -/
theorem Domain.recordsError_reads {d : Domain} (t : Thread) (slot : BitVec 13) {code : Nat}
    (hv : d.rgB WEIR_ERR_VALID = false) (hc : code < 16) :
    let y := d.recordsError t slot code
    y.rgB WEIR_ERR_VALID = true ∧ y.rgN WEIR_ERR_CODE = code ∧ y.rgN WEIR_ERR_THREAD = t.idx ∧
      y.rgN WEIR_ERR_ADDR = slot.toNat := by
  have ht : t.idx < 4 := by cases t <;> decide
  unfold Domain.recordsError
  rw [hv]
  refine ⟨?_, ?_, ?_, ?_⟩
  · rw [if_neg (by decide), Domain.rgB_setN_apart _ _ _ _ (by decide) (by decide),
      Domain.rgB_setN_apart _ _ _ _ (by decide) (by decide), Domain.rgB_setN_apart _ _ _ _ (by decide) (by decide),
      Domain.rgB_setB_same _ _ _ (by decide) rfl]
  · rw [if_neg (by decide), Domain.rgN_setN_apart _ _ _ _ (by decide) (by decide),
      Domain.rgN_setN_apart _ _ _ _ (by decide) (by decide), Domain.rgN_setN_same _ _ _ (by decide) hc (by decide)]
  · rw [if_neg (by decide), Domain.rgN_setN_apart _ _ _ _ (by decide) (by decide),
      Domain.rgN_setN_same _ _ _ (by decide) ht (by decide)]
  · rw [if_neg (by decide), Domain.rgN_setN_same _ _ _ (by decide) slot.isLt (by decide)]

/-- What follows the record of a stop changes no field but counters and row counts. -/
theorem Domain.weirStops_noted (d : Domain) (t : Thread) (slot : BitVec 13) (code : Nat) :
    EccNoted (d.recordsError t slot code) (d.weirStops t slot code) :=
  (EccNoted.of_counted (.raise _ _ _ (by decide))).trans (.ite (.noteUncorrectable _ _) (.refl _))

theorem Domain.weirStops_waits {d : Domain} (t : Thread) (slot : BitVec 13) (code : Nat) (h : HasRoom d 0x1A) :
    Waits d (d.weirStops t slot code) 0x1A (threadArg t slot) := by
  have hraise := Waits.raise _ d _ (threadArg t slot) (recordsError_hasRoom t slot code h) (recordsError_time d t slot code)
  exact (EccNoted.ite (.noteUncorrectable _ _) (.refl _)).waits hraise

/-- The instruction stops thread t of the channel with this code and touches nothing else (R199): the thread stands at its
slot, EV_WERR is raised, and the first error is recorded. -/
def WeirStops (i : Instr) (s : State) (c : Chan) (t : Thread) (code : Nat) : Prop :=
  ChAnswers i s c fun y =>
    y.weir = (s.ch c).weir.after t { (s.ch c).weir.th t with st := .stopped } ∧
    (HasRoom (s.ch c).dom 0x1A → Waits (s.ch c).dom y.dom 0x1A (threadArg t ((s.ch c).weir.th t).pc)) ∧
    ((s.ch c).rgB WEIR_ERR_VALID = false → y.rgB WEIR_ERR_VALID = true ∧ y.rgN WEIR_ERR_CODE = code ∧
      y.rgN WEIR_ERR_THREAD = t.idx ∧ y.rgN WEIR_ERR_ADDR = ((s.ch c).weir.th t).pc.toNat) ∧
    y.pwm = (s.ch c).pwm ∧ y.cas = (s.ch c).cas ∧ y.cmt = (s.ch c).cmt ∧ y.live = (s.ch c).live

theorem WeirStops.of {i : Instr} {s : State} {c : Chan} {t : Thread} {f : SlotFetch} {ok : Bool} {code : Nat}
    {op : Channel → BitVec 13 → Channel} (hx : exec i s = .next (s.onCh c (·.weirIssue t f ok op))) (hu : s.up c)
    (ht : (s.ch c).turnOf t) (hc : stopCode ok f = some code) : WeirStops i s c t code := by
  refine ChAnswers.of hx hu fun y hy => ?_
  rw [Channel.weirIssue_eq hu ht, hc] at hy
  simp only [Channel.weirStopAt_eq, Weir.issuing_th] at hy
  refine ⟨hy.weir, fun hroom => hy.waits (Domain.weirStops_waits t _ code hroom), fun hv => ?_, hy.pwm, hy.cas, hy.cmt,
    hy.live⟩
  obtain ⟨h1, h2, h3, h4⟩ := Domain.recordsError_reads t ((s.ch c).weir.th t).pc hv (stopCode_lt hc)
  have hn := (Domain.weirStops_noted (s.ch c).dom t ((s.ch c).weir.th t).pc code).rg
  have reads (g : Fld) (hq : g.quiet) (hg : g.reg = WEIR_ERR_VALID.reg) :
      y.rg g = ((s.ch c).dom.recordsError t ((s.ch c).weir.th t).pc code).rg g :=
    (hy.rg g hq).trans (hn g hq (by rw [hg]; decide) (by rw [hg]; decide))
  simp only [Channel.rgB, Channel.rgN, reads _ (by decide : WEIR_ERR_VALID.quiet) rfl,
    reads _ (by decide : WEIR_ERR_CODE.quiet) rfl, reads _ (by decide : WEIR_ERR_THREAD.quiet) rfl,
    reads _ (by decide : WEIR_ERR_ADDR.quiet) rfl]
  exact ⟨h1, h2, h3, h4⟩

/-- A slot with a bad fetch stops its thread, whatever instruction it should hold. -/
theorem stopCode_of_badFetch {f : SlotFetch} {code : Nat} (ok : Bool)
    (h : (f, code) ∈ [(SlotFetch.badOpcode, 1), (.badField, 2), (.ecc, 3)]) : stopCode ok f = some code := by
  simp only [List.mem_cons, Prod.mk.injEq, List.not_mem_nil, or_false] at h
  obtain ⟨rfl, rfl⟩ | ⟨rfl, rfl⟩ | ⟨rfl, rfl⟩ := h <;> rfl

/-! ## Operations -/

/-- The channel once thread t has issued and stands at slot p, nothing else having changed. -/
def Channel.threadAt (x : Channel) (t : Thread) (p : BitVec 13) : Channel :=
  { x with weir := x.weir.after t { x.weir.th t with pc := p } }

/-- The channel as an instruction finds it counts as the one in which its thread alone has gone on. -/
theorem Channel.issuedBy_counted (x : Channel) (t : Thread) :
    CountedCh (x.threadAt t ((x.weir.th t).pc + 1)) (x.issuedBy t) :=
  ⟨.item x.dom 3 0 _ (by decide) (by decide), rfl⟩

/-- An instruction that issues makes of its channel what its operation makes of it, up to what is counted. -/
theorem ChBecomes.of_issue {i : Instr} {s : State} {c : Chan} {t : Thread} {ok : Bool} {a : Channel}
    {op : Channel → BitVec 13 → Channel} (hx : exec i s = .next (s.onCh c (·.weirIssue t .good ok op))) (hu : s.up c)
    (ht : (s.ch c).turnOf t) (hok : ok = true)
    (h : CountedCh a (op ((s.ch c).issuedBy t) ((s.ch c).weir.th t).pc)) : ChBecomes i s c a := by
  refine ChBecomes.of hx hu ?_
  rw [Channel.weirIssue_eq hu ht, hok]
  exact h

@[simp] theorem Channel.issuedBy_weir (x : Channel) (t : Thread) :
    (x.issuedBy t).weir = x.weir.after t { x.weir.th t with pc := (x.weir.th t).pc + 1 } := rfl

theorem quiet_weirK (kr : BitVec 2) : (WEIR_K_K kr.toNat).quiet := by revert kr; decide

@[simp] theorem Channel.issuedBy_weirK (x : Channel) (t : Thread) (kr : BitVec 2) :
    (x.issuedBy t).weirK kr = x.rg (WEIR_K_K kr.toNat) := (x.issuedBy_counted t).rg _ (quiet_weirK kr)

/-- The conditions of R197 do not hang on what issue changes. -/
@[simp] theorem Channel.issuedBy_weirCond (x : Channel) (t : Thread) (cond : BitVec 4) :
    (x.issuedBy t).weirCond t cond = x.weirCond t cond := by
  have hstale : (x.issuedBy t).rgB WEIR_STAT_STALE = x.rgB WEIR_STAT_STALE := (x.issuedBy_counted t).rgB _ (by decide)
  unfold Channel.weirCond
  simp only [issuedBy_weir, Weir.after_mode, Weir.after_lastDir, Weir.th_after, hstale]

/-- The thread that has issued changes once more. -/
theorem CountedCh.setTh {a b : Channel} {w : Weir} {t : Thread} {x : WThread} (h : CountedCh a b)
    (hw : b.weir = w.after t x) (y : WThread) : CountedCh { a with weir := w.after t y } (b.setTh t y) := by
  rw [Channel.setTh, hw, Weir.setTh_after]
  exact h.weir_both _

theorem CountedCh.weirGo {a b : Channel} {w : Weir} {t : Thread} {x : WThread} (h : CountedCh a b)
    (hw : b.weir = w.after t x) (addr : BitVec 13) :
    CountedCh { a with weir := w.after t { x with pc := addr } } (b.weirGo t addr) := by
  rw [Channel.weirGo, hw, Weir.th_after]
  exact h.setTh hw _

theorem Channel.issuedBy_weirGo (x : Channel) (t : Thread) (addr : BitVec 13) :
    CountedCh (x.threadAt t addr) ((x.issuedBy t).weirGo t addr) := (x.issuedBy_counted t).weirGo rfl addr

section
variable {s : State} {c : Chan} {t : Thread} (hu : s.up c) (ht : (s.ch c).turnOf t)
include hu ht

theorem ldk_becomes (kr : BitVec 2) (imm : Word) : ChBecomes (.ldk ⟨c, t, .good⟩ kr imm) s c
    (((s.ch c).threadAt t (((s.ch c).weir.th t).pc + 1)).set (WEIR_K_K kr.toNat) imm) :=
  .of_issue rfl hu ht rfl (((s.ch c).issuedBy_counted t).set_both _ _)

theorem addk_becomes (kr : BitVec 2) (imm : Word) : ChBecomes (.addk ⟨c, t, .good⟩ kr imm) s c
    (((s.ch c).threadAt t (((s.ch c).weir.th t).pc + 1)).set (WEIR_K_K kr.toNat)
      ((s.ch c).rg (WEIR_K_K kr.toNat) + imm)) := by
  refine .of_issue rfl hu ht rfl ?_
  rw [Channel.issuedBy_weirK]
  exact ((s.ch c).issuedBy_counted t).set_both _ _

theorem capk_becomes (kr : BitVec 2) {imm : Word} (hi : imm.toNat < 2) : ChBecomes (.capk ⟨c, t, .good⟩ kr imm) s c
    (((s.ch c).threadAt t (((s.ch c).weir.th t).pc + 1)).set (WEIR_K_K kr.toNat)
      (if imm = 0 then (s.ch c).weir.theta else (s.ch c).weir.phi)) := by
  refine .of_issue rfl hu ht (decide_eq_true hi) ?_
  rw [Channel.issuedBy_weir, Weir.after_theta, Weir.after_phi]
  exact ((s.ch c).issuedBy_counted t).set_both _ _

theorem djnz_becomes (kr : BitVec 2) (addr : BitVec 13) : ChBecomes (.djnz ⟨c, t, .good⟩ kr addr) s c
    (((s.ch c).threadAt t
        (if (s.ch c).rg (WEIR_K_K kr.toNat) - 1 = 0 then ((s.ch c).weir.th t).pc + 1 else addr)).set
      (WEIR_K_K kr.toNat) ((s.ch c).rg (WEIR_K_K kr.toNat) - 1)) := by
  refine .of_issue rfl hu ht rfl ?_
  simp only [Channel.issuedBy_weirK]
  have hset := ((s.ch c).issuedBy_counted t).set_both (WEIR_K_K kr.toNat) ((s.ch c).rg (WEIR_K_K kr.toNat) - 1)
  by_cases hv : (s.ch c).rg (WEIR_K_K kr.toNat) - 1 = 0
  · rw [if_pos hv, if_neg (not_not.2 hv)]
    exact hset
  · rw [if_neg hv, if_pos hv]
    exact hset.weirGo rfl addr

theorem weirBr_becomes {cond : BitVec 4} (addr : BitVec 13) (hc : cond.toNat < 7) :
    ChBecomes (.weirBr ⟨c, t, .good⟩ cond addr) s c
      ((s.ch c).threadAt t (if (s.ch c).weirCond t cond then addr else ((s.ch c).weir.th t).pc + 1)) := by
  refine .of_issue rfl hu ht (decide_eq_true hc) ?_
  rw [Channel.issuedBy_weirCond]
  split
  · exact (s.ch c).issuedBy_weirGo t addr
  · exact (s.ch c).issuedBy_counted t

/-- A flag that stood at the beginning of the cycle lets the thread go on, and is consumed unless it has been set anew; a
flag that did not stand sends it to its address (R12, R201). -/
theorem chkarm_becomes (addr : BitVec 13) {imm : Word} (hi : imm.toNat < 4) :
    ChBecomes (.chkarm ⟨c, t, .good⟩ addr imm) s c
      (if (s.ch c).weir.arm0.getLsbD imm.toNat then
        if (s.ch c).weir.armed.getLsbD imm.toNat then (s.ch c).threadAt t (((s.ch c).weir.th t).pc + 1)
        else ((s.ch c).threadAt t (((s.ch c).weir.th t).pc + 1)).setB (WEIR_ARM_ARM.bit imm.toNat) false
      else (s.ch c).threadAt t addr) := by
  refine .of_issue rfl hu ht (decide_eq_true hi) ?_
  simp only [Channel.issuedBy_weir, Weir.after_arm0, Weir.after_armed]
  have on := (s.ch c).issuedBy_counted t
  split
  · split
    · exact on
    · exact on.setB_both _ _
  · exact (s.ch c).issuedBy_weirGo t addr

theorem weirStop_becomes : ChBecomes (.weirStop ⟨c, t, .good⟩) s c
    { s.ch c with weir := (s.ch c).weir.after t { (s.ch c).weir.th t with st := .stopped } } := by
  refine .of_issue rfl hu ht rfl ?_
  rw [Channel.issuedBy_weir, Weir.th_after]
  exact ((s.ch c).issuedBy_counted t).setTh rfl _

end

/-- Settles O23: a stop is the stop of a slot, whatever the instruction; an instruction that goes on is its operation on the
channel as issue leaves it. -/
theorem weirRegistersBranchesAndStops : Obligations.WeirRegistersBranchesAndStops := by
  unfold Obligations.WeirRegistersBranchesAndStops
  refine ⟨?stops, ?goes⟩
  case stops =>
    intro s c t f code dir kr past rel lim addr cond imm hu ht x k stops
    have of {i : Instr} {ok : Bool} {op : Channel → BitVec 13 → Channel} {code : Nat}
        (hx : exec i s = .next (s.onCh c (·.weirIssue t f ok op))) (hc : stopCode ok f = some code) : stops i code :=
      WeirStops.of hx hu ht hc
    refine ⟨fun hf => ?_, fun hf => ?_⟩
    · have hc (ok : Bool) : stopCode ok f = some code := stopCode_of_badFetch ok hf
      simp only [List.forall_mem_cons]
      exact ⟨of rfl (hc _), of rfl (hc _), of rfl (hc _), of rfl (hc _), of rfl (hc _), of rfl (hc _), of rfl (hc _),
        of rfl (hc _), of rfl (hc _), of rfl (hc _), of rfl (hc _), of rfl (hc _), of rfl (hc _), of rfl (hc _),
        of rfl (hc _), by simp⟩
    · have below (m n : Nat) : decide (m < n) = !decide (n ≤ m) := by
        simp only [← decide_not, Nat.not_le]
      have hc {ok bad : Bool} (hok : ok = !bad) (hbad : bad = true) : stopCode ok f = some 2 := by
        rw [hf, hok, hbad]; rfl
      simp only [List.forall_mem_cons]
      refine ⟨fun h => of rfl (hc ?waita h), fun h => of rfl (hc ?waitc h), fun h => of rfl (hc (below _ _) h),
        fun h => of rfl (hc (below _ _) h), fun h => of rfl (hc (below _ _) h), fun h => of rfl (hc (below _ _) h),
        fun h => of rfl (hc (below _ _) h), fun h => of rfl (hc (below _ _) h), fun h => of rfl (hc (below _ _) h),
        fun h => of rfl (hc (below _ _) h), by simp⟩
      case waita => simp
      case waitc => simp
  case goes =>
    intro s c t kr addr cond imm hu ht x k th v goes writes
    refine ⟨ldk_becomes hu ht kr imm, addk_becomes hu ht kr imm, capk_becomes hu ht kr, djnz_becomes hu ht kr addr,
      .of_issue rfl hu ht rfl (x.issuedBy_weirGo t addr), weirBr_becomes hu ht addr, fun hi => ?_,
      weirStop_becomes hu ht⟩
    have hchk := chkarm_becomes hu ht addr hi
    refine ⟨fun h0 h1 => ?_, fun h0 h1 => ?_, fun h0 => ?_⟩
    · rwa [h0, h1] at hchk
    · rwa [h0, h1] at hchk
    · rwa [h0] at hchk

end Sys2Proof.Machine
end

section
/-! PROOF. What a load of SRAM or code reads: numbers from bytes, sign and zero extension, registers, regions (R4, R34, R116,
R126, R143). -/

namespace Sys2Proof.Machine

/-! ## Numbers from bytes -/

theorem memRead_lt (m : List Host.Cell) (a n : Nat) : memRead m a n < 256 ^ n := by
  induction n generalizing a with
  | zero => simp [memRead]
  | succ n ih =>
    have hb : (memByte m a).toNat < 256 := (memByte m a).isLt
    have := ih (a + 1)
    rw [memRead, Nat.pow_succ']
    omega

/-- The bytes of a number, each at its place, sum to it. -/
theorem sum_bytes (v n : Nat) :
    (List.range n).foldl (fun s i => s + (BitVec.ofNat 8 (v / 256 ^ i)).toNat * 256 ^ i) 0 = v % 256 ^ n := by
  induction n with
  | zero => simp [Nat.mod_one]
  | succ n ih =>
    rw [List.range_succ, List.foldl_append, ih]
    have hmod : v % 256 ^ (n + 1) = v % 256 ^ n + 256 ^ n * (v / 256 ^ n % 2 ^ 8) := by
      rw [Nat.pow_succ]
      exact Nat.mod_mul
    rw [List.foldl_cons, List.foldl_nil, BitVec.toNat_ofNat, hmod, Nat.mul_comm (256 ^ n)]

/-- What a load extends: sign or zero, from the size it names (R126). -/
theorem LoadReq.extend_eq (l : LoadReq) {v : Nat} (hs : l.size = 1 ∨ l.size = 2 ∨ l.size = 4) (hv : v < 256 ^ l.size) :
    l.extend v =
      if l.signed then BitVec.ofInt 32 (BitVec.ofNat (8 * l.size) v).toInt else BitVec.ofNat 32 v := by
  have hw : 256 ^ l.size = 2 ^ (8 * l.size) := by rw [Nat.pow_mul]
  have hpow : 2 ^ (8 * l.size) = 2 * 2 ^ (8 * l.size - 1) := by
    rw [← Nat.pow_succ']
    congr 1
    omega
  have hsgn : sgn (8 * l.size) v = (BitVec.ofNat (8 * l.size) v).toInt := by
    rw [BitVec.toInt_eq_toNat_cond, BitVec.toNat_ofNat, ← hw, Nat.mod_eq_of_lt hv, hw]
    unfold sgn
    rw [← hw, Nat.mod_eq_of_lt hv, hw]
    by_cases h : 2 ^ (8 * l.size - 1) ≤ v
    · rw [if_pos h, if_neg (by omega)]
    · rw [if_neg h, if_pos (by omega)]
  unfold LoadReq.extend
  rw [hsgn, Nat.mod_eq_of_lt hv]
  rfl

/-! ## Registers of a core -/

theorem Core.rd_wr (x : Core) (r q : GReg) (v : Word) : (x.wr q v).rd r = if r = q ∧ r ≠ 0 then v else x.rd r := by
  unfold Core.rd Core.wr
  by_cases h0 : r = 0
  · rw [if_pos h0, if_pos h0, if_neg fun h => h.2 h0]
  · rw [if_neg h0, if_neg h0]
    by_cases hq : q = 0
    · rw [if_pos hq, if_neg fun h => h0 (h.1.trans hq)]
    · rw [if_neg hq]
      by_cases h : r = q
      · rw [if_pos ⟨h, h0⟩, h]
        exact sget_sset_same 0 x.g _ v
      · rw [if_neg fun h' => h h'.1]
        exact sget_sset_other 0 x.g v fun hn => h (BitVec.eq_of_toNat_eq hn).symm

/-- A byte that no store of the core in its buffer covers is that of memory. -/
theorem Core.forwarded_eq {x : Core} {n a : Nat} {b : Byte}
    (h : ∀ q ∈ x.stores, a < q.addr.toNat ∨ q.addr.toNat + q.size ≤ a) : x.forwarded n a b = b := by
  unfold Core.forwarded
  revert h
  induction x.stores generalizing b with
  | nil => intro _; rfl
  | cons q qs ih =>
    intro h
    have hq := h q (by simp)
    rw [List.foldl_cons, if_neg (by omega)]
    exact ih fun p hp => h p (by simp [hp])

/-! ## Regions -/

/-- SRAM and code lie below data NVM, the blocks and the ring (R34, R41, R43). -/
theorem areaOf_of_ge {host : Bool} {a : Nat} (h : 0x20000000 ≤ a) : areaOf host a ≠ .sram ∧ areaOf host a ≠ .code := by
  have hcode : ¬ a < (if host then 0x180000 else 0x300000) := by split <;> omega
  have hsram : ¬ (0x10000000 ≤ a ∧ a < (if host then 0x10400000 else 0x10200000)) := by split <;> omega
  unfold areaOf
  rw [if_neg hcode]
  simp only [hsram, if_false]
  split_ifs <;> simp

/-- The address lies in SRAM or code, where bytes are held with check bits and none is a free value. -/
def Domain.plainMemory (d : Domain) (a : Word) : Prop := d.area a = .sram ∨ d.area a = .code

theorem Domain.plainMemory.lt {d : Domain} {a : Word} (h : d.plainMemory a) : a.toNat < 0x20000000 := by
  by_contra hge
  obtain ⟨hs, hc⟩ := areaOf_of_ge (host := d.host) (Nat.le_of_not_lt hge)
  exact h.elim hs hc

theorem Domain.plainMemory.inRing {d : Domain} {a : Word} (h : d.plainMemory a) : inRing a = false := by
  have := h.lt
  simp only [Machine.inRing, Bool.and_eq_false_iff, decide_eq_false_iff_not]
  omega

theorem Domain.plainMemory.checked {d : Domain} {a : Word} (h : d.plainMemory a) : (d.area a).checked = true := by
  obtain h | h := h <;> rw [h] <;> rfl

theorem Domain.plainMemory.outside {d : Domain} {a : Word} (h : d.plainMemory a) : d.outside a = false := by
  unfold Domain.outside
  obtain h | h := h <;> rw [h] <;> rfl

theorem Domain.plainMemory.countBusy {d : Domain} {a : Word} (h : d.plainMemory a) : d.countBusy a = false := by
  unfold Domain.countBusy
  obtain h | h := h <;> rw [h] <;> rfl

/-- A read there returns what the memory holds and changes nothing. -/
theorem Domain.plainMemory.readMem {d : Domain} {a : Word} (h : d.plainMemory a) (n : Nat) :
    d.readMem a.toNat n = (memRead d.mem (d.memKey a.toNat) n, d) := by
  have hrec : inRecord d.host a.toNat = false := by
    have := h.lt
    unfold inRecord
    split <;> simp only [Bool.and_eq_false_iff, decide_eq_false_iff_not] <;> omega
  have hrom : areaOf d.host a.toNat ≠ .rom := by
    obtain h | h := h <;> unfold Domain.area at h <;> rw [h] <;> decide
  unfold Domain.readMem
  rw [hrec, if_neg hrom]
  rfl

theorem Domain.memKey_sram {d : Domain} {a : Word} (h : d.area a = .sram) : d.memKey a.toNat = a.toNat := by
  unfold Domain.area at h
  rw [Domain.memKey, h, if_neg (by decide)]

/-! ## Completion of a load -/

@[simp] theorem State.setDom_setDom (s : State) (d : Dom) (x y : Domain) : (s.setDom d x).setDom d y = s.setDom d y := by
  cases d with
  | ch n => cases n <;> rfl
  | host => rfl

/-- The value of a load from SRAM or code whose bytes no earlier store of its core covers (R143). -/
theorem State.performLoad_memory {s : State} {d : Dom} {e : Eng} {l : LoadReq} (ha : (s.dom d).plainMemory l.addr)
    (hq : ∀ q ∈ (s.core d e).stores, q.addr.toNat + q.size ≤ l.addr.toNat ∨ l.addr.toNat + l.size ≤ q.addr.toNat) :
    s.performLoad d e l =
      some (memRead (s.dom d).mem ((s.dom d).memKey l.addr.toNat) l.size, s.setDom d (s.dom d)) := by
  have hbyte : ∀ i ∈ List.range l.size, ∀ b : Byte, ((s.dom d).core e).forwarded l.seq (l.addr.toNat + i) b = b := by
    intro i hi b
    have hi := List.mem_range.1 hi
    refine Core.forwarded_eq fun q hmem => ?_
    have := hq q hmem
    omega
  have hv : (List.range l.size).foldl (fun n i => n + (((s.dom d).core e).forwarded l.seq (l.addr.toNat + i)
      (BitVec.ofNat 8 (memRead (s.dom d).mem ((s.dom d).memKey l.addr.toNat) l.size / 256 ^ i))).toNat * 256 ^ i) 0 =
      memRead (s.dom d).mem ((s.dom d).memKey l.addr.toNat) l.size := by
    rw [List.foldl_ext _ _ _ fun n i hi => by rw [hbyte i hi], sum_bytes, Nat.mod_eq_of_lt (memRead_lt _ _ _)]
  unfold State.performLoad
  obtain h | h := id ha <;> simp only [h, ha.readMem, hv]

end Sys2Proof.Machine
end

section
/-! PROOF. LOAD_RESULT and STORE_PERFORMED of SRAM and code: the core, the memory and the exception they leave (R126, R132, R133,
R141). -/

namespace Sys2Proof.Machine

/-! ## What completion makes of a core -/

theorem CoreStep.mem {a b : Domain} {e : Eng} (h : CoreStep a b e) : b.mem = a.mem := by
  obtain ⟨⟨x, y, z, r, p, q, n, t, g, rfl⟩, -⟩ := h
  rfl

theorem CoreStep.time {a b : Domain} {e : Eng} (h : CoreStep a b e) : b.time = a.time := by
  obtain ⟨⟨x, y, z, r, p, q, n, t, g, rfl⟩, -⟩ := h
  rfl

theorem CoreStep.lsc {a b : Domain} {e : Eng} (h : CoreStep a b e) : b.lsc = a.lsc := by
  obtain ⟨⟨x, y, z, r, p, q, n, t, g, rfl⟩, -⟩ := h
  rfl

theorem CoreStep.finish (d : Domain) (e : Eng) (f : Core → Core) : CoreStep d (d.finish e f) e :=
  (CoreStep.mapCore d e _).trans (.retireAt _ e _ _)

theorem Domain.core_finish (d : Domain) (e : Eng) (f : Core → Core) :
    (d.finish e f).core e = (f (d.core e)).next.retiring := by
  unfold Domain.finish
  rw [core_retireAt, core_mapCore]

/-- A watchpoint changes the debug registers and the halt that is asked for. -/
theorem CoreStep.watchpoint (d : Domain) (w : Nat) (store : Bool) (a : Word) (e : Eng) :
    CoreStep d (d.watchpoint w store a) e := by
  have hset : CoreStep d (d.setB (DBG_STAT_WPHIT.bit w) true) e :=
    ⟨⟨d.e0, d.e1, d.e2, _, d.perf, d.evq, d.evNext, _, d.dbg, rfl⟩,
      fun f _ hd => Domain.rg_set_reg d _ f _ hd.symm, fun y _ _ => by cases y <;> rfl⟩
  have hask (d : Domain) : CoreStep d (d.askHalt 4) e :=
    ⟨⟨d.e0, d.e1, d.e2, d.regs, d.perf, d.evq, d.evNext, d.cyc, _, rfl⟩, fun _ _ _ => rfl, fun y _ _ => by cases y <;> rfl⟩
  unfold Domain.watchpoint
  extract_lets kind hit d'
  split
  · refine hset.trans ?_
    split
    · exact .refl d' e
    · exact hask d'
  · exact .refl d e

@[simp] theorem Domain.core_watchpoint (d : Domain) (w : Nat) (store : Bool) (a : Word) (e : Eng) :
    (d.watchpoint w store a).core e = d.core e := by
  unfold Domain.watchpoint
  extract_lets kind hit d'
  split
  · split <;> cases e <;> rfl
  · rfl

theorem CoreStep.watched (d : Domain) (store : Bool) (a : Word) (e : Eng) : CoreStep d (d.watched store a) e :=
  have hcyc : CoreStep d { d with cyc := { d.cyc with accesses := (store, a) :: d.cyc.accesses } } e :=
    ⟨⟨d.e0, d.e1, d.e2, d.regs, d.perf, d.evq, d.evNext, _, d.dbg, rfl⟩, fun _ _ _ => rfl, fun y _ _ => by cases y <;> rfl⟩
  (hcyc.trans (.watchpoint _ 0 store a e)).trans (.watchpoint _ 1 store a e)

@[simp] theorem Domain.core_watched (d : Domain) (store : Bool) (a : Word) (e : Eng) :
    (d.watched store a).core e = d.core e := by
  unfold Domain.watched
  rw [core_watchpoint, core_watchpoint]
  cases e <;> rfl

theorem CoreStep.loadDone (d : Domain) (e : Eng) (l : LoadReq) (v : Word) : CoreStep d (d.loadDone e l v) e := by
  unfold Domain.loadDone
  extract_lets x d'
  refine (CoreStep.mapCore d e _ : CoreStep d d' e).trans ?_
  split
  · exact (CoreStep.finish d' e _).trans (.watched _ _ _ e)
  · exact .mapCore d' e _

/-- A completed load leaves the queue and its value stands in its register, whatever waited for it (R126, R132). -/
theorem Domain.core_loadDone (d : Domain) (e : Eng) (l : LoadReq) (v : Word) :
    (∀ r, ((d.loadDone e l v).core e).rd r = if r = l.rd ∧ r ≠ 0 then v else (d.core e).rd r) ∧
      ((d.loadDone e l v).core e).loads = (d.core e).loads.filter (fun q => q.seq != l.seq) := by
  have hrd (x y : Core) (q : List LoadReq) (hg : y.g = ({ x with loads := q }.wr l.rd v).g) (r : GReg) :
      y.rd r = if r = l.rd ∧ r ≠ 0 then v else x.rd r := by
    rw [show y.rd r = ({ x with loads := q }.wr l.rd v).rd r by unfold Core.rd; rw [hg], Core.rd_wr]
    rfl
  have hloads (x : Core) : (x.wr l.rd v).loads = x.loads := by
    unfold Core.wr
    split <;> rfl
  unfold Domain.loadDone
  extract_lets x d'
  have hd' : d'.core e = { x with loads := x.loads.filter (fun m => m.seq != l.seq) } := core_mapCore d e _
  split
  · rw [core_watched, core_finish, hd']
    exact ⟨hrd x _ _ rfl, hloads _⟩
  · rw [core_mapCore, hd']
    exact ⟨hrd x _ _ rfl, hloads _⟩

/-! ## Completion in the device -/

section
variable {s : State} {d : Dom} {e : Eng} {l : LoadReq}
  (hm : (s.core d e).mayPerform l.seq l.addr l.size l.attr true = true) (ha : (s.dom d).plainMemory l.addr)
include hm ha

/-- LOAD_RESULT of SRAM or code, read without an uncorrectable error: the error is noted and the load completes with the
bytes there, extended. -/
theorem State.loadResult_memory {ecc : Ecc} (hs : l.size = 1 ∨ l.size = 2 ∨ l.size = 4)
    (hq : ∀ q ∈ (s.core d e).stores, q.addr.toNat + q.size ≤ l.addr.toNat ∨ l.addr.toNat + l.size ≤ q.addr.toNat)
    (he : ecc ≠ .uncorrectable) :
    s.loadResult d e l ecc = s.setDom d (((s.dom d).noteEcc ecc ((s.dom d).memKey l.addr.toNat)).loadDone e l
      (if l.signed then
        BitVec.ofInt 32 (BitVec.ofNat (8 * l.size) (memRead (s.dom d).mem ((s.dom d).memKey l.addr.toNat) l.size)).toInt
      else BitVec.ofNat 32 (memRead (s.dom d).mem ((s.dom d).memKey l.addr.toNat) l.size))) := by
  have hn := EccNoted.noteEcc (s.dom d) ecc ((s.dom d).memKey l.addr.toNat)
  generalize hx : (s.dom d).noteEcc ecc ((s.dom d).memKey l.addr.toNat) = x at hn ⊢
  have hax : x.plainMemory l.addr := by
    unfold Domain.plainMemory
    rw [hn.area]
    exact ha
  have hperf := State.performLoad_memory (s := s.setDom d x) (d := d) (e := e) (l := l) (by simpa using hax)
    (by simpa [State.core, hn.core] using hq)
  simp only [State.setDom_dom, hn.mem, hn.memKey] at hperf
  have hm : ((s.dom d).core e).mayPerform l.seq l.addr l.size l.attr true = true := hm
  rw [← l.extend_eq hs (memRead_lt _ _ _)]
  unfold State.loadResult
  simp [hm, ha.countBusy, ha.inRing, ha.checked, he, hperf, hx, hax.outside]

/-- LOAD_RESULT of SRAM or code, read with an uncorrectable error: the error is noted and the load fails (R133). -/
theorem State.loadResult_uncorrectable : s.loadResult d e l .uncorrectable =
    (s.setDom d ((s.dom d).noteEcc .uncorrectable ((s.dom d).memKey l.addr.toNat))).onCore d (·.loadFails e l 0x0E) := by
  have hm : ((s.dom d).core e).mayPerform l.seq l.addr l.size l.attr true = true := hm
  unfold State.loadResult
  simp [hm, ha.countBusy, ha.inRing, ha.checked]

end

/-! ## The exception of a load that fails -/

section
variable {a b : Domain} (h : ∀ f : Fld, f.quiet → f.reg < 0xA0000 → b.rg f = a.rg f)
include h

/-- A flag of an event in EVT_PEND, EVT_EN or EVT_ROUTE. -/
theorem Domain.evBit_congr {base ev : Nat} (hb : 0x10000 ≤ base ∧ base ≤ 0x10020) (hev : ev < 128) :
    b.evBit (fun i => ⟨base + 4 * i, 31, 0⟩) ev = a.evBit (fun i => ⟨base + 4 * i, 31, 0⟩) ev := by
  have hq : (Fld.bit ⟨base + 4 * (ev / 32), 31, 0⟩ (ev % 32)).quiet := by
    simp only [Fld.quiet, Fld.bit]
    omega
  simp only [Domain.evBit, Domain.rgB, h _ hq (by simp only [Fld.bit]; omega)]

theorem Domain.pri_congr {ev : Nat} (hev : ev < 128) : b.pri ev = a.pri ev := by
  have hq : (EVT_PRI_PRI (ev / 8) (ev % 8)).quiet := by
    simp only [Fld.quiet]
    omega
  simp only [Domain.pri, Domain.rgN, h _ hq (by simp only; omega)]

theorem Domain.routed_congr (e : Eng) {ev : Nat} (hev : ev < 128) : b.routed e ev = a.routed e ev := by
  have hdual : b.dual = a.dual := by simp only [Domain.dual, Domain.rgB, h SYS_CAP_DUAL_CORE (by decide) (by decide)]
  have hmain : b.main = a.main := by simp only [Domain.main, Domain.rgN, h _ quiet_main (by decide)]
  have hroute : b.evBit EVT_ROUTE_ROUTE ev = a.evBit EVT_ROUTE_ROUTE ev := evBit_congr h (by decide) hev
  simp only [Domain.routed, hdual, hmain, hroute]

/-- What is pending for an engine hangs on registers of EVT, LSC and SYS alone. -/
theorem Domain.tripPending_congr (e : Eng) : b.tripPending e = a.tripPending e := by
  unfold Domain.tripPending Domain.pendingOf
  congr 1
  refine List.find?_congr fun ev hmem => ?_
  have hev : ev < 128 := List.mem_range.1 hmem
  have hpend : b.evBit EVT_PEND_PEND ev = a.evBit EVT_PEND_PEND ev := evBit_congr h (by decide) hev
  have hen : b.evBit EVT_EN_EN ev = a.evBit EVT_EN_EN ev := evBit_congr h (by decide) hev
  rw [hpend, hen, pri_congr h hev, routed_congr h e hev]

theorem Domain.replays_congr (ht : b.time = a.time) (hl : b.lsc = a.lsc) (e : Eng) : b.replays e = a.replays e := by
  have hphase : b.phase = a.phase := by simp only [Domain.phase, Domain.rgN, h _ quiet_phase (by decide)]
  have hmain : b.main = a.main := by simp only [Domain.main, Domain.rgN, h _ quiet_main (by decide)]
  simp only [Domain.replays, Domain.expected, hphase, hmain, ht, hl]

end

/-- An exception on the maskable path, no trip notification going first (R135). -/
theorem Domain.exception_mask {d : Domain} {e : Eng} (code : Nat) (v : Word) (hn : (d.core e).nexl = false)
    (hx : (d.core e).exl = false) (ht : d.tripPending e = false ∨ d.replays e = true) :
    CoreStep d (d.exception e code v) e ∧
      (d.exception e code v).core e = (d.core e).enterMask (BitVec.ofNat 32 code) v 0 none := by
  have ht : (d.tripPending e && !d.replays e) = false := by
    obtain h | h := ht <;> simp [h]
  have hexc : d.exception e code v = ((d.mapCore e (·.enterMask (BitVec.ofNat 32 code) v 0 none)).coreItem e 9
      (d.occAt e (d.core e).pc false)).stepped e := by
    unfold Domain.exception
    simp only [hn, hx, ht]
    rfl
  have hitem (d : Domain) (o : Occ) : Counted d (d.coreItem e 9 o) := .coreItem d e 9 o (by decide)
  rw [hexc]
  refine ⟨((CoreStep.mapCore d e _).trans (.of_counted e (hitem _ _))).trans (.stepped _ e), ?_⟩
  rw [core_stepped, (hitem _ _).core, core_mapCore]

/-- The exception of a load of SRAM or code that fails: the handler is entered from the load's own address, and the load
leaves nothing in a general register (R133, R135). -/
theorem Domain.loadFails_mask {d : Domain} {e : Eng} {l : LoadReq} (code : Nat) (ha : d.plainMemory l.addr)
    (hn : (d.core e).nexl = false) (hx : (d.core e).exl = false) (ht : d.tripPending e = false ∨ d.replays e = true) :
    CoreStep d (d.loadFails e l code) e ∧ ((d.loadFails e l code).core e).cause = BitVec.ofNat 32 code ∧
      ((d.loadFails e l code).core e).xval = l.addr ∧ ((d.loadFails e l code).core e).epc = l.pc ∧
      ((d.loadFails e l code).core e).g = (d.core e).g := by
  unfold Domain.loadFails
  rw [ha.outside, if_neg Bool.false_ne_true]
  extract_lets d'
  generalize hy : d.mapCore e _ = y
  have hs : CoreStep d y e := hy ▸ .mapCore d e _
  have hc : y.core e = { d.core e with
      loads := (d.core e).loads.filter (fun m => m.seq != l.seq), wait := Wait.none, pc := l.pc } :=
    hy ▸ core_mapCore d e _
  have hrg (f : Fld) (hq : f.quiet) (hf : f.reg < 0xA0000) : y.rg f = d.rg f :=
    hs.rg f hq (Nat.ne_of_lt (Nat.lt_of_lt_of_le hf (by decide)))
  have ht : y.tripPending e = false ∨ y.replays e = true := by
    rwa [tripPending_congr hrg, replays_congr hrg hs.time hs.lsc]
  obtain ⟨hstep, hcore⟩ := exception_mask code l.addr (by rw [hc]; exact hn) (by rw [hc]; exact hx) ht
  rw [hcore, hc]
  exact ⟨hs.trans hstep, rfl, rfl, rfl, rfl⟩

/-! ## Completion of a store -/

@[simp] theorem Domain.core_dropRsv (d : Domain) (e : Eng) (a : Nat) : (d.dropRsv (some e) a).core e = d.core e := by
  cases e <;> simp [dropRsv, core]

theorem Domain.logStore_keeps (d : Domain) (e : Eng) (a : Nat) (old : Word) :
    (d.logStore e a old).mem = d.mem ∧ (d.logStore e a old).rs = d.rs ∧
      ∀ y, (d.logStore e a old).core y = d.core y := by
  have hovf : d.logOverflow.mem = d.mem ∧ d.logOverflow.rs = d.rs ∧ ∀ y, d.logOverflow.core y = d.core y := by
    unfold Domain.logOverflow
    extract_lets told d'
    have hd : d'.mem = d.mem ∧ d'.rs = d.rs ∧ ∀ y, d'.core y = d.core y := ⟨rfl, rfl, fun y => by cases y <;> rfl⟩
    split
    · exact hd
    · have hraise : Counted d' (d'.lsDiag 2) := .raise d' 0x77 2 (by decide)
      rw [hraise.mem, hraise.rs]
      exact ⟨hd.1, hd.2.1, fun y => (hraise.core y).trans (hd.2.2 y)⟩
  unfold Domain.logStore
  split
  · split
    · exact hovf
    · exact ⟨rfl, rfl, fun y => by cases y <;> rfl⟩
  · exact ⟨rfl, rfl, fun _ => rfl⟩

/-- A store that reaches memory writes its bytes there, and its core stays (R141). -/
theorem Domain.writeMem_eq (d : Domain) (e : Eng) (a n : Nat) (v : Word) :
    (d.writeMem e a n v).mem = memWrite d.mem (d.memKey a) n v.toNat ∧ (d.writeMem e a n v).rs = d.rs ∧
      (d.writeMem e a n v).core e = d.core e := by
  unfold Domain.writeMem
  extract_lets w old d'
  obtain ⟨hmem, hrs, hcore⟩ := d'.logStore_keeps e w old
  refine ⟨hmem, hrs, ?_⟩
  rw [core_dropRsv, hcore]
  cases e <;> rfl

theorem State.performStore_sram {s : State} {d : Dom} (e : Eng) {q : StoreReq} (ha : (s.dom d).area q.addr = .sram) :
    s.performStore d e q = some (s.setDom d ((s.dom d).writeMem e q.addr.toNat q.size q.data)) := by
  simp [State.performStore, Domain.storeFails, ha]

/-- STORE_PERFORMED of a buffered store to SRAM whose word has no uncorrectable error: only a store of less than a word reads
its word first (R406). -/
theorem State.storePerformed_sram {s : State} {d : Dom} {e : Eng} {q : StoreReq} {ecc : Ecc}
    (hr : (s.dom d).inReset = false) (hm : (s.core d e).mayPerform q.seq q.addr q.size q.attr false = true)
    (ha : (s.dom d).area q.addr = .sram) (he : ecc ≠ .uncorrectable) :
    s.storePerformed d e false q ecc = s.setDom d ((((s.dom d).noteEcc (if q.size < 4 then ecc else .clean)
      q.addr.toNat).writeMem e q.addr.toNat q.size q.data).storeDone e false q) := by
  have hp : (s.dom d).plainMemory q.addr := .inl ha
  have hm : ((s.dom d).core e).mayPerform q.seq q.addr q.size q.attr false = true := hm
  have he' : (if q.size < 4 then ecc else .clean) ≠ .uncorrectable := by
    split
    · exact he
    · decide
  have hecc : (if ((s.dom d).area q.addr).checked && decide (q.size < 4) then ecc else .clean) =
      if q.size < 4 then ecc else .clean := by
    simp [hp.checked]
  have hn := EccNoted.noteEcc (s.dom d) (if q.size < 4 then ecc else .clean) q.addr.toNat
  generalize hx : (s.dom d).noteEcc (if q.size < 4 then ecc else .clean) q.addr.toNat = x at hn ⊢
  have hperf := State.performStore_sram (s := s.setDom d x) (d := d) e (q := q) (by simpa [hn.area] using ha)
  have hxr : (x.writeMem e q.addr.toNat q.size q.data).inReset = false := by
    unfold Domain.inReset
    rw [(Domain.writeMem_eq _ e _ _ _).2.1]
    exact hn.inReset.trans hr
  unfold State.storePerformed
  simp only [hecc, Domain.memKey_sram ha, hx]
  simp [hm, hp.inRing, hr, he', hperf, hxr]

/-! ## What the device shows afterwards -/

theorem State.exec_loadResult {s : State} {d : Dom} {e : Eng} {i : Nat} {l : LoadReq} (ecc : Ecc)
    (hr : (s.dom d).inReset = false) (hrun : (s.core d e).run = .running) (hl : (s.core d e).loads[i]? = some l) :
    exec (.loadResult d e i ecc) s = .next (s.loadResult d e l ecc) := by
  unfold State.core at hrun hl
  show Host.Outcome.next (s.loadResultAt d e i ecc) = _
  simp [State.loadResultAt, hr, hrun, hl]

theorem State.exec_storePerformed {s : State} {d : Dom} {e : Eng} {i : Nat} {q : StoreReq} (ecc : Ecc)
    (hr : (s.dom d).inReset = false) (hq : (s.core d e).stores[i]? = some q) :
    exec (.storePerformed d e false i ecc) s = .next (s.storePerformed d e false q ecc) := by
  unfold State.core at hq
  show Host.Outcome.next (s.storePerformedAt d e false i ecc) = _
  simp [State.storePerformedAt, hr, hq]

/-- An uncorrectable error of a load of SRAM or code raises 0x0E at the load, if the maskable path is open (R133, R135). -/
theorem State.core_loadResult_uncorrectable {s : State} {d : Dom} {e : Eng} {l : LoadReq} (hr : (s.dom d).inReset = false)
    (hm : (s.core d e).mayPerform l.seq l.addr l.size l.attr true = true) (ha : (s.dom d).plainMemory l.addr)
    (hopen : MaskOpen s ⟨d, e, .good⟩) :
    let x := (s.loadResult d e l .uncorrectable).core d e
    x.cause = 0x0E ∧ x.xval = l.addr ∧ x.epc = l.pc ∧ x.g = (s.core d e).g := by
  obtain ⟨hexl, hnexl, htrip⟩ := hopen
  rw [State.loadResult_uncorrectable hm ha]
  have hn := EccNoted.noteEcc (s.dom d) .uncorrectable ((s.dom d).memKey l.addr.toNat)
  generalize (s.dom d).noteEcc .uncorrectable ((s.dom d).memKey l.addr.toNat) = y at hn ⊢
  have hcore : y.core e = s.core d e := hn.core e
  have hrg (f : Fld) (hq : f.quiet) (hf : f.reg < 0xA0000) : y.rg f = (s.dom d).rg f :=
    hn.rg f hq (Nat.ne_of_lt (hf.trans (by decide))) (Nat.ne_of_lt (hf.trans (by decide)))
  have htrip : y.tripPending e = false ∨ y.replays e = true := by
    rwa [Domain.tripPending_congr hrg, Domain.replays_congr hrg hn.time hn.lsc]
  have hay : y.plainMemory l.addr := by
    unfold Domain.plainMemory
    rwa [hn.area]
  obtain ⟨hstep, hfails⟩ := Domain.loadFails_mask (l := l) 0x0E hay (hcore ▸ hnexl) (hcore ▸ hexl) htrip
  have hframe := (s.setDom d y).onCore_frame d e (·.loadFails e l 0x0E)
    (by rw [State.setDom_dom]; exact hn.inReset.trans hr) (by rw [State.setDom_dom]; exact hstep)
  rw [hframe.1, State.setDom_dom, ← hcore]
  exact hfails

/-- The domain of a buffered store to SRAM that has been performed: its bytes stand in memory, and it has left the buffer. -/
theorem Domain.storeDone_writeMem {m : Domain} {e : Eng} {q : StoreReq} (ha : m.area q.addr = .sram) :
    let y := (m.writeMem e q.addr.toNat q.size q.data).storeDone e false q
    y.mem = memWrite m.mem q.addr.toNat q.size q.data.toNat ∧
      (y.core e).stores = (m.core e).stores.filter (fun p => p.seq != q.seq) ∧ (y.core e).g = (m.core e).g := by
  obtain ⟨hmem, -, hcore⟩ := m.writeMem_eq e q.addr.toNat q.size q.data
  rw [memKey_sram ha] at hmem
  have hdone := core_mapCore (m.writeMem e q.addr.toNat q.size q.data) e
    (fun x => { x with stores := x.stores.filter (fun p => p.seq != q.seq), wait := x.wait.room })
  refine ⟨(CoreStep.mapCore _ e _).mem.trans hmem, ?_, ?_⟩
  · exact (congrArg Core.stores hdone).trans (by rw [hcore])
  · exact (congrArg Core.g hdone).trans (by rw [hcore])

theorem State.setDom_ch_of_ne (s : State) {d : Dom} (x : Domain) {n : Chan} (h : .ch n ≠ d) :
    (s.setDom d x).ch n = s.ch n := by
  cases d with
  | ch k => exact State.setCh_ch_other s _ fun hk => h (congrArg Dom.ch hk.symm)
  | host => cases n <;> rfl

/-- Settles O10: a completed load or store is the note of its read's errors, then the change of its core or of memory. -/
theorem accessesComplete : Obligations.AccessesComplete := by
  unfold Obligations.AccessesComplete
  refine ⟨?loads, ?stores⟩
  case loads =>
    intro s d e i l ecc x m hr hrun hl hm ha hs hdev hq v
    have hexec := State.exec_loadResult ecc hr hrun hl
    refine ⟨fun he => ⟨_, hexec, ?_⟩, fun he hopen => ⟨_, hexec, ?_⟩⟩
    · have hn := EccNoted.noteEcc m ecc (m.memKey l.addr.toNat)
      obtain ⟨hrd, hloads⟩ := (m.noteEcc ecc (m.memKey l.addr.toNat)).core_loadDone e l
        (if l.signed then BitVec.ofInt 32 (BitVec.ofNat (8 * l.size) v).toInt else BitVec.ofNat 32 v)
      rw [hn.core] at hrd hloads
      simp only [State.loadResult_memory hm ha hs hq he, State.core, State.setDom_dom, State.setDom_pending]
      exact ⟨hrd, hloads, (CoreStep.loadDone _ e l _).mem.trans hn.mem, trivial⟩
    · rw [he]
      exact State.core_loadResult_uncorrectable hr hm ha hopen
  case stores =>
    intro s d e i q ecc x m hr hq hm ha he
    refine ⟨_, State.exec_storePerformed ecc hr hq, ?_⟩
    have hn := EccNoted.noteEcc (s.dom d) (if q.size < 4 then ecc else .clean) q.addr.toNat
    obtain ⟨hmem, hstores, hg⟩ := Domain.storeDone_writeMem (e := e) ((hn.area q.addr).trans ha)
    rw [hn.mem] at hmem
    rw [hn.core] at hstores hg
    simp only [State.storePerformed_sram hr hm ha he, State.core, State.setDom_dom, hmem]
    exact ⟨fun j hj => memByte_memWrite _ _ _ _ _ hj, fun j hj => memByte_memWrite_other _ _ _ _ _ hj, hstores, hg,
      fun n hne => State.setDom_ch_of_ne s _ hne⟩

end Sys2Proof.Machine
end

section
/-! PROOF. The number and the memory of every domain, which nearly every function of the model leaves as they are (R21, R24, R49,
R50): one equation per function, in the order of the model. -/

namespace Sys2Proof.Machine

/-- The number of a domain and its memory. -/
def Domain.idMem (d : Domain) : Nat × List Host.Cell := (d.id, d.mem)

/-- The numbers and the memories of all domains. -/
def State.idMem (s : State) (d : Dom) : Nat × List Host.Cell := (s.dom d).idMem

@[simp] theorem Domain.idMem_mk (d : Domain) (t f rs r q st en et cy x y z p l pf db th sp b o w) :
    (Domain.mk d.id t f rs r d.mem q st en et cy x y z p l pf db th sp b o w).idMem = d.idMem := rfl
@[simp] theorem Domain.idMem_ite (p : Prop) [Decidable p] (x y : Domain) :
    (if p then x else y).idMem = if p then x.idMem else y.idMem := apply_ite _ _ _ _
@[simp] theorem Channel.dom_ite (p : Prop) [Decidable p] (x y : Channel) :
    (if p then x else y).dom.idMem = if p then x.dom.idMem else y.dom.idMem := by split <;> rfl
@[simp] theorem HostDom.dom_ite (p : Prop) [Decidable p] (x y : HostDom) :
    (if p then x else y).dom.idMem = if p then x.dom.idMem else y.dom.idMem := by split <;> rfl
@[simp] theorem State.idMem_ite (p : Prop) [Decidable p] (x y : State) :
    (if p then x else y).idMem = if p then x.idMem else y.idMem := apply_ite _ _ _ _

@[simp] theorem State.idMem_dom (s : State) (d : Dom) : (s.dom d).idMem = s.idMem d := rfl
@[simp] theorem State.idMem_ch (s : State) (n : Chan) : (s.ch n).dom.idMem = s.idMem (.ch n) := rfl
@[simp] theorem State.idMem_host (s : State) : s.host.dom.idMem = s.idMem .host := rfl

@[simp] theorem State.idMem_setCh (s : State) (n : Chan) (c : Channel) :
    (s.setCh n c).idMem = Function.update s.idMem (.ch n) c.dom.idMem := by
  funext d
  cases d with
  | ch m => cases n <;> cases m <;> rfl
  | host => cases n <;> rfl

@[simp] theorem State.idMem_setDom (s : State) (d : Dom) (x : Domain) :
    (s.setDom d x).idMem = Function.update s.idMem d x.idMem := by
  cases d with
  | ch n => exact s.idMem_setCh n _
  | host => funext d; cases d <;> rfl

@[simp] theorem State.idMem_mk (s : State) (h : HostDom) (v : Dev) (p : List Instr) :
    (State.mk s.c0 s.c1 s.c2 s.c3 h v p).idMem = Function.update s.idMem .host h.dom.idMem := by
  funext d
  cases d with
  | ch n => cases n <;> rfl
  | host => rfl

@[simp] theorem Domain.idMem_foldl {α : Type} (f : Domain → α → Domain) (l : List α) (d : Domain)
    (h : ∀ d x, (f d x).idMem = d.idMem) : (l.foldl f d).idMem = d.idMem := by
  induction l generalizing d with
  | nil => rfl
  | cons x l ih => exact (ih _).trans (h d x)

@[simp] theorem Channel.idMem_foldl {α : Type} (f : Channel → α → Channel) (l : List α) (c : Channel)
    (h : ∀ c x, (f c x).dom.idMem = c.dom.idMem) : (l.foldl f c).dom.idMem = c.dom.idMem := by
  induction l generalizing c with
  | nil => rfl
  | cons x l ih => exact (ih _).trans (h c x)

@[simp] theorem HostDom.idMem_foldl {α : Type} (f : HostDom → α → HostDom) (l : List α) (c : HostDom)
    (h : ∀ c x, (f c x).dom.idMem = c.dom.idMem) : (l.foldl f c).dom.idMem = c.dom.idMem := by
  induction l generalizing c with
  | nil => rfl
  | cons x l ih => exact (ih _).trans (h c x)

@[simp] theorem State.idMem_foldl {α : Type} (f : State → α → State) (l : List α) (s : State)
    (h : ∀ s x, (f s x).idMem = s.idMem) : (l.foldl f s).idMem = s.idMem := by
  induction l generalizing s with
  | nil => rfl
  | cons x l ih => exact (ih _).trans (h s x)

/-! ## Registers, events and values of a domain, plan writes of a channel -/

@[simp] theorem Domain.idMem_set (d : Domain) (f : Fld) (v : Word) : (d.set f v).idMem = d.idMem := by simp [Domain.set]
@[simp] theorem Domain.idMem_setN (d : Domain) (f : Fld) (v : Nat) : (d.setN f v).idMem = d.idMem := by simp [setN]
@[simp] theorem Domain.idMem_setB (d : Domain) (f : Fld) (b : Bool) : (d.setB f b).idMem = d.idMem := by simp [setB]
@[simp] theorem Domain.idMem_count (d : Domain) (f : Fld) : (d.count f).idMem = d.idMem := by simp [count]
@[simp] theorem Domain.idMem_raiseAt (d : Domain) (t ev arg : Nat) :
    (d.raiseAt t ev arg).idMem = d.idMem := by simp [raiseAt]
@[simp] theorem Domain.idMem_raise (d : Domain) (ev arg : Nat) : (d.raise ev arg).idMem = d.idMem := by simp [raise]
@[simp] theorem Domain.idMem_free (d : Domain) (site : Nat) : (d.free site).2.idMem = d.idMem := by simp [free]
@[simp] theorem Channel.idMem_set (c : Channel) (f : Fld) (v : Word) :
    (c.set f v).dom.idMem = c.dom.idMem := by simp [Channel.set]
@[simp] theorem Channel.idMem_setN (c : Channel) (f : Fld) (v : Nat) : (c.setN f v).dom.idMem = c.dom.idMem := by simp [setN]
@[simp] theorem Channel.idMem_setB (c : Channel) (f : Fld) (b : Bool) :
    (c.setB f b).dom.idMem = c.dom.idMem := by simp [setB]
@[simp] theorem Channel.idMem_count (c : Channel) (f : Fld) : (c.count f).dom.idMem = c.dom.idMem := by simp [count]
@[simp] theorem Channel.idMem_raise (c : Channel) (ev : Nat) (arg : Nat) :
    (c.raise ev arg).dom.idMem = c.dom.idMem := by simp [raise]
@[simp] theorem Channel.idMem_raiseAt (c : Channel) (t ev : Nat) (arg : Nat) :
    (c.raiseAt t ev arg).dom.idMem = c.dom.idMem := by simp [raiseAt]
@[simp] theorem Channel.idMem_clearReg (c : Channel) (k : Nat) : (c.clearReg k).dom.idMem = c.dom.idMem := by simp [clearReg]
@[simp] theorem Channel.idMem_when (c : Channel) (p : Bool) (f : Channel → Channel) :
    (c.when p f).dom.idMem = if p then (f c).dom.idMem else c.dom.idMem := by cases p <;> rfl
@[simp] theorem Channel.idMem_free (c : Channel) (site : Nat) : (c.free site).2.dom.idMem = c.dom.idMem := by simp [free]
@[simp] theorem Channel.idMem_planPut (c : Channel) (k : Nat) (v : Word) :
    (c.planPut k v).dom.idMem = c.dom.idMem := by simp [planPut]

@[simp] theorem Channel.idMem_writePlan (c : Channel) (k : Nat) (v : Word) : (c.writePlan k v).dom.idMem = c.dom.idMem := by
  unfold writePlan
  split <;> simp

/-! ## The coordinates of a channel -/

@[simp] theorem Channel.idMem_toAsyncHere (c : Channel) : c.toAsyncHere.dom.idMem = c.dom.idMem := by simp [toAsyncHere]
@[simp] theorem Channel.idMem_abandonTransition (c : Channel) :
    c.abandonTransition.dom.idMem = c.dom.idMem := by simp [abandonTransition]
@[simp] theorem Channel.idMem_useLatch (c : Channel) (theta omega : Word) (stamp : Nat) :
    (c.useLatch theta omega stamp).1.dom.idMem = c.dom.idMem := by simp [useLatch]

@[simp] theorem Channel.idMem_advance (c : Channel) (th : Word) (jump : Bool) :
    (c.advance th jump).dom.idMem = c.dom.idMem := by
  simp only [advance]
  repeat' split
  all_goals simp

@[simp] theorem Channel.idMem_coordinates (c : Channel) (l : Option (Word × Word × Nat)) :
    (c.coordinates l).1.dom.idMem = c.dom.idMem := by
  unfold coordinates
  split <;> simp [newRate, stale]

@[simp] theorem Channel.idMem_boundaryMode (c : Channel) : c.boundaryMode.dom.idMem = c.dom.idMem := by
  unfold boundaryMode
  split <;> simp

/-! ## Events -/

@[simp] theorem Domain.idMem_bump (d : Domain) (n n' : Nat) : (d.bump n n').idMem = d.idMem := by simp [bump]
@[simp] theorem Domain.idMem_item (d : Domain) (e j : Nat) (o : Occ) :
    (d.item e j o).idMem = d.idMem := by simp [item, sample, smpEntry]
@[simp] theorem Channel.idMem_bump (c : Channel) (n n' : Nat) : (c.bump n n').dom.idMem = c.dom.idMem := by simp [bump]
@[simp] theorem Channel.idMem_item (c : Channel) (e j : Nat) (o : Occ) :
    (c.item e j o).dom.idMem = c.dom.idMem := by simp [item]
@[simp] theorem Domain.idMem_evSpr (d : Domain) (kind action idx : Nat) :
    (d.evSpr kind action idx).idMem = d.idMem := by simp [evSpr]

@[simp] theorem Domain.idMem_setCore (d : Domain) (e : Eng) (c : Core) : (d.setCore e c).idMem = d.idMem := by
  unfold setCore
  split <;> simp

@[simp] theorem Domain.idMem_putCore (d : Domain) (e : Eng) (c : Core) : (d.putCore e c).idMem = d.idMem := by
  unfold putCore
  split <;> simp

@[simp] theorem Domain.idMem_mapCore (d : Domain) (e : Eng) (f : Core → Core) :
    (d.mapCore e f).idMem = d.idMem := by simp [mapCore]
@[simp] theorem Domain.idMem_clearPending (d : Domain) (ev : Nat) :
    (d.clearPending ev).idMem = d.idMem := by simp [clearPending]
@[simp] theorem Domain.idMem_deliver (d : Domain) (e : Event) :
    (d.deliver e).idMem = d.idMem := by simp [deliver, setPending]

@[simp] theorem Domain.idMem_claim (d : Domain) (e : Eng) : (d.claim e).2.idMem = d.idMem := by
  unfold claim
  repeat' split
  all_goals simp

/-! ## Position -/

@[simp] theorem Channel.idMem_emUpdate (c : Channel) : c.emUpdate.dom.idMem = c.dom.idMem := by simp [emUpdate]
@[simp] theorem Channel.idMem_encMove (c : Channel) (back : Bool) :
    (c.encMove back).dom.idMem = c.dom.idMem := by simp [encMove]
@[simp] theorem Channel.idMem_encShift (c : Channel) (e : BitVec 48) :
    (c.encShift e).dom.idMem = c.dom.idMem := by simp [encShift]
@[simp] theorem Channel.idMem_encValid (c : Channel) (b : Bool) :
    (c.encValid b).dom.idMem = c.dom.idMem := by simp [encValid]
@[simp] theorem Channel.idMem_direction (c : Channel) (back : Bool) :
    (c.direction back).dom.idMem = c.dom.idMem := by simp [direction]

@[simp] theorem Channel.idMem_encoderStep (c : Channel) (ab : BitVec 2) : (c.encoderStep ab).dom.idMem = c.dom.idMem := by
  simp only [encoderStep, idMem_when]
  repeat' split
  all_goals simp

@[simp] theorem Channel.idMem_encoderIndex (c : Channel) : c.encoderIndex.dom.idMem = c.dom.idMem := by simp [encoderIndex]
@[simp] theorem Channel.idMem_encoderLineFault (c : Channel) (pairs : BitVec 3) :
    (c.encoderLineFault pairs).dom.idMem = c.dom.idMem := by simp [encoderLineFault]
@[simp] theorem Channel.idMem_encoderLineFaultEnd (c : Channel) :
    c.encoderLineFaultEnd.dom.idMem = c.dom.idMem := by simp [encoderLineFaultEnd]
@[simp] theorem Channel.idMem_withPosBank (c : Channel) (bank : List (Nat × Word)) :
    (c.withPosBank bank).dom.idMem = c.dom.idMem := by simp [withPosBank]

@[simp] theorem Channel.idMem_periodSpeed (c : Channel) (src : Nat) (es : List Edge) :
    (c.periodSpeed src es).2.dom.idMem = c.dom.idMem := by
  simp only [periodSpeed]
  repeat' split
  all_goals simp

@[simp] theorem Channel.idMem_countSpeed (c : Channel) (src : Nat) (prev : Option (BitVec 48 × Nat)) (p : BitVec 48)
    (t : Nat) :
    (c.countSpeed src prev p t).2.dom.idMem = c.dom.idMem := by
  unfold countSpeed
  repeat' split
  all_goals simp

@[simp] theorem Channel.idMem_formLatch (c : Channel) (src : Nat) : (c.formLatch src).2.dom.idMem = c.dom.idMem := by
  simp only [formLatch]
  repeat' split
  all_goals simp

@[simp] theorem Channel.idMem_crossCheck (c : Channel) (s : Nat) (theta omega : Word) (t : Nat) :
    (c.crossCheck s theta omega t).dom.idMem = c.dom.idMem := by simp [crossCheck]
@[simp] theorem Channel.idMem_methodDecide (c : Channel) (omega : Word) :
    (c.methodDecide omega).dom.idMem = c.dom.idMem := by simp [methodDecide]

@[simp] theorem Channel.idMem_methodApply (c : Channel) : c.methodApply.dom.idMem = c.dom.idMem := by
  unfold methodApply
  split <;> simp

@[simp] theorem Channel.idMem_mapStill (c : Channel) (f : Still → Still) :
    (c.mapStill f).dom.idMem = c.dom.idMem := by simp [mapStill]
@[simp] theorem Channel.idMem_tellStill (c : Channel) : c.tellStill.dom.idMem = c.dom.idMem := by simp [tellStill]
@[simp] theorem Channel.idMem_latchFrom (c : Channel) (src s due : Nat) (prim : BitVec 48) :
    (c.latchFrom src s due prim).dom.idMem = c.dom.idMem := by simp [latchFrom]

@[simp] theorem Channel.idMem_latchDue (c : Channel) : c.latchDue.1.dom.idMem = c.dom.idMem := by
  unfold latchDue
  repeat' split
  all_goals simp [writeLatch]

@[simp] theorem Channel.idMem_ssiDecode (c : Channel) (start ends : Nat) (bits : BitVec 48) (low : Bool) :
    (c.ssiDecode start ends bits low).dom.idMem = c.dom.idMem := by simp [ssiDecode]

@[simp] theorem Channel.idMem_ssiFrameEnd (c : Channel) (bits : BitVec 48) (low : Bool) :
    (c.ssiFrameEnd bits low).dom.idMem = c.dom.idMem := by
  unfold ssiFrameEnd
  split <;> simp [ssiFinish]

@[simp] theorem Channel.idMem_hallChange (c : Channel) (h : BitVec 3) : (c.hallChange h).dom.idMem = c.dom.idMem := by
  simp only [hallChange]
  repeat' split
  all_goals simp [hallMove]

@[simp] theorem Channel.idMem_tickPos (c : Channel) : c.tickPos.dom.idMem = c.dom.idMem := by simp [tickPos, emStep]
@[simp] theorem Channel.idMem_cntset (c : Channel) (w : Word) : (c.cntset w).dom.idMem = c.dom.idMem := by simp [cntset]
@[simp] theorem Channel.idMem_commitPos (old : List (Nat × Word)) (c : Channel) :
    (c.commitPos old).dom.idMem = c.dom.idMem := by simp [commitPos]

/-! ## Conversions -/

@[simp] theorem Channel.idMem_putResult (c : Channel) (line word : Nat) (v : Word) :
    (c.putResult line word v).dom.idMem = c.dom.idMem := by simp [putResult]
@[simp] theorem Channel.idMem_setReady (c : Channel) (b : Bool) :
    (c.setReady b).dom.idMem = c.dom.idMem := by simp [setReady]

@[simp] theorem Channel.idMem_roverOutcome (c : Channel) (bank : List (Nat × Word)) (k : Check) (miss : Bool) :
    (c.roverOutcome bank k miss).dom.idMem = c.dom.idMem := by
  unfold roverOutcome
  repeat' split
  all_goals simp [roverFailed, slotFailed]

@[simp] theorem Channel.idMem_askSub (c : Channel) (j : Nat) : (c.askSub j).dom.idMem = c.dom.idMem := by simp [askSub]

@[simp] theorem Channel.idMem_subDue (c : Channel) : c.subDue.dom.idMem = c.dom.idMem := by
  unfold subDue
  split <;> simp [substitute]

@[simp] theorem Channel.idMem_subCmd (c : Channel) (w : Word) : (c.subCmd w).dom.idMem = c.dom.idMem := by simp [subCmd]
@[simp] theorem Channel.idMem_startGroup (c : Channel) (line : Nat) (late : Bool) :
    (c.startGroup line late).dom.idMem = c.dom.idMem := by simp [startGroup]

@[simp] theorem Channel.idMem_startPending (c : Channel) : c.startPending.dom.idMem = c.dom.idMem := by
  unfold startPending
  split <;> simp

@[simp] theorem Channel.idMem_storeWord (c : Channel) (g : Group) (word : Nat) (v : Word) :
    (c.storeWord g word v).1.dom.idMem = c.dom.idMem := by simp [storeWord]

@[simp] theorem Channel.idMem_storeSd (c : Channel) (g : Group) : (c.storeSd g).1.dom.idMem = c.dom.idMem := by
  have key (op : Channel × Group → Nat × Word → Channel × Group) (ho : ∀ x w, (op x w).1.dom.idMem = x.1.dom.idMem)
      (l : List (Nat × Word)) (x : Channel × Group) : (l.foldl op x).1.dom.idMem = x.1.dom.idMem := by
    induction l generalizing x with
    | nil => rfl
    | cons w l ih => exact (ih _).trans (ho x w)
  refine key _ (fun x w => ?_) _ _
  dsimp only
  split <;> simp

@[simp] theorem Channel.idMem_storeSlot (c : Channel) (g : Group) (q : Sample) (j : Nat) :
    (c.storeSlot g q j).1.dom.idMem = c.dom.idMem := by
  unfold storeSlot
  split <;> simp

@[simp] theorem Channel.idMem_storeRover (c : Channel) (g : Group) (q : Sample) :
    (c.storeRover g q).1.dom.idMem = c.dom.idMem := by
  unfold storeRover
  split <;> simp

@[simp] theorem Channel.idMem_conversionStore (c : Channel) (q : Sample) :
    (c.conversionStore q).dom.idMem = c.dom.idMem := by
  unfold conversionStore
  repeat' split
  all_goals simp

@[simp] theorem Channel.idMem_stampGroup (c : Channel) : c.stampGroup.dom.idMem = c.dom.idMem := by
  unfold stampGroup
  split <;> simp

@[simp] theorem Channel.idMem_muxRest (c : Channel) (g : Group) : (c.muxRest g).dom.idMem = c.dom.idMem := by
  simp only [muxRest]
  repeat' split
  all_goals simp [moveMux]

@[simp] theorem Channel.idMem_groupEdge (c : Channel) : c.groupEdge.dom.idMem = c.dom.idMem := by
  unfold groupEdge
  extract_lets _ c₁
  have h₁ : c₁.dom.idMem = c.dom.idMem := rfl
  clear_value c₁
  split
  · exact h₁
  · rename_i g _
    rw [idMem_when]
    split
    · extract_lets x g' st c₂ c₃ _
      have hx : x.1.dom.idMem = c₁.dom.idMem := by
        unfold x
        split
        · exact c₁.idMem_storeSd g
        · rfl
      clear_value x st
      rw [idMem_muxRest]
      exact (idMem_raise c₂ _ _).trans ((idMem_putResult _ _ _ _).trans (hx.trans h₁))
    · exact h₁

@[simp] theorem Channel.idMem_refFall (c : Channel) : c.refFall.dom.idMem = c.dom.idMem := by simp [refFall]
@[simp] theorem Channel.idMem_refReadyRise (c : Channel) : c.refReadyRise.dom.idMem = c.dom.idMem := by simp [refReadyRise]
@[simp] theorem Channel.idMem_refReadyFall (c : Channel) : c.refReadyFall.dom.idMem = c.dom.idMem := by simp [refReadyFall]
@[simp] theorem Channel.idMem_sdWordComplete (c : Channel) (d sum : Nat) (toggled : Bool) :
    (c.sdWordComplete d sum toggled).dom.idMem = c.dom.idMem := by simp [sdWordComplete]
@[simp] theorem Channel.idMem_sdStuck (c : Channel) (d : Nat) : (c.sdStuck d).dom.idMem = c.dom.idMem := by simp [sdStuck]
@[simp] theorem Channel.idMem_endSd (c : Channel) (d : Nat) : (c.endSd d).dom.idMem = c.dom.idMem := by simp [endSd]
@[simp] theorem Channel.idMem_resolverPair (c : Channel) (p : ResolverPair) :
    (c.resolverPair p).dom.idMem = c.dom.idMem := by simp [resolverPair, resLock, resUnlock, resolverTake]
@[simp] theorem Channel.idMem_calError (c : Channel) (e : Nat) : (c.calError e).dom.idMem = c.dom.idMem := by simp [calError]
@[simp] theorem Channel.idMem_calGo (c : Channel) (w : Word) : (c.calGo w).dom.idMem = c.dom.idMem := by simp [calGo]
@[simp] theorem Channel.idMem_putCoeff (c : Channel) (f : Fld) (v : Int) :
    (c.putCoeff f v).dom.idMem = c.dom.idMem := by simp [putCoeff]

@[simp] theorem Channel.idMem_calFull (c : Channel) (s : CalStep) (sums : List Nat) :
    (c.calFull s sums).dom.idMem = c.dom.idMem := by
  simp only [calFull]
  split
  · simp only [idMem_raise, idMem_setN, idMem_setB]
    exact idMem_foldl _ _ _ fun c q => by split <;> simp
  · simp

@[simp] theorem Channel.idMem_calEnd (c : Channel) (s : CalStep) (sums : List Nat) :
    (c.calEnd s sums).dom.idMem = c.dom.idMem := by simp [calEnd]

@[simp] theorem Channel.idMem_calStepDone (c : Channel) (s0 s1 s2 s3 : Nat) :
    (c.calStepDone s0 s1 s2 s3).dom.idMem = c.dom.idMem := by
  unfold calStepDone
  split <;> simp

@[simp] theorem Channel.idMem_freeCal (c : Channel) : c.freeCal.dom.idMem = c.dom.idMem := by
  unfold freeCal
  split <;> simp

@[simp] theorem Channel.idMem_beginAdc (c : Channel) : c.beginAdc.dom.idMem = c.dom.idMem := by simp [beginAdc]

/-! ## Gates and trips -/

@[simp] theorem Channel.idMem_setLeg (c : Channel) (k : Nat) (l : Leg) :
    (c.setLeg k l).dom.idMem = c.dom.idMem := by simp [setLeg]
@[simp] theorem Channel.idMem_setPair (c : Channel) (k i : Nat) (p : Pair) :
    (c.setPair k i p).dom.idMem = c.dom.idMem := by simp [setPair]
@[simp] theorem Channel.idMem_setCarry (c : Channel) (k : Nat) (i : Int) :
    (c.setCarry k i).dom.idMem = c.dom.idMem := by simp [setCarry]
@[simp] theorem Channel.idMem_clearCarry (c : Channel) (k : Nat) :
    (c.clearCarry k).dom.idMem = c.dom.idMem := by simp [clearCarry]
@[simp] theorem Channel.idMem_clearCarries (c : Channel) : c.clearCarries.dom.idMem = c.dom.idMem := by simp [clearCarries]
@[simp] theorem Channel.idMem_gateEdge (c : Channel) : c.gateEdge.dom.idMem = c.dom.idMem := by simp [gateEdge, clearFault]
@[simp] theorem Channel.idMem_cancelRises (c : Channel) : c.cancelRises.dom.idMem = c.dom.idMem := by simp [cancelRises]
@[simp] theorem Channel.idMem_maskLeg (c : Channel) (k t : Nat) :
    (c.maskLeg k t).dom.idMem = c.dom.idMem := by simp [maskLeg, note6]
@[simp] theorem Channel.idMem_pairSet (c : Channel) (k i : Nat) (cmd : BitVec 2) (t : Nat) :
    (c.pairSet k i cmd t).dom.idMem = c.dom.idMem := by simp [pairSet]
@[simp] theorem Channel.idMem_noCrossing (c : Channel) (k : Nat) (rising : Bool) :
    (c.noCrossing k rising).dom.idMem = c.dom.idMem := by simp [noCrossing]

@[simp] theorem Channel.idMem_closeMeas (c : Channel) (k : Nat) : (c.closeMeas k).dom.idMem = c.dom.idMem := by
  unfold closeMeas
  split <;> simp

@[simp] theorem Channel.idMem_senseFault (c : Channel) (k : Nat) (rising : Bool) :
    (c.senseFault k rising).dom.idMem = c.dom.idMem := by simp [senseFault]

@[simp] theorem Channel.idMem_validCrossing (c : Channel) (k : Nat) (m : Meas) (m' : Nat) :
    (c.validCrossing k m m').dom.idMem = c.dom.idMem := by
  simp only [validCrossing]
  split <;> simp

@[simp] theorem Channel.idMem_nodeCrossing (c : Channel) (k : Nat) (v : Int) (tap : Nat) :
    (c.nodeCrossing k v tap).dom.idMem = c.dom.idMem := by
  simp only [nodeCrossing]
  repeat' split
  all_goals simp

@[simp] theorem Channel.idMem_pairGo (c : Channel) (k i : Nat) (want : BitVec 2) (t : Nat) (fresh : Bool) :
    (c.pairGo k i want t fresh).dom.idMem = c.dom.idMem := by simp [pairGo, startMeas]
@[simp] theorem Channel.idMem_legTarget (c : Channel) (k : Nat) (s : BitVec 6) (t : Nat) (fresh : optParam Bool false) :
    (c.legTarget k s t fresh).dom.idMem = c.dom.idMem := by simp [legTarget]
@[simp] theorem Channel.idMem_saveCarry (c : Channel) (k : Nat) (i : Int) :
    (c.saveCarry k i).dom.idMem = c.dom.idMem := by simp [saveCarry]

@[simp] theorem Channel.idMem_decideLeg (c : Channel) (k : Nat) : (c.decideLeg k).dom.idMem = c.dom.idMem := by
  simp only [decideLeg]
  split <;> simp

@[simp] theorem Channel.idMem_legStep (k : Nat) (c : Channel) : (c.legStep k).dom.idMem = c.dom.idMem := by
  unfold legStep
  split <;> simp [compareAt, pairDue, pairFree]

@[simp] theorem Channel.idMem_legsEdge (c : Channel) : c.legsEdge.dom.idMem = c.dom.idMem := by
  simp only [legsEdge]
  split <;> simp [legCycle, legFrozen]

@[simp] theorem Channel.idMem_recomputeEnd (c : Channel) (k : Nat) :
    (c.recomputeEnd k).dom.idMem = c.dom.idMem := by simp [recomputeEnd]

@[simp] theorem Channel.idMem_dropLegs (c : Channel) : c.dropLegs.dom.idMem = c.dom.idMem := by
  unfold dropLegs
  simp [dropLeg]

@[simp] theorem Channel.idMem_trip (c : Channel) (src : Nat) : (c.trip src).dom.idMem = c.dom.idMem := by
  unfold trip
  simp

@[simp] theorem Channel.idMem_evalTrips (c : Channel) : c.evalTrips.dom.idMem = c.dom.idMem := by simp [evalTrips]
@[simp] theorem Channel.idMem_tripEdge (c : Channel) : c.tripEdge.dom.idMem = c.dom.idMem := by simp [tripEdge]
@[simp] theorem Channel.idMem_tripCmd (c : Channel) (w : Word) : (c.tripCmd w).dom.idMem = c.dom.idMem := by simp [tripCmd]

@[simp] theorem Channel.idMem_takeBoundaryFields (c : Channel) : c.takeBoundaryFields.dom.idMem = c.dom.idMem := by
  unfold takeBoundaryFields
  simp

@[simp] theorem Channel.idMem_legPeriod (fresh : Bool) (c : Channel) (k : Nat) :
    (c.legPeriod fresh k).dom.idMem = c.dom.idMem := by simp [legPeriod]
@[simp] theorem Channel.idMem_boundaryPwm (c : Channel) : c.boundaryPwm.dom.idMem = c.dom.idMem := by simp [boundaryPwm]

@[simp] theorem Channel.idMem_stopCarrier (c : Channel) : c.stopCarrier.dom.idMem = c.dom.idMem := by
  unfold stopCarrier
  simp

@[simp] theorem Channel.idMem_freeze (c : Channel) : c.freeze.dom.idMem = c.dom.idMem := by simp [freeze]
@[simp] theorem Channel.idMem_unfreeze (c : Channel) : c.unfreeze.dom.idMem = c.dom.idMem := by simp [unfreeze]
@[simp] theorem Channel.idMem_clampMimax (was : Bool) (c : Channel) :
    (c.clampMimax was).dom.idMem = c.dom.idMem := by simp [clampMimax]
@[simp] theorem Channel.idMem_commitPwm (old : List (Nat × Word)) (c : Channel) :
    (c.commitPwm old).dom.idMem = c.dom.idMem := by simp [commitPwm]

/-! ## Gate drivers -/

@[simp] theorem Channel.idMem_tpLeg (c : Channel) (k : Nat) : (c.tpLeg k).dom.idMem = c.dom.idMem := by simp [tpLeg, legSet]
@[simp] theorem Channel.idMem_tpGo (c : Channel) : c.tpGo.dom.idMem = c.dom.idMem := by simp [tpGo]
@[simp] theorem Channel.idMem_ginApply (c : Channel) (code : BitVec 3) :
    (c.ginApply code).dom.idMem = c.dom.idMem := by simp [ginApply, ginError]
@[simp] theorem Channel.idMem_ginAccept (c : Channel) (code : BitVec 3) :
    (c.ginAccept code).dom.idMem = c.dom.idMem := by simp [ginAccept]

@[simp] theorem Channel.idMem_ginDwell (c : Channel) : c.ginDwell.dom.idMem = c.dom.idMem := by
  unfold ginDwell
  split <;> simp

@[simp] theorem Channel.idMem_tpEnter (c : Channel) : c.tpEnter.dom.idMem = c.dom.idMem := by
  unfold tpEnter
  extract_lets hold c₁ c₂ _ g c₃
  have h₃ : c₃.dom.idMem = c.dom.idMem := by simp [c₃, c₂, c₁]
  clear_value c₃
  split <;> simp [h₃]

@[simp] theorem Channel.idMem_tpExit (c : Channel) : c.tpExit.dom.idMem = c.dom.idMem := by simp [tpExit]
@[simp] theorem Channel.idMem_threePinEntry (c : Channel) :
    c.threePinEntry.dom.idMem = c.dom.idMem := by simp [threePinEntry]
@[simp] theorem Channel.idMem_threePinExit (c : Channel) : c.threePinExit.dom.idMem = c.dom.idMem := by simp [threePinExit]
@[simp] theorem Channel.idMem_tpEdge (c : Channel) : c.tpEdge.dom.idMem = c.dom.idMem := by simp [tpEdge]
@[simp] theorem Channel.idMem_boundaryTp (c : Channel) : c.boundaryTp.dom.idMem = c.dom.idMem := by simp [boundaryTp]
@[simp] theorem Channel.idMem_setFault (c : Channel) (n : Nat) : (c.setFault n).dom.idMem = c.dom.idMem := by simp [setFault]
@[simp] theorem Channel.idMem_setBoot (c : Channel) (k : Nat) (b : Boot) :
    (c.setBoot k b).dom.idMem = c.dom.idMem := by simp [setBoot]
@[simp] theorem Channel.idMem_reportLevel (c : Channel) (n : Nat) (active : Bool) :
    (c.reportLevel n active).dom.idMem = c.dom.idMem := by simp [reportLevel]
@[simp] theorem Channel.idMem_gateFault (c : Channel) (n : Nat) :
    (c.gateFault n).dom.idMem = c.dom.idMem := by simp [gateFault]
@[simp] theorem Channel.idMem_gateFaultRelease (c : Channel) (n : Nat) :
    (c.gateFaultRelease n).dom.idMem = c.dom.idMem := by simp [gateFaultRelease]
@[simp] theorem Channel.idMem_tripAssert (c : Channel) (m : Nat) :
    (c.tripAssert m).dom.idMem = c.dom.idMem := by simp [tripAssert]
@[simp] theorem Channel.idMem_tripRelease (c : Channel) (m : Nat) :
    (c.tripRelease m).dom.idMem = c.dom.idMem := by simp [tripRelease]
@[simp] theorem Channel.idMem_setCmp (c : Channel) (k : Nat) (active : Bool) :
    (c.setCmp k active).dom.idMem = c.dom.idMem := by simp [setCmp]
@[simp] theorem Channel.idMem_cmpLevel (c : Channel) (k : Nat) (active : Bool) :
    (c.cmpLevel k active).dom.idMem = c.dom.idMem := by simp [cmpLevel]
@[simp] theorem Channel.idMem_setVolts (c : Channel) (ball : Nat) (v : Int) :
    (c.setVolts ball v).dom.idMem = c.dom.idMem := by simp [setVolts]
@[simp] theorem Channel.idMem_fastComparator (c : Channel) (k : Nat) (v : Int) :
    (c.fastComparator k v).dom.idMem = c.dom.idMem := by simp [fastComparator, ainInput]
@[simp] theorem Channel.idMem_brk (c : Channel) (on_ : Bool) : (c.brk on_).dom.idMem = c.dom.idMem := by simp [brk]
@[simp] theorem Channel.idMem_vdcLevel (c : Channel) (k : Nat) (on_ : Bool) :
    (c.vdcLevel k on_).dom.idMem = c.dom.idMem := by simp [vdcLevel, stage1Off, stage1On]
@[simp] theorem Channel.idMem_vdcFollow (c : Channel) : c.vdcFollow.dom.idMem = c.dom.idMem := by simp [vdcFollow]
@[simp] theorem Channel.idMem_vdcInput (c : Channel) (v : Int) : (c.vdcInput v).dom.idMem = c.dom.idMem := by simp [vdcInput]
@[simp] theorem Channel.idMem_brkClamp (c : Channel) : c.brkClamp.dom.idMem = c.dom.idMem := by simp [brkClamp]
@[simp] theorem Channel.idMem_brkThreshold (old : Word) (c : Channel) :
    (c.brkThreshold old).dom.idMem = c.dom.idMem := by simp [brkThreshold]
@[simp] theorem Channel.idMem_gdiCmd (c : Channel) (w : Word) : (c.gdiCmd w).dom.idMem = c.dom.idMem := by simp [gdiCmd]
@[simp] theorem Channel.idMem_dischargeFault (c : Channel) (arg : Nat) :
    (c.dischargeFault arg).dom.idMem = c.dom.idMem := by simp [dischargeFault]
@[simp] theorem Channel.idMem_dischargeFeedback (c : Channel) (active : Bool) :
    (c.dischargeFeedback active).dom.idMem = c.dom.idMem := by simp [dischargeFeedback]
@[simp] theorem Channel.idMem_voltageEdge (c : Channel) : c.voltageEdge.dom.idMem = c.dom.idMem := by simp [voltageEdge]

@[simp] theorem Channel.idMem_maxEdge (c : Channel) : c.maxEdge.dom.idMem = c.dom.idMem := by
  simp only [maxEdge]
  repeat' split
  all_goals simp

@[simp] theorem Channel.idMem_bootReport (c : Channel) (k : Nat) (active : Bool) :
    (c.bootReport k active).dom.idMem = c.dom.idMem := by simp [bootReport]
@[simp] theorem Channel.idMem_boundaryBoot (c : Channel) (k : Nat) :
    (c.boundaryBoot k).dom.idMem = c.dom.idMem := by simp [boundaryBoot, chargeEnter]
@[simp] theorem Channel.idMem_boundaryGdi (c : Channel) : c.boundaryGdi.dom.idMem = c.dom.idMem := by simp [boundaryGdi]
@[simp] theorem Channel.idMem_commitVdc (old : List (Nat × Word)) (c : Channel) :
    (c.commitVdc old).dom.idMem = c.dom.idMem := by simp [commitVdc]
@[simp] theorem Channel.idMem_gdiEdge (c : Channel) :
    c.gdiEdge.dom.idMem = c.dom.idMem := by simp [gdiEdge, brakeEdge, feedbackEdge, idleEdge, ov2Edge, settleEdge]
@[simp] theorem Channel.idMem_genEdge (c : Channel) : c.genEdge.dom.idMem = c.dom.idMem := by simp [genEdge]
@[simp] theorem Channel.idMem_bridgeEdge (c : Channel) : c.bridgeEdge.dom.idMem = c.dom.idMem := by simp [bridgeEdge]

/-! ## Lockstep -/

@[simp] theorem Domain.idMem_setLsc (d : Domain) (f : Lsc → Lsc) : (d.setLsc f).idMem = d.idMem := by simp [setLsc]
@[simp] theorem Domain.idMem_lsDiag (d : Domain) (code : Nat) : (d.lsDiag code).idMem = d.idMem := by simp [lsDiag]
@[simp] theorem Domain.idMem_refreshCap (d : Domain) : d.refreshCap.idMem = d.idMem := by simp [refreshCap]
@[simp] theorem Domain.idMem_degrade (d : Domain) : d.degrade.idMem = d.idMem := by simp [degrade]
@[simp] theorem Domain.idMem_coreless (d : Domain) : d.coreless.idMem = d.idMem := by simp [coreless]
@[simp] theorem Domain.idMem_lsRec (d : Domain) : d.lsRec.idMem = d.idMem := by simp [lsRec]
@[simp] theorem Domain.idMem_retire (d : Domain) (e : Eng) : (d.retire e).idMem = d.idMem := by simp [retire]
@[simp] theorem Domain.idMem_sprCore (d : Domain) (e : Eng) (action : Nat) :
    (d.sprCore e action).idMem = d.idMem := by simp [sprCore]

@[simp] theorem Domain.idMem_endSplit (d : Domain) : d.endSplit.idMem = d.idMem := by
  unfold endSplit
  split <;> simp

@[simp] theorem Domain.idMem_mismatch (d : Domain) (g : Nat) : (d.mismatch g).idMem = d.idMem := by
  simp only [mismatch]
  repeat' split
  all_goals simp

@[simp] theorem Domain.idMem_resumeRun (d : Domain) (comparing : Bool) :
    (d.resumeRun comparing).idMem = d.idMem := by simp [resumeRun]
@[simp] theorem Domain.idMem_recoveryLost (d : Domain) : d.recoveryLost.idMem = d.idMem := by simp [recoveryLost]
@[simp] theorem Domain.idMem_passQueues (d : Domain) (a b : Eng) : (d.passQueues a b).idMem = d.idMem := by simp [passQueues]

@[simp] theorem Domain.idMem_oneFails (d : Domain) (bad good : Eng) : (d.oneFails bad good).idMem = d.idMem := by
  simp only [oneFails]
  split <;> simp

@[simp] theorem Domain.idMem_loadShadow (d : Domain) (m h : Eng) : (d.loadShadow m h).idMem = d.idMem := by simp [loadShadow]

@[simp] theorem Domain.idMem_restorationDone (d : Domain) : d.restorationDone.idMem = d.idMem := by
  unfold restorationDone
  split <;> simp

@[simp] theorem Domain.idMem_logOverflow (d : Domain) : d.logOverflow.idMem = d.idMem := by simp [logOverflow]
@[simp] theorem Domain.idMem_diverge (d : Domain) : d.diverge.idMem = d.idMem := by simp [diverge]

@[simp] theorem Domain.idMem_logRec (d : Domain) (e : Eng) (k : LogKind) (a v : Word) :
    (d.logRec e k a v).idMem = d.idMem := by
  unfold logRec
  split <;> simp

@[simp] theorem Domain.idMem_logStore (d : Domain) (e : Eng) (a : Nat) (old : Word) :
    (d.logStore e a old).idMem = d.idMem := by simp [logStore]
@[simp] theorem Domain.idMem_ckptOverdue (d : Domain) : d.ckptOverdue.idMem = d.idMem := by simp [ckptOverdue]
@[simp] theorem Domain.idMem_requestJoin (d : Domain) : d.requestJoin.idMem = d.idMem := by simp [requestJoin]

@[simp] theorem Domain.idMem_splitEffect (d : Domain) : d.splitEffect.idMem = d.idMem := by
  unfold splitEffect
  repeat' split
  all_goals simp

@[simp] theorem Domain.idMem_joinEffect (d : Domain) : d.joinEffect.idMem = d.idMem := by
  unfold joinEffect
  split <;> simp

@[simp] theorem Domain.idMem_splitmax (d : Domain) : d.splitmax.idMem = d.idMem := by simp [splitmax]

@[simp] theorem Domain.idMem_breakLockstep (d : Domain) : d.breakLockstep.idMem = d.idMem := by
  simp only [breakLockstep]
  repeat' split
  all_goals simp [lsMode]

/-! ## Heat and spares -/

@[simp] theorem Domain.idMem_setThm (d : Domain) (f : Thm → Thm) : (d.setThm f).idMem = d.idMem := by simp [setThm]
@[simp] theorem Domain.idMem_setSpr (d : Domain) (f : Spr → Spr) : (d.setSpr f).idMem = d.idMem := by simp [setSpr]
@[simp] theorem Domain.idMem_thEvent (d : Domain) (host ch arg : Nat) :
    (d.thEvent host ch arg).idMem = d.idMem := by simp [thEvent]
@[simp] theorem Domain.idMem_thDiag (d : Domain) (code s : Nat) : (d.thDiag code s).idMem = d.idMem := by simp [thDiag]

@[simp] theorem Domain.idMem_bandUpdate (d : Domain) : d.bandUpdate.idMem = d.idMem := by
  unfold bandUpdate
  split <;> simp

@[simp] theorem Domain.idMem_rateCheck (d : Domain) (s : Nat) : (d.rateCheck s).idMem = d.idMem := by simp [rateCheck]
@[simp] theorem Channel.idMem_hkRound (c : Channel) (m : SlowRound) :
    (c.hkRound m).dom.idMem = c.dom.idMem := by simp [hkRound]
@[simp] theorem Domain.idMem_noteShutdown (d : Domain) (s : Nat) :
    (d.noteShutdown s).idMem = d.idMem := by simp [noteShutdown]
@[simp] theorem Domain.idMem_writeSdcfg (d : Domain) (w : Word) : (d.writeSdcfg w).idMem = d.idMem := by simp [writeSdcfg]

@[simp] theorem Domain.idMem_refreshRows (d : Domain) : d.refreshRows.idMem = d.idMem := by
  simp only [refreshRows]
  repeat' split
  all_goals simp

@[simp] theorem Domain.idMem_evRow (d : Domain) (kind action : Nat) :
    (d.evRow kind action).idMem = d.idMem := by simp [evRow]
@[simp] theorem Domain.idMem_startRepair (d : Domain) (m row : Nat) :
    (d.startRepair m row).idMem = d.idMem := by simp [startRepair]
@[simp] theorem Domain.idMem_listRow (d : Domain) (row : Nat) : (d.listRow row).idMem = d.idMem := by simp [listRow]

@[simp] theorem Domain.idMem_noteCorrectable (d : Domain) (a : Nat) : (d.noteCorrectable a).idMem = d.idMem := by
  simp only [noteCorrectable]
  split <;> simp

@[simp] theorem Domain.idMem_noteUncorrectable (d : Domain) (a : Nat) : (d.noteUncorrectable a).idMem = d.idMem := by
  simp only [noteUncorrectable]
  split <;> simp

@[simp] theorem Domain.idMem_noteEcc (d : Domain) (e : Ecc) (a : Nat) : (d.noteEcc e a).idMem = d.idMem := by
  unfold noteEcc
  split <;> simp

@[simp] theorem Domain.idMem_rowRepairDone (d : Domain) (m row : Nat) :
    (d.rowRepairDone m row).idMem = d.idMem := by simp [rowRepairDone]
@[simp] theorem Domain.idMem_wearAlarm (d : Domain) : d.wearAlarm.idMem = d.idMem := by simp [wearAlarm]
@[simp] theorem Domain.idMem_marginPass (d : Domain) (failing : List Nat) :
    (d.marginPass failing).idMem = d.idMem := by simp [marginPass]
@[simp] theorem Channel.idMem_askTrip (c : Channel) : c.askTrip.dom.idMem = c.dom.idMem := by simp [askTrip]
@[simp] theorem Channel.idMem_stageFault (c : Channel) (n : Nat) :
    (c.stageFault n).dom.idMem = c.dom.idMem := by simp [stageFault]
@[simp] theorem Channel.idMem_otherStage (c : Channel) (n : Nat) :
    (c.otherStage n).dom.idMem = c.dom.idMem := by simp [otherStage]
@[simp] theorem Channel.idMem_stressTick (c : Channel) (n : Nat) :
    (c.stressTick n).dom.idMem = c.dom.idMem := by simp [stressTick]

@[simp] theorem Channel.idMem_cmpTestStart (c : Channel) : c.cmpTestStart.dom.idMem = c.dom.idMem := by
  unfold cmpTestStart
  rw [idMem_when]
  repeat' split
  all_goals simp

@[simp] theorem Channel.idMem_cmpTestEnd (c : Channel) (k : Nat) :
    (c.cmpTestEnd k).dom.idMem = c.dom.idMem := by simp [cmpTestEnd]

@[simp] theorem Channel.idMem_cmpTestDone (c : Channel) (offset : BitVec 16) (found : Bool) :
    (c.cmpTestDone offset found).dom.idMem = c.dom.idMem := by
  unfold cmpTestDone
  split <;> simp

@[simp] theorem Channel.idMem_commitCmpTest (old : List (Nat × Word)) (c : Channel) :
    (c.commitCmpTest old).dom.idMem = c.dom.idMem := by
  unfold commitCmpTest
  split <;> simp

@[simp] theorem Channel.idMem_driftTo (c : Channel) (p : Nat) (f : Fld) (lim : Nat) (i : Int) :
    (c.driftTo p f lim i).dom.idMem = c.dom.idMem := by
  simp only [driftTo]
  repeat' split
  all_goals simp

@[simp] theorem Channel.idMem_driftCheck (c : Channel) (q : Sample) : (c.driftCheck q).dom.idMem = c.dom.idMem := by
  unfold driftCheck
  repeat' split
  all_goals simp

@[simp] theorem Domain.idMem_vcoDrift (d : Domain) (v : Nat) : (d.vcoDrift v).idMem = d.idMem := by simp [vcoDrift]
@[simp] theorem Channel.idMem_bankParity (c : Channel) (b : Bank) (off : Nat) (plan : Bool) (v : Word) :
    (c.bankParity b off plan v).dom.idMem = c.dom.idMem := by simp [bankParity, liveParity]
@[simp] theorem Domain.idMem_saveRecord (d : Domain) : d.saveRecord.idMem = d.idMem := by simp [saveRecord]
@[simp] theorem Domain.idMem_trySave (d : Domain) (inhibit ok : Bool) :
    (d.trySave inhibit ok).idMem = d.idMem := by simp [trySave]
@[simp] theorem Domain.idMem_loadRecord (d : Domain) : d.loadRecord.idMem = d.idMem := by simp [loadRecord]

@[simp] theorem Domain.idMem_sprCmd (d : Domain) (inhibit : Bool) (w : Word) : (d.sprCmd inhibit w).idMem = d.idMem := by
  unfold sprCmd
  split <;> simp

/-! ## Dziphor cores -/

@[simp] theorem Domain.idMem_readMem (d : Domain) (a n : Nat) : (d.readMem a n).2.idMem = d.idMem := by
  unfold readMem
  repeat' split
  all_goals simp

@[simp] theorem Domain.idMem_coreItem (d : Domain) (e : Eng) (j : Nat) (o : Occ) : (d.coreItem e j o).idMem = d.idMem := by
  unfold coreItem
  split <;> simp

@[simp] theorem Domain.idMem_logEntry (d : Domain) (e : Eng) (cause : Word) :
    (d.logEntry e cause).idMem = d.idMem := by simp [logEntry]
@[simp] theorem Domain.idMem_stepped (d : Domain) (e : Eng) : (d.stepped e).idMem = d.idMem := by simp [stepped]
@[simp] theorem Domain.idMem_takeTrip (d : Domain) (e : Eng) : (d.takeTrip e).idMem = d.idMem := by simp [takeTrip]
@[simp] theorem Domain.idMem_exception (d : Domain) (e : Eng) (code : Nat) (value : Word) :
    (d.exception e code value).idMem = d.idMem := by simp [exception, stopCore]

@[simp] theorem Domain.idMem_interruptEntry (d : Domain) (e : Eng) : (d.interruptEntry e).idMem = d.idMem := by
  unfold interruptEntry
  split <;> simp

@[simp] theorem Domain.idMem_tripEntry (d : Domain) (e : Eng) : (d.tripEntry e).idMem = d.idMem := by simp [tripEntry]

@[simp] theorem Domain.idMem_postedError (d : Domain) (e : Eng) : (d.postedError e).idMem = d.idMem := by
  simp only [postedError]
  repeat' split
  all_goals simp [takePosted]

@[simp] theorem Domain.idMem_retireAt (d : Domain) (e : Eng) (pc : Word) (waited : Bool) :
    (d.retireAt e pc waited).idMem = d.idMem := by simp [retireAt, passed]
@[simp] theorem Domain.idMem_await (d : Domain) (e : Eng) (w : Wait) : (d.await e w).idMem = d.idMem := by simp [await]

/-- The domain that an instruction's decision leaves, before it retires or its exception is taken. -/
def Ins.left (d : Domain) : Ins → Domain
  | .retire x => x
  | .stay x => x
  | .exc _ _ => d

@[simp] theorem Ins.left_retire (d x : Domain) : (Ins.retire x).left d = x := rfl
@[simp] theorem Ins.left_stay (d x : Domain) : (Ins.stay x).left d = x := rfl
@[simp] theorem Ins.left_exc (d : Domain) (c : Nat) (v : Word) : (Ins.exc c v).left d = d := rfl
@[simp] theorem Ins.left_ite (d : Domain) (p : Prop) [Decidable p] (x y : Ins) :
    (if p then x else y).left d = if p then x.left d else y.left d := apply_ite _ _ _ _

/-- An instruction keeps the number and the memory, or changes them as its decision does. -/
theorem Domain.idMem_insn_cases (d : Domain) (e : Eng) (f : Fetch) (sys : Bool) (uses : List GReg) (body : Domain → Ins) :
    (d.insn e f sys uses body).idMem = d.idMem ∨ (d.insn e f sys uses body).idMem = ((body d).left d).idMem := by
  unfold insn
  dsimp only
  split
  · split
    · exact .inl (by simp)
    · split
      · exact .inl (by simp)
      · split
        · exact .inl (by simp)
        · exact .inr (by cases body d <;> simp)
  · exact .inl rfl

@[simp] theorem Domain.idMem_insn (d : Domain) (e : Eng) (f : Fetch) (sys : Bool) (uses : List GReg) (body : Domain → Ins)
    (h : ((body d).left d).idMem = d.idMem) : (d.insn e f sys uses body).idMem = d.idMem := by
  cases d.idMem_insn_cases e f sys uses body with
  | inl hk => exact hk
  | inr hb => exact hb.trans h

@[simp] theorem Domain.idMem_finish (d : Domain) (e : Eng) (f : Core → Core) :
    (d.finish e f).idMem = d.idMem := by simp [finish]

@[simp] theorem Domain.idMem_result (d d₀ : Domain) (e : Eng) (rd : GReg) (v : Word) :
    ((d.result e rd v).left d₀).idMem = d.idMem := by
  simp [result]

@[simp] theorem Domain.idMem_rrr (d : Domain) (e : Eng) (f : Fetch) (rd rs1 rs2 : GReg) (op : Word → Word → Word) :
    (d.rrr e f rd rs1 rs2 op).idMem = d.idMem := by simp [rrr]
@[simp] theorem Domain.idMem_rri (d : Domain) (e : Eng) (f : Fetch) (rd rs1 : GReg) (op : Word → Word) :
    (d.rri e f rd rs1 op).idMem = d.idMem := by simp [rri]

@[simp] theorem Domain.idMem_branch (d : Domain) (e : Eng) (f : Fetch) (rs1 rs2 : GReg) (off : BitVec 16)
    (p : Word → Word → Bool) :
    (d.branch e f rs1 rs2 off p).idMem = d.idMem := by simp [branch]

@[simp] theorem Domain.idMem_ctl (d : Domain) (e : Eng) (f : Fetch) (rd rs1 : GReg) (csr : BitVec 12) (writes : Bool)
    (op : Word → Word → Word) : (d.ctl e f rd rs1 csr writes op).idMem = d.idMem := by
  refine idMem_insn _ _ _ _ _ _ ?_
  dsimp only
  split <;> simp

@[simp] theorem Domain.idMem_call (d : Domain) (e : Eng) (f : Fetch) (rd : GReg) (off : BitVec 21) :
    (d.call e f rd off).idMem = d.idMem := by simp [call]
@[simp] theorem Domain.idMem_callr (d : Domain) (e : Eng) (f : Fetch) (rd rs1 : GReg) (imm : BitVec 16) :
    (d.callr e f rd rs1 imm).idMem = d.idMem := by simp [callr]
@[simp] theorem Domain.idMem_sysreq (d : Domain) (e : Eng) (f : Fetch) : (d.sysreq e f).idMem = d.idMem :=
  idMem_insn _ _ _ _ _ _ rfl
@[simp] theorem Domain.idMem_dbgbrk (d : Domain) (e : Eng) (f : Fetch) : (d.dbgbrk e f).idMem = d.idMem := by simp [dbgbrk]
@[simp] theorem Domain.idMem_returnBy (d : Domain) (e : Eng) (f : Fetch) (r : Core → Core) :
    (d.returnBy e f r).idMem = d.idMem := by simp [returnBy]
@[simp] theorem Domain.idMem_idle (d : Domain) (e : Eng) (f : Fetch) : (d.idle e f).idMem = d.idMem := by simp [idle]
@[simp] theorem Domain.idMem_idleWake (d : Domain) (e : Eng) : (d.idleWake e).idMem = d.idMem := by simp [idleWake]
@[simp] theorem Domain.idMem_evWait (d : Domain) (e : Eng) (f : Fetch) (rd rs1 rs2 : GReg) :
    (d.evWait e f rd rs1 rs2).idMem = d.idMem := by simp [evWait]

@[simp] theorem Domain.idMem_evWaitFound (d : Domain) (e : Eng) : (d.evWaitFound e).idMem = d.idMem := by
  unfold evWaitFound
  split <;> simp

@[simp] theorem Domain.idMem_evWaitExpiry (d : Domain) (e : Eng) : (d.evWaitExpiry e).idMem = d.idMem := by
  unfold evWaitExpiry
  split <;> simp

@[simp] theorem Domain.idMem_evFence (d : Domain) (e : Eng) (f : Fetch) (rs1 rs2 : GReg) :
    (d.evFence e f rs1 rs2).idMem = d.idMem := by simp [evFence]

@[simp] theorem Domain.idMem_evFenceRetire (d : Domain) (e : Eng) : (d.evFenceRetire e).idMem = d.idMem := by
  unfold evFenceRetire
  split <;> simp

@[simp] theorem Domain.idMem_fence (d : Domain) (e : Eng) (f : Fetch) (mask : BitVec 4) :
    (d.fence e f mask).idMem = d.idMem := by simp [fence]

@[simp] theorem Domain.idMem_fenceRetire (d : Domain) (e : Eng) : (d.fenceRetire e).idMem = d.idMem := by
  unfold fenceRetire
  split <;> simp

@[simp] theorem Domain.idMem_askHalt (d : Domain) (cause : BitVec 3) : (d.askHalt cause).idMem = d.idMem := by simp [askHalt]

@[simp] theorem Domain.idMem_watchpoint (d : Domain) (w : Nat) (store : Bool) (addr : Word) :
    (d.watchpoint w store addr).idMem = d.idMem := by
  simp only [watchpoint]
  repeat' split
  all_goals simp

@[simp] theorem Domain.idMem_watched (d : Domain) (store : Bool) (addr : Word) :
    (d.watched store addr).idMem = d.idMem := by simp [watched]
@[simp] theorem Domain.idMem_countAccess (d : Domain) (e : Eng) (j : Nat) (a : Word) (attr : Attr) :
    (d.countAccess e j a attr).idMem = d.idMem := by simp [countAccess]

@[simp] theorem Domain.idMem_load (d : Domain) (e : Eng) (f : Fetch) (rd rs1 : GReg) (imm : BitVec 16) (size : Nat)
    (signed : Bool) : (d.load e f rd rs1 imm size signed).idMem = d.idMem := by
  refine idMem_insn _ _ _ _ _ _ ?_
  dsimp only
  repeat' split
  all_goals simp

@[simp] theorem Domain.idMem_store (d : Domain) (e : Eng) (f : Fetch) (inhibit : Bool) (rs2 rs1 : GReg) (imm : BitVec 16)
    (size : Nat) :
    (d.store e f inhibit rs2 rs1 imm size).idMem = d.idMem := by simp [store]

@[simp] theorem Domain.idMem_loadDone (d : Domain) (e : Eng) (l : LoadReq) (v : Word) :
    (d.loadDone e l v).idMem = d.idMem := by simp [loadDone]
@[simp] theorem Domain.idMem_loadFails (d : Domain) (e : Eng) (l : LoadReq) (code : Nat) :
    (d.loadFails e l code).idMem = d.idMem := by simp [loadFails]
@[simp] theorem Domain.idMem_storeDone (d : Domain) (e : Eng) (posted : Bool) (s : StoreReq) :
    (d.storeDone e posted s).idMem = d.idMem := by simp [storeDone]
@[simp] theorem Domain.idMem_storeError (d : Domain) (e : Eng) (posted : Bool) (s : StoreReq) :
    (d.storeError e posted s).idMem = d.idMem := by simp [storeError]
@[simp] theorem Domain.idMem_dropRsv (d : Domain) (by_ : Option Eng) (a : Nat) :
    (d.dropRsv by_ a).idMem = d.idMem := by simp [dropRsv]
@[simp] theorem Domain.idMem_lsRequest (d : Domain) (e : Eng) (f : Fetch) (rd : GReg) (join : Bool) :
    (d.lsRequest e f rd join).idMem = d.idMem := by simp [lsRequest, requestSplit]
@[simp] theorem Domain.idMem_ckpt (d : Domain) (e : Eng) (f : Fetch) (rs1 : GReg) :
    (d.ckpt e f rs1).idMem = d.idMem := by simp [ckpt, checkpoint]
@[simp] theorem Domain.idMem_logCommit (d : Domain) (e : Eng) (mask : BitVec 7) (status : Word) :
    (d.logCommit e mask status).idMem = d.idMem := by simp [logCommit]
@[simp] theorem Domain.idMem_planCommit (d : Domain) (e : Eng) (f : Fetch) (rd rs1 : GReg) (imm : BitVec 7) :
    (d.planCommit e f rd rs1 imm).idMem = d.idMem := by simp [planCommit]

/-! ## Cascade -/

@[simp] theorem Channel.idMem_setVr (c : Channel) (r : VReg) (v : Vec) :
    (c.setVr r v).dom.idMem = c.dom.idMem := by simp [setVr]
@[simp] theorem Channel.idMem_setAcc (c : Channel) (r : BitVec 2) (v : Vec) :
    (c.setAcc r v).dom.idMem = c.dom.idMem := by simp [setAcc]
@[simp] theorem Channel.idMem_dropStart (c : Channel) (entry : BitVec 14) (bits : Nat) :
    (c.dropStart entry bits).dom.idMem = c.dom.idMem := by simp [dropStart]
@[simp] theorem Channel.idMem_injStep (c : Channel) : c.injStep.dom.idMem = c.dom.idMem := by simp [injStep]
@[simp] theorem Channel.idMem_beginRun (c : Channel) (entry : BitVec 14) :
    (c.beginRun entry).dom.idMem = c.dom.idMem := by simp [beginRun]
@[simp] theorem Channel.idMem_startRequest (c : Channel) (entry : BitVec 14) :
    (c.startRequest entry).dom.idMem = c.dom.idMem := by simp [startRequest]
@[simp] theorem Channel.idMem_runOver (c : Channel) : c.runOver.dom.idMem = c.dom.idMem := by simp [runOver]

@[simp] theorem Channel.idMem_takePending (c : Channel) : c.takePending.dom.idMem = c.dom.idMem := by
  unfold takePending
  split <;> simp

@[simp] theorem Channel.idMem_takeOuts (c : Channel) : c.takeOuts.dom.idMem = c.dom.idMem := by
  simp only [takeOuts]
  split <;> simp [putRef]

@[simp] theorem Channel.idMem_dropPending (c : Channel) (bits : Nat) : (c.dropPending bits).dom.idMem = c.dom.idMem := by
  unfold dropPending
  split <;> simp

@[simp] theorem Channel.idMem_abortRun (c : Channel) (r : Run) (code : Nat) :
    (c.abortRun r code).dom.idMem = c.dom.idMem := by simp [abortRun]
@[simp] theorem Channel.idMem_endRun (c : Channel) (r : Run) : (c.endRun r).dom.idMem = c.dom.idMem := by simp [endRun]
@[simp] theorem Channel.idMem_casItem (c : Channel) (r : Run) (j lat : Nat) :
    (c.casItem r j lat).dom.idMem = c.dom.idMem := by simp [casItem]

/-- The channel that a Cascade operation leaves; one that aborts leaves it as it was. -/
def CasOut.left (c : Channel) : CasOut → Channel
  | .go x _ => x
  | .abort _ => c

@[simp] theorem CasOut.left_go (c x : Channel) (r : Run) : (CasOut.go x r).left c = x := rfl
@[simp] theorem CasOut.left_abort (c : Channel) (k : Nat) : (CasOut.abort k).left c = c := rfl
@[simp] theorem CasOut.idMem_left_ite (c : Channel) (p : Prop) [Decidable p] (x y : CasOut) :
    ((if p then x else y).left c).dom.idMem = if p then (x.left c).dom.idMem else (y.left c).dom.idMem := by
  split <;> rfl

/-- A Cascade instruction keeps the number and the memory, or changes them as its operation does. -/
theorem Channel.idMem_casInstr_cases (c : Channel) (f : CasFetch) (reads : Bool) (cycles : Nat)
    (op : Channel → Run → CasOut) :
    (c.casInstr f reads cycles op).dom.idMem = c.dom.idMem ∨
      ∃ x r, x.dom.idMem = c.dom.idMem ∧ (c.casInstr f reads cycles op).dom.idMem = ((op x r).left x).dom.idMem := by
  unfold casInstr
  split
  · exact .inl rfl
  · rename_i r _
    split
    · exact .inl (by simp)
    · exact .inl (by simp)
    · extract_lets c₁
      have h₁ : c₁.dom.idMem = c.dom.idMem := by simp [c₁]
      clear_value c₁
      split
      · exact .inl (by simp [h₁])
      · rename_i c' r' hop
        split
        · exact .inl (by simp [h₁])
        · split
          · exact .inl h₁
          · exact .inr ⟨c₁, _, h₁, by rw [hop]; simp⟩

@[simp] theorem Channel.idMem_deliver (c c₀ : Channel) (r : Run) (d : VReg) (x : Res) :
    ((c.deliver r d x).left c₀).dom.idMem = c.dom.idMem := by
  simp [deliver]

@[simp] theorem Channel.idMem_opVld (d : VReg) (b : BitVec 14) (c : Channel) (r : Run) :
    ((c.opVld d b r).left c).dom.idMem = c.dom.idMem := by simp [opVld]
@[simp] theorem Channel.idMem_opVlds (d : VReg) (b : BitVec 14) (c : Channel) (r : Run) :
    ((c.opVlds d b r).left c).dom.idMem = c.dom.idMem := by simp [opVlds]
@[simp] theorem Channel.idMem_opLdr (d : VReg) (b : BitVec 14) (c : Channel) (r : Run) :
    ((c.opLdr d b r).left c).dom.idMem = c.dom.idMem := by simp [opLdr]

@[simp] theorem Channel.idMem_opLda (d : VReg) (b : BitVec 14) (c : Channel) (r : Run) :
    ((c.opLda d b r).left c).dom.idMem = c.dom.idMem := by
  simp only [opLda]
  repeat' split
  all_goals simp

@[simp] theorem Channel.idMem_refreshClamps (c : Channel) :
    c.refreshClamps.dom.idMem = c.dom.idMem := by simp [refreshClamps]
@[simp] theorem Channel.idMem_opLdref (d : VReg) (b : BitVec 14) (c : Channel) (r : Run) :
    ((c.opLdref d b r).left c).dom.idMem = c.dom.idMem := by simp [opLdref]
@[simp] theorem Channel.idMem_opMov (d a : VReg) (c : Channel) (r : Run) :
    ((c.opMov d a r).left c).dom.idMem = c.dom.idMem := by simp [opMov]
@[simp] theorem Channel.idMem_opSplat (d a : VReg) (b : BitVec 14) (c : Channel) (r : Run) :
    ((c.opSplat d a b r).left c).dom.idMem = c.dom.idMem := by simp [opSplat]
@[simp] theorem Channel.idMem_opPerm (d a : VReg) (b : BitVec 14) (c : Channel) (r : Run) :
    ((c.opPerm d a b r).left c).dom.idMem = c.dom.idMem := by simp [opPerm]
@[simp] theorem Channel.idMem_opSete (d : VReg) (b : BitVec 14) (c : Channel) (r : Run) :
    ((c.opSete d b r).left c).dom.idMem = c.dom.idMem := by simp [opSete]
@[simp] theorem Channel.idMem_opPair (f : Dy → Dy → Dy) (d a b : VReg) (c : Channel) (r : Run) :
    ((c.opPair f d a b r).left c).dom.idMem = c.dom.idMem := by simp [opPair]
@[simp] theorem Channel.idMem_opVaddw (d a b : VReg) (c : Channel) (r : Run) :
    ((c.opVaddw d a b r).left c).dom.idMem = c.dom.idMem := by simp [opVaddw]
@[simp] theorem Channel.idMem_opVmul (d a b : VReg) (c : Channel) (r : Run) :
    ((c.opVmul d a b r).left c).dom.idMem = c.dom.idMem := by simp [opVmul]
@[simp] theorem Channel.idMem_opMap (f : Dy → Dy) (d a : VReg) (c : Channel) (r : Run) :
    ((c.opMap f d a r).left c).dom.idMem = c.dom.idMem := by simp [opMap]
@[simp] theorem Channel.idMem_opVmac (ac : BitVec 2) (a b : VReg) (c : Channel) (r : Run) :
    ((c.opVmac ac a b r).left c).dom.idMem = c.dom.idMem := by simp [opVmac]
@[simp] theorem Channel.idMem_opAclr (ac : BitVec 2) (b : BitVec 14) (c : Channel) (r : Run) :
    ((c.opAclr ac b r).left c).dom.idMem = c.dom.idMem := by simp [opAclr]
@[simp] theorem Channel.idMem_opAccr (d : VReg) (ac : BitVec 2) (c : Channel) (r : Run) :
    ((c.opAccr d ac r).left c).dom.idMem = c.dom.idMem := by simp [opAccr]
@[simp] theorem Channel.idMem_opNorm (d a : VReg) (c : Channel) (r : Run) :
    ((c.opNorm d a r).left c).dom.idMem = c.dom.idMem := by simp [opNorm]
@[simp] theorem Channel.idMem_opNormx (d a : VReg) (b : BitVec 14) (c : Channel) (r : Run) :
    ((c.opNormx d a b r).left c).dom.idMem = c.dom.idMem := by simp [opNormx]
@[simp] theorem Channel.idMem_opTst (a : VReg) (b : BitVec 14) (c : Channel) (r : Run) :
    ((c.opTst a b r).left c).dom.idMem = c.dom.idMem := by simp [opTst]
@[simp] theorem Channel.idMem_opClarke (d a : VReg) (c : Channel) (r : Run) :
    ((c.opClarke d a r).left c).dom.idMem = c.dom.idMem := by simp [opClarke]
@[simp] theorem Channel.idMem_opIclarke (d a : VReg) (c : Channel) (r : Run) :
    ((c.opIclarke d a r).left c).dom.idMem = c.dom.idMem := by simp [opIclarke]
@[simp] theorem Channel.idMem_opPark (d a b : VReg) (c : Channel) (r : Run) :
    ((c.opPark d a b r).left c).dom.idMem = c.dom.idMem := by simp [opPark]
@[simp] theorem Channel.idMem_opIpark (d a b : VReg) (c : Channel) (r : Run) :
    ((c.opIpark d a b r).left c).dom.idMem = c.dom.idMem := by simp [opIpark]
@[simp] theorem Channel.idMem_opSincos (d a : VReg) (c : Channel) (r : Run) :
    ((c.opSincos d a r).left c).dom.idMem = c.dom.idMem := by simp [opSincos]
@[simp] theorem Channel.idMem_opPi (d a b : VReg) (b' : BitVec 14) (c : Channel) (r : Run) :
    ((c.opPi d a b b' r).left c).dom.idMem = c.dom.idMem := by simp [opPi]
@[simp] theorem Channel.idMem_opTint (d a : VReg) (b : BitVec 14) (c : Channel) (r : Run) :
    ((c.opTint d a b r).left c).dom.idMem = c.dom.idMem := by simp [opTint]
@[simp] theorem Channel.idMem_opRcr (d : VReg) (c : Channel) (r : Run) :
    ((c.opRcr d r).left c).dom.idMem = c.dom.idMem := by simp [opRcr]
@[simp] theorem Channel.idMem_opInj (d a : VReg) (b : BitVec 14) (c : Channel) (r : Run) :
    ((c.opInj d a b r).left c).dom.idMem = c.dom.idMem := by simp [opInj]
@[simp] theorem Channel.idMem_opOut (a : VReg) (c : Channel) (r : Run) :
    ((c.opOut a r).left c).dom.idMem = c.dom.idMem := by simp [opOut]
@[simp] theorem Channel.idMem_capDone (c : Channel) : c.capDone.dom.idMem = c.dom.idMem := by simp [capDone]

@[simp] theorem Channel.idMem_opCap (a : VReg) (c : Channel) (r : Run) : ((c.opCap a r).left c).dom.idMem = c.dom.idMem := by
  simp only [opCap]
  repeat' split
  all_goals simp

@[simp] theorem Channel.idMem_opPutpos (a : VReg) (b : BitVec 14) (c : Channel) (r : Run) :
    ((c.opPutpos a b r).left c).dom.idMem = c.dom.idMem := by simp [opPutpos]
@[simp] theorem Channel.idMem_opSig (b : BitVec 14) (c : Channel) (r : Run) :
    ((c.opSig b r).left c).dom.idMem = c.dom.idMem := by simp [opSig]

@[simp] theorem Channel.idMem_opBr (cond : BitVec 4) (b : BitVec 14) (c : Channel) (r : Run) :
    ((c.opBr cond b r).left c).dom.idMem = c.dom.idMem := by
  simp only [opBr]
  repeat' split
  all_goals simp

@[simp] theorem Channel.idMem_casCmd (c : Channel) (w : Word) :
    (c.casCmd w).dom.idMem = c.dom.idMem := by simp [casCmd, capArm]

@[simp] theorem Channel.idMem_casEnd (c : Channel) (f : CasFetch) : (c.casEnd f).dom.idMem = c.dom.idMem := by
  unfold casEnd
  repeat' split
  all_goals simp

@[simp] theorem Channel.idMem_endCasCycle (c : Channel) : c.endCasCycle.dom.idMem = c.dom.idMem := by
  unfold endCasCycle
  split <;> simp

@[simp] theorem Channel.idMem_beginCas (c : Channel) : c.beginCas.dom.idMem = c.dom.idMem := by simp [beginCas, takeStarts]

@[simp] theorem Channel.idMem_takeStrobe (c : Channel) (bit : Nat) (f : Channel → Channel)
    (hf : ∀ c, (f c).dom.idMem = c.dom.idMem) : (c.takeStrobe bit f).dom.idMem = c.dom.idMem := by
  simp [takeStrobe, hf]

@[simp] theorem Channel.idMem_binAdvance (c : Channel) : c.binAdvance.dom.idMem = c.dom.idMem := by simp [binAdvance]
@[simp] theorem Channel.idMem_captureTrigger (c : Channel) :
    c.captureTrigger.dom.idMem = c.dom.idMem := by simp [captureTrigger]
@[simp] theorem Channel.idMem_injectionStep (c : Channel) :
    c.injectionStep.dom.idMem = c.dom.idMem := by simp [injectionStep]

/-! ## The drive supervisor -/

@[simp] theorem Channel.idMem_setState (c : Channel) (s : Nat) : (c.setState s).dom.idMem = c.dom.idMem := by simp [setState]
@[simp] theorem Channel.idMem_setSup (c : Channel) (f : Sup → Sup) : (c.setSup f).dom.idMem = c.dom.idMem := by simp [setSup]
@[simp] theorem Channel.idMem_toSafe (c : Channel) (n : Nat) : (c.toSafe n).dom.idMem = c.dom.idMem := by simp [toSafe]
@[simp] theorem Channel.idMem_safeQuiet (c : Channel) (n : Nat) :
    (c.safeQuiet n).dom.idMem = c.dom.idMem := by simp [safeQuiet]
@[simp] theorem Channel.idMem_enterRun (c : Channel) : c.enterRun.dom.idMem = c.dom.idMem := by simp [enterRun]
@[simp] theorem Channel.idMem_enterCoast (c : Channel) : c.enterCoast.dom.idMem = c.dom.idMem := by simp [enterCoast]
@[simp] theorem Channel.idMem_superLink (c : Channel) (pb : Nat) :
    (c.superLink pb).dom.idMem = c.dom.idMem := by simp [superLink]
@[simp] theorem Channel.idMem_superLocked (c : Channel) (pb : Nat) :
    (c.superLocked pb).dom.idMem = c.dom.idMem := by simp [superLocked]
@[simp] theorem Channel.idMem_bumpCnt (c : Channel) : c.bumpCnt.dom.idMem = c.dom.idMem := by simp [bumpCnt]
@[simp] theorem Channel.idMem_superDecide (c : Channel) : c.superDecide.dom.idMem = c.dom.idMem := by simp [superDecide]

@[simp] theorem Channel.idMem_cmdStop (c : Channel) : c.cmdStop.dom.idMem = c.dom.idMem := by
  unfold cmdStop
  split <;> simp

@[simp] theorem Channel.idMem_refuseDir (c : Channel) : c.refuseDir.dom.idMem = c.dom.idMem := by simp [refuseDir]

@[simp] theorem Channel.idMem_supervise (c : Channel) (pb : Nat) : (c.supervise pb).dom.idMem = c.dom.idMem := by
  unfold supervise
  split <;> simp [cmdDir, cmdRun, superCommands, superReferences]

@[simp] theorem Channel.idMem_endSupCycle (c : Channel) : c.endSupCycle.dom.idMem = c.dom.idMem := by
  unfold endSupCycle
  split <;> simp [superStop]

@[simp] theorem Channel.idMem_msCmd (c : Channel) (w : Word) : (c.msCmd w).dom.idMem = c.dom.idMem := by simp [msCmd]

/-! ## Safety functions -/

@[simp] theorem Channel.idMem_setSafe (c : Channel) (f : Safe → Safe) :
    (c.setSafe f).dom.idMem = c.dom.idMem := by simp [setSafe]
@[simp] theorem Channel.idMem_evSto (c : Channel) (code : Nat) : (c.evSto code).dom.idMem = c.dom.idMem := by simp [evSto]
@[simp] theorem Channel.idMem_evSs1 (c : Channel) (code : Nat) : (c.evSs1 code).dom.idMem = c.dom.idMem := by simp [evSs1]
@[simp] theorem Channel.idMem_evDiag (c : Channel) (code : Nat) : (c.evDiag code).dom.idMem = c.dom.idMem := by simp [evDiag]

@[simp] theorem Channel.idMem_safeEval (c : Channel) : c.safeEval.dom.idMem = c.dom.idMem := by
  simp only [safeEval]
  repeat' split
  all_goals simp

@[simp] theorem Channel.idMem_boundarySafe (c : Channel) : c.boundarySafe.dom.idMem = c.dom.idMem := by simp [boundarySafe]
@[simp] theorem Channel.idMem_ss1Begin (c : Channel) (inputs : Bool) :
    (c.ss1Begin inputs).dom.idMem = c.dom.idMem := by simp [ss1Begin]
@[simp] theorem Channel.idMem_ss1End (c : Channel) : c.ss1End.dom.idMem = c.dom.idMem := by simp [ss1End]
@[simp] theorem Channel.idMem_stoInput (c : Channel) (inB level : Bool) :
    (c.stoInput inB level).dom.idMem = c.dom.idMem := by simp [stoInput, ss1FromInput, stoFalls, stoRises]
@[simp] theorem Channel.idMem_stoTimer (c : Channel) (inB : Bool) :
    (c.stoTimer inB).dom.idMem = c.dom.idMem := by simp [stoTimer]
@[simp] theorem Channel.idMem_stoDiscrepancy (c : Channel) :
    c.stoDiscrepancy.dom.idMem = c.dom.idMem := by simp [stoDiscrepancy]
@[simp] theorem Channel.idMem_stoTestDone (c : Channel) (pass : Bool) :
    (c.stoTestDone pass).dom.idMem = c.dom.idMem := by simp [stoTestDone]
@[simp] theorem Channel.idMem_ss1Sto (c : Channel) (code : Nat) : (c.ss1Sto code).dom.idMem = c.dom.idMem := by simp [ss1Sto]
@[simp] theorem Channel.idMem_ss1Timer (c : Channel) : c.ss1Timer.dom.idMem = c.dom.idMem := by simp [ss1Timer]
@[simp] theorem Channel.idMem_evKmon (c : Channel) (k kind : Nat) :
    (c.evKmon k kind).dom.idMem = c.dom.idMem := by simp [evKmon]
@[simp] theorem Channel.idMem_setConf (c : Channel) (k : Nat) (b : Bool) :
    (c.setConf k b).dom.idMem = c.dom.idMem := by simp [setConf]
@[simp] theorem Channel.idMem_kout (c : Channel) (k : Nat) (close : Bool) :
    (c.kout k close).dom.idMem = c.dom.idMem := by simp [kout]
@[simp] theorem Channel.idMem_kFault (c : Channel) (k kind : Nat) :
    (c.kFault k kind).dom.idMem = c.dom.idMem := by simp [kFault]
@[simp] theorem Channel.idMem_kCmd (c : Channel) (w : Word) : (c.kCmd w).dom.idMem = c.dom.idMem := by simp [kCmd, kCmdOne]

@[simp] theorem Channel.idMem_kReport (c : Channel) (k : Nat) (closed : Bool) :
    (c.kReport k closed).dom.idMem = c.dom.idMem := by
  simp only [kReport]
  repeat' split
  all_goals simp

@[simp] theorem Channel.idMem_kFeedback (c : Channel) (k : Nat) (level : Bool) :
    (c.kFeedback k level).dom.idMem = c.dom.idMem := by simp [kFeedback]
@[simp] theorem Channel.idMem_kLimit (c : Channel) (k : Nat) : (c.kLimit k).dom.idMem = c.dom.idMem := by simp [kLimit]

@[simp] theorem Channel.idMem_haltGuard (c : Channel) : c.haltGuard.dom.idMem = c.dom.idMem := by
  unfold haltGuard
  simp

@[simp] theorem Channel.idMem_hgLatch (c : Channel) : c.hgLatch.dom.idMem = c.dom.idMem := by
  unfold hgLatch
  split <;> simp

@[simp] theorem Channel.idMem_stoTest (c : Channel) : c.stoTest.dom.idMem = c.dom.idMem := by
  simp only [stoTest]
  split <;> simp

@[simp] theorem Channel.idMem_safeCmd (c : Channel) (w : Word) :
    (c.safeCmd w).dom.idMem = c.dom.idMem := by simp [safeCmd, hgClear, kClearOne, ss1Clear, ss1Request, stoRestart]
@[simp] theorem Channel.idMem_tpRefresh (c : Channel) : c.tpRefresh.dom.idMem = c.dom.idMem := by simp [tpRefresh]
@[simp] theorem Channel.idMem_tpFailure (c : Channel) : c.tpFailure.dom.idMem = c.dom.idMem := by simp [tpFailure]
@[simp] theorem Channel.idMem_tpSample (c : Channel) (i h : Nat) (w : Word) :
    (c.tpSample i h w).dom.idMem = c.dom.idMem := by simp [tpSample]

@[simp] theorem Channel.idMem_conversionStored (c : Channel) (q : Sample) :
    (c.conversionStored q).dom.idMem = c.dom.idMem := by
  unfold conversionStored
  repeat' split
  all_goals simp

@[simp] theorem Channel.idMem_torqueEstimate (c : Channel) : c.torqueEstimate.dom.idMem = c.dom.idMem := by
  unfold torqueEstimate
  split <;> simp [tpJudge]

@[simp] theorem Channel.idMem_tpWatch (c : Channel) : c.tpWatch.dom.idMem = c.dom.idMem := by simp [tpWatch, tpSuspension]
@[simp] theorem Channel.idMem_logAdd (c : Channel) (who engine what : Nat) (old new : Word) :
    (c.logAdd who engine what old new).dom.idMem = c.dom.idMem := by simp [logAdd]
@[simp] theorem Channel.idMem_logLock (c : Channel) : c.logLock.dom.idMem = c.dom.idMem := by simp [logLock]
@[simp] theorem Channel.idMem_safeUnlock (c : Channel) (w : Word) :
    (c.safeUnlock w).dom.idMem = c.dom.idMem := by simp [safeUnlock]
@[simp] theorem Channel.idMem_lockNow (c : Channel) : c.lockNow.dom.idMem = c.dom.idMem := by simp [lockNow]
@[simp] theorem Channel.idMem_lockCtl (c : Channel) (w : Word) :
    (c.lockCtl w).dom.idMem = c.dom.idMem := by simp [lockCtl, refreshCap, setLab]
@[simp] theorem Channel.idMem_oscWindow (c : Channel) (first count : Nat) :
    (c.oscWindow first count).dom.idMem = c.dom.idMem := by simp [oscWindow]

/-! ## Commits -/

@[simp] theorem Channel.idMem_retireCommit (c : Channel) (r : CommitReq) : (c.retireCommit r).dom.idMem = c.dom.idMem := by
  unfold retireCommit
  split
  · simp only [mapDom_dom]
    split <;> simp
  all_goals rfl

@[simp] theorem Channel.idMem_recordStatus (c : Channel) (r : CommitReq) : (c.recordStatus r).dom.idMem = c.dom.idMem := by
  unfold recordStatus
  split <;> simp [exitRefused, handoverRefused]

@[simp] theorem Channel.idMem_swapBanks (c : Channel) (r : CommitReq) : (c.swapBanks r).dom.idMem = c.dom.idMem := by
  simp only [swapBanks]
  split <;> simp [commitAdc, commitCas, commitClock, commitCmp, commitContactor, commitDrift, commitFault, commitGdi,
    commitLog, commitPolarity, commitSafe, commitSd, commitSup, commitThread, commitWeir, enterSync, exitSync, injCommit,
      restartThread]

@[simp] theorem Channel.idMem_commitEdge (c : Channel) : c.commitEdge.dom.idMem = c.dom.idMem := by
  simp only [commitEdge]
  split <;> simp [endCommit, landHeld]

@[simp] theorem Channel.idMem_requestCommit (c : Channel) (by_ : CommitBy) (mask : BitVec 7) :
    (c.requestCommit by_ mask).dom.idMem = c.dom.idMem := by
  unfold requestCommit
  repeat' split
  all_goals simp [collide, takeCommit]

@[simp] theorem Channel.idMem_planCommit (c : Channel) (e : Eng) (f : Fetch) (rd rs1 : GReg) (imm : BitVec 7) :
    (c.planCommit e f rd rs1 imm).dom.idMem = c.dom.idMem := by
  simp only [planCommit]
  split <;> simp

@[simp] theorem Domain.idMem_hostPlanCommit (d : Domain) (e : Eng) (f : Fetch) (rd rs1 : GReg) (imm : BitVec 7) :
    (d.hostPlanCommit e f rd rs1 imm).idMem = d.idMem := by simp [hostPlanCommit]
@[simp] theorem Channel.idMem_writeRwl (c : Channel) (k : Nat) (w : Word) :
    (c.writeRwl k w).dom.idMem = c.dom.idMem := by simp [writeRwl]
@[simp] theorem Channel.idMem_writeLhold (c : Channel) (w : Word) :
    (c.writeLhold w).dom.idMem = c.dom.idMem := by simp [writeLhold, holdRelease, w1c, Domain.w1c]
@[simp] theorem Channel.idMem_takeRwl (c : Channel) : c.takeRwl.dom.idMem = c.dom.idMem := by simp [takeRwl]
@[simp] theorem Channel.idMem_holdBoundary (c : Channel) : c.holdBoundary.dom.idMem = c.dom.idMem := by simp [holdBoundary]

/-! ## Weir -/

@[simp] theorem Channel.idMem_weirItem (c : Channel) (j slot lat : Nat) :
    (c.weirItem j slot lat).dom.idMem = c.dom.idMem := by simp [weirItem]
@[simp] theorem Channel.idMem_setTh (c : Channel) (t : Thread) (w : WThread) :
    (c.setTh t w).dom.idMem = c.dom.idMem := by simp [setTh]
@[simp] theorem Channel.idMem_weirStopAt (c : Channel) (t : Thread) (code : Nat) :
    (c.weirStopAt t code).dom.idMem = c.dom.idMem := by simp [weirStopAt]

@[simp] theorem Channel.idMem_weirIssue (c : Channel) (t : Thread) (f : SlotFetch) (ok : Bool)
    (op : Channel → BitVec 13 → Channel) (h : ∀ c pc, (op c pc).dom.idMem = c.dom.idMem) :
    (c.weirIssue t f ok op).dom.idMem = c.dom.idMem := by
  unfold weirIssue
  rw [idMem_when]
  cases f <;> simp [h]

@[simp] theorem Channel.idMem_setWeirK (c : Channel) (k : BitVec 2) (v : Word) :
    (c.setWeirK k v).dom.idMem = c.dom.idMem := by simp [setWeirK]

@[simp] theorem Channel.idMem_armWait (c : Channel) (t : Thread) (slot : BitVec 13) (what : WaitFor) (lim : BitVec 3)
    (addr : BitVec 13) (late : Bool) :
    (c.armWait t slot what lim addr late).dom.idMem = c.dom.idMem := by simp [armWait]

@[simp] theorem Channel.idMem_waitA (c : Channel) (t : Thread) (f : SlotFetch) (dir : BitVec 2) (past rel : Bool)
    (kr : BitVec 2) (lim : BitVec 3) (addr : BitVec 13) (imm : Word) :
    (c.waitA t f dir past rel kr lim addr imm).dom.idMem = c.dom.idMem := by simp [waitA]

@[simp] theorem Channel.idMem_waitC (c : Channel) (t : Thread) (f : SlotFetch) (dir : BitVec 2) (past rel : Bool)
    (kr : BitVec 2) (lim : BitVec 3) (addr : BitVec 13) (imm : Word) :
    (c.waitC t f dir past rel kr lim addr imm).dom.idMem = c.dom.idMem := by simp [waitC]

@[simp] theorem Channel.idMem_waitE (c : Channel) (t : Thread) (f : SlotFetch) (lim : BitVec 3) (addr : BitVec 13)
    (imm : Word) :
    (c.waitE t f lim addr imm).dom.idMem = c.dom.idMem := by simp [waitE]

@[simp] theorem Channel.idMem_waitSatisfied (c : Channel) (t : Thread) : (c.waitSatisfied t).dom.idMem = c.dom.idMem := by
  unfold waitSatisfied
  split <;> simp

@[simp] theorem Channel.idMem_waitExpired (c : Channel) (t : Thread) : (c.waitExpired t).dom.idMem = c.dom.idMem := by
  unfold waitExpired
  split <;> simp

@[simp] theorem Channel.idMem_strobe (c : Channel) (t : Thread) (f : SlotFetch) (imm : Word) :
    (c.strobe t f imm).dom.idMem = c.dom.idMem := by simp [strobe, pulse]
@[simp] theorem Channel.idMem_weirStart (c : Channel) (t : Thread) (f : SlotFetch) (imm : Word) :
    (c.weirStart t f imm).dom.idMem = c.dom.idMem := by simp [weirStart]
@[simp] theorem Channel.idMem_weirCommit (c : Channel) (t : Thread) (f : SlotFetch) (imm : Word) :
    (c.weirCommit t f imm).dom.idMem = c.dom.idMem := by simp [weirCommit]
@[simp] theorem Channel.idMem_weirSignal (c : Channel) (t : Thread) (f : SlotFetch) (imm : Word) :
    (c.weirSignal t f imm).dom.idMem = c.dom.idMem := by simp [weirSignal]
@[simp] theorem Channel.idMem_weirLdk (c : Channel) (t : Thread) (f : SlotFetch) (kr : BitVec 2) (imm : Word) :
    (c.weirLdk t f kr imm).dom.idMem = c.dom.idMem := by simp [weirLdk]
@[simp] theorem Channel.idMem_weirAddk (c : Channel) (t : Thread) (f : SlotFetch) (kr : BitVec 2) (imm : Word) :
    (c.weirAddk t f kr imm).dom.idMem = c.dom.idMem := by simp [weirAddk]
@[simp] theorem Channel.idMem_weirCapk (c : Channel) (t : Thread) (f : SlotFetch) (kr : BitVec 2) (imm : Word) :
    (c.weirCapk t f kr imm).dom.idMem = c.dom.idMem := by simp [weirCapk]
@[simp] theorem Channel.idMem_weirGo (c : Channel) (t : Thread) (addr : BitVec 13) :
    (c.weirGo t addr).dom.idMem = c.dom.idMem := by simp [weirGo]
@[simp] theorem Channel.idMem_weirDjnz (c : Channel) (t : Thread) (f : SlotFetch) (kr : BitVec 2) (addr : BitVec 13) :
    (c.weirDjnz t f kr addr).dom.idMem = c.dom.idMem := by simp [weirDjnz]
@[simp] theorem Channel.idMem_weirJmp (c : Channel) (t : Thread) (f : SlotFetch) (addr : BitVec 13) :
    (c.weirJmp t f addr).dom.idMem = c.dom.idMem := by simp [weirJmp]
@[simp] theorem Channel.idMem_weirBr (c : Channel) (t : Thread) (f : SlotFetch) (cond : BitVec 4) (addr : BitVec 13) :
    (c.weirBr t f cond addr).dom.idMem = c.dom.idMem := by simp [weirBr]
@[simp] theorem Channel.idMem_weirChkarm (c : Channel) (t : Thread) (f : SlotFetch) (addr : BitVec 13) (imm : Word) :
    (c.weirChkarm t f addr imm).dom.idMem = c.dom.idMem := by simp [weirChkarm]
@[simp] theorem Channel.idMem_weirStop (c : Channel) (t : Thread) (f : SlotFetch) :
    (c.weirStop t f).dom.idMem = c.dom.idMem := by simp [weirStop]
@[simp] theorem Channel.idMem_weirArm (c : Channel) (w : Word) : (c.weirArm w).dom.idMem = c.dom.idMem := by simp [weirArm]
@[simp] theorem Channel.idMem_weirDisarm (c : Channel) (w : Word) :
    (c.weirDisarm w).dom.idMem = c.dom.idMem := by simp [weirDisarm]
@[simp] theorem Channel.idMem_detect (c : Channel) (jump rev : Bool) :
    (c.detect jump rev).dom.idMem = c.dom.idMem := by simp [detect, detectExit]
@[simp] theorem Channel.idMem_ownCommit (c : Channel) :
    c.ownCommit.dom.idMem = c.dom.idMem := by simp [ownCommit, markRequested]

/-! ## What follows a change of a domain, and the lifts of a change to the whole state -/

@[simp] theorem State.idMem_mapHost (s : State) (f : Domain → Domain) :
    (s.mapHost f).idMem = Function.update s.idMem .host (f s.host.dom).idMem := s.idMem_setDom .host _
@[simp] theorem Domain.idMem_edge (d : Domain) (i : Nat) (a b : Bool) : (d.edge i a b).idMem = d.idMem := by simp [edge]
@[simp] theorem Domain.idMem_highCycle (d : Domain) (i : Nat) (b : Bool) :
    (d.highCycle i b).idMem = d.idMem := by simp [highCycle]
@[simp] theorem State.idMem_hostEvent (s : State) (ev arg : Nat) :
    (s.hostEvent ev arg).idMem = s.idMem := by simp [hostEvent]
@[simp] theorem State.idMem_bumpEpoch (s : State) (i n : Nat) : (s.bumpEpoch i n).idMem = s.idMem := by simp [bumpEpoch]
@[simp] theorem State.idMem_settleChan (a s : State) (n : Chan) :
    (State.settleChan a s n).idMem = s.idMem := by simp [settleChan]
@[simp] theorem State.idMem_settleLink (s : State) (n : Chan) : (s.settleLink n).idMem = s.idMem := by simp [settleLink]
@[simp] theorem State.idMem_settleOne (a s : State) (n : Chan) :
    (State.settleOne a s n).idMem = s.idMem := by simp [settleOne, Channel.settleSignals]
@[simp] theorem State.idMem_settleHost (a s : State) :
    (State.settleHost a s).idMem = s.idMem := by simp [settleHost, HostDom.settleSignals]

@[simp] theorem State.idMem_onCh (s : State) (n : Chan) (f : Channel → Channel) :
    (s.onCh n f).idMem =
      if (s.ch n).dom.inReset then s.idMem else Function.update s.idMem (.ch n) (f (s.ch n)).dom.idMem := by
  simp [onCh]

@[simp] theorem State.idMem_onHost (s : State) (f : HostDom → HostDom) :
    (s.onHost f).idMem =
      if s.host.dom.inReset then s.idMem else Function.update s.idMem .host (f s.host).dom.idMem := by
  simp [onHost]

@[simp] theorem State.idMem_onDom (s : State) (d : Dom) (f : Domain → Domain) :
    (s.onDom d f).idMem = if (s.dom d).inReset then s.idMem else Function.update s.idMem d (f (s.dom d)).idMem := by
  cases d with
  | ch n => by_cases h : (s.ch n).dom.inReset <;> simp [onDom, h]
  | host => by_cases h : s.host.dom.inReset <;> simp [onDom, h]

@[simp] theorem State.idMem_onCore (s : State) (d : Dom) (f : Domain → Domain) :
    (s.onCore d f).idMem = if (s.dom d).inReset then s.idMem else Function.update s.idMem d (f (s.dom d)).idMem := by
  cases d with
  | ch n => by_cases h : (s.ch n).dom.inReset <;> simp [onCore, h]
  | host => by_cases h : s.host.dom.inReset <;> simp [onCore, h]

/-! ## The PLL -/

@[simp] theorem Domain.idMem_setPll (d : Domain) (f : Pll → Pll) : (d.setPll f).idMem = d.idMem := by simp [setPll]
@[simp] theorem Domain.idMem_pllEvent (d : Domain) (ev : Nat) : (d.pllEvent ev).idMem = d.idMem := by simp [pllEvent]
@[simp] theorem Domain.idMem_lockFalls (d : Domain) : d.lockFalls.idMem = d.idMem := by simp [lockFalls]
@[simp] theorem Domain.idMem_fallBack (d : Domain) : d.fallBack.idMem = d.idMem := by simp [fallBack]
@[simp] theorem Domain.idMem_referenceGood (d : Domain) : d.referenceGood.idMem = d.idMem := by simp [referenceGood]
@[simp] theorem Domain.idMem_relock (d : Domain) (searches : List (Bool × Option Nat)) :
    (d.relock searches).idMem = d.idMem := by simp [relock]
@[simp] theorem Domain.idMem_writePllCtl (d : Domain) (oen w : Word) (fref : Nat) :
    (d.writePllCtl oen w fref).idMem = d.idMem := by simp [writePllCtl, pllApply, pllCtlBits, pllReturn]
@[simp] theorem Domain.idMem_writeEntry (v : Bool) (band : BitVec 6) (d : Domain) (i : Nat) :
    (d.writeEntry v band i).idMem = d.idMem := by simp [writeEntry]
@[simp] theorem Domain.idMem_setBand (d : Domain) (v : Bool) (band : BitVec 6) :
    (d.setBand v band).idMem = d.idMem := by simp [setBand]

@[simp] theorem Domain.idMem_bandSearchDone (d : Domain) (v : Bool) (band : BitVec 6) :
    (d.bandSearchDone v band).idMem = d.idMem := by
  unfold bandSearchDone
  split
  · rename_i x named_ _ _
    cases named_ <;> simp
  · rfl

@[simp] theorem Domain.idMem_pllLock (d : Domain) : d.pllLock.idMem = d.idMem := by
  simp only [pllLock]
  repeat' split
  all_goals simp

@[simp] theorem Domain.idMem_pllUnlock (d : Domain) : d.pllUnlock.idMem = d.idMem := by simp [pllUnlock, vcoLoss]
@[simp] theorem Domain.idMem_beginSwitch (d : Domain) (entry : Option (BitVec 3)) :
    (d.beginSwitch entry).idMem = d.idMem := by simp [beginSwitch]
@[simp] theorem Domain.idMem_hopGo (d : Domain) : d.hopGo.idMem = d.idMem := by simp [hopGo]
@[simp] theorem Domain.idMem_writeHop (d : Domain) (oen w : Word) : (d.writeHop oen w).idMem = d.idMem := by simp [writeHop]
@[simp] theorem Domain.idMem_autoSwitch (d : Domain) : d.autoSwitch.idMem = d.idMem := by simp [autoSwitch]
@[simp] theorem Domain.idMem_switchDone (d : Domain) (locked : Bool) :
    (d.switchDone locked).idMem = d.idMem := by simp [switchDone]
@[simp] theorem Domain.idMem_syncEdge (d : Domain) : d.syncEdge.idMem = d.idMem := by simp [syncEdge]

/-! ## Boot -/

@[simp] theorem Domain.idMem_toPhase (d : Domain) (p : Nat) : (d.toPhase p).idMem = d.idMem := by simp [toPhase]
@[simp] theorem Domain.idMem_bootFails (d : Domain) (code : Nat) : (d.bootFails code).idMem = d.idMem := by simp [bootFails]
@[simp] theorem Domain.idMem_startPll (d : Domain) (refdiv : Bool) (nint nfrac : Word) :
    (d.startPll refdiv nint nfrac).idMem = d.idMem := by simp [startPll]
@[simp] theorem Domain.idMem_b3Timeout (d : Domain) : d.b3Timeout.idMem = d.idMem := by simp [b3Timeout]
@[simp] theorem Domain.idMem_b4 (d : Domain) (good : Nat) : (d.b4 good).idMem = d.idMem := by simp [b4]
@[simp] theorem Channel.idMem_loadConfig (c : Channel) (a : Nat) :
    (c.loadConfig a).dom.idMem = c.dom.idMem := by simp [loadConfig]
@[simp] theorem Channel.idMem_logWord (old new : Nat) (c : Channel) (i : Nat) :
    (c.logWord old new i).dom.idMem = c.dom.idMem := by simp [logWord]

@[simp] theorem Domain.idMem_b8 (d : Domain) (groups : Bool) (fails : BitVec 3) : (d.b8 groups fails).idMem = d.idMem := by
  simp only [b8]
  repeat' split
  all_goals simp

@[simp] theorem Domain.idMem_b9 (d : Domain) (fails : Bool) (code : BitVec 8) (cmp : BitVec 7) (trip : BitVec 8) :
    (d.b9 fails code cmp trip).idMem = d.idMem := by simp [b9]
@[simp] theorem Domain.idMem_startCore (pc : Word) (d : Domain) (e : Eng) :
    (d.startCore pc e).idMem = d.idMem := by simp [startCore]

@[simp] theorem Domain.idMem_release (d : Domain) (pc : Word) : (d.release pc).idMem = d.idMem := by
  unfold release
  extract_lets d₁
  have h₁ : d₁.idMem = d.idMem := by simp [d₁]
  clear_value d₁
  split
  · rename_i start _
    have hs (e : Eng) (pc : Word) (d : Domain) : (start e pc d).idMem = d.idMem := by simp [start]
    exact (hs _ _ _).trans ((hs _ _ _).trans h₁)
  · exact (idMem_foldl _ _ _ fun d e => d.idMem_startCore pc e).trans h₁

@[simp] theorem Channel.idMem_haltBlocks (c : Channel) : c.haltBlocks.dom.idMem = c.dom.idMem := by simp [haltBlocks]
@[simp] theorem Domain.idMem_tellRelease (d : Domain) : d.tellRelease.idMem = d.idMem := by simp [tellRelease]
@[simp] theorem Domain.idMem_b10 (d : Domain) : d.b10.idMem = d.idMem := by simp [b10]
@[simp] theorem Domain.idMem_b6 (d : Domain) (digest : Bool) : (d.b6 digest).idMem = d.idMem := by simp [b6]
@[simp] theorem Domain.idMem_hostB2 (d : Domain) (ecc : Bool) : (d.hostB2 ecc).idMem = d.idMem := by simp [hostB2]

/-! ## Supplies and resets -/

@[simp] theorem Domain.idMem_loseRing (d : Domain) : d.loseRing.idMem = d.idMem := by simp [loseRing]
@[simp] theorem State.idMem_releaseChan (s : State) (n : Chan) (src : ResetSrc → ResetSrc) :
    (s.releaseChan n src).idMem = s.idMem := by simp [releaseChan]
@[simp] theorem State.idMem_releaseHost (s : State) (src : ResetSrc → ResetSrc) :
    (s.releaseHost src).idMem = s.idMem := by simp [releaseHost]
@[simp] theorem State.idMem_supplyDeassert (s : State) (rail : Rail) :
    (s.supplyDeassert rail).idMem = s.idMem := by simp [supplyDeassert]

@[simp] theorem State.idMem_extensionExpiry (s : State) (d : Dom) : (s.extensionExpiry d).idMem = s.idMem := by
  unfold extensionExpiry
  repeat' split
  all_goals simp

@[simp] theorem State.idMem_writeInhibit (s : State) (on_ : Bool) :
    (s.writeInhibit on_).idMem = s.idMem := by simp [writeInhibit]
@[simp] theorem Domain.idMem_pinClears (d : Domain) : d.pinClears.idMem = d.idMem := by simp [pinClears]
@[simp] theorem State.idMem_pinRelease (s : State) (n : Chan) : (s.pinRelease n).idMem = s.idMem := by simp [pinRelease]
@[simp] theorem State.idMem_hostPinRelease (s : State) : s.hostPinRelease.idMem = s.idMem := by simp [hostPinRelease]

@[simp] theorem State.idMem_thermalRestart (s : State) (d : Dom) : (s.thermalRestart d).idMem = s.idMem := by
  unfold thermalRestart
  repeat' split
  all_goals simp

/-! ## The ring -/

@[simp] theorem HostDom.idMem_set (h : HostDom) (f : Fld) (v : Word) :
    (h.set f v).dom.idMem = h.dom.idMem := by simp [HostDom.set]
@[simp] theorem HostDom.idMem_setN (h : HostDom) (f : Fld) (v : Nat) : (h.setN f v).dom.idMem = h.dom.idMem := by simp [setN]
@[simp] theorem HostDom.idMem_setB (h : HostDom) (f : Fld) (b : Bool) :
    (h.setB f b).dom.idMem = h.dom.idMem := by simp [setB]
@[simp] theorem HostDom.idMem_raise (h : HostDom) (ev : Nat) (arg : Nat) :
    (h.raise ev arg).dom.idMem = h.dom.idMem := by simp [raise]
@[simp] theorem HostDom.idMem_count (h : HostDom) (f : Fld) : (h.count f).dom.idMem = h.dom.idMem := by simp [count]
@[simp] theorem HostDom.idMem_frameItem (h : HostDom) (j : Nat) :
    (h.frameItem j).dom.idMem = h.dom.idMem := by simp [frameItem]
@[simp] theorem HostDom.idMem_setRing (h : HostDom) (f : Ring → Ring) :
    (h.setRing f).dom.idMem = h.dom.idMem := by simp [setRing]
@[simp] theorem HostDom.idMem_setLink (h : HostDom) (p : Port) (st : Nat) :
    (h.setLink p st).dom.idMem = h.dom.idMem := by simp [setLink]
@[simp] theorem HostDom.idMem_setWrap (h : HostDom) (p : Port) (on_ : Bool) :
    (h.setWrap p on_).dom.idMem = h.dom.idMem := by simp [setWrap]
@[simp] theorem HostDom.idMem_transmit (h : HostDom) (p : Port) (f : List Byte) :
    (h.transmit p f).dom.idMem = h.dom.idMem := by simp [transmit]

@[simp] theorem HostDom.idMem_drain (h : HostDom) (p : Port) : (h.drain p).dom.idMem = h.dom.idMem := by
  simp only [drain]
  split <;> simp

@[simp] theorem HostDom.idMem_transmitCyclic (h : HostDom) (p : Port) (f : List Byte) :
    (h.transmitCyclic p f).dom.idMem = h.dom.idMem := by simp [transmitCyclic]
@[simp] theorem HostDom.idMem_discard (h : HostDom) (f : Fld) (kind : Nat) :
    (h.discard f kind).dom.idMem = h.dom.idMem := by simp [discard]

@[simp] theorem HostDom.idMem_takeCheck (h : HostDom) (f : List Byte) : (h.takeCheck f).2.dom.idMem = h.dom.idMem := by
  unfold takeCheck
  repeat' split
  all_goals simp

@[simp] theorem HostDom.idMem_take (h : HostDom) (f : List Byte) : (h.take f).dom.idMem = h.dom.idMem := by simp [take]

@[simp] theorem HostDom.idMem_goesOn (h : HostDom) (p : Port) (g : List Byte) (send : HostDom → Port → List Byte → HostDom)
    (again : HostDom → List Byte → HostDom) (hs : ∀ h p g, (send h p g).dom.idMem = h.dom.idMem)
    (ha : ∀ h g, (again h g).dom.idMem = h.dom.idMem) : (h.goesOn p g send again).dom.idMem = h.dom.idMem := by
  simp [goesOn, hs, ha]

@[simp] theorem HostDom.idMem_arrive (n : Nat) (h : HostDom) (p : Port) (f : List Byte) :
    (HostDom.arrive n h p f).dom.idMem = h.dom.idMem := by
  induction n generalizing h p f with
  | zero => rfl
  | succ n ih => simp [arrive, ih]

@[simp] theorem HostDom.idMem_frameReceive (h : HostDom) (p : Port) (f : List Byte) :
    (h.frameReceive p f).dom.idMem = h.dom.idMem := by simp [frameReceive]
@[simp] theorem HostDom.idMem_originate (h : HostDom) (p : Port) (f : List Byte) :
    (h.originate p f).dom.idMem = h.dom.idMem := by simp [originate]
@[simp] theorem HostDom.idMem_linkAlign (h : HostDom) (p : Port) :
    (h.linkAlign p).dom.idMem = h.dom.idMem := by simp [linkAlign]
@[simp] theorem HostDom.idMem_linkUp (h : HostDom) (p : Port) : (h.linkUp p).dom.idMem = h.dom.idMem := by simp [linkUp]
@[simp] theorem HostDom.idMem_linkDown (h : HostDom) (p : Port) :
    (h.linkDown p).dom.idMem = h.dom.idMem := by simp [linkDown]
@[simp] theorem HostDom.idMem_unwrap (h : HostDom) (p : Port) : (h.unwrap p).dom.idMem = h.dom.idMem := by simp [unwrap]
@[simp] theorem State.idMem_bypassChange (s : State) : s.bypassChange.idMem = s.idMem := by simp [bypassChange]
@[simp] theorem HostDom.idMem_enqueue (h : HostDom) (p : Port) (f : List Byte) :
    (h.enqueue p f).dom.idMem = h.dom.idMem := by simp [enqueue]

theorem State.idMem_nextFrame {s t : State} {p : Port} {f : List Byte} (h : s.nextFrame p = some (f, t)) :
    t.idMem = s.idMem := by
  unfold nextFrame at h
  dsimp only at h
  repeat' split at h
  all_goals cases h
  all_goals simp

@[simp] theorem State.idMem_frameSend (s : State) (p : Port) : (s.frameSend p).idMem = s.idMem := by
  unfold frameSend
  dsimp only
  split
  · cases h : s.nextFrame p with
    | none => rfl
    | some x => simp [idMem_nextFrame h]
  · rfl

@[simp] theorem HostDom.idMem_response (h : HostDom) (tag : Nat) (stat : BitVec 4) (data : Word) :
    (h.response tag stat data).dom.idMem = h.dom.idMem := by simp [response]

@[simp] theorem HostDom.idMem_insertTx (h : HostDom) (slots : List Word) : (h.insertTx slots).2.dom.idMem = h.dom.idMem := by
  have key (op : List Word × HostDom → Nat → List Word × HostDom) (ho : ∀ x k, (op x k).2.dom.idMem = x.2.dom.idMem)
      (l : List Nat) (x : List Word × HostDom) : (l.foldl op x).2.dom.idMem = x.2.dom.idMem := by
    induction l generalizing x with
    | nil => rfl
    | cons k l ih => exact (ih _).trans (ho x k)
  refine key _ (fun x k => ?_) _ _
  repeat' split
  all_goals simp

@[simp] theorem HostDom.idMem_lateTx (h : HostDom) : h.lateTx.dom.idMem = h.dom.idMem := by simp [lateTx]
@[simp] theorem State.idMem_txPrepare (s : State) : s.txPrepare.idMem = s.idMem := by simp [txPrepare]
@[simp] theorem HostDom.idMem_cyclicSeen (h : HostDom) (path : Nat) :
    (h.cyclicSeen path).dom.idMem = h.dom.idMem := by simp [cyclicSeen]

@[simp] theorem HostDom.idMem_captureRx (h : HostDom) (slots : List Word) (path : Nat) (first : Bool) :
    (h.captureRx slots path first).dom.idMem = h.dom.idMem := by
  refine idMem_foldl _ _ _ fun h k => ?_
  dsimp only
  repeat' split
  all_goals simp

@[simp] theorem HostDom.idMem_cyclicArrive (n : Nat) (h : HostDom) (p : Port) (f : List Byte) :
    (HostDom.cyclicArrive n h p f).dom.idMem = h.dom.idMem := by
  induction n generalizing h p f with
  | zero => rfl
  | succ n ih => simp [cyclicArrive, ih]

@[simp] theorem HostDom.idMem_cyclicFrame (h : HostDom) (p : Port) (f : List Byte) :
    (h.cyclicFrame p f).dom.idMem = h.dom.idMem := by simp [cyclicFrame]
@[simp] theorem HostDom.idMem_timeOffset (h : HostDom) (off : Int) :
    (h.timeOffset off).dom.idMem = h.dom.idMem := by simp [timeOffset]

@[simp] theorem HostDom.idMem_timeArrive (n : Nat) (h : HostDom) (p : Port) (f : List Byte) (own delay : Nat) :
    (HostDom.timeArrive n h p f own delay).dom.idMem = h.dom.idMem := by
  induction n generalizing h p f own delay with
  | zero => rfl
  | succ n ih => simp [timeArrive, ih]

@[simp] theorem HostDom.idMem_timeFrame (h : HostDom) (p : Port) (f : List Byte) (own : Nat) :
    (h.timeFrame p f own).dom.idMem = h.dom.idMem := by simp [timeFrame]
@[simp] theorem HostDom.idMem_sendCycle (h : HostDom) (p : Port) :
    (h.sendCycle p).dom.idMem = h.dom.idMem := by simp [sendCycle, originateCyclic, originateTime]
@[simp] theorem HostDom.idMem_cycleBegin (h : HostDom) :
    h.cycleBegin.dom.idMem = h.dom.idMem := by simp [cycleBegin, missCycle, timeInvalid]
@[simp] theorem HostDom.idMem_writeCtl (h : HostDom) (w : Word) :
    (h.writeCtl w).dom.idMem = h.dom.idMem := by simp [writeCtl]
@[simp] theorem HostDom.idMem_manage (h : HostDom) (p : Port) (dst sub hops : Nat) (payload : List Word) :
    (h.manage p dst sub hops payload).dom.idMem = h.dom.idMem := by simp [manage]
@[simp] theorem HostDom.idMem_delayRequest (h : HostDom) (p : Port) :
    (h.delayRequest p).dom.idMem = h.dom.idMem := by simp [delayRequest]
@[simp] theorem HostDom.idMem_delayMeasure (h : HostDom) (p : Port) :
    (h.delayMeasure p).dom.idMem = h.dom.idMem := by simp [delayMeasure]
@[simp] theorem HostDom.idMem_delayReply (h : HostDom) (p : Port) (delay : BitVec 16) :
    (h.delayReply p delay).dom.idMem = h.dom.idMem := by simp [delayReply]
@[simp] theorem State.idMem_discovery (s : State) (p : Port) (src : Nat) :
    (s.discovery p src).idMem = s.idMem := by simp [discovery]
@[simp] theorem HostDom.idMem_eventReport (h : HostDom) : h.eventReport.dom.idMem = h.dom.idMem := by simp [eventReport]

@[simp] theorem State.idMem_rtCapture (s : State) (d : Dom) : (s.rtCapture d).idMem = s.idMem := by
  unfold rtCapture
  split <;> simp

@[simp] theorem State.idMem_mbxDoor (s : State) (n : Chan) (w : Word) : (s.mbxDoor n w).idMem = s.idMem := by simp [mbxDoor]
@[simp] theorem HostDom.idMem_errcntClear (h : HostDom) : h.errcntClear.dom.idMem = h.dom.idMem := by simp [errcntClear]

/-! ## Boundaries and edges -/

@[simp] theorem Channel.idMem_boundaryRwl (c : Channel) : c.boundaryRwl.dom.idMem = c.dom.idMem := by simp [boundaryRwl]
@[simp] theorem Channel.idMem_boundary (c : Channel) : c.boundary.dom.idMem = c.dom.idMem := by simp [boundary]

@[simp] theorem Domain.idMem_tickCore (d : Domain) (e : Eng) : (d.tickCore e).idMem = d.idMem := by
  simp only [tickCore]
  repeat' split
  all_goals simp

@[simp] theorem Domain.idMem_tick (d : Domain) : d.tick.idMem = d.idMem := by simp [tick, noteSource, putEntries, putEntry]
@[simp] theorem Channel.idMem_tickTrips (c : Channel) : c.tickTrips.dom.idMem = c.dom.idMem := by simp [tickTrips]

@[simp] theorem Channel.idMem_storeAndCheck (c : Channel) (q : Sample) : (c.storeAndCheck q).dom.idMem = c.dom.idMem := by
  unfold storeAndCheck
  split <;> simp

@[simp] theorem Channel.idMem_freeStore (c : Channel) : c.freeStore.dom.idMem = c.dom.idMem := by
  unfold freeStore
  split <;> simp

@[simp] theorem Channel.idMem_tickCas (c : Channel) : c.tickCas.dom.idMem = c.dom.idMem := by
  unfold tickCas
  split <;> simp

@[simp] theorem Channel.idMem_begin (c : Channel) :
    c.begin.1.dom.idMem = c.dom.idMem := by
  simp [begin, diagWindow, endAdcCycle, endCycle, endGdiCycle, endLines, endPosCycle, endPwmCycle, endResolver, endTrip,
    endWeirCycle, failover, freePair, highCycles, latchActs, latchStrobe, lineFire, safeLatch, slsLatch, ss1Latch, ssiStrobe,
      superLatch, tripAtLatch, weirHaltEdge, windowEdge]

@[simp] theorem Channel.idMem_atBoundary (c : Channel) : c.atBoundary.dom.idMem = c.dom.idMem := by simp [atBoundary]
@[simp] theorem Channel.idMem_begun (c : Channel) : c.begun.dom.idMem = c.dom.idMem := by simp [begun]
@[simp] theorem Channel.idMem_noteDrivers (c : Channel) : c.noteDrivers.dom.idMem = c.dom.idMem := by simp [noteDrivers]
@[simp] theorem Channel.idMem_cycle (c : Channel) : c.cycle.dom.idMem = c.dom.idMem := by simp [cycle]
@[simp] theorem Channel.idMem_stages (c : Channel) :
    c.stages.dom.idMem = c.dom.idMem := by simp [stages, stageChange, stageEdge]
@[simp] theorem Channel.idMem_tick (c : Channel) : c.tick.dom.idMem = c.dom.idMem := by simp [tick]
@[simp] theorem Channel.idMem_edgeIf (c : Channel) (outcome : Bool) :
    (c.edgeIf outcome).dom.idMem = c.dom.idMem := by simp [edgeIf]
@[simp] theorem Channel.idMem_edgeWith (c : Channel) (shows : Channel → Channel → Bool) :
    (c.edgeWith shows).dom.idMem = c.dom.idMem := by simp [edgeWith]
@[simp] theorem Channel.idMem_tpStaleExpiry (c : Channel) :
    c.tpStaleExpiry.dom.idMem = c.dom.idMem := by simp [tpStaleExpiry]
@[simp] theorem Channel.idMem_cascadeStart (c : Channel) : c.cascadeStart.dom.idMem = c.dom.idMem := by simp [cascadeStart]
@[simp] theorem Channel.idMem_runmaxExpiry (c : Channel) : c.runmaxExpiry.dom.idMem = c.dom.idMem := by simp [runmaxExpiry]
@[simp] theorem Channel.idMem_commitSwap (c : Channel) : c.commitSwap.dom.idMem = c.dom.idMem := by simp [commitSwap]
@[simp] theorem Channel.idMem_carrierBoundary (c : Channel) :
    c.carrierBoundary.dom.idMem = c.dom.idMem := by simp [carrierBoundary]
@[simp] theorem Channel.idMem_carrierStop (c : Channel) : c.carrierStop.dom.idMem = c.dom.idMem := by simp [carrierStop]
@[simp] theorem Channel.idMem_boundaryWith (c : Channel) (outcome : Channel → Channel → Bool) :
    (c.boundaryWith outcome).dom.idMem = c.dom.idMem := by simp [boundaryWith]

@[simp] theorem Channel.idMem_superWith (c : Channel) (outcome : Channel → Channel → Bool) :
    (c.superWith outcome).dom.idMem = c.dom.idMem := by
  unfold superWith
  split <;> simp

@[simp] theorem Channel.idMem_catchEnd (c : Channel) : c.catchEnd.dom.idMem = c.dom.idMem := by simp [catchEnd]
@[simp] theorem Channel.idMem_coastExpiry (c : Channel) : c.coastExpiry.dom.idMem = c.dom.idMem := by simp [coastExpiry]

@[simp] theorem Channel.idMem_lockedRotor (c : Channel) : c.lockedRotor.dom.idMem = c.dom.idMem := by
  unfold lockedRotor
  split <;> simp

@[simp] theorem Channel.idMem_linkHoldExpiry (c : Channel) :
    c.linkHoldExpiry.dom.idMem = c.dom.idMem := by simp [linkHoldExpiry]
@[simp] theorem Channel.idMem_cascadeWatchdog (c : Channel) :
    c.cascadeWatchdog.dom.idMem = c.dom.idMem := by simp [cascadeWatchdog]
@[simp] theorem Channel.idMem_bootstrapCharge (c : Channel) (k : Nat) :
    (c.bootstrapCharge k).dom.idMem = c.dom.idMem := by simp [bootstrapCharge]
@[simp] theorem Channel.idMem_liveHoldTimeout (c : Channel) :
    c.liveHoldTimeout.dom.idMem = c.dom.idMem := by simp [liveHoldTimeout]

@[simp] theorem Channel.idMem_waitSatisfiedEdge (c : Channel) (t : Thread) :
    (c.waitSatisfiedEdge t).dom.idMem = c.dom.idMem := by
  unfold waitSatisfiedEdge
  split <;> simp

@[simp] theorem Channel.idMem_waitExpiry (c : Channel) (t : Thread) : (c.waitExpiry t).dom.idMem = c.dom.idMem := by
  unfold waitExpiry
  split <;> simp

@[simp] theorem Channel.idMem_extrapolationStale (c : Channel) :
    c.extrapolationStale.dom.idMem = c.dom.idMem := by simp [extrapolationStale]

@[simp] theorem Channel.idMem_positionLatchDelivery (c : Channel) : c.positionLatchDelivery.dom.idMem = c.dom.idMem := by
  unfold positionLatchDelivery
  split <;> simp

@[simp] theorem Channel.idMem_handoverCommit (c : Channel) :
    c.handoverCommit.dom.idMem = c.dom.idMem := by simp [handoverCommit]
@[simp] theorem Channel.idMem_syncExitCommit (c : Channel) :
    c.syncExitCommit.dom.idMem = c.dom.idMem := by simp [syncExitCommit]
@[simp] theorem Channel.idMem_syncTimeout (c : Channel) : c.syncTimeout.dom.idMem = c.dom.idMem := by simp [syncTimeout]
@[simp] theorem Channel.idMem_positionLatchStrobe (c : Channel) :
    c.positionLatchStrobe.dom.idMem = c.dom.idMem := by simp [positionLatchStrobe]
@[simp] theorem Channel.idMem_standstillTimeout (c : Channel) :
    c.standstillTimeout.dom.idMem = c.dom.idMem := by simp [standstillTimeout]
@[simp] theorem Channel.idMem_emulationStep (c : Channel) :
    c.emulationStep.dom.idMem = c.dom.idMem := by simp [emulationStep]
@[simp] theorem Channel.idMem_ssiMonoEnd (c : Channel) : c.ssiMonoEnd.dom.idMem = c.dom.idMem := by simp [ssiMonoEnd]
@[simp] theorem Channel.idMem_triggerFire (c : Channel) (n : Nat) :
    (c.triggerFire n).dom.idMem = c.dom.idMem := by simp [triggerFire]
@[simp] theorem Channel.idMem_positionCompareFire (c : Channel) (n : Nat) :
    (c.positionCompareFire n).dom.idMem = c.dom.idMem := by simp [positionCompareFire]
@[simp] theorem Channel.idMem_xcmpFire (c : Channel) (n : Nat) : (c.xcmpFire n).dom.idMem = c.dom.idMem := by simp [xcmpFire]
@[simp] theorem Channel.idMem_groupEnd (c : Channel) : c.groupEnd.dom.idMem = c.dom.idMem := by simp [groupEnd]
@[simp] theorem Channel.idMem_pulseDecision (c : Channel) (k : Nat) :
    (c.pulseDecision k).dom.idMem = c.dom.idMem := by simp [pulseDecision]
@[simp] theorem Channel.idMem_compareFire (c : Channel) (k : Nat) (second : Bool) :
    (c.compareFire k second).dom.idMem = c.dom.idMem := by simp [compareFire]
@[simp] theorem Channel.idMem_deadTimeEnd (c : Channel) (k : Nat) :
    (c.deadTimeEnd k).dom.idMem = c.dom.idMem := by simp [deadTimeEnd]
@[simp] theorem Channel.idMem_ascSwitchOn (c : Channel) (n : Nat) :
    (c.ascSwitchOn n).dom.idMem = c.dom.idMem := by simp [ascSwitchOn]
@[simp] theorem Channel.idMem_blankingEnd (c : Channel) (m : Nat) :
    (c.blankingEnd m).dom.idMem = c.dom.idMem := by simp [blankingEnd]
@[simp] theorem Channel.idMem_ginDwellEnd (c : Channel) : c.ginDwellEnd.dom.idMem = c.dom.idMem := by simp [ginDwellEnd]
@[simp] theorem Channel.idMem_brakeIntervalEnd (c : Channel) :
    c.brakeIntervalEnd.dom.idMem = c.dom.idMem := by simp [brakeIntervalEnd]
@[simp] theorem Channel.idMem_dischargeFeedbackTimeout (c : Channel) :
    c.dischargeFeedbackTimeout.dom.idMem = c.dom.idMem := by simp [dischargeFeedbackTimeout]
@[simp] theorem Channel.idMem_dischargeVoltageTimeout (c : Channel) :
    c.dischargeVoltageTimeout.dom.idMem = c.dom.idMem := by simp [dischargeVoltageTimeout]
@[simp] theorem Channel.idMem_dischargeMax (c : Channel) : c.dischargeMax.dom.idMem = c.dom.idMem := by simp [dischargeMax]
@[simp] theorem Channel.idMem_dischargeVoltage (c : Channel) (v : Int) :
    (c.dischargeVoltage v).dom.idMem = c.dom.idMem := by simp [dischargeVoltage]
@[simp] theorem Channel.idMem_overvoltage2 (c : Channel) (v : Int) :
    (c.overvoltage2 v).dom.idMem = c.dom.idMem := by simp [overvoltage2]
@[simp] theorem Channel.idMem_comparatorSettle (c : Channel) (k : Nat) (v : Int) :
    (c.comparatorSettle k v).dom.idMem = c.dom.idMem := by simp [comparatorSettle, cmpInput]
@[simp] theorem Channel.idMem_outputStageChange (c : Channel) (n : Nat) :
    (c.outputStageChange n).dom.idMem = c.dom.idMem := by simp [outputStageChange]
@[simp] theorem HostDom.idMem_tick (h : HostDom) : h.tick.dom.idMem = h.dom.idMem := by simp [tick, highCycles, timeouts]
@[simp] theorem HostDom.idMem_edgeIf (h : HostDom) (outcome : Bool) :
    (h.edgeIf outcome).dom.idMem = h.dom.idMem := by simp [edgeIf]
@[simp] theorem HostDom.idMem_cycleStart (h : HostDom) : h.cycleStart.dom.idMem = h.dom.idMem := by simp [cycleStart]
@[simp] theorem HostDom.idMem_cycleMiss (h : HostDom) : h.cycleMiss.dom.idMem = h.dom.idMem := by simp [cycleMiss]
@[simp] theorem HostDom.idMem_ringTimeInvalid (h : HostDom) :
    h.ringTimeInvalid.dom.idMem = h.dom.idMem := by simp [ringTimeInvalid]
@[simp] theorem HostDom.idMem_accessTimeout (h : HostDom) (tag : Nat) :
    (h.accessTimeout tag).dom.idMem = h.dom.idMem := by simp [accessTimeout]
@[simp] theorem State.idMem_tick (s : State) : s.tick.idMem = s.idMem := by simp [tick]

/-! ## Balls -/

@[simp] theorem State.idMem_onBall (s : State) (n : Chan) (f : Channel → Channel)
    (hf : ∀ c, (f c).dom.idMem = c.dom.idMem) : (s.onBall n f).idMem = s.idMem := by
  simp [onBall, hf]

/-! ## Update -/

@[simp] theorem HostDom.idMem_setStg (h : HostDom) (n : Nat) : (h.setStg n).dom.idMem = h.dom.idMem := by simp [setStg]
@[simp] theorem HostDom.idMem_stagingSeal (h : HostDom) : h.stagingSeal.dom.idMem = h.dom.idMem := by simp [stagingSeal]
@[simp] theorem HostDom.idMem_updCntClear (h : HostDom) : h.updCntClear.dom.idMem = h.dom.idMem := by simp [updCntClear]
@[simp] theorem HostDom.idMem_chunkReply (h : HostDom) (p : Port) (src tag st : Nat) :
    (h.chunkReply p src tag st).dom.idMem = h.dom.idMem := by simp [chunkReply]
@[simp] theorem State.idMem_updateChunk (s : State) (p : Port) (src tag : Nat) (head : Word) (data : List Word) :
    (s.updateChunk p src tag head data).idMem = s.idMem := by simp [updateChunk, HostDom.chunkRefused]
@[simp] theorem HostDom.idMem_decide (h : HostDom) (result part : Nat) :
    (h.decide result part).dom.idMem = h.dom.idMem := by simp [decide]
@[simp] theorem HostDom.idMem_tellUpdate (h : HostDom) (floor : Nat) :
    (h.tellUpdate floor).dom.idMem = h.dom.idMem := by simp [tellUpdate]
@[simp] theorem Domain.idMem_hostRelease (d : Domain) : d.hostRelease.idMem = d.idMem := by simp [hostRelease]
@[simp] theorem State.idMem_h11 (s : State) : s.h11.idMem = s.idMem := by simp [h11]

/-! ## Reads and writes of block registers -/

@[simp] theorem State.idMem_readBefore (s : State) (d : Dom) (k : Nat) :
    (s.readBefore d k).idMem = s.idMem := by simp [readBefore]

@[simp] theorem State.idMem_readAfter (s : State) (d : Dom) (who : Option Eng) (k : Nat) :
    (s.readAfter d who k).idMem = s.idMem := by
  unfold readAfter
  repeat' split
  all_goals simp [Channel.capd23Read, Channel.logd4Read, Domain.cntCapture]

theorem State.idMem_readBlock {s : State} {d : Dom} {who : Option Eng} {k : Nat} {r : Word × State}
    (h : s.readBlock d who k = some r) : r.2.idMem = s.idMem := by
  unfold readBlock at h
  dsimp only at h
  repeat' split at h
  all_goals cases h
  all_goals simp

@[simp] theorem Domain.idMem_writePlain (d : Domain) (r : RegRow) (k : Nat) (w : Word) :
    (d.writePlain r k w).idMem = d.idMem := by simp [writePlain, keepMode]
@[simp] theorem Domain.idMem_clearKey (d : Domain) (k : Nat) : (d.clearKey k).idMem = d.idMem := by simp [clearKey]
@[simp] theorem Domain.idMem_cntClear (d : Domain) (w : Word) : (d.cntClear w).idMem = d.idMem := by simp [cntClear]
@[simp] theorem Domain.idMem_smpCtl (d : Domain) (w : Word) : (d.smpCtl w).idMem = d.idMem := by simp [smpCtl]
@[simp] theorem Domain.idMem_pllCtlFree (d : Domain) (oen w : Word) :
    (d.pllCtlFree oen w).idMem = d.idMem := by simp [pllCtlFree]
@[simp] theorem Domain.idMem_writeReg (d : Domain) (inhibit : Bool) (oen : Word) (r : RegRow) (k : Nat) (w : Word) :
    (d.writeReg inhibit oen r k w).idMem = d.idMem := by simp [writeReg, pendClear, priWrite, repairDue, writeClkmon]
@[simp] theorem Channel.idMem_holdClamps (c : Channel) : c.holdClamps.dom.idMem = c.dom.idMem := by simp [holdClamps]

@[simp] theorem Channel.idMem_writeReg (c : Channel) (inhibit : Bool) (r : RegRow) (k : Nat) (w : Word) :
    (c.writeReg inhibit r k w).dom.idMem = c.dom.idMem := by
  unfold writeReg
  repeat' split
  all_goals simp

@[simp] theorem HostDom.idMem_writeReg (h : HostDom) (inhibit : Bool) (r : RegRow) (k : Nat) (w : Word) :
    (h.writeReg inhibit r k w).dom.idMem = h.dom.idMem := by
  unfold writeReg
  split <;> simp [writeNode]

@[simp] theorem State.idMem_ringError (s : State) (d : Dom) (a st : Nat) : (s.ringError d a st).idMem = s.idMem := by
  unfold ringError
  split <;> simp

@[simp] theorem State.idMem_readFor (s : State) (d : Dom) (who : Option Eng) (k : Nat) :
    (s.readFor d who k).idMem = s.idMem := by
  unfold readFor
  split
  · rfl
  · split
    · exact idMem_readBlock ‹_›
    · rfl

/-! ## The debug port -/

@[simp] theorem Domain.idMem_haltCores (d : Domain) (cause : BitVec 3) :
    (d.haltCores cause).idMem = d.idMem := by simp [haltCores]

@[simp] theorem State.idMem_haltDom (s : State) (d : Dom) (cause : BitVec 3) : (s.haltDom d cause).idMem = s.idMem := by
  unfold haltDom
  split <;> simp [Channel.halt, Domain.hostHalt]

@[simp] theorem State.idMem_haltRequest (s : State) (d : Dom) : (s.haltRequest d).idMem = s.idMem := by simp [haltRequest]

@[simp] theorem State.idMem_haltEffect (s : State) (d : Dom) : (s.haltEffect d).idMem = s.idMem := by
  unfold haltEffect
  split <;> simp

@[simp] theorem State.idMem_resume (s : State) (d : Dom) : (s.resume d).idMem = s.idMem := by
  unfold resume
  split <;> simp [Domain.resumeCores]

@[simp] theorem Domain.idMem_stepCores (d : Domain) : d.stepCores.idMem = d.idMem := by simp [stepCores]
@[simp] theorem Channel.idMem_setWeirHalt (c : Channel) (on_ : Bool) :
    (c.setWeirHalt on_).dom.idMem = c.dom.idMem := by simp [setWeirHalt]
@[simp] theorem Channel.idMem_setCasHalt (c : Channel) (on_ : Bool) :
    (c.setCasHalt on_).dom.idMem = c.dom.idMem := by simp [setCasHalt]
@[simp] theorem Channel.idMem_engineCtl (c : Channel) (w : Word) :
    (c.engineCtl w).dom.idMem = c.dom.idMem := by simp [engineCtl]

@[simp] theorem State.idMem_writeDbgCtl (s : State) (d : Dom) (w : Word) : (s.writeDbgCtl d w).idMem = s.idMem := by
  unfold writeDbgCtl
  dsimp only
  split <;> simp

@[simp] theorem State.idMem_breakpoint (s : State) (d : Dom) (k : Nat) :
    (s.breakpoint d k).idMem = s.idMem := by simp [breakpoint]
@[simp] theorem Domain.idMem_watchpointHit (d : Domain) (w : Nat) (store : Bool) (addr : Word) :
    (d.watchpointHit w store addr).idMem = d.idMem := by simp [watchpointHit]

@[simp] theorem Channel.idMem_weirBreakpoint (c : Channel) : c.weirBreakpoint.dom.idMem = c.dom.idMem := by
  unfold weirBreakpoint
  split <;> simp

@[simp] theorem Channel.idMem_casBreakpoint (c : Channel) : c.casBreakpoint.dom.idMem = c.dom.idMem := by
  unfold casBreakpoint
  split <;> simp

@[simp] theorem State.idMem_dbgAuth (s : State) (d : Dom) (key : Word) :
    (s.dbgAuth d key).idMem = s.idMem := by simp [dbgAuth, Domain.authenticate]
@[simp] theorem Channel.idMem_setVec (c : Channel) (r : Nat) (f : Vec → Vec) :
    (c.setVec r f).dom.idMem = c.dom.idMem := by simp [setVec]
@[simp] theorem Channel.idMem_mapAcc (c : Channel) (a : Nat) (f : Vec → Vec) :
    (c.mapAcc a f).dom.idMem = c.dom.idMem := by simp [mapAcc]
@[simp] theorem Domain.idMem_respond (d : Domain) (code : BitVec 4) (data : Word) :
    (d.respond code data).idMem = d.idMem := by simp [respond]
@[simp] theorem Domain.idMem_refuse (d : Domain) (flt : Nat) : (d.refuse flt).idMem = d.idMem := by simp [refuse]

@[simp] theorem State.idMem_reply (s : State) (d : Dom) (f : Domain → Domain) (hf : ∀ x, (f x).idMem = x.idMem) :
    (s.reply d f).idMem = s.idMem := by
  simp [reply, hf]

@[simp] theorem Domain.idMem_dropHeld (d : Domain) : d.dropHeld.idMem = d.idMem := by simp [dropHeld]
@[simp] theorem Domain.idMem_heldDone (d : Domain) (h : HeldAccess) (r : Option Word) :
    (d.heldDone h r).idMem = d.idMem := by simp [heldDone]
@[simp] theorem State.idMem_portAbort (s : State) (d : Dom) : (s.portAbort d).idMem = s.idMem := by simp [portAbort]

@[simp] theorem State.idMem_withAuth (s : State) (d : Dom) (f : State → State) (hf : (f s).idMem = s.idMem) :
    (s.withAuth d f).idMem = s.idMem := by
  simp [withAuth, hf]

/-! ## What remains of the commands -/

@[simp] theorem State.idMem_when (s : State) (p : Bool) (f : State → State) :
    (s.when p f).idMem = if p then (f s).idMem else s.idMem := by cases p <;> rfl
@[simp] theorem Domain.idMem_when (d : Domain) (p : Bool) (f : Domain → Domain) :
    (d.when p f).idMem = if p then (f d).idMem else d.idMem := by cases p <;> rfl

@[simp] theorem State.idMem_fallBack (s : State) (d : Dom) : (s.fallBack d).idMem = s.idMem := by
  unfold fallBack
  split <;> simp [Channel.fallBack]

@[simp] theorem State.idMem_referenceLost (s : State) (d : Dom) :
    (s.referenceLost d).idMem = s.idMem := by simp [referenceLost, Domain.referenceLost]
@[simp] theorem Domain.idMem_round (d : Domain) (m : SlowRound) :
    (d.round m).idMem = d.idMem := by simp [round, bandChanged, plausible, reading, slowRound]

@[simp] theorem State.idMem_slowRound (s : State) (d : Dom) (m : SlowRound) : (s.slowRound d m).idMem = s.idMem := by
  unfold slowRound
  split <;> simp

@[simp] theorem State.idMem_planCommit (s : State) (k : At) (rd rs1 : GReg) (imm : BitVec 7) :
    (s.planCommit k rd rs1 imm).idMem = s.idMem := by
  unfold planCommit
  split <;> simp

@[simp] theorem State.idMem_countForHost (s : State) (d : Dom) (ev : BitVec 7) :
    (s.countForHost d ev).idMem = s.idMem := by simp [countForHost]

@[simp] theorem State.idMem_deliverEvent (s : State) (d : Dom) (ev : BitVec 7) : (s.deliverEvent d ev).idMem = s.idMem := by
  simp only [deliverEvent]
  repeat' split
  all_goals simp

@[simp] theorem Channel.idMem_encoderZ (c : Channel) : c.encoderZ.dom.idMem = c.dom.idMem := by
  unfold encoderZ
  split <;> simp

/-- A Cascade instruction with what it tells PERF and SPR keeps the number and the memory, or changes them as its operation
does. -/
theorem Channel.idMem_casStep_cases (c : Channel) (f : CasFetch) (reads : Bool) (cycles : Nat) (item : Option Nat)
    (op : Channel → Run → CasOut) :
    (c.casStep f reads cycles item op).dom.idMem = c.dom.idMem ∨
      ∃ x r, x.dom.idMem = c.dom.idMem ∧ (c.casStep f reads cycles item op).dom.idMem = ((op x r).left x).dom.idMem := by
  unfold casStep
  split
  · exact .inl rfl
  · dsimp only
    obtain h | ⟨x, r, hx, h⟩ := idMem_casInstr_cases _ f reads cycles op
    · exact .inl (h.trans (by cases f <;> cases item <;> simp))
    · exact .inr ⟨x, r, hx.trans (by cases f <;> cases item <;> simp), h⟩

@[simp] theorem Channel.idMem_casStep (c : Channel) (f : CasFetch) (reads : Bool) (cycles : Nat) (item : Option Nat)
    (op : Channel → Run → CasOut) (h : ∀ c r, ((op c r).left c).dom.idMem = c.dom.idMem) :
    (c.casStep f reads cycles item op).dom.idMem = c.dom.idMem := by
  obtain hk | ⟨x, r, hx, hop⟩ := c.idMem_casStep_cases f reads cycles item op
  · exact hk
  · exact (hop.trans (h x r)).trans hx

@[simp] theorem Channel.idMem_casEnded (c : Channel) (f : CasFetch) : (c.casEnded f).dom.idMem = c.dom.idMem := by
  unfold casEnded
  split <;> simp

@[simp] theorem Domain.idMem_codeCheck (d : Domain) (corrupt : Bool) :
    (d.codeCheck corrupt).idMem = d.idMem := by simp [codeCheck]
@[simp] theorem Domain.idMem_onMismatch (d : Domain) (g : Nat) : (d.onMismatch g).idMem = d.idMem := by simp [onMismatch]
@[simp] theorem Domain.idMem_restorationEnd (d : Domain) (ecc : Bool) :
    (d.restorationEnd ecc).idMem = d.idMem := by simp [restorationEnd]

end Sys2Proof.Machine
end

section
/-! PROOF. What a write of a memory keeps: the number of its domain and the canonical form of the memory (R21, R24, R34, R41). The
functions that write a memory, or put a domain in its reset state, one lemma each. -/

namespace Sys2Proof.Machine

/-! ## What stays of a domain whose memory is written -/

/-- A domain goes from the number and memory `a` to `b`: its number stays, and a canonical memory stays canonical. -/
def Keeps (a b : Nat × List Host.Cell) : Prop := b.1 = a.1 ∧ (Memory.wf a.2 = true → Memory.wf b.2 = true)

@[simp] theorem Keeps.refl (a : Nat × List Host.Cell) : Keeps a a := ⟨rfl, id⟩

theorem Keeps.trans {a b c : Nat × List Host.Cell} (h : Keeps a b) (g : Keeps b c) : Keeps a c :=
  ⟨g.1.trans h.1, g.2 ∘ h.2⟩

theorem Keeps.of_eq {a b : Nat × List Host.Cell} (h : b = a) : Keeps a b := h ▸ .refl a

/-- The same of every domain. -/
def KeepsAll (F G : Dom → Nat × List Host.Cell) : Prop := ∀ d, Keeps (F d) (G d)

@[simp] theorem KeepsAll.refl (F : Dom → Nat × List Host.Cell) : KeepsAll F F := fun d => .refl (F d)

theorem KeepsAll.trans {F G H : Dom → Nat × List Host.Cell} (h : KeepsAll F G) (g : KeepsAll G H) : KeepsAll F H :=
  fun d => (h d).trans (g d)

theorem KeepsAll.of_eq {F G : Dom → Nat × List Host.Cell} (h : G = F) : KeepsAll F G := h ▸ .refl F

theorem KeepsAll.update {F G : Dom → Nat × List Host.Cell} (h : KeepsAll F G) {d : Dom} {x : Nat × List Host.Cell}
    (hx : Keeps (F d) x) : KeepsAll F (Function.update G d x) := by
  intro e
  by_cases he : e = d
  · subst he
    rwa [Function.update_self]
  · rw [Function.update_of_ne he]
    exact h e

theorem KeepsAll.ite {F G H : Dom → Nat × List Host.Cell} {p : Prop} [Decidable p] (h : p → KeepsAll F G)
    (g : ¬p → KeepsAll F H) : KeepsAll F (if p then G else H) := by
  split
  · exact h ‹_›
  · exact g ‹_›

theorem Keeps.ite {a b c : Nat × List Host.Cell} {p : Prop} [Decidable p] (h : p → Keeps a b)
    (g : ¬p → Keeps a c) : Keeps a (if p then b else c) := by
  split
  · exact h ‹_›
  · exact g ‹_›

/-- A domain whose memory alone is another one. -/
theorem Domain.keeps_mem (d : Domain) {m : List Host.Cell} (h : Memory.wf d.mem = true → Memory.wf m = true) :
    Keeps d.idMem { d with mem := m }.idMem := ⟨rfl, h⟩

theorem Channel.keeps_foldl {α : Type} {f : Channel → α → Channel} (h : ∀ c x, Keeps c.dom.idMem (f c x).dom.idMem)
    (l : List α) (c : Channel) : Keeps c.dom.idMem (l.foldl f c).dom.idMem := by
  induction l generalizing c with
  | nil => exact .refl _
  | cons x l ih => exact (h c x).trans (ih _)

theorem HostDom.keeps_foldl {α : Type} {f : HostDom → α → HostDom} (h : ∀ c x, Keeps c.dom.idMem (f c x).dom.idMem)
    (l : List α) (c : HostDom) : Keeps c.dom.idMem (l.foldl f c).dom.idMem := by
  induction l generalizing c with
  | nil => exact .refl _
  | cons x l ih => exact (h c x).trans (ih _)

theorem State.keeps_foldl {α : Type} {f : State → α → State} (h : ∀ s x, KeepsAll s.idMem (f s x).idMem)
    (l : List α) (s : State) : KeepsAll s.idMem (l.foldl f s).idMem := by
  induction l generalizing s with
  | nil => exact .refl _
  | cons x l ih => exact (h s x).trans (ih _)

theorem State.keeps_setCh (s : State) (n : Chan) {c : Channel} (h : Keeps (s.idMem (.ch n)) c.dom.idMem) :
    KeepsAll s.idMem (s.setCh n c).idMem := by
  rw [idMem_setCh]
  exact (KeepsAll.refl _).update h

theorem State.keeps_setDom (s : State) (d : Dom) {x : Domain} (h : Keeps (s.idMem d) x.idMem) :
    KeepsAll s.idMem (s.setDom d x).idMem := by
  rw [idMem_setDom]
  exact (KeepsAll.refl _).update h

theorem State.keeps_mk (s : State) {h : HostDom} (v : Dev) (p : List Instr) (hk : Keeps s.host.dom.idMem h.dom.idMem) :
    KeepsAll s.idMem (State.mk s.c0 s.c1 s.c2 s.c3 h v p).idMem := by
  rw [idMem_mk s h v p]
  exact (KeepsAll.refl _).update (d := .host) hk

theorem State.keeps_mapHost (s : State) {f : Domain → Domain} (h : ∀ x, Keeps x.idMem (f x).idMem) :
    KeepsAll s.idMem (s.mapHost f).idMem := s.keeps_setDom .host (h _)

theorem State.keeps_onCh (s : State) (n : Chan) {f : Channel → Channel} (h : ∀ c, Keeps c.dom.idMem (f c).dom.idMem) :
    KeepsAll s.idMem (s.onCh n f).idMem := by
  rw [idMem_onCh]
  exact .ite (fun _ => .refl _) fun _ => (KeepsAll.refl _).update (h _)

theorem State.keeps_onHost (s : State) {f : HostDom → HostDom} (h : ∀ c, Keeps c.dom.idMem (f c).dom.idMem) :
    KeepsAll s.idMem (s.onHost f).idMem := by
  rw [idMem_onHost]
  exact .ite (fun _ => .refl _) fun _ => (KeepsAll.refl _).update (h _)

theorem State.keeps_onDom (s : State) (d : Dom) {f : Domain → Domain} (h : ∀ x, Keeps x.idMem (f x).idMem) :
    KeepsAll s.idMem (s.onDom d f).idMem := by
  rw [idMem_onDom]
  exact .ite (fun _ => .refl _) fun _ => (KeepsAll.refl _).update (h _)

theorem State.keeps_onCore (s : State) (d : Dom) {f : Domain → Domain} (h : ∀ x, Keeps x.idMem (f x).idMem) :
    KeepsAll s.idMem (s.onCore d f).idMem := by
  rw [idMem_onCore]
  exact .ite (fun _ => .refl _) fun _ => (KeepsAll.refl _).update (h _)

theorem State.keeps_when (s : State) (p : Bool) {f : State → State} (h : KeepsAll s.idMem (f s).idMem) :
    KeepsAll s.idMem (s.when p f).idMem := by
  rw [idMem_when]
  exact .ite (fun _ => h) fun _ => .refl _

/-! ## Words written -/

theorem Channel.keeps_putWord (c : Channel) (a : Nat) (w : Word) : Keeps c.dom.idMem (c.putWord a w).dom.idMem :=
  c.dom.keeps_mem fun h => wf_memPutWord h a w

theorem HostDom.keeps_putWord (h : HostDom) (a : Nat) (w : Word) : Keeps h.dom.idMem (h.putWord a w).dom.idMem :=
  h.dom.keeps_mem fun hm => wf_memPutWord hm a w

theorem Domain.keeps_writeMem (d : Domain) (e : Eng) (a n : Nat) (v : Word) : Keeps d.idMem (d.writeMem e a n v).idMem := by
  simp only [writeMem, idMem_dropRsv, idMem_logStore]
  exact d.keeps_mem fun h => wf_memWrite h _ _ _

theorem Domain.keeps_writeProgram (d : Domain) (a n : Nat) (w : Word) : Keeps d.idMem (d.writeProgram a n w).idMem :=
  d.keeps_mem fun h => wf_memWrite h _ _ _

theorem Domain.keeps_debugStore (d : Domain) (a : Nat) (w : Word) : Keeps d.idMem (d.debugStore a w).idMem := by
  rw [debugStore, idMem_dropRsv]
  exact d.keeps_mem fun h => wf_memPutWord h _ _

/-! ## Dziphor: atomics and restorations (R126, R127, R390, R391) -/

theorem Domain.keeps_insn (d : Domain) (e : Eng) (f : Fetch) (sys : Bool) (uses : List GReg) {body : Domain → Ins}
    (h : Keeps d.idMem ((body d).left d).idMem) : Keeps d.idMem (d.insn e f sys uses body).idMem := by
  cases d.idMem_insn_cases e f sys uses body with
  | inl hk => exact .of_eq hk
  | inr hb => rwa [hb]

theorem Domain.keeps_atomic (d : Domain) (e : Eng) (f : Fetch) (rd rs1 : GReg) (uses : List GReg) (ord : AtomOrder)
    (reads writes : Bool) (op : Core → Word → Option Word × Word) :
    Keeps d.idMem (d.atomic e f rd rs1 uses ord reads writes op).idMem := by
  refine d.keeps_insn _ _ _ _ ?_
  extract_lets x a attr d₁ old r d₂ d₃ d₄ d₅
  iterate 5
    rw [Ins.left_ite, idMem_ite]
    refine .ite (fun _ => by simp) fun _ => ?_
  rw [Ins.left_ite, idMem_ite]
  refine .ite (fun _ => by simp [d₁]) fun _ => ?_
  have h₂ : d₂.idMem = d.idMem := by simp [d₂, d₁]
  have h₃ : Keeps d₂.idMem d₃.idMem := by
    unfold d₃
    split
    · exact d₂.keeps_writeMem _ _ _ _
    · exact .refl _
  have h₅ : d₅.idMem = d₃.idMem := by simp [d₅, d₄]
  clear_value d₃ d₅
  simpa [h₅] using h₂ ▸ h₃

theorem Domain.keeps_ldRsv (d : Domain) (e : Eng) (f : Fetch) (rd rs1 : GReg) (ord : AtomOrder) :
    Keeps d.idMem (d.ldRsv e f rd rs1 ord).idMem := by
  simp only [ldRsv, idMem_ite, idMem_mapCore, ite_self]
  exact d.keeps_atomic _ _ _ _ _ _ _ _ _

theorem Domain.keeps_stRsv (d : Domain) (e : Eng) (f : Fetch) (rd rs1 rs2 : GReg) (ord : AtomOrder) :
    Keeps d.idMem (d.stRsv e f rd rs1 rs2 ord).idMem := by
  simp only [stRsv, idMem_ite, idMem_mapCore, idMem_logRec, ite_self]
  exact d.keeps_atomic _ _ _ _ _ _ _ _ _

theorem Domain.keeps_atm (d : Domain) (e : Eng) (f : Fetch) (rd rs1 rs2 : GReg) (ord : AtomOrder)
    (op : Word → Word → Word) : Keeps d.idMem (d.atm e f rd rs1 rs2 ord op).idMem := d.keeps_atomic _ _ _ _ _ _ _ _ _

theorem Domain.keeps_beginRestore (d : Domain) (outcome : Nat) : Keeps d.idMem (d.beginRestore outcome).idMem := by
  unfold beginRestore
  extract_lets d₁
  have h₁ : d₁.idMem = d.idMem := by simp [d₁]
  clear_value d₁
  split
  · rename_i k _ _
    extract_lets load d₂ d₃ d₄
    have hl (o : Option Eng) (x : Domain) : (load o x).idMem = x.idMem := by cases o <;> simp [load]
    have h₂ : d₂.idMem = d.idMem := (hl _ _).trans ((hl _ _).trans h₁)
    have h₃ : Keeps d.idMem d₃.idMem :=
      (Keeps.of_eq h₂).trans (d₂.keeps_mem fun h => wf_undoJournal h _)
    clear_value d₃
    simpa [d₄] using h₃
  · simp [h₁]

theorem Domain.keeps_bothFail (d : Domain) (m h : Eng) : Keeps d.idMem (d.bothFail m h).idMem := by
  unfold bothFail
  extract_lets d₁ _ _ d₂ d₃
  have h₃ : d₃.idMem = d.idMem := by simp [d₃, d₂, d₁]
  clear_value d₃
  split
  · exact (Keeps.of_eq (by simp [h₃])).trans (keeps_beginRestore _ 4)
  · rename_i d₄ _ _
    simp [d₄, h₃]

theorem Domain.keeps_selfTestDone (d : Domain) (m h : Bool) : Keeps d.idMem (d.selfTestDone m h).idMem := by
  unfold selfTestDone
  split
  · split
    · exact d.keeps_bothFail _ _
    all_goals simp
  · exact .refl _

theorem Domain.keeps_stateLoadDone (d : Domain) (equal : Bool) : Keeps d.idMem (d.stateLoadDone equal).idMem := by
  unfold stateLoadDone
  split
  · split
    · simp
    · split
      · simp
      · exact d.keeps_beginRestore 3
  · exact .refl _

theorem Domain.keeps_when (d : Domain) (p : Bool) {f : Domain → Domain} (h : ∀ x, Keeps x.idMem (f x).idMem) :
    Keeps d.idMem (d.when p f).idMem := by
  rw [idMem_when]
  exact .ite (fun _ => h d) fun _ => .refl _

theorem State.keeps_selfTestEnd (s : State) (d : Dom) (m h : Bool) : KeepsAll s.idMem (s.selfTestEnd d m h).idMem := by
  have ht := s.keeps_onDom d fun x => x.keeps_when (decide (x.phase = 1) && decide (x.lsc.m + 16002 ≤ x.time))
    fun x => x.keeps_selfTestDone m h
  unfold selfTestEnd
  extract_lets x t
  replace ht : KeepsAll s.idMem t.idMem := ht
  clear_value t
  split
  · split
    · exact ht
    · simpa using ht
  · exact ht

/-! ## Cascade and the safety log (R325, R330, R438) -/

theorem Channel.keeps_casStep (c : Channel) (f : CasFetch) (reads : Bool) (cycles : Nat) (item : Option Nat)
    {op : Channel → Run → CasOut} (h : ∀ c r, Keeps c.dom.idMem ((op c r).left c).dom.idMem) :
    Keeps c.dom.idMem (c.casStep f reads cycles item op).dom.idMem := by
  obtain hk | ⟨x, r, hx, hop⟩ := c.idMem_casStep_cases f reads cycles item op
  · exact .of_eq hk
  · rw [hop, ← hx]
    exact h x r

theorem Channel.keeps_putData (c : Channel) (r : Run) (x : Nat) (w : Word) : Keeps c.dom.idMem (c.putData r x w).dom.idMem :=
  c.keeps_putWord _ w

theorem Channel.keeps_opVst (a : VReg) (x : BitVec 14) (c : Channel) (r : Run) :
    Keeps c.dom.idMem ((opVst a x c r).left c).dom.idMem := by
  unfold opVst
  split
  · exact .refl _
  · exact keeps_foldl (fun c' _ => c'.keeps_putData _ _ _) _ c

theorem Channel.keeps_rcLearn (r : Run) (v : Vec) (b : Nat) (c : Channel) :
    Keeps c.dom.idMem (c.rcLearn r v b).dom.idMem :=
  keeps_foldl (fun c' _ => c'.keeps_putData _ _ _) _ c

theorem Channel.keeps_opRcl (d a : VReg) (c : Channel) (r : Run) : Keeps c.dom.idMem ((opRcl d a c r).left c).dom.idMem := by
  unfold opRcl
  split
  · simp
  · simp only [idMem_deliver]
    exact keeps_foldl (fun c' j => c'.keeps_rcLearn _ _ _) _ c

theorem Channel.keeps_logWrite (c : Channel) : Keeps c.dom.idMem c.logWrite.dom.idMem := by
  unfold logWrite
  split
  · simp only [idMem_evDiag, idMem_setN, idMem_count]
    exact keeps_foldl (fun c' j => c'.keeps_putWord _ _) _ _
  · exact .refl _

/-! ## Resets and boot (R86 to R92, R108) -/

theorem Domain.keeps_enterReset (d : Domain) : Keeps d.idMem d.enterReset.idMem := ⟨rfl, wf_nvmOnly⟩

theorem Channel.keeps_enterReset (c : Channel) : Keeps c.dom.idMem c.enterReset.dom.idMem := by
  unfold enterReset
  extract_lets _ _ _ x y
  have hy : y.dom.idMem = c.dom.enterReset.idMem := by
    unfold y
    split
    · exact x.idMem_evDiag 8
    · rfl
  clear_value y
  simpa [hy] using c.dom.keeps_enterReset

theorem State.keeps_resetChan (s : State) (n : Chan) (bit : Fld) (src : ResetSrc → ResetSrc) :
    KeepsAll s.idMem (s.resetChan n bit src).idMem := by
  unfold resetChan
  extract_lets c was c₁ c₂ t
  have h₂ : c₂.dom.idMem = s.idMem (.ch n) := (c.idMem_setB bit true)
  clear_value c₂
  split
  · exact s.keeps_setCh n (.of_eq h₂)
  · simp only [idMem_hostEvent, idMem_bumpEpoch, t, idMem_settleChan]
    exact s.keeps_setCh n (h₂ ▸ c₂.keeps_enterReset)

theorem State.keeps_resetHost (s : State) (src : ResetSrc → ResetSrc) : KeepsAll s.idMem (s.resetHost src).idMem := by
  unfold resetHost
  extract_lets h was d h₁ t
  have ht : t.idMem = s.idMem := State.idMem_foldl _ _ _ fun s n => by simp
  clear_value t
  split
  · exact s.keeps_mk _ _ (.refl _)
  · rw [idMem_settleHost, ← ht]
    refine t.keeps_mk _ _ ?_
    have hh : t.host.dom.idMem = h.dom.idMem := congrFun ht .host
    rw [hh]
    exact h₁.dom.keeps_enterReset

theorem State.keeps_supplyChan (rail : Rail) (isOver : Bool) (s : State) (n : Chan) :
    KeepsAll s.idMem (s.supplyChan rail isOver n).idMem := by
  unfold supplyChan
  split
  · exact .trans (.of_eq (by simp)) (keeps_resetChan _ n _ _)
  · exact .refl _

theorem State.keeps_powerOn (s : State) : KeepsAll s.idMem s.powerOn.idMem := by
  unfold powerOn
  extract_lets s₁ s₂ wipe s₃ s₄
  have h₁ : KeepsAll s.idMem s₁.idMem := keeps_foldl (fun s n => s.keeps_resetChan n _ _) _ s
  have h₂ : KeepsAll s₁.idMem s₂.idMem := s₁.keeps_resetHost _
  have h₃ : s₃.idMem = s₂.idMem := State.idMem_foldl _ _ _ fun s n => by simp [wipe]
  have h₄ : s₄.idMem = s₃.idMem := by simp [s₄, wipe]
  clear_value s₂ s₄
  exact (h₁.trans h₂).trans (.of_eq (h₄.trans h₃))

theorem State.keeps_supplyAssert (s : State) (rail : Rail) (isOver : Bool) :
    KeepsAll s.idMem (s.supplyAssert rail isOver).idMem := by
  unfold supplyAssert
  split
  · split
    · exact .refl _
    · exact s.keeps_powerOn
  · extract_lets v s₁ s₂
    have h₂ : KeepsAll s.idMem s₂.idMem := keeps_foldl (keeps_supplyChan rail isOver) _ s₁
    split
    · exact h₂.trans (s₂.keeps_resetHost _)
    · exact h₂

theorem State.keeps_pinAssert (s : State) (n : Chan) : KeepsAll s.idMem (s.pinAssert n).idMem := by
  unfold pinAssert
  extract_lets s₁
  have h₁ : s₁.idMem = s.idMem := by simp [s₁]
  rw [← h₁]
  exact s₁.keeps_resetChan n _ _

theorem State.keeps_hostPinAssert (s : State) : KeepsAll s.idMem s.hostPinAssert.idMem := by
  have h₁ : (s.setDom .host s.host.dom.pinClears).idMem = s.idMem := by simp
  rw [← h₁]
  exact keeps_resetHost _ _

theorem State.keeps_writeRstctl (s : State) (n : Chan) (w : Word) : KeepsAll s.idMem (s.writeRstctl n w).idMem := by
  unfold writeRstctl
  split
  · extract_lets s₁
    have h₁ : s₁.idMem = s.idMem := by simp [s₁]
    rw [← h₁]
    split
    · exact s₁.keeps_resetChan n _ _
    · exact .refl _
  · exact .refl _

theorem State.keeps_hostRequest (s : State) (w : Word) : KeepsAll s.idMem (s.hostRequest w).idMem := by
  refine keeps_foldl (fun s n => ?_) _ s
  split
  · exact s.keeps_resetChan n _ _
  · exact .refl _

theorem State.keeps_thermalShutdown (s : State) (d : Dom) (sensor : Nat) :
    KeepsAll s.idMem (s.thermalShutdown d sensor).idMem := by
  unfold thermalShutdown
  split
  · exact .refl _
  · extract_lets d₁ s₁
    have h₁ : s₁.idMem = s.idMem := by simp [s₁, d₁]
    rw [← h₁]
    split
    · exact s₁.keeps_resetChan _ _ _
    · exact s₁.keeps_resetHost _

theorem Domain.keeps_b5 (d : Domain) (fails : Bool) : Keeps d.idMem (d.b5 fails).idMem := by
  unfold b5
  extract_lets m d₁
  have h₁ : Keeps d.idMem d₁.idMem := d.keeps_mem fun h => wf_sclear (wf_sclear h _ _) _ _
  clear_value d₁
  split <;> simpa using h₁

theorem Channel.keeps_b2 (c : Channel) (ecc : Bool) : Keeps c.dom.idMem (c.b2 ecc).dom.idMem := by
  unfold b2
  extract_lets sel a m cfg0 bad c₁ c₂ c₃ c₄ c₅
  split
  · simp
  · have h₁ : c₁.dom.idMem = c.dom.idMem := c.idMem_loadConfig a
    have h₂ : c₂.dom.idMem = c₁.dom.idMem := Channel.idMem_foldl _ _ _ fun c i => by simp
    have h₃ : Keeps c₂.dom.idMem c₃.dom.idMem := c₂.keeps_putWord _ _
    have h₄ : c₄.dom.idMem = c₃.dom.idMem := by simp [c₄]
    have h₅ : c₅.dom.idMem = c₄.dom.idMem := by simp [c₅]
    clear_value c₃ c₄ c₅
    simpa [h₅, h₄] using (Keeps.of_eq (h₂.trans h₁)).trans h₃

theorem Domain.keeps_b7 (d : Domain) (fails : Bool) : Keeps d.idMem (d.b7 fails).idMem := by
  unfold b7
  split
  · simp
  · rw [idMem_toPhase]
    exact d.keeps_mem fun h => wf_placePrograms h _

theorem Channel.keeps_phaseDone (c : Channel) (r : BootReport) : Keeps c.dom.idMem (c.phaseDone r).dom.idMem := by
  unfold phaseDone
  rw [idMem_when]
  refine .ite (fun _ => ?_) fun _ => .refl _
  split
  case h_2 => exact c.keeps_b2 _
  case h_5 => exact c.dom.keeps_b5 _
  case h_7 => exact c.dom.keeps_b7 _
  all_goals simp

theorem Domain.keeps_hostPhaseDone (d : Domain) (r : BootReport) : Keeps d.idMem (d.hostPhaseDone r).idMem := by
  unfold hostPhaseDone
  extract_lets p
  clear_value p
  split
  · split
    case h_5 => simpa using d.keeps_b5 r.fails
    all_goals simp
  · exact .refl _

theorem State.keeps_bootPhase (s : State) (d : Dom) (r : BootReport) : KeepsAll s.idMem (s.bootPhase d r).idMem := by
  unfold bootPhase
  extract_lets t
  have ht : KeepsAll s.idMem t.idMem := by
    unfold t
    split
    · exact s.keeps_onCh _ fun c => c.keeps_phaseDone r
    · exact s.keeps_onHost fun h => h.dom.keeps_hostPhaseDone r
  clear_value t
  rw [idMem_ite]
  exact .ite (fun _ => .refl _) fun _ => ht

/-! ## The ring's mailboxes (R478, R481 to R484) -/

theorem State.keeps_mailboxWrite (s : State) (n : Chan) (i : Nat) (ws : List Word) (source : Nat) :
    KeepsAll s.idMem (s.mailboxWrite n i ws source).idMem := by
  simp only [mailboxWrite, idMem_hostEvent]
  refine s.keeps_setCh n ((Keeps.trans ?_ (.of_eq (Channel.idMem_raise _ _ _))))
  exact Channel.keeps_foldl (fun c x => c.keeps_putWord _ _) _ (s.ch n)

theorem State.keeps_serve (s : State) (src off n : Nat) (write : Bool) (data : List Word) :
    KeepsAll s.idMem (s.serve src off n write data).2.2.idMem := by
  unfold serve
  extract_lets st
  split
  · exact .refl _
  · split
    · split
      · exact s.keeps_mailboxWrite _ _ _ _
      all_goals exact .refl _
    · exact .refl _

theorem State.keeps_answer (s : State) (p : Port) (src tag off n : Nat) (write : Bool) (data : List Word) :
    KeepsAll s.idMem (s.answer p src tag off n write data).idMem := by
  unfold answer
  extract_lets h reply r t
  have hr (x : HostDom) (st : Nat) (ws : List Word) : (reply x st ws).dom.idMem = x.dom.idMem := by simp [reply]
  have ht : KeepsAll s.idMem t.idMem := s.keeps_serve src off n write data
  clear_value reply t
  split
  · exact .refl _
  · split
    · exact s.keeps_mk _ _ (.of_eq (hr _ _ _))
    · split
      · exact ht.trans (t.keeps_mk _ _ (.of_eq (by simp [hr])))
      · exact ht.trans (t.keeps_mk _ _ (.of_eq (by simp [hr])))

theorem State.keeps_rxCopy (s : State) (k : Nat) : KeepsAll s.idMem (s.rxCopy k).idMem := by
  unfold rxCopy
  extract_lets h ws s₁
  have h₁ : s₁.idMem = s.idMem := by simp [s₁, h]
  clear_value s₁
  rw [← h₁]
  split
  · split
    · exact .of_eq h₁.symm
    · split
      · exact .of_eq (by simp)
      · split
        · exact .refl _
        · exact s₁.keeps_mailboxWrite _ _ _ _
  · exact .of_eq h₁.symm

/-! ## Update and activation (R498 to R518) -/

theorem HostDom.keeps_setAct (h : HostDom) (w : Word) : Keeps h.dom.idMem (h.setAct w).dom.idMem := by
  simp only [setAct, idMem_setN, idMem_set]
  exact (h.keeps_putWord _ _).trans (keeps_putWord _ _ _)

theorem HostDom.keeps_setPstate (h : HostDom) (p q r : Bool) : Keeps h.dom.idMem (h.setPstate p q r).dom.idMem := by
  simp only [setPstate, idMem_setB]
  exact h.keeps_putWord _ _

theorem State.keeps_raiseFloor (s : State) (svn : Nat) (burn revoke : Bool) :
    KeepsAll s.idMem (s.raiseFloor svn burn revoke).idMem := by
  refine s.keeps_mk _ _ ?_
  rw [HostDom.idMem_setN]
  exact (s.host.keeps_putWord _ _).trans (HostDom.keeps_putWord _ _ _)

theorem HostDom.keeps_stagingOpen (h : HostDom) : Keeps h.dom.idMem h.stagingOpen.dom.idMem := by
  unfold stagingOpen
  split
  · exact .refl _
  · exact ((h.keeps_setPstate _ _ _).trans (keeps_putWord _ _ _)).trans (.of_eq (idMem_setStg _ _))

theorem HostDom.keeps_stagingClose (h : HostDom) : Keeps h.dom.idMem h.stagingClose.dom.idMem :=
  (h.keeps_setPstate _ _ _).trans (.of_eq (idMem_setStg _ _))

theorem HostDom.keeps_stagingSealed (h : HostDom) : Keeps h.dom.idMem h.stagingSealed.dom.idMem := by
  unfold stagingSealed
  split
  · exact (h.keeps_setPstate _ _ _).trans (.of_eq (idMem_setStg _ _))
  · exact .refl _

theorem HostDom.keeps_stgctl (h : HostDom) (w : Word) : Keeps h.dom.idMem (h.stgctl w).dom.idMem := by
  unfold stgctl
  extract_lets h₁ h₂
  have k₁ : Keeps h.dom.idMem h₁.dom.idMem := by
    unfold h₁
    split
    · exact h.keeps_stagingClose
    · exact .refl _
  have k₂ : Keeps h₁.dom.idMem h₂.dom.idMem := by
    unfold h₂
    split
    · exact h₁.keeps_stagingOpen
    · exact .refl _
  clear_value h₁ h₂
  simpa using k₁.trans k₂

theorem HostDom.keeps_updCmd (h : HostDom) (w : Word) : Keeps h.dom.idMem (h.updCmd w).dom.idMem := by
  unfold updCmd
  extract_lets h₁
  have k₁ : Keeps h.dom.idMem h₁.dom.idMem := by
    unfold h₁
    split
    · exact h.keeps_setPstate _ _ _
    · exact .refl _
  clear_value h₁
  split
  · exact k₁.trans (h₁.keeps_setPstate _ _ _)
  · exact k₁

theorem HostDom.keeps_updWrite (h : HostDom) (x : Bool × Word) : Keeps h.dom.idMem (h.updWrite x).dom.idMem := by
  unfold updWrite
  split
  · exact h.keeps_updCmd _
  · exact h.keeps_stgctl _

theorem State.keeps_updControl (s : State) (cmd : Bool) (w : Word) : KeepsAll s.idMem (s.updControl cmd w).idMem := by
  unfold updControl
  split
  · refine s.keeps_onHost fun h => ?_
    split
    · exact .refl _
    · exact h.keeps_updWrite _
  · exact .refl _

theorem State.keeps_inhibitChange (s : State) (on : Bool) : KeepsAll s.idMem (s.inhibitChange on).idMem := by
  unfold inhibitChange
  extract_lets s₁
  have h₁ : s₁.idMem = s.idMem := s.idMem_writeInhibit on
  clear_value s₁
  rw [← h₁]
  split
  · exact .refl _
  · exact s₁.keeps_onHost fun h => HostDom.keeps_foldl HostDom.keeps_updWrite _ { h with upd := _ }

theorem State.keeps_sealDone (s : State) : KeepsAll s.idMem s.sealDone.idMem := by
  unfold sealDone
  split
  · exact .refl _
  · exact s.keeps_onHost HostDom.keeps_stagingSealed

theorem Domain.keeps_putWords (d : Domain) (a : Nat) (ws : List Word) :
    Keeps d.idMem { d with mem := putWords d.mem a ws }.idMem := d.keeps_mem fun h => wf_putWords h a ws

theorem State.keeps_chunkWritten (s : State) : KeepsAll s.idMem s.chunkWritten.idMem := by
  unfold chunkWritten
  split
  · exact .refl _
  · extract_lets free a h u h₀ h₁ s₁
    have k₁ : s₁.idMem = s.idMem := by simp [s₁, h₁, h₀, h]
    clear_value s₁
    split
    · exact .refl _
    · rw [← k₁]
      split
      · exact s₁.keeps_setCh _ ((s₁.ch _).dom.keeps_putWords _ _)
      · exact s₁.keeps_mapHost fun d => d.keeps_putWords _ _

theorem HostDom.keeps_refuse (h : HostDom) (result part : Nat) : Keeps h.dom.idMem (h.refuse result part).dom.idMem :=
  (h.keeps_setPstate _ _ _).trans (.of_eq (idMem_decide _ _ _))

theorem State.keeps_propagate (s : State) (n : Chan) : KeepsAll s.idMem (s.propagate n).idMem := by
  unfold propagate
  extract_lets a w c
  split
  · exact .refl _
  · rw [idMem_settleChan]
    exact s.keeps_setCh n (c.keeps_putWord _ _)

theorem State.keeps_updateLog (s : State) (new old : Word) : KeepsAll s.idMem (s.updateLog new old).idMem :=
  s.keeps_mk _ _ (s.host.dom.keeps_putWords _ _)

theorem State.keeps_completeActivation (s : State) (old : Word) : KeepsAll s.idMem (s.completeActivation old).idMem := by
  unfold completeActivation
  extract_lets s₁ a upd s₂ h new
  have k₁ : KeepsAll s.idMem s₁.idMem := keeps_foldl keeps_propagate _ s
  have k₂ : KeepsAll s₁.idMem s₂.idMem := s₁.keeps_raiseFloor _ _ _
  have k₃ : Keeps s₂.host.dom.idMem (h.setAct new).dom.idMem := (s₂.host.keeps_setPstate _ _ _).trans (h.keeps_setAct _)
  exact ((k₁.trans k₂).trans (s₂.keeps_mk _ _ k₃)).trans (keeps_updateLog _ _ _)

theorem State.keeps_placePart (s : State) (k : Nat) : KeepsAll s.idMem (s.placePart k).idMem := by
  unfold placePart
  extract_lets h kind t n a ws a' ws'
  split
  · exact .refl _
  · split
    · refine s.keeps_setCh n ?_
      exact (s.ch n).dom.keeps_mem fun hm => wf_putWords (wf_putWords hm _ _) _ _
    · split
      · exact s.keeps_mapHost fun d => d.keeps_putWords _ _
      · exact s.keeps_setCh _ ((s.ch _).dom.keeps_putWords _ _)

theorem State.keeps_activate (s : State) : KeepsAll s.idMem s.activate.idMem := by
  unfold activate
  extract_lets flips s₁ h a h₁ bits new
  have k₁ : KeepsAll s.idMem s₁.idMem := keeps_foldl keeps_placePart _ s
  have k₂ : Keeps s₁.host.dom.idMem h₁.dom.idMem := by
    refine Keeps.trans ?_ (HostDom.keeps_setPstate _ _ _ _)
    rw [HostDom.idMem_set]
    exact s₁.host.keeps_putWord _ _
  have k₃ : Keeps h₁.dom.idMem ((h₁.setAct new).decide 1 15).dom.idMem :=
    (h₁.keeps_setAct _).trans (.of_eq (HostDom.idMem_decide _ _ _))
  exact (k₁.trans (s₁.keeps_mk _ _ (k₂.trans k₃))).trans (keeps_completeActivation _ _)

theorem State.keeps_revertTo (s : State) (result : Nat) : KeepsAll s.idMem (s.revertTo result).idMem := by
  unfold revertTo
  extract_lets h new
  have k : Keeps h.dom.idMem (((h.setAct new).setPstate h.pendingBit false false).decide result 15).dom.idMem := by
    rw [HostDom.idMem_decide]
    exact (h.keeps_setAct _).trans (HostDom.keeps_setPstate _ _ _ _)
  exact (s.keeps_mk _ _ k).trans (keeps_completeActivation _ _)

theorem HostDom.keeps_revertFails (h : HostDom) : Keeps h.dom.idMem h.revertFails.dom.idMem :=
  (h.keeps_setPstate _ _ _).trans (.of_eq (idMem_decide _ _ _))

theorem State.keeps_h6 (s : State) (r : RomReport) : KeepsAll s.idMem (s.h6 r).idMem := by
  unfold h6
  extract_lets q n h₀ h h₁ h₂ u h₃ s₁
  have k₀ : h.dom.idMem = s.host.dom.idMem := by
    unfold h
    split
    · rfl
    · exact s.host.dom.idMem_free 28
  have k₁ : Keeps h.dom.idMem h₁.dom.idMem := by
    rw [HostDom.idMem_set]
    exact h.keeps_setAct _
  have k₂ : Keeps h₁.dom.idMem h₂.dom.idMem := by
    simp only [h₂, HostDom.idMem_setN]
    exact h₁.keeps_setPstate _ _ _
  have k₃ : Keeps s.host.dom.idMem h₃.dom.idMem := ((Keeps.of_eq k₀).trans k₁).trans k₂
  clear_value h₃
  have k₄ : KeepsAll s.idMem s₁.idMem := by
    unfold s₁
    split
    · exact (s.keeps_mk s.dev s.pending (k₃.trans (.of_eq (HostDom.idMem_decide _ _ _)))).trans (keeps_completeActivation _ _)
    · exact s.keeps_mk _ _ k₃
  clear_value s₁
  simpa using k₄

theorem State.keeps_h7 (s : State) (r : RomReport) : KeepsAll s.idMem (s.h7 r).idMem := by
  unfold h7
  extract_lets h code
  split
  · simp
  · exact (s.keeps_mk s.dev s.pending (h.keeps_refuse code 15)).trans (.of_eq (by simp))

theorem State.keeps_h8 (s : State) (r : RomReport) : KeepsAll s.idMem (s.h8 r).idMem := by
  unfold h8
  extract_lets h
  have k : Keeps s.host.dom.idMem h.dom.idMem := by
    unfold h
    split
    · exact s.host.keeps_refuse _ _
    · exact .refl _
  clear_value h
  exact (s.keeps_mk s.dev s.pending k).trans (.of_eq (by simp))

theorem State.keeps_h9 (s : State) (r : RomReport) : KeepsAll s.idMem (s.h9 r).idMem := by
  unfold h9
  extract_lets s₁
  have k : KeepsAll s.idMem s₁.idMem := by
    unfold s₁
    split
    · split
      · exact s.keeps_revertTo 2
      · exact s.keeps_mk _ _ s.host.keeps_revertFails
    · split
      · exact s.keeps_activate
      · exact .refl _
  clear_value s₁
  simpa using k

theorem State.keeps_h10 (s : State) (r : RomReport) : KeepsAll s.idMem (s.h10 r).idMem := by
  unfold h10
  extract_lets h bank code
  split
  · simp
  · split
    · split
      · exact s.keeps_revertTo 12
      · exact (s.keeps_mk s.dev s.pending h.keeps_revertFails).trans (.of_eq (by simp))
    · simp

theorem State.keeps_romPhase (s : State) (r : RomReport) : KeepsAll s.idMem (s.romPhase r).idMem := by
  unfold romPhase
  split
  · exact s.keeps_h6 r
  · exact s.keeps_h7 r
  · exact s.keeps_h8 r
  · exact s.keeps_h9 r
  · exact s.keeps_h10 r
  · simp
  · exact .refl _

theorem State.keeps_romPhaseDone (s : State) (r : RomReport) : KeepsAll s.idMem (s.romPhaseDone r).idMem := by
  unfold romPhaseDone
  extract_lets t
  have k : KeepsAll s.idMem t.idMem := s.keeps_romPhase r
  clear_value t
  split
  · simpa using k
  · exact .refl _

/-! ## Accesses of the cores and of the debug port (R125, R481, R526) -/

theorem State.keeps_writeBlock {s t : State} {d : Dom} {k : Nat} {w : Word} (h : s.writeBlock d k w = some t) :
    KeepsAll s.idMem t.idMem := by
  unfold writeBlock at h
  split at h
  · cases h
  · split at h
    · cases h
    · split at h
      · split at h
        · cases h
          exact s.keeps_writeRstctl _ _
        · split at h
          all_goals
            cases h
            simp
      · split at h
        · cases h
          exact s.keeps_hostRequest _
        · split at h
          · cases h
            exact s.keeps_updControl _ _
          · split at h
            · cases h
              exact s.keeps_updControl _ _
            · cases h
              simp

theorem State.keeps_writeWindow {s t : State} {a : Nat} {w : Word} (h : s.writeWindow a w = some t) :
    KeepsAll s.idMem t.idMem := by
  unfold writeWindow at h
  extract_lets n o at h
  split at h
  · cases h
  · cases h
    exact s.keeps_mailboxWrite _ _ _ _

theorem State.keeps_ringOutcome {s t : State} {d : Dom} {e : Eng} {seq a st : Nat} {write : Bool} {data v : Word}
    (h : s.ringOutcome d e seq a write data = some (st, v, t)) : KeepsAll s.idMem t.idMem := by
  unfold ringOutcome at h
  extract_lets x node r at h
  split at h
  · cases h
    exact .refl _
  · split at h
    · cases h
      exact s.keeps_serve _ _ _ _ _
    · split at h
      · cases h
        exact .refl _
      · split at h
        · split at h
          · cases h
            exact .of_eq (by simp [x])
          · cases h
        · cases h

theorem State.keeps_performStore {s t : State} {d : Dom} {e : Eng} {q : StoreReq} (h : s.performStore d e q = some t) :
    KeepsAll s.idMem t.idMem := by
  unfold performStore at h
  extract_lets x a k at h
  split at h
  case h_1 | h_2 =>
    split at h
    · cases h
    · cases h
      exact s.keeps_setDom d (x.keeps_writeMem _ _ _ _)
  case h_3 =>
    cases h
    exact s.keeps_setDom d (x.keeps_writeProgram _ _ _)
  case h_4 =>
    split at h
    · cases h
    · exact keeps_writeBlock h
  case h_5 =>
    split at h
    · cases h
    · exact keeps_writeWindow h
  all_goals cases h

theorem State.idMem_performLoad {s t : State} {d : Dom} {e : Eng} {l : LoadReq} {v : Nat}
    (h : s.performLoad d e l = some (v, t)) : t.idMem = s.idMem := by
  unfold performLoad at h
  extract_lets x a q byte n k at h
  split at h
  case h_1 | h_2 | h_3 | h_4 =>
    obtain ⟨-, rfl⟩ := Prod.mk.inj (Option.some.inj h)
    simp [q, x]
  case h_5 =>
    cases h
    rfl
  case h_6 =>
    split at h
    · cases h
    · obtain ⟨r, hr, hv⟩ := Option.map_eq_some_iff.mp h
      cases hv
      exact idMem_readBlock hr
  case h_7 =>
    obtain ⟨r, hr, hv⟩ := Option.map_eq_some_iff.mp h
    cases hv
    rfl
  all_goals cases h

theorem State.keeps_loadResult (s : State) (d : Dom) (e : Eng) (l : LoadReq) (ecc : Ecc) :
    KeepsAll s.idMem (s.loadResult d e l ecc).idMem := by
  unfold loadResult
  extract_lets x upd ecc' s₁
  have hu (s : State) (f : Domain → Domain) (h : ∀ x, (f x).idMem = x.idMem) : (upd s f).idMem = s.idMem := by
    simp [upd, h]
  have h₁ : s₁.idMem = s.idMem := hu s (·.noteEcc ecc' _) fun x => by simp
  clear_value upd s₁
  split
  · exact .refl _
  · split
    · split
      · simp
      · split
        · exact .refl _
        · rename_i st v t ht
          refine (keeps_ringOutcome ht).trans ?_
          split
          · exact .of_eq (hu _ _ fun x => by simp)
          · simp
    · rw [← h₁]
      split
      · simp
      · split
        · simp
        · rename_i v t ht
          rw [← idMem_performLoad ht]
          exact .of_eq (hu _ _ fun x => by simp)

theorem State.keeps_storePerformed (s : State) (d : Dom) (e : Eng) (posted : Bool) (q : StoreReq) (ecc : Ecc) :
    KeepsAll s.idMem (s.storePerformed d e posted q ecc).idMem := by
  unfold storePerformed
  extract_lets x upd ecc' s₁
  have hu (s : State) (f : Domain → Domain) (h : ∀ x, (f x).idMem = x.idMem) : (upd s f).idMem = s.idMem := by
    simp [upd, h]
  have h₁ : s₁.idMem = s.idMem := hu s (·.noteEcc ecc' _) fun x => by simp
  clear_value upd s₁
  have done (t : State) : (upd t (·.storeDone e posted q)).idMem = t.idMem := hu _ _ fun x => by simp
  have error (t : State) : (upd t (·.storeError e posted q)).idMem = t.idMem := hu _ _ fun x => by simp
  split
  · exact .refl _
  · split
    · split
      · exact .of_eq (error s)
      · split
        · exact .refl _
        · rename_i st v t ht
          refine (keeps_ringOutcome ht).trans ?_
          split
          · exact .of_eq (done t)
          · exact .of_eq (by simp [error])
    · rw [← h₁]
      split
      · exact .of_eq (error s₁)
      · split
        · exact .of_eq (error s₁)
        · rename_i t ht
          exact (keeps_performStore ht).trans (.of_eq (done t))

theorem State.keeps_loadResultAt (s : State) (d : Dom) (e : Eng) (i : Nat) (ecc : Ecc) :
    KeepsAll s.idMem (s.loadResultAt d e i ecc).idMem := by
  unfold loadResultAt
  extract_lets x
  split
  · exact .refl _
  · split
    · exact s.keeps_loadResult d e _ ecc
    · exact .refl _

theorem State.keeps_storePerformedAt (s : State) (d : Dom) (e : Eng) (posted : Bool) (i : Nat) (ecc : Ecc) :
    KeepsAll s.idMem (s.storePerformedAt d e posted i ecc).idMem := by
  unfold storePerformedAt
  extract_lets x
  split
  · exact .refl _
  · split
    · exact s.keeps_storePerformed d e posted _ ecc
    · exact .refl _

theorem State.keeps_registerWrite (s : State) (d : Dom) (a : Nat) (w : Word) :
    KeepsAll s.idMem (s.registerWrite d a w).idMem := by
  unfold registerWrite
  extract_lets x
  split
  · exact .refl _
  · cases h : s.writeBlock d (x.regKey a) w with
    | none => exact .refl _
    | some t => exact keeps_writeBlock h

theorem State.keeps_mapWrite {s t : State} {d : Dom} {a w : Word} (h : s.mapWrite d a w = some t) :
    KeepsAll s.idMem t.idMem := by
  unfold mapWrite at h
  extract_lets x at h
  split at h
  case h_1 | h_2 =>
    split at h
    · cases h
    · cases h
      exact s.keeps_setDom d (x.keeps_debugStore _ _)
  case h_3 =>
    cases h
    exact s.keeps_setDom d (x.keeps_writeProgram _ _ _)
  case h_4 => exact keeps_writeBlock h
  case h_5 => exact keeps_writeWindow h
  all_goals cases h

theorem State.idMem_mapRead {s t : State} {d : Dom} {a v : Word} (h : s.mapRead d a = some (v, t)) :
    t.idMem = s.idMem := by
  unfold mapRead at h
  extract_lets x at h
  split at h
  case h_1 | h_2 | h_3 | h_4 =>
    cases h
    simp [x]
  case h_5 =>
    cases h
    rfl
  case h_6 => exact idMem_readBlock h
  case h_7 =>
    obtain ⟨r, hr, hv⟩ := Option.map_eq_some_iff.mp h
    cases hv
    rfl
  all_goals cases h

/-- What a debug access leaves of every domain. -/
def Answer.Keeps (s : State) : Answer → Prop
  | .refused _ => True
  | .done _ t => KeepsAll s.idMem t.idMem

theorem Domain.idMem_coreWrite {d x : Domain} {e : Eng} {i : Nat} {w : Word} (h : d.coreWrite e i w = some x) :
    x.idMem = d.idMem := by
  unfold coreWrite at h
  extract_lets c at h
  repeat' split at h
  · cases h
    simp
  · cases h
    simp
  · obtain ⟨_, _, hv⟩ := Option.map_eq_some_iff.mp h
    cases hv
    simp
  · cases h

theorem Channel.idMem_casWrite {c x : Channel} {i : Nat} {w : Word} (h : c.casWrite i w = some x) :
    x.dom.idMem = c.dom.idMem := by
  unfold casWrite at h
  repeat' split at h
  all_goals cases h
  all_goals simp

theorem Channel.idMem_weirWrite {c x : Channel} {i : Nat} {w : Word} (h : c.weirWrite i w = some x) :
    x.dom.idMem = c.dom.idMem := by
  unfold weirWrite at h
  repeat' split at h
  all_goals cases h
  all_goals simp

theorem State.keeps_space0 (s : State) (d : Dom) (write : Bool) (a : Nat) (data : Word) :
    (s.space0 d write a data).Keeps s := by
  unfold space0
  split
  · trivial
  · split
    · refine .of_eq ?_
      split
      · simp
      · split
        · simp
        · split
          · simp
          · rfl
    · split
      · exact .refl _
      · split
        all_goals exact .refl _

theorem State.keeps_space1 (s : State) (d : Dom) (write : Bool) (a data : Word) : (s.space1 d write a data).Keeps s := by
  unfold space1
  split
  · trivial
  · split
    · split
      · exact keeps_mapWrite ‹_›
      · trivial
    · split
      · exact .of_eq (idMem_mapRead ‹_›)
      · trivial

theorem State.keeps_coreItem (s : State) (d : Dom) (e : Eng) (write : Bool) (i : Nat) (data : Word) :
    (s.coreItem d e write i data).Keeps s := by
  unfold coreItem
  extract_lets x
  split
  · trivial
  · split
    · split
      · exact s.keeps_setDom d (.of_eq (Domain.idMem_coreWrite ‹_›))
      · trivial
    · split
      · exact .refl _
      · trivial

theorem State.keeps_engineItem (s : State) (n : Chan) (cas write : Bool) (i : Nat) (data : Word) :
    (s.engineItem n cas write i data).Keeps s := by
  unfold engineItem
  extract_lets c
  have hw {x : Channel} (h : (if cas then c.casWrite i data else c.weirWrite i data) = some x) :
      x.dom.idMem = c.dom.idMem := by
    split at h
    · exact Channel.idMem_casWrite h
    · exact Channel.idMem_weirWrite h
  generalize (if cas then c.cas.halted else c.weir.halted) = halted
  generalize (if cas then c.casWrite i data else c.weirWrite i data) = written at hw
  generalize (if cas then c.casRead i else c.weirRead i) = read
  split
  · trivial
  · split
    · split
      · exact s.keeps_setCh n (.of_eq (hw rfl))
      · trivial
    · split
      · exact .refl _
      · trivial

theorem State.keeps_space2 (s : State) (d : Dom) (write : Bool) (a data : Word) : (s.space2 d write a data).Keeps s := by
  unfold space2
  extract_lets i
  split
  · trivial
  · split
    case h_1 | h_2 | h_3 => exact s.keeps_coreItem _ _ _ _ _
    case h_4 | h_5 => exact s.keeps_engineItem _ _ _ _ _
    case h_6 => trivial

theorem State.keeps_space3 (s : State) (d : Dom) (write : Bool) (a data : Word) : (s.space3 d write a data).Keeps s := by
  unfold space3
  split
  · trivial
  · split
    · trivial
    · split
      · trivial
      · split
        · exact s.keeps_mk _ _ (s.host.keeps_putWord _ _)
        · exact .refl _

theorem State.keeps_debugAccess (s : State) (d : Dom) (write : Bool) (q : DebugReq) (data : Word) :
    (s.debugAccess d write q data).Keeps s := by
  unfold debugAccess
  split
  · exact s.keeps_space0 _ _ _ _
  · exact s.keeps_space1 _ _ _ _
  · exact s.keeps_space2 _ _ _ _
  · exact s.keeps_space3 _ _ _ _

theorem State.keeps_answerDebug (s : State) (d : Dom) {a : Answer} (h : a.Keeps s) :
    KeepsAll s.idMem (s.answerDebug d a).idMem := by
  cases a with
  | refused flt => simp [answerDebug]
  | done v t =>
    have ht : KeepsAll s.idMem t.idMem := h
    simpa [answerDebug] using ht

theorem State.keeps_newRequest (s : State) (d : Dom) (write : Bool) (q : DebugReq) (data : Word) :
    KeepsAll s.idMem (s.newRequest d write q data).idMem := by
  unfold newRequest
  split
  · simp
  · split
    · simp
    · exact s.keeps_answerDebug d (s.keeps_debugAccess _ _ _ _)

theorem State.keeps_transact (s : State) (d : Dom) (write : Bool) (q : DebugReq) (data : Word) :
    KeepsAll s.idMem (s.transact d write q data).idMem := by
  unfold transact
  extract_lets x
  split
  · exact .refl _
  · split
    · simp
    · split
      · exact s.keeps_newRequest _ _ _ _
      · split
        · simp
        · simp
        · exact s.keeps_newRequest _ _ _ _
        · simp

theorem State.keeps_accessComplete (s : State) (d : Dom) : KeepsAll s.idMem (s.accessComplete d).idMem := by
  unfold accessComplete
  split
  · exact .refl _
  · split
    · exact .refl _
    · rename_i h _
      split
      · exact .refl _
      · have hk := s.keeps_debugAccess d h.write h.req h.data
        split
        · simp
        · rename_i v t ht
          rw [ht] at hk
          have ht : KeepsAll s.idMem t.idMem := hk
          simpa using ht

end Sys2Proof.Machine
end

section
/-! PROOF. Every command and every step keep the numbers of the domains and the canonical form of their memories (R21, R49, R50). -/

namespace Sys2Proof.Machine

/-- The commands that write a memory or put a domain in its reset state, one by one; every other command leaves the number
and the memory of every domain as they are, by the equation of the function that it runs. -/
theorem exec_keeps {i : Instr} {s t : State} (h : exec i s = .next t) : KeepsAll s.idMem t.idMem := by
  cases i
  all_goals obtain rfl := Host.Outcome.next.inj h
  case ldRsv => exact s.keeps_onCore _ fun x => x.keeps_ldRsv _ _ _ _ _
  case stRsv => exact s.keeps_onCore _ fun x => x.keeps_stRsv _ _ _ _ _ _
  case atmSwap | atmAdd | atmAnd | atmOr | atmMax | atmMin => exact s.keeps_onCore _ fun x => x.keeps_atm _ _ _ _ _ _ _
  case loadResult => exact s.keeps_loadResultAt _ _ _ _
  case storePerformed => exact s.keeps_storePerformedAt _ _ _ _ _
  case registerWrite => exact s.keeps_registerWrite _ _ _
  case debugRead | debugWrite => exact s.keeps_transact _ _ _ _
  case debugAccessComplete => exact s.keeps_accessComplete _
  case vst => exact s.keeps_onCh _ fun c => c.keeps_casStep _ _ _ _ fun c r => c.keeps_opVst _ _ r
  case rcl => exact s.keeps_onCh _ fun c => c.keeps_casStep _ _ _ _ fun c r => c.keeps_opRcl _ _ r
  case logEntryWrite => exact s.keeps_when _ (s.keeps_onCh _ fun c => c.keeps_logWrite)
  case selfTestDone => exact s.keeps_selfTestEnd _ _ _
  case stateLoadDone => exact s.keeps_onDom _ fun x => x.keeps_when _ fun x => x.keeps_stateLoadDone _
  case cyclicRxCopy => exact s.keeps_rxCopy _
  case remoteRead | remoteWrite => exact s.keeps_answer _ _ _ _ _ _ _
  case supplyMonitorAssert => exact s.keeps_supplyAssert _ _
  case powerOnReset => exact s.keeps_powerOn
  case writeInhibitChange => exact s.keeps_inhibitChange _
  case channelResetAssert => exact s.keeps_pinAssert _
  case hostResetAssert => exact s.keeps_hostPinAssert
  case swrst => exact s.keeps_when _ (s.keeps_writeRstctl _ _)
  case hostRequestReset => exact s.keeps_when _ (s.keeps_hostRequest _)
  case thermalShutdown => exact s.keeps_thermalShutdown _ _
  case bootPhaseDone => exact s.keeps_bootPhase _ _
  case updateChunkWritten => exact s.keeps_chunkWritten
  case stagingOpen | stagingSeal | stagingClose | revert | cancel => exact s.keeps_when _ (s.keeps_updControl _ _)
  case stagingSealDone => exact s.keeps_sealDone
  case hostRomPhaseDone => exact s.keeps_romPhaseDone _
  case nop => exact .of_eq (by simp [Channel.idMem_casStep _ _ _ _ _ (fun c r => .go c r) fun _ _ => rfl])
  all_goals exact .of_eq (by simp)

theorem step_keeps {s t : State} (h : step s = .next t) : KeepsAll s.idMem t.idMem := by
  unfold step at h
  split at h
  · have hk := exec_keeps h
    exact hk
  · obtain rfl := Host.Outcome.next.inj h
    exact .of_eq s.idMem_tick

/-- Settles O58: the number of a domain is the first half of what `step_keeps` keeps of it. -/
theorem stepKeepsNumbers : Obligations.StepKeepsNumbers := by
  intro s t hs h
  have hk := step_keeps h
  obtain ⟨hch, hhost⟩ := hs
  exact ⟨fun n => (hk (.ch n)).1.trans (hch n), (hk .host).1.trans hhost⟩

/-- Settles O59: the canonical form of a memory is the second half. -/
theorem stepKeepsMemoriesCanonical : Obligations.StepKeepsMemoriesCanonical :=
  fun _ _ hs h d => (step_keeps h d).2 (hs d)

theorem Core.reset_rd (r : GReg) : Core.reset.rd r = 0 := by
  unfold Core.rd
  split <;> rfl

end Sys2Proof.Machine
end

section
/-! PROOF. The state after power-on reset (R48, R68, R86, R91, R118, R122, R182, R185, R215, R308). -/

namespace Sys2Proof.Machine

theorem State.reset_placed : Placed .reset := ⟨fun n => by cases n <;> rfl, rfl⟩

theorem State.reset_ch (n : Chan) : State.reset.ch n = .reset n.idx := by cases n <;> rfl

theorem State.reset_dom (d : Dom) : ∃ k, State.reset.dom d = .reset k := by
  cases d with
  | ch n => exact ⟨n.idx, congrArg Channel.dom (reset_ch n)⟩
  | host => exact ⟨4, rfl⟩

theorem Domain.reset_core (k : Nat) (e : Eng) : (Domain.reset k).core e = .reset := by cases e <;> rfl

theorem Channel.reset_flags (n : Chan) :
    (Channel.reset n.idx).rgB WEIR_STAT_STALE = true ∧ (Channel.reset n.idx).rgB SYS_CAP_SAFE_CAP = false ∧
      (Channel.reset n.idx).gen = false := by
  cases n <;> exact ⟨rfl, rfl, rfl⟩

theorem Channel.reset_source (n : Chan) {i : Nat} (hi : i < 5) :
    (Channel.reset n.idx).countOf i = 0 ∧ (Channel.reset n.idx).avalid i = false := by
  cases n <;> interval_cases i <;> exact ⟨rfl, rfl⟩

/-- Settles O55, domain by domain and channel by channel. -/
theorem resetState : Obligations.ResetState := by
  refine ⟨rfl, State.reset_placed, fun d => ?_, fun n => ?_, rfl, rfl, rfl, rfl, rfl, rfl, rfl, rfl⟩
  · obtain ⟨k, hk⟩ := State.reset_dom d
    refine ⟨?_, State.reset_mem_wf d, ?_, ?_, fun e => ?_⟩
    iterate 3
      · rw [hk]
        rfl
    · rw [hk, Domain.reset_core]
      exact ⟨rfl, rfl, rfl, rfl, rfl, rfl, Core.reset_rd, rfl⟩
  · rw [State.reset_ch]
    obtain ⟨hstale, hsafe, hgen⟩ := Channel.reset_flags n
    exact ⟨rfl, rfl, rfl, rfl, hstale, fun _ hi => Channel.reset_source n hi, rfl, rfl, rfl, hsafe, rfl, hgen, rfl⟩

end Sys2Proof.Machine
end

section
/-! PROOF. Resets of a channel and of the host domain (R31, R86 to R92). -/

namespace Sys2Proof.Machine

/-! ## Every channel in turn -/

theorem State.allChans_foldl_ch {f : State → Chan → State} (h : ∀ s n m, m ≠ n → (f s n).ch m = s.ch m) (s : State)
    (n : Chan) : ∃ t : State, t.ch n = s.ch n ∧ (allChans.foldl f s).ch n = (f t n).ch n := by
  have key (l r : List Chan) (hl : n ∉ l) (hr : n ∉ r) :
      ∃ t : State, t.ch n = s.ch n ∧ ((l ++ n :: r).foldl f s).ch n = (f t n).ch n := by
    have skip (l : List Chan) (hl : n ∉ l) (s : State) : (l.foldl f s).ch n = s.ch n := by
      induction l generalizing s with
      | nil => rfl
      | cons m l ih =>
        rw [List.mem_cons, not_or] at hl
        exact (ih hl.2 _).trans (h s m n hl.1)
    refine ⟨l.foldl f s, skip l hl s, ?_⟩
    rw [List.foldl_append, List.foldl_cons]
    exact skip r hr _
  cases n with
  | c0 => exact key [] [.c1, .c2, .c3] (by decide) (by decide)
  | c1 => exact key [.c0] [.c2, .c3] (by decide) (by decide)
  | c2 => exact key [.c0, .c1] [.c3] (by decide) (by decide)
  | c3 => exact key [.c0, .c1, .c2] [] (by decide) (by decide)

/-! ## A channel reset (R86, R90, R91) -/

/-- The channel with a reset source active and recorded. -/
def Channel.recorded (c : Channel) (bit : Fld) (src : ResetSrc → ResetSrc) : Channel :=
  (c.setB bit true).mapDom fun d => { d with rs := src d.rs }

theorem State.resetChan_inReset {s : State} {n : Chan} (bit : Fld) (src : ResetSrc → ResetSrc)
    (h : (s.ch n).dom.inReset = true) : s.resetChan n bit src = s.setCh n ((s.ch n).recorded bit src) := by
  simp [resetChan, Channel.recorded, h]

theorem State.resetChan_up {s : State} {n : Chan} (bit : Fld) (src : ResetSrc → ResetSrc) (h : s.up n) :
    Told (s.setCh n ((s.ch n).recorded bit src).enterReset) (s.resetChan n bit src) := by
  have hr : (s.ch n).dom.inReset = false := h
  simp only [resetChan, hr]
  exact ((Told.settleChan s _ n).trans (.bumpEpoch _ _ _)).trans (.hostEvent _ _ _)

theorem State.resetChan_ch (s : State) (n : Chan) (bit : Fld) (src : ResetSrc → ResetSrc) :
    (s.resetChan n bit src).ch n = if (s.ch n).dom.inReset then (s.ch n).recorded bit src
      else ((s.ch n).recorded bit src).enterReset := by
  split
  · next h => simp [s.resetChan_inReset bit src h]
  · next h => simp [(resetChan_up bit src (eq_false_of_ne_true h)).ch]

theorem State.resetChan_frame (s : State) (n : Chan) (bit : Fld) (src : ResetSrc → ResetSrc) :
    (∀ m, m ≠ n → (s.resetChan n bit src).ch m = s.ch m) ∧ (s.resetChan n bit src).dev = s.dev ∧
      (s.resetChan n bit src).pending = s.pending := by
  cases h : (s.ch n).dom.inReset with
  | true =>
    rw [s.resetChan_inReset bit src h]
    exact ⟨fun m hm => setCh_other _ _ hm, setCh_dev _ _ _, setCh_pending _ _ _⟩
  | false =>
    have ht := resetChan_up bit src h
    exact ⟨fun m hm => (ht.ch m).trans (setCh_other _ _ hm), ht.dev.trans (setCh_dev _ _ _),
      ht.pending.trans (setCh_pending _ _ _)⟩

/-- What a reset makes of a channel but for the events that tell of it. -/
theorem Channel.enterReset_counted (c : Channel) :
    CountedCh { Channel.reset c.dom.id with dom := c.dom.enterReset } c.enterReset := by
  unfold enterReset
  extract_lets _ _ y x z
  have hz : CountedCh x z := by
    unfold z
    split
    · exact .raise _ _ _
    · exact .refl _
  split
  · exact hz.trans (.raise _ _ _)
  · exact hz

theorem sget_sclear {α : Type} (d : α) (m : List (Nat × α)) {lo hi a : Nat} (h : a < lo ∨ hi ≤ a) :
    sget d (sclear lo hi m) a = sget d m a := by
  induction m with
  | nil => rfl
  | cons x m ih =>
    obtain ⟨k, v⟩ := x
    by_cases hk : lo ≤ k ∧ k < hi
    · have hne : k ≠ a := by omega
      simp [sclear, hk, sget, ih, hne]
    · simp [sclear, hk, sget, ih]

theorem memByte_nvmOnly (m : List Host.Cell) {a : Nat} (h : 0x20000000 ≤ a) (h' : a < 0x30000000) :
    memByte (nvmOnly m) a = memByte m a := by
  unfold nvmOnly
  exact (sget_sclear 0 _ (.inr h)).trans (sget_sclear 0 m (.inl h'))

theorem Domain.enterReset_rgB (d : Domain) {f : Fld} (h : f.reg = SYS_RSTSTAT_POR.reg) : d.enterReset.rgB f = d.rgB f := by
  simp [rgB, Domain.rg, enterReset, fld, h, rget_rput]

/-- The blocks of a channel are in their reset state, and its data NVM is that of a memory. -/
def Channel.Cleared (x : Channel) (m : List Host.Cell) : Prop :=
  x.dom.inReset = true ∧ x.plan = [] ∧ x.live = [] ∧ x.cmt = none ∧ x.weir = .reset ∧ x.pos = .reset ∧ x.adc = .reset ∧
    x.pwm = .reset ∧ x.gdi = .reset ∧ x.cas = .reset ∧ (∀ e, x.dom.core e = .reset) ∧
    ∀ a, 0x20000000 ≤ a → a < 0x30000000 → memByte x.dom.mem a = memByte m a

theorem Channel.enterReset_cleared {c : Channel} (h : c.dom.inReset = true) : c.enterReset.Cleared c.dom.mem := by
  have hc := c.enterReset_counted
  refine ⟨hc.dom.inReset.trans h, hc.plan, hc.live, hc.cmt, hc.weir, hc.pos, hc.adc, hc.pwm, hc.gdi, hc.cas, fun e => ?_,
    fun a ha ha' => ?_⟩
  · rw [hc.dom.core]
    cases e <;> rfl
  · rw [hc.dom.mem]
    exact memByte_nvmOnly _ ha ha'

theorem Channel.enterReset_rgB (c : Channel) {f : Fld} (h : f.reg = SYS_RSTSTAT_POR.reg) (hf : f.quiet) :
    c.enterReset.rgB f = c.rgB f := (c.enterReset_counted.rgB f hf).trans (c.dom.enterReset_rgB h)

theorem Channel.recorded_rgB (c : Channel) (bit : Fld) (src : ResetSrc → ResetSrc) (h : bit.hi < 32) (hw : bit.width = 1) :
    (c.recorded bit src).rgB bit = true := rgB_setB_same c bit true h hw

/-- A field of SYS_RSTSTAT that a reset source sets. -/
structure Fld.Source (f : Fld) : Prop where
  reg : f.reg = SYS_RSTSTAT_POR.reg
  quiet : f.quiet
  width : f.width = 1

/-- A source resets a channel that runs. -/
theorem State.resetChan_cleared {s : State} {n : Chan} {bit : Fld} {src : ResetSrc → ResetSrc} (h : s.up n) (hb : bit.Source)
    (hs : ((s.ch n).recorded bit src).dom.inReset = true) :
    ((s.resetChan n bit src).ch n).Cleared (s.ch n).dom.mem ∧ ((s.resetChan n bit src).ch n).rgB bit = true := by
  have hr : (s.ch n).dom.inReset = false := h
  rw [resetChan_ch, hr]
  exact ⟨Channel.enterReset_cleared hs,
    (Channel.enterReset_rgB _ hb.reg hb.quiet).trans ((s.ch n).recorded_rgB bit src hb.quiet.1 hb.width)⟩

theorem rstPin_source : SYS_RSTSTAT_PIN.Source := ⟨rfl, by decide, rfl⟩
theorem rstSoft_source : SYS_RSTSTAT_SOFT.Source := ⟨rfl, by decide, rfl⟩
theorem rstHost_source : SYS_RSTSTAT_HOST.Source := ⟨rfl, by decide, rfl⟩

theorem Channel.recorded_inReset_pin (c : Channel) (bit : Fld) :
    (c.recorded bit fun r => { r with pin := true }).dom.inReset = true := by
  simp [recorded, Domain.inReset]

theorem Channel.recorded_inReset_soft (c : Channel) (bit : Fld) :
    (c.recorded bit fun r => { r with soft := true }).dom.inReset = true := by
  simp [recorded, Domain.inReset]

/-! ## The reset ball of a channel (R87) -/

theorem Domain.pinClears_rs (d : Domain) : d.pinClears.rs = d.rs := by
  unfold pinClears
  split <;> simp

theorem Domain.pinClears_mem (d : Domain) : d.pinClears.mem = d.mem := by
  unfold pinClears
  split <;> simp

theorem Domain.pinClears_inReset (d : Domain) : d.pinClears.inReset = d.inReset := by
  simp only [inReset, pinClears_rs]

/-- What a command of channel c leaves of the rest of the device. -/
def State.OthersKept (s : State) (c : Chan) (t : State) : Prop :=
  (∀ m, m ≠ c → t.ch m = s.ch m) ∧ t.dev = s.dev ∧ t.pending = s.pending

theorem State.othersKept_setCh_resetChan (s : State) (n : Chan) (c : Channel) (bit : Fld) (src : ResetSrc → ResetSrc) :
    s.OthersKept n ((s.setCh n c).resetChan n bit src) := by
  obtain ⟨hch, hdev, hpending⟩ := (s.setCh n c).resetChan_frame n bit src
  exact ⟨fun m hm => (hch m hm).trans (setCh_other s c hm), by simp [hdev], by simp [hpending]⟩

theorem State.pinAssert_eq (s : State) (c : Chan) :
    s.pinAssert c = (s.setCh c ((s.ch c).mapDom Domain.pinClears)).resetChan c SYS_RSTSTAT_PIN
      fun r => { r with pin := true } := rfl

theorem State.pinAssert_up {s : State} {c : Chan} (h : s.up c) :
    ((s.pinAssert c).ch c).Cleared (s.ch c).dom.mem ∧ ((s.pinAssert c).ch c).rgB SYS_RSTSTAT_PIN = true ∧
      s.OthersKept c (s.pinAssert c) := by
  have hu : (s.setCh c ((s.ch c).mapDom Domain.pinClears)).up c := by
    rw [up, setCh_same]
    exact (Domain.pinClears_inReset _).trans h
  obtain ⟨hcleared, hpin⟩ := resetChan_cleared hu rstPin_source (Channel.recorded_inReset_pin _ _)
  rw [setCh_same, Channel.mapDom_dom, Domain.pinClears_mem] at hcleared
  rw [pinAssert_eq]
  exact ⟨hcleared, hpin, s.othersKept_setCh_resetChan c _ _ _⟩

theorem State.pinAssert_inReset {s : State} {c : Chan} (h : (s.ch c).dom.inReset = true) :
    ((s.pinAssert c).ch c).dom.inReset = true ∧ ((s.pinAssert c).ch c).dom.rs.pin = true ∧
      ((s.pinAssert c).ch c).rgB SYS_RSTSTAT_PIN = true ∧ s.OthersKept c (s.pinAssert c) := by
  have hr : ((s.setCh c ((s.ch c).mapDom Domain.pinClears)).ch c).dom.inReset = true := by
    rw [setCh_same]
    exact (Domain.pinClears_inReset _).trans h
  have hkept := s.othersKept_setCh_resetChan c ((s.ch c).mapDom Domain.pinClears) SYS_RSTSTAT_PIN
    fun r => { r with pin := true }
  rw [← pinAssert_eq] at hkept
  have hc := (s.setCh c ((s.ch c).mapDom Domain.pinClears)).resetChan_ch c SYS_RSTSTAT_PIN fun r => { r with pin := true }
  rw [← pinAssert_eq, if_pos hr] at hc
  rw [hc]
  exact ⟨Channel.recorded_inReset_pin _ _, rfl, Channel.recorded_rgB _ _ _ (by decide) rfl, hkept⟩

/-! ## SWRST and the host's request (R89, R92) -/

theorem State.writeRstctl_up {s : State} {c : Chan} {w : Word} (h : s.up c) (hw : bitOf w 0 = true)
    (hk : fget w 31 16 = 0xC3A5) :
    ((s.writeRstctl c w).ch c).Cleared (s.ch c).dom.mem ∧ ((s.writeRstctl c w).ch c).rgB SYS_RSTSTAT_SOFT = true ∧
      s.OthersKept c (s.writeRstctl c w) := by
  have hu : (s.setCh c ((s.ch c).set SYS_RSTCTL_HOSTRST_EN (fget w 1 1))).up c := by
    rw [up, setCh_same]
    exact h
  obtain ⟨hcleared, hsoft⟩ := resetChan_cleared hu rstSoft_source (Channel.recorded_inReset_soft _ _)
  rw [writeRstctl, if_pos hk, if_pos hw]
  exact ⟨by simpa using hcleared, hsoft, s.othersKept_setCh_resetChan c _ _ _⟩

/-- Whether HSYS_CHRST resets channel n (R89). -/
def State.requested (s : State) (w : Word) (n : Chan) : Bool := bitOf w n.idx && (s.ch n).rgB SYS_RSTCTL_HOSTRST_EN

/-- What the host's request does to channel n. -/
def State.requestOne (w : Word) (s : State) (n : Chan) : State :=
  if s.requested w n then s.resetChan n SYS_RSTSTAT_HOST (fun r => { r with soft := true }) else s

theorem State.requestOne_other (w : Word) (s : State) (n m : Chan) (h : m ≠ n) : (s.requestOne w n).ch m = s.ch m := by
  unfold requestOne
  split
  · exact (s.resetChan_frame n _ _).1 m h
  · rfl

theorem State.hostRequest_ch (s : State) (w : Word) (c : Chan) :
    ∃ t : State, t.ch c = s.ch c ∧ (s.hostRequest w).ch c = (t.requestOne w c).ch c :=
  allChans_foldl_ch (requestOne_other w) s c

theorem State.hostRequest_up {s : State} {c : Chan} {w : Word} (h : s.up c) (hr : s.requested w c = true) :
    ((s.hostRequest w).ch c).Cleared (s.ch c).dom.mem ∧ ((s.hostRequest w).ch c).rgB SYS_RSTSTAT_HOST = true := by
  obtain ⟨t, ht, hc⟩ := s.hostRequest_ch w c
  have hu : t.up c := by rwa [up, ht]
  have hr' : t.requested w c = true := by rwa [requested, ht]
  rw [hc, requestOne, if_pos hr', ← ht]
  exact resetChan_cleared hu rstHost_source (Channel.recorded_inReset_soft _ _)

theorem State.hostRequest_unrequested {s : State} {c : Chan} {w : Word} (hr : s.requested w c = false) :
    (s.hostRequest w).ch c = s.ch c := by
  obtain ⟨t, ht, hc⟩ := s.hostRequest_ch w c
  have hr' : t.requested w c = false := by rwa [requested, ht]
  rw [hc, requestOne, hr', ← ht]
  rfl

/-! ## Releases (R86) -/

/-- A reset source of channel n ends: the channel but for what is counted, and the rest of the device. -/
theorem State.releaseChan_frame (s : State) (n : Chan) (src : ResetSrc → ResetSrc) :
    CountedCh ((s.ch n).mapDom fun d => { d with rs := src d.rs }) ((s.releaseChan n src).ch n) ∧
      (∀ m, m ≠ n → (s.releaseChan n src).ch m = s.ch m) ∧ (s.releaseChan n src).dev = s.dev := by
  unfold releaseChan
  extract_lets c t
  split
  · have hset := Settled.of s n (c.mapDom fun d => { d with rs := src d.rs })
    have htold := Told.hostEvent (s.settleOne t n) (0x62 + 4 * n.idx) 0
    exact ⟨htold.ch n ▸ hset.ch, fun m hm => (htold.ch m).trans (hset.other m hm), htold.dev.trans hset.dev⟩
  · exact ⟨by rw [setCh_same]; exact .refl _, fun m hm => setCh_other _ _ hm, setCh_dev _ _ _⟩

/-- The reset sources without the ball and the software. -/
def ResetSrc.released (r : ResetSrc) : ResetSrc := ⟨r.supply, false, false, r.thermal⟩

theorem ResetSrc.released_of_none {r : ResetSrc} (h : ¬(r.pin || r.soft) = true) : r.released = r := by
  obtain ⟨supply, pin, soft, thermal⟩ := r
  simp_all [released]

theorem Domain.inReset_of_rs {d : Domain} {r : ResetSrc} (h : d.rs = r.released) : d.inReset = (r.supply || r.thermal) := by
  simp [inReset, h, ResetSrc.released]

theorem State.pinRelease_frame (s : State) (c : Chan) :
    ((s.pinRelease c).ch c).dom.rs = (s.ch c).dom.rs.released ∧ ((s.pinRelease c).ch c).live = (s.ch c).live ∧
      ((s.pinRelease c).ch c).dom.mem = (s.ch c).dom.mem ∧ (∀ m, m ≠ c → (s.pinRelease c).ch m = s.ch m) ∧
      (s.pinRelease c).dev = s.dev := by
  unfold pinRelease
  split
  · obtain ⟨hc, hother, hdev⟩ := s.releaseChan_frame c fun r => { r with pin := false, soft := false }
    exact ⟨hc.dom.rs, hc.live, hc.dom.mem, hother, hdev⟩
  · next h => exact ⟨(ResetSrc.released_of_none h).symm, rfl, rfl, fun _ _ => rfl, rfl⟩

/-! ## The host domain (R31, R86) -/

theorem HostDom.settleSignals_counted (old new : HostDom) : Counted new.dom (settleSignals old new).dom := by
  unfold settleSignals
  split
  · exact .refl _
  · have step (d : Domain) (i : Nat) (hi : i < 128) := Counted.edge d i (old.signal i) (new.signal i) hi
    exact (((step _ 0 (by decide)).trans (step _ 1 (by decide))).trans (step _ 2 (by decide))).trans (step _ 3 (by decide))

theorem State.mk_ch (s : State) (h : HostDom) (v : Dev) (p : List Instr) (n : Chan) :
    (State.mk s.c0 s.c1 s.c2 s.c3 h v p).ch n = s.ch n := by cases n <;> rfl

theorem State.settleHost_frame (a s : State) :
    (∀ n, CountedCh (s.ch n) ((State.settleHost a s).ch n)) ∧ Counted s.host.dom (State.settleHost a s).host.dom ∧
      (State.settleHost a s).dev = s.dev := by
  obtain ⟨hch, hhost, hdev, -⟩ := settleLinks allChans { s with host := a.host.settleSignals s.host }
  refine ⟨fun n => ?_, ?_, hdev⟩
  · have hn := hch n
    rwa [mk_ch] at hn
  · have hh : (State.settleHost a s).host = a.host.settleSignals s.host := hhost
    rw [hh]
    exact a.host.settleSignals_counted s.host

theorem Domain.loseRing_core (d : Domain) (e : Eng) : d.loseRing.core e = (d.core e).loseRing := by cases e <;> rfl

theorem Domain.loseRing_mem (d : Domain) : d.loseRing.mem = d.mem := rfl

/-- What a reset of the host domain leaves of a channel: its blocks and memory, and its cores but for the ring accesses they
lose. -/
structure Channel.HostReset (c x : Channel) : Prop where
  pwm : x.pwm = c.pwm
  weir : x.weir = c.weir
  cas : x.cas = c.cas
  live : x.live = c.live
  mem : x.dom.mem = c.dom.mem
  core : ∀ e, ∃ l, x.dom.core e = { c.dom.core e with lost := l }

theorem Channel.HostReset.refl (c : Channel) : c.HostReset c := ⟨rfl, rfl, rfl, rfl, rfl, fun e => ⟨(c.dom.core e).lost, rfl⟩⟩

theorem Channel.HostReset.of_loseRing {c x : Channel} (h : CountedCh (c.mapDom Domain.loseRing) x) : c.HostReset x :=
  ⟨h.pwm.trans (c.mapDom_pwm _), h.weir.trans (c.mapDom_weir _), h.cas.trans (c.mapDom_cas _),
    h.live.trans (c.mapDom_live _), h.dom.mem.trans c.dom.loseRing_mem, fun e =>
    ⟨(c.dom.core e).loseRing.lost, (h.dom.core e).trans (c.dom.loseRing_core e)⟩⟩

theorem State.resetHost_frame (s : State) (src : ResetSrc → ResetSrc) :
    (s.resetHost src).host.dom.rs = src s.host.dom.rs ∧ (s.resetHost src).dev = s.dev ∧
      ∀ n, (s.ch n).HostReset ((s.resetHost src).ch n) := by
  unfold resetHost
  extract_lets h was d h₁ t
  have hch (n : Chan) : t.ch n = (s.ch n).mapDom Domain.loseRing := by
    obtain ⟨t', ht, hn⟩ := allChans_foldl_ch (f := fun s n => s.setCh n ((s.ch n).mapDom Domain.loseRing))
      (fun s _ _ hm => s.setCh_other _ hm) s n
    rw [hn, setCh_same, ht]
  have hdev : t.dev = s.dev := by simp [t, allChans]
  clear_value t
  split
  · exact ⟨rfl, rfl, fun n => by rw [mk_ch]; exact .refl _⟩
  · obtain ⟨kch, khost, kdev⟩ := t.settleHost_frame { t with host := h₁.enterReset }
    refine ⟨khost.rs, kdev.trans hdev, fun n => .of_loseRing ?_⟩
    have hn := kch n
    rwa [mk_ch, hch] at hn

theorem State.setDom_host_ch (s : State) (x : Domain) (n : Chan) : (s.setDom .host x).ch n = s.ch n := by cases n <;> rfl

theorem State.hostPinAssert_frame (s : State) :
    s.hostPinAssert.host.dom.rs = { s.host.dom.rs with pin := true } ∧ s.hostPinAssert.dev = s.dev ∧
      ∀ n, (s.ch n).HostReset (s.hostPinAssert.ch n) := by
  obtain ⟨hrs, hdev, hch⟩ := (s.setDom .host s.host.dom.pinClears).resetHost_frame fun r => { r with pin := true }
  refine ⟨hrs.trans ?_, hdev, fun n => ?_⟩
  · exact congrArg (fun r => { r with pin := true }) s.host.dom.pinClears_rs
  · rw [← s.setDom_host_ch s.host.dom.pinClears n]
    exact hch n

theorem State.hostPinRelease_frame (s : State) :
    s.hostPinRelease.host.dom.rs = { s.host.dom.rs with pin := false } ∧
      s.hostPinRelease.host.dom.mem = s.host.dom.mem ∧ ∀ n, CountedCh (s.ch n) (s.hostPinRelease.ch n) := by
  unfold hostPinRelease
  split
  · obtain ⟨hch, hhost, -⟩ := s.settleHost_frame
      { s with host := { s.host with dom := { s.host.dom with rs := { s.host.dom.rs with pin := false } } } }
    refine ⟨hhost.rs, hhost.mem, fun n => ?_⟩
    have hn := hch n
    rwa [mk_ch] at hn
  · next h =>
    refine ⟨?_, rfl, fun n => .refl _⟩
    rw [← eq_false_of_ne_true h]

theorem exec_swrst (c : Chan) (w : Word) (s : State) :
    exec (.swrst c w) s = .next (s.when (bitOf w 0 && !(s.ch c).dom.inReset) (·.writeRstctl c w)) := rfl

theorem exec_hostRequestReset (w : Word) (s : State) :
    exec (.hostRequestReset w) s = .next (s.when (!s.host.dom.inReset) (·.hostRequest w)) := rfl

/-- Settles O17: each command is a source that resets or releases one domain, and what follows in the same cycle is only
counted. -/
theorem channelResetsAndResetBalls : Obligations.ChannelResetsAndResetBalls := by
  refine ⟨fun s c w => ⟨fun hu => ⟨?_, fun hw hk => ?_, fun hh hw hen => ?_⟩, fun hr => ⟨?_, ?_⟩, fun hk => ?_,
    fun hh hno => ?_⟩, fun s c => ?_, fun s => ⟨?_, ?_⟩⟩
  · exact ⟨_, rfl, State.pinAssert_up hu⟩
  · refine ⟨s.writeRstctl c w, ?_, State.writeRstctl_up hu hw hk⟩
    have hr : (s.ch c).dom.inReset = false := hu
    simp [exec_swrst, State.when, hw, hr]
  · refine ⟨s.hostRequest w, ?_, State.hostRequest_up hu (by simp [State.requested, hw, hen])⟩
    simp [exec_hostRequestReset, State.when, hh]
  · exact ⟨_, rfl, State.pinAssert_inReset hr⟩
  · refine ⟨s, ?_, rfl⟩
    simp [exec_swrst, State.when, hr]
  · have hs : s.writeRstctl c w = s := if_neg hk
    refine ⟨s, ?_, rfl⟩
    simp [exec_swrst, State.when, hs]
  · refine ⟨s.hostRequest w, ?_, State.hostRequest_unrequested ?_⟩
    · simp [exec_hostRequestReset, State.when, hh]
    · rcases hno with h | h <;> simp [State.requested, h]
  · obtain ⟨hrs, hlive, hmem, hother, hdev⟩ := s.pinRelease_frame c
    exact ⟨_, rfl, hrs, Domain.inReset_of_rs hrs, hlive, hmem, hother, hdev⟩
  · obtain ⟨hrs, hdev, hch⟩ := s.hostPinAssert_frame
    refine ⟨_, rfl, ?_, hrs, hdev, fun n => ?_⟩
    · simp [Domain.inReset, hrs]
    · obtain ⟨hpwm, hweir, hcas, hlive, hmem, hcore⟩ := hch n
      exact ⟨hpwm, hweir, hcas, hlive, hmem, hcore⟩
  · obtain ⟨hrs, hmem, hch⟩ := s.hostPinRelease_frame
    refine ⟨_, rfl, hrs, ?_, hmem, fun n => ⟨(hch n).pwm, (hch n).live⟩⟩
    simp [Domain.inReset, hrs]

end Sys2Proof.Machine
end

section
/-! PROOF. What a change of the host domain that is the ring's answers, and what a register field of that domain reads as after
one (R465 to R492). -/

namespace Sys2Proof.Machine

/-! ## What the ring may touch of the host domain -/

/-- The second domain is the first but for registers, counters, events, what has been noted of the cycle and the free values
used. -/
def Domain.RingTouched (a b : Domain) : Prop :=
  ∃ r p q n y u, b = { a with regs := r, perf := p, evq := q, evNext := n, cyc := y, fresh := u }

section
variable {a b c : Domain}

theorem Domain.RingTouched.refl (a : Domain) : a.RingTouched a := ⟨a.regs, a.perf, a.evq, a.evNext, a.cyc, a.fresh, rfl⟩

theorem Domain.RingTouched.trans (h : a.RingTouched b) (g : b.RingTouched c) : a.RingTouched c := by
  obtain ⟨r, p, q, n, y, u, rfl⟩ := h
  obtain ⟨r', p', q', n', y', u', rfl⟩ := g
  exact ⟨r', p', q', n', y', u', rfl⟩

theorem Domain.RingTouched.of_counted (h : Counted a b) : a.RingTouched b := by
  obtain ⟨⟨r, p, q, n, y, rfl⟩, -⟩ := h
  exact ⟨r, p, a.evq ++ q, n, y, a.fresh, rfl⟩

theorem Domain.RingTouched.set (h : a.RingTouched b) (f : Fld) (v : Word) : a.RingTouched (b.set f v) :=
  h.trans ⟨(b.set f v).regs, b.perf, b.evq, b.evNext, b.cyc, b.fresh, rfl⟩

theorem Domain.RingTouched.setB (h : a.RingTouched b) (f : Fld) (v : Bool) : a.RingTouched (b.setB f v) :=
  h.trans ⟨(b.setB f v).regs, b.perf, b.evq, b.evNext, (b.setB f v).cyc, b.fresh, rfl⟩

theorem Domain.RingTouched.raise (h : a.RingTouched b) (ev arg : Nat) : a.RingTouched (b.raise ev arg) := by
  obtain ⟨r, p, q, n, y, hr⟩ := b.raise_parts ev arg
  exact h.trans ⟨r, p, q, n, y, b.fresh, hr⟩

theorem Domain.RingTouched.core (h : a.RingTouched b) (e : Eng) : b.core e = a.core e := by
  obtain ⟨r, p, q, n, y, u, rfl⟩ := h
  cases e <;> rfl

end

/-! ## Host domains that differ as counted domains do -/

/-- Two host domains that differ only as `Counted` domains do. -/
structure CountedHost (a b : HostDom) : Prop where
  dom : Counted a.dom b.dom
  rest : b = { a with dom := b.dom }

section
variable {a b : HostDom} (h : CountedHost a b)
include h

theorem CountedHost.ring : b.ring = a.ring := by rw [h.rest]
theorem CountedHost.rgN (f : Fld) (hf : f.quiet) : b.dom.rgN f = a.rgN f := h.dom.rgN f hf
theorem CountedHost.rgB (f : Fld) (hf : f.quiet) : b.dom.rgB f = a.rgB f := h.dom.rgB f hf

theorem CountedHost.waits {d : Domain} {ev arg : Nat} (w : Waits d a.dom ev arg) : Waits d b.dom ev arg := by
  obtain ⟨⟨r, p, q, n, y, hq⟩, -⟩ := h.dom
  unfold Waits at *
  rw [hq]
  exact List.mem_append_left _ w

end

theorem HostDom.settleSignals_countedHost (old new : HostDom) : CountedHost new (old.settleSignals new) := by
  refine ⟨old.settleSignals_counted new, ?_⟩
  unfold settleSignals
  split <;> rfl

/-! ## What a change of the host domain answers -/

/-- Once settled, a change of the host domain is that change up to what is counted, and the channels learn of the link only. -/
theorem State.settleHost_answers (s : State) {h : HostDom} (hr : s.host.dom.RingTouched h.dom) :
    CountedHost h (s.settleHost { s with host := h }).host ∧ HostFrame s (s.settleHost { s with host := h }) := by
  obtain ⟨hch, -, hdev⟩ := s.settleHost_frame { s with host := h }
  obtain ⟨-, hhost, -, hpend⟩ := settleLinks allChans { s with host := s.host.settleSignals h }
  have hc : CountedHost h (s.settleHost { s with host := h }).host := by
    have hh : (s.settleHost { s with host := h }).host = s.host.settleSignals h := hhost
    rw [hh]
    exact s.host.settleSignals_countedHost h
  have ht := hr.trans (.of_counted hc.dom)
  refine ⟨hc, ⟨fun n => ?_, ht.core, hdev, hpend⟩, ht⟩
  have hn := hch n
  rw [mk_ch] at hn
  obtain ⟨⟨r, p, q, x, y, hd⟩, -⟩ := hn.dom
  exact ⟨r, p, _, x, y, hn.rest.trans (by rw [hd])⟩

/-- A command that is a change of the host domain answers with whatever holds of every host domain that counts as the changed
one. -/
theorem HostAnswers.of {i : Instr} {s : State} {f : HostDom → HostDom} {P : HostDom → Prop}
    (hi : exec i s = .next (s.onHost f)) (hu : s.host.dom.inReset = false) (hr : s.host.dom.RingTouched (f s.host).dom)
    (hp : ∀ y, CountedHost (f s.host) y → P y) : HostAnswers i s P := by
  obtain ⟨hc, hf⟩ := s.settleHost_answers hr
  refine ⟨_, hi, ?_⟩
  rw [State.onHost, hu]
  exact ⟨hp _ hc, hf⟩

/-! ## Fields of the host domain -/

/-- A field of RING_CTL. -/
structure Fld.RingCtl (f : Fld) : Prop where
  reg : f.reg = 0x100000
  hi : f.hi < 32

theorem Fld.RingCtl.quiet {f : Fld} (h : f.RingCtl) : f.quiet := by
  obtain ⟨hreg, hhi⟩ := h
  exact ⟨hhi, by omega, by omega, by omega, by omega⟩

theorem fget_bit (w : Word) (k : Nat) : fget w k k = ofB (bitOf w k) := by
  apply BitVec.eq_of_getLsbD_eq
  intro i _
  rw [fget_getLsbD]
  cases i with
  | zero => cases h : bitOf w k <;> simp_all [bitOf, ofB]
  | succ i => cases bitOf w k <;> simp [ofB]

/-- A flag written from bit k of a word reads as that bit. -/
theorem Domain.rgB_set_bit (d : Domain) (f : Fld) (w : Word) (k : Nat) (h : f.hi < 32) (hw : f.width = 1) :
    (d.set f (fget w k k)).rgB f = bitOf w k := by
  rw [fget_bit]
  exact d.rgB_setB_same f _ h hw

theorem Domain.rgB_set_apart (d : Domain) (f g : Fld) (v : Word) (hg : g.hi < 32)
    (h : f.reg ≠ g.reg ∨ g.hi < f.lo ∨ f.hi < g.lo) : (d.set f v).rgB g = d.rgB g := by
  simp only [rgB, d.rg_set_apart f g v hg h]

/-! ## Links and wraps (R467, R487, R490) -/

@[simp] theorem Ring.port_setPort (r : Ring) (p : Port) (x : PortSt) : (r.setPort p x).port p = x := by cases p <;> rfl
@[simp] theorem Ring.port_setPort_other (r : Ring) (p : Port) (x : PortSt) :
    (r.setPort p x).port (otherPort p) = r.port (otherPort p) := by cases p <;> rfl

theorem linkFld_quiet (p : Port) : (linkFld p).quiet := by cases p <;> decide
theorem wrapFld_quiet (p : Port) : (wrapFld p).quiet := by cases p <;> decide

theorem portCode_le (p : Port) : portCode p ≤ 1 := by cases p <;> decide

theorem Fld.RingCtl.linkFld_apart {f : Fld} (h : f.RingCtl) (p : Port) : (linkFld p).reg ≠ f.reg := by
  rw [h.reg]
  cases p <;> decide

theorem Fld.RingCtl.wrapFld_apart {f : Fld} (h : f.RingCtl) (p : Port) : (wrapFld p).reg ≠ f.reg := by
  rw [h.reg]
  cases p <;> decide

namespace HostDom
variable (h : HostDom) (p : Port) (st : Nat) (on : Bool)

theorem raise_rg {f : Fld} (hf : f.quiet) (ev arg : Nat) (he : ev < 128) : (h.raise ev arg).rg f = h.rg f :=
  (Counted.raise h.dom ev arg he).rg f hf

theorem rgN_of_rg {a b : HostDom} {f : Fld} (e : b.rg f = a.rg f) : b.rgN f = a.rgN f := congrArg BitVec.toNat e
theorem rgB_of_rg {a b : HostDom} {f : Fld} (e : b.rg f = a.rg f) : b.rgB f = a.rgB f := congrArg (· != 0) e

/-- A link that takes another state. -/
theorem setLink_of_ne (hl : h.rgN (linkFld p) ≠ st) :
    h.setLink p st = (h.setN (linkFld p) st).raise (0x10 + portCode p) st := if_neg hl

/-- A wrap that begins or ends. -/
theorem setWrap_of_ne (hw : h.rgB (wrapFld p) ≠ on) :
    h.setWrap p on = (h.setB (wrapFld p) on).raise 0x12 (portCode p + if on then 2 else 0) := if_neg hw

@[simp] theorem setLink_ring : (h.setLink p st).ring = h.ring := by
  unfold setLink
  split <;> rfl

@[simp] theorem setWrap_ring : (h.setWrap p on).ring = h.ring := by
  unfold setWrap
  split <;> rfl

theorem setLink_touched : h.dom.RingTouched (h.setLink p st).dom := by
  unfold setLink
  split
  · exact .refl _
  · exact ((Domain.RingTouched.refl _).set _ _).raise _ _

theorem setWrap_touched : h.dom.RingTouched (h.setWrap p on).dom := by
  unfold setWrap
  split
  · exact .refl _
  · exact ((Domain.RingTouched.refl _).setB _ _).raise _ _

theorem setLink_rgN {st : Nat} (hs : st < 4) : (h.setLink p st).rgN (linkFld p) = st := by
  by_cases hl : h.rgN (linkFld p) = st
  · rwa [setLink, if_pos hl]
  · rw [h.setLink_of_ne p st hl, rgN_of_rg (raise_rg _ (linkFld_quiet p) _ _ (by have := portCode_le p; omega))]
    exact h.dom.rgN_setN_same _ _ (linkFld_quiet p).1 (by cases p <;> exact hs) (by cases p <;> decide)

theorem setWrap_rgB : (h.setWrap p on).rgB (wrapFld p) = on := by
  by_cases hw : h.rgB (wrapFld p) = on
  · rwa [setWrap, if_pos hw]
  · rw [h.setWrap_of_ne p on hw, rgB_of_rg (raise_rg _ (wrapFld_quiet p) _ _ (by decide))]
    exact h.dom.rgB_setB_same _ _ (wrapFld_quiet p).1 (by cases p <;> rfl)

/-- A link's state is written to its own field only. -/
theorem setLink_rg {f : Fld} (hf : f.quiet)
    (ha : (linkFld p).reg ≠ f.reg ∨ f.hi < (linkFld p).lo ∨ (linkFld p).hi < f.lo) :
    (h.setLink p st).rg f = h.rg f := by
  unfold setLink
  split
  · rfl
  · rw [raise_rg _ hf _ _ (by have := portCode_le p; omega)]
    exact h.dom.rg_set_apart _ f _ hf.1 ha

/-- A wrap is written to its own field only. -/
theorem setWrap_rg {f : Fld} (hf : f.quiet)
    (ha : (wrapFld p).reg ≠ f.reg ∨ f.hi < (wrapFld p).lo ∨ (wrapFld p).hi < f.lo) :
    (h.setWrap p on).rg f = h.rg f := by
  unfold setWrap
  split
  · rfl
  · rw [raise_rg _ hf _ _ (by decide)]
    exact h.dom.rg_set_apart _ f _ hf.1 ha

theorem setLink_rg_ctl {f : Fld} (hf : f.RingCtl) : (h.setLink p st).rg f = h.rg f :=
  h.setLink_rg p st hf.quiet (.inl (hf.linkFld_apart p))

theorem setWrap_rg_ctl {f : Fld} (hf : f.RingCtl) : (h.setWrap p on).rg f = h.rg f :=
  h.setWrap_rg p on hf.quiet (.inl (hf.wrapFld_apart p))

theorem setWrap_rg_link (q : Port) : (h.setWrap p on).rg (linkFld q) = h.rg (linkFld q) :=
  h.setWrap_rg p on (linkFld_quiet q) (by cases p <;> cases q <;> decide)

theorem setLink_rg_wrap (q : Port) : (h.setLink p st).rg (wrapFld q) = h.rg (wrapFld q) :=
  h.setLink_rg p st (wrapFld_quiet q) (by cases p <;> cases q <;> decide)

variable {h p st}

theorem setLink_waits (hl : h.rgN (linkFld p) ≠ st) (hr : HasRoom h.dom (0x10 + portCode p)) :
    Waits h.dom (h.setLink p st).dom (0x10 + portCode p) st := by
  rw [h.setLink_of_ne p st hl]
  exact .raise (h.dom.setN (linkFld p) st) h.dom _ _ hr rfl

theorem setWrap_waits {on : Bool} (hw : h.rgB (wrapFld p) ≠ on) (hr : HasRoom h.dom 0x12) :
    Waits h.dom (h.setWrap p on).dom 0x12 (portCode p + if on then 2 else 0) := by
  rw [h.setWrap_of_ne p on hw]
  exact .raise (h.dom.setB (wrapFld p) on) h.dom _ _ hr rfl

/-- An event that waits goes on waiting when a wrap begins or ends. -/
theorem setWrap_waits_later {d : Domain} {ev arg : Nat} (w : Waits d h.dom ev arg) (p : Port) (on : Bool) :
    Waits d (h.setWrap p on).dom ev arg := by
  unfold setWrap
  split
  · exact w
  · exact Waits.later (d := h.dom.setB (wrapFld p) on) w _ _

end HostDom

end Sys2Proof.Machine
end

section
/-! PROOF. The commands of a link and of a wrap, and the change of the by-pass (R68, R70, R467, R487). -/

namespace Sys2Proof.Machine

/-! ## Links (R467) -/

/-- A port whose frames in transit are lost. -/
def PortSt.emptied (x : PortSt) : PortSt := { x with fwd := [], out := [] }

namespace HostDom
variable {h : HostDom} {p : Port}

theorem linkAlign_down (he : h.enabled = true) (hl : h.rgN (linkFld p) = 0) : h.linkAlign p = h.setLink p 1 := by
  simp [linkAlign, he, hl]

theorem linkUp_aligning (he : h.enabled = true) (hl : h.rgN (linkFld p) = 1) :
    h.linkUp p = (h.setLink p 2).setRing fun r => r.setPort p { r.port p with upAt := h.now } := by
  simp [linkUp, he, hl]

/-- The host domain with the link of a port down and its frames lost. -/
def downed (h : HostDom) (p : Port) : HostDom :=
  (h.setLink p 0).setRing fun r => r.setPort p (r.port p).emptied

theorem downed_rgB_ctl {f : Fld} (hf : f.RingCtl) : (h.downed p).rgB f = h.rgB f :=
  rgB_of_rg (b := h.setLink p 0) (h.setLink_rg_ctl p 0 hf)

theorem downed_rgB_wrap : (h.downed p).rgB (wrapFld p) = h.rgB (wrapFld p) :=
  rgB_of_rg (b := h.setLink p 0) (h.setLink_rg_wrap p 0 p)

theorem linkDown_enabled (he : h.enabled = true) (hl : h.rgN (linkFld p) ≠ 0) :
    h.linkDown p = if h.rgB RING_CTL_WRAPEN then (h.downed p).setWrap p true else h.downed p := by
  rw [← h.downed_rgB_ctl (p := p) (f := RING_CTL_WRAPEN) ⟨rfl, by decide⟩]
  exact if_pos (by simp [he, hl])

/-- A link that goes down is down with its event, its port has lost its frames and is wrapped where WRAPEN = 1. -/
theorem linkDown_frame (he : h.enabled = true) (hl : h.rgN (linkFld p) ≠ 0) (hr : HasRoom h.dom (0x10 + portCode p)) :
    h.dom.RingTouched (h.linkDown p).dom ∧ (h.linkDown p).rgN (linkFld p) = 0 ∧
      Waits h.dom (h.linkDown p).dom (0x10 + portCode p) 0 ∧
      (h.linkDown p).ring = h.ring.setPort p (h.ring.port p).emptied ∧
      (h.linkDown p).rgB (wrapFld p) = (h.rgB (wrapFld p) || h.rgB RING_CTL_WRAPEN) := by
  have htouch : h.dom.RingTouched (h.downed p).dom := h.setLink_touched p 0
  have hlink : (h.downed p).rgN (linkFld p) = 0 := h.setLink_rgN p (by decide)
  have hwait : Waits h.dom (h.downed p).dom (0x10 + portCode p) 0 := setLink_waits hl hr
  have hring : (h.downed p).ring = h.ring.setPort p (h.ring.port p).emptied := by simp [downed, setRing]
  rw [linkDown_enabled he hl]
  by_cases hw : h.rgB RING_CTL_WRAPEN = true
  · rw [if_pos hw, hw, Bool.or_true]
    exact ⟨htouch.trans ((h.downed p).setWrap_touched p true),
      (rgN_of_rg ((h.downed p).setWrap_rg_link p true p)).trans hlink,
      setWrap_waits_later hwait p true, ((h.downed p).setWrap_ring p true).trans hring, (h.downed p).setWrap_rgB p true⟩
  · rw [if_neg hw, eq_false_of_ne_true hw, Bool.or_false]
    exact ⟨htouch, hlink, hwait, hring, downed_rgB_wrap⟩

/-! ## The end of a wrap (R487) -/

theorem unwrap_due (hw : h.rgB (wrapFld p) = true) (hl : h.rgN (linkFld p) = 2)
    (ht : (h.ring.port p).upAt + 400 * atLeast1 (h.rgN RING_UNWRAP_UNWRAPT) ≤ h.now) (hf : (h.ring.port p).free ≤ h.now) :
    h.unwrap p = h.setWrap p false := by
  simp [unwrap, hw, hl, ht, hf]

/-! ## The by-pass (R68, R70) -/

/-- The host domain with the by-pass closed or open and the frames in transit lost. -/
def bypassed (h : HostDom) (closed : Bool) : HostDom :=
  (h.setB RING_STAT_BYPASS closed).setRing fun r => { r with a := r.a.emptied, b := r.b.emptied }

end HostDom

theorem State.bypassChange_same {s : State} (h : s.host.rgB RING_STAT_BYPASS = s.bypassClosed) : s.bypassChange = s := if_pos h

theorem State.bypassChange_other {s : State} (h : s.host.rgB RING_STAT_BYPASS ≠ s.bypassClosed) :
    s.bypassChange = s.settleHost { s with host := s.host.bypassed s.bypassClosed } := if_neg h

/-! ## What the commands answer -/

section
variable {s : State} {p : Port} (hu : s.host.dom.inReset = false)
include hu

section
variable (he : s.host.enabled = true)
include he

theorem State.linkAlign_answers (hl : s.host.rgN (linkFld p) = 0) (hr : HasRoom s.host.dom (0x10 + portCode p)) :
    HostAnswers (.linkAlign p) s fun y =>
      y.dom.rgN (linkFld p) = 1 ∧ Waits s.host.dom y.dom (0x10 + portCode p) 1 ∧ y.ring = s.host.ring := by
  refine .of (f := (·.linkAlign p)) rfl hu ?_ ?_ <;> rw [HostDom.linkAlign_down he hl]
  · exact s.host.setLink_touched p 1
  · exact fun y hy => ⟨(hy.rgN _ (linkFld_quiet p)).trans (s.host.setLink_rgN p (by decide)),
      hy.waits (HostDom.setLink_waits (by simp [hl]) hr), hy.ring.trans (s.host.setLink_ring p 1)⟩

theorem State.linkUp_answers (hl : s.host.rgN (linkFld p) = 1) (hr : HasRoom s.host.dom (0x10 + portCode p)) :
    HostAnswers (.linkUp p) s fun y =>
      y.dom.rgN (linkFld p) = 2 ∧ Waits s.host.dom y.dom (0x10 + portCode p) 2 ∧ (y.ring.port p).upAt = s.host.dom.time ∧
        y.ring.port (otherPort p) = s.host.ring.port (otherPort p) := by
  refine .of (f := (·.linkUp p)) rfl hu ?_ ?_ <;> rw [HostDom.linkUp_aligning he hl]
  · exact s.host.setLink_touched p 2
  · refine fun y hy => ⟨(hy.rgN _ (linkFld_quiet p)).trans (s.host.setLink_rgN p (by decide)),
      hy.waits (HostDom.setLink_waits (by simp [hl]) hr), ?_⟩
    rw [hy.ring]
    simp [HostDom.setRing, HostDom.now]

theorem State.linkDown_answers (hl : s.host.rgN (linkFld p) ≠ 0) (hr : HasRoom s.host.dom (0x10 + portCode p)) :
    HostAnswers (.linkDown p) s fun y =>
      y.dom.rgN (linkFld p) = 0 ∧ Waits s.host.dom y.dom (0x10 + portCode p) 0 ∧
        ((y.ring.port p).fwd = [] ∧ (y.ring.port p).out = []) ∧
        y.dom.rgB (wrapFld p) = (s.host.rgB (wrapFld p) || s.host.rgB RING_CTL_WRAPEN) ∧
        y.ring.port (otherPort p) = s.host.ring.port (otherPort p) := by
  obtain ⟨htouch, hlink, hwait, hring, hwrap⟩ := HostDom.linkDown_frame he hl hr
  refine .of (f := (·.linkDown p)) rfl hu htouch fun y hy => ?_
  rw [hy.ring, hring]
  exact ⟨(hy.rgN _ (linkFld_quiet p)).trans hlink, hy.waits hwait, by simp [PortSt.emptied],
    (hy.rgB _ (wrapFld_quiet p)).trans hwrap, by simp⟩

end

theorem State.unwrap_answers (hw : s.host.rgB (wrapFld p) = true) (hl : s.host.rgN (linkFld p) = 2)
    (ht : (s.host.ring.port p).upAt + 400 * atLeast1 (s.host.rgN RING_UNWRAP_UNWRAPT) ≤ s.host.now)
    (hf : (s.host.ring.port p).free ≤ s.host.now) (hr : HasRoom s.host.dom 0x12) :
    HostAnswers (.unwrap p) s fun y =>
      y.dom.rgB (wrapFld p) = false ∧ Waits s.host.dom y.dom 0x12 (portCode p) ∧ y.ring = s.host.ring := by
  refine .of (f := (·.unwrap p)) rfl hu ?_ ?_ <;> rw [HostDom.unwrap_due hw hl ht hf]
  · exact s.host.setWrap_touched p false
  · exact fun y hy => ⟨(hy.rgB _ (wrapFld_quiet p)).trans (s.host.setWrap_rgB p false),
      hy.waits (HostDom.setWrap_waits (by simp [hw]) hr), hy.ring.trans (s.host.setWrap_ring p false)⟩

end

theorem State.bypassChange_answers {s : State} (h : s.host.rgB RING_STAT_BYPASS ≠ s.bypassClosed) :
    HostAnswers .bypassChange s fun y =>
      y.dom.rgB RING_STAT_BYPASS = s.bypassClosed ∧ (y.ring.a.fwd = [] ∧ y.ring.a.out = []) ∧
        (y.ring.b.fwd = [] ∧ y.ring.b.out = []) := by
  obtain ⟨hc, hf⟩ := s.settleHost_answers (h := s.host.bypassed s.bypassClosed) ((Domain.RingTouched.refl _).setB _ _)
  rw [← bypassChange_other h] at hc hf
  refine ⟨_, rfl, ⟨?_, ?_⟩, hf⟩
  · exact (hc.rgB _ (by decide)).trans (s.host.dom.rgB_setB_same RING_STAT_BYPASS _ (by decide) rfl)
  · rw [hc.ring]
    exact ⟨⟨rfl, rfl⟩, rfl, rfl⟩

end Sys2Proof.Machine
end

section
/-! PROOF. What the start of a cycle at the master, whose own frames may come back through a wrap, leaves as it was: RING_CTL,
the validity of ring time and ring time itself (R475 to R479, R487). -/

namespace Sys2Proof.Machine

/-- The fields that the start of a cycle at the master leaves. -/
def cycleKeptFlds : List Fld := [RING_CTL_PORTEN, RING_CTL_CMASTER, RING_CTL_WRAPEN, RING_CTL_LLFORCE, RING_STAT_RTVALID]

/-- The second host domain is the first but for what the ring may touch, without `cycleKeptFlds` and ring time. -/
structure CycleKept (a b : HostDom) : Prop where
  parts : a.dom.RingTouched b.dom
  rg : ∀ f ∈ cycleKeptFlds, b.rg f = a.rg f
  t2 : b.ring.t2 = a.ring.t2

/-- The field shares no bit with one of `cycleKeptFlds`. -/
abbrev Fld.OffCycleKept (f : Fld) : Prop := ∀ g ∈ cycleKeptFlds, f.reg ≠ g.reg ∨ g.hi < f.lo ∨ f.hi < g.lo

theorem cycleKeptFlds_quiet : ∀ f ∈ cycleKeptFlds, f.quiet := by decide

namespace CycleKept

theorem refl (a : HostDom) : CycleKept a a := ⟨.refl _, fun _ _ => rfl, rfl⟩

variable {a b : HostDom} (k : CycleKept a b)
include k

theorem rgB {f : Fld} (hf : f ∈ cycleKeptFlds) : b.rgB f = a.rgB f := HostDom.rgB_of_rg (k.rg f hf)

/-! ## One change -/

theorem counted {d : Domain} (h : Counted b.dom d) : CycleKept a { b with dom := d } :=
  ⟨k.parts.trans (.of_counted h), fun f hf => (h.rg f (cycleKeptFlds_quiet f hf)).trans (k.rg f hf), k.t2⟩

theorem raise (ev arg : Nat) (h : ev < 128 := by decide) : CycleKept a (b.raise ev arg) := k.counted (.raise _ _ _ h)

theorem setN (f : Fld) (v : Nat) (h : f.OffCycleKept := by decide) : CycleKept a (b.setN f v) :=
  ⟨k.parts.set _ _, fun g hg => (b.dom.rg_set_apart f g _ (cycleKeptFlds_quiet g hg).1 (h g hg)).trans (k.rg g hg), k.t2⟩

theorem setB (f : Fld) (v : Bool) (h : f.OffCycleKept := by decide) : CycleKept a (b.setB f v) :=
  ⟨k.parts.setB _ _, fun g hg => (b.dom.rg_set_apart f g _ (cycleKeptFlds_quiet g hg).1 (h g hg)).trans (k.rg g hg), k.t2⟩

theorem setRing {f : Ring → Ring} (h : (f b.ring).t2 = b.ring.t2) : CycleKept a (b.setRing f) :=
  ⟨k.parts, k.rg, h.trans k.t2⟩

theorem setPort (p : Port) (f : Ring → PortSt) : CycleKept a (b.setRing fun r => r.setPort p (f r)) :=
  k.setRing (by cases p <;> rfl)

theorem free (site : Nat) : CycleKept a { b with dom := (b.dom.free site).2 } :=
  ⟨k.parts.trans ⟨b.dom.regs, b.dom.perf, b.dom.evq, b.dom.evNext, b.dom.cyc, b.dom.fresh + 1, rfl⟩, k.rg, k.t2⟩

/-! ## Frames (R472 to R474) -/

theorem frameItem (j : Nat) (h : j < 16 := by decide) : CycleKept a (b.frameItem j) := by
  unfold HostDom.frameItem
  extract_lets d
  split
  · exact ((((k.free 75).free 76).free 77).free 78).counted (.item _ 3 j _ (by decide) h)
  · exact k.counted (.bump _ _ 1 (by omega))

theorem discard (f : Fld) (kind : Nat) (h : f.OffCycleKept := by decide) : CycleKept a (b.discard f kind) :=
  ((k.setN f _ h).raise 0x1B kind).frameItem 3

theorem transmit (p : Port) (f : List Byte) : CycleKept a (b.transmit p f) := by
  unfold HostDom.transmit
  dsimp only
  split
  · split <;> exact k.setPort p _
  · exact k

theorem transmitCyclic (p : Port) (f : List Byte) : CycleKept a (b.transmitCyclic p f) := by
  unfold HostDom.transmitCyclic
  extract_lets x wait at_
  exact (k.transmit p f).setPort p _

/-- A frame goes on, or arrives again through a wrap. -/
theorem goesOn (p : Port) (g : List Byte) {send : HostDom → Port → List Byte → HostDom}
    {again : HostDom → List Byte → HostDom}
    (hs : ∀ {b}, CycleKept a b → ∀ p g, CycleKept a (send b p g))
    (ha : ∀ {b}, CycleKept a b → ∀ g, CycleKept a (again b g)) : CycleKept a (b.goesOn p g send again) := by
  unfold HostDom.goesOn
  dsimp only
  split
  · split
    · exact (k.frameItem 0).frameItem 3
    · exact ha (k.frameItem 0) _
  · exact hs (k.frameItem 0) _ g

/-! ## Time frames (R477) -/

/-- A time frame that arrives at a master does not act on ring time. -/
theorem timeArrive (hm : a.rgB RING_CTL_CMASTER = true) (n : Nat) (p : Port) (f : List Byte) (own delay : Nat) :
    CycleKept a (HostDom.timeArrive n b p f own delay) := by
  induction n generalizing b p f own delay with
  | zero => exact k
  | succ n ih =>
    have hmb : b.rgB RING_CTL_CMASTER = true := (k.rgB (by decide)).trans hm
    simp only [HostDom.timeArrive, hmb, Bool.true_and, Bool.true_or, if_true]
    split
    · exact k
    · split
      · exact k.discard _ 3
      · refine goesOn ?_ p _ (fun k p g => k.transmit p g) (fun k g => ih k _ g 0 0)
        split
        · split <;> exact k.discard _ _
        · split
          · exact ((k.frameItem 1).setB _ true).raise 0x1A 1
          · exact k.frameItem 1

theorem originateTime (hm : a.rgB RING_CTL_CMASTER = true) (p : Port) (f : List Byte) : CycleKept a (b.originateTime p f) := by
  unfold HostDom.originateTime
  dsimp only
  split
  · exact ((k.frameItem 2).free 83).timeArrive hm 4 p _ _ 0
  · exact (k.frameItem 2).transmit p f

/-! ## Cyclic frames (R478, R479) -/

theorem cyclicSeen (path : Nat) : CycleKept a (b.cyclicSeen path) := by
  unfold HostDom.cyclicSeen
  extract_lets h
  have hk : CycleKept a h := by
    unfold h
    split
    · exact k
    · exact (k.setRing rfl).raise 0x17 path
  split
  · exact (hk.setB _ false).raise 0x13 0
  · exact hk

theorem captureRx (slots : List Word) (path : Nat) (first : Bool) : CycleKept a (b.captureRx slots path first) := by
  refine List.foldlRecOn (motive := CycleKept a) _ _ k fun b k i _ => ?_
  split
  · extract_lets wanted
    split
    · exact k
    · split
      · exact k.setRing rfl
      · exact k.setB _ true
  · exact k

theorem insertTx (slots : List Word) : CycleKept a (b.insertTx slots).2 := by
  refine List.foldlRecOn (motive := fun x : List Word × HostDom => CycleKept a x.2) _ _ k fun x k i _ => ?_
  split
  · split
    · exact k
    · split
      · exact k
      · exact k.setB _ true
  · exact k

theorem lateTx : CycleKept a b.lateTx := by
  unfold HostDom.lateTx
  dsimp only
  split
  · exact (k.setB _ true).raise 0x19 _
  · exact k

theorem cyclicArrive (n : Nat) (p : Port) (f : List Byte) : CycleKept a (HostDom.cyclicArrive n b p f) := by
  induction n generalizing b p f with
  | zero => exact k
  | succ n ih =>
    unfold HostDom.cyclicArrive
    extract_lets ok slots path own first h r g
    split
    · exact k.discard _ 3
    · have hh : CycleKept a h := by
        unfold h
        split
        · exact ((k.captureRx slots path first).cyclicSeen path).frameItem 1
        · split <;> exact k.discard _ _
      split
      · split
        · exact hh.setRing (by split <;> rfl)
        · exact hh
      · exact goesOn (hh.lateTx.insertTx slots) p _ (fun k p g => k.transmitCyclic p g) (fun k g => ih k _ g)

theorem originateCyclic (p : Port) (f : List Byte) : CycleKept a (b.originateCyclic p f) := by
  unfold HostDom.originateCyclic
  dsimp only
  split
  · exact (k.frameItem 2).cyclicArrive 4 p _
  · exact (k.frameItem 2).transmitCyclic p f

/-! ## The start of a cycle (R475, R479) -/

theorem sendCycle (hm : a.rgB RING_CTL_CMASTER = true) (p : Port) : CycleKept a (b.sendCycle p) := by
  unfold HostDom.sendCycle
  refine originateCyclic (originateTime (setRing (k.insertTx _) ?_) hm p _) p _
  cases p <;> rfl

theorem missCycle : CycleKept a b.missCycle := by
  unfold HostDom.missCycle
  extract_lets h
  have hk : CycleKept a h := (k.setRing rfl).raise 0x18 _
  split
  · exact hk
  · exact (hk.setB _ true).raise 0x13 1

/-- At a master ring time stays valid. -/
theorem timeInvalid (hm : a.rgB RING_CTL_CMASTER = true) : CycleKept a b.timeInvalid := by
  have hmb : b.rgB RING_CTL_CMASTER = true := (k.rgB (by decide)).trans hm
  simpa [HostDom.timeInvalid, hmb] using k

theorem cycleBegin (hm : a.rgB RING_CTL_CMASTER = true) : CycleKept a b.cycleBegin := by
  unfold HostDom.cycleBegin
  extract_lets h₀ c h₁ master h₂
  have k₀ : CycleKept a h₀ := by
    unfold h₀
    split
    · exact k
    · exact k.missCycle
  have k₁ : CycleKept a h₁ := (k₀.setN _ _).raise 0x16 _
  have k₂ : CycleKept a h₂ := (k₁.setRing rfl).timeInvalid hm
  split
  · exact (k₂.lateTx.sendCycle hm .a).sendCycle hm .b
  · exact k₂

end CycleKept

end Sys2Proof.Machine
end

section
/-! PROOF. A write of RING_CTL (R468, R475, R476), and the ports, links, wraps and by-pass of the ring together. -/

namespace Sys2Proof.Machine

namespace HostDom
variable (h : HostDom) (w : Word)

/-- The host domain with the bits of a word in the fields of RING_CTL. -/
def ctlWritten : HostDom :=
  (((h.set RING_CTL_LLFORCE (fget w 4 4)).set RING_CTL_WRAPEN (fget w 3 3)).set RING_CTL_CMASTER (fget w 2 2)).set
    RING_CTL_PORTEN (fget w 0 0)

theorem ctlWritten_touched : h.dom.RingTouched (h.ctlWritten w).dom :=
  ((((Domain.RingTouched.refl _).set _ _).set _ _).set _ _).set _ _

/-- The fields of RING_CTL hold the bits of a word. -/
structure CtlIs (w : Word) (h : HostDom) : Prop where
  porten : h.rgB RING_CTL_PORTEN = bitOf w 0
  cmaster : h.rgB RING_CTL_CMASTER = bitOf w 2
  wrapen : h.rgB RING_CTL_WRAPEN = bitOf w 3
  llforce : h.rgB RING_CTL_LLFORCE = bitOf w 4

/-- Whatever keeps the fields of RING_CTL keeps their bits. -/
theorem CtlIs.of_rg {w : Word} {a b : HostDom} (c : CtlIs w a)
    (h : ∀ f ∈ cycleKeptFlds, f.RingCtl → b.rg f = a.rg f) : CtlIs w b :=
  have hB (f : Fld) (hk : f ∈ cycleKeptFlds) (hf : f.RingCtl) : b.rgB f = a.rgB f := rgB_of_rg (h f hk hf)
  ⟨(hB _ (by decide) ⟨rfl, by decide⟩).trans c.porten, (hB _ (by decide) ⟨rfl, by decide⟩).trans c.cmaster,
    (hB _ (by decide) ⟨rfl, by decide⟩).trans c.wrapen, (hB _ (by decide) ⟨rfl, by decide⟩).trans c.llforce⟩

theorem ctlWritten_is : CtlIs w (h.ctlWritten w) := by
  have bit (d : Domain) (f : Fld) (i : Nat) (hf : f.hi < 32) (hw : f.width = 1) : (d.set f (fget w i i)).rgB f = bitOf w i :=
    d.rgB_set_bit f w i hf hw
  refine ⟨bit _ _ 0 (by decide) rfl, ?_, ?_, ?_⟩
  all_goals unfold ctlWritten set rgB
  · rw [Domain.rgB_set_apart _ _ _ _ (by decide) (by decide)]
    exact bit _ _ 2 (by decide) rfl
  · rw [Domain.rgB_set_apart _ _ _ _ (by decide) (by decide), Domain.rgB_set_apart _ _ _ _ (by decide) (by decide)]
    exact bit _ _ 3 (by decide) rfl
  · rw [Domain.rgB_set_apart _ _ _ _ (by decide) (by decide), Domain.rgB_set_apart _ _ _ _ (by decide) (by decide),
      Domain.rgB_set_apart _ _ _ _ (by decide) (by decide)]
    exact bit _ _ 4 (by decide) rfl

/-! ## Ports enabled -/

/-- The host domain with its ports started: no cycle has been missed. -/
def started : HostDom := h.setRing fun r => { r with seen := true, missed := 0 }

/-- The host domain of a master started: ring time begins at 0, and is valid from now on. -/
def masterStarted : HostDom :=
  let h := h.started.setRing fun r => { r with t2 := 0, trim := none }
  if h.rgB RING_STAT_RTVALID then h else (h.setB RING_STAT_RTVALID true).raise 0x14 1

theorem masterStarted_rg_ctl {f : Fld} (hf : f.RingCtl) : h.masterStarted.rg f = h.rg f := by
  unfold masterStarted
  dsimp only
  split
  · rfl
  · rw [raise_rg _ hf.quiet _ _ (by decide)]
    exact h.dom.rg_set_apart _ f _ hf.hi (.inl (by rw [hf.reg]; decide))

theorem masterStarted_rtvalid : h.masterStarted.rgB RING_STAT_RTVALID = true := by
  unfold masterStarted
  dsimp only
  split
  · assumption
  · rw [rgB_of_rg (raise_rg _ (by decide) _ _ (by decide))]
    exact h.dom.rgB_setB_same _ _ (by decide) rfl

theorem masterStarted_t2 : h.masterStarted.ring.t2 = 0 := by
  unfold masterStarted
  dsimp only
  split <;> rfl

theorem masterStarted_touched : h.dom.RingTouched h.masterStarted.dom := by
  unfold masterStarted
  dsimp only
  split
  · exact .refl _
  · exact ((Domain.RingTouched.refl _).setB _ _).raise _ _

/-! ## Ports disabled -/

/-- The host domain with both links down and its ports as after reset. -/
def linksDown : HostDom := ((h.setLink .a 0).setLink .b 0).setRing fun r => { r with a := .reset, b := .reset }

/-- The host domain with both links down, its ports as after reset and no wrap. -/
def disabled : HostDom := (h.linksDown.setWrap .a false).setWrap .b false

theorem linksDown_touched : h.dom.RingTouched h.linksDown.dom := (h.setLink_touched .a 0).trans (setLink_touched _ .b 0)

theorem linksDown_rg_ctl {f : Fld} (hf : f.RingCtl) : h.linksDown.rg f = h.rg f :=
  (setLink_rg_ctl _ .b 0 hf).trans (h.setLink_rg_ctl .a 0 hf)

theorem linksDown_link (p : Port) : h.linksDown.rgN (linkFld p) = 0 := by
  cases p with
  | a => exact (rgN_of_rg (setLink_rg _ .b 0 (by decide) (by decide))).trans (h.setLink_rgN .a (by decide))
  | b => exact (h.setLink .a 0).setLink_rgN .b (by decide)

theorem disabled_touched : h.dom.RingTouched h.disabled.dom :=
  (h.linksDown_touched.trans (setWrap_touched _ .a false)).trans (setWrap_touched _ .b false)

theorem disabled_rg_ctl {f : Fld} (hf : f.RingCtl) : h.disabled.rg f = h.rg f :=
  ((setWrap_rg_ctl _ .b false hf).trans (setWrap_rg_ctl _ .a false hf)).trans (h.linksDown_rg_ctl hf)

theorem disabled_link (p : Port) : h.disabled.rgN (linkFld p) = 0 :=
  (rgN_of_rg ((setWrap_rg_link _ .b false p).trans (setWrap_rg_link _ .a false p))).trans (h.linksDown_link p)

theorem disabled_ports : h.disabled.ring.a = .reset ∧ h.disabled.ring.b = .reset := by
  simp [disabled, linksDown, setRing]

/-! ## The write -/

variable {h w}

theorem writeCtl_enable_master (hw : bitOf w 0 = true) (he : h.enabled = false) (hm : bitOf w 2 = true) :
    h.writeCtl w = (h.ctlWritten w).masterStarted.cycleBegin := by
  simp only [writeCtl, hw, he, hm, Bool.not_false, Bool.and_true, if_true]
  rfl

theorem writeCtl_enable (hw : bitOf w 0 = true) (he : h.enabled = false) (hm : bitOf w 2 = false) :
    h.writeCtl w = (h.ctlWritten w).started := by
  simp [writeCtl, hw, he, hm, ctlWritten, started]

theorem writeCtl_disable (hw : bitOf w 0 = false) (he : h.enabled = true) : h.writeCtl w = (h.ctlWritten w).disabled := by
  simp [writeCtl, hw, he, ctlWritten, disabled, linksDown]

theorem writeCtl_same (he : h.enabled = bitOf w 0) : h.writeCtl w = h.ctlWritten w := by
  simp [writeCtl, he, ctlWritten]

/-- What a write of RING_CTL makes of the host domain. -/
structure CtlWrite (h : HostDom) (w : Word) (x : HostDom) : Prop where
  touched : h.dom.RingTouched x.dom
  ctl : CtlIs w x
  master : bitOf w 0 = true → h.enabled = false → bitOf w 2 = true → x.ring.t2 = 0 ∧ x.rgB RING_STAT_RTVALID = true
  disable : bitOf w 0 = false → h.enabled = true →
    (∀ p, x.rgN (linkFld p) = 0) ∧ x.ring.a = .reset ∧ x.ring.b = .reset
  same : h.enabled = bitOf w 0 → x.ring = h.ring

variable (h w)

theorem writeCtl_write : CtlWrite h w (h.writeCtl w) := by
  have hc := h.ctlWritten_is w
  have ht := h.ctlWritten_touched w
  cases hw : bitOf w 0 <;> cases he : h.enabled
  case false.false =>
    rw [writeCtl_same (he.trans hw.symm)]
    exact ⟨ht, hc, by simp [hw], by simp [he], fun _ => rfl⟩
  case true.true =>
    rw [writeCtl_same (he.trans hw.symm)]
    exact ⟨ht, hc, by simp [he], by simp [hw], fun _ => rfl⟩
  case false.true =>
    rw [writeCtl_disable hw he]
    exact ⟨ht.trans (disabled_touched _), hc.of_rg fun _ _ hf => disabled_rg_ctl _ hf, by simp [hw],
      fun _ _ => ⟨disabled_link _, disabled_ports _⟩, by simp [hw, he]⟩
  case true.false =>
    cases hm : bitOf w 2
    case false =>
      rw [writeCtl_enable hw he hm]
      exact ⟨ht, hc.of_rg fun _ _ _ => rfl, by simp [hm], by simp [hw], by simp [hw, he]⟩
    case true =>
      have hs : CtlIs w (h.ctlWritten w).masterStarted := hc.of_rg fun _ _ hf => masterStarted_rg_ctl _ hf
      have hk := (CycleKept.refl (h.ctlWritten w).masterStarted).cycleBegin (hs.cmaster.trans hm)
      rw [writeCtl_enable_master hw he hm]
      exact ⟨(ht.trans (masterStarted_touched _)).trans hk.parts, hs.of_rg fun f hf _ => hk.rg f hf,
        fun _ _ _ => ⟨hk.t2.trans (masterStarted_t2 _), (hk.rgB (by decide)).trans (masterStarted_rtvalid _)⟩,
        by simp [hw], by simp [hw, he]⟩

end HostDom

theorem State.portEnable_answers {s : State} (w : Word) (hu : s.host.dom.inReset = false) :
    HostAnswers (.portEnable w) s fun y =>
      y.dom.rgB RING_CTL_PORTEN = bitOf w 0 ∧ y.dom.rgB RING_CTL_CMASTER = bitOf w 2 ∧
      y.dom.rgB RING_CTL_WRAPEN = bitOf w 3 ∧ y.dom.rgB RING_CTL_LLFORCE = bitOf w 4 ∧
      (bitOf w 0 = true → s.host.dom.rgB RING_CTL_PORTEN = false → bitOf w 2 = true →
        y.ring.t2 = 0 ∧ y.dom.rgB RING_STAT_RTVALID = true) ∧
      (bitOf w 0 = false → s.host.dom.rgB RING_CTL_PORTEN = true →
        y.dom.rgN RING_STAT_LINKA = 0 ∧ y.dom.rgN RING_STAT_LINKB = 0 ∧ (y.ring.a.fwd = [] ∧ y.ring.a.out = []) ∧
          (y.ring.b.fwd = [] ∧ y.ring.b.out = [])) ∧
      (s.host.dom.rgB RING_CTL_PORTEN = bitOf w 0 → y.ring = s.host.ring) := by
  obtain ⟨htouch, ⟨hporten, hcmaster, hwrapen, hllforce⟩, hmaster, hdisable, hsame⟩ := s.host.writeCtl_write w
  refine .of (f := (·.writeCtl w)) rfl hu htouch fun y hy => ?_
  rw [hy.ring]
  refine ⟨(hy.rgB _ (by decide)).trans hporten, (hy.rgB _ (by decide)).trans hcmaster, (hy.rgB _ (by decide)).trans hwrapen,
    (hy.rgB _ (by decide)).trans hllforce, fun hw he hm => ?_, fun hw he => ?_, hsame⟩
  · obtain ⟨ht2, hvalid⟩ := hmaster hw he hm
    exact ⟨ht2, (hy.rgB _ (by decide)).trans hvalid⟩
  · obtain ⟨hlink, hpa, hpb⟩ := hdisable hw he
    rw [hpa, hpb]
    exact ⟨(hy.rgN _ (linkFld_quiet .a)).trans (hlink .a), (hy.rgN _ (linkFld_quiet .b)).trans (hlink .b),
      ⟨rfl, rfl⟩, rfl, rfl⟩

/-- Settles O42, command by command. -/
theorem ringPortsAndLinks : Obligations.RingPortsAndLinks :=
  fun s _ w =>
    ⟨fun hu => ⟨s.portEnable_answers w hu,
      fun he => ⟨s.linkAlign_answers hu he, s.linkUp_answers hu he, s.linkDown_answers hu he⟩,
      fun hw hl ht hf hr => s.unwrap_answers hu hw hl ht hf hr⟩,
    fun hb => s.bypassChange_answers hb,
    fun hb => ⟨s, congrArg _ (State.bypassChange_same hb), rfl⟩⟩

end Sys2Proof.Machine
end

section
/-! PROOF. What a command that changes one domain answers, for a channel's domain and for the host's alike (R42, R106). -/

namespace Sys2Proof.Machine

/-- Once settled, a change of the host domain is that change up to what is counted, and the channels learn of the link only. -/
theorem State.onHost_counted (s : State) (f : HostDom → HostDom) (h : s.host.dom.inReset = false) :
    CountedHost (f s.host) (s.onHost f).host ∧ (∀ n, CountedCh (s.ch n) ((s.onHost f).ch n)) ∧
      (s.onHost f).dev = s.dev ∧ (s.onHost f).pending = s.pending := by
  obtain ⟨hch, hhost, hdev, hpend⟩ := settleLinks allChans { s with host := s.host.settleSignals (f s.host) }
  have ht : s.onHost f = allChans.foldl settleLink { s with host := s.host.settleSignals (f s.host) } := by
    rw [onHost, h]
    rfl
  rw [ht]
  refine ⟨?_, fun n => ?_, hdev, hpend⟩
  · rw [hhost]
    exact s.host.settleSignals_countedHost _
  · have hn := hch n
    rwa [mk_ch] at hn

/-- A change of a domain that is not held in reset: the domain as changed, up to what is counted, and nothing outside it. -/
theorem State.onDom_frame (s : State) (d : Dom) (f : Domain → Domain) (h : (s.dom d).inReset = false) :
    Counted (f (s.dom d)) ((s.onDom d f).dom d) ∧ DomFrame s (s.onDom d f) d := by
  cases d with
  | ch n =>
    have hs := s.onCh_settled n (·.mapDom f) h
    obtain ⟨r, p, q, m, y, hh⟩ := hs.parts
    refine ⟨hs.ch.dom, fun x hx => ?_, fun m => ?_, hs.ring, hs.upd, hs.dev, hs.pending⟩
    · cases x with
      | ch m =>
        have hm : (s.onCh n (·.mapDom f)).ch m = s.ch m := hs.other m fun e => hx (by rw [e])
        exact ⟨congrArg (·.dom.mem) hm, fun e => congrArg (·.dom.core e) hm⟩
      | host =>
        have hx : (s.onDom (.ch n) f).dom .host = _ := hh
        rw [hx]
        refine ⟨rfl, fun e => ?_⟩
        rw [State.core, hx]
        cases e <;> rfl
    · by_cases hm : m = n
      · subst hm
        exact hs.ch.rest
      · have hx : (s.onDom (.ch n) f).ch m = s.ch m := hs.other m hm
        rw [hx]
  | host =>
    obtain ⟨hhost, hch, hdev, hpend⟩ := s.onHost_counted (fun h => { h with dom := f h.dom }) h
    refine ⟨hhost.dom, fun x hx => ?_, fun n => (hch n).rest, hhost.ring, ?_, hdev, hpend⟩
    · cases x with
      | ch m => exact ⟨(hch m).dom.mem, (hch m).dom.core⟩
      | host => exact absurd rfl hx
    · have hx : (s.onDom .host f).host = _ := hhost.rest
      rw [hx]

/-- A command that is a change of its domain answers with whatever holds of every domain that counts as the changed one. -/
theorem DomAnswers.of {i : Instr} {s : State} {d : Dom} {f : Domain → Domain} {P : Domain → Prop}
    (hi : exec i s = .next (s.onDom d f)) (hu : (s.dom d).inReset = false) (hp : ∀ y, Counted (f (s.dom d)) y → P y) :
    DomAnswers i s d P :=
  have ⟨hc, hf⟩ := s.onDom_frame d f hu
  ⟨_, hi, hp _ hc, hf⟩

/-- An event that waits goes on waiting while things are counted. -/
theorem Counted.waits {x a b : Domain} {ev arg : Nat} (h : Counted a b) (hw : Waits x a ev arg) : Waits x b ev arg :=
  (EccNoted.of_counted h).waits hw

end Sys2Proof.Machine
end

section
/-! PROOF. The flags of PLL_STAT, and what each command of the reference and of a change of VCO makes of them (R93 to R104). -/

namespace Sys2Proof.Machine

namespace Domain
variable (d : Domain)

/-! ## PLL events and the loop -/

@[simp] theorem rg_setPll (f : Pll → Pll) (g : Fld) : (d.setPll f).rg g = d.rg g := rfl
@[simp] theorem rgB_setPll (f : Pll → Pll) (g : Fld) : (d.setPll f).rgB g = d.rgB g := rfl
@[simp] theorem rgN_setPll (f : Pll → Pll) (g : Fld) : (d.setPll f).rgN g = d.rgN g := rfl

theorem pllEvent_counted (ev : Nat) (h : ev < 128) : Counted d (d.pllEvent ev) := by
  unfold pllEvent
  split
  · exact .refl d
  · exact .raise d ev 0 h

theorem rgB_pllEvent (ev : Nat) (f : Fld) (hf : f.quiet) (h : ev < 128) : (d.pllEvent ev).rgB f = d.rgB f :=
  (d.pllEvent_counted ev h).rgB f hf

@[simp] theorem pllEvent_pll (ev : Nat) : (d.pllEvent ev).pll = d.pll := by
  unfold pllEvent
  split
  · rfl
  · exact d.raise_pll ev 0

variable {d}

@[simp] theorem host_setB (d : Domain) (f : Fld) (b : Bool) : (d.setB f b).host = d.host := rfl
@[simp] theorem hasRoom_setB (d : Domain) (f : Fld) (b : Bool) (ev : Nat) : HasRoom (d.setB f b) ev ↔ HasRoom d ev := .rfl

/-- A PLL event with room waits, except in the host domain, which raises none (R106). -/
theorem pllEvent_waits {x : Domain} {ev : Nat} (hh : d.host = false) (hr : HasRoom d ev) (ht : d.time = x.time) :
    Waits x (d.pllEvent ev) ev 0 := by
  rw [pllEvent, hh]
  exact .raise d x ev 0 hr ht

/-! ## The reference (R93, R95) -/

/-- A locked PLL on its VCO loses its reference: holdover begins unless HOLD_MAX = 0. -/
theorem referenceLost_locked (hr : d.rgB PLL_STAT_REF_OK = true) (hl : d.rgB PLL_STAT_LOCK = true)
    (hc : d.rgB PLL_STAT_RC = false) :
    d.referenceLost = (if d.rgN PLL_CLKMON_HOLD_MAX = 0 then d.setB PLL_STAT_REF_OK false
      else (d.setB PLL_STAT_REF_OK false).setB PLL_STAT_HOLD true).pllEvent 0x7B := by
  have hn : (d.setB PLL_STAT_REF_OK false).rgN PLL_CLKMON_HOLD_MAX = d.rgN PLL_CLKMON_HOLD_MAX :=
    congrArg BitVec.toNat (d.rg_set_reg _ _ _ (by decide))
  simp (disch := decide) only [referenceLost, hr, rgB_setB_apart, hl, hc, hn, if_true, Bool.not_false, Bool.and_self]

/-- Out of lock, or on the RC oscillator, only REF_OK falls (R95). -/
theorem referenceLost_unlocked (h : d.rgB PLL_STAT_LOCK = false ∨ d.rgB PLL_STAT_RC = true) :
    d.referenceLost = if d.rgB PLL_STAT_REF_OK then d.setB PLL_STAT_REF_OK false else d := by
  have hc : (d.rgB PLL_STAT_LOCK && !d.rgB PLL_STAT_RC) = false := by
    rcases h with h | h <;> simp [h]
  simp (disch := decide) only [referenceLost, rgB_setB_apart, hc]
  rfl

/-- REF_OK falls, whatever else the loss of the reference does. -/
theorem referenceLost_refOk (d : Domain) : d.referenceLost.rgB PLL_STAT_REF_OK = false := by
  cases hr : d.rgB PLL_STAT_REF_OK
  case false => simp [referenceLost, hr]
  case true =>
    unfold referenceLost
    rw [if_pos hr]
    extract_lets x
    have hx : x.rgB PLL_STAT_REF_OK = false := d.rgB_setB_same _ _ (by decide) rfl
    split
    · rw [rgB_pllEvent _ _ _ (by decide) (by decide)]
      split
      · exact hx
      · exact (x.rgB_setB_apart _ _ _ (by decide) (by decide)).trans hx
    · exact hx

@[simp] theorem referenceGood_pll (d : Domain) : d.referenceGood.pll = d.pll := rfl
@[simp] theorem referenceGood_mem (d : Domain) : d.referenceGood.mem = d.mem := rfl

theorem referenceGood_rgB (d : Domain) :
    d.referenceGood.rgB PLL_STAT_REF_OK = true ∧ d.referenceGood.rgB PLL_STAT_HOLD = false := by
  simp (disch := decide) only [referenceGood, rgB_setB_apart, rgB_setB_same, and_self]

/-! ## The fallback (R96) -/

/-- CCLK is on the RC oscillator by fallback: no holdover and no search goes on. -/
def FallenBack (y : Domain) : Prop :=
  y.rgB PLL_STAT_RC = true ∧ y.rgB PLL_STAT_HOLD = false ∧ y.pll.fallback = true ∧ y.pll.searches = []

theorem fallBack_fallenBack (d : Domain) : d.fallBack.FallenBack := by
  refine ⟨?_, ?_, ?_, ?_⟩
  · simp (disch := decide) only [fallBack, rgB_pllEvent, rgB_setPll, rgB_setB_apart, rgB_setB_same]
  · simp (disch := decide) only [fallBack, rgB_pllEvent, rgB_setPll, rgB_setB_same]
  · simp [fallBack]
  · simp [fallBack]

/-- What a trip may touch of a domain: the trip register, the carries, events. -/
structure Tripped (a b : Domain) : Prop where
  pll : b.pll = a.pll
  rg : ∀ f : Fld, f.quiet → f.reg < 0x50104 ∨ 0x50198 ≤ f.reg → b.rg f = a.rg f

theorem Tripped.refl (a : Domain) : a.Tripped a := ⟨rfl, fun _ _ _ => rfl⟩

section
variable {a b : Domain} (h : a.Tripped b)
include h

theorem Tripped.set (f : Fld) (v : Word) (hf : 0x50104 ≤ f.reg) (hf' : f.reg < 0x50198) : a.Tripped (b.set f v) :=
  ⟨h.pll, fun g hg hr => (b.rg_set_reg f g v (by omega)).trans (h.rg g hg hr)⟩

theorem Tripped.setB (f : Fld) (v : Bool) (hf : 0x50104 ≤ f.reg) (hf' : f.reg < 0x50198) : a.Tripped (b.setB f v) :=
  ⟨h.pll, fun g hg hr => (b.rg_set_reg f g _ (by omega)).trans (h.rg g hg hr)⟩

theorem Tripped.raise (ev arg : Nat) (he : ev < 128) : a.Tripped (b.raise ev arg) :=
  ⟨(b.raise_pll ev arg).trans h.pll, fun g hg hr => ((Counted.raise b ev arg he).rg g hg).trans (h.rg g hg hr)⟩

theorem FallenBack.tripped (ha : a.FallenBack) : b.FallenBack := by
  obtain ⟨hrc, hhold, hfall, hsearch⟩ := ha
  exact ⟨(congrArg (· != 0) (h.rg PLL_STAT_RC (by decide) (by decide))).trans hrc,
    (congrArg (· != 0) (h.rg PLL_STAT_HOLD (by decide) (by decide))).trans hhold, by rw [h.pll, hfall], by rw [h.pll, hsearch]⟩
end

theorem FallenBack.counted {a b : Domain} (ha : a.FallenBack) (h : Counted a b) : b.FallenBack :=
  ha.tripped ⟨h.pll, fun f hf _ => h.rg f hf⟩

end Domain

namespace Channel
variable (c : Channel)

theorem cancelRises_dom : c.cancelRises.dom = c.dom := rfl

theorem foldl_dropLeg_dom (l : List Nat) : (l.foldl dropLeg c).dom = c.dom := by
  induction l generalizing c with
  | nil => rfl
  | cons k l ih => exact ih _

theorem foldl_clearCarry_dom (l : List Nat) :
    (l.foldl clearCarry c).dom = l.foldl (fun d k => d.set (PWM_CARRY_C k) 0) c.dom := by
  induction l generalizing c with
  | nil => rfl
  | cons k l ih => exact ih _

/-- Of the domain, dropping the legs clears the carries. -/
theorem dropLegs_dom : c.dropLegs.dom = (List.range 6).foldl (fun d k => d.set (PWM_CARRY_C k) 0) c.dom := by
  unfold dropLegs clearCarries
  generalize List.range 6 = l
  exact (foldl_clearCarry_dom _ l).trans (by rw [foldl_dropLeg_dom])

/-- What holds of a domain and of every domain with a carry cleared holds once the legs have been dropped. -/
theorem dropLegs_dom_of {P : Domain → Prop} (h : P c.dom) (hs : ∀ d k, P d → k < 6 → P (d.set (PWM_CARRY_C k) 0)) :
    P c.dropLegs.dom := by
  rw [dropLegs_dom]
  exact List.foldlRecOn _ _ h fun d hd k hk => hs d k hd (List.mem_range.1 hk)

theorem trip_tripped (src : Nat) : c.dom.Tripped (c.trip src).dom := by
  unfold trip
  extract_lets p x act y z q w
  have hx : c.dom.Tripped x.dom := .refl _
  split
  · exact hx.set _ _ (by decide) (by decide)
  · rw [cancelRises_dom]
    refine dropLegs_dom_of _ (P := c.dom.Tripped) ?_ fun d k hd hk => hd.set _ _ (by simp only; omega) (by simp only; omega)
    have hy : c.dom.Tripped y.dom := (hx.setB _ _ (by decide) (by decide)).set _ _ (by decide) (by decide)
    have hz : c.dom.Tripped z.dom := hy.set _ _ (by decide) (by decide)
    exact hz.raise _ _ (by decide)

theorem trip_latch (src : Nat) : (c.trip src).rgB PWM_TRIP_LATCH = true := by
  unfold trip
  extract_lets p x act y z q w
  split
  · next h =>
    exact (Domain.rgB_set_apart x.dom _ _ _ (by decide) (by decide)).trans h
  · show (w.raise 0 act.toNat).dropLegs.cancelRises.dom.rgB PWM_TRIP_LATCH = true
    rw [cancelRises_dom]
    refine dropLegs_dom_of _ (P := fun d => d.rgB PWM_TRIP_LATCH = true) ?_ fun d k hd hk =>
      (d.rgB_set_apart _ _ _ (by decide) (.inl (by simp only; omega))).trans hd
    have hb : (x.setB PWM_TRIP_LATCH true).dom.rgB PWM_TRIP_LATCH = true := x.dom.rgB_setB_same _ _ (by decide) rfl
    have hy : y.dom.rgB PWM_TRIP_LATCH = true := (Domain.rgB_set_apart _ _ _ _ (by decide) (by decide)).trans hb
    have hz : z.dom.rgB PWM_TRIP_LATCH = true := (Domain.rgB_setN_apart _ _ _ _ (by decide) (by decide)).trans hy
    exact ((Counted.raise w.dom _ _ (by decide)).rgB _ (by decide)).trans hz

theorem fallBack_fallenBack : c.fallBack.dom.FallenBack :=
  .tripped ((c.mapDom Domain.fallBack).trip_tripped 8192) c.dom.fallBack_fallenBack

end Channel

theorem DomFrame.pwm {s t : State} {d : Dom} (h : DomFrame s t d) (n : Chan) : (t.ch n).pwm = (s.ch n).pwm := by
  rw [h.blocks n]

/-- Domain d of s has fallen back in t: CCLK is on the RC oscillator, a channel has tripped, and nothing else of the device has
changed but what is counted. -/
def State.FellBack (s : State) (d : Dom) (t : State) : Prop :=
  (t.dom d).FallenBack ∧ t.dev = s.dev ∧ t.pending = s.pending ∧
    ∀ n, (d = .ch n → (t.ch n).rgB PWM_TRIP_LATCH = true) ∧ (d ≠ .ch n → (t.ch n).pwm = (s.ch n).pwm)

theorem State.fallBack_fellBack {s : State} {d : Dom} (h : (s.dom d).inReset = false) : s.FellBack d (s.fallBack d) := by
  cases d with
  | ch n =>
    have hs := s.onCh_settled n Channel.fallBack h
    refine ⟨(s.ch n).fallBack_fallenBack.counted hs.ch.dom, hs.dev, hs.pending, fun m => ⟨?_, fun hm => ?_⟩⟩
    · rintro ⟨rfl⟩
      exact (hs.ch.rgB _ (by decide)).trans (Channel.trip_latch _ _)
    · exact congrArg Channel.pwm (hs.other m fun e => hm (by rw [e]))
  | host =>
    obtain ⟨hc, hf⟩ := s.onDom_frame .host Domain.fallBack h
    exact ⟨s.host.dom.fallBack_fallenBack.counted hc, hf.dev, hf.pending, fun n =>
      ⟨nofun, fun _ => hf.pwm n⟩⟩

end Sys2Proof.Machine
end

section
/-! PROOF. Loss of the reference, holdover and fallback, the change of VCO and SYNC, as the commands answer (R93 to R104). -/

namespace Sys2Proof.Machine

namespace Domain
variable {d : Domain}

/-! ## The change of VCO (R102) and SYNC (R104) -/

/-- The stored band of the VCO that does not drive CCLK. -/
def idleBand (d : Domain) : BitVec 6 := (d.rg (PLL_HOP_BAND (if d.vcoSel then 0 else 1))).setWidth 6

theorem autoSwitch_begins (ha : d.rgB PLL_CTL_SPARE_AUTO = true) (hl : d.rgB PLL_STAT_LOCK = false)
    (hr : d.rgB PLL_STAT_REF_OK = true) (hc : d.rgB PLL_STAT_RC = false) (hs : d.pll.switching = false)
    (hv : d.vcoRetired (!d.vcoSel) = false) :
    d.autoSwitch.mem = d.mem ∧ d.autoSwitch.pll = { d.pll with
      switching := true, hop := none, band0 := if d.vcoSel then d.idleBand else d.pll.band0
      band1 := if d.vcoSel then d.pll.band1 else d.idleBand } := by
  have hgo : d.autoSwitch = d.beginSwitch none := by
    simp only [autoSwitch, ha, hl, hr, hc, hs, hv, Bool.not_false, Bool.and_self, if_true]
  rw [hgo]
  refine ⟨rfl, ?_⟩
  cases hsel : d.vcoSel <;> simp [beginSwitch, setBand, setPll, idleBand, entryOf, hsel]

theorem switchDone_locked (hs : d.pll.switching = true) :
    (d.switchDone true).rgB PLL_STAT_VCO_SEL = !d.vcoSel ∧ (d.switchDone true).rgB PLL_STAT_LOCK = true ∧
      (d.vcoSel = false → (d.switchDone true).rgB PLL_STAT_SPARE_FAIL = false) ∧
      (d.switchDone true).pll.switching = false := by
  cases hsel : d.vcoSel <;>
  simp (disch := decide) [switchDone, hs, hsel, rgB_setB_apart, rgB_setB_same, rgB_setN_apart]

theorem switchDone_failed (hs : d.pll.switching = true) :
    (d.switchDone false).rgB PLL_STAT_SPARE_FAIL = (if d.vcoSel then d.rgB PLL_STAT_SPARE_FAIL else true) ∧
      (d.switchDone false).rgB PLL_STAT_VCO_SEL = d.vcoSel ∧
      (d.switchDone false).rgB PLL_STAT_LOCK = d.rgB PLL_STAT_LOCK ∧ (d.switchDone false).pll.switching = false := by
  have hv : d.rgB PLL_STAT_VCO_SEL = d.vcoSel := rfl
  cases hsel : d.vcoSel <;>
  simp (disch := decide) [switchDone, hs, hsel, hv, rgB_setB_apart, rgB_setB_same]

/-- A SYNC edge starts an alignment (R104). -/
def aligns (d : Domain) : Bool :=
  d.rgB PLL_CTL_SYNC_EN && decide (d.pll.nfrac = 0) && !d.rgB PLL_STAT_SSC_ON && d.rgB PLL_STAT_LOCK && !d.pll.aligning

theorem syncEdge_aligning (h : d.aligns = true) : d.syncEdge.pll = { d.pll with aligning := true } ∧
    d.syncEdge.rgB PLL_STAT_SYNC_IGN = d.rgB PLL_STAT_SYNC_IGN := by
  have hs : d.syncEdge = d.setPll fun p => { p with aligning := true } := if_pos h
  rw [hs]
  exact ⟨rfl, rfl⟩

theorem syncEdge_ignored (h : d.aligns = false) :
    d.syncEdge.rgB PLL_STAT_SYNC_IGN = true ∧ d.syncEdge.pll = d.pll := by
  have hs : d.syncEdge = d.setB PLL_STAT_SYNC_IGN true := if_neg (Bool.eq_false_iff.1 h)
  rw [hs]
  exact ⟨d.rgB_setB_same _ _ (by decide) rfl, rfl⟩

end Domain

section
variable {s : State} {d : Dom} (hu : (s.dom d).inReset = false)
include hu

/-! ## The reference and the fallback -/

theorem referenceLost_holdover_answers (hr : (s.dom d).rgB PLL_STAT_REF_OK = true) (hl : (s.dom d).rgB PLL_STAT_LOCK = true)
    (hc : (s.dom d).rgB PLL_STAT_RC = false) (hm : (s.dom d).rgN PLL_CLKMON_HOLD_MAX ≠ 0) :
    DomAnswers (.referenceLost d) s d fun y => y.rgB PLL_STAT_REF_OK = false ∧ y.rgB PLL_STAT_HOLD = true ∧
      ((s.dom d).host = false → HasRoom (s.dom d) 0x7B → Waits (s.dom d) y 0x7B 0) := by
  have hx : exec (.referenceLost d) s = .next (s.onDom d Domain.referenceLost) := by
    have hf : (s.dom d).lossFallsBack = false := by simp [Domain.lossFallsBack, hm]
    show Host.Outcome.next (s.referenceLost d) = _
    rw [State.referenceLost, hf]
    rfl
  refine .of hx hu fun y hy => ⟨?_, ?_, fun hh hroom => hy.waits ?_⟩
  · exact (hy.rgB _ (by decide)).trans (Domain.referenceLost_refOk _)
  · rw [hy.rgB _ (by decide), Domain.referenceLost_locked hr hl hc, if_neg hm]
    simp (disch := decide) only [Domain.rgB_pllEvent, Domain.rgB_setB_same]
  · rw [Domain.referenceLost_locked hr hl hc, if_neg hm]
    exact Domain.pllEvent_waits (by simpa using hh) (by simpa using hroom) (by simp)

theorem referenceLost_unlocked_answers (h : (s.dom d).rgB PLL_STAT_LOCK = false ∨ (s.dom d).rgB PLL_STAT_RC = true) :
    DomAnswers (.referenceLost d) s d fun y => y.rgB PLL_STAT_REF_OK = false ∧
      y.rgB PLL_STAT_HOLD = (s.dom d).rgB PLL_STAT_HOLD ∧ y.pll = (s.dom d).pll := by
  have hx : exec (.referenceLost d) s = .next (s.onDom d Domain.referenceLost) := by
    have hf : (s.dom d).lossFallsBack = false := by
      rcases h with h | h <;> simp [Domain.lossFallsBack, h]
    show Host.Outcome.next (s.referenceLost d) = _
    rw [State.referenceLost, hf]
    rfl
  refine .of hx hu fun y hy => ⟨(hy.rgB _ (by decide)).trans (Domain.referenceLost_refOk _), ?_, ?_⟩
  · rw [hy.rgB _ (by decide), Domain.referenceLost_unlocked h]
    split
    · exact Domain.rgB_setB_apart _ _ _ _ (by decide) (by decide)
    · rfl
  · rw [hy.pll, Domain.referenceLost_unlocked h]
    split <;> rfl

/-- With HOLD_MAX = 0 the fallback follows at once (R95, R96). -/
theorem referenceLost_fellBack (hr : (s.dom d).rgB PLL_STAT_REF_OK = true) (hl : (s.dom d).rgB PLL_STAT_LOCK = true)
    (hc : (s.dom d).rgB PLL_STAT_RC = false) (hm : (s.dom d).rgN PLL_CLKMON_HOLD_MAX = 0) :
    Answers (.referenceLost d) s (s.FellBack d) := by
  obtain ⟨hdom, hframe⟩ := s.onDom_frame d Domain.referenceLost hu
  have hup : ((s.onDom d Domain.referenceLost).dom d).inReset = false := by
    rw [hdom.inReset, Domain.referenceLost_locked hr hl hc, if_pos hm, (Domain.pllEvent_counted _ _ (by decide)).inReset]
    exact hu
  obtain ⟨hfall, hdev, hpend, hch⟩ := State.fallBack_fellBack hup
  refine ⟨(s.onDom d Domain.referenceLost).fallBack d, ?_, hfall, hdev.trans hframe.dev, hpend.trans hframe.pending, fun n =>
    ⟨(hch n).1, fun hn => ((hch n).2 hn).trans (hframe.pwm n)⟩⟩
  have hf : (s.dom d).lossFallsBack = true := by simp [Domain.lossFallsBack, hr, hl, hc, hm]
  show Host.Outcome.next (s.referenceLost d) = _
  rw [State.referenceLost, hf]
  rfl

theorem referenceGood_answers : DomAnswers (.referenceGood d) s d fun y => y.rgB PLL_STAT_REF_OK = true ∧
    y.rgB PLL_STAT_HOLD = false ∧ y.pll = (s.dom d).pll ∧ y.mem = (s.dom d).mem := by
  obtain ⟨href, hhold⟩ := (s.dom d).referenceGood_rgB
  exact .of rfl hu fun y hy => ⟨(hy.rgB _ (by decide)).trans href, (hy.rgB _ (by decide)).trans hhold,
    hy.pll.trans (s.dom d).referenceGood_pll, hy.mem.trans (s.dom d).referenceGood_mem⟩

/-- A command that lets its domain fall back where a condition holds. -/
theorem fellBack_of_when {i : Instr} {p : Bool} (hi : exec i s = .next (s.when p (·.fallBack d))) (hp : p = true) :
    Answers i s (s.FellBack d) := by
  subst hp
  exact ⟨_, hi, State.fallBack_fellBack hu⟩

end

theorem exec_holdoverExpiry (d : Dom) (s : State) :
    exec (.holdoverExpiry d) s = .next (s.when ((s.dom d).rgB PLL_STAT_HOLD) (·.fallBack d)) := rfl

theorem exec_rcFallbackSwitch (d : Dom) (s : State) :
    exec (.rcFallbackSwitch d) s = .next (s.when (s.dom d).bothVcosFailed (·.fallBack d)) := rfl

/-- Settles O19, command by command. -/
theorem referenceFallbackAndSync : Obligations.ReferenceFallbackAndSync := by
  refine ⟨fun s d hu => ?_, fun s d hu => ?_, fun s c hu => ?_⟩
  · exact ⟨referenceLost_holdover_answers hu, referenceLost_fellBack hu, referenceLost_unlocked_answers hu,
      referenceGood_answers hu, fellBack_of_when hu (exec_holdoverExpiry d s), fellBack_of_when hu (exec_rcFallbackSwitch d s)⟩
  · refine ⟨fun ha hl hr hc hs hv => ?_, fun hs => ⟨?_, ?_⟩⟩
    · obtain ⟨hmem, hpll⟩ := Domain.autoSwitch_begins ha hl hr hc hs hv
      exact .of rfl hu fun y hy => ⟨hy.pll.trans hpll, hy.mem.trans hmem⟩
    · obtain ⟨hsel, hlock, hfail, hsw⟩ := Domain.switchDone_locked hs
      exact .of rfl hu fun y hy => ⟨(hy.rgB _ (by decide)).trans hsel, (hy.rgB _ (by decide)).trans hlock, fun hv =>
        (hy.rgB _ (by decide)).trans (hfail hv), (congrArg Pll.switching hy.pll).trans hsw⟩
    · obtain ⟨hfail, hsel, hlock, hsw⟩ := Domain.switchDone_failed hs
      exact .of rfl hu fun y hy => ⟨(hy.rgB _ (by decide)).trans hfail, (hy.rgB _ (by decide)).trans hsel,
        (hy.rgB _ (by decide)).trans hlock, (congrArg Pll.switching hy.pll).trans hsw⟩
  · have hsync : exec (.syncEdge c) s = .next (s.onCh c (·.mapDom Domain.syncEdge)) := rfl
    refine ⟨fun ha => .of hsync hu fun y hy => ?_, fun ha => .of hsync hu fun y hy => ?_⟩
    · obtain ⟨hpll, hign⟩ := Domain.syncEdge_aligning (d := (s.ch c).dom) ha
      exact ⟨hy.dom.pll.trans hpll, (hy.rgB _ (by decide)).trans hign⟩
    · obtain ⟨hign, hpll⟩ := Domain.syncEdge_ignored (d := (s.ch c).dom) ha
      exact ⟨(hy.rgB _ (by decide)).trans hign, hy.dom.pll.trans hpll⟩

end Sys2Proof.Machine
end

section
/-! PROOF. Lock and its loss, and the hop-table entries that a band search writes (R100, R101, R453, R458). -/

namespace Sys2Proof.Machine

namespace Domain
variable {d : Domain}

/-! ## Fields of a register that a write does not reach -/

theorem rgB_of_rg {a b : Domain} {f : Fld} (e : b.rg f = a.rg f) : b.rgB f = a.rgB f := congrArg (· != 0) e
theorem rgN_of_rg {a b : Domain} {f : Fld} (e : b.rg f = a.rg f) : b.rgN f = a.rgN f := congrArg BitVec.toNat e

/-! ## Lock and its loss (R100) -/

/-- A loop whose VCO has been searched locks; a relock returns CCLK to the PLL. -/
theorem pllLock_locks (hl : d.rgB PLL_STAT_LOCK = false) (hs : d.pll.searches.any (fun q => q.1 == d.vcoSel) = false)
    (hr : d.rgB PLL_STAT_REF_OK = true) :
    d.pllLock.rgB PLL_STAT_LOCK = true ∧
      d.pllLock.rgB PLL_STAT_RC = (d.rgB PLL_STAT_RC && !d.pll.returnOnLock) ∧ d.pllLock.pll.searches = d.pll.searches ∧
      (d.pll.returnOnLock = true → d.pllLock.pll.returnOnLock = false ∧ d.pllLock.pll.fallback = false) := by
  have hgo : (!d.rgB PLL_STAT_LOCK && !d.pll.searches.any (fun q => q.1 == d.vcoSel) && d.rgB PLL_STAT_REF_OK) = true := by
    simp only [hl, hs, hr, Bool.not_false, Bool.and_self]
  unfold pllLock
  rw [if_pos hgo]
  extract_lets x
  have hx : x.rgB PLL_STAT_LOCK = true := d.rgB_setB_same _ _ (by decide) rfl
  cases hret : d.pll.returnOnLock with
  | true =>
    have hx' : x.pll.returnOnLock = true := hret
    simp (disch := decide) only [hx', if_true, rgB_setPll, rgB_setB_apart, rgB_setB_same, hx, setPll_pll]
    simp [x]
  | false =>
    have hx' : x.pll.returnOnLock = false := hret
    have hrc : x.rgB PLL_STAT_RC = d.rgB PLL_STAT_RC := d.rgB_setB_apart _ _ _ (by decide) (by decide)
    simp only [hx', Bool.false_eq_true, if_false]
    exact ⟨hx, by simp [hrc], rfl, nofun⟩

theorem lockFalls_locked (hl : d.rgB PLL_STAT_LOCK = true) :
    d.lockFalls = ((d.setB PLL_STAT_LOCK false).setB PLL_STAT_UNLK_STICKY true).pllEvent 0x7A := if_pos hl

@[simp] theorem lockFalls_pll (d : Domain) : d.lockFalls.pll = d.pll := by
  unfold lockFalls
  split
  · exact pllEvent_pll _ _
  · rfl

/-- A loss of lock clears LOCK, sets UNLK_STICKY and leaves the other fields. -/
theorem lockFalls_rg (d : Domain) {f : Fld} (hf : f.quiet) (h : f.reg ≠ PLL_STAT_LOCK.reg ∨ 3 < f.lo) :
    d.lockFalls.rg f = d.rg f := by
  simp only at h
  unfold lockFalls
  split
  · have hlock := (d.setB PLL_STAT_LOCK false).rg_set_apart PLL_STAT_UNLK_STICKY f (ofB true) hf.1 (by simp only; omega)
    have hsticky := d.rg_set_apart PLL_STAT_LOCK f (ofB false) hf.1 (by simp only; omega)
    exact ((pllEvent_counted _ _ (by decide)).rg f hf).trans (hlock.trans hsticky)
  · rfl

theorem lockFalls_lock (d : Domain) : d.lockFalls.rgB PLL_STAT_LOCK = false := by
  cases hl : d.rgB PLL_STAT_LOCK with
  | true => rw [lockFalls_locked hl]; simp (disch := decide) only [rgB_pllEvent, rgB_setB_apart, rgB_setB_same]
  | false => simp [lockFalls, hl]

end Domain

/-- What SPR notes of a VCO leaves PLL_STAT as it is, and lets the events that wait go on waiting. -/
structure VcoNoted (a b : Domain) : Prop where
  rg : ∀ f : Fld, f.quiet → f.reg = PLL_STAT_LOCK.reg → b.rg f = a.rg f
  waits : ∀ {x ev arg}, Waits x a ev arg → Waits x b ev arg

theorem VcoNoted.refl (a : Domain) : VcoNoted a a := ⟨fun _ _ _ => rfl, fun w => w⟩

theorem VcoNoted.trans {a b c : Domain} (h : VcoNoted a b) (g : VcoNoted b c) : VcoNoted a c :=
  ⟨fun f hf hr => (g.rg f hf hr).trans (h.rg f hf hr), fun w => g.waits (h.waits w)⟩

theorem VcoNoted.set (a : Domain) (f : Fld) (v : Word) (h : f.reg ≠ PLL_STAT_LOCK.reg) : VcoNoted a (a.set f v) :=
  ⟨fun g _ hr => a.rg_set_reg f g v (hr ▸ h), fun w => w⟩

theorem VcoNoted.setB (a : Domain) (f : Fld) (v : Bool) (h : f.reg ≠ PLL_STAT_LOCK.reg) : VcoNoted a (a.setB f v) :=
  ⟨fun g _ hr => a.rg_set_reg f g _ (hr ▸ h), fun w => w⟩

theorem VcoNoted.evSpr (a : Domain) (kind action idx : Nat) : VcoNoted a (a.evSpr kind action idx) :=
  have h := EccNoted.evSpr a kind action idx
  ⟨fun f hf hr => h.rg f hf (by rw [hr]; decide) (by rw [hr]; decide), h.waits⟩

theorem VcoNoted.foldl {α : Type} (op : Domain → α → Domain) (l : List α) (h : ∀ a, ∀ x ∈ l, VcoNoted a (op a x))
    (a : Domain) :
    VcoNoted a (l.foldl op a) :=
  List.foldlRecOn l op (.refl a) fun _ hb x hx => hb.trans (h _ x hx)

namespace Domain
variable {d : Domain}

theorem vcoLoss_noted (d : Domain) (v : Nat) : VcoNoted d (d.vcoLoss v) := by
  unfold vcoLoss
  extract_lets f r x y
  have hx : VcoNoted d x := .set _ _ _ (by unfold f; split <;> decide)
  split
  · refine (hx.trans ((VcoNoted.setB x r true (by unfold r; split <;> decide)).trans (.foldl _ _ (fun a i _ => ?_) _))).trans
      (.evSpr _ _ _ _)
    split
    · exact .setB _ _ _ (by simp only; omega)
    · exact .refl _
  · exact hx

/-- Lock is lost: LOCK falls with UNLK_STICKY and EV_PLLUNLK, whatever SPR notes of the VCO. -/
theorem pllUnlock_noted (hl : d.rgB PLL_STAT_LOCK = true) (hh : d.rgB PLL_STAT_HOLD = false) :
    VcoNoted (((d.setB PLL_STAT_LOCK false).setB PLL_STAT_UNLK_STICKY true).pllEvent 0x7A) d.pllUnlock := by
  rw [← lockFalls_locked hl]
  unfold pllUnlock
  rw [if_pos (by simp [hl, hh])]
  extract_lets x
  split
  · exact vcoLoss_noted _ _
  · exact .refl _

theorem pllUnlock_falls (hl : d.rgB PLL_STAT_LOCK = true) (hh : d.rgB PLL_STAT_HOLD = false) :
    d.pllUnlock.rgB PLL_STAT_LOCK = false ∧ d.pllUnlock.rgB PLL_STAT_UNLK_STICKY = true ∧
      (d.host = false → HasRoom d 0x7A → Waits d d.pllUnlock 0x7A 0) := by
  have hn := pllUnlock_noted hl hh
  refine ⟨?_, ?_, fun hhost hroom => hn.waits (pllEvent_waits (by simpa using hhost) (by simpa using hroom) (by simp))⟩
  · rw [rgB_of_rg (hn.rg PLL_STAT_LOCK (by decide) rfl)]
    simp (disch := decide) only [rgB_pllEvent, rgB_setB_apart, rgB_setB_same]
  · rw [rgB_of_rg (hn.rg PLL_STAT_UNLK_STICKY (by decide) rfl)]
    simp (disch := decide) only [rgB_pllEvent, rgB_setB_same]

/-! ## Band searches (R101) -/

theorem setWidth_and_lowMask {n : Nat} (b : BitVec n) : (b.setWidth 32 : Word) &&& lowMask n = b.setWidth 32 := by
  apply BitVec.eq_of_getLsbD_eq
  intro i hi
  rw [BitVec.getLsbD_and, lowMask_getLsbD, BitVec.getLsbD_setWidth]
  by_cases hn : i < n
  · simp [hn, hi]
  · simp [hn, BitVec.getLsbD_of_ge b i (by omega)]

theorem rgN_lt (d : Domain) (f : Fld) (h : f.width < 32) : d.rgN f < 2 ^ f.width := by
  have hpos := Nat.two_pow_pos f.width
  have hlt : 2 ^ f.width < 2 ^ 32 := Nat.pow_lt_pow_right (by decide) h
  have hmask : (lowMask f.width).toNat = 2 ^ f.width - 1 := by
    rw [lowMask, BitVec.toNat_ofNat, Nat.mod_eq_of_lt (by omega)]
  have hle : d.rgN f ≤ (lowMask f.width).toNat := by
    rw [rgN, Domain.rg, fld, fget, BitVec.toNat_and]
    exact Nat.and_le_right
  omega

/-- Entry i of the hop table holds these fields. -/
structure HopEntry (y : Domain) (i : Nat) (v : Bool) (band : BitVec 6) (tband : Nat) (refdiv : Bool) (nint : BitVec 9) :
    Prop where
  valid : y.rgB (PLL_HOP_VALID i) = true
  vco : y.rgB (PLL_HOP_VCO i) = v
  band : y.rg (PLL_HOP_BAND i) = band.setWidth 32
  tband : y.rgN (PLL_HOP_TBAND i) = tband
  refdiv : y.rgB (PLL_HOP_REFDIV i) = refdiv
  nint : y.rg (PLL_HOP_NINT i) = nint.setWidth 32

/-- The fields of entry i written one after another. -/
def putHop (d : Domain) (i : Nat) (v : Bool) (band : BitVec 6) (tband : Nat) (refdiv : Bool) (nint : BitVec 9) : Domain :=
  (((((d.setB (PLL_HOP_VALID i) true).setB (PLL_HOP_VCO i) v).set (PLL_HOP_BAND i) (band.setWidth 32)).setN (PLL_HOP_TBAND i)
    tband).setB (PLL_HOP_REFDIV i) refdiv).set (PLL_HOP_NINT i) (nint.setWidth 32)

/-- No write of a field of an entry touches another. -/
theorem putHop_entry (d : Domain) (i : Nat) (v : Bool) (band : BitVec 6) {tband : Nat} (refdiv : Bool) (nint : BitVec 9)
    (ht : tband < 4) : (d.putHop i v band tband refdiv nint).HopEntry i v band tband refdiv nint := by
  unfold putHop
  constructor
  case valid =>
    simp (disch := simp) only [rgB_set_apart, rgB_setB_apart, rgB_setN_apart]
    exact rgB_setB_same _ _ _ (by simp) rfl
  case vco =>
    simp (disch := simp) only [rgB_set_apart, rgB_setB_apart, rgB_setN_apart]
    exact rgB_setB_same _ _ _ (by simp) rfl
  case band =>
    simp (disch := simp) only [rg_set_apart, rg_setB, setN, rg_set_same]
    exact setWidth_and_lowMask band
  case tband =>
    simp (disch := simp) only [rgN, rg_set_apart, rg_setB]
    exact rgN_setN_same _ _ _ (by simp) (by simpa [Fld.width] using ht) (by simp [Fld.width])
  case refdiv =>
    simp (disch := simp) only [rgB_set_apart]
    exact rgB_setB_same _ _ _ (by simp) rfl
  case nint =>
    simp (disch := simp) only [rg_set_same]
    exact setWidth_and_lowMask nint

theorem putHop_rg (d : Domain) (i : Nat) (v : Bool) (band : BitVec 6) (tband : Nat) (refdiv : Bool) (nint : BitVec 9)
    {f : Fld} (hr : 0xB0020 + 4 * i ≠ f.reg) : (d.putHop i v band tband refdiv nint).rg f = d.rg f := by
  have keep (x : Domain) (g : Fld) (w : Word) (hg : g.reg = 0xB0020 + 4 * i) : (x.set g w).rg f = x.rg f :=
    x.rg_set_reg g f w (hg ▸ hr)
  simp (disch := rfl) only [putHop, setN, rg_setB, keep]

theorem putHop_pll (d : Domain) (i : Nat) (v : Bool) (band : BitVec 6) (tband : Nat) (refdiv : Bool) (nint : BitVec 9) :
    (d.putHop i v band tband refdiv nint).pll = d.pll := by simp [putHop]

theorem writeEntry_eq (v : Bool) (band : BitVec 6) (d : Domain) (i : Nat) :
    writeEntry v band d i = d.putHop i v band (d.rgN THM_STAT_BAND) d.pll.refdiv d.pll.nint := by
  have hband (x : Domain) (f : Fld) (w : Word) (h : f.reg ≠ THM_STAT_BAND.reg) :
      (x.set f w).rgN THM_STAT_BAND = x.rgN THM_STAT_BAND :=
    rgN_of_rg (x.rg_set_reg _ _ _ h)
  have hbandB (x : Domain) (f : Fld) (w : Bool) (h : f.reg ≠ THM_STAT_BAND.reg) :
      (x.setB f w).rgN THM_STAT_BAND = x.rgN THM_STAT_BAND :=
    rgN_of_rg (x.rg_set_reg _ _ _ h)
  unfold writeEntry putHop
  simp only []
  rw [hband _ _ _ (by simp only; omega), hbandB _ _ _ (by simp only; omega), hbandB _ _ _ (by simp only; omega)]
  rfl

theorem HopEntry.of_rg {a b : Domain} {i : Nat} {v : Bool} {band : BitVec 6} {tband : Nat} {refdiv : Bool} {nint : BitVec 9}
    (h : a.HopEntry i v band tband refdiv nint) (hr : ∀ f : Fld, f.hi < 32 → f.reg = 0xB0020 + 4 * i → b.rg f = a.rg f) :
    b.HopEntry i v band tband refdiv nint :=
  ⟨(rgB_of_rg (hr _ (by simp) rfl)).trans h.valid, (rgB_of_rg (hr _ (by simp) rfl)).trans h.vco,
    (hr _ (by simp) rfl).trans h.band, (rgN_of_rg (hr _ (by simp) rfl)).trans h.tband,
    (rgB_of_rg (hr _ (by simp) rfl)).trans h.refdiv, (hr _ (by simp) rfl).trans h.nint⟩

/-- Entry i of the hop table of y tells what a search of VCO v found with the settings and the temperature band of x. -/
def Found (x y : Domain) (v : Bool) (band : BitVec 6) (i : Nat) : Prop :=
  y.HopEntry i v band (x.rgN THM_STAT_BAND) x.pll.refdiv x.pll.nint

/-- The second domain has the loop and the registers of the first, but for the hop table. -/
structure HopsWritten (x y : Domain) : Prop where
  rg : ∀ f : Fld, f.reg < 0xB0020 ∨ 0xB0040 ≤ f.reg → y.rg f = x.rg f
  pll : y.pll = x.pll

theorem HopsWritten.step {x y : Domain} (h : HopsWritten x y) (v : Bool) (band : BitVec 6) {i : Nat} (hi : i < 8) :
    HopsWritten x (writeEntry v band y i) := by
  rw [writeEntry_eq]
  exact ⟨fun f hf => (y.putHop_rg _ _ _ _ _ _ (by omega)).trans (h.rg f hf), (y.putHop_pll _ _ _ _ _ _).trans h.pll⟩

theorem HopsWritten.found {x y : Domain} (h : HopsWritten x y) (v : Bool) (band : BitVec 6) (i : Nat) :
    x.Found (writeEntry v band y i) v band i := by
  have hband : y.rgN THM_STAT_BAND = x.rgN THM_STAT_BAND := rgN_of_rg (h.rg _ (by decide))
  rw [writeEntry_eq, hband, h.pll]
  exact y.putHop_entry i v band _ _ (x.rgN_lt THM_STAT_BAND (by decide))

/-- A further entry leaves what an entry tells of the same search. -/
theorem Found.step {x y : Domain} {v : Bool} {band : BitVec 6} {i : Nat} (h : x.Found y v band i) (hw : HopsWritten x y)
    (j : Nat) : x.Found (writeEntry v band y j) v band i := by
  by_cases hj : i = j
  · subst hj
    exact hw.found v band i
  · exact HopEntry.of_rg h fun f _ hf => by
      rw [writeEntry_eq, putHop_rg _ _ _ _ _ _ _ (by omega)]

/-- Every entry of a search tells of it once all are written. -/
theorem foldl_writeEntry (x : Domain) (v : Bool) (band : BitVec 6) (l : List Nat) (hl : ∀ i ∈ l, i < 8) :
    HopsWritten x (l.foldl (writeEntry v band) x) ∧ ∀ i ∈ l, x.Found (l.foldl (writeEntry v band) x) v band i := by
  induction l using List.reverseRecOn with
  | nil => exact ⟨⟨fun _ _ => rfl, rfl⟩, by simp⟩
  | append_singleton l j ih =>
    obtain ⟨hw, hf⟩ := ih fun i hi => hl i (by simp [hi])
    rw [List.foldl_append]
    refine ⟨hw.step v band (hl j (by simp)), fun i hi => ?_⟩
    rcases List.mem_append.1 hi with hi | hi
    · exact (hf i hi).step hw j
    · rw [List.mem_singleton.1 hi]
      exact hw.found v band j

end Domain
end Sys2Proof.Machine
end

section
/-! PROOF. The end of a band search, and what APPLY, RC_RETURN and a hop make of the loop (R97 to R101, R107). -/

namespace Sys2Proof.Machine

/-- The second domain has the loop of the first and its quiet registers below those of the event queues and SPR. -/
structure LoopKept (a b : Domain) : Prop where
  pll : b.pll = a.pll
  rg : ∀ f : Fld, f.quiet → f.reg < 0xC0000 → b.rg f = a.rg f

theorem LoopKept.trans {a b c : Domain} (h : LoopKept a b) (g : LoopKept b c) : LoopKept a c :=
  ⟨g.pll.trans h.pll, fun f hf hr => (g.rg f hf hr).trans (h.rg f hf hr)⟩

theorem LoopKept.set (a : Domain) (f : Fld) (v : Word) (h : 0xC0000 ≤ f.reg) : LoopKept a (a.set f v) :=
  ⟨rfl, fun g _ hg => a.rg_set_reg f g v (by omega)⟩

theorem LoopKept.setB (a : Domain) (f : Fld) (v : Bool) (h : 0xC0000 ≤ f.reg) : LoopKept a (a.setB f v) :=
  ⟨rfl, fun g _ hg => a.rg_set_reg f g _ (by omega)⟩

theorem LoopKept.of_noted {a b : Domain} (h : EccNoted a b) : LoopKept a b := by
  refine ⟨?_, fun f hf hr => h.rg f hf (by simp only; omega) (by simp only; omega)⟩
  obtain ⟨⟨r, p, q, n, y, w, u, rfl⟩, -⟩ := h
  rfl

namespace Domain
variable {d : Domain}

/-- The drift that a search notes is of SPR alone. -/
theorem vcoDrift_loopKept (d : Domain) (v : Nat) : LoopKept d (d.vcoDrift v) := by
  unfold vcoDrift
  extract_lets f before q x lim
  have hfree : LoopKept d q.2 := ⟨rfl, fun _ _ _ => rfl⟩
  have hx : LoopKept d x := hfree.trans (.set _ _ _ (by unfold f; split <;> decide))
  split
  · have halarm : LoopKept x x.wearAlarm := .setB _ SPR_STAT_WEARALM true (by decide)
    exact (hx.trans halarm).trans (.of_noted (.evSpr _ _ _ _))
  · exact hx

/-- The band that a VCO runs in. -/
def bandOf (d : Domain) (v : Bool) : BitVec 6 := if v then d.pll.band1 else d.pll.band0

/-- A search that ends writes its entries, and its VCO takes the band (R101). -/
theorem bandSearchDone_found {v : Bool} {named : Option Nat} {rest : List (Bool × Option Nat)} (band : BitVec 6)
    (hs : d.pll.searches = (v, named) :: rest) (hn : ∀ j, named = some j → j < 8) (hr : d.rgB PLL_STAT_REF_OK = true) :
    (∀ i ∈ entryOf v :: named.toList, d.Found (d.bandSearchDone v band) v band i) ∧
      (d.bandSearchDone v band).pll.searches = rest ∧ (d.bandSearchDone v band).bandOf v = band := by
  have hlt : ∀ i ∈ [entryOf v] ++ named.toList, i < 8 := by
    intro i hi
    rcases List.mem_append.1 hi with hi | hi
    · rw [List.mem_singleton.1 hi, entryOf]
      split <;> decide
    · exact hn i (by simpa using hi)
  have hfound := (foldl_writeEntry d v band _ hlt).2
  unfold bandSearchDone
  rw [hs]
  simp only [BEq.rfl, hr, Bool.and_self, if_true]
  generalize ([entryOf v] ++ named.toList).foldl (writeEntry v band) d = x at hfound ⊢
  generalize hy : (if v == (x.setBand v band).vcoSel then (x.setBand v band).setN PLL_STAT_HOP_IDX (named.getD (entryOf v))
    else x.setBand v band) = y
  have hyrg : ∀ f : Fld, f.reg ≠ 0xB0010 → y.rg f = x.rg f := by
    intro f hf
    rw [← hy]
    split
    · exact (rg_set_reg _ _ _ _ (Ne.symm hf)).trans (rg_setPll _ _ _)
    · exact rg_setPll _ _ _
  have hyb : y.pll = (x.setBand v band).pll := by
    rw [← hy]
    split <;> rfl
  have hk := ((y.setPll fun p => { p with searches := rest }).setB PLL_STAT_BAND_DONE rest.isEmpty).vcoDrift_loopKept
    (entryOf v)
  refine ⟨fun i hi => ?_, by rw [hk.pll]; rfl, ?_⟩
  · have hi8 := hlt i hi
    refine (hfound i hi).of_rg fun f hf hreg => ?_
    rw [hk.rg f ⟨hf, by omega, by omega, by omega, by omega⟩ (by omega), rg_setB, rg_set_reg _ _ _ _ (by simp only; omega),
      rg_setPll]
    exact hyrg f (by omega)
  · rw [bandOf, hk.pll]
    simp only [setB_pll, setPll_pll, hyb, setBand]
    cases v <;> rfl

/-! ## APPLY and RC_RETURN (R97 to R99, R107) -/

/-- The searches that wait for the VCO that does not drive CCLK. -/
def idleSearches (d : Domain) : List (Bool × Option Nat) := d.pll.searches.filter fun x => x.1 != d.vcoSel

/-- The loop locks anew with CCLK on the RC oscillator until then. -/
theorem relock_on_rc (d : Domain) (l : List (Bool × Option Nat)) :
    (d.relock l).rgB PLL_STAT_RC = true ∧ (d.relock l).rgB PLL_STAT_LOCK = false ∧
      (d.relock l).rgB PLL_STAT_BAND_DONE = (l ++ d.idleSearches).isEmpty ∧
      (d.relock l).pll = { d.pll with searches := l ++ d.idleSearches, returnOnLock := true, hop := none, switching := false } := by
  refine ⟨?_, ?_, ?_, ?_⟩
  · simp (disch := decide) only [relock, rgB_setPll, rgB_setB_apart, rgB_setB_same]
  · simp (disch := decide) only [relock, rgB_setPll, rgB_setB_apart, lockFalls_lock]
  · simp (disch := decide) only [relock, rgB_setPll, rgB_setB_same, idleSearches]
  · simp only [relock, setPll_pll, setB_pll, lockFalls_pll, idleSearches]

/-- The fields that a relock leaves as they are. -/
theorem relock_rg (d : Domain) (l : List (Bool × Option Nat)) {f : Fld} (hf : f.quiet)
    (h : f.reg ≠ PLL_STAT_LOCK.reg ∨ 6 < f.lo) : (d.relock l).rg f = d.rg f := by
  simp only at h
  rw [relock, rg_setPll, rg_setB, rg_set_apart _ _ _ _ hf.1 (by simp only; omega), rg_setB,
    rg_set_apart _ _ _ _ hf.1 (by simp only; omega), d.lockFalls_rg hf (by simp only; omega)]

/-- The stored bits of PLL_CTL are in no other register. -/
theorem pllCtlBits_rg (d : Domain) (w : Word) {f : Fld} (h : f.reg ≠ PLL_CTL_SYNC_EN.reg) : (d.pllCtlBits w).rg f = d.rg f :=
  ((d.set PLL_CTL_SYNC_EN (fget w 3 3)).rg_set_reg PLL_CTL_SPARE_AUTO f (fget w 2 2) (Ne.symm h)).trans
    (d.rg_set_reg PLL_CTL_SYNC_EN f (fget w 3 3) (Ne.symm h))

theorem pllCtlBits_rgB (d : Domain) (w : Word) {f : Fld} (h : f.reg ≠ PLL_CTL_SYNC_EN.reg) :
    (d.pllCtlBits w).rgB f = d.rgB f := rgB_of_rg (d.pllCtlBits_rg w h)

theorem pllCtlBits_rgN (d : Domain) (w : Word) {f : Fld} (h : f.reg ≠ PLL_CTL_SYNC_EN.reg) :
    (d.pllCtlBits w).rgN f = d.rgN f := rgN_of_rg (d.pllCtlBits_rg w h)

@[simp] theorem pllCtlBits_pll (d : Domain) (w : Word) : (d.pllCtlBits w).pll = d.pll := rfl

/-- A setting that R97 accepts stands in PLL_DIV and PLL_FRAC. -/
def dividersOk (d : Domain) (fref : Nat) : Bool :=
  settingOk fref (if d.rgB PLL_DIV_REFDIV then 2 else 1) (d.rgN PLL_DIV_NINT) (d.rgN PLL_FRAC_NFRAC)

theorem pllCtlBits_sscOk (d : Domain) (w : Word) : (d.pllCtlBits w).sscOk = d.sscOk := by
  simp (disch := decide) only [sscOk, pllCtlBits_rgN]
  rfl

theorem pllCtlBits_dividersOk (d : Domain) (w : Word) (fref : Nat) : (d.pllCtlBits w).dividersOk fref = d.dividersOk fref := by
  simp (disch := decide) only [dividersOk, pllCtlBits_rgN, pllCtlBits_rgB]

theorem pllCtlBits_idleSearches (d : Domain) (w : Word) : (d.pllCtlBits w).idleSearches = d.idleSearches := by
  simp (disch := decide) only [idleSearches, vcoSel, pllCtlBits_rgB, pllCtlBits_pll]

theorem writePllCtl_apply {w : Word} (h1 : bitOf w 1 = true) (h0 : bitOf w 0 = false) (oen : Word) (fref : Nat) :
    d.writePllCtl oen w fref = (d.pllCtlBits w).pllApply oen fref := by
  simp [writePllCtl, h1, h0]

theorem pllCtlFree_return {w : Word} (h1 : bitOf w 1 = false) (h0 : bitOf w 0 = true) (oen : Word) :
    d.pllCtlFree oen w = (d.pllCtlBits w).pllReturn oen := by
  simp [pllCtlFree, writePllCtl, h1, h0]

/-- What APPLY asks for before it takes the settings (R97, R98). -/
def applies (d : Domain) (oen : Word) (fref : Nat) : Bool := d.dividersOk fref && d.sscOk && !gatesOn oen && !d.pll.fallback

theorem applies_iff {oen : Word} {fref : Nat} : d.applies oen fref = true ↔
    d.dividersOk fref = true ∧ d.sscOk = true ∧ oen = 0 ∧ d.pll.fallback = false := by
  simp [applies, gatesOn, and_assoc]

theorem pllCtlBits_applies (d : Domain) (w oen : Word) (fref : Nat) : (d.pllCtlBits w).applies oen fref = d.applies oen fref := by
  rw [applies, pllCtlBits_dividersOk, pllCtlBits_sscOk, pllCtlBits_pll, applies]

theorem pllApply_refused {oen : Word} {fref : Nat} (h : d.applies oen fref = false) :
    d.pllApply oen fref = d.setB PLL_STAT_APPLY_ERR true := if_neg (ne_true_of_eq_false h)

/-- APPLY takes the settings and locks on them anew (R97 to R99). -/
theorem pllApply_accepted {oen : Word} {fref : Nat} (h : d.applies oen fref = true) :
    (d.pllApply oen fref).rgB PLL_STAT_RC = true ∧ (d.pllApply oen fref).rgB PLL_STAT_LOCK = false ∧
      (d.pllApply oen fref).pll = { d.pll with
        refdiv := d.rgB PLL_DIV_REFDIV, nint := (d.rg PLL_DIV_NINT).setWidth 9, nfrac := (d.rg PLL_FRAC_NFRAC).setWidth 24
        ssc := rget d.regs PLL_SSC_MODE.reg, searches := (d.vcoSel, d.namedEntry) :: d.idleSearches
        returnOnLock := true, hop := none, switching := false } := by
  unfold pllApply
  extract_lets div x
  rw [if_pos (by exact h)]
  have hsel : (x.setB PLL_STAT_SSC_ON (x.rgB PLL_SSC_MODE)).vcoSel = d.vcoSel :=
    x.rgB_setB_apart PLL_STAT_SSC_ON PLL_STAT_VCO_SEL _ (by decide) (by decide)
  obtain ⟨hrc, hlock, -, hpll⟩ := (x.setB PLL_STAT_SSC_ON (x.rgB PLL_SSC_MODE)).relock_on_rc [(x.vcoSel, x.namedEntry)]
  refine ⟨hrc, hlock, ?_⟩
  rw [hpll, idleSearches, hsel]
  rfl

theorem pllReturn_refused {oen : Word} (h : oen ≠ 0 ∨ d.rgB PLL_STAT_REF_OK = false) :
    d.pllReturn oen = d.setB PLL_STAT_APPLY_ERR true := by
  refine if_pos ?_
  simpa [gatesOn] using h

theorem pllReturn_accepted {oen : Word} (hg : oen = 0) (hr : d.rgB PLL_STAT_REF_OK = true) :
    d.pllReturn oen = d.relock [(d.vcoSel, none)] := by simp [pllReturn, gatesOn, hg, hr]

/-! ## Hops (R101) -/

theorem setN_three_bits (d : Domain) (f : Fld) (w : Word) (h : f.hi < 32) (hw : f.width = 3) :
    (d.set f (fget w 2 0)).rgN f = (fget w 2 0).toNat := by
  rw [rgN, rg_set_same d f _ h, hw]
  simp only [fget, Nat.sub_zero]
  rw [BitVec.and_assoc, BitVec.and_self]

end Domain
end Sys2Proof.Machine
end

section
/-! PROOF. Hops, and the commands of the clock as their domain answers them (R97 to R101, R107). -/

namespace Sys2Proof.Machine

namespace Domain
variable {d : Domain}

/-! ## Hops (R101) -/

/-- The entry that was named stays named while the hop goes on. -/
theorem hopGo_idx (d : Domain) : d.hopGo.rg PLL_HOPCTL_IDX = d.rg PLL_HOPCTL_IDX := by
  unfold hopGo
  extract_lets i same fall x y z done
  split
  · rfl
  · have hz : z.rg PLL_HOPCTL_IDX = y.rg PLL_HOPCTL_IDX :=
      (rg_set_reg _ _ _ _ (by decide)).trans (y.rg_set_reg PLL_STAT_VCO_SEL _ _ (by decide))
    rw [rg_setPll, rg_setB, rg_set_reg _ _ _ _ (by decide), relock_rg _ _ (by decide) (by decide), hz]
    rfl

/-- A hop that goes on switches over, or CCLK is to run on the VCO of its entry. -/
theorem hopGo_source (d : Domain) : d.hopGo.pll.switching = true ∨
    d.hopGo.rgB PLL_STAT_VCO_SEL = d.rgB (PLL_HOP_VCO (d.rgN PLL_HOPCTL_IDX)) := by
  unfold hopGo
  extract_lets i same fall x y z done
  split
  · exact .inl rfl
  · right
    have hx (j : Nat) : x.rgB (PLL_HOP_VCO j) = d.rgB (PLL_HOP_VCO j) := rgB_setPll _ _ _
    have hy (j : Nat) : y.rgB (PLL_HOP_VCO j) = d.rgB (PLL_HOP_VCO j) := (rgB_setPll _ _ _).trans (hx j)
    have hz : z.rgB PLL_STAT_VCO_SEL = y.rgB (PLL_HOP_VCO i) :=
      (rgB_setN_apart _ _ _ _ (by decide) (by decide)).trans (y.rgB_setB_same PLL_STAT_VCO_SEL _ (by decide) rfl)
    rw [rgB_setPll, rgB_setB_apart _ _ _ _ (by decide) (by decide),
      rgB_of_rg (z.relock_rg [] (f := PLL_STAT_VCO_SEL) (by decide) (by decide)), hz, hy]

/-- What the entry that a hop names can refuse by itself. -/
theorem hopRefused_of_entry (oen : Word) (h : d.rgB (PLL_HOP_VALID (d.rgN PLL_HOPCTL_IDX)) = false ∨
    d.rgB PLL_STAT_REF_OK = false ∨ d.rgB PLL_STAT_HOLD = true) : d.hopRefused oen = true := by
  rcases h with h | h | h <;> simp [hopRefused, h]

/-- A hop as its command names it, before it is refused or goes on. -/
abbrev named (d : Domain) (w : Word) : Domain := d.set PLL_HOPCTL_IDX (fget w 2 0)

theorem named_idx (d : Domain) (w : Word) : (d.named w).rgN PLL_HOPCTL_IDX = (fget w 2 0).toNat :=
  d.setN_three_bits _ w (by decide) rfl

theorem named_rgB (d : Domain) (w : Word) {f : Fld} (h : f.reg ≠ PLL_HOPCTL_IDX.reg) : (d.named w).rgB f = d.rgB f :=
  rgB_of_rg (d.rg_set_reg _ _ _ (Ne.symm h))

theorem named_hopRefused_of_entry (w oen : Word) (h : d.rgB (PLL_HOP_VALID (fget w 2 0).toNat) = false ∨
    d.rgB PLL_STAT_REF_OK = false ∨ d.rgB PLL_STAT_HOLD = true) : (d.named w).hopRefused oen = true := by
  refine hopRefused_of_entry oen ?_
  rwa [named_idx, named_rgB _ _ (by simp only; omega), named_rgB _ _ (by decide), named_rgB _ _ (by decide)]

theorem writeHop_go {w : Word} (h3 : bitOf w 3 = true) (oen : Word) :
    d.writeHop oen w = if (d.named w).hopRefused oen then (d.named w).setB PLL_STAT_HOP_REF true else (d.named w).hopGo := by
  simp only [writeHop, h3, if_true]

end Domain

/-! ## The commands of the clock -/

section
variable {s : State} {d : Dom} {w : Word}

theorem exec_apply (h1 : bitOf w 1 = true) (h0 : bitOf w 0 = false) (fref : Nat) :
    exec (.apply d w fref) s = .next (s.onDom d fun x => (x.pllCtlBits w).pllApply (s.gateMask d) fref) := by
  show Host.Outcome.next (s.when (bitOf w 1) _) = _
  rw [h1]
  exact congrArg (fun f => Host.Outcome.next (s.onDom d f)) (funext fun x => Domain.writePllCtl_apply h1 h0 _ _)

theorem exec_rcReturn (h0 : bitOf w 0 = true) (h1 : bitOf w 1 = false) :
    exec (.rcReturn d w) s = .next (s.onDom d fun x => (x.pllCtlBits w).pllReturn (s.gateMask d)) := by
  show Host.Outcome.next (s.when (bitOf w 0) _) = _
  rw [h0]
  exact congrArg (fun f => Host.Outcome.next (s.onDom d f)) (funext fun x => Domain.pllCtlFree_return h1 h0 _)

theorem exec_hop (h3 : bitOf w 3 = true) :
    exec (.hop d w) s = .next (s.onDom d (·.writeHop (s.gateMask d) w)) := by
  show Host.Outcome.next (s.when (bitOf w 3) _) = _
  rw [h3]
  rfl

end

section
variable {s : State} {d : Dom} (hu : (s.dom d).inReset = false)
include hu

theorem pllLock_answers (hl : (s.dom d).rgB PLL_STAT_LOCK = false)
    (hs : (s.dom d).pll.searches.any (fun q => q.1 == (s.dom d).vcoSel) = false)
    (hr : (s.dom d).rgB PLL_STAT_REF_OK = true) :
    DomAnswers (.pllLock d) s d fun y => y.rgB PLL_STAT_LOCK = true ∧
      y.rgB PLL_STAT_RC = ((s.dom d).rgB PLL_STAT_RC && !(s.dom d).pll.returnOnLock) ∧
      y.pll.searches = (s.dom d).pll.searches ∧
      ((s.dom d).pll.returnOnLock = true → y.pll.returnOnLock = false ∧ y.pll.fallback = false) := by
  obtain ⟨hlock, hrc, hsearch, hret⟩ := Domain.pllLock_locks hl hs hr
  refine .of rfl hu fun y hy => ⟨(hy.rgB _ (by decide)).trans hlock, (hy.rgB _ (by decide)).trans hrc, ?_⟩
  rw [hy.pll]
  exact ⟨hsearch, hret⟩

theorem pllUnlock_answers (hl : (s.dom d).rgB PLL_STAT_LOCK = true) (hh : (s.dom d).rgB PLL_STAT_HOLD = false) :
    DomAnswers (.pllUnlock d) s d fun y => y.rgB PLL_STAT_LOCK = false ∧ y.rgB PLL_STAT_UNLK_STICKY = true ∧
      ((s.dom d).host = false → HasRoom (s.dom d) 0x7A → Waits (s.dom d) y 0x7A 0) := by
  obtain ⟨hlock, hsticky, hwaits⟩ := Domain.pllUnlock_falls hl hh
  exact .of rfl hu fun y hy => ⟨(hy.rgB _ (by decide)).trans hlock, (hy.rgB _ (by decide)).trans hsticky,
    fun hhost hroom => hy.waits (hwaits hhost hroom)⟩

theorem pllBandSearchDone_answers {v : Bool} {named : Option Nat} {rest : List (Bool × Option Nat)} (band : BitVec 6)
    (hs : (s.dom d).pll.searches = (v, named) :: rest) (hn : ∀ j, named = some j → j < 8)
    (hr : (s.dom d).rgB PLL_STAT_REF_OK = true) :
    DomAnswers (.pllBandSearchDone d v band) s d fun y =>
      (∀ i ∈ entryOf v :: named.toList, (s.dom d).Found y v band i) ∧ y.pll.searches = rest ∧ y.bandOf v = band := by
  obtain ⟨hfound, hrest, hband⟩ := Domain.bandSearchDone_found band hs hn hr
  refine .of rfl hu fun y hy => ⟨fun i hi => ?_, (congrArg Pll.searches hy.pll).trans hrest, ?_⟩
  · have hi8 : i < 8 := by
      rcases List.mem_cons.1 hi with rfl | hi
      · rw [entryOf]
        split <;> decide
      · exact hn i (by simpa using hi)
    exact (hfound i hi).of_rg fun f hf hreg => hy.rg f ⟨hf, by omega, by omega, by omega, by omega⟩
  · rw [Domain.bandOf, hy.pll]
    exact hband

section
variable {w : Word}

theorem apply_refused_answers (h1 : bitOf w 1 = true) (h0 : bitOf w 0 = false) {fref : Nat}
    (hno : (s.dom d).applies (s.gateMask d) fref = false) :
    DomAnswers (.apply d w fref) s d fun y => y.rgB PLL_STAT_APPLY_ERR = true ∧ y.pll = (s.dom d).pll ∧
      y.rgB PLL_STAT_RC = (s.dom d).rgB PLL_STAT_RC := by
  have hx := Domain.pllApply_refused ((Domain.pllCtlBits_applies _ w _ _).trans hno)
  refine .of (exec_apply h1 h0 fref) hu fun y hy => ?_
  rw [hx] at hy
  refine ⟨(hy.rgB _ (by decide)).trans (Domain.rgB_setB_same _ _ _ (by decide) rfl), hy.pll, (hy.rgB _ (by decide)).trans ?_⟩
  rw [Domain.rgB_setB_apart _ _ _ _ (by decide) (by decide), Domain.pllCtlBits_rgB _ _ (by decide)]

theorem apply_accepted_answers (h1 : bitOf w 1 = true) (h0 : bitOf w 0 = false) {fref : Nat}
    (hyes : (s.dom d).applies (s.gateMask d) fref = true) :
    DomAnswers (.apply d w fref) s d fun y => y.rgB PLL_STAT_RC = true ∧ y.rgB PLL_STAT_LOCK = false ∧
      y.pll.nint = ((s.dom d).rg PLL_DIV_NINT).setWidth 9 ∧ y.pll.nfrac = ((s.dom d).rg PLL_FRAC_NFRAC).setWidth 24 ∧
      y.pll.refdiv = (s.dom d).rgB PLL_DIV_REFDIV ∧
      y.pll.searches = ((s.dom d).vcoSel, (s.dom d).namedEntry) :: (s.dom d).idleSearches ∧ y.pll.returnOnLock = true := by
  obtain ⟨hrc, hlock, hpll⟩ := Domain.pllApply_accepted ((Domain.pllCtlBits_applies _ w _ _).trans hyes)
  refine .of (exec_apply h1 h0 fref) hu fun y hy => ⟨(hy.rgB _ (by decide)).trans hrc, (hy.rgB _ (by decide)).trans hlock, ?_⟩
  rw [hy.pll, hpll]
  refine ⟨?_, ?_, ?_, ?_, rfl⟩
  · exact congrArg (BitVec.setWidth 9) (Domain.pllCtlBits_rg _ _ (by decide))
  · exact congrArg (BitVec.setWidth 24) (Domain.pllCtlBits_rg _ _ (by decide))
  · exact Domain.pllCtlBits_rgB _ _ (by decide)
  · simp (disch := decide) only [Domain.pllCtlBits_idleSearches, Domain.vcoSel, Domain.namedEntry, Domain.pllCtlBits_rgB,
      Domain.pllCtlBits_rgN]

theorem rcReturn_accepted_answers (h0 : bitOf w 0 = true) (h1 : bitOf w 1 = false) (hg : s.gateMask d = 0)
    (hr : (s.dom d).rgB PLL_STAT_REF_OK = true) :
    DomAnswers (.rcReturn d w) s d fun y => y.pll.searches = ((s.dom d).vcoSel, none) :: (s.dom d).idleSearches ∧
      y.pll.returnOnLock = true ∧ y.rgB PLL_STAT_BAND_DONE = false ∧ y.rgB PLL_STAT_RC = true := by
  have hx := Domain.pllReturn_accepted hg ((Domain.pllCtlBits_rgB (s.dom d) w (f := PLL_STAT_REF_OK) (by decide)).trans hr)
  obtain ⟨hrc, -, hdone, hpll⟩ := ((s.dom d).pllCtlBits w).relock_on_rc [(((s.dom d).pllCtlBits w).vcoSel, none)]
  refine .of (exec_rcReturn h0 h1) hu fun y hy => ?_
  rw [hx] at hy
  refine ⟨?_, ?_, (hy.rgB _ (by decide)).trans hdone, (hy.rgB _ (by decide)).trans hrc⟩
  · rw [hy.pll, hpll]
    simp (disch := decide) only [Domain.pllCtlBits_idleSearches, Domain.vcoSel, Domain.pllCtlBits_rgB, List.cons_append,
      List.nil_append]
  · rw [hy.pll, hpll]

theorem rcReturn_refused_answers (h0 : bitOf w 0 = true) (h1 : bitOf w 1 = false)
    (hno : s.gateMask d ≠ 0 ∨ (s.dom d).rgB PLL_STAT_REF_OK = false) :
    DomAnswers (.rcReturn d w) s d fun y => y.rgB PLL_STAT_APPLY_ERR = true ∧ y.pll = (s.dom d).pll := by
  have hx : ((s.dom d).pllCtlBits w).pllReturn (s.gateMask d) = ((s.dom d).pllCtlBits w).setB PLL_STAT_APPLY_ERR true :=
    Domain.pllReturn_refused (hno.imp_right (Domain.pllCtlBits_rgB _ _ (by decide)).trans)
  refine .of (exec_rcReturn h0 h1) hu fun y hy => ?_
  rw [hx] at hy
  exact ⟨(hy.rgB _ (by decide)).trans (Domain.rgB_setB_same _ _ _ (by decide) rfl), hy.pll⟩

theorem hop_refused_answers (h3 : bitOf w 3 = true) (hno : ((s.dom d).named w).hopRefused (s.gateMask d) = true) :
    DomAnswers (.hop d w) s d fun y => y.rgB PLL_STAT_HOP_REF = true ∧ y.pll = (s.dom d).pll := by
  refine .of (exec_hop h3) hu fun y hy => ?_
  rw [Domain.writeHop_go h3, if_pos hno] at hy
  exact ⟨(hy.rgB _ (by decide)).trans (Domain.rgB_setB_same _ _ _ (by decide) rfl), hy.pll⟩

theorem hop_accepted_answers (h3 : bitOf w 3 = true) (hyes : ((s.dom d).named w).hopRefused (s.gateMask d) = false) :
    DomAnswers (.hop d w) s d fun y => y.rgN PLL_HOPCTL_IDX = (fget w 2 0).toNat ∧
      (y.pll.switching = true ∨ y.rgB PLL_STAT_VCO_SEL = (s.dom d).rgB (PLL_HOP_VCO (fget w 2 0).toNat)) := by
  have hsource := ((s.dom d).named w).hopGo_source
  rw [Domain.named_idx, Domain.named_rgB _ _ (by simp only; omega)] at hsource
  refine .of (exec_hop h3) hu fun y hy => ?_
  rw [Domain.writeHop_go h3, hyes] at hy
  refine ⟨?_, hsource.imp (congrArg Pll.switching hy.pll).trans (hy.rgB _ (by decide)).trans⟩
  rw [hy.rgN _ (by decide)]
  exact (Domain.rgN_of_rg (Domain.hopGo_idx _)).trans (Domain.named_idx _ _)

end
end

/-- Settles O20, command by command. -/
theorem lockSearchAndClockCommands : Obligations.LockSearchAndClockCommands := by
  refine ⟨fun s d v named rest band hu => ?_, fun s d w fref hu => ?_⟩
  · refine ⟨pllLock_answers hu, pllUnlock_answers hu, fun hs hn hr => ?_⟩
    obtain ⟨t, ht, ⟨hfound, hrest, hband⟩, hframe⟩ := pllBandSearchDone_answers hu band hs hn hr
    exact ⟨t, ht, ⟨fun i hi =>
      have ⟨h1, h2, h3, h4, h5, h6⟩ := hfound i hi
      ⟨h1, h2, h3, h4, h5, h6⟩, hrest, hband⟩, hframe⟩
  · have hno (h : s.gateMask d ≠ 0 ∨ (s.dom d).sscOk = false ∨ (s.dom d).pll.fallback = true ∨
        (s.dom d).dividersOk fref = false) : (s.dom d).applies (s.gateMask d) fref = false := by
      refine Bool.eq_false_iff.2 fun hyes => ?_
      obtain ⟨hdiv, hssc, hgates, hfall⟩ := Domain.applies_iff.1 hyes
      simp [hdiv, hssc, hgates, hfall] at h
    have hnamed : (s.dom d).namedEntry =
        if (s.dom d).rgN PLL_HOPCTL_IDX < 2 then none else some ((s.dom d).rgN PLL_HOPCTL_IDX) := by
      by_cases h : 2 ≤ (s.dom d).rgN PLL_HOPCTL_IDX
      · rw [Domain.namedEntry, if_pos h, if_neg (by omega)]
      · rw [Domain.namedEntry, if_neg h, if_pos (by omega)]
    refine ⟨fun h1 h0 => ⟨fun h => apply_refused_answers hu h1 h0 (hno h), fun hg hssc hfall hgood => ?_⟩,
      fun h0 h1 => ⟨rcReturn_accepted_answers hu h0 h1, rcReturn_refused_answers hu h0 h1⟩,
      fun h3 => ⟨hop_refused_answers hu h3, Domain.named_hopRefused_of_entry w _, hop_accepted_answers hu h3⟩⟩
    have h := apply_accepted_answers hu h1 h0 (Domain.applies_iff.2 ⟨hgood, hssc, hg, hfall⟩)
    rwa [hnamed] at h

end Sys2Proof.Machine
end

section
/-! PROOF. A boot phase that writes NVM waits for the end of write-inhibit (R84, R108), so B7 need not end while write-inhibit
stands. -/

namespace Sys2Proof.Machine

/-- A phase that would write NVM under write-inhibit changes nothing. -/
theorem State.bootPhase_waits {s : State} {c : Chan} {r : BootReport} (hi : s.dev.inhibit = true)
    (hw : (s.ch c).dom.nvmWritten ((s.onCh c (·.phaseDone r)).ch c).dom = true) :
    exec (.bootPhaseDone (.ch c) r) s = .next s := by
  have hwaits : (s.dev.inhibit && (s.ch c).dom.nvmWritten ((s.onCh c (·.phaseDone r)).ch c).dom) = true := by rw [hi, hw]; rfl
  exact congrArg Host.Outcome.next (if_pos hwaits)

namespace InhibitedB7

/-- A self-check of B7 that passed. -/
def passed : BootReport := { fails := false, code := 0, coreFails := 0, cmpSpare := 0, tripSpare := 0, rowsLeft := 0 }

/-- Word i of the image header in the first code bank. -/
def headerKey (i : Nat) : Nat := bankKey false (headerAt false) + 4 * i

/-- Channel 0 at the end of B7 with write-inhibit standing. Its image asks for one word of constants, which is word 9 of the
header itself, at the offset that is 0x2FFF0000 bytes past their memory: the first word of the code bank. -/
def state : State :=
  { State.reset with
    c0 := (((State.reset.c0.setN SYS_BOOTSTAT_PHASE 7).putWord (headerKey 8) 0x2FFF24).putWord (headerKey 9) 1).putWord
      (headerKey 10) 0x0BFFC000
    dev := { State.reset.dev with inhibit := true } }

theorem state_placed : Placed state :=
  ⟨fun n => by cases n <;> rfl, rfl⟩

theorem state_phase : (state.ch .c0).dom.inReset = false ∧ (state.ch .c0).dom.inPhase 7 = true ∧
    (state.ch .c0).rgN SYS_BOOTSTAT_PHASE = 7 := by decide +kernel

/-- Placing the programs of this image writes its code bank. -/
theorem state_writes : (state.ch .c0).dom.nvmWritten ((state.onCh .c0 (·.phaseDone passed)).ch .c0).dom = true := by
  decide +kernel

end InhibitedB7

/-- Refutes O18: with write-inhibit standing, B7 of an image whose constants would be placed over the code bank stays in phase
7, although its self-check passed. -/
theorem not_bootPhases : ¬ Obligations.BootPhases := by
  unfold Obligations.BootPhases
  intro h
  obtain ⟨hup, hphase, hseven⟩ := InhibitedB7.state_phase
  obtain ⟨-, -, -, -, hb7, -⟩ := h InhibitedB7.state .c0 InhibitedB7.passed InhibitedB7.state_placed hup
  obtain ⟨t, ht, height, -⟩ := hb7 hphase rfl
  have hsame : t = InhibitedB7.state := by
    rw [State.bootPhase_waits rfl InhibitedB7.state_writes] at ht
    exact (Host.Outcome.next.inj ht).symm
  rw [hsame, hseven] at height
  exact absurd height (by decide)

end Sys2Proof.Machine
end

section
/-! PROOF. The supply monitors, power-on reset, the reset extension and write-inhibit (R84 to R91). -/

namespace Sys2Proof.Machine

/-! ## A supply reset of the channels (R86, R91) -/

/-- What no step of a fold changes the fold leaves as it was. -/
theorem State.foldl_kept {α β : Type} (g : State → α) {f : State → β → State} (h : ∀ s n, g (f s n) = g s) (l : List β)
    (s : State) : g (l.foldl f s) = g s := by
  induction l generalizing s with
  | nil => rfl
  | cons n l ih => exact (ih (f s n)).trans (h s n)

/-- The channel is held in reset by its supplies, and SYS_RSTSTAT shows a bit. -/
structure Channel.Supplied (bit : Fld) (x : Channel) : Prop where
  supply : x.dom.rs.supply = true
  shows : x.rgB bit = true

theorem Channel.Supplied.inReset {bit : Fld} {x : Channel} (h : x.Supplied bit) : x.dom.inReset = true := by
  simp [Domain.inReset, h.supply]

theorem Channel.recorded_rgB_other (c : Channel) {bit f : Fld} (src : ResetSrc → ResetSrc) (hf : f.hi < 32)
    (h : bit.reg ≠ f.reg ∨ f.hi < bit.lo ∨ bit.hi < f.lo) : (c.recorded bit src).rgB f = c.rgB f :=
  c.dom.rgB_setB_apart bit f true hf h

/-- A supply as the source of a reset. -/
abbrev ResetSrc.supplied (r : ResetSrc) : ResetSrc := { r with supply := true }

theorem Channel.enterReset_rs (c : Channel) : c.enterReset.dom.rs = c.dom.rs := c.enterReset_counted.dom.rs

/-- A supply reset of a channel, in reset already or not, holds it and is recorded. -/
theorem State.resetChan_supplied (s : State) (n : Chan) {bit : Fld} (hb : bit.Source) :
    ((s.resetChan n bit ResetSrc.supplied).ch n).Supplied bit := by
  have hrec : (((s.ch n).recorded bit ResetSrc.supplied)).Supplied bit :=
    ⟨rfl, (s.ch n).recorded_rgB bit _ hb.quiet.1 hb.width⟩
  rw [resetChan_ch]
  split
  · exact hrec
  · exact ⟨(congrArg ResetSrc.supply (Channel.enterReset_rs _)).trans hrec.supply,
      (Channel.enterReset_rgB _ hb.reg hb.quiet).trans hrec.shows⟩

/-- A reset leaves the flags of SYS_RSTSTAT that are not its own bit. -/
theorem State.resetChan_rgB (s : State) (n : Chan) {bit f : Fld} (src : ResetSrc → ResetSrc) (hf : f.Source)
    (h : f.hi < bit.lo ∨ bit.hi < f.lo) : ((s.resetChan n bit src).ch n).rgB f = (s.ch n).rgB f := by
  have hrec := (s.ch n).recorded_rgB_other src hf.quiet.1 (.inr h)
  rw [resetChan_ch]
  split
  · exact hrec
  · exact (Channel.enterReset_rgB _ hf.reg hf.quiet).trans hrec

theorem railBit_source (rail : Rail) : (railBit rail).Source := by
  unfold railBit
  split <;> exact ⟨rfl, by decide, rfl⟩

theorem rstOv_source : SYS_RSTSTAT_OV.Source := ⟨rfl, by decide, rfl⟩

theorem railBit_apart_ov (rail : Rail) : SYS_RSTSTAT_OV.hi < (railBit rail).lo ∨ (railBit rail).hi < SYS_RSTSTAT_OV.lo := by
  unfold railBit
  split <;> decide

theorem State.supplyChan_covered {rail : Rail} {n : Chan} (h : railCovers rail (.ch n) = true) (isOver : Bool) (s : State) :
    s.supplyChan rail isOver n =
      (s.setCh n ((s.ch n).setB SYS_RSTSTAT_OV isOver)).resetChan n (railBit rail) ResetSrc.supplied := if_pos h

theorem State.supplyChan_other (rail : Rail) (isOver : Bool) (s : State) (n m : Chan) (h : m ≠ n) :
    (s.supplyChan rail isOver n).ch m = s.ch m := by
  unfold supplyChan
  split
  · exact ((resetChan_frame _ n _ _).1 m h).trans (setCh_other _ _ h)
  · rfl

theorem State.supplyChan_dev_pending (rail : Rail) (isOver : Bool) (s : State) (n : Chan) :
    ((s.supplyChan rail isOver n).dev, (s.supplyChan rail isOver n).pending) = (s.dev, s.pending) := by
  unfold supplyChan
  split
  · extract_lets x
    obtain ⟨-, hdev, hpending⟩ := x.resetChan_frame n (railBit rail) ResetSrc.supplied
    rw [hdev, hpending]
    simp [x]
  · rfl

/-- A supply reset of the channels that its rail covers. -/
def State.supplyChans (s : State) (rail : Rail) (isOver : Bool) : State := allChans.foldl (State.supplyChan rail isOver) s

theorem State.supplyChans_dev_pending (s : State) (rail : Rail) (isOver : Bool) :
    (s.supplyChans rail isOver).dev = s.dev ∧ (s.supplyChans rail isOver).pending = s.pending :=
  Prod.mk.inj (foldl_kept (fun s => (s.dev, s.pending)) (supplyChan_dev_pending rail isOver) allChans s)

theorem State.supplyChans_covered {rail : Rail} {n : Chan} (h : railCovers rail (.ch n) = true) (isOver : Bool) (s : State) :
    ((s.supplyChans rail isOver).ch n).Supplied (railBit rail) ∧
      ((s.supplyChans rail isOver).ch n).rgB SYS_RSTSTAT_OV = isOver := by
  obtain ⟨t, -, hn⟩ := allChans_foldl_ch (supplyChan_other rail isOver) s n
  rw [supplyChans, hn, supplyChan_covered h]
  refine ⟨resetChan_supplied _ n (railBit_source rail), ?_⟩
  rw [resetChan_rgB _ n _ rstOv_source (railBit_apart_ov rail), setCh_same]
  exact (t.ch n).rgB_setB_same _ _ (by decide) rfl

theorem State.supplyChans_uncovered {rail : Rail} {n : Chan} (h : railCovers rail (.ch n) = false) (isOver : Bool) (s : State) :
    (s.supplyChans rail isOver).ch n = s.ch n := by
  obtain ⟨t, ht, hn⟩ := allChans_foldl_ch (supplyChan_other rail isOver) s n
  rw [supplyChans, hn, supplyChan, h, ← ht]
  rfl

/-! ## A supply reset of the host domain (R31, R86) -/

/-- The reset of the host domain leaves the reset sources and the quiet registers of a channel. -/
structure Channel.RegsKept (c x : Channel) : Prop where
  rs : x.dom.rs = c.dom.rs
  rg : ∀ f : Fld, f.quiet → x.rg f = c.rg f

theorem Channel.RegsKept.supplied {c x : Channel} {bit : Fld} (h : c.RegsKept x) (hc : c.Supplied bit) (hb : bit.Source) :
    x.Supplied bit := ⟨(congrArg ResetSrc.supply h.rs).trans hc.supply, (congrArg (· != 0) (h.rg bit hb.quiet)).trans hc.shows⟩

theorem Domain.loseRing_rs (d : Domain) : d.loseRing.rs = d.rs := rfl

theorem Domain.loseRing_regs (d : Domain) : d.loseRing.regs = d.regs := rfl

theorem Channel.RegsKept.of_loseRing {c x : Channel} (h : CountedCh (c.mapDom Domain.loseRing) x) : c.RegsKept x := by
  refine ⟨?_, fun f hf => ?_⟩
  · rw [h.dom.rs, Channel.mapDom_dom, Domain.loseRing_rs]
  · rw [h.rg f hf, Channel.rg, Channel.mapDom_dom, Domain.loseRing_regs, Channel.rg]

theorem State.resetHost_kept (s : State) (src : ResetSrc → ResetSrc) :
    (s.resetHost src).pending = s.pending ∧ ∀ n, (s.ch n).RegsKept ((s.resetHost src).ch n) := by
  unfold resetHost
  extract_lets h was d h₁ t
  have hch (n : Chan) : t.ch n = (s.ch n).mapDom Domain.loseRing := by
    obtain ⟨t', ht, hn⟩ := allChans_foldl_ch (f := fun s n => s.setCh n ((s.ch n).mapDom Domain.loseRing))
      (fun s _ _ hm => s.setCh_other _ hm) s n
    rw [hn, setCh_same, ht]
  have hpending : t.pending = s.pending := by simp [t, allChans]
  clear_value t
  split
  · exact ⟨rfl, fun n => by rw [mk_ch]; exact ⟨rfl, fun _ _ => rfl⟩⟩
  · obtain ⟨-, -, -, kpending⟩ := settleLinks allChans { t with host := t.host.settleSignals h₁.enterReset }
    obtain ⟨kch, -, -⟩ := t.settleHost_frame { t with host := h₁.enterReset }
    refine ⟨kpending.trans hpending, fun n => ?_⟩
    have hn := kch n
    rw [mk_ch, hch] at hn
    exact .of_loseRing hn

theorem State.resetHost_supplied (s : State) : (s.resetHost ResetSrc.supplied).host.dom.inReset = true := by
  obtain ⟨hrs, -, -⟩ := s.resetHost_frame ResetSrc.supplied
  simp [Domain.inReset, hrs]

/-! ## SUPPLY_MONITOR_ASSERT (R86) -/

/-- The rails asserted, with one more. -/
def Dev.asserted (v : Dev) (rail : Rail) : Dev := { v with bad := if v.bad.contains rail then v.bad else v.bad ++ [rail] }

theorem Dev.mem_asserted (v : Dev) (rail : Rail) : rail ∈ (v.asserted rail).bad := by
  unfold asserted
  by_cases h : rail ∈ v.bad <;> simp [h]

/-- The channels' part of a supply reset, with the rail noted. -/
def State.railAsserted (s : State) (rail : Rail) (isOver : Bool) : State :=
  ({ s with dev := s.dev.asserted rail }).supplyChans rail isOver

theorem State.supplyAssert_eq {rail : Rail} (h : rail ≠ .vio) (isOver : Bool) (s : State) :
    s.supplyAssert rail isOver =
      if railCovers rail .host then (s.railAsserted rail isOver).resetHost ResetSrc.supplied
      else s.railAsserted rail isOver := if_neg h

/-- Whether or not the host domain is reset too. -/
theorem State.supplyAssert_kept {rail : Rail} (h : rail ≠ .vio) (isOver : Bool) (s : State) :
    (s.supplyAssert rail isOver).dev = (s.railAsserted rail isOver).dev ∧
      (s.supplyAssert rail isOver).pending = (s.railAsserted rail isOver).pending ∧
      ∀ n, ((s.railAsserted rail isOver).ch n).RegsKept ((s.supplyAssert rail isOver).ch n) := by
  rw [supplyAssert_eq h]
  split
  · obtain ⟨-, hdev, -⟩ := (s.railAsserted rail isOver).resetHost_frame ResetSrc.supplied
    obtain ⟨hpending, hch⟩ := (s.railAsserted rail isOver).resetHost_kept ResetSrc.supplied
    exact ⟨hdev, hpending, hch⟩
  · exact ⟨rfl, rfl, fun n => ⟨rfl, fun _ _ => rfl⟩⟩

theorem State.supplyAssert_covered {rail : Rail} {n : Chan} (h : rail ≠ .vio) (hn : railCovers rail (.ch n) = true)
    (isOver : Bool) (s : State) :
    ((s.supplyAssert rail isOver).ch n).Supplied (railBit rail) ∧
      ((s.supplyAssert rail isOver).ch n).rgB SYS_RSTSTAT_OV = isOver := by
  obtain ⟨-, -, hch⟩ := supplyAssert_kept h isOver s
  obtain ⟨hsup, hov⟩ := State.supplyChans_covered hn isOver { s with dev := s.dev.asserted rail }
  exact ⟨(hch n).supplied hsup (railBit_source rail), (congrArg (· != 0) ((hch n).rg _ (by decide))).trans hov⟩

theorem State.supplyAssert_host {rail : Rail} (h : rail ≠ .vio) (hh : railCovers rail .host = true) (isOver : Bool) (s : State) :
    (s.supplyAssert rail isOver).host.dom.inReset = true := by
  rw [supplyAssert_eq h, if_pos hh]
  exact resetHost_supplied _

/-- An analogue rail is its own channel's. -/
theorem State.supplyAssert_vana {a n : Chan} (h : n ≠ a) (isOver : Bool) (s : State) :
    (s.supplyAssert (.vana a) isOver).ch n = s.ch n := by
  have hn : railCovers (.vana a) (.ch n) = false := by simp [railCovers, h.symm]
  rw [supplyAssert_eq (rail := .vana a) nofun]
  exact (State.supplyChans_uncovered hn isOver { s with dev := s.dev.asserted (.vana a) }).trans (mk_ch ..)

/-! ## Power-on reset (R86, R90) -/

/-- The channels' and the host's part of a power-on reset. -/
def State.allReset (s : State) : State :=
  (allChans.foldl (fun s n => s.resetChan n SYS_RSTSTAT_POR ResetSrc.supplied) s).resetHost ResetSrc.supplied

/-- Power-on reset clears the registers that a reset keeps. -/
def Domain.wipe (d : Domain) : Domain := { d with regs := [], warm := false }

theorem Domain.wipe_por (d : Domain) : d.wipe.rgB SYS_RSTSTAT_POR = true := by
  have h : rgB d.wipe SYS_RSTSTAT_POR = (fld [] SYS_RSTSTAT_POR != 0) := rfl
  rw [h]
  decide

/-- Every channel wiped. -/
def State.channelsWiped (s : State) : State :=
  allChans.foldl (fun (s : State) n => s.setCh n ((s.ch n).mapDom Domain.wipe)) s

/-- Every domain wiped. -/
def State.allWiped (s : State) : State := s.channelsWiped.setDom .host s.channelsWiped.host.dom.wipe

/-- VIO noted as asserted, and EXTEST ended. -/
def State.vioNoted (s : State) : State := { s with dev := { s.dev.asserted .vio with extest := none } }

theorem State.powerOn_eq (s : State) : s.powerOn = s.allReset.allWiped.vioNoted := by
  unfold powerOn
  extract_lets _ x wipe y z
  have hx : s.allReset = x := rfl
  have hy : x.channelsWiped = y := rfl
  have hz : x.allWiped = z := by
    rw [allWiped, hy]
    rfl
  rw [hx, hz]
  rfl

theorem State.allReset_inReset (s : State) (n : Chan) : (s.allReset.ch n).dom.inReset = true := by
  obtain ⟨t, -, hn⟩ := allChans_foldl_ch (f := fun s n => s.resetChan n SYS_RSTSTAT_POR ResetSrc.supplied)
    (fun s n m hm => (s.resetChan_frame n _ _).1 m hm) s n
  have hsup : (((allChans.foldl (fun s n => s.resetChan n SYS_RSTSTAT_POR ResetSrc.supplied) s)).ch n).Supplied
      SYS_RSTSTAT_POR := hn ▸ t.resetChan_supplied n (railBit_source .vio)
  obtain ⟨-, hch⟩ := State.resetHost_kept (allChans.foldl (fun s n => s.resetChan n SYS_RSTSTAT_POR ResetSrc.supplied) s)
    ResetSrc.supplied
  exact ((hch n).supplied hsup (railBit_source .vio)).inReset

theorem State.channelsWiped_ch (s : State) (n : Chan) : s.channelsWiped.ch n = (s.ch n).mapDom Domain.wipe := by
  obtain ⟨t, ht, hn⟩ := allChans_foldl_ch (f := fun s n => s.setCh n ((s.ch n).mapDom Domain.wipe))
    (fun s _ _ hm => s.setCh_other _ hm) s n
  rw [channelsWiped, hn, setCh_same, ht]

theorem State.channelsWiped_host (s : State) : s.channelsWiped.host = s.host :=
  foldl_kept State.host (fun s n => setCh_host s n _) allChans s

theorem State.powerOn_ch (s : State) (n : Chan) : s.powerOn.ch n = (s.allReset.ch n).mapDom Domain.wipe := by
  rw [powerOn_eq, vioNoted, mk_ch, allWiped, setDom_host_ch, channelsWiped_ch]

theorem State.powerOn_host (s : State) : s.powerOn.host.dom = s.allReset.host.dom.wipe := by
  have hwipe (x : State) : x.allWiped.vioNoted.host.dom = x.channelsWiped.host.dom.wipe := rfl
  rw [powerOn_eq, hwipe, channelsWiped_host]

theorem State.powerOn_inReset (s : State) : (∀ n, (s.powerOn.ch n).dom.inReset = true) ∧ s.powerOn.host.dom.inReset = true := by
  refine ⟨fun n => ?_, ?_⟩
  · rw [powerOn_ch]
    exact s.allReset_inReset n
  · rw [powerOn_host]
    exact resetHost_supplied _

/-! ## The reset extension (R88) and write-inhibit (R84) -/

/-- The extension of a domain ends with no other source: the domain leaves reset. -/
theorem State.extensionExpiry_leaves {s : State} {d : Dom} (hrs : (s.dom d).rs = ⟨true, false, false, false⟩)
    (hbad : ∀ r ∈ s.dev.bad, railCovers r d = false) :
    ((s.extensionExpiry d).dom d).inReset = false ∧ (s.extensionExpiry d).dev = s.dev := by
  have hgo : ((s.dom d).rs.supply && !s.dev.bad.any (fun r => railCovers r d)) = true := by
    rw [hrs]
    simpa using hbad
  unfold extensionExpiry
  rw [if_pos hgo]
  cases d with
  | ch n =>
    obtain ⟨hch, -, hdev⟩ := s.releaseChan_frame n fun r => { r with supply := false }
    have hr : ((s.ch n).dom).rs = ⟨true, false, false, false⟩ := hrs
    refine ⟨?_, hdev⟩
    show ((s.releaseChan n _).ch n).dom.inReset = false
    rw [hch.dom.inReset]
    simp [Domain.inReset, hr]
  | host =>
    obtain ⟨-, hhost, hdev⟩ := s.settleHost_frame
      { s with host := { s.host with dom := { s.host.dom with rs := { s.host.dom.rs with supply := false } } } }
    have hr : s.host.dom.rs = ⟨true, false, false, false⟩ := hrs
    refine ⟨?_, hdev⟩
    show (s.releaseHost _).host.dom.inReset = false
    rw [releaseHost, hhost.inReset]
    simp [Domain.inReset, hr]

theorem State.extensionExpiry_covered {s : State} {d : Dom} {r : Rail} (hr : r ∈ s.dev.bad) (hc : railCovers r d = true) :
    s.extensionExpiry d = s := by
  refine if_neg ?_
  have hany : s.dev.bad.any (fun r => railCovers r d) = true := List.any_eq_true.2 ⟨r, hr, hc⟩
  simp [hany]

/-- The record save that waited in a domain (R459). -/
def Domain.saved (d : Domain) : Domain := if d.spr.saveReq && !d.inReset then d.saveRecord else d

/-- The saves that waited in the channels. -/
def State.channelsSaved (s : State) : State :=
  allChans.foldl (fun (s : State) n => s.setCh n ((s.ch n).mapDom Domain.saved)) s

theorem State.channelsSaved_dev (s : State) : s.channelsSaved.dev = s.dev :=
  foldl_kept State.dev (fun s n => setCh_dev s n _) allChans s

theorem State.channelsSaved_ch (s : State) (n : Chan) : s.channelsSaved.ch n = (s.ch n).mapDom Domain.saved := by
  obtain ⟨t, ht, hn⟩ := allChans_foldl_ch (f := fun s n => s.setCh n ((s.ch n).mapDom Domain.saved))
    (fun s _ _ hm => s.setCh_other _ hm) s n
  rw [channelsSaved, hn, setCh_same, ht]

theorem State.writeInhibit_ends (s : State) : (s.writeInhibit false).dev = { s.dev with inhibit := false } ∧
    ∀ n, ((s.writeInhibit false).ch n).pwm = (s.ch n).pwm := by
  let x : State := { s with dev := { s.dev with inhibit := false } }
  have heq : s.writeInhibit false = x.channelsSaved.setDom .host x.channelsSaved.host.dom.saved := rfl
  refine ⟨?_, fun n => ?_⟩
  · rw [heq, setDom_dev, channelsSaved_dev]
  · rw [heq, setDom_host_ch, channelsSaved_ch, Channel.mapDom_pwm, mk_ch]

/-- The writes that waited act on the host domain alone. -/
theorem State.inhibitChange_ends (s : State) : (s.inhibitChange false).dev = { s.dev with inhibit := false } ∧
    ∀ n, ((s.inhibitChange false).ch n).pwm = (s.ch n).pwm := by
  obtain ⟨hdev, hpwm⟩ := s.writeInhibit_ends
  unfold inhibitChange
  extract_lets t
  cases hr : t.host.dom.inReset with
  | true =>
    rw [if_neg Bool.false_ne_true, onHost, if_pos hr]
    exact ⟨hdev, hpwm⟩
  | false =>
    obtain ⟨-, hch, hd, -⟩ := t.onHost_counted
      (fun h => h.upd.waiting.foldl HostDom.updWrite { h with upd := { h.upd with waiting := [] } }) hr
    exact ⟨hd.trans hdev, fun n => (hch n).pwm.trans (hpwm n)⟩

/-- Settles O16, monitor by monitor. -/
theorem supplyResets : Obligations.SupplyResets := by
  refine ⟨fun s rail isOver => ⟨fun h => ?_, ⟨s, rfl, rfl⟩, ?_, ?_, ⟨_, rfl, rfl⟩⟩, fun s d => ⟨fun hrs hbad => ?_,
    fun r hr hc => ?_, ⟨_, rfl, rfl⟩, ?_⟩⟩
  · obtain ⟨hdev, hpending, -⟩ := State.supplyAssert_kept h isOver s
    obtain ⟨hd, hp⟩ := State.supplyChans_dev_pending { s with dev := s.dev.asserted rail } rail isOver
    refine ⟨_, rfl, ?_, fun n hn => ?_, fun hh => State.supplyAssert_host h hh isOver s, fun a n ha hn => ?_, hpending.trans hp⟩
    · rw [hdev, State.railAsserted, hd]
      exact s.dev.mem_asserted rail
    · obtain ⟨hsup, hov⟩ := State.supplyAssert_covered h hn isOver s
      exact ⟨hsup.inReset, hsup.shows, hov⟩
    · subst ha
      exact State.supplyAssert_vana hn isOver s
  · obtain ⟨hch, hhost⟩ := s.powerOn_inReset
    have hbad : Rail.vio ∈ s.powerOn.dev.bad := by
      rw [State.powerOn_eq]
      exact s.allReset.allWiped.dev.mem_asserted .vio
    exact ⟨s.powerOn, rfl, hch, hhost, hbad⟩
  · obtain ⟨hch, hhost⟩ := s.powerOn_inReset
    refine ⟨_, rfl, fun n => ⟨hch n, ?_, ?_⟩, hhost, congrArg Domain.regs s.powerOn_host⟩
    · rw [State.powerOn_ch]
      rfl
    · rw [State.powerOn_ch]
      exact Domain.wipe_por _
  · exact ⟨_, rfl, State.extensionExpiry_leaves hrs hbad⟩
  · exact ⟨_, rfl, State.extensionExpiry_covered hr hc⟩
  · obtain ⟨hdev, hpwm⟩ := s.inhibitChange_ends
    exact ⟨_, rfl, congrArg Dev.inhibit hdev, hpwm⟩

end Sys2Proof.Machine
end

section
/-! PROOF. What each operation of the update manager makes of the host domain: PSTATE and its copy in UPD_STAT, the state of the
staging session, and what they leave as it was (R498, R508, R509, R514, R518). -/

namespace Sys2Proof.Machine

/-! ## Words of a memory -/

theorem memWord_memPutWord_other (m : List Host.Cell) {a b : Nat} (w : Word) (h : b + 4 ≤ a ∨ a + 4 ≤ b) :
    memWord (memPutWord m a w) b = memWord m b := by
  have hbyte (i : Nat) (hi : i < 4) : memByte (memPutWord m a w) (b + i) = memByte m (b + i) :=
    memByte_memPutWord_other m a w (b + i) (by omega)
  simp only [memWord, memRead, Nat.add_assoc, Nat.reduceAdd]
  have hfirst : memByte (memPutWord m a w) b = memByte m b := hbyte 0 (by decide)
  rw [hfirst, hbyte 1 (by decide), hbyte 2 (by decide), hbyte 3 (by decide)]

/-- Words that go to memory one after another are read back. -/
theorem memWord_putWords (a : Nat) (ws : List Word) (m : List Host.Cell) {j : Nat} (hj : j < ws.length) :
    memWord (putWords m a ws) (a + 4 * j) = ws.getD j 0 := by
  induction ws using List.reverseRecOn generalizing j with
  | nil => exact absurd hj (Nat.not_lt_zero j)
  | append_singleton ws w ih =>
    have hput : putWords m a (ws ++ [w]) = memPutWord (putWords m a ws) (a + 4 * ws.length) w := by
      rw [putWords, List.length_append, List.length_singleton, List.range_succ,
        List.zip_append (by simp), List.foldl_append]
      rfl
    rw [hput]
    rcases Nat.lt_or_ge j ws.length with h | h
    · rw [memWord_memPutWord_other _ _ (by omega), ih h, List.getD_append _ _ _ _ h]
    · have hlast : j = ws.length := by
        rw [List.length_append, List.length_singleton] at hj
        omega
      rw [hlast, memWord_memPutWord_same, List.getD_append_right _ _ _ _ le_rfl]
      simp

theorem Domain.rgN_count_same (d : Domain) (f : Fld) (h : f.hi < 32) (hw : f.width ≤ 32) :
    (d.count f).rgN f = satN (2 ^ f.width - 1) (d.rgN f + 1) := by
  have hpos := Nat.two_pow_pos f.width
  refine d.rgN_setN_same f _ h ?_ hw
  unfold satN
  split <;> omega

namespace HostDom

/-! ## What the update manager leaves of the host domain -/

/-- The second host domain shows the same links and wraps, and has the same cores and ring as the first. -/
structure UpdTouched (a b : HostDom) : Prop where
  shown : ∀ f : Fld, f.quiet → f.reg = RING_STAT_LINKA.reg → b.dom.rg f = a.dom.rg f
  core : ∀ e, b.dom.core e = a.dom.core e
  ring : b.ring = a.ring

theorem UpdTouched.refl (a : HostDom) : a.UpdTouched a := ⟨fun _ _ _ => rfl, fun _ => rfl, rfl⟩

theorem UpdTouched.trans {a b c : HostDom} (h : a.UpdTouched b) (g : b.UpdTouched c) : a.UpdTouched c :=
  ⟨fun f hf hr => (g.shown f hf hr).trans (h.shown f hf hr), fun e => (g.core e).trans (h.core e), g.ring.trans h.ring⟩

theorem UpdTouched.ite {a b c : HostDom} {p : Prop} [Decidable p] (h : a.UpdTouched b) (g : a.UpdTouched c) :
    a.UpdTouched (if p then b else c) := by
  split
  · exact h
  · exact g

theorem UpdTouched.putWord (h : HostDom) (a : Nat) (w : Word) : h.UpdTouched (h.putWord a w) :=
  ⟨fun _ _ _ => rfl, fun e => by cases e <;> rfl, rfl⟩

theorem UpdTouched.setB (h : HostDom) (f : Fld) (b : Bool) (hf : f.reg ≠ RING_STAT_LINKA.reg) : h.UpdTouched (h.setB f b) :=
  ⟨fun g _ hg => h.dom.rg_set_reg f g _ (hg ▸ hf), fun e => by cases e <;> rfl, rfl⟩

theorem UpdTouched.setN (h : HostDom) (f : Fld) (n : Nat) (hf : f.reg ≠ RING_STAT_LINKA.reg) : h.UpdTouched (h.setN f n) :=
  ⟨fun g _ hg => h.dom.rg_set_reg f g _ (hg ▸ hf), fun e => by cases e <;> rfl, rfl⟩

theorem UpdTouched.raise (h : HostDom) (ev arg : Nat) (hev : ev < 128) : h.UpdTouched (h.raise ev arg) :=
  have hc := Counted.raise h.dom ev arg hev
  ⟨fun f hf _ => hc.rg f hf, hc.core, rfl⟩

theorem UpdTouched.upd (h : HostDom) (u : Upd) : h.UpdTouched { h with upd := u } := ⟨fun _ _ _ => rfl, fun _ => rfl, rfl⟩

theorem UpdTouched.signal {a b : HostDom} (h : a.UpdTouched b) (i : Nat) : b.signal i = a.signal i := by
  unfold HostDom.signal
  simp only [Domain.rgN, Domain.rgB, h.shown RING_STAT_LINKA (by decide) rfl, h.shown RING_STAT_LINKB (by decide) rfl,
    h.shown RING_STAT_BYPASS (by decide) rfl, h.shown RING_STAT_RLOST (by decide) rfl]

/-- No signal of the ring goes from one level to the other. -/
theorem UpdTouched.settleSignals {a b : HostDom} (h : a.UpdTouched b) : a.settleSignals b = b := by
  have hedge (l : List Nat) : l.foldl (fun d i => d.edge i (a.signal i) (b.signal i)) b.dom = b.dom := by
    induction l with
    | nil => rfl
    | cons i l ih =>
      rw [List.foldl_cons, h.signal i, Domain.edge, if_pos rfl]
      exact ih
  unfold HostDom.settleSignals
  rw [hedge]
  exact ite_self b

/-! ## PSTATE (R498, R518) -/

/-- The three flags of PSTATE as its word holds them. -/
def pstate (pending revpend revok : Bool) : Word := ofB pending + 2 * ofB revpend + 4 * ofB revok

theorem pstate_bits (a b c : Bool) :
    bitOf (pstate a b c) 0 = a ∧ bitOf (pstate a b c) 1 = b ∧ bitOf (pstate a b c) 2 = c := by
  cases a <;> cases b <;> cases c <;> decide

theorem setPstate_word (h : HostDom) (a b c : Bool) : (h.setPstate a b c).word 0x2000000C = pstate a b c := by
  have hmem : (h.setPstate a b c).dom.mem = memPutWord h.dom.mem 0x2000000C (pstate a b c) := rfl
  rw [word, hmem, memWord_memPutWord_same]

/-- The flags of PSTATE read as the word that holds them. -/
theorem pstate_of_word {h : HostDom} {a b c : Bool} (hw : h.word 0x2000000C = pstate a b c) :
    h.pendingBit = a ∧ h.revpend = b ∧ h.revok = c := by
  obtain ⟨h0, h1, h2⟩ := pstate_bits a b c
  simp only [pendingBit, revpend, revok, hw]
  exact ⟨h0, h1, h2⟩

theorem setPstate_flags (h : HostDom) (a b c : Bool) :
    (h.setPstate a b c).pendingBit = a ∧ (h.setPstate a b c).revpend = b ∧ (h.setPstate a b c).revok = c :=
  pstate_of_word (h.setPstate_word a b c)

theorem setPstate_touched (h : HostDom) (a b c : Bool) : h.UpdTouched (h.setPstate a b c) := by
  unfold setPstate
  extract_lets x
  have hx : h.UpdTouched x := .putWord _ _ _
  exact ((hx.trans (.setB _ _ _ (by decide))).trans (.setB _ _ _ (by decide))).trans (.setB _ _ _ (by decide))

theorem setPstate_upd (h : HostDom) (a b c : Bool) : (h.setPstate a b c).upd = h.upd := by
  simp only [setPstate, setB, putWord]

theorem setPstate_pending (h : HostDom) (a b c : Bool) : (h.setPstate a b c).dom.rgB UPD_STAT_PENDING = a := by
  unfold setPstate
  extract_lets x
  rw [show (((x.setB UPD_STAT_PENDING a).setB UPD_STAT_REVPEND b).setB UPD_STAT_REVOK c).dom =
    ((x.dom.setB UPD_STAT_PENDING a).setB UPD_STAT_REVPEND b).setB UPD_STAT_REVOK c from rfl]
  simp (disch := decide) only [Domain.rgB_setB_apart, Domain.rgB_setB_same]

/-! ## The state of the session (R508, R509) -/

theorem setStg_stg (h : HostDom) {n : Nat} (hn : n < 4) : (h.setStg n).dom.rgN UPD_STAT_STG = n := by
  unfold setStg
  split
  · assumption
  · exact ((Counted.raise (h.dom.setN UPD_STAT_STG n) 0x40 n (by decide)).rgN _ (by decide)).trans
      (h.dom.rgN_setN_same _ _ (by decide) hn (by decide))

/-- The state of the session is no other field of UPD_STAT, and no word of the memory. -/
theorem setStg_rgB (h : HostDom) (n : Nat) {f : Fld} (hf : f.quiet) (ha : f.hi < 4 ∨ 5 < f.lo) :
    (h.setStg n).dom.rgB f = h.dom.rgB f := by
  unfold setStg
  split
  · rfl
  · exact ((Counted.raise (h.dom.setN UPD_STAT_STG n) 0x40 n (by decide)).rgB f hf).trans
      (h.dom.rgB_setN_apart UPD_STAT_STG f n hf.1 (.inr ha))

theorem setStg_mem (h : HostDom) (n : Nat) : (h.setStg n).dom.mem = h.dom.mem := by
  unfold setStg
  split
  · rfl
  · exact Domain.raise_mem _ _ _

theorem setStg_word (h : HostDom) (n a : Nat) : (h.setStg n).word a = h.word a := by
  rw [word, setStg_mem, word]

theorem setStg_touched (h : HostDom) (n : Nat) : h.UpdTouched (h.setStg n) :=
  .ite (.refl h) ((UpdTouched.setN _ _ _ (by decide)).trans (.raise _ _ _ (by decide)))

theorem putWord_word_other (h : HostDom) {a b : Nat} (w : Word) (hab : b + 4 ≤ a ∨ a + 4 ≤ b) :
    (h.putWord a w).word b = h.word b := memWord_memPutWord_other _ _ hab

theorem putWord_upd (h : HostDom) (a : Nat) (w : Word) : (h.putWord a w).upd = h.upd := rfl

theorem putWord_word_same (h : HostDom) (a : Nat) (w : Word) : (h.putWord a w).word a = w := memWord_memPutWord_same _ _ _

/-- The session in a state, with no seal asked for. -/
def session (h : HostDom) (n : Nat) : HostDom := { h.setStg n with upd := { h.upd with sealing := false } }

theorem session_stg (h : HostDom) {n : Nat} (hn : n < 4) : (h.session n).dom.rgN UPD_STAT_STG = n := h.setStg_stg hn

theorem session_word (h : HostDom) (n a : Nat) : (h.session n).word a = h.word a := h.setStg_word n a

theorem session_touched (h : HostDom) (n : Nat) : h.UpdTouched (h.session n) := (h.setStg_touched n).trans (.upd _ _)

theorem session_flags (h : HostDom) (n : Nat) :
    (h.session n).pendingBit = h.pendingBit ∧ (h.session n).revpend = h.revpend ∧ (h.session n).revok = h.revok := by
  simp only [pendingBit, revpend, revok, session_word, and_self]

/-! ## OPEN, CLOSE and SEAL (R508, R509) -/

theorem stagingOpen_refused {h : HostDom} (hp : h.pendingBit = true ∨ propOf h.act = true) : h.stagingOpen = h :=
  if_pos (by simpa using hp)

/-- A session opens with PSTATE and the first word of its area cleared. -/
theorem stagingOpen_eq {h : HostDom} (hp : h.pendingBit = false) (ha : propOf h.act = false) :
    h.stagingOpen = ((h.setPstate false false false).putWord 0x20001000 0).session 1 := by
  have hno : ¬(h.pendingBit || propOf h.act) = true := by simp [hp, ha]
  exact if_neg hno

theorem stagingClose_eq (h : HostDom) : h.stagingClose = (h.setPstate false h.revpend h.revok).session 0 := rfl

/-- What a staging session asks before it is sealed (R509). -/
theorem stagingSealed_eq {h : HostDom} (hs : h.upd.sealing = true) (hb : h.upd.bufs = []) (hst : h.dom.rgN UPD_STAT_STG = 1) :
    h.stagingSealed = (h.setPstate true h.revpend h.revok).session 2 := by
  have hgo : (h.upd.sealing && h.upd.bufs.isEmpty && h.rgN UPD_STAT_STG == 1) = true := by
    rw [HostDom.rgN, hst, hs, hb]
    rfl
  exact if_pos hgo

theorem stagingSeal_open {h : HostDom} (hst : h.dom.rgN UPD_STAT_STG = 1) :
    h.stagingSeal = { h with upd := { h.upd with sealing := true } } := if_pos hst

theorem stagingOpen_touched (h : HostDom) : h.UpdTouched h.stagingOpen := by
  unfold stagingOpen
  split
  · exact .refl h
  · exact ((h.setPstate_touched _ _ _).trans (.putWord _ _ _)).trans (session_touched _ 1)

theorem stagingClose_touched (h : HostDom) : h.UpdTouched h.stagingClose := (h.setPstate_touched _ _ _).trans (session_touched _ 0)

theorem stagingSeal_touched (h : HostDom) : h.UpdTouched h.stagingSeal := .ite (.upd _ _) (.refl h)

theorem stagingSealed_touched (h : HostDom) : h.UpdTouched h.stagingSealed := by
  unfold stagingSealed
  split
  · exact (h.setPstate_touched _ _ _).trans (session_touched _ 2)
  · exact .refl h

theorem stgctl_touched (h : HostDom) (w : Word) : h.UpdTouched (h.stgctl w) := by
  unfold stgctl
  extract_lets x y
  have hx : h.UpdTouched x := .ite h.stagingClose_touched (.refl h)
  have hy : x.UpdTouched y := .ite x.stagingOpen_touched (.refl x)
  exact (hx.trans hy).trans (.ite y.stagingSeal_touched (.refl y))

theorem updCmd_touched (h : HostDom) (w : Word) : h.UpdTouched (h.updCmd w) := by
  unfold updCmd
  extract_lets x
  have hx : h.UpdTouched x := .ite (h.setPstate_touched _ _ _) (.refl h)
  exact hx.trans (.ite (x.setPstate_touched _ _ _) (.refl x))

/-! ## One command bit of UPD_STGCTL or UPD_CMD -/

theorem updWrite_stgctl (h : HostDom) (w : Word) : h.updWrite (false, w) = h.stgctl w := rfl
theorem updWrite_updCmd (h : HostDom) (w : Word) : h.updWrite (true, w) = h.updCmd w := rfl

theorem stgctl_open (h : HostDom) : h.stgctl 0x5A3C0001 = h.stagingOpen := rfl
theorem stgctl_close (h : HostDom) : h.stgctl 0x5A3C0002 = h.stagingClose := rfl
theorem stgctl_seal (h : HostDom) : h.stgctl 0x5A3C0004 = h.stagingSeal := rfl
theorem updCmd_cancel (h : HostDom) : h.updCmd 0x5A3C0002 = h.setPstate false false h.revok := rfl

theorem updCmd_revert {h : HostDom} (hr : h.revok = true) (hp : h.pendingBit = false) :
    h.updCmd 0x5A3C0001 = h.setPstate false true true := by
  have hone : h.updCmd 0x5A3C0001 =
      if true && h.revok && !h.pendingBit then h.setPstate h.pendingBit true h.revok else h := rfl
  rw [hone, hr, hp]
  rfl

theorem updCmd_revert_refused {h : HostDom} (hno : h.revok = false ∨ h.pendingBit = true) : h.updCmd 0x5A3C0001 = h := by
  have hone : h.updCmd 0x5A3C0001 =
      if true && h.revok && !h.pendingBit then h.setPstate h.pendingBit true h.revok else h := rfl
  rw [hone]
  exact if_neg (by rcases hno with h | h <;> simp [h])

end HostDom
end Sys2Proof.Machine
end

section
/-! PROOF. The commands of the update manager as the device answers them: control writes with their key, chunks taken and
refused, chunks written (R84, R508, R509, R514, R518). -/

namespace Sys2Proof.Machine

/-! ## A change of the host domain that shows nothing to the channels -/

/-- Such a change is the host domain as changed, exactly. -/
theorem State.onHost_touched (s : State) {f : HostDom → HostDom} (hu : s.host.dom.inReset = false)
    (hf : s.host.UpdTouched (f s.host)) : (s.onHost f).host = f s.host ∧ HostSide s (s.onHost f) := by
  have hhost : (s.onHost f).host = f s.host := by
    obtain ⟨-, hh, -, -⟩ := settleLinks allChans { s with host := s.host.settleSignals (f s.host) }
    rw [onHost, hu]
    exact hh.trans hf.settleSignals
  obtain ⟨-, hch, hdev, hpending⟩ := s.onHost_counted f hu
  refine ⟨hhost, fun n => ?_, fun e => ?_, hdev, hpending⟩
  · obtain ⟨⟨r, p, q, x, y, hd⟩, -⟩ := (hch n).dom
    exact ⟨r, p, _, x, y, (hch n).rest.trans (by rw [hd])⟩
  · rw [hhost]
    exact hf.core e

/-- A command of the update manager answers a host domain with P, and changes nothing else. -/
def UpdAnswers (i : Instr) (s : State) (P : HostDom → Prop) : Prop := Answers i s fun t => P t.host ∧ HostSide s t

theorem UpdAnswers.of {i : Instr} {s : State} {f : HostDom → HostDom} {P : HostDom → Prop}
    (hi : exec i s = .next (s.onHost f)) (hu : s.host.dom.inReset = false) (hf : s.host.UpdTouched (f s.host))
    (hp : P (f s.host)) : UpdAnswers i s P := by
  obtain ⟨hhost, hside⟩ := s.onHost_touched hu hf
  exact ⟨_, hi, hhost ▸ hp, hside⟩

/-! ## Control writes (R508, R509, R514, R518) -/

/-- The command is bit k of a write of UPD_CMD (cmd) or UPD_STGCTL. -/
def Controls (i : Instr) (k : Nat) (cmd : Bool) (w : Word) : Prop :=
  ∀ s, exec i s = .next (s.when (bitOf w k) (·.updControl cmd w))

theorem stagingOpen_controls (w : Word) : Controls (.stagingOpen w) 0 false w := fun _ => rfl
theorem stagingClose_controls (w : Word) : Controls (.stagingClose w) 1 false w := fun _ => rfl
theorem stagingSeal_controls (w : Word) : Controls (.stagingSeal w) 2 false w := fun _ => rfl
theorem revert_controls (w : Word) : Controls (.revert w) 0 true w := fun _ => rfl
theorem cancel_controls (w : Word) : Controls (.cancel w) 1 true w := fun _ => rfl

theorem keyed_iff (w : Word) : keyed w = true ↔ fget w 31 16 = 0x5A3C := by simp [keyed]

theorem State.updControl_unkeyed (s : State) (cmd : Bool) {w : Word} (h : fget w 31 16 ≠ 0x5A3C) : s.updControl cmd w = s :=
  if_neg (mt (keyed_iff w).1 h)

namespace Controls
variable {i : Instr} {k : Nat} {cmd : Bool} {w : Word} (hc : Controls i k cmd w) {s : State}
include hc

theorem unkeyed (h : fget w 31 16 ≠ 0x5A3C) : Answers i s fun t => t = s := by
  refine ⟨s, (hc s).trans ?_, rfl⟩
  show Host.Outcome.next (if bitOf w k then s.updControl cmd w else s) = _
  rw [State.updControl_unkeyed _ _ h, ite_self]

theorem clear (h : bitOf w k = false) : Answers i s fun t => t = s := by
  refine ⟨s, (hc s).trans ?_, rfl⟩
  rw [h]
  rfl

theorem exec_keyed (hk : fget w 31 16 = 0x5A3C) (hb : bitOf w k = true) : exec i s = .next (s.onHost fun h =>
    if s.dev.inhibit then { h with upd := { h.upd with waiting := h.upd.waiting ++ [(cmd, w)] } } else h.updWrite (cmd, w)) := by
  rw [hc s, hb]
  exact congrArg Host.Outcome.next (if_pos ((keyed_iff w).2 hk))

/-- A control write acts when NVM may be written. -/
theorem acts (hu : s.host.dom.inReset = false) (hk : fget w 31 16 = 0x5A3C) (hi : s.dev.inhibit = false)
    (hb : bitOf w k = true) : UpdAnswers i s fun y => y = s.host.updWrite (cmd, w) := by
  have hx : exec i s = .next (s.onHost (·.updWrite (cmd, w))) := by
    rw [hc.exec_keyed hk hb, hi]
    rfl
  refine .of hx hu ?_ rfl
  cases cmd
  · rw [HostDom.updWrite_stgctl]
    exact s.host.stgctl_touched w
  · rw [HostDom.updWrite_updCmd]
    exact s.host.updCmd_touched w

/-- Under write-inhibit it waits behind those before it (R84). -/
theorem waits (hu : s.host.dom.inReset = false) (hk : fget w 31 16 = 0x5A3C) (hi : s.dev.inhibit = true)
    (hb : bitOf w k = true) :
    UpdAnswers i s fun y => y = { s.host with upd := { s.host.upd with waiting := s.host.upd.waiting ++ [(cmd, w)] } } := by
  have hx : exec i s = .next (s.onHost fun h =>
      { h with upd := { h.upd with waiting := h.upd.waiting ++ [(cmd, w)] } }) := by
    rw [hc.exec_keyed hk hb, hi]
    rfl
  exact .of hx hu (.upd _ _) rfl

end Controls

/-! ## What one command bit makes of the session and of PSTATE -/

section
variable {s : State} (hu : s.host.dom.inReset = false) (hi : s.dev.inhibit = false)
include hu hi

/-- A control write with its key answers with what it makes of the host domain. -/
theorem Controls.answers {i : Instr} {k : Nat} {cmd : Bool} {w : Word} {P : HostDom → Prop} (hc : Controls i k cmd w)
    (hk : fget w 31 16 = 0x5A3C) (hb : bitOf w k = true) (hp : P (s.host.updWrite (cmd, w))) : UpdAnswers i s P := by
  obtain ⟨t, ht, hhost, hside⟩ := hc.acts hu hk hi hb
  exact ⟨t, ht, hhost ▸ hp, hside⟩

theorem stagingOpen_answers (hp : s.host.pendingBit = false) (ha : propOf s.host.act = false) :
    UpdAnswers (.stagingOpen 0x5A3C0001) s fun y => y.dom.rgN UPD_STAT_STG = 1 ∧ y.word 0x20001000 = 0 ∧ y.revpend = false ∧
      y.revok = false ∧ y.upd = { s.host.upd with sealing := false } ∧ y.ring = s.host.ring := by
  refine (stagingOpen_controls _).answers hu hi (by decide) (by decide) ?_
  have heq : s.host.updWrite (false, 0x5A3C0001) = ((s.host.setPstate false false false).putWord 0x20001000 0).session 1 := by
    rw [HostDom.updWrite_stgctl, HostDom.stgctl_open, HostDom.stagingOpen_eq hp ha]
  rw [heq]
  generalize hx : (s.host.setPstate false false false).putWord 0x20001000 0 = x
  have hzero : x.word 0x20001000 = 0 := hx ▸ HostDom.putWord_word_same _ _ _
  have hword : x.word 0x2000000C = HostDom.pstate false false false := by
    rw [← hx, HostDom.putWord_word_other _ _ (by decide), HostDom.setPstate_word]
  have hupd : x.upd = s.host.upd := by rw [← hx, HostDom.putWord_upd, HostDom.setPstate_upd]
  have htouched : s.host.UpdTouched x := hx ▸ (s.host.setPstate_touched _ _ _).trans (.putWord _ _ _)
  obtain ⟨-, hrev, hok⟩ := HostDom.pstate_of_word hword
  obtain ⟨-, hrev', hok'⟩ := x.session_flags 1
  refine ⟨x.session_stg (by decide), (x.session_word _ _).trans hzero, hrev'.trans hrev, hok'.trans hok, ?_,
    (x.session_touched 1).ring.trans htouched.ring⟩
  rw [HostDom.session, hupd]

theorem stagingOpen_refused_answers (hno : s.host.pendingBit = true ∨ propOf s.host.act = true) :
    UpdAnswers (.stagingOpen 0x5A3C0001) s fun y => y = s.host :=
  (stagingOpen_controls _).answers hu hi (by decide) (by decide)
    (by rw [HostDom.updWrite_stgctl, HostDom.stgctl_open, HostDom.stagingOpen_refused hno])

theorem stagingClose_answers : UpdAnswers (.stagingClose 0x5A3C0002) s fun y => y.dom.rgN UPD_STAT_STG = 0 ∧
    y.pendingBit = false ∧ y.revpend = s.host.revpend ∧ y.revok = s.host.revok ∧ y.upd.sealing = false ∧
    y.ring = s.host.ring := by
  refine (stagingClose_controls _).answers hu hi (by decide) (by decide) ?_
  have heq : s.host.updWrite (false, 0x5A3C0002) = (s.host.setPstate false s.host.revpend s.host.revok).session 0 := by
    rw [HostDom.updWrite_stgctl, HostDom.stgctl_close, HostDom.stagingClose_eq]
  rw [heq]
  have hring := (s.host.setPstate_touched false s.host.revpend s.host.revok).ring
  obtain ⟨hpend, hrev, hok⟩ := s.host.setPstate_flags false s.host.revpend s.host.revok
  generalize s.host.setPstate false s.host.revpend s.host.revok = x at hring hpend hrev hok ⊢
  obtain ⟨hpend', hrev', hok'⟩ := x.session_flags 0
  exact ⟨x.session_stg (by decide), hpend'.trans hpend, hrev'.trans hrev, hok'.trans hok, rfl,
    (x.session_touched 0).ring.trans hring⟩

theorem stagingSeal_answers (hst : s.host.dom.rgN UPD_STAT_STG = 1) : UpdAnswers (.stagingSeal 0x5A3C0004) s fun y =>
    y = { s.host with upd := { s.host.upd with sealing := true } } :=
  (stagingSeal_controls _).answers hu hi (by decide) (by decide)
    (by rw [HostDom.updWrite_stgctl, HostDom.stgctl_seal, HostDom.stagingSeal_open hst])

theorem stagingSealDone_answers (hs : s.host.upd.sealing = true) (hb : s.host.upd.bufs = [])
    (hst : s.host.dom.rgN UPD_STAT_STG = 1) : UpdAnswers .stagingSealDone s fun y => y.dom.rgN UPD_STAT_STG = 2 ∧
      y.pendingBit = true ∧ y.dom.rgB UPD_STAT_PENDING = true ∧ y.upd.sealing = false ∧ y.ring = s.host.ring := by
  have hx : exec .stagingSealDone s = .next (s.onHost HostDom.stagingSealed) := by
    show Host.Outcome.next s.sealDone = _
    rw [State.sealDone, hi]
    rfl
  refine .of hx hu s.host.stagingSealed_touched ?_
  rw [HostDom.stagingSealed_eq hs hb hst]
  have hring := (s.host.setPstate_touched true s.host.revpend s.host.revok).ring
  obtain ⟨hpend, -, -⟩ := s.host.setPstate_flags true s.host.revpend s.host.revok
  have hshown := s.host.setPstate_pending true s.host.revpend s.host.revok
  generalize s.host.setPstate true s.host.revpend s.host.revok = x at hring hpend hshown ⊢
  exact ⟨x.session_stg (by decide), (x.session_flags 2).1.trans hpend,
    (x.setStg_rgB 2 (by decide) (by decide)).trans hshown, rfl, (x.session_touched 2).ring.trans hring⟩

theorem cancel_answers : UpdAnswers (.cancel 0x5A3C0002) s fun y => y.pendingBit = false ∧ y.revpend = false ∧
    y.revok = s.host.revok ∧ y.upd = s.host.upd ∧ y.ring = s.host.ring := by
  refine (cancel_controls _).answers hu hi (by decide) (by decide) ?_
  have heq : s.host.updWrite (true, 0x5A3C0002) = s.host.setPstate false false s.host.revok := by
    rw [HostDom.updWrite_updCmd, HostDom.updCmd_cancel]
  obtain ⟨hpend, hrev, hok⟩ := s.host.setPstate_flags false false s.host.revok
  rw [heq]
  exact ⟨hpend, hrev, hok, s.host.setPstate_upd _ _ _, (s.host.setPstate_touched _ _ _).ring⟩

theorem revert_answers (hr : s.host.revok = true) (hp : s.host.pendingBit = false) :
    UpdAnswers (.revert 0x5A3C0001) s fun y => y.revpend = true ∧ y.pendingBit = false ∧ y.revok = true ∧
      y.upd = s.host.upd ∧ y.ring = s.host.ring := by
  refine (revert_controls _).answers hu hi (by decide) (by decide) ?_
  have heq : s.host.updWrite (true, 0x5A3C0001) = s.host.setPstate false true true := by
    rw [HostDom.updWrite_updCmd, HostDom.updCmd_revert hr hp]
  obtain ⟨hpend, hrev, hok⟩ := s.host.setPstate_flags false true true
  rw [heq]
  exact ⟨hrev, hpend, hok, s.host.setPstate_upd _ _ _, (s.host.setPstate_touched _ _ _).ring⟩

theorem revert_refused_answers (hno : s.host.revok = false ∨ s.host.pendingBit = true) :
    UpdAnswers (.revert 0x5A3C0001) s fun y => y = s.host :=
  (revert_controls _).answers hu hi (by decide) (by decide)
    (by rw [HostDom.updWrite_updCmd, HostDom.updCmd_revert_refused hno])

end

end Sys2Proof.Machine
end

section
/-! PROOF. Chunks of an update: taken into a buffer, dropped, refused, and written to their area (R508), and the staging commands
together. -/

namespace Sys2Proof.Machine

theorem CountedHost.upd {a b : HostDom} (h : CountedHost a b) : b.upd = a.upd := by rw [h.rest]

/-- A change of the host domain matters at the host domain of the state only. -/
theorem State.onHost_congr {s : State} {f g : HostDom → HostDom} (h : f s.host = g s.host) : s.onHost f = s.onHost g := by
  rw [onHost, h, onHost]

namespace HostDom

@[simp] theorem chunkReply_dom (h : HostDom) (p : Port) (src tag st : Nat) : (h.chunkReply p src tag st).dom = h.dom := by
  unfold chunkReply
  extract_lets x
  have hx : x.dom = h.dom := by
    unfold x
    split <;> rfl
  split <;> exact hx

@[simp] theorem chunkReply_upd (h : HostDom) (p : Port) (src tag st : Nat) : (h.chunkReply p src tag st).upd = h.upd := by
  unfold chunkReply
  extract_lets x
  have hx : x.upd = h.upd := by
    unfold x
    split <;> rfl
  split <;> exact hx

theorem count_touched (h : HostDom) (f : Fld) : h.dom.RingTouched (h.count f).dom := (Domain.RingTouched.refl _).set f _

theorem chunkRefused_dom (h : HostDom) (p : Port) (src tag st area : Nat) :
    (h.chunkRefused p src tag st area).dom = (h.dom.count UPD_CNT_REFUSED).raise 0x41 (st + 16 * area) := chunkReply_dom _ _ _ _ _

theorem chunkRefused_upd (h : HostDom) (p : Port) (src tag st area : Nat) : (h.chunkRefused p src tag st area).upd = h.upd :=
  chunkReply_upd _ _ _ _ _

theorem chunkRefused_count (h : HostDom) (p : Port) (src tag st area : Nat) :
    (h.chunkRefused p src tag st area).dom.rgN UPD_CNT_REFUSED = satN 255 (h.dom.rgN UPD_CNT_REFUSED + 1) := by
  rw [chunkRefused_dom, (Counted.raise _ _ _ (by decide)).rgN _ (by decide)]
  exact h.dom.rgN_count_same UPD_CNT_REFUSED (by decide) (by decide)

theorem chunkRefused_waits {h : HostDom} (hr : HasRoom h.dom 0x41) (p : Port) (src tag st area : Nat) :
    Waits h.dom (h.chunkRefused p src tag st area).dom 0x41 (st + 16 * area) := by
  rw [chunkRefused_dom]
  exact .raise (h.dom.count UPD_CNT_REFUSED) h.dom 0x41 _ hr rfl

end HostDom

/-! ## UPDATE_CHUNK (R508) -/

/-- No chunk with this source and TAG was the last one taken. -/
abbrev HostDom.FreshTag (h : HostDom) (src tag : Nat) : Prop := h.ring.last.any (fun l => l.src == src && l.tag == tag) = false

/-- The area and the offset that the head of a chunk names. -/
def chunkArea (head : Word) : Nat := (fget head 31 28).toNat
def chunkOff (head : Word) : Nat := (fget head 23 0).toNat

/-- The session takes chunks from this source. -/
structure HostDom.Staging (h : HostDom) (src : Nat) : Prop where
  node : src = h.dom.rgN RING_UPDSRC_NODE
  enabled : h.dom.rgB RING_UPDSRC_EN = true
  opened : h.dom.rgN UPD_STAT_STG = 1
  unsealed : h.upd.sealing = false

/-- The words of a chunk lie within its area. -/
structure ChunkFits (head : Word) (data : List Word) : Prop where
  aligned : chunkOff head % 4 = 0
  length : data.length ≤ 250
  area : areaSize (chunkArea head) ≠ 0
  bound : chunkOff head + 4 * data.length ≤ areaSize (chunkArea head)

theorem HostDom.not_staging_iff {h : HostDom} {src : Nat} : ¬h.Staging src ↔ src ≠ h.rgN RING_UPDSRC_NODE ∨
    h.rgB RING_UPDSRC_EN = false ∨ h.rgN UPD_STAT_STG ≠ 1 ∨ h.upd.sealing = true := by
  have hiff : h.Staging src ↔ src = h.rgN RING_UPDSRC_NODE ∧ h.rgB RING_UPDSRC_EN = true ∧ h.rgN UPD_STAT_STG = 1 ∧
      h.upd.sealing = false := ⟨fun ⟨a, b, c, d⟩ => ⟨a, b, c, d⟩, fun ⟨a, b, c, d⟩ => ⟨a, b, c, d⟩⟩
  simp only [hiff, not_and_or, Bool.not_eq_true, Bool.not_eq_false, ne_eq]

theorem not_chunkFits_iff {head : Word} {data : List Word} : ¬ChunkFits head data ↔ chunkOff head % 4 ≠ 0 ∨
    250 < data.length ∨ areaSize (chunkArea head) < chunkOff head + 4 * data.length ∨ areaSize (chunkArea head) = 0 := by
  have hiff : ChunkFits head data ↔ chunkOff head % 4 = 0 ∧ data.length ≤ 250 ∧ areaSize (chunkArea head) ≠ 0 ∧
      chunkOff head + 4 * data.length ≤ areaSize (chunkArea head) :=
    ⟨fun ⟨a, b, c, d⟩ => ⟨a, b, c, d⟩, fun ⟨a, b, c, d⟩ => ⟨a, b, c, d⟩⟩
  rw [hiff]
  omega

/-- A chunk goes behind those that wait in the buffers. -/
def HostDom.buffered (h : HostDom) (k : Chunk) : HostDom := { h with upd := { h.upd with bufs := h.upd.bufs ++ [k] } }

section
variable {s : State} {p : Port} {src tag : Nat} {head : Word} {data : List Word} (hf : s.host.FreshTag src tag)
include hf

theorem State.updateChunk_foreign (hno : ¬s.host.Staging src) :
    s.updateChunk p src tag head data = s.onHost (·.chunkRefused p src tag 3 (chunkArea head)) := by
  refine State.onHost_congr ?_
  simp only [hf, Bool.false_eq_true, if_false]
  exact if_pos (HostDom.not_staging_iff.1 hno)

theorem State.updateChunk_misfit (hs : s.host.Staging src) (hno : ¬ChunkFits head data) :
    s.updateChunk p src tag head data = s.onHost (·.chunkRefused p src tag 1 (chunkArea head)) := by
  refine State.onHost_congr ?_
  simp only [hf, Bool.false_eq_true, if_false]
  rw [if_neg (not_not.2 hs ∘ HostDom.not_staging_iff.2)]
  exact if_pos (not_chunkFits_iff.1 hno)

/-- A chunk that fits an area whose bank no domain runs from is taken or dropped, as the buffers have room. -/
theorem State.updateChunk_fits (hs : s.host.Staging src) (hfit : ChunkFits head data)
    (hrun : 1 ≤ chunkArea head → chunkArea head ≤ 5 → s.runsFrom (chunkArea head) = false) (hi : s.dev.inhibit = false) :
    s.updateChunk p src tag head data = s.onHost fun h =>
      if 2 ≤ h.upd.bufs.length then h.count UPD_CNT_DROPPED
      else h.buffered ⟨p, src, tag, chunkArea head, chunkOff head, data⟩ := by
  have hfree : ¬(1 ≤ chunkArea head ∧ chunkArea head ≤ 5 ∧ s.runsFrom (chunkArea head) = true) := fun ⟨h1, h5, hr⟩ => by
    rw [hrun h1 h5] at hr
    exact absurd hr Bool.false_ne_true
  refine State.onHost_congr ?_
  simp only [hf, Bool.false_eq_true, if_false]
  rw [if_neg (not_not.2 hs ∘ HostDom.not_staging_iff.2)]
  refine (if_neg (not_not.2 hfit ∘ not_chunkFits_iff.2)).trans ((if_neg hfree).trans ?_)
  simp only [hi, Bool.false_or, decide_eq_true_eq]
  rfl

end

section
variable {s : State} (hu : s.host.dom.inReset = false) {p : Port} {src : BitVec 4} {tag : BitVec 8} {head : Word}
  {data : List Word}
include hu

/-- A refused chunk is counted, and EV_UCREF tells its status and area. -/
theorem chunkRefused_answers {st : Nat}
    (hx : s.updateChunk p src.toNat tag.toNat head data = s.onHost (·.chunkRefused p src.toNat tag.toNat st (chunkArea head)))
    (hr : HasRoom s.host.dom 0x41) :
    HostAnswers (.updateChunk p src tag head data) s fun y =>
      y.dom.rgN UPD_CNT_REFUSED = satN 255 (s.host.dom.rgN UPD_CNT_REFUSED + 1) ∧
        Waits s.host.dom y.dom 0x41 (st + 16 * chunkArea head) ∧ y.upd = s.host.upd := by
  have hring : s.host.dom.RingTouched (s.host.chunkRefused p src.toNat tag.toNat st (chunkArea head)).dom := by
    rw [HostDom.chunkRefused_dom]
    exact (s.host.count_touched UPD_CNT_REFUSED).raise _ _
  refine .of (congrArg Host.Outcome.next hx) hu hring fun y hy => ⟨?_, ?_, ?_⟩
  · exact (hy.dom.rgN _ (by decide)).trans (s.host.chunkRefused_count _ _ _ _ _)
  · exact hy.waits (HostDom.chunkRefused_waits hr _ _ _ _ _)
  · exact hy.upd.trans (s.host.chunkRefused_upd _ _ _ _ _)

section
variable (hf : s.host.FreshTag src.toNat tag.toNat) (hs : s.host.Staging src.toNat) (hfit : ChunkFits head data)
  (hrun : 1 ≤ chunkArea head → chunkArea head ≤ 5 → s.runsFrom (chunkArea head) = false) (hi : s.dev.inhibit = false)
include hf hs hfit hrun hi

theorem chunkBuffered_answers (hroom : s.host.upd.bufs.length < 2) :
    HostAnswers (.updateChunk p src tag head data) s fun y =>
      y.upd = { s.host.upd with
        bufs := s.host.upd.bufs ++ [⟨p, src.toNat, tag.toNat, chunkArea head, chunkOff head, data⟩] } ∧
        y.dom = s.host.dom ∧ y.ring = s.host.ring := by
  have hx : exec (.updateChunk p src tag head data) s =
      .next (s.onHost (·.buffered ⟨p, src.toNat, tag.toNat, chunkArea head, chunkOff head, data⟩)) :=
    congrArg Host.Outcome.next ((State.updateChunk_fits hf hs hfit hrun hi).trans
      (State.onHost_congr (if_neg (Nat.not_le.2 hroom))))
  obtain ⟨t, ht, hhost, hside⟩ := UpdAnswers.of (P := (· = s.host.buffered _)) hx hu (.upd _ _) rfl
  refine ⟨t, ht, ?_, hside, ?_⟩
  · rw [hhost]
    exact ⟨rfl, rfl, rfl⟩
  · rw [hhost]
    exact Domain.RingTouched.refl _

theorem chunkDropped_answers (hfull : 2 ≤ s.host.upd.bufs.length) :
    HostAnswers (.updateChunk p src tag head data) s fun y =>
      y.dom.rgN UPD_CNT_DROPPED = satN 255 (s.host.dom.rgN UPD_CNT_DROPPED + 1) ∧ y.upd = s.host.upd ∧
        y.ring = s.host.ring := by
  have hx : exec (.updateChunk p src tag head data) s = .next (s.onHost (·.count UPD_CNT_DROPPED)) :=
    congrArg Host.Outcome.next ((State.updateChunk_fits hf hs hfit hrun hi).trans (State.onHost_congr (if_pos hfull)))
  refine .of hx hu (s.host.count_touched _) fun y hy => ⟨?_, hy.upd, hy.ring⟩
  exact (hy.dom.rgN _ (by decide)).trans (s.host.dom.rgN_count_same UPD_CNT_DROPPED (by decide) (by decide))

end
end

/-! ## UPDATE_CHUNK_WRITTEN (R508) -/

/-- The host domain once a chunk has been taken out of its buffer, counted and answered. -/
def HostDom.chunkDone (h : HostDom) (k : Chunk) (rest : List Chunk) : HostDom :=
  (({ h with upd := { h.upd with bufs := rest } } : HostDom).count UPD_CNT_TAKEN).chunkReply k.port k.src k.tag 0

theorem HostDom.chunkDone_dom (h : HostDom) (k : Chunk) (rest : List Chunk) :
    (h.chunkDone k rest).dom = h.dom.count UPD_CNT_TAKEN := chunkReply_dom _ _ _ _ _

theorem HostDom.chunkDone_upd (h : HostDom) (k : Chunk) (rest : List Chunk) :
    (h.chunkDone k rest).upd = { h.upd with bufs := rest } := chunkReply_upd _ _ _ _ _

theorem HostDom.chunkDone_taken (h : HostDom) (k : Chunk) (rest : List Chunk) :
    (h.chunkDone k rest).dom.rgN UPD_CNT_TAKEN = satN 65535 (h.dom.rgN UPD_CNT_TAKEN + 1) := by
  rw [chunkDone_dom]
  exact h.dom.rgN_count_same UPD_CNT_TAKEN (by decide) (by decide)

/-- The words of a chunk in a memory from key a on. -/
def Domain.withWords (a : Nat) (ws : List Word) (d : Domain) : Domain := { d with mem := putWords d.mem a ws }

section
variable {s : State} {k : Chunk} {rest : List Chunk} (hb : s.host.upd.bufs = k :: rest)
include hb

theorem State.chunkWritten_waits {n : Chan} (ha : areaChan k.area = some n) (h4 : (s.ch n).dom.inPhase 4 = true) :
    s.chunkWritten = s := by
  unfold chunkWritten
  rw [hb]
  simp only [ha, arrayFree, h4]
  simp

variable (hu : s.host.dom.inReset = false) (hi : s.dev.inhibit = false)
include hu hi

theorem State.chunkWritten_host (ha : areaChan k.area = none) :
    s.chunkWritten = { s with host := s.host.chunkDone k rest }.mapHost
      (Domain.withWords (s.host.areaKey k.area + k.off) k.data) := by
  unfold chunkWritten
  rw [hb]
  simp only [ha, hi, hu]
  rfl

theorem State.chunkWritten_chan {n : Chan} (ha : areaChan k.area = some n) (h4 : (s.ch n).dom.inPhase 4 = false) :
    s.chunkWritten = { s with host := s.host.chunkDone k rest }.setCh n
      ((s.ch n).mapDom (Domain.withWords (s.host.areaKey k.area + k.off) k.data)) := by
  unfold chunkWritten
  rw [hb]
  simp only [ha, hi, hu, arrayFree, h4]
  cases n <;> rfl

theorem chunkWritten_host_answers (ha : areaChan k.area = none) :
    UpdAnswers .updateChunkWritten s fun y =>
      (∀ j, j < k.data.length → y.word (s.host.areaKey k.area + k.off + 4 * j) = k.data.getD j 0) ∧
        y.upd = { s.host.upd with bufs := rest } ∧
        y.dom.rgN UPD_CNT_TAKEN = satN 65535 (s.host.dom.rgN UPD_CNT_TAKEN + 1) := by
  refine ⟨_, congrArg Host.Outcome.next (State.chunkWritten_host hb hu hi ha), ⟨fun j hj => ?_, ?_, ?_⟩, fun n => ?_,
    fun e => ?_, ?_, ?_⟩
  · exact memWord_putWords _ _ _ hj
  · exact s.host.chunkDone_upd k rest
  · exact s.host.chunkDone_taken k rest
  · refine ⟨(s.ch n).dom.regs, (s.ch n).dom.perf, (s.ch n).dom.evq, (s.ch n).dom.evNext, (s.ch n).dom.cyc, ?_⟩
    rw [State.mapHost, State.setDom_host_ch, State.mk_ch]
  · show (s.host.chunkDone k rest).dom.core e = _
    rw [HostDom.chunkDone_dom]
    cases e <;> rfl
  · rfl
  · rfl

theorem chunkWritten_chan_answers {n : Chan} (ha : areaChan k.area = some n) (h4 : (s.ch n).dom.inPhase 4 = false) :
    Answers .updateChunkWritten s fun t =>
      (∀ j, j < k.data.length → (t.ch n).word (s.host.areaKey k.area + k.off + 4 * j) = k.data.getD j 0) ∧
        t.host.upd = { s.host.upd with bufs := rest } ∧ t.host.dom.mem = s.host.dom.mem ∧
        t.host.dom.rgN UPD_CNT_TAKEN = satN 65535 (s.host.dom.rgN UPD_CNT_TAKEN + 1) ∧ ∀ o, o ≠ n → t.ch o = s.ch o := by
  refine ⟨_, congrArg Host.Outcome.next (State.chunkWritten_chan hb hu hi ha h4), fun j hj => ?_, ?_, ?_, ?_, fun o ho => ?_⟩
  · rw [State.setCh_same]
    exact memWord_putWords _ _ _ hj
  · rw [State.setCh_host, HostDom.chunkDone_upd]
  · rw [State.setCh_host, HostDom.chunkDone_dom, Domain.count_mem]
  · rw [State.setCh_host, HostDom.chunkDone_taken]
  · rw [State.setCh_other _ _ ho, State.mk_ch]

end

/-! ## UPD_CNT -/

theorem Domain.rgN_cleared (d : Domain) {f : Fld} {k : Nat} (h : f.reg = k) :
    ({ d with regs := rput d.regs k 0 } : Domain).rgN f = 0 := by
  simp [rgN, Domain.rg, fld, h, fget]

theorem updCntClear_answers {s : State} (hu : s.host.dom.inReset = false) :
    HostAnswers .updCntClear s fun y => y.dom.rgN UPD_CNT_TAKEN = 0 ∧ y.dom.rgN UPD_CNT_REFUSED = 0 ∧
      y.dom.rgN UPD_CNT_DROPPED = 0 ∧ y.upd = s.host.upd ∧ y.ring = s.host.ring :=
  let d := s.host.dom
  .of (f := HostDom.updCntClear) rfl hu ⟨_, d.perf, d.evq, d.evNext, d.cyc, d.fresh, rfl⟩ fun _ hy =>
    ⟨(hy.rgN _ (by decide)).trans (Domain.rgN_cleared _ rfl), (hy.rgN _ (by decide)).trans (Domain.rgN_cleared _ rfl),
      (hy.rgN _ (by decide)).trans (Domain.rgN_cleared _ rfl), hy.upd, hy.ring⟩

/-! ## Staging and chunks together -/

/-- Under write-inhibit neither the end of a seal nor a chunk writes anything (R84). -/
theorem State.inhibited_answers {s : State} (hi : s.dev.inhibit = true) :
    ∀ i ∈ [Instr.stagingSealDone, .updateChunkWritten], Answers i s fun t => t = s := by
  have hseal : s.sealDone = s := if_pos hi
  have hwritten : s.chunkWritten = s := by
    unfold chunkWritten
    cases s.host.upd.bufs with
    | nil => rfl
    | cons k rest => simp [hi]
  simp only [List.forall_mem_cons, List.not_mem_nil, false_implies, implies_true, and_true]
  exact ⟨⟨_, congrArg Host.Outcome.next hseal, rfl⟩, ⟨_, congrArg Host.Outcome.next hwritten, rfl⟩⟩

/-- Settles O46, command by command. -/
theorem stagingAndChunks : Obligations.StagingAndChunks := by
  intro s p src tag head w data
  refine ⟨fun hk => ?_, ?_, fun hu hk hi => ⟨?_, ?_⟩, fun hu hi => ⟨fun hk => ?_, State.inhibited_answers hi⟩,
    fun hu hi => ⟨stagingOpen_answers hu hi, stagingOpen_refused_answers hu hi, stagingClose_answers hu hi,
      stagingSeal_answers hu hi, stagingSealDone_answers hu hi, cancel_answers hu hi, revert_answers hu hi,
      revert_refused_answers hu hi, fun hf hnode hen hst hseal => ⟨fun ha hl hz hbound hrun => ?_, fun hno hr => ?_⟩,
      fun hf hno hr => ?_, fun k rest hb => ?_⟩, updCntClear_answers⟩
  · simp only [List.forall_mem_cons, List.not_mem_nil, false_implies, implies_true, and_true]
    exact ⟨(stagingOpen_controls w).unkeyed hk, (stagingClose_controls w).unkeyed hk, (stagingSeal_controls w).unkeyed hk,
      (revert_controls w).unkeyed hk, (cancel_controls w).unkeyed hk⟩
  · simp only [List.forall_mem_cons, List.not_mem_nil, false_implies, implies_true, and_true]
    exact ⟨(stagingOpen_controls w).clear, (stagingClose_controls w).clear, (stagingSeal_controls w).clear,
      (revert_controls w).clear, (cancel_controls w).clear⟩
  · simp only [List.forall_mem_cons, List.not_mem_nil, false_implies, implies_true, and_true]
    exact ⟨(stagingOpen_controls w).acts hu hk hi, (stagingClose_controls w).acts hu hk hi,
      (stagingSeal_controls w).acts hu hk hi⟩
  · simp only [List.forall_mem_cons, List.not_mem_nil, false_implies, implies_true, and_true]
    exact ⟨(revert_controls w).acts hu hk hi, (cancel_controls w).acts hu hk hi⟩
  · simp only [List.forall_mem_cons, List.not_mem_nil, false_implies, implies_true, and_true]
    exact ⟨(stagingOpen_controls w).waits hu hk hi, (stagingClose_controls w).waits hu hk hi,
      (stagingSeal_controls w).waits hu hk hi, (revert_controls w).waits hu hk hi, (cancel_controls w).waits hu hk hi⟩
  · have hs : s.host.Staging src.toNat := ⟨hnode, hen, hst, hseal⟩
    exact ⟨chunkBuffered_answers hu hf hs ⟨ha, hl, hz, hbound⟩ hrun hi,
      chunkDropped_answers hu hf hs ⟨ha, hl, hz, hbound⟩ hrun hi⟩
  · have hmisfit : ¬ChunkFits head data := not_chunkFits_iff.2 (hno.imp_right (Or.imp_right .inl))
    exact chunkRefused_answers hu (State.updateChunk_misfit hf ⟨hnode, hen, hst, hseal⟩ hmisfit) hr
  · have hforeign : ¬s.host.Staging src.toNat := HostDom.not_staging_iff.2 (hno.imp_right (Or.imp_right .inl))
    exact chunkRefused_answers hu (State.updateChunk_foreign hf hforeign) hr
  · exact ⟨chunkWritten_host_answers hb hu hi, fun n => chunkWritten_chan_answers hb hu hi, fun n ha h4 =>
      ⟨s, congrArg Host.Outcome.next (State.chunkWritten_waits hb ha h4), rfl⟩⟩

end Sys2Proof.Machine
end

section
/-! PROOF. The words of the three instruction sets: their fields, and decoding against encoding (R124, R195, R199, R321,
R323). -/

namespace Sys2Proof

open BitVec (extractLsb'_append_eq_of_le extractLsb'_append_eq_of_add_le extractLsb'_append_extractLsb'_eq_extractLsb')

/-! ## A word is its fields -/

@[simp] theorem CasWord.ofWord_toWord (f : CasWord) : CasWord.ofWord f.toWord = f := by
  have h (s n : Nat) : f.toWord.extractLsb' s n =
    BitVec.extractLsb' (n := 6 + 4 + 4 + 4 + 14) s n (f.op ++ f.d ++ f.a ++ f.b ++ f.x) := rfl
  simp (disch := decide) only [ofWord, h, extractLsb'_append_eq_of_le, extractLsb'_append_eq_of_add_le]
  simp

@[simp] theorem CasWord.toWord_ofWord (w : Word) : (CasWord.ofWord w).toWord = w := by
  simp (disch := decide) only [ofWord, toWord, extractLsb'_append_extractLsb'_eq_extractLsb']
  simp

@[simp] theorem WeirSlot.ofSlot_toSlot (f : WeirSlot) : WeirSlot.ofSlot f.toSlot = f := by
  have h (s n : Nat) : f.toSlot.extractLsb' s n = BitVec.extractLsb' (n := 6 + 2 + 1 + 1 + 2 + 3 + 13 + 4 + 32) s n
    (f.op ++ f.dir ++ f.past ++ f.rel ++ f.k ++ f.lim ++ f.addr ++ f.cond ++ f.imm) := rfl
  simp (disch := decide) only [ofSlot, h, extractLsb'_append_eq_of_le, extractLsb'_append_eq_of_add_le]
  simp

@[simp] theorem WeirSlot.toSlot_ofSlot (w : BitVec 64) : (WeirSlot.ofSlot w).toSlot = w := by
  simp (disch := decide) only [ofSlot, toSlot, extractLsb'_append_extractLsb'_eq_extractLsb']
  simp

@[simp] theorem DzWord.ofWord_toWord (f : DzWord) : DzWord.ofWord f.toWord = f := by
  have h (s n : Nat) : f.toWord.extractLsb' s n =
    BitVec.extractLsb' (n := 6 + 5 + 5 + 5 + 11) s n (f.op ++ f.a ++ f.b ++ f.c ++ f.f) := rfl
  simp (disch := decide) only [ofWord, h, extractLsb'_append_eq_of_le, extractLsb'_append_eq_of_add_le]
  simp

@[simp] theorem DzWord.toWord_ofWord (w : Word) : (DzWord.ofWord w).toWord = w := by
  simp (disch := decide) only [ofWord, toWord, extractLsb'_append_extractLsb'_eq_extractLsb']
  simp

@[simp] theorem DzWord.ofImm_imm (w : DzWord) : DzWord.ofImm w.op w.a w.b w.imm = w := by
  have h (s n : Nat) : w.imm.extractLsb' s n = BitVec.extractLsb' (n := 5 + 11) s n (w.c ++ w.f) := rfl
  simp (disch := decide) only [ofImm, h, extractLsb'_append_eq_of_le, extractLsb'_append_eq_of_add_le]
  simp

@[simp] theorem DzWord.imm_ofImm (op : BitVec 6) (a b : BitVec 5) (i : BitVec 16) : (DzWord.ofImm op a b i).imm = i := by
  simp (disch := decide) only [ofImm, imm, extractLsb'_append_extractLsb'_eq_extractLsb']
  simp

@[simp] theorem DzWord.ofOff_off21 (w : DzWord) : DzWord.ofOff w.op w.a w.off21 = w := by
  have h (s n : Nat) : w.off21.extractLsb' s n = BitVec.extractLsb' (n := 5 + 5 + 11) s n (w.b ++ w.c ++ w.f) := rfl
  simp (disch := decide) only [ofOff, h, extractLsb'_append_eq_of_le, extractLsb'_append_eq_of_add_le]
  simp

@[simp] theorem DzWord.off21_ofOff (op : BitVec 6) (a : BitVec 5) (o : BitVec 21) : (DzWord.ofOff op a o).off21 = o := by
  simp (disch := decide) only [ofOff, off21, extractLsb'_append_extractLsb'_eq_extractLsb']
  simp

theorem onlyIf_eq_some {p : Bool} {i j : Instr} : onlyIf p i = some j ↔ p = true ∧ i = j := by
  cases p <;> simp [onlyIf]

theorem eq_ofNat_of_toNat {n m : Nat} {x : BitVec n} (h : x.toNat = m) : x = BitVec.ofNat n m := by
  rw [← h, BitVec.ofNat_toNat, BitVec.setWidth_eq]

/-! ## Cascade -/

@[simp] theorem accField_setWidth (ac : BitVec 2) : accField (ac.setWidth 4) = some ac := by
  have h : ac.toNat < 4 := ac.isLt
  simp [accField, Nat.mod_eq_of_lt (Nat.lt_of_lt_of_le h (by decide : 4 ≤ 16)), h]

theorem accField_eq_some {f : BitVec 4} {ac : BitVec 2} (h : accField f = some ac) : f = ac.setWidth 4 := by
  unfold accField at h
  split at h
  · obtain rfl := Option.some.inj h
    apply BitVec.eq_of_toNat_eq
    simp
    omega
  · exact absurd h (by simp)

/-- The word of a Cascade instruction holds it. -/
theorem CasWord.instr_of_encode {i : Instr} {k : CAt} {w : Word} (h : encodeCascade i = some (k, w)) :
    (CasWord.ofWord w).instr k = some i := by
  revert h
  fun_cases encodeCascade i
  all_goals
    intro h
    simp only [Option.some.injEq, Prod.mk.injEq, reduceCtorEq] at h
  all_goals
    obtain ⟨rfl, rfl⟩ := h
    simp [CasWord.instr, onlyIf]

/-- A Cascade word is that of the instruction it holds. -/
theorem CasWord.encode_of_instr {k : CAt} {f : CasWord} {i : Instr} (h : f.instr k = some i) :
    encodeCascade i = some (k, f.toWord) := by
  revert h
  fun_cases CasWord.instr
  all_goals
    intro h
  case case42 => exact absurd h (by simp)
  all_goals
    rename_i hop
    have hop := eq_ofNat_of_toNat hop
  case case30 =>
    obtain rfl := Option.some.inj h
    simp [encodeCascade, toWord, hop]
  case' case19 | case20 | case21 =>
    obtain ⟨ac, hac, h⟩ := Option.bind_eq_some_iff.1 h
    have hac := accField_eq_some hac
  all_goals
    obtain ⟨hz, rfl⟩ := onlyIf_eq_some.1 h
  all_goals
    cases f
    simp_all +zetaDelta [encodeCascade]

/-! ## Weir -/

@[simp] theorem bit1_eq_one (b : Bool) : (bit1 b == 1#1) = b := by cases b <;> rfl

@[simp] theorem bit1_beq_one (x : BitVec 1) : bit1 (x == 1#1) = x := by
  obtain rfl | rfl := x.eq_zero_or_eq_one <;> rfl

/-- The slot of a Weir instruction holds it. -/
theorem WeirSlot.instr_of_encode {i : Instr} {k : WAt} {w : BitVec 64} (h : encodeWeir i = some (k, w)) :
    (WeirSlot.ofSlot w).instr k = some i := by
  revert h
  fun_cases encodeWeir i
  all_goals
    intro h
    simp only [Option.some.injEq, Prod.mk.injEq, reduceCtorEq] at h
  all_goals
    obtain ⟨rfl, rfl⟩ := h
    simp [WeirSlot.instr, WeirSlot.noWait, onlyIf]

/-- A Weir slot is that of the instruction it holds. -/
theorem WeirSlot.encode_of_instr {k : WAt} {f : WeirSlot} {i : Instr} (h : f.instr k = some i) :
    encodeWeir i = some (k, f.toSlot) := by
  revert h
  fun_cases WeirSlot.instr
  all_goals
    intro h
  case case16 => exact absurd h (by simp)
  all_goals
    rename_i hop
    have hop := eq_ofNat_of_toNat hop
    obtain ⟨hz, rfl⟩ := onlyIf_eq_some.1 h
    cases f
    simp_all +zetaDelta [encodeWeir, noWait]

/-! ## Dziphor -/

theorem toNat_append_bit1 {n : Nat} (x : BitVec n) (b : Bool) : (x ++ bit1 b).toNat = 2 * x.toNat + b.toNat := by
  have h : (bit1 b).toNat = b.toNat := by cases b <;> rfl
  rw [BitVec.toNat_append, h, ← Nat.shiftLeft_add_eq_or_of_lt (by cases b <;> decide), Nat.shiftLeft_eq]
  omega

theorem getLsbD_bit1 (b : Bool) : (bit1 b).getLsbD 0 = b := by cases b <;> rfl

section
variable {k k' : At} {ecc : Ecc} {w : Word} {op : BitVec 6} {a b c : GReg} {i : Instr}

theorem integerWord_holds {func : BitVec 11} (h : integerWord k a b c func = some (k', ecc, w))
    (hi : (⟨0, a, b, c, func⟩ : DzWord).instr k .clean = some i) : (DzWord.ofWord w).instr k' ecc = some i := by
  obtain ⟨rfl, rfl, rfl⟩ : k = k' ∧ Ecc.clean = ecc ∧ _ = w := by simpa [integerWord] using h
  rwa [DzWord.ofWord_toWord]

theorem systemWord_holds {func : BitVec 11} (h : systemWord k op a b c func = some (k', ecc, w))
    (hi : (⟨op, a, b, c, func⟩ : DzWord).instr k .clean = some i) : (DzWord.ofWord w).instr k' ecc = some i := by
  obtain ⟨rfl, rfl, rfl⟩ : k = k' ∧ Ecc.clean = ecc ∧ _ = w := by simpa [systemWord] using h
  rwa [DzWord.ofWord_toWord]

/-- The function field of an atomic instruction, with its two order bits. -/
theorem atomicFunc_fields (func : BitVec 9) (n p : Bool) :
    (func ++ bit1 n ++ bit1 p).toNat / 4 = func.toNat ∧ (func ++ bit1 n ++ bit1 p).getLsbD 1 = n ∧
      (func ++ bit1 n ++ bit1 p).getLsbD 0 = p := by
  refine ⟨?_, ?_, ?_⟩
  · have := n.toNat_lt
    have := p.toNat_lt
    rw [toNat_append_bit1, toNat_append_bit1]
    omega
  · rw [BitVec.getLsbD_append, BitVec.getLsbD_append]
    exact getLsbD_bit1 n
  · rw [BitVec.getLsbD_append]
    exact getLsbD_bit1 p

theorem atomicWord_holds {func : BitVec 9} {ord : AtomOrder} (h : atomicWord k a b c func ord = some (k', ecc, w))
    (hi : ∀ f : BitVec 11, f.toNat / 4 = func.toNat → f.getLsbD 1 = ord.ordn → f.getLsbD 0 = ord.ordp →
      (⟨0x1C, a, b, c, f⟩ : DzWord).atomic k ord.ecc = some i) : (DzWord.ofWord w).instr k' ecc = some i := by
  obtain ⟨rfl, rfl, rfl⟩ : k = k' ∧ ord.ecc = ecc ∧ _ = w := by simpa [atomicWord] using h
  obtain ⟨hfunc, hn, hp⟩ := atomicFunc_fields func ord.ordn ord.ordp
  rw [DzWord.ofWord_toWord]
  exact hi _ hfunc hn hp

/-- An immediate spans two fields of its word. -/
theorem immWord_holds {imm : BitVec 16} (h : immWord k op a b imm = some (k', ecc, w))
    (hi : ∀ (u : BitVec 5) (l : BitVec 11), imm = u ++ l → (⟨op, a, b, u, l⟩ : DzWord).instr k .clean = some i) :
    (DzWord.ofWord w).instr k' ecc = some i := by
  obtain ⟨rfl, rfl, rfl⟩ : k = k' ∧ Ecc.clean = ecc ∧ _ = w := by simpa [immWord] using h
  rw [DzWord.ofWord_toWord]
  exact hi _ _ (DzWord.imm_ofImm op a b imm).symm

end

theorem fenceOf_fenceM (k : At) {o : BitVec 3} (h : o ≠ 7) : fenceOf k (o ++ (1 : BitVec 1)) = some (.fenceM k o) := by
  have key : ∀ o : BitVec 3, o ≠ 7 → o ++ (1 : BitVec 1) ≠ (15 : BitVec 4) ∧
    (o ++ (1 : BitVec 1)).getLsbD 0 = true ∧
    (o ++ (1 : BitVec 1)).extractLsb' 1 3 = o := by decide
  obtain ⟨h15, h0, hx⟩ := key o h
  simp only [fenceOf]
  rw [if_neg h15, if_pos h0, hx]

theorem fenceOf_fenceD (k : At) (o : BitVec 2) : fenceOf k (o ++ (2 : BitVec 2)) = some (.fenceD k o) := by
  have key : ∀ o : BitVec 2, o ++ (2 : BitVec 2) ≠ (15 : BitVec 4) ∧ (o ++ (2 : BitVec 2)).getLsbD 0 = false ∧
    (o ++ (2 : BitVec 2)).getLsbD 1 = true ∧ (o ++ (2 : BitVec 2)).extractLsb' 2 2 = o := by decide
  obtain ⟨h15, h0, h1, hx⟩ := key o
  simp only [fenceOf]
  rw [if_neg h15, h0, if_neg Bool.false_ne_true, if_pos h1, hx]

theorem fenceOf_fenceP (k : At) (o : BitVec 1) : fenceOf k (o ++ (4 : BitVec 3)) = some (.fenceP k o) := by
  obtain rfl | rfl := o.eq_zero_or_eq_one <;> rfl

theorem fenceM_func : ∀ o : BitVec 3, (0 : BitVec 7) ++ o ++ (1 : BitVec 1) = (o ++ (1 : BitVec 1)).setWidth 11 := by decide
theorem fenceD_func : ∀ o : BitVec 2, (0 : BitVec 7) ++ o ++ (2 : BitVec 2) = (o ++ (2 : BitVec 2)).setWidth 11 := by decide
theorem fenceP_func : ∀ o : BitVec 1, (0 : BitVec 7) ++ o ++ (4 : BitVec 3) = (o ++ (4 : BitVec 3)).setWidth 11 := by decide

/-- The word of a fence of a mask. -/
theorem DzWord.instr_fence (k : At) (ecc : Ecc) {mask : BitVec 4} {func : BitVec 11} (h : func = mask.setWidth 11) :
    (⟨0x34, 0, 0, 0, func⟩ : DzWord).instr k ecc = fenceOf k mask := by
  have hmask : (mask.setWidth 11).toNat < 16 ∧ (mask.setWidth 11).setWidth 4 = mask := by
    clear h
    revert mask
    decide
  show (if _ && decide (func.toNat < 16) then fenceOf k (func.setWidth 4) else none) = _
  rw [h, hmask.2, decide_eq_true hmask.1]
  rfl

/-- An immediate of fewer than 16 bits in its field. -/
theorem onlyIf_imm {n m : Nat} {imm : BitVec n} {f : BitVec 16} (h : imm.setWidth 16 = f) (hn : n ≤ 16) (hm : 2 ^ n = m)
    (i : BitVec n → Instr) : onlyIf (decide (f.toNat < m)) (i (f.setWidth n)) = some (i imm) := by
  have hlt : f.toNat < m := by
    subst h hm
    rw [BitVec.toNat_setWidth_of_le hn]
    exact imm.isLt
  have hw : f.setWidth n = imm := by
    subst h
    rw [BitVec.setWidth_setWidth_of_le _ hn, BitVec.setWidth_eq]
  rw [hw, decide_eq_true hlt]
  rfl

/-- The word of a Dziphor instruction holds it. -/
theorem DzWord.instr_of_encode {i : Instr} {k : At} {ecc : Ecc} {w : Word} (hwf : i.wf = true)
    (h : encodeDziphor i = some (k, ecc, w)) : (DzWord.ofWord w).instr k ecc = some i := by
  revert h
  fun_cases encodeDziphor i
  all_goals
    intro h
  -- Three registers, then a register and an immediate (R125).
  iterate 25
    next => exact integerWord_holds h rfl
  iterate 7
    next => exact immWord_holds h fun u l e => by rw [e]; rfl
  iterate 3
    next => exact immWord_holds h fun u l e => onlyIf_imm e (by decide) rfl _
  -- Loads, stores and atomics (R126).
  iterate 8
    next => exact immWord_holds h fun u l e => by rw [e]; rfl
  iterate 8
    next =>
    refine atomicWord_holds h fun f hfunc hn hp => ?_
    simp only [DzWord.atomic, hfunc, hn, hp]
    rfl
  -- Control transfer (R128).
  iterate 6
    next => exact immWord_holds h fun u l e => by rw [e]; rfl
  next o =>
    obtain ⟨rfl, -, rfl⟩ : _ = k ∧ Ecc.clean = ecc ∧ (DzWord.ofOff _ _ _).toWord = w := by simpa using h
    rw [DzWord.ofWord_toWord]
    exact congrArg (fun o => some (Instr.call _ _ o)) (DzWord.off21_ofOff _ _ o)
  next => exact immWord_holds h fun u l e => by rw [e]; rfl
  -- System instructions, control registers and fences (R129).
  iterate 5
    next => exact systemWord_holds h rfl
  iterate 3
    next => exact immWord_holds h fun u l e => onlyIf_imm e (by decide) rfl _
  next o =>
    exact systemWord_holds h ((DzWord.instr_fence _ _ (fenceM_func o)).trans (fenceOf_fenceM _ (of_decide_eq_true hwf)))
  next o => exact systemWord_holds h ((DzWord.instr_fence _ _ (fenceD_func o)).trans (fenceOf_fenceD _ o))
  next o => exact systemWord_holds h ((DzWord.instr_fence _ _ (fenceP_func o)).trans (fenceOf_fenceP _ o))
  iterate 2
    next => exact systemWord_holds h rfl
  -- Commits, waits and lockstep requests (R129 to R131).
  next => exact immWord_holds h fun u l e => onlyIf_imm e (by decide) rfl _
  iterate 5
    next => exact systemWord_holds h rfl
  next => exact absurd h (by simp)

section
variable {k : At} {ecc : Ecc} {f : DzWord} {i : Instr}

theorem DzWord.encode_of_integer (hop : f.op = 0) (h : f.integer k = some i) :
    i.wf = true ∧ encodeDziphor i = some (k, .clean, f.toWord) := by
  have hword (n : Nat) (hn : f.f.toNat = n) :
      integerWord k f.a f.b f.c (BitVec.ofNat 11 n) = some (k, .clean, f.toWord) := by
    rw [← eq_ofNat_of_toNat hn, integerWord, ← hop]
  revert h
  fun_cases DzWord.integer
  all_goals
    intro h
  case case26 => exact absurd h (by simp)
  all_goals
    rename_i hf
    have hword := hword _ hf
  case case25 =>
    obtain ⟨hz, rfl⟩ := onlyIf_eq_some.1 h
    rw [eq_of_beq hz] at hword
    exact ⟨rfl, hword⟩
  all_goals
    obtain rfl := Option.some.inj h
    exact ⟨rfl, hword⟩

theorem DzWord.encode_of_atomic (hop : f.op = 0x1C) (h : f.atomic k ecc = some i) :
    i.wf = true ∧ encodeDziphor i = some (k, ecc, f.toWord) := by
  have hword (n : Nat) (hn : f.f.toNat / 4 = n) :
      atomicWord k f.a f.b f.c (BitVec.ofNat 9 n) ⟨f.f.getLsbD 1, f.f.getLsbD 0, ecc⟩ = some (k, ecc, f.toWord) := by
    have hfunc : BitVec.ofNat 9 n ++ bit1 (f.f.getLsbD 1) ++ bit1 (f.f.getLsbD 0) = f.f := by
      apply BitVec.eq_of_toNat_eq
      have := f.f.isLt
      rw [toNat_append_bit1, toNat_append_bit1]
      simp only [BitVec.getLsbD, BitVec.toNat_ofNat, Nat.toNat_testBit]
      omega
    rw [atomicWord, hfunc, ← hop]
  revert h
  fun_cases DzWord.atomic
  all_goals
    intro h
  case case9 => exact absurd h (by simp)
  all_goals
    rename_i hf
    have hword := hword _ hf
  case case1 =>
    obtain ⟨hz, rfl⟩ := onlyIf_eq_some.1 h
    rw [eq_of_beq hz] at hword
    exact ⟨rfl, hword⟩
  all_goals
    obtain rfl := Option.some.inj h
    exact ⟨rfl, hword⟩

theorem encode_of_fenceOf {mask : BitVec 4} (h : fenceOf k mask = some i) :
    i.wf = true ∧ encodeDziphor i = systemWord k 0x34 0 0 0 (mask.setWidth 11) := by
  have hM : ∀ m : BitVec 4, m ≠ 15 → m.getLsbD 0 = true → m.extractLsb' 1 3 ≠ 7 ∧
    (0 : BitVec 7) ++ m.extractLsb' 1 3 ++ (1 : BitVec 1) = m.setWidth 11 := by decide
  have hD : ∀ m : BitVec 4, ¬m.getLsbD 0 = true → m.getLsbD 1 = true →
    (0 : BitVec 7) ++ m.extractLsb' 2 2 ++ (2 : BitVec 2) = m.setWidth 11 := by decide
  have hP : ∀ m : BitVec 4, ¬m.getLsbD 0 = true → ¬m.getLsbD 1 = true → m.getLsbD 2 = true →
    (0 : BitVec 7) ++ m.extractLsb' 3 1 ++ (4 : BitVec 3) = m.setWidth 11 := by decide
  have hN : ∀ m : BitVec 4, ¬m.getLsbD 0 = true → ¬m.getLsbD 1 = true → ¬m.getLsbD 2 = true → m.getLsbD 3 = true →
    (8 : BitVec 11) = m.setWidth 11 := by decide
  revert h
  fun_cases fenceOf
  all_goals
    intro h
  case case6 => exact absurd h (by simp)
  all_goals
    obtain rfl := Option.some.inj h
  case case1 hm =>
    rw [hm]
    exact ⟨rfl, rfl⟩
  case case2 h15 h0 =>
    obtain ⟨h7, hw⟩ := hM mask h15 h0
    exact ⟨decide_eq_true h7, congrArg (systemWord k 0x34 0 0 0) hw⟩
  case case3 h0 h1 => exact ⟨rfl, congrArg (systemWord k 0x34 0 0 0) (hD mask h0 h1)⟩
  case case4 h0 h1 h2 => exact ⟨rfl, congrArg (systemWord k 0x34 0 0 0) (hP mask h0 h1 h2)⟩
  case case5 h0 h1 h2 h3 => exact ⟨rfl, congrArg (systemWord k 0x34 0 0 0) (hN mask h0 h1 h2 h3)⟩

theorem DzWord.encode_of_imm (n : Nat) {m : Nat} (g : BitVec n → Instr) (hn : n ≤ 16) (hm : 2 ^ n = m)
    (h : onlyIf (decide (f.imm.toNat < m)) (g (f.imm.setWidth n)) = some i) :
    i = g (f.imm.setWidth n) ∧ immWord k f.op f.a f.b ((f.imm.setWidth n).setWidth 16) = some (k, .clean, f.toWord) := by
  obtain ⟨hlt, rfl⟩ := onlyIf_eq_some.1 h
  have hlt := of_decide_eq_true hlt
  have hw : (f.imm.setWidth n).setWidth 16 = f.imm := by
    apply BitVec.eq_of_toNat_eq
    rw [BitVec.toNat_setWidth_of_le hn, BitVec.toNat_setWidth, hm, Nat.mod_eq_of_lt hlt]
  rw [hw, immWord, ofImm_imm]
  exact ⟨rfl, rfl⟩

theorem DzWord.encode_of_system (h : f.system k = some i) :
    i.wf = true ∧ encodeDziphor i = some (k, .clean, f.toWord) := by
  have hword (o n : Nat) (hop : f.op.toNat = o) (hn : f.f.toNat = n) :
      systemWord k (BitVec.ofNat 6 o) f.a f.b f.c (BitVec.ofNat 11 n) = some (k, .clean, f.toWord) := by
    rw [← eq_ofNat_of_toNat hop, ← eq_ofNat_of_toNat hn, systemWord]
  revert h
  fun_cases DzWord.system
  all_goals
    intro h
  case case10 | case17 => exact absurd h (by simp)
  case case6 | case7 | case8 =>
    rename_i hop
    obtain ⟨rfl, hw⟩ := encode_of_imm (k := k) 12 _ (by decide) rfl h
    rw [eq_ofNat_of_toNat hop] at hw
    exact ⟨rfl, hw⟩
  case case11 =>
    rename_i hop
    obtain ⟨rfl, hw⟩ := encode_of_imm (k := k) 7 _ (by decide) rfl h
    rw [eq_ofNat_of_toNat hop] at hw
    exact ⟨rfl, hw⟩
  case case9 hop hz =>
    obtain ⟨hwf, henc⟩ := encode_of_fenceOf h
    obtain ⟨h123, hlt⟩ := Bool.and_eq_true_iff.1 hz
    obtain ⟨h12, h3⟩ := Bool.and_eq_true_iff.1 h123
    obtain ⟨h1, h2⟩ := Bool.and_eq_true_iff.1 h12
    have hf : (f.f.setWidth 4).setWidth 11 = f.f := by
      have := of_decide_eq_true hlt
      apply BitVec.eq_of_toNat_eq
      simp
      omega
    have hword : systemWord k 0x34 f.a f.b f.c f.f = some (k, .clean, f.toWord) := by
      rw [systemWord, ← show f.op = 0x34 from eq_ofNat_of_toNat hop]
    rw [eq_of_beq h1, eq_of_beq h2, eq_of_beq h3, ← hf] at hword
    exact ⟨hwf, henc.trans hword⟩
  all_goals
    rename_i hf hop
    have hword := hword _ _ hop hf
  case case12 =>
    obtain rfl := Option.some.inj h
    exact ⟨rfl, hword⟩
  all_goals
    obtain ⟨hz, rfl⟩ := onlyIf_eq_some.1 h
  case case13 =>
    rw [eq_of_beq hz] at hword
    exact ⟨rfl, hword⟩
  case case14 | case15 | case16 =>
    obtain ⟨h1, h2⟩ := Bool.and_eq_true_iff.1 hz
    rw [eq_of_beq h1, eq_of_beq h2] at hword
    exact ⟨rfl, hword⟩
  all_goals
    obtain ⟨h12, h3⟩ := Bool.and_eq_true_iff.1 hz
    obtain ⟨h1, h2⟩ := Bool.and_eq_true_iff.1 h12
    rw [eq_of_beq h1, eq_of_beq h2, eq_of_beq h3] at hword
    exact ⟨rfl, hword⟩

theorem DzWord.encode_of_instr (h : f.instr k ecc = some i) :
    i.wf = true ∧ ∃ ecc', encodeDziphor i = some (k, ecc', f.toWord) := by
  have himm (n : Nat) (hn : f.op.toNat = n) :
      immWord k (BitVec.ofNat 6 n) f.a f.b f.imm = some (k, .clean, f.toWord) := by
    rw [← eq_ofNat_of_toNat hn, immWord, ofImm_imm]
  revert h
  fun_cases DzWord.instr
  all_goals
    intro h
  case case29 => exact (encode_of_system h).imp_right fun h => ⟨_, h⟩
  all_goals
    rename_i hop
  case case1 => exact (encode_of_integer (eq_ofNat_of_toNat hop) h).imp_right fun h => ⟨_, h⟩
  case case20 => exact (encode_of_atomic (eq_ofNat_of_toNat hop) h).imp_right fun h => ⟨_, h⟩
  all_goals
    have himm := himm _ hop
  case case8 =>
    obtain ⟨hz, rfl⟩ := onlyIf_eq_some.1 h
    rw [eq_of_beq hz] at himm
    exact ⟨rfl, _, himm⟩
  case case27 =>
    obtain rfl := Option.some.inj h
    refine ⟨rfl, .clean, ?_⟩
    show some (k, Ecc.clean, (DzWord.ofOff (BitVec.ofNat 6 40) f.a f.off21).toWord) = _
    rw [← eq_ofNat_of_toNat hop, ofOff_off21]
  case case9 | case10 | case11 =>
    obtain ⟨rfl, hw⟩ := encode_of_imm (k := k) 5 _ (by decide) rfl h
    rw [eq_ofNat_of_toNat hop] at hw
    exact ⟨rfl, _, hw⟩
  all_goals
    obtain rfl := Option.some.inj h
    exact ⟨rfl, _, himm⟩
end

/-! ## The three instruction sets -/

theorem filter_wf_eq_some {o : Option Instr} {i : Instr} : o.filter Instr.wf = some i ↔ o = some i ∧ i.wf = true :=
  Option.filter_eq_some_iff

/-- Settles O56: each engine's encoder writes the fields that its decoder reads. -/
theorem decodeOfEncode : Obligations.DecodeOfEncode := by
  unfold Obligations.DecodeOfEncode
  intro i hwf
  exact ⟨fun k w h => filter_wf_eq_some.2 ⟨CasWord.instr_of_encode h, hwf⟩,
    fun k w h => filter_wf_eq_some.2 ⟨WeirSlot.instr_of_encode h, hwf⟩, fun k ecc w h => DzWord.instr_of_encode hwf h⟩

/-- Settles O57: a decoder judges every field of a word, and the encoder writes the fields back. -/
theorem encodeOfDecode : Obligations.EncodeOfDecode := by
  unfold Obligations.EncodeOfDecode
  refine ⟨fun k w i h => ?_, fun k w i h => ?_, fun k ecc w i h => ?_⟩
  · obtain ⟨h, hwf⟩ := filter_wf_eq_some.1 h
    exact ⟨hwf, by simpa using CasWord.encode_of_instr h⟩
  · obtain ⟨h, hwf⟩ := filter_wf_eq_some.1 h
    exact ⟨hwf, by simpa using WeirSlot.encode_of_instr h⟩
  · simpa using DzWord.encode_of_instr h

end Sys2Proof
end

section
/-! PROOF. The integer instructions of a Dziphor core (R116, R125): the arithmetic of the model in the terms of its statement,
and what an instruction of registers and immediates answers. -/

namespace Sys2Proof.Machine

/-! ## Arithmetic (R125) -/

theorem ofB_eq_ite (p : Bool) : ofB p = if p then 1 else 0 := rfl

theorem ltS_eq_decide (a b : Word) : ltS a b = decide (a.toInt < b.toInt) := rfl

theorem ltU_eq_decide (a b : Word) : ltU a b = decide (a.toNat < b.toNat) := rfl

theorem minS_eq_ite (a b : Word) : minS a b = if a.toInt ≤ b.toInt then a else b := by
  simp only [minS, ltS_eq_decide, decide_eq_true_eq, ← not_le, ite_not]

theorem maxS_eq_ite (a b : Word) : maxS a b = if a.toInt ≤ b.toInt then b else a := by
  simp only [maxS, ltS_eq_decide, decide_eq_true_eq]
  obtain h | h | h := lt_trichotomy a.toInt b.toInt
  · rw [if_pos h, if_pos h.le]
  · rw [BitVec.eq_of_toInt_eq h, ite_self, ite_self]
  · rw [if_neg h.not_gt, if_neg h.not_ge]

theorem minU_eq_ite (a b : Word) : minU a b = if a.toNat ≤ b.toNat then a else b := by
  simp only [minU, ltU_eq_decide, decide_eq_true_eq, ← not_le, ite_not]

theorem maxU_eq_ite (a b : Word) : maxU a b = if a.toNat ≤ b.toNat then b else a := by
  simp only [maxU, ltU_eq_decide, decide_eq_true_eq]
  obtain h | h | h := lt_trichotomy a.toNat b.toNat
  · rw [if_pos h, if_pos h.le]
  · rw [BitVec.eq_of_toNat_eq h, ite_self, ite_self]
  · rw [if_neg h.not_gt, if_neg h.not_ge]

/-- A saturated sum, difference or quotient: the two bounds as words. -/
theorem satWord_eq_ite (v : Int) :
    satWord v = if v < -2147483648 then 0x80000000 else if 2147483647 < v then 0x7FFFFFFF else BitVec.ofInt 32 v := by
  unfold satWord satS wordOfInt
  have hlow : -((2 ^ (32 - 1) : Nat) : Int) = -2147483648 := by decide
  have hhigh : ((2 ^ (32 - 1) : Nat) : Int) - 1 = 2147483647 := by decide
  rw [hlow, hhigh]
  split
  · decide
  · split
    · decide
    · rfl

theorem highWord_eq (v : Int) : highWord v = BitVec.ofInt 32 (v / 4294967296) := by
  rw [highWord, wordOfInt, Int.fdiv_eq_ediv_of_nonneg _ (by decide)]

/-- A quotient lies in the signed range but for that of the least number by -1. -/
theorem tdiv_bounds (a b : Word) : -2147483648 ≤ a.toInt.tdiv b.toInt ∧
    (¬(a = 0x80000000 ∧ b = 0xFFFFFFFF) → a.toInt.tdiv b.toInt ≤ 2147483647) := by
  have hlow : -2147483648 ≤ a.toInt := BitVec.le_toInt a
  have hhigh : a.toInt < 2147483648 := BitVec.toInt_lt
  have habs : (a.toInt.tdiv b.toInt).natAbs = a.toInt.natAbs / b.toInt.natAbs := Int.natAbs_tdiv _ _
  have hle : a.toInt.natAbs / b.toInt.natAbs ≤ a.toInt.natAbs := Nat.div_le_self _ _
  refine ⟨by omega, fun h => ?_⟩
  by_contra hq
  have ha : a.toInt = -2147483648 := by omega
  have hone : b.toInt.natAbs = 1 := by
    have hpos : b.toInt.natAbs ≠ 0 := by
      intro h0
      rw [h0, Nat.div_zero] at habs
      omega
    by_contra hne
    have := Nat.div_le_div_left (c := 2) (a := a.toInt.natAbs) (show 2 ≤ b.toInt.natAbs by omega) (by decide)
    omega
  have hb : b.toInt = -1 := by
    obtain hb | hb : b.toInt = 1 ∨ b.toInt = -1 := by omega
    · rw [ha, hb] at hq
      exact absurd (by decide) hq
    · exact hb
  exact h ⟨BitVec.eq_of_toInt_eq ha, BitVec.eq_of_toInt_eq hb⟩

/-- DIVS saturates by zero, and where the quotient leaves the signed range. -/
theorem divS_eq_ite (a b : Word) : divS a b =
    if b = 0 then (if a.toInt < 0 then 0x80000000 else 0x7FFFFFFF)
    else if a.toInt.tdiv b.toInt < -2147483648 then 0x80000000
    else if 2147483647 < a.toInt.tdiv b.toInt then 0x7FFFFFFF else BitVec.ofInt 32 (a.toInt.tdiv b.toInt) := by
  obtain ⟨hlow, hhigh⟩ := tdiv_bounds a b
  have hslt : a.slt 0 = decide (a.toInt < 0) := rfl
  unfold divS
  rw [hslt]
  simp only [decide_eq_true_eq]
  split
  · rfl
  · split
    · rename_i h
      rw [h.1, h.2]
      decide
    · rename_i h
      rw [if_neg (by omega), if_neg (by have := hhigh h; omega)]
      rfl

theorem setltK_eq (a : Word) (imm : BitVec 16) :
    ofB (ltS a (imm.signExtend 32)) = if decide (a.toInt < imm.toInt) then 1 else 0 := by
  rw [ofB_eq_ite, ltS_eq_decide, BitVec.toInt_signExtend_of_le (by decide)]

/-- The low five bits of a shift amount. -/
theorem toNat_setWidth_five (b : Word) : (b.setWidth 5).toNat = b.toNat % 32 := BitVec.toNat_setWidth _ _

/-! ## Answers -/

section
variable {i : Instr} {s : State} {k : At} {rd rs1 rs2 : GReg} {v : Word}

theorem Retires.rrr {op : Word → Word → Word} (hx : exec i s = .next (s.onCore k.d (·.rrr k.e k.f rd rs1 rs2 op)))
    (hr : Ready s k [rd, rs1, rs2]) (hv : op ((s.core k.d k.e).rd rs1) ((s.core k.d k.e).rd rs2) = v) :
    Retires i s k ((s.core k.d k.e).wr rd v).next :=
  hv ▸ .of hx hr nofun rfl (Domain.core_mapCore _ _ _) (.mapCore _ _ _)

theorem Retires.rri {op : Word → Word} (hx : exec i s = .next (s.onCore k.d (·.rri k.e k.f rd rs1 op)))
    (hr : Ready s k [rd, rs1]) (hv : op ((s.core k.d k.e).rd rs1) = v) :
    Retires i s k ((s.core k.d k.e).wr rd v).next :=
  hv ▸ .of hx hr nofun rfl (Domain.core_mapCore _ _ _) (.mapCore _ _ _)

end

/-- No load is awaited for g0. -/
theorem Core.awaits_zero (x : Core) (rd : GReg) : x.awaits [rd, 0] = x.awaits [rd] := by
  unfold Core.awaits
  congr 2
  funext l
  have hmem : l.rd ≠ 0 → [rd, 0].contains l.rd = [rd].contains l.rd := fun h => by
    rw [List.contains_cons, List.contains_cons, List.contains_cons, beq_eq_false_iff_ne.2 h, Bool.false_or]
  by_cases h : l.rd = 0
  · rw [h]; rfl
  · rw [hmem h]

theorem Ready.zero {s : State} {k : At} {rd : GReg} (h : Ready s k [rd]) : Ready s k [rd, 0] :=
  { h with uses := (Core.awaits_zero _ rd).trans h.uses }

/-- Settles O1: each operation of the model is the arithmetic that the statement gives, and the core goes on with it. -/
theorem integerInstructions : Obligations.IntegerInstructions := by
  unfold Obligations.IntegerInstructions
  refine ⟨?three, ?one, ?ldhi, ?regs⟩
  case three =>
    intro s k rd rs1 rs2 hr
    simp only [List.forall_mem_cons, List.not_mem_nil, false_imp_iff, implies_true, and_true]
    refine ⟨.rrr rfl hr rfl, .rrr rfl hr rfl, .rrr rfl hr rfl, .rrr rfl hr rfl, .rrr rfl hr rfl,
      .rrr rfl hr (congrArg _ (toNat_setWidth_five _)), .rrr rfl hr (congrArg _ (toNat_setWidth_five _)),
      .rrr rfl hr (congrArg _ (toNat_setWidth_five _)), .rrr rfl hr rfl, .rrr rfl hr rfl,
      .rrr rfl hr (minS_eq_ite _ _), .rrr rfl hr (maxS_eq_ite _ _), .rrr rfl hr (minU_eq_ite _ _),
      .rrr rfl hr (maxU_eq_ite _ _), .rrr rfl hr (satWord_eq_ite _), .rrr rfl hr (satWord_eq_ite _), .rrr rfl hr rfl,
      .rrr rfl hr (highWord_eq _), .rrr rfl hr (highWord_eq _), .rrr rfl hr (highWord_eq _), .rrr rfl hr (divS_eq_ite _ _),
      .rrr rfl hr rfl, .rrr rfl hr rfl, .rrr rfl hr rfl⟩
  case one =>
    intro s k rd rs1 imm n hr
    simp only [List.forall_mem_cons, List.not_mem_nil, false_imp_iff, implies_true, and_true]
    refine ⟨.rri rfl hr rfl, .rri rfl hr rfl, .rri rfl hr (setltK_eq _ _), .rri rfl hr rfl, .rri rfl hr rfl, .rri rfl hr rfl,
      .rri rfl hr rfl, .rri rfl hr rfl, .rri rfl hr rfl, .rri rfl hr rfl⟩
  case ldhi =>
    intro s k rd imm hr
    exact .rri rfl hr.zero rfl
  case regs =>
    intro x r q v
    refine ⟨rfl, rfl, ?_⟩
    rw [Core.rd_wr]
    exact if_congr (and_congr_right fun h => by rw [h]) rfl rfl

end Sys2Proof.Machine
end

section
/-! PROOF. What an instruction of a core answers that traps or waits, and the control transfers, system requests, returns and
fences (R128, R129, R133 to R138, R144). -/

namespace Sys2Proof.Machine

/-! ## Entry to the maskable path -/

/-- A field of one bit. -/
theorem fput_bit_getLsbD (w v : Word) (k : Nat) {i : Nat} (h : i < 32) :
    (fput w k k v).getLsbD i = if i = k then v.getLsbD 0 else w.getLsbD i := by
  rw [fput_getLsbD _ _ _ _ _ h]
  by_cases hk : i = k
  · rw [if_pos (by omega), if_pos hk, hk, Nat.sub_self]
  · rw [if_neg (by omega), if_neg hk]

theorem ofB_getLsbD_zero (b : Bool) : (ofB b).getLsbD 0 = b := by cases b <;> rfl

/-- A field of four bits that is IPL or its saved place. -/
theorem fput_field_getLsbD (w v : Word) (hi lo : Nat) {i : Nat} (h : i < 32) :
    (fput w hi lo v).getLsbD i = if lo ≤ i ∧ i ≤ hi then v.getLsbD (i - lo) else w.getLsbD i := by
  rw [fput_getLsbD _ _ _ _ _ h]
  exact if_congr (by omega) rfl rfl

/-- IPL moved to its saved place, which is four bits higher (R122, R135). -/
theorem fput_saved_getLsbD (w w' : Word) {i : Nat} (h : i < 32) :
    (fput w 13 10 (fget w' 9 6)).getLsbD i = if 10 ≤ i ∧ i ≤ 13 then w'.getLsbD (i - 4) else w.getLsbD i := by
  rw [fput_field_getLsbD _ _ _ _ h]
  split
  · have hlo : i - 10 < 32 := by omega
    have hw : i - 10 < 9 + 1 - 6 := by omega
    have hi : 6 + (i - 10) = i - 4 := by omega
    rw [fget_getLsbD, hi, decide_eq_true hlo, decide_eq_true hw]
    rfl
  · rfl

/-- A new IPL. -/
theorem fput_ipl_getLsbD (w : Word) (n : Nat) {i : Nat} (h : i < 32) :
    (fput w 9 6 (BitVec.ofNat 32 n)).getLsbD i =
      if 6 ≤ i ∧ i ≤ 9 then (BitVec.ofNat 4 n).getLsbD (i - 6) else w.getLsbD i := by
  rw [fput_field_getLsbD _ _ _ _ h]
  split
  · have h4 : i - 6 < 4 := by omega
    have h32 : i - 6 < 32 := by omega
    rw [BitVec.getLsbD_ofNat, BitVec.getLsbD_ofNat, decide_eq_true h4, decide_eq_true h32]
  · rfl

/-- Entry to the maskable path of a core that waits for nothing (R135). -/
theorem Core.entered_enterMask (x : Core) (cause v off : Word) (ipl : Option Nat) (hw : x.wait = .none) :
    Entered x (x.enterMask cause v off ipl) cause v off (ipl.map (BitVec.ofNat 4)) := by
  refine ⟨fun i hi => ?_, by simp [enterMask, entered, flush, hw]⟩
  have hstep (w : Word) : (fput (fput (fput (fput w 2 2 (ofB x.ie)) 1 1 0) 4 4 (privBit x.priv)) 13 10
      (fget x.status 9 6)).getLsbD i =
        if 10 ≤ i ∧ i ≤ 13 then x.status.getLsbD (i - 4)
        else if i = 4 then decide (x.priv = .system)
        else if i = 1 then false else if i = 2 then x.status.getLsbD 1 else w.getLsbD i := by
    rw [fput_saved_getLsbD _ _ hi, fput_bit_getLsbD _ _ _ hi, fput_bit_getLsbD _ _ _ hi, fput_bit_getLsbD _ _ _ hi,
      privBit, ofB_getLsbD_zero, ofB_getLsbD_zero]
    rfl
  have hcases : i = 1 ∨ i = 2 ∨ i = 4 ∨ i = 5 ∨ (i ≠ 1 ∧ i ≠ 2 ∧ i ≠ 4 ∧ i ≠ 5) := by omega
  cases ipl with
  | none =>
    simp only [enterMask, fput_bit_getLsbD _ _ _ hi, hstep, Option.map_none]
    obtain rfl | rfl | rfl | rfl | ⟨h1, h2, h4, h5⟩ := hcases
    case inr.inr.inr.inr => simp only [h1, h2, h4, h5, if_false]
    all_goals rfl
  | some n =>
    simp only [enterMask, fput_bit_getLsbD _ _ _ hi, fput_ipl_getLsbD _ _ hi, hstep, Option.map_some]
    obtain rfl | rfl | rfl | rfl | ⟨h1, h2, h4, h5⟩ := hcases
    case inr.inr.inr.inr =>
      simp only [h1, h2, h4, h5, if_false]
      by_cases hl : 6 ≤ i ∧ i ≤ 9
      · rw [if_pos hl, if_pos hl, if_neg (by omega)]
      · rw [if_neg hl, if_neg hl]
    all_goals rfl

theorem Answers.imp {i : Instr} {s : State} {P Q : State → Prop} (h : Answers i s P) (f : ∀ t, P t → Q t) : Answers i s Q := by
  obtain ⟨t, hx, ht⟩ := h
  exact ⟨t, hx, f t ht⟩

/-! ## Instructions that trap or wait -/

/-- The instruction takes an exception on the maskable path, and nothing outside its pair changes. -/
def Traps (i : Instr) (s : State) (k : At) (code v : Word) : Prop :=
  Answers i s fun t => Entered (s.core k.d k.e) (t.core k.d k.e) code v 0 none ∧ CoreFrame s t k.d k.e

section
variable {i : Instr} {s : State} {k : At} {uses : List GReg} {sys : Bool} {body : Domain → Ins}

/-- An operation of its domain that raises an exception. -/
theorem Traps.of_exception {f : Domain → Domain} {code : Nat} {v : Word} (hx : exec i s = .next (s.onCore k.d f))
    (hu : (s.dom k.d).inReset = false) (hw : (s.core k.d k.e).wait = .none) (hm : MaskOpen s k)
    (hf : f (s.dom k.d) = (s.dom k.d).exception k.e code v) : Traps i s k (BitVec.ofNat 32 code) v := by
  obtain ⟨hexl, hnexl, htrip⟩ := hm
  obtain ⟨hstep, hcore⟩ := Domain.exception_mask code v hnexl hexl htrip
  obtain ⟨h1, h2⟩ := s.onCore_frame k.d k.e f hu (by rw [hf]; exact hstep)
  refine ⟨_, hx, ?_, h2⟩
  rw [h1, hf, hcore]
  exact Core.entered_enterMask _ _ _ _ none hw

theorem Traps.of (hx : exec i s = .next (s.onCore k.d (·.insn k.e k.f sys uses body))) (hr : Ready s k uses)
    (hm : MaskOpen s k) (hp : sys = true → (s.core k.d k.e).priv = .system) {code : Nat} {v : Word}
    (hb : body (s.dom k.d) = .exc code v) : Traps i s k (BitVec.ofNat 32 code) v := by
  refine .of_exception hx hr.up hr.wait hm ?_
  rw [Domain.insn_ready _ _ _ _ _ _ hr.runs hr.wait hr.brk hr.entry hr.fetch hp hr.uses, hb]

/-- A privileged instruction at User level, whatever registers it uses (R133). -/
theorem Traps.of_user {uses' : List GReg} (hx : exec i s = .next (s.onCore k.d (·.insn k.e k.f true uses body)))
    (hr : Ready s k uses') (hm : MaskOpen s k) (hp : (s.core k.d k.e).priv = .user) :
    Traps i s k 3 ((s.dom k.d).codeWord (s.core k.d k.e).pc) := by
  have hp : ((s.dom k.d).core k.e).priv = .user := hp
  refine .of_exception (code := 3) hx hr.up hr.wait hm ?_
  unfold Domain.insn
  simp only [hr.runs, show ((s.dom k.d).core k.e).wait = .none from hr.wait, hr.brk, hr.entry, hr.fetch, hp,
    Option.isNone_none, Bool.not_false, decide_true, Bool.and_true, if_true]
  rfl

/-- An instruction that leaves its core, having changed that alone. -/
theorem LeavesCore.of {x : Core} {d' : Domain} (hx : exec i s = .next (s.onCore k.d (·.insn k.e k.f sys uses body)))
    (hr : Ready s k uses) (hp : sys = true → (s.core k.d k.e).priv = .system) (hb : body (s.dom k.d) = .stay d')
    (hc : d'.core k.e = x) (hs : CoreStep (s.dom k.d) d' k.e) : LeavesCore i s k x := by
  have hi := (s.dom k.d).insn_ready k.e k.f sys uses body hr.runs hr.wait hr.brk hr.entry hr.fetch hp hr.uses
  rw [hb] at hi
  obtain ⟨h1, h2⟩ := s.onCore_frame k.d k.e (·.insn k.e k.f sys uses body) hr.up (by rw [hi]; exact hs)
  exact ⟨_, hx, by rw [h1, hi, hc], h2⟩

end

theorem CoreStep.await (d : Domain) (e : Eng) (w : Wait) : CoreStep d (d.await e w) e := .mapCore d e _

theorem Domain.core_await (d : Domain) (e : Eng) (w : Wait) :
    (d.await e w).core e = { d.core e with wait := w, since := d.time } := core_mapCore d e _

/-! ## Control transfer (R128) -/

section
variable {i : Instr} {s : State} {k : At} {uses : List GReg} {sys : Bool} {body : Domain → Ins}

/-- An instruction that changes its core and counts under an execution item. -/
theorem Retires.of_counted {j : Nat} {o : Occ} (f : Core → Core)
    (hx : exec i s = .next (s.onCore k.d (·.insn k.e k.f sys uses body))) (hr : Ready s k uses)
    (hp : sys = true → (s.core k.d k.e).priv = .system) (hj : j < 16)
    (hb : body (s.dom k.d) = .retire (((s.dom k.d).mapCore k.e f).coreItem k.e j o)) :
    Retires i s k (f (s.core k.d k.e)) :=
  have hitem := Counted.coreItem ((s.dom k.d).mapCore k.e f) k.e j o hj
  .of hx hr hp hb ((hitem.core k.e).trans (Domain.core_mapCore _ _ _)) ((CoreStep.mapCore _ _ _).trans (.of_counted _ hitem))

theorem four_mul_eq_shiftLeft (w : Word) : w <<< 2 = 4 * w := by
  rw [BitVec.mul_comm]
  exact (BitVec.mul_twoPow_eq_shiftLeft w 2).symm

theorem Retires.branch {rs1 rs2 : GReg} {off : BitVec 16} {p : Word → Word → Bool} {b : Bool}
    (hx : exec i s = .next (s.onCore k.d (·.branch k.e k.f rs1 rs2 off p))) (hr : Ready s k [rs1, rs2])
    (hb : p ((s.core k.d k.e).rd rs1) ((s.core k.d k.e).rd rs2) = b) :
    Retires i s k { s.core k.d k.e with
      pc := if b then (s.core k.d k.e).pc + 4 * off.signExtend 32 else (s.core k.d k.e).pc + 4 } := by
  have hb : p (((s.dom k.d).core k.e).rd rs1) (((s.dom k.d).core k.e).rd rs2) = b := hb
  cases b with
  | true =>
    rw [← four_mul_eq_shiftLeft]
    exact .of_counted (fun x => { x with pc := x.pc + (off.signExtend 32 <<< 2) }) hx hr nofun (by decide) (if_pos hb)
  | false =>
    exact .of hx hr nofun (if_neg (by rw [hb]; exact Bool.false_ne_true)) (Domain.core_mapCore _ _ _) (.mapCore _ _ _)

end

/-- An address stands at a word boundary if its two low bits are clear. -/
theorem fget_low_two_eq_zero (w : Word) : fget w 1 0 = 0 ↔ w.toNat % 4 = 0 := by
  have h : (fget w 1 0).toNat = w.toNat % 4 := by
    simp [fget, lowMask, Nat.and_two_pow_sub_one_eq_mod w.toNat 2]
  rw [← h]
  exact ⟨fun h0 => by rw [h0]; rfl, fun h0 => BitVec.eq_of_toNat_eq h0⟩

/-- Settles O2: a branch goes by its comparison, and a call to its target. -/
theorem controlTransfers : Obligations.ControlTransfers := by
  unfold Obligations.ControlTransfers
  intro s k rd rs1 rs2 off imm o21 x a b
  refine ⟨fun hr => ?branches, fun hr => ?call, fun hr ha => ?callr⟩
  case branches =>
    have hge (p q : Int) : (!decide (p < q)) = decide (q ≤ p) := by
      rw [← decide_not]
      exact decide_eq_decide.2 not_lt
    have hgeu (p q : Nat) : (!decide (p < q)) = decide (q ≤ p) := by
      rw [← decide_not]
      exact decide_eq_decide.2 not_lt
    have hne : (a != b) = decide (a ≠ b) := (decide_not (p := a = b)).symm
    simp only [List.forall_mem_cons, List.not_mem_nil, false_imp_iff, implies_true, and_true]
    exact ⟨.branch rfl hr rfl, .branch rfl hr hne, .branch rfl hr rfl, .branch rfl hr (hge _ _), .branch rfl hr rfl,
      .branch rfl hr (hgeu _ _)⟩
  case call =>
    rw [← four_mul_eq_shiftLeft]
    exact .of_counted (fun x => { x.wr rd (x.pc + 4) with pc := x.pc + (o21.signExtend 32 <<< 2) }) rfl hr nofun (by decide)
      rfl
  case callr =>
    exact .of_counted (fun x => { x.wr rd (x.pc + 4) with pc := a + imm.signExtend 32 }) rfl hr nofun (by decide)
      (if_neg (not_not.2 ((fget_low_two_eq_zero _).2 ha)))

/-! ## What an instruction makes of the device -/

theorem Domain.putCore_parts (d : Domain) (e : Eng) (x : Core) :
    ∃ a b c, d.putCore e x = { d with e0 := a, e1 := b, e2 := c } := by
  have hone (y : Domain) (e : Eng) (x : Core) (h : ∃ a b c, y = { d with e0 := a, e1 := b, e2 := c }) :
      ∃ a b c, y.setCore e x = { d with e0 := a, e1 := b, e2 := c } := by
    obtain ⟨a, b, c, rfl⟩ := h
    exact Domain.setCore_parts _ e x
  unfold Domain.putCore
  extract_lets d'
  have hd' : ∃ a b c, d' = { d with e0 := a, e1 := b, e2 := c } := hone d e x ⟨d.e0, d.e1, d.e2, rfl⟩
  split
  · split
    · exact hone _ _ _ hd'
    · exact hd'
  · exact hd'

theorem Domain.dbg_mapCore (d : Domain) (e : Eng) (f : Core → Core) : (d.mapCore e f).dbg = d.dbg := by
  obtain ⟨a, b, c, h⟩ := d.putCore_parts e (f (d.core e))
  rw [Domain.mapCore, h]

/-- Retirement leaves the halt that is asked for. -/
theorem Domain.want_retireAt (d : Domain) (e : Eng) (pc : Word) (w : Bool) :
    (d.retireAt e pc w).dbg.want = d.dbg.want := by
  have hstepped (y : Domain) : (y.stepped e).dbg.want = y.dbg.want := by
    unfold Domain.stepped
    extract_lets y'
    split
    · split <;> rfl
    · rfl
  unfold Domain.retireAt
  extract_lets o age
  rw [hstepped]
  show ((d.mapCore e age).coreItem e 0 o).dbg.want = _
  exact congrArg Dbg.want ((Counted.coreItem (d.mapCore e age) e 0 o (by decide)).dbg.trans (d.dbg_mapCore e age))

@[simp] theorem Domain.core_setDbg (d : Domain) (g : Dbg) (e : Eng) : ({ d with dbg := g } : Domain).core e = d.core e := by
  cases e <;> rfl

theorem CoreStep.setDbg (d : Domain) (g : Dbg) (e : Eng) : CoreStep d { d with dbg := g } e :=
  ⟨⟨d.e0, d.e1, d.e2, d.regs, d.perf, d.evq, d.evNext, d.cyc, g, rfl⟩, fun _ _ _ => rfl, fun y _ _ => by cases y <;> rfl⟩

theorem Domain.mem_of_parts {a b : Domain}
    (h : ∃ r p q n y, b = { a with regs := r, perf := p, evq := q, evNext := n, cyc := y }) :
    b.mem = a.mem ∧ ∀ e, b.core e = a.core e := by
  obtain ⟨r, p, q, n, y, rfl⟩ := h
  exact ⟨rfl, fun e => by cases e <;> rfl⟩

theorem State.dom_setCh_of_ne (s : State) {n : Chan} {w : Dom} (c : Channel) (h : w ≠ .ch n) :
    (s.setCh n c).dom w = s.dom w := by
  cases w with
  | ch m => exact congrArg Channel.dom (State.setCh_other s c fun hm => h (congrArg Dom.ch hm))
  | host => simp [State.dom]

/-- An instruction of a core, lifted: its domain is what the operation makes of it, and the memories and cores of the others
stay, whatever the host learns of it. -/
theorem State.onCore_dom (s : State) (d : Dom) (f : Domain → Domain) (h : (s.dom d).inReset = false) :
    (s.onCore d f).dom d = f (s.dom d) ∧
      ∀ w, w ≠ d → ((s.onCore d f).dom w).mem = (s.dom w).mem ∧ ∀ e, (s.onCore d f).core w e = s.core w e := by
  cases d with
  | ch n =>
    have ht (m : State) (hm : Told (s.setCh n { s.ch n with dom := f (s.ch n).dom }) m) :
        m.dom (.ch n) = f (s.ch n).dom ∧
          ∀ w, w ≠ .ch n → (m.dom w).mem = (s.dom w).mem ∧ ∀ e, m.core w e = s.core w e := by
      refine ⟨by simp only [State.dom, hm.ch, State.setCh_same], fun w hw => ?_⟩
      cases w with
      | ch v =>
        have hv : m.dom (.ch v) = s.dom (.ch v) := by
          rw [← s.dom_setCh_of_ne { s.ch n with dom := f (s.ch n).dom } hw]
          exact congrArg Channel.dom (hm.ch v)
        exact ⟨congrArg Domain.mem hv, fun e => congrArg (·.core e) hv⟩
      | host =>
        have hp := Domain.mem_of_parts hm.parts
        simp only [State.setCh_host] at hp
        exact hp
    unfold State.onCore
    rw [h]
    simp only [Bool.false_eq_true, if_false]
    split
    · exact ht _ (.bumpEpoch _ _ _)
    · exact ht _ (.refl _)
  | host =>
    have ho : s.onCore .host f = allChans.foldl State.settleLink { s with host := { s.host with dom := f s.host.dom } } := by
      unfold State.onCore
      rw [h]
      rfl
    rw [ho]
    obtain ⟨hch, hhost, -, -⟩ := State.settleLinks allChans { s with host := { s.host with dom := f s.host.dom } }
    refine ⟨congrArg HostDom.dom hhost, fun w hw => ?_⟩
    cases w with
    | ch n =>
      have hn := hch n
      refine ⟨?_, ?_⟩
      · have := hn.dom.mem
        cases n <;> exact this
      · have := hn.dom.core
        cases n <;> exact this
    | host => exact absurd rfl hw

section
variable {i : Instr} {s : State} {k : At} {uses : List GReg} {sys : Bool} {body : Domain → Ins} {d' : Domain}

/-- An instruction that retires having changed its pair alone. -/
theorem Ready.retires_frame (hr : Ready s k uses)
    (hx : exec i s = .next (s.onCore k.d (·.insn k.e k.f sys uses body)))
    (hp : sys = true → (s.core k.d k.e).priv = .system) (hb : body (s.dom k.d) = .retire d')
    (hs : CoreStep (s.dom k.d) d' k.e) : Answers i s fun t => t.core k.d k.e = (d'.core k.e).retiring ∧
      t.dom k.d = d'.retireAt k.e (s.core k.d k.e).pc false ∧ CoreFrame s t k.d k.e := by
  have hi := (s.dom k.d).insn_ready k.e k.f sys uses body hr.runs hr.wait hr.brk hr.entry hr.fetch hp hr.uses
  rw [hb] at hi
  obtain ⟨h1, h2⟩ := s.onCore_frame k.d k.e (·.insn k.e k.f sys uses body) hr.up
    (by rw [hi]; exact hs.trans (.retireAt _ _ _ _))
  refine ⟨_, hx, ?_, ?_, h2⟩
  · rw [h1, hi, Domain.core_retireAt]
  · rw [(s.onCore_dom k.d _ hr.up).1, hi]
    rfl

/-- An instruction that retires, in general: what its domain is, and what stays elsewhere. -/
theorem Ready.retires {P : State → Prop} (hr : Ready s k uses)
    (hx : exec i s = .next (s.onCore k.d (·.insn k.e k.f sys uses body)))
    (hp : sys = true → (s.core k.d k.e).priv = .system) (hb : body (s.dom k.d) = .retire d')
    (hP : ∀ t, t = s.onCore k.d (·.insn k.e k.f sys uses body) →
      t.dom k.d = d'.retireAt k.e (s.core k.d k.e).pc false → P t) : Answers i s P := by
  refine ⟨_, hx, hP _ rfl ?_⟩
  rw [(s.onCore_dom k.d _ hr.up).1,
    (s.dom k.d).insn_ready k.e k.f sys uses body hr.runs hr.wait hr.brk hr.entry hr.fetch hp hr.uses, hb]
  rfl

end

/-! ## System requests and returns (R129, R133, R135, R136) -/

/-- Settles O3: SYSREQ and DBGBRK raise their exceptions, and privilege is judged before the instruction. -/
theorem systemRequestsAndPrivilege : Obligations.SystemRequestsAndPrivilege := by
  unfold Obligations.SystemRequestsAndPrivilege
  refine ⟨fun s k hr => ⟨fun hm => ?sysreq, fun hm hd => ?trap, fun hd hw => ?halt⟩, fun s k rd rs1 hr hp hm => ?user⟩
  case sysreq =>
    have h : Traps (.sysreq k) s k (BitVec.ofNat 32 (if (s.core k.d k.e).priv = .user then 0x0B else 0x0C)) 0 :=
      .of (sys := false) rfl hr hm nofun rfl
    rwa [apply_ite (BitVec.ofNat 32)] at h
  case trap => exact Traps.of (sys := false) (code := 0x0D) rfl hr hm nofun (if_neg (by rw [hd]; exact Bool.false_ne_true))
  case halt =>
    have hw' : (s.dom k.d).dbg.want.getD 2 = 2 := by rw [hw]; rfl
    have h := Ready.retires_frame (i := .dbgbrk k) (sys := false) hr rfl nofun (if_pos hd)
      ((CoreStep.mapCore _ _ _).trans (.setDbg _ _ _))
    refine h.imp fun t ⟨hc, ht, hf⟩ => ⟨?_, ?_, hf⟩
    · rw [hc, Domain.core_setDbg, Domain.core_mapCore]
      rfl
    · rw [ht, Domain.want_retireAt]
      exact congrArg some hw'
  case user =>
    simp only [List.forall_mem_cons, List.not_mem_nil, false_imp_iff, implies_true, and_true]
    have h {i : Instr} {uses : List GReg} {body : Domain → Ins}
        (hx : exec i s = .next (s.onCore k.d (·.insn k.e k.f true uses body))) :
        Traps i s k 3 ((s.dom k.d).codeWord (s.core k.d k.e).pc) := .of_user hx hr hm hp
    exact ⟨h rfl, h rfl, h rfl, h rfl, h rfl, h rfl⟩

theorem fget_toNat_eq_extractLsb' (w : Word) (hi lo : Nat) (h : hi < 32) :
    (fget w hi lo).toNat = (w.extractLsb' lo (hi + 1 - lo)).toNat := by
  have hmask : 2 ^ (hi + 1 - lo) - 1 < 2 ^ 32 :=
    Nat.lt_of_lt_of_le (Nat.sub_lt (Nat.two_pow_pos _) Nat.one_pos) (Nat.pow_le_pow_right (by decide) (by omega))
  rw [fget, lowMask, BitVec.toNat_and, BitVec.toNat_ofNat, Nat.mod_eq_of_lt hmask, Nat.and_two_pow_sub_one_eq_mod,
    BitVec.toNat_ushiftRight, BitVec.extractLsb'_toNat]

/-- A bit of STATUS outside IPL, as it is stored (R122). -/
theorem statusStored_getLsbD (w : Word) {i : Nat} (hi : i < 32) (h : i < 6 ∨ 9 < i) :
    (statusStored w).getLsbD i = (w.getLsbD i && (0x3FF6 : Word).getLsbD i) := by
  unfold statusStored
  extract_lets v
  split
  · rw [fput_field_getLsbD _ _ _ _ hi, if_neg (by omega), BitVec.getLsbD_and]
  · rw [BitVec.getLsbD_and]

/-- IPL is stored as 8 where it is above (R122). -/
theorem statusStored_ipl (w : Word) : (fget (statusStored w) 9 6).toNat = min 8 (fget w 9 6).toNat := by
  have hv : fget (w &&& 0x3FF6) 9 6 = fget w 9 6 := by
    rw [fget, BitVec.ushiftRight_and_distrib, BitVec.and_assoc]
    rfl
  unfold statusStored
  extract_lets v
  split
  · rename_i h
    rw [fget_fput _ _ _ _ (by decide), ← hv, min_eq_left (le_of_lt h)]
    rfl
  · rename_i h
    rw [← hv, min_eq_right (Nat.le_of_not_lt h)]

theorem privOf_ofB (b : Bool) : privOf (ofB b) = if b then .system else .user := by cases b <;> rfl

/-- STATUS as RETM forms it, before it is stored (R135). -/
theorem Core.retm_status (x : Core) : ∃ st, x.retm.status = statusStored st ∧ st.getLsbD 1 = x.status.getLsbD 2 ∧
    st.getLsbD 5 = false ∧ fget st 9 6 = fget x.status 13 10 := by
  refine ⟨_, rfl, ?_, ?_, ?_⟩
  · rw [fput_bit_getLsbD _ _ _ (by decide), if_neg (by decide), fput_field_getLsbD _ _ _ _ (by decide), if_neg (by decide),
      fput_bit_getLsbD _ _ _ (by decide), if_pos rfl, fget_bit, ofB_getLsbD_zero]
    rfl
  · rw [fput_bit_getLsbD _ _ _ (by decide), if_pos rfl]
    rfl
  · rw [fget_fput_apart _ _ _ _ (by decide) (by decide), fget_fput _ _ _ _ (by decide), fget, BitVec.and_assoc,
      BitVec.and_self]

/-- Settles O4: each return restores the fields that its entry saved. -/
theorem returns : Obligations.Returns := by
  unfold Obligations.Returns
  intro s k hr hp x
  have hret {i : Instr} (r : Core → Core) (hx : exec i s = .next (s.onCore k.d (·.returnBy k.e k.f r))) :
      Retires i s k (r x) :=
    .of (sys := true) hx hr (fun _ => hp) rfl (Domain.core_mapCore _ _ _) (.mapCore _ _ _)
  refine ⟨(hret Core.retm rfl).imp fun t ⟨hc, hf⟩ => ?retm, (hret Core.retn rfl).imp fun t ⟨hc, hf⟩ => ?retn⟩
  case retm =>
    extract_lets y
    have hy : y = x.retm.retiring := hc
    obtain ⟨st, hst, hie, hexl, hipl⟩ := x.retm_status
    have hst : y.status = statusStored st := by rw [hy]; exact hst
    have hpriv : y.priv = privOf (fget x.status 4 4) := by rw [hy]; rfl
    refine ⟨by rw [hy]; rfl, ?_, ?_, ?_, ?_, by rw [hy]; rfl, hf⟩
    · rw [hpriv, fget_bit, privOf_ofB]
      rfl
    · rw [Core.ie, bitOf, hst, statusStored_getLsbD _ (by decide) (by decide), hie]
      exact Bool.and_true _
    · rw [Core.exl, bitOf, hst, statusStored_getLsbD _ (by decide) (by decide), hexl]
      rfl
    · rw [Core.ipl, hst, statusStored_ipl, hipl, fget_toNat_eq_extractLsb' _ _ _ (by decide)]
  case retn =>
    extract_lets y
    have hy : y = x.retn.retiring := hc
    have hpriv : y.priv = privOf (fget x.nstatus 14 14) := by rw [hy]; rfl
    have hst : y.nstatus = fput x.nstatus 31 31 0 := by rw [hy]; rfl
    refine ⟨by rw [hy]; rfl, ?_, ?_, by rw [hy]; rfl, by rw [hy]; rfl, hf⟩
    · rw [hpriv, fget_bit, privOf_ofB]
      rfl
    · rw [Core.nexl, bitOf, hst, fput_bit_getLsbD _ _ _ (by decide), if_pos rfl]
      rfl

/-! ## Fences (R144) -/

section
variable {i : Instr} {s : State} {k : At} {mask : BitVec 4} (hx : exec i s = .next (s.onCore k.d (·.fence k.e k.f mask)))
include hx

theorem Retires.fence (hr : Ready s k []) (hd : (s.dom k.d).drained k.e mask = true) (ho : (s.dom k.d).owes k.e mask = false) :
    Retires i s k (s.core k.d k.e).next :=
  .of hx hr nofun (if_pos (by rw [hd, ho]; rfl)) (Domain.core_mapCore _ _ _) (.mapCore _ _ _)

theorem LeavesCore.fence (hr : Ready s k [])
    (h : (s.dom k.d).drained k.e mask = false ∨ (s.dom k.d).owes k.e mask = true) :
    LeavesCore i s k { s.core k.d k.e with wait := .fence mask, since := (s.dom k.d).time } := by
  refine .of hx hr nofun (if_neg ?_) (Domain.core_await _ _ _) (.await _ _ _)
  obtain h | h := h <;> simp [h]

end

end Sys2Proof.Machine
end

section
/-! PROOF. What joins the replay log outside a replay (R397); IDLE and the fences (R129, R144), and the entries at a boundary
(R134 to R139). -/

namespace Sys2Proof.Machine

/-! ## The logs of LSC -/

/-- The second domain is the first but for the logs of LSC, their levels, and what is counted; what a replay goes by stays. -/
structure Recorded (a b : Domain) : Prop where
  parts : ∃ r p q n y l, b = { a with regs := r, perf := p, evq := a.evq ++ q, evNext := n, cyc := y, lsc := l }
  rg : ∀ f : Fld, f.quiet → f.reg ≠ LSC_LOGLVL_RLOG.reg → b.rg f = a.rg f
  replay : b.lsc.replay = a.lsc.replay
  due : b.lsc.due = a.lsc.due

theorem Recorded.refl (a : Domain) : Recorded a a :=
  ⟨⟨a.regs, a.perf, [], a.evNext, a.cyc, a.lsc, by simp⟩, fun _ _ _ => rfl, rfl, rfl⟩

theorem Recorded.of_counted {a b : Domain} (h : Counted a b) : Recorded a b := by
  have hl := h.lsc
  obtain ⟨⟨r, p, q, n, y, hb⟩, hrg⟩ := h
  exact ⟨⟨r, p, q, n, y, a.lsc, hb⟩, fun f hf _ => hrg f hf, by rw [hl], by rw [hl]⟩

theorem Recorded.trans {a b c : Domain} (h : Recorded a b) (g : Recorded b c) : Recorded a c := by
  obtain ⟨⟨r, p, q, n, y, l, hb⟩, hrg, hr, hd⟩ := h
  obtain ⟨⟨r', p', q', n', y', l', hc⟩, grg, gr, gd⟩ := g
  exact ⟨⟨r', p', q ++ q', n', y', l', by rw [hc, hb]; simp⟩, fun f hf hne => (grg f hf hne).trans (hrg f hf hne),
    gr.trans hr, gd.trans hd⟩

section
variable {a b : Domain} (h : Recorded a b)
include h
theorem Recorded.core (e : Eng) : b.core e = a.core e := by
  obtain ⟨⟨r, p, q, n, y, l, rfl⟩, -⟩ := h
  cases e <;> rfl
theorem Recorded.mem : b.mem = a.mem := by obtain ⟨⟨r, p, q, n, y, l, rfl⟩, -⟩ := h; rfl
theorem Recorded.time : b.time = a.time := by obtain ⟨⟨r, p, q, n, y, l, rfl⟩, -⟩ := h; rfl
theorem Recorded.fresh : b.fresh = a.fresh := by obtain ⟨⟨r, p, q, n, y, l, rfl⟩, -⟩ := h; rfl
theorem Recorded.main : b.main = a.main := by
  simp only [Domain.main, Domain.rgN, h.rg _ quiet_main (by decide)]
theorem Recorded.shadow : b.shadow = a.shadow := by
  simp only [Domain.shadow, Domain.rgN, h.rg _ quiet_shadow (by decide)]
theorem Recorded.phase : b.phase = a.phase := by
  simp only [Domain.phase, Domain.rgN, h.rg _ quiet_phase (by decide)]
end

theorem Recorded.logOverflow (d : Domain) : Recorded d d.logOverflow := by
  have hset := Recorded.of_counted (.setB d LSC_STAT_LOGOVF true fun g hg => by
    by_cases hr : LSC_STAT_LOGOVF.reg = g.reg
    · exact .inr (hg.2.2.2.2 hr.symm)
    · exact .inl hr)
  have htold : Recorded (d.setB LSC_STAT_LOGOVF true)
      ((d.setB LSC_STAT_LOGOVF true).setLsc fun l => { l with ovfTold := true }) :=
    ⟨⟨_, _, [], _, _, _, by simp; rfl⟩, fun _ _ _ => rfl, rfl, rfl⟩
  unfold Domain.logOverflow
  extract_lets told d'
  split
  · exact hset.trans htold
  · exact (hset.trans htold).trans (.of_counted (.raise _ _ _ (by decide)))

/-- A log that grows by an entry, with its level. -/
theorem Recorded.grow (d : Domain) (f : Fld) (hf : f.reg = LSC_LOGLVL_RLOG.reg) (l : Lsc) (n : Nat)
    (hr : l.replay = d.lsc.replay) (hd : l.due = d.lsc.due) : Recorded d (({ d with lsc := l } : Domain).setN f n) :=
  ⟨⟨_, d.perf, [], d.evNext, d.cyc, l, by simp; rfl⟩,
    fun g _ hne => Domain.rg_set_reg _ _ _ _ (by rw [hf]; exact hne.symm), hr, hd⟩

theorem Recorded.logStore (d : Domain) (e : Eng) (a : Nat) (old : Word) : Recorded d (d.logStore e a old) := by
  unfold Domain.logStore
  split
  · split
    · exact .logOverflow d
    · exact .grow d LSC_LOGLVL_JRNL rfl _ _ rfl rfl
  · exact .refl d

theorem Domain.expected_of_not_replays {d : Domain} {e : Eng} (h : d.replays e = false) : d.expected e = none :=
  Option.not_isSome_iff_eq_none.1 (by rw [show (d.expected e).isSome = false from h]; exact Bool.false_ne_true)

theorem Recorded.logRec {d : Domain} {e : Eng} (h : d.replays e = false) (k : LogKind) (a v : Word) :
    Recorded d (d.logRec e k a v) := by
  unfold Domain.logRec
  rw [Domain.expected_of_not_replays h]
  simp only
  split
  · split
    · exact .logOverflow d
    · exact .grow d LSC_LOGLVL_RLOG rfl _ _ rfl rfl
  · exact .refl d

/-- What a replay expects hangs on the phase, main, the time and the log alone. -/
theorem Domain.expected_congr {a b : Domain} (hp : b.phase = a.phase) (hm : b.main = a.main) (ht : b.time = a.time)
    (hr : b.lsc.replay = a.lsc.replay) (hd : b.lsc.due = a.lsc.due) (e : Eng) : b.expected e = a.expected e := by
  unfold Domain.expected
  rw [hp, hm, ht, hr, hd]

theorem Recorded.replays {a b : Domain} (h : Recorded a b) (e : Eng) : b.replays e = a.replays e := by
  unfold Domain.replays
  rw [Domain.expected_congr h.phase h.main h.time h.replay h.due]

theorem CoreStep.main {a b : Domain} {e : Eng} (h : CoreStep a b e) : b.main = a.main := by
  simp only [Domain.main, Domain.rgN, h.rg _ quiet_main (by decide)]

theorem CoreStep.replays {a b : Domain} {e : Eng} (h : CoreStep a b e) (y : Eng) : b.replays y = a.replays y := by
  unfold Domain.replays
  rw [Domain.expected_congr h.phase h.main h.time (by rw [h.lsc]) (by rw [h.lsc])]

/-- Outside a replay a value from outside is the one that the core sees (R398). -/
theorem Domain.input_of_not_replays {d : Domain} {e : Eng} (h : d.replays e = false) (k : LogKind) (a live : Word) :
    d.input e k a live = live := by
  unfold Domain.input
  rw [expected_of_not_replays h]

/-! ## What stays outside the pair -/

/-- Memory and the cores outside the pair of e stay. -/
structure PairStep (a b : Domain) (e : Eng) : Prop where
  mem : b.mem = a.mem
  shadow : b.shadow = a.shadow
  cores : ∀ y, y ≠ e → a.shadow ≠ some y → b.core y = a.core y

theorem PairStep.of_core {a b : Domain} {e : Eng} (h : CoreStep a b e) : PairStep a b e := ⟨h.mem, h.shadow, h.cores⟩

theorem PairStep.of_recorded {a b : Domain} (e : Eng) (h : Recorded a b) : PairStep a b e :=
  ⟨h.mem, h.shadow, fun y _ _ => h.core y⟩

theorem PairStep.trans {a b c : Domain} {e : Eng} (h : PairStep a b e) (g : PairStep b c e) : PairStep a c e :=
  ⟨g.mem.trans h.mem, g.shadow.trans h.shadow, fun y hy hs => (g.cores y hy (by rwa [h.shadow])).trans (h.cores y hy hs)⟩

/-- The memories of the device and the cores outside the pair stay. -/
def PairFrame (s t : State) (d : Dom) (e : Eng) : Prop := ∀ b, (t.dom b).mem = (s.dom b).mem ∧
  ∀ y, (b ≠ d ∨ (y ≠ e ∧ (s.dom d).shadow ≠ some y)) → t.core b y = s.core b y

theorem State.onCore_pair (s : State) (d : Dom) (e : Eng) (f : Domain → Domain) (h : (s.dom d).inReset = false)
    (hf : PairStep (s.dom d) (f (s.dom d)) e) : PairFrame s (s.onCore d f) d e := by
  obtain ⟨hself, hother⟩ := s.onCore_dom d f h
  intro b
  by_cases hb : b = d
  · subst hb
    refine ⟨by rw [hself, hf.mem], fun y hy => ?_⟩
    obtain hy | ⟨hy, hs⟩ := hy
    · exact absurd rfl hy
    · unfold State.core
      rw [hself]
      exact hf.cores y hy hs
  · obtain ⟨hmem, hcore⟩ := hother b hb
    exact ⟨hmem, fun y _ => hcore y⟩

/-! ## IDLE (R129) -/

section
variable {i : Instr} {s : State} {d : Dom} {e : Eng} {f : Domain → Domain} {x : Core} {y : Domain}

/-- A waiting instruction that completes once its domain has been changed to `y`. -/
theorem Answers.of_finish {g : Core → Core} (hx : exec i s = .next (s.onCore d f)) (hu : (s.dom d).inReset = false)
    (hf : f (s.dom d) = y.finish e g) (hc : (g (y.core e)).next = x) (hm : y.mem = (s.dom d).mem) :
    Answers i s fun t => t.core d e = x.retiring ∧ (t.dom d).mem = (s.dom d).mem := by
  have hd := (s.onCore_dom d f hu).1
  refine ⟨_, hx, ?_, ?_⟩
  · rw [State.core, hd, hf, Domain.core_finish, hc]
  · rw [hd, hf, (CoreStep.finish y e g).mem, hm]

end

section
variable {i : Instr} {s : State} {k : At} {uses : List GReg} {sys : Bool} {body : Domain → Ins} {x : Core} {y : Domain}

/-- An instruction that retires once its domain has been changed to `y`. -/
theorem Ready.retires_core {g : Core → Core} (hr : Ready s k uses)
    (hx : exec i s = .next (s.onCore k.d (·.insn k.e k.f sys uses body)))
    (hp : sys = true → (s.core k.d k.e).priv = .system) (hb : body (s.dom k.d) = .retire (y.mapCore k.e g))
    (hc : g (y.core k.e) = x) (hm : y.mem = (s.dom k.d).mem) :
    Answers i s fun t => t.core k.d k.e = x.retiring ∧ (t.dom k.d).mem = (s.dom k.d).mem := by
  refine hr.retires hx hp hb fun t _ ht => ?_
  rw [State.core, ht, Domain.core_retireAt, Domain.core_mapCore, hc]
  exact ⟨rfl, ((CoreStep.retireAt _ k.e _ _).mem.trans (CoreStep.mapCore y k.e g).mem).trans hm⟩

end

/-- Settles O7: what IDLE and the fences wait for decides whether they retire, now or later. -/
theorem idleAndFences : Obligations.IdleAndFences := by
  unfold Obligations.IdleAndFences
  refine ⟨fun s k hn => ⟨fun hr hp hw => ?retires, fun hr hp hw => ?waits, fun hu hr hi hw => ?wakes⟩,
    fun s k o3 o2 o1 => ⟨fun hr => ?fence, fun m hu hr hw hd ho => ?fenceRetire⟩⟩
  case retires =>
    have hlog := Recorded.logRec hn .effect 0 0
    exact hr.retires_core (sys := true) rfl (fun _ => hp) (if_pos hw) (congrArg Core.next (hlog.core k.e)) hlog.mem
  case waits =>
    have h : LeavesCore (.idle k) s k { s.core k.d k.e with wait := .idle, since := (s.dom k.d).time } :=
      .of (sys := true) rfl hr (fun _ => hp) (if_neg (by rw [hw]; exact Bool.false_ne_true)) (Domain.core_await _ _ _)
        (.await _ _ _)
    refine h.imp fun t ⟨hc, _⟩ => ?_
    rw [hc]
    exact ⟨rfl, rfl, rfl⟩
  case wakes =>
    have hlog := Recorded.logRec hn .effect 0 0
    have hi : ((s.dom k.d).core k.e).wait = .idle := hi
    refine .of_finish rfl hu (if_pos ?_) (congrArg Core.next (hlog.core k.e)) hlog.mem
    rw [hr, hi, hw]
    rfl
  case fence =>
    have hfence {i : Instr} {mask : BitVec 4} (hx : exec i s = .next (s.onCore k.d (·.fence k.e k.f mask))) :
        ((s.dom k.d).drained k.e mask = true → (s.dom k.d).owes k.e mask = false → Retires i s k (s.core k.d k.e).next) ∧
        ((s.dom k.d).drained k.e mask = false ∨ (s.dom k.d).owes k.e mask = true →
          LeavesCore i s k { s.core k.d k.e with wait := .fence mask, since := (s.dom k.d).time }) :=
      ⟨.fence hx hr, .fence hx hr⟩
    simp only [List.forall_mem_cons, List.not_mem_nil, false_imp_iff, implies_true, and_true]
    exact ⟨hfence rfl, hfence rfl, hfence rfl, hfence rfl, hfence rfl⟩
  case fenceRetire =>
    have hw : ((s.dom k.d).core k.e).wait = .fence m := hw
    have hf : (s.dom k.d).fenceRetire k.e = (s.dom k.d).finish k.e (fun x => x) := by
      unfold Domain.fenceRetire
      rw [hw]
      simp only [hr, hd, ho, Bool.and_true, if_true, Bool.false_eq_true, if_false]
    obtain ⟨hc, hframe⟩ := s.onCore_frame k.d k.e (·.fenceRetire k.e) hu (by rw [hf]; exact .finish _ _ _)
    refine ⟨_, rfl, ?_, hframe⟩
    rw [hc, hf, Domain.core_finish]
    rfl

/-! ## Entries at a boundary (R134 to R139) -/

/-- What is pending for an engine hangs on the registers of SYS and EVT, and on which engine is main. -/
theorem Recorded.tripPending {a b : Domain} (h : Recorded a b) (e : Eng) : b.tripPending e = a.tripPending e := by
  have hbit {base ev : Nat} (hb : 0x10000 ≤ base ∧ base ≤ 0x10020) (hev : ev < 128) :
      b.evBit (fun i => ⟨base + 4 * i, 31, 0⟩) ev = a.evBit (fun i => ⟨base + 4 * i, 31, 0⟩) ev := by
    have hq : (Fld.bit ⟨base + 4 * (ev / 32), 31, 0⟩ (ev % 32)).quiet := by
      simp only [Fld.quiet, Fld.bit]
      omega
    simp only [Domain.evBit, Domain.rgB, h.rg _ hq (by simp only [Fld.bit]; omega)]
  have hdual : b.dual = a.dual := by simp only [Domain.dual, Domain.rgB, h.rg SYS_CAP_DUAL_CORE (by decide) (by decide)]
  unfold Domain.tripPending Domain.pendingOf
  congr 1
  refine List.find?_congr fun ev hmem => ?_
  have hev : ev < 128 := List.mem_range.1 hmem
  have hpend : b.evBit EVT_PEND_PEND ev = a.evBit EVT_PEND_PEND ev := hbit (by decide) hev
  have hen : b.evBit EVT_EN_EN ev = a.evBit EVT_EN_EN ev := hbit (by decide) hev
  have hroute : b.evBit EVT_ROUTE_ROUTE ev = a.evBit EVT_ROUTE_ROUTE ev := hbit (by decide) hev
  have hpri : b.pri ev = a.pri ev := by
    have hq : (EVT_PRI_PRI (ev / 8) (ev % 8)).quiet := by
      simp only [Fld.quiet]
      omega
    simp only [Domain.pri, Domain.rgN, h.rg _ hq (by simp only; omega)]
  simp only [Domain.routed, hdual, h.main, hroute, hpend, hen, hpri]

theorem Domain.atBoundary_of {d : Domain} {e : Eng} (hr : d.runs e = true) (hw : (d.core e).wait = .none)
    (hh : d.dbg.halted = false) : d.atBoundary e = true := by
  unfold Domain.atBoundary
  rw [hr, hw, hh]
  rfl

/-- A free value, which the domain then counts. -/
theorem PairStep.free (d : Domain) (site : Nat) (e : Eng) : PairStep d (d.free site).2 e :=
  ⟨rfl, rfl, fun y _ _ => by cases y <;> rfl⟩

section
variable {d : Domain} {e : Eng} (hn : d.replays e = false) (hr : d.runs e = true) (hw : (d.core e).wait = .none)
  (hh : d.dbg.halted = false)
include hn hr hw hh

/-- INTERRUPT_ENTRY where class p passes: the entry is logged, XVAL takes a free value, and the handler is entered. -/
theorem Domain.interruptEntry_of {p : Nat} (ht : d.tripPending e = false) (hp : d.topLevel e = some p)
    (htakes : (d.core e).takes p = true) : PairStep d (d.interruptEntry e) e ∧
      ∃ v, (d.interruptEntry e).core e = (d.core e).enterMask (0x80000000 + BitVec.ofNat 32 p) v
        (BitVec.ofNat 32 (0x40 + 0x40 * p)) (some (p + 1)) := by
  have hdue : d.dueLevel e = some p := by
    unfold Domain.dueLevel
    simp [hn, ht, hp, htakes]
  have hlog : Recorded d (d.logEntry e (0x80000000 + BitVec.ofNat 32 p)) := .logRec hn _ _ _
  unfold Domain.interruptEntry
  rw [hdue]
  simp only [Domain.atBoundary_of hr hw hh, if_true]
  generalize hx : (d.logEntry e (0x80000000 + BitVec.ofNat 32 p)).free 2 = q
  have hq : PairStep d q.2 e := hx ▸ (PairStep.of_recorded e hlog).trans (.free _ _ _)
  have hqc : q.2.core e = d.core e := by
    rw [← hx, ← hlog.core e]
    cases e <;> rfl
  have hitem := Counted.coreItem (q.2.mapCore e (·.enterMask (0x80000000 + BitVec.ofNat 32 p) q.1
    (BitVec.ofNat 32 (0x40 + 0x40 * p)) (some (p + 1)))) e 10 (d.occAt e (d.core e).pc false) (by decide)
  refine ⟨hq.trans (.of_core ((CoreStep.mapCore _ _ _).trans (.of_counted e hitem))), q.1, ?_⟩
  rw [hitem.core, Domain.core_mapCore, hqc]

/-- TRIP_NOTIFICATION_ENTRY: the entry is logged, and the non-maskable path entered. -/
theorem Domain.tripEntry_of (ht : d.tripPending e = true) (hx : (d.core e).nexl = false) :
    PairStep d (d.tripEntry e) e ∧ (d.tripEntry e).core e = (d.core e).enterNmi 0 := by
  have hdue : d.tripDue e = true := by
    unfold Domain.tripDue
    simp [hn, ht, hx]
  have hlog : Recorded d (d.logEntry e 0x80000008) := .logRec hn _ _ _
  unfold Domain.tripEntry
  simp only [Domain.atBoundary_of hr hw hh, hdue, Bool.and_true, if_true]
  unfold Domain.takeTrip
  extract_lets o
  have hitem := Counted.coreItem ((d.logEntry e 0x80000008).mapCore e (·.enterNmi 0)) e 11 o (by decide)
  refine ⟨(PairStep.of_recorded e hlog).trans (.of_core (((CoreStep.mapCore _ _ _).trans (.of_counted e hitem)).trans
    (.stepped _ _))), ?_⟩
  rw [Domain.core_stepped, hitem.core, Domain.core_mapCore, hlog.core]

omit hh in
/-- POSTED_STORE_BUS_ERROR: the oldest failure leaves the queue, its entry and its address are logged, and exception 0x07
is taken. -/
theorem Domain.postedError_of {a : Word} {more : List Word} (ha : (d.core e).postedErrs = a :: more)
    (hexl : (d.core e).exl = false) (hnexl : (d.core e).nexl = false) (ht : d.tripPending e = false) :
    PairStep d (d.postedError e) e ∧
      (d.postedError e).core e = { d.core e with postedErrs := more }.enterMask 7 a 0 none := by
  have hbody : d.postedError e = (d.mapCore e (fun x => { x with postedErrs := more })).takePosted e a := by
    unfold Domain.postedError
    simp [hn, ha, hr, hw, hexl, hnexl, ht, Wait.abandons]
  rw [hbody]
  generalize hy : d.mapCore e (fun x => { x with postedErrs := more }) = y
  have hstep : CoreStep d y e := hy ▸ .mapCore _ _ _
  have hyc : y.core e = { d.core e with postedErrs := more } := hy ▸ Domain.core_mapCore _ _ _
  have hyn : y.replays e = false := (hstep.replays e).trans hn
  have hyt : y.tripPending e = false := by
    rw [Domain.tripPending_congr fun f hq hf =>
      hstep.rg f hq (Nat.ne_of_lt (Nat.lt_of_lt_of_le hf (by decide)))]
    exact ht
  have hlog1 : Recorded y (y.logEntry e 7) := .logRec hyn _ _ _
  have hlog : Recorded y ((y.logEntry e 7).logRec e .fault a 7) :=
    hlog1.trans (.logRec ((hlog1.replays e).trans hyn) _ _ _)
  have hzc := (hlog.core e).trans hyc
  obtain ⟨hexc, hcore⟩ := Domain.exception_mask (d := (y.logEntry e 7).logRec e .fault a 7) (e := e) 7 a
    (by rw [hzc]; exact hnexl) (by rw [hzc]; exact hexl) (.inl ((hlog.tripPending e).trans hyt))
  unfold Domain.takePosted
  refine ⟨((PairStep.of_core hstep).trans (.of_recorded e hlog)).trans (.of_core hexc), ?_⟩
  rw [hcore, hzc]
  rfl

end

/-- What the non-maskable path leaves in the two status registers (R136). -/
theorem Core.enterNmi_status (x : Core) (c : Word) : (x.enterNmi c).ie = false ∧ (x.enterNmi c).exl = true ∧
    (x.enterNmi c).nexl = true ∧ (x.enterNmi c).nstatus.extractLsb' 0 14 = x.status.extractLsb' 0 14 ∧
    (x.enterNmi c).nstatus.getLsbD 14 = decide (x.priv = .system) := by
  have hns {i : Nat} (hi : i < 32) : (x.enterNmi c).nstatus.getLsbD i = if i = 14 then decide (x.priv = .system)
      else if i = 31 then true else if 0 ≤ i ∧ i ≤ 13 then x.status.getLsbD i else x.nstatus.getLsbD i := by
    simp only [enterNmi, fput_bit_getLsbD _ _ _ hi, fput_field_getLsbD _ _ _ _ hi, privBit, ofB_getLsbD_zero, Nat.sub_zero]
    rfl
  have hst {i : Nat} (hi : i < 32) : (x.enterNmi c).status.getLsbD i = if i = 5 then true
      else if i = 1 then false else x.status.getLsbD i := by
    simp only [enterNmi, fput_bit_getLsbD _ _ _ hi]
    rfl
  refine ⟨hst (i := 1) (by decide), hst (i := 5) (by decide), hns (i := 31) (by decide), ?_, hns (by decide)⟩
  refine BitVec.eq_of_getLsbD_eq fun i hi => ?_
  rw [BitVec.getLsbD_extractLsb', BitVec.getLsbD_extractLsb', Nat.zero_add, hns (by omega), if_neg (by omega),
    if_neg (by omega), if_pos (by omega)]

/-- Settles O5: each entry is logged, then made of its core as its path says. -/
theorem entriesAtBoundaries : Obligations.EntriesAtBoundaries := by
  unfold Obligations.EntriesAtBoundaries
  intro s d e k x rest hu hr hw hh hn
  have htrip : MaskOpen s k → (s.dom d).tripPending e = false := fun ⟨_, _, h⟩ => h.resolve_right (by rw [hn]; decide)
  refine ⟨fun p hm hp hie hipl => ?interrupt, fun ht hx => ?trip, fun a more ha hm => ?posted⟩
  case interrupt =>
    have htakes : ((s.dom d).core e).takes p = true := by
      obtain ⟨hexl, hnexl, -⟩ := hm
      show x.takes p = true
      unfold Core.takes
      simp [hie, show x.exl = false from hexl, show x.nexl = false from hnexl, hipl]
    obtain ⟨hstep, v, hcore⟩ := Domain.interruptEntry_of hn hr hw hh (htrip hm) hp htakes
    refine ⟨_, rfl, v, ?_, s.onCore_pair d e _ hu hstep⟩
    rw [State.core, (s.onCore_dom d _ hu).1, hcore]
    exact Core.entered_enterMask _ _ _ _ _ hw
  case trip =>
    obtain ⟨hstep, hcore⟩ := Domain.tripEntry_of hn hr hw hh ht hx
    refine ⟨_, rfl, ?_⟩
    have hy : (s.onCore d (·.tripEntry e)).core d e = x.enterNmi 0 := by
      rw [State.core, (s.onCore_dom d _ hu).1, hcore]
      rfl
    obtain ⟨hie, hexl, hnexl, hlow, hpriv⟩ := x.enterNmi_status 0
    simp only [hy]
    refine ⟨rfl, rfl, rfl, hie, hexl, hnexl, hlow, hpriv, ?_, s.onCore_pair d e _ hu hstep⟩
    simp [Core.enterNmi, Core.entered, Core.flush, hw]
  case posted =>
    obtain ⟨hexl, hnexl, -⟩ := id hm
    obtain ⟨hstep, hcore⟩ := Domain.postedError_of hn hr hw ha hexl hnexl (htrip hm)
    refine ⟨_, rfl, ?_, s.onCore_pair d e _ hu hstep⟩
    rw [State.core, (s.onCore_dom d _ hu).1, hcore]
    exact Core.entered_enterMask _ _ _ _ none hw

end Sys2Proof.Machine
end

section
/-! PROOF. The control register instructions (R121, R122, R129). -/

namespace Sys2Proof.Machine

section
variable {i : Instr} {s : State} {k : At} {rd rs1 : GReg} {csr : BitVec 12} {writes : Bool} {op : Word → Word → Word}
  {old : Word} (hx : exec i s = .next (s.onCore k.d (·.ctl k.e k.f rd rs1 csr writes op))) (hr : Ready s k [rd, rs1])
include hx hr

/-- A control register other than TIME and TIMEH, at System level. -/
theorem Retires.ctl (hp : (s.core k.d k.e).priv = .system) (ho : (s.dom k.d).csr k.e csr.toNat = some old)
    (htime : csr.toNat ≠ 0x010) (htimeh : csr.toNat ≠ 0x011) {x : Core}
    (hv : (if writes then (s.core k.d k.e).csrWrite csr.toNat (op old ((s.core k.d k.e).rd rs1)) else s.core k.d k.e) = x) :
    Retires i s k (x.wr rd old).next := by
  subst hv
  have hp : ((s.dom k.d).core k.e).priv = .system := hp
  refine .of (sys := false) hx hr nofun ?_ (Domain.core_mapCore _ _ fun x =>
    ((if writes then x.csrWrite csr.toNat (op old ((s.core k.d k.e).rd rs1)) else x).wr rd old).next) (.mapCore _ _ _)
  simp [ho, hp, htime, htimeh, State.core]

/-- TIME and TIMEH: what the register gives joins the replay log, and a read of TIME captures its upper half. -/
theorem Ready.ctl_time (hn : (s.dom k.d).replays k.e = false) (ho : (s.dom k.d).csr k.e csr.toNat = some old)
    (hpriv : (s.core k.d k.e).priv = .system ∨ writes = false) (htime : csr.toNat = 0x010 ∨ csr.toNat = 0x011) :
    Answers i s fun t => t.core k.d k.e = ((if csr.toNat = 0x010 ∧ writes = false then
      { s.core k.d k.e with timeh := BitVec.ofNat 32 ((s.dom k.d).time / 4294967296) } else s.core k.d k.e).wr rd
        old).next.retiring ∧ (t.dom k.d).mem = (s.dom k.d).mem := by
  have hlog := Recorded.logRec hn .value (BitVec.ofNat 32 csr.toNat) old
  have hwrite (x : Core) (w : Word) : x.csrWrite csr.toNat w = x := by
    obtain h | h := htime <;> rw [h] <;> rfl
  refine hr.retires_core (sys := false) hx nofun ?_ (y := (s.dom k.d).logRec k.e .value (BitVec.ofNat 32 csr.toNat) old)
    (g := fun x => ((if csr.toNat = 0x010 ∧ writes = false then
      { x with timeh := BitVec.ofNat 32 ((s.dom k.d).time / 4294967296) } else x).wr rd old).next)
    (by rw [hlog.core]; rfl) hlog.mem
  have hnot : ¬(((s.dom k.d).core k.e).priv = .user ∧ ¬((csr.toNat = 0x010 ∨ csr.toNat = 0x011) ∧ writes = false)) := by
    rintro ⟨hu, hw⟩
    obtain h | h := hpriv
    · exact absurd (hu.symm.trans h) (by decide)
    · exact hw ⟨htime, h⟩
  simp only [ho, if_neg hnot, if_pos htime, Domain.input_of_not_replays hn, hwrite, ite_self, hlog.time]

theorem Traps.ctl (hm : MaskOpen s k) (hp : (s.core k.d k.e).priv = .user) (htime : csr ≠ 0x010) (htimeh : csr ≠ 0x011) :
    Traps i s k (if ((s.dom k.d).csr k.e csr.toNat).isSome then 3 else 2) ((s.dom k.d).codeWord (s.core k.d k.e).pc) := by
  have hp : ((s.dom k.d).core k.e).priv = .user := hp
  have hn : ¬(csr.toNat = 0x010 ∨ csr.toNat = 0x011) := by
    rintro (h | h)
    · exact htime (BitVec.eq_of_toNat_eq h)
    · exact htimeh (BitVec.eq_of_toNat_eq h)
  cases hc : (s.dom k.d).csr k.e csr.toNat with
  | none => exact .of (sys := false) (code := 2) hx hr hm nofun (by simp only [hc]; rfl)
  | some live => exact .of (sys := false) (code := 3) hx hr hm nofun (by simp [hc, hp, hn, State.core])

end

/-- CTL.SET and CTL.CLR with g0 do not write (R129). -/
theorem if_ne_zero_core (r : GReg) (x y : Core) : (if (r != 0) = true then y else x) = if r = 0 then x else y := by
  by_cases h : r = 0
  · rw [if_pos h, if_neg (by rw [h]; decide)]
  · rw [if_neg h, if_pos (bne_iff_ne.2 h)]

/-- Settles O6: a control register reads as the core holds it, and is written as its instruction says. -/
theorem controlRegisterInstructions : Obligations.ControlRegisterInstructions := by
  unfold Obligations.ControlRegisterInstructions
  refine ⟨?system, ?time, ?timeWrites, ?user⟩
  case system =>
    intro s k rd rs1 csr old hr hp ho htime htimeh
    have hset := if_ne_zero_core rs1 (s.core k.d k.e)
    refine ⟨.ctl (writes := true) (op := fun _ v => v) rfl hr hp ho htime htimeh rfl, ?_, ?_⟩
    · exact .ctl (writes := rs1 != 0) (op := fun old v => old ||| v) rfl hr hp ho htime htimeh (hset _)
    · exact .ctl (writes := rs1 != 0) (op := fun old v => old &&& ~~~v) rfl hr hp ho htime htimeh (hset _)
  case time =>
    intro s k rd hr hn
    simp only [List.forall_mem_cons, List.not_mem_nil, false_imp_iff, implies_true, and_true]
    exact ⟨hr.ctl_time (csr := 0x010) (writes := false) (op := fun old v => old ||| v) rfl hn rfl (.inr rfl) (.inl rfl),
      hr.ctl_time (csr := 0x010) (writes := false) (op := fun old v => old &&& ~~~v) rfl hn rfl (.inr rfl) (.inl rfl)⟩
  case timeWrites =>
    intro s k rd rs1 csr old hr hp hn hcsr ho
    have htime : csr.toNat = 0x010 ∨ csr.toNat = 0x011 := by
      obtain h | h := hcsr
      · exact .inl (by rw [h]; rfl)
      · exact .inr (by rw [h]; rfl)
    have hwrites {i : Instr} {writes : Bool} {op : Word → Word → Word} (hw : writes = true)
        (hx : exec i s = .next (s.onCore k.d (·.ctl k.e k.f rd rs1 csr writes op))) :
        Answers i s fun t => t.core k.d k.e = ((s.core k.d k.e).wr rd old).next.retiring ∧
          (t.dom k.d).mem = (s.dom k.d).mem := by
      have h := hr.ctl_time hx hn ho (.inl hp) htime
      rwa [if_neg (by rw [hw]; exact fun h => Bool.false_ne_true h.2.symm)] at h
    by_cases h0 : rs1 = 0
    · simp only [if_pos h0, List.forall_mem_cons, List.not_mem_nil, false_imp_iff, implies_true, and_true]
      exact hwrites rfl rfl
    · have h0' : (rs1 != 0) = true := bne_iff_ne.2 h0
      simp only [if_neg h0, List.forall_mem_cons, List.not_mem_nil, false_imp_iff, implies_true, and_true]
      exact ⟨hwrites rfl rfl, hwrites h0' rfl, hwrites h0' rfl⟩
  case user =>
    intro s k rd rs1 csr hr hm hp htime htimeh
    simp only [List.forall_mem_cons, List.not_mem_nil, false_imp_iff, implies_true, and_true]
    have htraps {i : Instr} {writes : Bool} {op : Word → Word → Word}
        (hx : exec i s = .next (s.onCore k.d (·.ctl k.e k.f rd rs1 csr writes op))) :
        Traps i s k (if ((s.dom k.d).csr k.e csr.toNat).isSome then 3 else 2) ((s.dom k.d).codeWord (s.core k.d k.e).pc) :=
      Traps.ctl hx hr hm hp htime htimeh
    exact ⟨htraps rfl, htraps rfl, htraps rfl⟩

end Sys2Proof.Machine
end

section
/-! PROOF. Loads and stores that issue, and accesses that trap (R126, R127, R132, R133, R397). -/

namespace Sys2Proof.Machine

/-! ## Attributes and counts -/

theorem areaOf_normal_of_ge {host : Bool} {a : Nat} (h : 0x30000000 ≤ a) : (areaOf host a).normal = false := by
  have hcode : ¬ a < (if host then 0x180000 else 0x300000) := by split <;> omega
  have hrom : (host && decide (0x08000000 ≤ a) && decide (a < 0x08010000)) = false := by
    simp only [Bool.and_eq_false_iff, decide_eq_false_iff_not]
    omega
  have hsram : ¬ (0x10000000 ≤ a ∧ a < (if host then 0x10400000 else 0x10200000)) := by split <;> omega
  have hnvm : ¬ (0x20000000 ≤ a ∧ a < (if host then 0x20500000 else 0x20200000)) := by split <;> omega
  unfold areaOf
  rw [if_neg hcode, hrom, if_neg Bool.false_ne_true, if_neg hsram, if_neg hnvm]
  split_ifs <;> rfl

/-- Outside the memories every attribute is a device's (R141). -/
theorem Core.attrOf_device (x : Core) (a : Word) : (x.attrOf false a).device = true := by
  unfold Core.attrOf
  extract_lets dflt
  split
  · split
    · split <;> rfl
    · rfl
  · rfl

/-- An access of Normal memory is none of the ring. -/
theorem Domain.inRing_of_not_device {d : Domain} {x : Core} {a : Word} (h : (x.attrOf (d.area a).normal a).device = false) :
    inRing a = false := by
  by_contra hring
  have hge : 0x30000000 ≤ a.toNat := by
    simp only [inRing, Bool.not_eq_false, Bool.and_eq_true, decide_eq_true_eq] at hring
    omega
  rw [show (d.area a).normal = false from areaOf_normal_of_ge hge, Core.attrOf_device] at h
  exact absurd h (by decide)

theorem Counted.countAccess (d : Domain) (e : Eng) {j : Nat} (hj : j < 16) (a : Word) (attr : Attr) :
    Counted d (d.countAccess e j a attr) := by
  have hitem (d : Domain) (p : Prop) [Decidable p] (j : Nat) (o : Occ) (hj : j < 16) :
      Counted d (if p then d.coreItem e j o else d) := by
    split
    · exact .coreItem d e j o hj
    · exact .refl d
  unfold Domain.countAccess
  extract_lets o d1 d2 d3
  have h1 : Counted d d1 := .coreItem d e j o hj
  have h2 : Counted d1 d2 := hitem d1 _ 3 o (by decide)
  have h3 : Counted d2 d3 := hitem d2 _ 4 o (by decide)
  refine ((h1.trans h2).trans h3).trans ?_
  split
  · exact .bump _ _ _ (by decide)
  · split
    · exact .bump _ _ _ (by split <;> decide)
    · exact .refl d3

/-! ## Loads -/

section
variable {i : Instr} {s : State} {k : At} {rd rs1 : GReg} {imm : BitVec 16} {size : Nat} {signed : Bool}
  (hx : exec i s = .next (s.onCore k.d (·.load k.e k.f rd rs1 imm size signed))) (hr : Ready s k [rd, rs1])
include hx hr

/-- A load that issues joins the outstanding ones; from Normal memory it retires, otherwise its core waits. -/
theorem Ready.load {x : Core} {d : Domain} {a : Word} {attr : Attr} (hcore : s.core k.d k.e = x) (hdom : s.dom k.d = d)
    (ha : x.rd rs1 + imm.signExtend 32 = a) (hattr : x.attrOf (d.area a).normal a = attr)
    (halign : a.toNat % size = 0) (hperm : x.permits 0 a = true) (hmap : d.area a ≠ .unmapped)
    (hroom : x.loads.length < 4) (hout : d.outside a = false ∨ d.replays k.e = false) :
    let y : Core := { x with seq := x.seq + 1, loads := x.loads ++ [⟨x.seq, x.pc, rd, a, size, signed, attr⟩] }
    (attr.device = false → Retires i s k y.next) ∧
      (attr.device = true →
        LeavesCore i s k { y with wait := if inRing a then .ring x.seq else .load x.seq, since := d.time }) := by
  have hout : (d.outside a && d.replays k.e) = false := by
    obtain h | h := hout <;> simp [h]
  have hcore : d.core k.e = x := by rw [← hdom]; exact hcore
  have hcount := Counted.countAccess d k.e (show 1 < 16 by decide) a attr
  generalize hd1 : d.countAccess k.e 1 a attr = d1 at hcount
  generalize hd2 : (d1.mapCore k.e fun z => { z with
    seq := z.seq + 1, loads := z.loads ++ [⟨z.seq, z.pc, rd, a, size, signed, attr⟩] }) = d2
  have hstep : CoreStep d d2 k.e := hd2 ▸ (CoreStep.of_counted k.e hcount).trans (.mapCore _ _ _)
  have hy : d2.core k.e = { x with seq := x.seq + 1, loads := x.loads ++ [⟨x.seq, x.pc, rd, a, size, signed, attr⟩] } := by
    rw [← hd2, Domain.core_mapCore, hcount.core, hcore]
  have hroom : ¬ 4 ≤ x.loads.length := Nat.not_le.2 hroom
  refine ⟨fun hn => ?_, fun hdev => ?_⟩
  · have hring : inRing a = false := Domain.inRing_of_not_device (d := d) (x := x) (by rw [hattr]; exact hn)
    refine .of (sys := false) (d' := (d2.mapCore k.e Core.next).watched false a) hx hr nofun ?_ ?_ ?_
    · simp only [hdom, hcore, ha, hattr, halign, hperm, hmap, hout, hroom, hd1, hd2, hring, hn]
      simp
    · rw [Domain.core_watched, Domain.core_mapCore, hy]
    · rw [hdom]
      exact (hstep.trans (.mapCore _ _ _)).trans (.watched _ _ _ _)
  · refine .of (sys := false) (d' := d2.await k.e (if inRing a then .ring x.seq else .load x.seq)) hx hr nofun ?_ ?_ ?_
    · simp only [hdom, hcore, ha, hattr, halign, hperm, hmap, hout, hroom, hd1, hd2, hdev]
      cases inRing a <;> simp
    · rw [Domain.core_await, hy, hstep.time]
    · rw [hdom]
      exact hstep.trans (.await _ _ _)

omit hr in
/-- A load that its operands keep from issuing. -/
theorem Traps.load (hr : Ready s k [rd, rs1]) (hm : MaskOpen s k) {x : Core} {d : Domain} {a : Word}
    (hcore : s.core k.d k.e = x) (hdom : s.dom k.d = d) (ha : x.rd rs1 + imm.signExtend 32 = a) :
    (a.toNat % size ≠ 0 → Traps i s k 0x04 a) ∧
      (a.toNat % size = 0 → x.permits 0 a = false → Traps i s k 0x09 a) ∧
      (a.toNat % size = 0 → x.permits 0 a = true → d.area a = .unmapped → Traps i s k 0x05 a) := by
  have hcore : d.core k.e = x := by rw [← hdom]; exact hcore
  have htraps (code : Nat) := Traps.of (code := code) (v := a) (sys := false) hx hr hm nofun
  refine ⟨fun halign => htraps 4 ?_, fun halign hp => htraps 9 ?_, fun halign hp hmap => htraps 5 ?_⟩
  · simp [hdom, hcore, ha, halign]
  · simp [hdom, hcore, ha, halign, hp]
  · simp [hdom, hcore, ha, halign, hp, hmap]

end

/-! ## Stores -/

/-- A store joins the store buffer, or for a device the posted-write queue. -/
def Core.enqueue (x : Core) (q : StoreReq) : Core :=
  if q.attr.device then { x with seq := x.seq + 1, posted := x.posted ++ [q] }
  else { x with seq := x.seq + 1, stores := x.stores ++ [q] }

section
variable {i : Instr} {s : State} {k : At} {rs2 rs1 : GReg} {imm : BitVec 16} {size : Nat}
  (hx : exec i s = .next (s.onCore k.d (·.store k.e k.f s.dev.inhibit rs2 rs1 imm size)))
include hx

/-- A store that issues joins its queue; one that leaves the memories also joins the replay log. -/
theorem Ready.store (hr : Ready s k [rs1, rs2]) {x : Core} {d : Domain} {a : Word} {attr : Attr}
    (hcore : s.core k.d k.e = x) (hdom : s.dom k.d = d)
    (ha : x.rd rs1 + imm.signExtend 32 = a) (hattr : x.attrOf (d.area a).normal a = attr)
    (halign : a.toNat % size = 0) (hperm : x.permits 1 a = true) (hfails : d.storeFails s.dev.inhibit a = false)
    (hstores : x.stores.length < 8) (hposted : x.posted.length < 8) (hout : d.outside a = false ∨ d.replays k.e = false) :
    let y : Core := (x.enqueue ⟨x.seq, a, size, x.rd rs2, attr⟩).next
    (d.outside a = false → Retires i s k y) ∧
      (d.outside a = true → Answers i s fun t => t.core k.d k.e = y.retiring ∧ PairFrame s t k.d k.e) := by
  intro y
  have hagain : (d.outside a && d.replays k.e) = false := by
    obtain h | h := hout <;> simp [h]
  have hcore : d.core k.e = x := by rw [← hdom]; exact hcore
  have hroom : ¬ 8 ≤ (if attr.device then x.posted else x.stores).length := by split <;> omega
  have hcount := Counted.countAccess d k.e (show 2 < 16 by decide) a attr
  generalize hd1 : d.countAccess k.e 2 a attr = d1 at hcount
  have hsame : d1.outside a = d.outside a := by simp only [Domain.outside, Domain.area, Domain.host, hcount.id]
  have hn1 : d1.replays k.e = d.replays k.e := (Recorded.of_counted hcount).replays k.e
  generalize hd2 : (if d.outside a then d1.logRec k.e .effect a (x.rd rs2) else d1) = d2
  have hlog : Recorded d1 d2 := by
    rw [← hd2]
    split
    · rename_i ho
      exact .logRec (hn1.trans (hout.resolve_left (by rw [ho]; decide))) _ _ _
    · exact .refl d1
  generalize hd3 : ((d2.mapCore k.e fun z => (z.enqueue ⟨x.seq, a, size, x.rd rs2, attr⟩).next).watched true a) = d3
  have hy : d3.core k.e = y := by
    rw [← hd3, Domain.core_watched, Domain.core_mapCore, hlog.core, hcount.core, hcore]
  have hstep : CoreStep d2 d3 k.e := hd3 ▸ (CoreStep.mapCore _ _ _).trans (.watched _ _ _ _)
  have hins : (s.dom k.d).store k.e k.f s.dev.inhibit rs2 rs1 imm size = d3.retireAt k.e x.pc false := by
    unfold Domain.store
    rw [Domain.insn_ready _ _ _ false _ _ hr.runs hr.wait hr.brk hr.entry hr.fetch nofun hr.uses]
    simp only [hdom, hcore, ha, hattr, halign, hperm, hfails, hroom, hd1, hsame, hn1, hagain, hd2, ne_eq, not_true,
      Bool.not_true, Bool.false_eq_true, if_false]
    rw [← hd3]
    refine congrArg (fun f => ((d2.mapCore k.e f).watched true a).retireAt k.e x.pc false) (funext fun z => ?_)
    unfold Core.enqueue
    split <;> rfl
  refine ⟨fun ho => ?_, fun ho => ?_⟩
  · have hd2' : d2 = d1 := by rw [← hd2, ho]; rfl
    have hall := ((CoreStep.of_counted k.e hcount).trans (hd2' ▸ hstep)).trans (.retireAt d3 k.e x.pc false)
    obtain ⟨h1, h2⟩ := s.onCore_frame k.d k.e (·.store k.e k.f s.dev.inhibit rs2 rs1 imm size) hr.up
      (by rw [hins, hdom]; exact hall)
    exact ⟨_, hx, by rw [h1, hins, Domain.core_retireAt, hy], h2⟩
  · have hall := ((PairStep.of_recorded k.e (Recorded.of_counted hcount)).trans (.of_recorded k.e hlog)).trans
      (.of_core (hstep.trans (.retireAt d3 k.e x.pc false)))
    refine ⟨_, hx, ?_, s.onCore_pair k.d k.e _ hr.up (by rw [hins, hdom]; exact hall)⟩
    rw [State.core, (s.onCore_dom k.d _ hr.up).1, hins, Domain.core_retireAt, hy]

theorem Traps.store (hr : Ready s k [rs1, rs2]) (hm : MaskOpen s k) {x : Core} {d : Domain} {a : Word}
    (hcore : s.core k.d k.e = x) (hdom : s.dom k.d = d) (ha : x.rd rs1 + imm.signExtend 32 = a) :
    (a.toNat % size ≠ 0 → Traps i s k 0x04 a) ∧
      (a.toNat % size = 0 → x.permits 1 a = false → Traps i s k 0x0A a) ∧
      (a.toNat % size = 0 → x.permits 1 a = true → d.storeFails s.dev.inhibit a = true → Traps i s k 0x06 a) := by
  have hcore : d.core k.e = x := by rw [← hdom]; exact hcore
  have htraps (code : Nat) := Traps.of (code := code) (v := a) (sys := false) hx hr hm nofun
  refine ⟨fun halign => htraps 4 ?_, fun halign hp => htraps 10 ?_, fun halign hp hmap => htraps 6 ?_⟩
  · simp [hdom, hcore, ha, halign]
  · simp [hdom, hcore, ha, halign, hp]
  · simp [hdom, hcore, ha, halign, hp, hmap]

end

/-! ## Atomic instructions that trap -/

theorem Core.awaits_congr (x : Core) {u v : List GReg} (h : ∀ r, r ∈ u ↔ r ∈ v) : x.awaits u = x.awaits v := by
  unfold Core.awaits
  have hc (r : GReg) : u.contains r = v.contains r := by
    rw [Bool.eq_iff_iff, List.contains_iff_mem, List.contains_iff_mem, h]
  simp only [hc]

/-- The order of the registers used does not matter, nor how often each is named. -/
theorem Ready.congr {s : State} {k : At} {u v : List GReg} (hr : Ready s k u) (h : ∀ r, r ∈ u ↔ r ∈ v) : Ready s k v :=
  { hr with uses := (Core.awaits_congr _ h).symm.trans hr.uses }

section
variable {s : State} {k : At} {rd rs1 : GReg} {uses : List GReg} {ord : AtomOrder} {reads writes : Bool}
  {op : Core → Word → Option Word × Word}

/-- What an atomic instruction does once it is fetched and its operands are there: the checks in their order. -/
theorem Ready.atomic_exc (hr : Ready s k ([rd, rs1] ++ uses)) {x : Core} {d : Domain} {b : Word}
    (hcore : s.core k.d k.e = x) (hdom : s.dom k.d = d) (hb : x.rd rs1 = b) :
    (b.toNat % 4 ≠ 0 → d.atomic k.e k.f rd rs1 uses ord reads writes op = d.exception k.e 4 b) ∧
    (b.toNat % 4 = 0 → reads = true → x.permits 0 b = false →
      d.atomic k.e k.f rd rs1 uses ord reads writes op = d.exception k.e 9 b) ∧
    (b.toNat % 4 = 0 → (reads = true → x.permits 0 b = true) → writes = true → x.permits 1 b = false →
      d.atomic k.e k.f rd rs1 uses ord reads writes op = d.exception k.e 10 b) ∧
    (b.toNat % 4 = 0 → (reads = true → x.permits 0 b = true) → (writes = true → x.permits 1 b = true) → d.area b ≠ .sram →
      d.atomic k.e k.f rd rs1 uses ord reads writes op = d.exception k.e (if reads then 5 else 6) b) := by
  subst hdom
  have hcore : (s.dom k.d).core k.e = x := hcore
  have hread (h : reads = true → x.permits 0 b = true) : (reads && !x.permits 0 b) = false := by
    cases reads
    · rfl
    · rw [h rfl]; rfl
  have hwrite (h : writes = true → x.permits 1 b = true) : (writes && !x.permits 1 b) = false := by
    cases writes
    · rfl
    · rw [h rfl]; rfl
  unfold Domain.atomic
  rw [Domain.insn_ready _ _ _ false _ _ hr.runs hr.wait hr.brk hr.entry hr.fetch nofun hr.uses]
  refine ⟨fun ha => ?_, fun ha hr0 hp => ?_, fun ha h0 hw hp => ?_, fun ha h0 h1 har => ?_⟩
  · simp [hcore, hb, ha]
  · simp [hcore, hb, ha, hr0, hp]
  · simp [hcore, hb, ha, hread h0, hw, hp]
  · simp [hcore, hb, ha, hread h0, hwrite h1, har]

/-- An atomic instruction that its operand keeps from being performed, and an operation that does what it does. -/
theorem Traps.atomic {i : Instr} {f : Domain → Domain} (hx : exec i s = .next (s.onCore k.d f))
    (hr : Ready s k ([rd, rs1] ++ uses)) (hm : MaskOpen s k)
    (hf : ∀ code, (s.dom k.d).atomic k.e k.f rd rs1 uses ord reads writes op =
      (s.dom k.d).exception k.e code ((s.core k.d k.e).rd rs1) →
        f (s.dom k.d) = (s.dom k.d).exception k.e code ((s.core k.d k.e).rd rs1)) :
    let x := s.core k.d k.e
    let b := x.rd rs1
    (b.toNat % 4 ≠ 0 → Traps i s k 0x04 b) ∧
    (b.toNat % 4 = 0 → reads = true → x.permits 0 b = false → Traps i s k 0x09 b) ∧
    (b.toNat % 4 = 0 → (reads = true → x.permits 0 b = true) → writes = true → x.permits 1 b = false →
      Traps i s k 0x0A b) ∧
    (b.toNat % 4 = 0 → (reads = true → x.permits 0 b = true) → (writes = true → x.permits 1 b = true) →
      (s.dom k.d).area b ≠ .sram → Traps i s k (if reads then 0x05 else 0x06) b) := by
  intro x b
  obtain ⟨h4, h9, h10, h56⟩ := hr.atomic_exc (ord := ord) (reads := reads) (writes := writes) (op := op) (x := x) rfl rfl rfl
  have ht {code : Nat} (h : (s.dom k.d).atomic k.e k.f rd rs1 uses ord reads writes op =
      (s.dom k.d).exception k.e code b) : Traps i s k (BitVec.ofNat 32 code) b :=
    .of_exception hx hr.up hr.wait hm (hf code h)
  refine ⟨fun ha => ht (h4 ha), fun ha hr0 hp => ht (h9 ha hr0 hp), fun ha h0 hw hp => ht (h10 ha h0 hw hp),
    fun ha h0 h1 har => ?_⟩
  have := ht (h56 ha h0 h1 har)
  rwa [apply_ite (BitVec.ofNat 32)] at this

end

/-- What ST.RSV goes by: whether the reservation is of its word, in a replay what the log holds (R127, R398). -/
def Domain.rsvHolds (d : Domain) (e : Eng) (rs1 : GReg) : Word :=
  d.input e .value (BitVec.ofNat 32 ((d.core e).rd rs1).toNat)
    (ofB (match (d.core e).rsv with | some (w, _) => w == ((d.core e).rd rs1).toNat | none => false))

/-- The word that ST.RSV stores, if any, and its result. -/
def rsvStore (ok : Word) (rs2 : GReg) (x : Core) (_ : Word) : Option Word × Word :=
  (if ok = 1 then some (x.rd rs2) else none, ok)

theorem Domain.stRsv_eq (d : Domain) (e : Eng) (f : Fetch) (rd rs1 rs2 : GReg) (ord : AtomOrder) :
    d.stRsv e f rd rs1 rs2 ord =
      let y := d.atomic e f rd rs1 [rs2] ord false true (rsvStore (d.rsvHolds e rs1) rs2)
      if (y.core e).retired = (d.core e).retired + 1 then
        (y.logRec e .value (BitVec.ofNat 32 ((d.core e).rd rs1).toNat) (d.rsvHolds e rs1)).mapCore e fun x =>
          { x with rsv := none }
      else y := rfl

/-- An exception on the maskable path retires nothing. -/
theorem Domain.retired_exception {d : Domain} {e : Eng} (code : Nat) (v : Word) (hn : (d.core e).nexl = false)
    (hx : (d.core e).exl = false) (ht : d.tripPending e = false ∨ d.replays e = true) :
    ((d.exception e code v).core e).retired ≠ (d.core e).retired + 1 := by
  rw [(exception_mask code v hn hx ht).2]
  exact (Nat.succ_ne_self _).symm

/-- Settles O8: an access issues or traps as the checks on its address decide. -/
theorem accessesIssueOrTrap : Obligations.AccessesIssueOrTrap := by
  unfold Obligations.AccessesIssueOrTrap
  refine ⟨?loads, ?stores, ?traps⟩
  case loads =>
    intro s k rd rs1 imm hr x d a attr hperm hmap hroom hout
    simp only [List.forall_mem_cons, List.not_mem_nil, false_imp_iff, implies_true, and_true]
    have h {i : Instr} {size : Nat} {signed : Bool}
        (hx : exec i s = .next (s.onCore k.d (·.load k.e k.f rd rs1 imm size signed))) (ha : a.toNat % size = 0) :=
      Ready.load hx hr rfl rfl rfl rfl ha hperm hmap hroom hout
    exact ⟨h rfl, h rfl, h rfl, h rfl, h rfl⟩
  case stores =>
    intro s k rs2 rs1 imm hr x d a attr hperm hfails hstores hposted hout
    simp only [List.forall_mem_cons, List.not_mem_nil, false_imp_iff, implies_true, and_true]
    have h {i : Instr} {size : Nat} (hx : exec i s = .next (s.onCore k.d (·.store k.e k.f s.dev.inhibit rs2 rs1 imm size)))
        (ha : a.toNat % size = 0) := Ready.store hx hr rfl rfl rfl rfl ha hperm hfails hstores hposted hout
    exact ⟨h rfl, h rfl, h rfl⟩
  case traps =>
    intro s k r rs1 imm ord hr hm x d a traps
    refine ⟨?_, ?_, ?_, ?_⟩
    · simp only [List.forall_mem_cons, List.not_mem_nil, false_imp_iff, implies_true, and_true]
      have h {i : Instr} {size : Nat} {signed : Bool}
        (hx : exec i s = .next (s.onCore k.d (·.load k.e k.f r rs1 imm size signed))) :=
        Traps.load hx hr hm rfl rfl (a := a) rfl
      exact ⟨h rfl, h rfl, h rfl, h rfl, h rfl⟩
    · have hr' : Ready s k [rs1, r] := hr.congr (by simp [or_comm])
      simp only [List.forall_mem_cons, List.not_mem_nil, false_imp_iff, implies_true, and_true]
      have h {i : Instr} {size : Nat} (hx : exec i s = .next (s.onCore k.d (·.store k.e k.f s.dev.inhibit r rs1 imm size))) :=
        Traps.store hx hr' hm rfl rfl (a := a) rfl
      exact ⟨h rfl, h rfl, h rfl⟩
    · obtain ⟨hexl, hnexl, htrip⟩ := id hm
      have hrsv : Ready s k ([r, rs1] ++ []) := hr
      have hatm : Ready s k ([r, rs1] ++ [r]) := hr.congr (by simp [or_comm])
      have hsame (code : Nat) := Domain.retired_exception code ((s.core k.d k.e).rd rs1) hnexl hexl htrip
      have hop {i : Instr} {o : Word → Word → Word} (hx : exec i s = .next (s.onCore k.d (·.atm k.e k.f r rs1 r ord o))) :=
        Traps.atomic (reads := true) (writes := true) (op := fun x old => (some (o old (x.rd r)), old)) hx hatm hm
          fun code h => h
      repeat rw [List.forall_mem_cons]
      refine ⟨Traps.atomic (ord := ord) (reads := true) (writes := false) (op := fun _ old => (none, old)) rfl hrsv hm
          fun code h => ?_,
        Traps.atomic (ord := ord) (reads := false) (writes := true) (op := rsvStore ((s.dom k.d).rsvHolds k.e rs1) r) rfl
          hatm hm fun code h => ?_,
        hop rfl, hop rfl, hop rfl, hop rfl, hop rfl, hop rfl, List.forall_mem_nil _⟩
      · unfold Domain.ldRsv
        simp only [h]
        exact if_neg (hsame code)
      · rw [Domain.stRsv_eq]
        simp only [h]
        exact if_neg (hsame code)
    · intro ha
      exact Traps.of (sys := false) (code := 4) rfl hr hm nofun (if_pos ((fget_low_two_eq_zero _).not.2 ha))

end Sys2Proof.Machine
end

section
/-! PROOF. Atomic instructions that are performed, and the reservation of LD.RSV and ST.RSV (R126, R127). -/

namespace Sys2Proof.Machine

/-! ## What a replay goes by, over the parts of an atomic instruction -/

theorem EccNoted.replays {a b : Domain} (h : EccNoted a b) (e : Eng) : b.replays e = a.replays e :=
  Domain.replays_congr (fun f hq hf => h.rg f hq (Nat.ne_of_lt (hf.trans (by decide))) (Nat.ne_of_lt (hf.trans (by decide))))
    h.time h.lsc e

theorem Domain.replays_dropRsv (d : Domain) (y : Option Eng) (a : Nat) (e : Eng) : (d.dropRsv y a).replays e = d.replays e :=
  rfl

theorem Domain.replays_writeMem (d : Domain) (e : Eng) (a n : Nat) (v : Word) (y : Eng) :
    (d.writeMem e a n v).replays y = d.replays y := by
  unfold Domain.writeMem
  extract_lets w old d'
  rw [replays_dropRsv, (Recorded.logStore d' e w old).replays]
  rfl

/-! ## Atomic instructions that are performed -/

/-- The memory that an atomic instruction leaves: the word to store, if any, in its place. -/
def storedWord (m : List Host.Cell) (a : Nat) : Option Word → List Host.Cell
  | some v => memPutWord m a v
  | none => m

/-- The domain once an atomic instruction has been performed on the word at `a`: the read's errors noted, the access counted,
the word stored, the result in rd, the watchpoints told. -/
def Domain.performed (d : Domain) (e : Eng) (rd : GReg) (reads : Bool) (ecc : Ecc) (attr : Attr) (a : Word)
    (r : Option Word × Word) : Domain :=
  let d := if reads then d.noteEcc ecc a.toNat else d
  let d := d.countAccess e (if reads then 1 else 2) a attr
  let d := match r.1 with | some v => d.writeMem e a.toNat 4 v | none => d
  let d := d.mapCore e (fun x => (x.wr rd r.2).next)
  let d := if reads then d.watched false a else d
  if r.1.isSome then d.watched true a else d

/-- It leaves the result in rd and the word in memory, and a replay goes by what it went by. -/
theorem Domain.performed_eq (d : Domain) (e : Eng) (rd : GReg) (reads : Bool) (ecc : Ecc) (attr : Attr) {a : Word}
    (r : Option Word × Word) (ha : d.area a = .sram) :
    (d.performed e rd reads ecc attr a r).core e = ((d.core e).wr rd r.2).next ∧
      (d.performed e rd reads ecc attr a r).mem = storedWord d.mem a.toNat r.1 ∧
      (d.performed e rd reads ecc attr a r).replays e = d.replays e := by
  unfold Domain.performed
  extract_lets d1 d2 d3 d4 d5
  have h1 : EccNoted d d1 := .ite (.noteEcc _ _ _) (.refl d)
  have h2 : EccNoted d d2 := h1.trans (.of_counted (.countAccess d1 e (by split <;> decide) a attr))
  have h3 : d3.core e = d.core e ∧ d3.mem = storedWord d.mem a.toNat r.1 ∧ d3.replays e = d.replays e := by
    obtain ⟨o, v⟩ := r
    cases o with
    | none => exact ⟨h2.core e, h2.mem, h2.replays e⟩
    | some w =>
      obtain ⟨hmem, -, hcore⟩ := d2.writeMem_eq e a.toNat 4 w
      refine ⟨hcore.trans (h2.core e), hmem.trans ?_, (d2.replays_writeMem e _ _ _ e).trans (h2.replays e)⟩
      rw [h2.mem, h2.memKey, Domain.memKey_sram ha]
      rfl
  have hwatched (p : Bool) (store : Bool) (y : Domain) : CoreStep y (if p then y.watched store a else y) e ∧
      (if p then y.watched store a else y).core e = y.core e := by
    cases p
    · exact ⟨.refl y e, rfl⟩
    · exact ⟨.watched y store a e, Domain.core_watched y store a e⟩
  obtain ⟨hcore, hmem, hrep⟩ := h3
  have h4 : CoreStep d3 d4 e := .mapCore d3 e _
  have h5 : CoreStep d4 d5 e ∧ d5.core e = d4.core e := hwatched reads false d4
  obtain ⟨h6, hc6⟩ := hwatched r.1.isSome true d5
  have hall := (h4.trans h5.1).trans h6
  refine ⟨?_, hall.mem.trans hmem, (hall.replays e).trans hrep⟩
  rw [hc6, h5.2]
  exact (Domain.core_mapCore d3 e _).trans (by rw [hcore])

section
variable {s : State} {k : At} {rd rs1 : GReg} {uses : List GReg} {ord : AtomOrder} {reads writes : Bool}
  {op : Core → Word → Option Word × Word}

/-- A permitted atomic instruction on a word of SRAM with no earlier access in its way retires with its result in rd. -/
theorem Ready.atomic_performed (hr : Ready s k ([rd, rs1] ++ uses)) {x : Core} {d : Domain} {a : Word} {r : Option Word × Word}
    (hcore : s.core k.d k.e = x) (hdom : s.dom k.d = d) (ha : x.rd rs1 = a) (hop : op x (memWord d.mem a.toNat) = r)
    (halign : a.toNat % 4 = 0) (hread : x.permits 0 a = true) (hwrite : x.permits 1 a = true) (hsram : d.area a = .sram)
    (hwaits : x.atomWaits ord a (x.attrOf true a) = false) (hecc : ord.ecc ≠ .uncorrectable) :
    d.atomic k.e k.f rd rs1 uses ord reads writes op =
      (d.performed k.e rd reads ord.ecc (x.attrOf true a) a r).retireAt k.e x.pc false := by
  subst hdom
  have hcore : (s.dom k.d).core k.e = x := hcore
  have hmem : (if reads = true then (s.dom k.d).noteEcc ord.ecc a.toNat else s.dom k.d).mem = (s.dom k.d).mem :=
    (EccNoted.ite (p := reads = true) (.noteEcc (s.dom k.d) ord.ecc a.toNat) (.refl _)).mem
  unfold Domain.atomic
  rw [Domain.insn_ready _ _ _ false _ _ hr.runs hr.wait hr.brk hr.entry hr.fetch nofun hr.uses]
  simp only [hcore, ha, halign, hread, hwrite, hsram, show Area.sram.normal = true from rfl, hwaits,
    decide_eq_false hecc, hmem, hop, ne_eq, not_true, Bool.not_true, Bool.and_false, Bool.false_eq_true, if_false]
  rfl

end

/-- Only the bytes of the word stored change. -/
theorem memByte_storedWord (m : List Host.Cell) (a : Nat) (o : Option Word) {j : Nat} (h : j < a ∨ a + 4 ≤ j) :
    memByte (storedWord m a o) j = memByte m j := by
  cases o with
  | none => rfl
  | some v => exact memByte_memPutWord_other m a v j h

/-- The core of a domain whose instruction has retired, with a reservation of its own. -/
theorem Domain.core_setRsv (d : Domain) (e : Eng) (r : Option (Nat × Nat)) :
    (d.mapCore e fun x => { x with rsv := r }).core e = { d.core e with rsv := r } := core_mapCore d e _

theorem Ready.mono {s : State} {k : At} {u v : List GReg} (hr : Ready s k u) (h : ∀ r ∈ v, r ∈ u) : Ready s k v := by
  refine { hr with uses := ?_ }
  have hu := hr.uses
  unfold Core.awaits at hu ⊢
  rw [Option.map_eq_none_iff, List.find?_eq_none] at hu ⊢
  intro l hl hv
  rw [Bool.and_eq_true, List.contains_iff_mem] at hv
  exact hu l hl (by rw [Bool.and_eq_true, List.contains_iff_mem]; exact ⟨hv.1, h _ hv.2⟩)

section
variable {s : State} {k : At} {rd rs1 : GReg} {ord : AtomOrder} {x : Core} {a : Word}

/-- LD.RSV on a word of SRAM: it retires, and the word is reserved. -/
theorem Ready.ldRsv_answers (hr : Ready s k ([rd, rs1] ++ [])) (hcore : s.core k.d k.e = x) (ha : x.rd rs1 = a)
    (halign : a.toNat % 4 = 0) (hread : x.permits 0 a = true) (hwrite : x.permits 1 a = true)
    (hsram : (s.dom k.d).area a = .sram) (hwaits : x.atomWaits ord a (x.attrOf true a) = false)
    (hecc : ord.ecc ≠ .uncorrectable) : Answers (.ldRsv k rd rs1 ord) s fun t =>
      t.core k.d k.e = { (x.wr rd (memWord (s.dom k.d).mem a.toNat)).next.retiring with rsv := some (a.toNat, 32) } ∧
        (t.dom k.d).mem = (s.dom k.d).mem := by
  have hatomic := hr.atomic_performed (reads := true) (writes := false) (op := fun _ old => (none, old)) hcore rfl ha rfl
    halign hread hwrite hsram hwaits hecc
  obtain ⟨hc, hm, -⟩ := (s.dom k.d).performed_eq k.e rd true ord.ecc (x.attrOf true a)
    (none, memWord (s.dom k.d).mem a.toNat) hsram
  have hx : (s.dom k.d).core k.e = x := hcore
  rw [hx] at hc
  generalize (s.dom k.d).performed k.e rd true ord.ecc (x.attrOf true a) a (none, memWord (s.dom k.d).mem a.toNat) = y at *
  have hf : (s.dom k.d).ldRsv k.e k.f rd rs1 ord =
      (y.retireAt k.e x.pc false).mapCore k.e fun x => { x with rsv := some (a.toNat, 32) } := by
    have hret : ((y.retireAt k.e x.pc false).core k.e).retired = x.retired + 1 := by
      rw [Domain.core_retireAt, hc]
      unfold Core.wr
      split <;> rfl
    unfold Domain.ldRsv
    simp only [hatomic, hx, hret, if_true, ha]
  have hd := (s.onCore_dom k.d (·.ldRsv k.e k.f rd rs1 ord) hr.up).1
  rw [hf] at hd
  refine ⟨_, rfl, ?_, ?_⟩
  · rw [State.core, hd, Domain.core_setRsv, Domain.core_retireAt, hc]
  · rw [hd, (CoreStep.mapCore _ _ _).mem, (CoreStep.retireAt _ _ _ _).mem, hm]
    rfl

/-- ST.RSV on a word of SRAM outside a replay: it stores if the word is reserved, and ends any reservation. -/
theorem Ready.stRsv_answers {rs2 : GReg} (hr : Ready s k ([rd, rs1] ++ [rs2])) (hcore : s.core k.d k.e = x)
    (ha : x.rd rs1 = a) (halign : a.toNat % 4 = 0) (hread : x.permits 0 a = true) (hwrite : x.permits 1 a = true)
    (hsram : (s.dom k.d).area a = .sram) (hwaits : x.atomWaits ord a (x.attrOf true a) = false)
    (hecc : ord.ecc ≠ .uncorrectable) (hn : (s.dom k.d).replays k.e = false) {ok : Word}
    (hok : (s.dom k.d).rsvHolds k.e rs1 = ok) : Answers (.stRsv k rd rs1 rs2 ord) s fun t =>
      t.core k.d k.e = { (x.wr rd ok).next.retiring with rsv := none } ∧
        (t.dom k.d).mem = storedWord (s.dom k.d).mem a.toNat (if ok = 1 then some (x.rd rs2) else none) := by
  have hatomic := hr.atomic_performed (reads := false) (writes := true) (op := rsvStore ok rs2) hcore rfl ha rfl
    halign hread hwrite hsram hwaits hecc
  obtain ⟨hc, hm, hrep⟩ := (s.dom k.d).performed_eq k.e rd false ord.ecc (x.attrOf true a)
    (rsvStore ok rs2 x (memWord (s.dom k.d).mem a.toNat)) hsram
  have hx : (s.dom k.d).core k.e = x := hcore
  rw [hx] at hc
  generalize (s.dom k.d).performed k.e rd false ord.ecc (x.attrOf true a) a
    (rsvStore ok rs2 x (memWord (s.dom k.d).mem a.toNat)) = y at *
  have hlog := Recorded.logRec (d := y.retireAt k.e x.pc false) (e := k.e)
    (((CoreStep.retireAt y k.e x.pc false).replays k.e).trans (hrep.trans hn)) .value (BitVec.ofNat 32 a.toNat) ok
  have hf : (s.dom k.d).stRsv k.e k.f rd rs1 rs2 ord = ((y.retireAt k.e x.pc false).logRec k.e .value
      (BitVec.ofNat 32 a.toNat) ok).mapCore k.e fun x => { x with rsv := none } := by
    have hret : ((y.retireAt k.e x.pc false).core k.e).retired = x.retired + 1 := by
      rw [Domain.core_retireAt, hc]
      unfold Core.wr
      split <;> rfl
    rw [Domain.stRsv_eq]
    simp only [hok, hatomic, hx, hret, if_true, ha]
  have hd := (s.onCore_dom k.d (·.stRsv k.e k.f rd rs1 rs2 ord) hr.up).1
  rw [hf] at hd
  refine ⟨_, rfl, ?_, ?_⟩
  · rw [State.core, hd, Domain.core_setRsv, hlog.core, Domain.core_retireAt, hc]
    rfl
  · rw [hd, (CoreStep.mapCore _ _ _).mem, hlog.mem, (CoreStep.retireAt _ _ _ _).mem, hm]
    rfl

/-- An ATM operation on a word of SRAM: rd takes the word, and the word becomes the operation of both. -/
theorem Ready.atm_answers {i : Instr} {rs2 : GReg} {op : Word → Word → Word}
    (hx : exec i s = .next (s.onCore k.d (·.atm k.e k.f rd rs1 rs2 ord op))) (hr : Ready s k ([rd, rs1] ++ [rs2]))
    (hcore : s.core k.d k.e = x) (ha : x.rd rs1 = a) (halign : a.toNat % 4 = 0) (hread : x.permits 0 a = true)
    (hwrite : x.permits 1 a = true) (hsram : (s.dom k.d).area a = .sram)
    (hwaits : x.atomWaits ord a (x.attrOf true a) = false) (hecc : ord.ecc ≠ .uncorrectable) {v : Word}
    (hv : op (memWord (s.dom k.d).mem a.toNat) (x.rd rs2) = v) : Answers i s fun t =>
      t.core k.d k.e = (x.wr rd (memWord (s.dom k.d).mem a.toNat)).next.retiring ∧
        memWord (t.dom k.d).mem a.toNat = v ∧
        ∀ j, (j < a.toNat ∨ a.toNat + 4 ≤ j) → memByte (t.dom k.d).mem j = memByte (s.dom k.d).mem j := by
  have hatomic := hr.atomic_performed (reads := true) (writes := true)
    (op := fun x old => (some (op old (x.rd rs2)), old)) hcore rfl ha rfl halign hread hwrite hsram hwaits hecc
  obtain ⟨hc, hm, -⟩ := (s.dom k.d).performed_eq k.e rd true ord.ecc (x.attrOf true a)
    (some (op (memWord (s.dom k.d).mem a.toNat) (x.rd rs2)), memWord (s.dom k.d).mem a.toNat) hsram
  have hd := (s.onCore_dom k.d (·.atm k.e k.f rd rs1 rs2 ord op) hr.up).1
  have hmem : ((s.onCore k.d (·.atm k.e k.f rd rs1 rs2 ord op)).dom k.d).mem =
      storedWord (s.dom k.d).mem a.toNat (some v) := by
    rw [hd]
    unfold Domain.atm
    rw [hatomic, (CoreStep.retireAt _ _ _ _).mem, hm, hv]
  refine ⟨_, hx, ?_, ?_, fun j hj => ?_⟩
  · rw [State.core, hd]
    unfold Domain.atm
    rw [hatomic, Domain.core_retireAt, hc, show (s.dom k.d).core k.e = x from hcore]
  · rw [hmem]
    exact memWord_memPutWord_same _ _ _
  · rw [hmem]
    exact memByte_storedWord _ _ _ hj

end

/-- Settles O9: an atomic instruction that is performed leaves the result in rd and the word in memory. -/
theorem atomicsAndReservations : Obligations.AtomicsAndReservations := by
  unfold Obligations.AtomicsAndReservations
  refine ⟨?atomics, ?reservations⟩
  case atomics =>
    intro s k rd rs1 rs2 ord hr x d a old b halign hread hwrite hsram hwaits hecc
    have h {i : Instr} {op : Word → Word → Word} {v : Word}
        (hx : exec i s = .next (s.onCore k.d (·.atm k.e k.f rd rs1 rs2 ord op))) (hv : op old b = v) :=
      Ready.atm_answers hx hr rfl rfl halign hread hwrite hsram hwaits hecc hv
    simp only [List.forall_mem_cons, List.not_mem_nil, false_imp_iff, implies_true, and_true]
    exact ⟨h rfl rfl, h rfl rfl, h rfl rfl, h rfl rfl, h rfl (maxS_eq_ite _ _), h rfl (minS_eq_ite _ _)⟩
  case reservations =>
    intro s k rd rs1 rs2 ord hr x d a old halign hread hwrite hsram hwaits hecc
    have hr' : Ready s k ([rd, rs1] ++ []) := hr.mono (by simp +contextual)
    refine ⟨Ready.ldRsv_answers hr' rfl rfl halign hread hwrite hsram hwaits hecc, fun n hn hrsv => ?_, fun hn hrsv => ?_⟩
    · have hok : d.rsvHolds k.e rs1 = 1 := by
        have hx : (d.core k.e).rsv = some (a.toNat, n) := hrsv
        rw [Domain.rsvHolds, Domain.input_of_not_replays hn, hx]
        exact congrArg ofB (beq_self_eq_true a.toNat)
      refine (Ready.stRsv_answers hr rfl rfl halign hread hwrite hsram hwaits hecc hn hok).imp fun t ⟨hc, hm⟩ => ⟨hc, ?_, ?_⟩
      · rw [hm]
        exact memWord_memPutWord_same _ _ _
      · rw [hm]
        exact fun j hj => memByte_storedWord _ _ _ hj
    · have hok : d.rsvHolds k.e rs1 = 0 := by
        rw [Domain.rsvHolds, Domain.input_of_not_replays hn]
        split
        · rename_i w n hx
          exact congrArg ofB (beq_eq_false_iff_ne.2 fun hw => hrsv n (hx.trans (by rw [hw]; rfl)))
        · rfl
      exact (Ready.stRsv_answers hr rfl rfl halign hread hwrite hsram hwaits hecc hn hok).imp fun t ⟨hc, hm⟩ => ⟨hc, hm⟩

end Sys2Proof.Machine
end

section
/-! PROOF. EV.WAIT, EV.FENCE, the delivery of events and EVT_CLAIM (R129, R145, R169, R173). -/

namespace Sys2Proof.Machine

/-! ## Pending flags -/

/-- The flag of an event in EVT_PEND or EVT_EN is one bit, and quiet. -/
theorem quiet_evBit {base ev : Nat} (hb : 0x10000 ≤ base ∧ base ≤ 0x10020) (hev : ev < 128) :
    (Fld.bit ⟨base + 4 * (ev / 32), 31, 0⟩ (ev % 32)).quiet := by
  simp only [Fld.quiet, Fld.bit]
  omega

theorem evBit_of_rg {a b : Domain} {f : Nat → Fld} {ev : Nat}
    (h : b.rg ((f (ev / 32)).bit (ev % 32)) = a.rg ((f (ev / 32)).bit (ev % 32))) : b.evBit f ev = a.evBit f ev := by
  unfold Domain.evBit Domain.rgB
  rw [h]

theorem Domain.core_clearPending (d : Domain) (ev : Nat) (e : Eng) : (d.clearPending ev).core e = d.core e := by
  cases e <;> rfl

theorem Domain.evBit_clearPending (d : Domain) (ev : Nat) : (d.clearPending ev).evBit EVT_PEND_PEND ev = false :=
  Domain.rgB_setB_same d _ false (by simp only [Fld.bit]; omega) (by simp [Fld.width, Fld.bit])

theorem Domain.rg_clearPending (d : Domain) {ev : Nat} {f : Fld} (hf : 0x10010 ≤ f.reg) (hev : ev < 128) :
    (d.clearPending ev).rg f = d.rg f :=
  Domain.rg_set_reg d _ f _ (by simp only [Fld.bit]; omega)

theorem Domain.replays_clearPending (d : Domain) {ev : Nat} (hev : ev < 128) (e : Eng) :
    (d.clearPending ev).replays e = d.replays e := by
  have hphase : (d.clearPending ev).phase = d.phase := by
    unfold Domain.phase Domain.rgN
    rw [d.rg_clearPending (by decide) hev]
  have hmain : (d.clearPending ev).main = d.main := by
    unfold Domain.main Domain.rgN
    rw [d.rg_clearPending (by decide) hev]
  unfold Domain.replays
  rw [Domain.expected_congr hphase hmain rfl rfl rfl]

/-- A flag once cleared stays so while the wait is logged and its instruction retires. -/
theorem evBit_cleared {d y z : Domain} {e : Eng} {ev : BitVec 7} (hy : Recorded (d.clearPending ev.toNat) y)
    (hz : CoreStep y z e) : z.evBit EVT_PEND_PEND ev.toNat = false := by
  have hq := quiet_evBit (base := 0x10000) (by decide) ev.isLt
  have hreg : (Fld.bit ⟨0x10000 + 4 * (ev.toNat / 32), 31, 0⟩ (ev.toNat % 32)).reg < 0x10010 := by
    have := ev.isLt
    simp only [Fld.bit]
    omega
  rw [evBit_of_rg (hz.rg _ hq (Nat.ne_of_lt (hreg.trans (by decide)))),
    evBit_of_rg (hy.rg _ hq (Nat.ne_of_lt (hreg.trans (by decide))))]
  exact d.evBit_clearPending ev.toNat

/-! ## EV.WAIT -/

/-- The domain as a satisfied wait leaves it, before the instruction retires. -/
theorem Recorded.found {d : Domain} {e : Eng} (hn : d.replays e = false) (ev : BitVec 7) :
    Recorded (d.clearPending ev.toNat) ((d.clearPending ev.toNat).logRec e .wait (ev.setWidth 32) 0) :=
  .logRec ((d.replays_clearPending ev.isLt e).trans hn) _ _ _

section
variable {i : Instr} {s : State} {d : Dom} {e : Eng} {f : Domain → Domain} {z : Domain}

theorem Answers.of_dom {P : State → Prop} (hx : exec i s = .next (s.onCore d f)) (hu : (s.dom d).inReset = false)
    (hf : f (s.dom d) = z) (hP : ∀ t, t.dom d = z → P t) : Answers i s P :=
  ⟨_, hx, hP _ ((s.onCore_dom d f hu).1.trans hf)⟩

end

section
variable {s : State} {k : At} {rd rs1 rs2 : GReg} (hn : (s.dom k.d).replays k.e = false)
include hn

/-- EV.WAIT at once, by what is pending and by its limit. -/
theorem Ready.evWait_answers (hr : Ready s k [rd, rs1, rs2]) {x : Core} {d : Domain} {ev : BitVec 7} {lim : Nat}
    (hcore : s.core k.d k.e = x) (hdom : s.dom k.d = d) (hev : (x.rd rs1).setWidth 7 = ev) (hlim : (x.rd rs2).toNat = lim) :
    (d.found ev = true → Answers (.evWait k rd rs1 rs2) s fun t =>
      t.core k.d k.e = (x.wr rd 0).next.retiring ∧ (t.dom k.d).evBit EVT_PEND_PEND ev.toNat = false) ∧
    (d.found ev = false → lim = 0 → Answers (.evWait k rd rs1 rs2) s fun t => t.core k.d k.e = (x.wr rd 1).next.retiring) ∧
    (d.found ev = false → lim ≠ 0 →
      LeavesCore (.evWait k rd rs1 rs2) s k { x with wait := .evWait ev (d.time + lim) rd, since := d.time }) := by
  subst hdom
  have hcore : (s.dom k.d).core k.e = x := hcore
  refine ⟨fun hf => ?found, fun hf h0 => ?expired, fun hf h0 => ?waits⟩
  case found =>
    have hlog := Recorded.found hn ev
    refine hr.retires (sys := false) (d' := ((((s.dom k.d).clearPending ev.toNat).logRec k.e .wait (ev.setWidth 32) 0).mapCore
      k.e fun x => (x.wr rd 0).next)) rfl nofun ?_ fun t _ ht => ⟨?_, ?_⟩
    · simp only [hn, hcore, hev, hf, Bool.false_eq_true, if_false, if_true]
      rfl
    · rw [State.core, ht, Domain.core_retireAt, Domain.core_mapCore, hlog.core, Domain.core_clearPending, hcore]
    · rw [ht]
      exact evBit_cleared hlog ((CoreStep.mapCore _ _ _).trans (.retireAt _ k.e _ _))
  case expired =>
    have hlog := Recorded.logRec hn .wait (ev.setWidth 32) 1
    refine (hr.retires_core (sys := false) (y := (s.dom k.d).logRec k.e .wait (ev.setWidth 32) 1)
      (g := fun x => (x.wr rd 1).next) rfl nofun ?_ (by rw [hlog.core, hcore]) hlog.mem).imp fun t h => h.1
    simp only [hn, hcore, hev, hf, hlim, h0, Bool.false_eq_true, if_false, if_true]
    rfl
  case waits =>
    refine .of (sys := false) (d' := (s.dom k.d).await k.e (.evWait ev ((s.dom k.d).time + lim) rd)) rfl hr nofun ?_
      ((Domain.core_await _ _ _).trans (by rw [hcore])) (.await _ _ _)
    simp only [hn, hcore, hev, hf, hlim, h0, Bool.false_eq_true, if_false]

omit rs1 rs2 in
/-- A wait in progress, by what has become pending and by its limit. -/
theorem evWait_ends (hu : (s.dom k.d).inReset = false) (hruns : (s.dom k.d).runs k.e = true) {x : Core} {d : Domain}
    {v : BitVec 7} {dl : Nat} (hcore : s.core k.d k.e = x) (hdom : s.dom k.d = d) (hw : x.wait = .evWait v dl rd) :
    (d.found v = true → d.waitLoses k.e v = false → Answers (.evWaitSatisfied k.d k.e) s fun t =>
      t.core k.d k.e = (x.wr rd 0).next.retiring ∧ (t.dom k.d).evBit EVT_PEND_PEND v.toNat = false) ∧
    (d.found v = false → dl ≤ d.time → Answers (.evWaitExpiry k.d k.e) s fun t =>
      t.core k.d k.e = (x.wr rd 1).next.retiring) := by
  subst hdom
  have hcore : (s.dom k.d).core k.e = x := hcore
  refine ⟨fun hf hl => ?satisfied, fun hf ht => ?expired⟩
  case satisfied =>
    have hlog := Recorded.found hn v
    refine .of_dom (z := (((s.dom k.d).clearPending v.toNat).logRec k.e .wait (v.setWidth 32) 0).finish k.e (·.wr rd 0))
      rfl hu ?_ fun t ht => ⟨?_, ?_⟩
    · unfold Domain.evWaitFound
      rw [hcore, hw]
      simp [hruns, hf, hl]
    · rw [State.core, ht, Domain.core_finish, hlog.core, Domain.core_clearPending, hcore]
    · rw [ht]
      exact evBit_cleared hlog (.finish _ k.e _)
  case expired =>
    have hlog := Recorded.logRec hn .wait (v.setWidth 32) 1
    refine .of_dom (z := ((s.dom k.d).logRec k.e .wait (v.setWidth 32) 1).finish k.e (·.wr rd 1)) rfl hu ?_ fun t ht => ?_
    · unfold Domain.evWaitExpiry
      rw [hcore, hw]
      simp [hruns, hf, ht]
    · rw [State.core, ht, Domain.core_finish, hlog.core, hcore]

omit rd in
/-- EV.FENCE at once. -/
theorem Ready.evFence_answers (hr : Ready s k [rs1, rs2]) {x : Core} {d : Domain} {n : Nat} (hcore : s.core k.d k.e = x)
    (hdom : s.dom k.d = d) (ht : (x.rd rs2).toNat * 4294967296 + (x.rd rs1).toNat = n) :
    (d.watermarks n = true → Answers (.evFence k rs1 rs2) s fun t => t.core k.d k.e = x.next.retiring) ∧
    (d.watermarks n = false → LeavesCore (.evFence k rs1 rs2) s k { x with wait := .evFence n, since := d.time }) := by
  subst hdom
  have hcore : (s.dom k.d).core k.e = x := hcore
  refine ⟨fun hw => ?_, fun hw => ?_⟩
  · have hlog := Recorded.logRec hn .wait 0x80 0
    refine (hr.retires_core (sys := false) (y := (s.dom k.d).logRec k.e .wait 0x80 0) (g := Core.next) rfl nofun ?_
      (by rw [hlog.core, hcore]) hlog.mem).imp fun t h => h.1
    simp only [hn, hcore, ht, hw, Bool.or_true, if_true]
  · refine .of (sys := false) (d' := (s.dom k.d).await k.e (.evFence n)) rfl hr nofun ?_
      ((Domain.core_await _ _ _).trans (by rw [hcore])) (.await _ _ _)
    simp only [hn, hcore, ht, hw, Bool.or_false, Bool.false_eq_true, if_false]

omit rd rs1 rs2 in
theorem evFence_ends (hu : (s.dom k.d).inReset = false) (hruns : (s.dom k.d).runs k.e = true) {x : Core} {n : Nat}
    (hcore : s.core k.d k.e = x) (hw : x.wait = .evFence n) (hm : (s.dom k.d).watermarks n = true) :
    Answers (.evFenceRetire k.d k.e) s fun t => t.core k.d k.e = x.next.retiring := by
  have hcore : (s.dom k.d).core k.e = x := hcore
  have hlog := Recorded.logRec hn .wait 0x80 0
  refine .of_dom (z := ((s.dom k.d).logRec k.e .wait 0x80 0).finish k.e fun x => x) rfl hu ?_ fun t ht => ?_
  · unfold Domain.evFenceRetire
    rw [hcore, hw]
    simp [hruns, hm]
  · rw [State.core, ht, Domain.core_finish, hlog.core, hcore]

end

/-! ## Delivery (R169, R170, R173) -/

theorem Domain.evq_bump (d : Domain) (x n : Nat) : (d.bump x n).evq = d.evq ∧ (d.bump x n).stamps = d.stamps := by
  unfold Domain.bump
  extract_lets v d'
  split <;> exact ⟨rfl, rfl⟩

/-- The domain that an event has been delivered in. -/
theorem Domain.deliver_eq (d : Domain) (x : Event) (ev : BitVec 7) (hx : x.src = ev) :
    (d.deliver x).evq = d.evq.erase x ∧ (d.deliver x).mem = d.mem ∧
      (d.deliver x).evBit EVT_PEND_PEND ev.toNat = (d.evBit EVT_PEND_PEND ev.toNat || d.evBit EVT_EN_EN ev.toNat) ∧
      (d.evBit EVT_PEND_PEND ev.toNat = false → d.evBit EVT_EN_EN ev.toNat = true →
        sget 0 (d.deliver x).stamps ev.toNat = x.stamp) := by
  subst hx
  unfold Domain.deliver
  extract_lets r y d1 d2
  have hc : Counted d1 d2 := .bump d1 _ 1 (by have := x.src.isLt; omega)
  have hq : d2.evq = d.evq.erase x ∧ d2.stamps = d.stamps := Domain.evq_bump d1 _ 1
  have hpend : d2.evBit EVT_PEND_PEND x.src.toNat = d.evBit EVT_PEND_PEND x.src.toNat :=
    evBit_of_rg (hc.rg _ (quiet_evBit (base := 0x10000) (by decide) x.src.isLt))
  have hen : d2.evBit EVT_EN_EN x.src.toNat = d.evBit EVT_EN_EN x.src.toNat :=
    evBit_of_rg (hc.rg _ (quiet_evBit (base := 0x10010) (by decide) x.src.isLt))
  rw [hen]
  have hset : ∀ stamp, (d2.setPending x.src.toNat stamp).evq = d2.evq ∧ (d2.setPending x.src.toNat stamp).mem = d2.mem ∧
      (d2.setPending x.src.toNat stamp).evBit EVT_PEND_PEND x.src.toNat = true ∧
      (d2.evBit EVT_PEND_PEND x.src.toNat = false →
        sget 0 (d2.setPending x.src.toNat stamp).stamps x.src.toNat = stamp) := by
    intro stamp
    unfold Domain.setPending
    cases hp : d2.evBit EVT_PEND_PEND x.src.toNat with
    | true => exact ⟨rfl, rfl, hp, nofun⟩
    | false =>
      exact ⟨rfl, rfl, Domain.rgB_setB_same d2 _ true (by simp only [Fld.bit]; omega) (by simp [Fld.width, Fld.bit]),
        fun _ => sget_sset_same 0 d2.stamps _ stamp⟩
  have hmem : d2.mem = d.mem := hc.mem
  cases he : d.evBit EVT_EN_EN x.src.toNat with
  | true =>
    obtain ⟨h1, h2, h3, h4⟩ := hset x.stamp
    rw [hpend] at h4
    exact ⟨h1.trans hq.1, h2.trans hmem, by rw [Bool.or_true]; exact h3, fun hp _ => h4 hp⟩
  | false => exact ⟨hq.1, hmem, by rw [Bool.or_false]; exact hpend, fun _ h => absurd h (by decide)⟩

/-- The host counters that count a delivery leave the host domain as it is, but for what is counted, and its queue. -/
theorem State.countForHost_eq (s : State) (d w : Dom) (ev : BitVec 7) : Counted (s.dom w) ((s.countForHost d ev).dom w) ∧
    ((s.countForHost d ev).dom w).evq = (s.dom w).evq ∧ ((s.countForHost d ev).dom w).stamps = (s.dom w).stamps ∧
    (s.countForHost d ev).pending = s.pending := by
  unfold State.countForHost
  split
  · exact ⟨.refl _, rfl, rfl, rfl⟩
  · extract_lets num one
    have hone (l : List Nat) (hl : ∀ j ∈ l, j < 8) (x : Domain) : Counted x (l.foldl one x) ∧
        (l.foldl one x).evq = x.evq ∧ (l.foldl one x).stamps = x.stamps := by
      induction l generalizing x with
      | nil => exact ⟨.refl x, rfl, rfl⟩
      | cons j l ih =>
        obtain ⟨h1, h2, h3⟩ := ih (fun m hm => hl m (List.mem_cons_of_mem _ hm)) (one x j)
        have hj := hl j List.mem_cons_self
        have hx : Counted x (one x j) ∧ (one x j).evq = x.evq ∧ (one x j).stamps = x.stamps := by
          show Counted x (if _ then _ else _) ∧ Domain.evq (if _ then _ else _) = _ ∧ Domain.stamps (if _ then _ else _) = _
          split
          · exact ⟨.bump x _ 1 (by omega), x.evq_bump _ 1⟩
          · exact ⟨.refl x, rfl, rfl⟩
        exact ⟨hx.1.trans h1, h2.trans hx.2.1, h3.trans hx.2.2⟩
    obtain ⟨h1, h2, h3⟩ := hone (List.range 8) (fun j hj => List.mem_range.1 hj) s.host.dom
    cases w with
    | ch n => simp [Counted.refl]
    | host => exact ⟨h1, h2, h3, rfl⟩

/-- EVENT_DELIVERY of the oldest event of a source that arbitration grants. -/
theorem State.deliverEvent_dom (s : State) (d : Dom) {ev : BitVec 7} {e : Event} (hu : (s.dom d).inReset = false)
    (ha : (s.dom d).admits ev.toNat = true) (ho : (s.dom d).oldest ev = some e) :
    Counted ((s.dom d).deliver e) ((s.deliverEvent d ev).dom d) ∧
      ((s.deliverEvent d ev).dom d).evq = ((s.dom d).deliver e).evq ∧
      ((s.deliverEvent d ev).dom d).stamps = ((s.dom d).deliver e).stamps ∧ (s.deliverEvent d ev).pending = s.pending := by
  unfold State.deliverEvent
  simp only [hu, ha, ho, Bool.not_true, Bool.or_false, Bool.false_eq_true, if_false]
  have hcount (t : State) (hd : t.dom d = (s.dom d).deliver e) (hp : t.pending = s.pending) :
      Counted ((s.dom d).deliver e) ((t.countForHost d ev).dom d) ∧
        ((t.countForHost d ev).dom d).evq = ((s.dom d).deliver e).evq ∧
        ((t.countForHost d ev).dom d).stamps = ((s.dom d).deliver e).stamps ∧
        (t.countForHost d ev).pending = s.pending := by
    rw [← hd, ← hp]
    exact t.countForHost_eq d d ev
  cases d with
  | ch n => exact hcount _ (by simp) (by simp)
  | host => exact hcount _ (State.setDom_dom _ _ _) (State.setDom_pending _ _ _)

/-! ## EVT_CLAIM (R173) -/

/-- What a claim makes of the domain: the flag clears, the stamp stands in the engine, the queue stays. -/
theorem Domain.claim_eq {d : Domain} {e : Eng} {p ev : Nat} (ht : d.topClass e = some p) (hp : d.pendingOf e p = some ev) :
    (d.claim e).2.evBit EVT_PEND_PEND ev = false ∧ ((d.claim e).2.core e).claimStamp = sget 0 d.stamps ev ∧
      ((d.claim e).2.core e).g = (d.core e).g ∧ (d.claim e).2.evq = d.evq := by
  have hc : (d.claim e).2 = (d.clearPending ev).mapCore e (fun x => { x with claimStamp := sget 0 d.stamps ev }) := by
    unfold Domain.claim
    rw [ht]
    simp only [hp]
  have hev : ev < 128 := List.mem_range.1 (List.mem_of_find?_eq_some hp)
  have hq := quiet_evBit (base := 0x10000) (by decide) hev
  have hcore := Domain.core_mapCore (d.clearPending ev) e (fun x => { x with claimStamp := sget 0 d.stamps ev })
  have hpend := evBit_of_rg (f := EVT_PEND_PEND) ((CoreStep.mapCore (d.clearPending ev) e
    (fun x => { x with claimStamp := sget 0 d.stamps ev })).rg _ hq (by simp only [Fld.bit]; omega))
  rw [hc]
  refine ⟨hpend.trans (d.evBit_clearPending ev), ?_, ?_, ?_⟩
  · rw [hcore]
  · rw [hcore]
    show ((d.clearPending ev).core e).g = _
    exact congrArg (fun x => x.g) (d.core_clearPending ev e)
  · obtain ⟨a, b, c, h⟩ := (d.clearPending ev).putCore_parts e
      { (d.clearPending ev).core e with claimStamp := sget 0 d.stamps ev }
    rw [Domain.mapCore, h]
    rfl

/-- A read of EVT_CLAIM by a core. -/
theorem State.readFor_claim (s : State) (d : Dom) (e : Eng) (hu : (s.dom d).inReset = false) :
    s.readFor d (some e) EVT_CLAIM_EVENT.reg = s.setDom d ((s.dom d).claim e).2 := by
  have hk : (s.dom d).assigned EVT_CLAIM_EVENT.reg = true := by
    unfold Domain.assigned
    rw [show (rowOf EVT_CLAIM_EVENT.reg).isSome = true from rfl, show isXsel EVT_CLAIM_EVENT.reg = false from rfl]
    simp
  unfold State.readFor State.readBlock
  simp [hu, hk, show isCount EVT_CLAIM_EVENT.reg = false from rfl]

/-- Settles O11: a wait and a fence go by what is pending and by the watermarks, a delivery and a claim change the flags. -/
theorem eventWaitsDeliveriesAndClaims : Obligations.EventWaitsDeliveriesAndClaims := by
  unfold Obligations.EventWaitsDeliveriesAndClaims
  refine ⟨?waits, ?events⟩
  case waits =>
    intro s k rd rs1 rs2 x d ev lim cleared goes hn
    exact ⟨fun hr => hr.evWait_answers hn rfl rfl rfl rfl,
      fun v dl r ⟨hu, hruns⟩ hw => evWait_ends hn hu hruns rfl rfl hw,
      fun hr => hr.evFence_answers hn rfl rfl rfl,
      fun n ⟨hu, hruns⟩ hw hm => evFence_ends hn hu hruns rfl hw hm⟩
  case events =>
    intro s d hu x
    refine ⟨fun ev e ha ho => ⟨_, rfl, ?_⟩, fun e p ev ht hp => ⟨_, rfl, ?_⟩⟩
    · obtain ⟨hc, hq, hs, hpend⟩ := s.deliverEvent_dom d hu ha ho
      have hsrc : e.src = ev := by
        have := List.find?_some ho
        rw [Bool.and_eq_true, beq_iff_eq] at this
        exact this.1
      obtain ⟨h1, h2, h3, h4⟩ := x.deliver_eq e ev hsrc
      have hflag := evBit_of_rg (f := EVT_PEND_PEND) (hc.rg _ (quiet_evBit (base := 0x10000) (by decide) ev.isLt))
      exact ⟨hq.trans h1, hflag.trans h3, fun hp he => by rw [hs]; exact h4 hp he, hc.mem.trans h2, hpend⟩
    · obtain ⟨h1, h2, h3, h4⟩ := Domain.claim_eq ht hp
      rw [s.readFor_claim d e hu, State.core, State.setDom_dom]
      exact ⟨h1, h2, h3, h4⟩

end Sys2Proof.Machine
end

section
/-! PROOF. LS.SPLIT, LS.JOIN and CKPT at the core (R131, R396, R399). -/

namespace Sys2Proof.Machine

/-! ## Requests of a split or a join (R131, R399) -/

/-- What a request of a split or a join writes: one pending flag, and the cycle it is made in. -/
structure Asked (a b : Domain) : Prop where
  parts : ∃ r y n t, b = { a with regs := r, cyc := y, lsc := { a.lsc with reqAt := n, bndAt := t } }
  rg : ∀ f : Fld, f.hi < 32 → (f.reg ≠ LSC_STAT_MAIN.reg ∨ f.hi < 17 ∨ 18 < f.lo) → b.rg f = a.rg f

theorem Asked.refl (a : Domain) : Asked a a := ⟨⟨a.regs, a.cyc, a.lsc.reqAt, a.lsc.bndAt, rfl⟩, fun _ _ _ => rfl⟩

theorem Asked.setB (d : Domain) (f : Fld) (hf : f.reg = LSC_STAT_MAIN.reg ∧ 17 ≤ f.lo ∧ f.hi ≤ 18) (n : Nat)
    (t : Option Nat) :
    Asked d ((d.setB f true).setLsc fun l => { l with reqAt := n, bndAt := t }) := by
  refine ⟨⟨_, _, n, t, rfl⟩, fun g hg h => Domain.rg_set_apart d f g _ hg ?_⟩
  omega

theorem Asked.requestSplit (d : Domain) : Asked d d.requestSplit := by
  unfold Domain.requestSplit
  split
  · exact .refl d
  · exact .setB d _ (by decide) _ _

theorem Asked.requestJoin (d : Domain) : Asked d d.requestJoin := by
  unfold Domain.requestJoin
  split
  · exact .refl d
  · exact .setB d _ (by decide) _ _

section
variable {a b : Domain} (h : Asked a b)
include h

theorem Asked.core (e : Eng) : b.core e = a.core e := by
  obtain ⟨⟨r, y, n, t, rfl⟩, -⟩ := h
  cases e <;> rfl

theorem Asked.mem : b.mem = a.mem := by obtain ⟨⟨r, y, n, t, rfl⟩, -⟩ := h; rfl

theorem Asked.replays (e : Eng) : b.replays e = a.replays e := by
  have hphase : b.phase = a.phase := by simp only [Domain.phase, Domain.rgN, h.rg LSC_STAT_PHASE (by decide) (by decide)]
  have hmain : b.main = a.main := by simp only [Domain.main, Domain.rgN, h.rg LSC_STAT_MAIN (by decide) (by decide)]
  obtain ⟨⟨r, y, n, t, hb⟩, -⟩ := h
  unfold Domain.replays
  rw [Domain.expected_congr hphase hmain (by rw [hb]) (by rw [hb]) (by rw [hb])]

end

theorem Domain.rgB_requestSplit (d : Domain) : d.requestSplit.rgB LSC_STAT_SPLITPEND = true := by
  unfold Domain.requestSplit
  split
  · assumption
  · exact Domain.rgB_setB_same d _ true (by decide) rfl

theorem Domain.rgB_requestJoin (d : Domain) (h : d.lsc.split.isSome = true) :
    d.requestJoin.rgB LSC_STAT_JOINPEND = true := by
  unfold Domain.requestJoin
  have hn : d.lsc.split.isNone = false := by
    rw [← Option.not_isSome, h]
    rfl
  rw [hn, Bool.false_or]
  split
  · assumption
  · exact Domain.rgB_setB_same d _ true (by decide) rfl

/-- LS.SPLIT and LS.JOIN: the status is logged and stands in rd, and an accepted request is noted. -/
theorem Ready.lsRequest_answers {i : Instr} {s : State} {k : At} {rd : GReg} {join : Bool} {x : Core} {d : Domain} {n : Nat}
    {f : Fld} (hx : exec i s = .next (s.onCore k.d (·.lsRequest k.e k.f rd join))) (hr : Ready s k [rd])
    (hcore : s.core k.d k.e = x) (hdom : s.dom k.d = d) (hp : x.priv = .system) (hn : d.replays k.e = false)
    (hst : d.splitStatus k.e join = n) (hf : f.quiet ∧ f.reg = LSC_STAT_MAIN.reg) :
    Answers i s fun t => t.core k.d k.e = (x.wr rd (BitVec.ofNat 32 n)).next.retiring ∧ (t.dom k.d).mem = d.mem ∧
      (n = 0 → (if join then d.requestJoin else d.requestSplit).rgB f = true → (t.dom k.d).rgB f = true) := by
  subst hdom
  generalize hy : (if n = 0 && !(s.dom k.d).replays k.e then
    (if join then (s.dom k.d).requestJoin else (s.dom k.d).requestSplit) else s.dom k.d) = y
  have hask : Asked (s.dom k.d) y := by
    rw [← hy]
    split
    · cases join
      · exact .requestSplit _
      · exact .requestJoin _
    · exact .refl _
  have hlog := Recorded.logRec ((hask.replays k.e).trans hn) .value 2 (BitVec.ofNat 32 n)
  have hc : (y.logRec k.e .value 2 (BitVec.ofNat 32 n)).core k.e = x := (hlog.core k.e).trans ((hask.core k.e).trans hcore)
  refine hr.retires (sys := true) (d' := (y.logRec k.e .value 2 (BitVec.ofNat 32 n)).mapCore k.e
    fun x => (x.wr rd (BitVec.ofNat 32 n)).next) hx (fun _ => by rw [hcore]; exact hp) ?_ fun t _ ht => ⟨?_, ?_, ?_⟩
  · simp only [hst, Domain.input_of_not_replays hn, hy]
    rfl
  · rw [State.core, ht, Domain.core_retireAt, Domain.core_mapCore, hc]
  · rw [ht, (CoreStep.retireAt _ _ _ _).mem, (CoreStep.mapCore _ _ _).mem, hlog.mem, hask.mem]
  · intro h0 hreq
    have hall := (CoreStep.mapCore (y.logRec k.e .value 2 (BitVec.ofNat 32 n)) k.e
      fun x => (x.wr rd (BitVec.ofNat 32 n)).next).trans (.retireAt _ k.e (s.core k.d k.e).pc false)
    have hy' : y = if join then (s.dom k.d).requestJoin else (s.dom k.d).requestSplit := by
      rw [← hy, h0, hn]
      rfl
    rw [ht, Domain.rgB, hall.rg f hf.1 (by rw [hf.2]; decide), hlog.rg f hf.1 (by rw [hf.2]; decide), hy']
    exact hreq

/-! ## CKPT (R131, R396) -/

/-- Counters and samplers write no register below their own. -/
theorem Domain.rg_item (d : Domain) (e j : Nat) (o : Occ) {f : Fld} (hf : f.reg < 0xC0080) : (d.item e j o).rg f = d.rg f := by
  have hbump (x n : Nat) : (d.bump x n).rg f = d.rg f := by
    unfold Domain.bump
    simp only
    split
    · exact Domain.rg_set_reg _ _ f _ (by simp only [Fld.bit]; omega)
    · rfl
  have hsample (l : List Nat) (x : Nat) (y : Domain) : (l.foldl (Domain.sample x o) y).rg f = y.rg f := by
    induction l generalizing y with
    | nil => rfl
    | cons k l ih =>
      rw [List.foldl_cons, ih]
      unfold Domain.sample
      split
      · extract_lets n period
        split <;> rfl
      · rfl
  exact (hsample _ _ _).trans (hbump _ _)

theorem Domain.rg_coreItem (d : Domain) (e : Eng) (j : Nat) (o : Occ) {f : Fld} (hf : f.reg < 0xC0080) :
    (d.coreItem e j o).rg f = d.rg f := by
  unfold Domain.coreItem
  extract_lets d'
  have hd' : d'.rg f = d.rg f := d.rg_item _ j o hf
  split
  · split
    · exact (d'.rg_item _ j o hf).trans hd'
    · exact hd'
  · exact hd'

theorem Domain.rg_mapCore (d : Domain) (e : Eng) (g : Core → Core) (f : Fld) : (d.mapCore e g).rg f = d.rg f := by
  obtain ⟨a, b, c, h⟩ := d.putCore_parts e (g (d.core e))
  rw [Domain.mapCore, h]
  rfl

/-- Retirement writes the counters and the cause of a debug step alone. -/
theorem Domain.rg_retireAt (d : Domain) (e : Eng) (pc : Word) (w : Bool) {f : Fld} (hf : f.reg < 0xC0080) :
    (d.retireAt e pc w).rg f = d.rg f := by
  have hstepped (y : Domain) : (y.stepped e).rg f = y.rg f := by
    unfold Domain.stepped
    split
    · simp only
      split
      · exact Domain.rg_set_reg _ _ f _ (Nat.ne_of_gt (hf.trans (by decide)))
      · rfl
    · rfl
  unfold Domain.retireAt
  extract_lets o age
  exact (hstepped _).trans (((d.mapCore e age).rg_coreItem e 0 o hf).trans (d.rg_mapCore e age f))

/-- What a checkpoint leaves: itself, empty logs, and its flags and tag (R396). -/
structure Checkpointed (d y : Domain) (e : Eng) (tag : Word) : Prop where
  ck : y.lsc.ck = some ⟨d.core e, tag, (d.core e).retired + 1, d.time⟩
  journal : y.lsc.journal = []
  rlog : y.lsc.rlog = []
  valid : y.rgB LSC_STAT_CKVALID = true
  ovf : y.rgB LSC_STAT_LOGOVF = false
  tag_ : y.rg LSC_CKTAG_TAG = tag
  mem : y.mem = d.mem
  core : y.core e = d.core e

theorem and_lowMask_all (w : Word) : w &&& lowMask 32 = w := BitVec.and_allOnes

@[simp] theorem Domain.core_set (d : Domain) (f : Fld) (v : Word) (e : Eng) : (d.set f v).core e = d.core e := by
  cases e <;> rfl
@[simp] theorem Domain.core_setN (d : Domain) (f : Fld) (n : Nat) (e : Eng) : (d.setN f n).core e = d.core e := by
  cases e <;> rfl
@[simp] theorem Domain.core_setB (d : Domain) (f : Fld) (b : Bool) (e : Eng) : (d.setB f b).core e = d.core e := by
  cases e <;> rfl
@[simp] theorem Domain.core_setLsc (d : Domain) (f : Lsc → Lsc) (e : Eng) : (d.setLsc f).core e = d.core e := by
  cases e <;> rfl

theorem Domain.rg_setN_reg (d : Domain) (f g : Fld) (n : Nat) (h : f.reg ≠ g.reg) : (d.setN f n).rg g = d.rg g :=
  d.rg_set_reg f g _ h

/-- The last three fields that a checkpoint writes stand in registers of their own. -/
theorem Domain.rg_checkpointLevels (d : Domain) (n m l : Nat) {f : Fld} (h : f.reg < 0x90108) :
    (((d.setN LSC_CKTS_TS n).setN LSC_LOGLVL_JRNL m).setN LSC_LOGLVL_RLOG l).rg f = d.rg f := by
  rw [Domain.rg_setN_reg _ _ f _ (Nat.ne_of_gt (h.trans (by decide))),
    Domain.rg_setN_reg _ _ f _ (Nat.ne_of_gt (h.trans (by decide))), Domain.rg_setN_reg _ _ f _ (Nat.ne_of_gt h)]

theorem Domain.checkpointed (d : Domain) (e : Eng) (tag : Word) : Checkpointed d (d.checkpoint e tag) e tag := by
  unfold Domain.checkpoint
  extract_lets x d1 d2
  have hflag (b : Bool) (f : Fld) (hf : f.reg < 0x90104)
      (h : ((d1.setB LSC_STAT_CKVALID true).setB LSC_STAT_LOGOVF false).rgB f = b) :
      (((d2.setN LSC_CKTS_TS (d2.time % 4294967296)).setN LSC_LOGLVL_JRNL 0).setN LSC_LOGLVL_RLOG 0).rgB f = b := by
    rw [Domain.rgB, Domain.rg_checkpointLevels _ _ _ _ (hf.trans (by decide)), Domain.rg_set_reg _ _ f _ (Nat.ne_of_gt hf)]
    exact h
  refine ⟨by simp [d2, d1, x], by simp [d2, d1], by simp [d2, d1], hflag _ _ (by decide) ?_, hflag _ _ (by decide) ?_, ?_,
    by simp [d2, d1], by simp [d2, d1]⟩
  · rw [Domain.rgB_setB_apart _ _ _ _ (by decide) (by decide)]
    exact d1.rgB_setB_same _ true (by decide) rfl
  · exact Domain.rgB_setB_same _ _ false (by decide) rfl
  · rw [Domain.rg_checkpointLevels _ _ _ _ (by decide)]
    exact (Domain.rg_set_same _ _ _ (by decide)).trans (and_lowMask_all tag)

/-- A checkpoint stays while its instruction retires. -/
theorem Checkpointed.retireAt {d y : Domain} {e : Eng} {tag : Word} (h : Checkpointed d y e tag) (pc : Word) (w : Bool) :
    let z := y.retireAt e pc w
    z.core e = (d.core e).retiring ∧ z.lsc.ck = some ⟨d.core e, tag, (d.core e).retired + 1, d.time⟩ ∧ z.lsc.journal = [] ∧
      z.lsc.rlog = [] ∧ z.rgB LSC_STAT_CKVALID = true ∧ z.rgB LSC_STAT_LOGOVF = false ∧ z.rg LSC_CKTAG_TAG = tag ∧
      z.mem = d.mem := by
  intro z
  have hs := CoreStep.retireAt y e pc w
  refine ⟨by rw [Domain.core_retireAt, h.core], by rw [hs.lsc, h.ck], by rw [hs.lsc, h.journal], by rw [hs.lsc, h.rlog],
    ?_, ?_, ?_, hs.mem.trans h.mem⟩
  · rw [Domain.rgB, y.rg_retireAt e pc w (by decide)]
    exact h.valid
  · rw [Domain.rgB, y.rg_retireAt e pc w (by decide)]
    exact h.ovf
  · rw [y.rg_retireAt e pc w (by decide)]
    exact h.tag_

section
variable {s : State} {k : At} {rs1 : GReg} {x : Core} {d : Domain} (hcore : s.core k.d k.e = x) (hdom : s.dom k.d = d)
  (hr : Ready s k [rs1]) (hp : x.priv = .system) {idle : Bool}
  (hidle : (d.dual || d.rgB SYS_CAP_DEGRADED || d.lsc.split == some k.e) = idle)
include hcore hdom hr hp hidle

/-- CKPT by what the domain is and what is left in the store buffer. -/
theorem Ready.ckpt_answers : (idle = true → Retires (.ckpt k rs1) s k x.next) ∧
    (idle = false → x.stores ≠ [] → LeavesCore (.ckpt k rs1) s k { x with wait := .full, since := d.time }) ∧
    (idle = false → x.stores = [] → Answers (.ckpt k rs1) s fun t => t.core k.d k.e = x.next.retiring ∧
      (t.dom k.d).lsc.ck = some ⟨x.next, x.rd rs1, x.retired + 1, d.time⟩ ∧ (t.dom k.d).lsc.journal = [] ∧
      (t.dom k.d).lsc.rlog = [] ∧ (t.dom k.d).rgB LSC_STAT_CKVALID = true ∧ (t.dom k.d).rgB LSC_STAT_LOGOVF = false ∧
      (t.dom k.d).rg LSC_CKTAG_TAG = x.rd rs1 ∧ (t.dom k.d).mem = d.mem) := by
  have hsys : true = true → (s.core k.d k.e).priv = .system := fun _ => by rw [hcore]; exact hp
  have hcore : (s.dom k.d).core k.e = x := hcore
  refine ⟨fun h => ?records, fun h hst => ?waits, fun h hst => ?checkpoint⟩
  case records =>
    have hb : Retires (.ckpt k rs1) s k (s.core k.d k.e).next :=
      .of_counted (sys := true) (j := 13) Core.next rfl hr hsys (by decide) (by simp only [hdom, hidle, h]; rfl)
    rwa [show s.core k.d k.e = x from hcore] at hb
  case waits =>
    refine .of (sys := true) (d' := d.await k.e .full) rfl hr hsys ?_ ?_ ?_
    · rw [hdom] at hcore
      have hne : x.stores.isEmpty = false := by simpa using hst
      simp only [hdom, hidle, h, hcore, hne]
      rfl
    · rw [Domain.core_await, ← hdom, hcore]
    · rw [hdom]
      exact .await d k.e .full
  case checkpoint =>
    subst hdom
    have hitem := Counted.coreItem ((s.dom k.d).mapCore k.e Core.next) k.e 13 ((s.dom k.d).occAt k.e x.pc false) (by decide)
    refine hr.retires (sys := true) (d' := (((s.dom k.d).mapCore k.e Core.next).coreItem k.e 13
      ((s.dom k.d).occAt k.e x.pc false)).checkpoint k.e (x.rd rs1)) rfl hsys ?_ fun t _ ht => ?_
    · simp only [hidle, h, hcore, hst]
      rfl
    · have hc := (Domain.checkpointed (((s.dom k.d).mapCore k.e Core.next).coreItem k.e 13
        ((s.dom k.d).occAt k.e x.pc false)) k.e (x.rd rs1)).retireAt (s.core k.d k.e).pc false
      have hstep := (CoreStep.mapCore (s.dom k.d) k.e Core.next).trans (.of_counted k.e hitem)
      rw [hitem.core, Domain.core_mapCore, hcore, hstep.mem, hstep.time] at hc
      rw [State.core, ht]
      exact hc

end

end Sys2Proof.Machine
end

section
/-! PROOF. Splits, joins and the watches over checkpoints and code (R398 to R401, R407, R409). -/

namespace Sys2Proof.Machine

/-! ## Events of a given cycle (R167) -/

theorem Domain.evq_raiseAt (d : Domain) (t ev arg : Nat) (h : (d.evq.filter (fun e => e.src == BitVec.ofNat 7 ev)).length < 4) :
    (d.raiseAt t ev arg).evq = d.evq ++ [⟨BitVec.ofNat 7 ev, max t (sget 0 d.evNext ev), BitVec.ofNat 16 arg⟩] := by
  unfold Domain.raiseAt
  rw [if_pos h]

theorem Domain.evNext_raiseAt (d : Domain) (t ev arg : Nat)
    (h : (d.evq.filter (fun e => e.src == BitVec.ofNat 7 ev)).length < 4) :
    sget 0 (d.raiseAt t ev arg).evNext ev = max t (sget 0 d.evNext ev) + 1 := by
  unfold Domain.raiseAt
  rw [if_pos h]
  simp only [sget_sset_same]

/-- An event raised where its source has room, and no later stamp stands, waits with the cycle given. -/
theorem Domain.mem_raiseAt (d : Domain) (t ev arg : Nat) (h : (d.evq.filter (fun e => e.src == BitVec.ofNat 7 ev)).length < 4)
    (ht : sget 0 d.evNext ev ≤ t) : ⟨BitVec.ofNat 7 ev, t, BitVec.ofNat 16 arg⟩ ∈ (d.raiseAt t ev arg).evq := by
  rw [d.evq_raiseAt t ev arg h, Nat.max_eq_left ht]
  exact List.mem_append_right _ (List.mem_singleton_self _)

/-- Two events of one source and one cycle: the second is stamped a cycle later. -/
theorem Domain.mem_raiseAt_twice (d : Domain) (t ev a b : Nat)
    (h : (d.evq.filter (fun e => e.src == BitVec.ofNat 7 ev)).length < 3) (ht : sget 0 d.evNext ev ≤ t) :
    ⟨BitVec.ofNat 7 ev, t + 1, BitVec.ofNat 16 b⟩ ∈ ((d.raiseAt t ev a).raiseAt t ev b).evq := by
  have h4 : (d.evq.filter (fun e => e.src == BitVec.ofNat 7 ev)).length < 4 := by omega
  have hq : ((d.raiseAt t ev a).evq.filter (fun e => e.src == BitVec.ofNat 7 ev)).length < 4 := by
    rw [d.evq_raiseAt t ev a h4, List.filter_append, List.length_append]
    have := List.length_filter_le (fun e : Event => e.src == BitVec.ofNat 7 ev)
      [⟨BitVec.ofNat 7 ev, max t (sget 0 d.evNext ev), BitVec.ofNat 16 a⟩]
    simp only [List.length_singleton] at this
    omega
  rw [Domain.evq_raiseAt _ t ev b hq, d.evNext_raiseAt t ev a h4, Nat.max_eq_left ht, Nat.max_eq_right (Nat.le_succ t)]
  exact List.mem_append_right _ (List.mem_singleton_self _)

theorem Counted.mem_evq {a b : Domain} (h : Counted a b) {o : Event} (ho : o ∈ a.evq) : o ∈ b.evq := by
  obtain ⟨⟨r, p, q, n, y, rfl⟩, -⟩ := h
  exact List.mem_append_left _ ho

section
variable {a b : Domain} (h : Counted a b)
include h

theorem Counted.main : b.main = a.main := by rw [Domain.main, h.rgN _ quiet_main, Domain.main]
theorem Counted.shadow : b.shadow = a.shadow := by rw [Domain.shadow, h.rgN _ quiet_shadow, Domain.shadow]
theorem Counted.spare : b.spare = a.spare := by
  rw [Domain.spare, h.rgN _ (show LSC_STAT_SPARE.quiet by decide), Domain.spare]

/-- Counting leaves the memories and the cores. -/
theorem Counted.same : b.mem = a.mem ∧ ∀ e, b.core e = a.core e := ⟨h.mem, h.core⟩

end

/-! ## The roles of the engines (R388, R400, R401) -/

theorem engOf_idx (e : Eng) : engOf e.idx = some e := by cases e <;> rfl
theorem engIdx_lt (e : Eng) : e.idx < 4 := by cases e <;> decide

/-- The roles and flags that a split or a join leaves in LSC_STAT. -/
def Domain.withRoles (d : Domain) (shadow spare : Nat) (split : Bool) (pend : Fld) : Domain :=
  (((d.setN LSC_STAT_SHADOW shadow).setN LSC_STAT_SPARE spare).setB LSC_STAT_SPLIT split).setB pend false

/-- The domain `b` is `a` with other roles, and its flags of a split say so. -/
structure Roled (a b : Domain) (shadow spare : Option Eng) (split : Bool) (pend : Fld) : Prop where
  main : b.main = a.main
  shadow : b.shadow = shadow
  spare : b.spare = spare
  split : b.rgB LSC_STAT_SPLIT = split
  pend : b.rgB pend = false
  core : ∀ e, b.core e = a.core e
  mem : b.mem = a.mem
  lsc : b.lsc = a.lsc
  evq : b.evq = a.evq
  evNext : b.evNext = a.evNext

theorem Domain.roled (d : Domain) {shadow spare : Nat} (hs : shadow < 4) (hp : spare < 4) (split : Bool) {pend : Fld}
    (hf : pend.reg = LSC_STAT_MAIN.reg ∧ pend.lo = pend.hi ∧ 17 ≤ pend.lo ∧ pend.hi ≤ 18) :
    Roled d (d.withRoles shadow spare split pend) (engOf shadow) (engOf spare) split pend := by
  obtain ⟨hr, hw, hlo, hhi⟩ := hf
  have hroles (f : Fld) (hhi' : f.hi < 32) (h : f.lo > 19) : (d.withRoles shadow spare split pend).rgN f =
      ((d.setN LSC_STAT_SHADOW shadow).setN LSC_STAT_SPARE spare).rgN f := by
    unfold Domain.withRoles Domain.rgN
    rw [Domain.rg_setB, Domain.rg_set_apart _ _ _ _ hhi' (by omega), Domain.rg_setB,
      Domain.rg_set_apart _ _ _ _ hhi' (.inr (.inr h))]
  refine ⟨?_, ?_, ?_, ?_, ?_, by simp [Domain.withRoles], by simp [Domain.withRoles], by simp [Domain.withRoles],
    by simp [Domain.withRoles], by simp [Domain.withRoles]⟩
  · rw [Domain.main, hroles _ (by decide) (by decide), Domain.rgN_setN_apart _ _ _ _ (by decide) (by decide),
      Domain.rgN_setN_apart _ _ _ _ (by decide) (by decide), Domain.main]
  · rw [Domain.shadow, hroles _ (by decide) (by decide), Domain.rgN_setN_apart _ _ _ _ (by decide) (by decide),
      Domain.rgN_setN_same _ _ _ (by decide) hs (by decide)]
  · rw [Domain.spare, hroles _ (by decide) (by decide), Domain.rgN_setN_same _ _ _ (by decide) hp (by decide)]
  · unfold Domain.withRoles
    rw [Domain.rgB_setB_apart _ _ _ _ (by decide) (.inr (.inr (Nat.lt_of_le_of_lt hhi (by decide))))]
    exact Domain.rgB_setB_same _ _ split (by decide) rfl
  · exact Domain.rgB_setB_same _ _ false (by omega) (by unfold Fld.width; omega)

/-- The shadow of a load holds main's state, and the other engines what they held. -/
theorem Domain.core_loadShadow (d : Domain) (m h : Eng) : (d.loadShadow m h).core h =
    { (d.core h).adopt (d.core m) with
      run := .running, wait := .none, rsv := (d.core m).rsv, retired := (d.core m).retired
      postedErrs := (d.core m).postedErrs } := Domain.core_setCore _ _ _

theorem Domain.core_loadShadow_other (d : Domain) (m : Eng) {h e : Eng} (he : e ≠ h) : (d.loadShadow m h).core e = d.core e :=
  d.core_setCore_other _ he

@[simp] theorem Domain.main_setCore (d : Domain) (e : Eng) (x : Core) : (d.setCore e x).main = d.main := by cases e <;> rfl
@[simp] theorem Domain.main_loadShadow (d : Domain) (m h : Eng) : (d.loadShadow m h).main = d.main := d.main_setCore _ _

/-! ## Splits and joins -/

/-- The lockstep state is apart from the roles and the flags. -/
theorem Roled.setLsc {a b : Domain} {shadow spare : Option Eng} {split : Bool} {pend : Fld}
    (h : Roled a b shadow spare split pend) (g : Lsc → Lsc) : Roled (a.setLsc g) (b.setLsc g) shadow spare split pend :=
  ⟨h.main, h.shadow, h.spare, h.split, h.pend, fun e => by simpa using h.core e, h.mem, congrArg g h.lsc, h.evq, h.evNext⟩

/-- What is counted after the change leaves roles, flags, cores and memories. -/
theorem Roled.counted {a b y : Domain} {shadow spare : Option Eng} {split : Bool} {pend : Fld}
    (h : Roled a b shadow spare split pend) (hf : pend.quiet) (hy : Counted b y) :
    y.main = a.main ∧ y.shadow = shadow ∧ y.spare = spare ∧ y.lsc = a.lsc ∧ y.rgB LSC_STAT_SPLIT = split ∧
      y.rgB pend = false ∧ (∀ e, y.core e = a.core e) ∧ y.mem = a.mem :=
  ⟨hy.main.trans h.main, hy.shadow.trans h.shadow, hy.spare.trans h.spare, hy.lsc.trans h.lsc,
    (hy.rgB _ (by decide)).trans h.split, (hy.rgB _ hf).trans h.pend, fun e => (hy.core e).trans (h.core e),
    hy.mem.trans h.mem⟩

/-- The engines after a split: the spare loaded from main, and the former shadow at its vector (R400). -/
def Domain.splitCores (x : Domain) (m h p : Eng) : Domain :=
  (x.loadShadow m p).setCore h { x.splitCore with
    stores := (x.core h).stores, posted := (x.core h).posted, seq := (x.core h).seq, lost := (x.core h).lost }

/-- The engines after a join: the shadow loaded from main, and the engine that shadowed it held (R401). -/
def Domain.joinCores (x : Domain) (m h p : Eng) : Domain :=
  ((x.setCore p (x.core p).idle).loadShadow m p).setCore h (x.core h).idle

section
variable {x y : Domain} {m h p : Eng} {c : Nat} (hm : x.main = some m) (hh : x.shadow = some h) (hmh : m ≠ h) (hpm : p ≠ m)
  (hph : p ≠ h) (hc : x.transferred = some c)

include hm hh hc

theorem Domain.splitEffect_eq (hp : x.spare = some p) : x.splitEffect =
    (((x.splitCores m h p).withRoles p.idx 3 true LSC_STAT_SPLITPEND).setLsc fun l =>
      { l with split := some h, splitSince := c, forced := false }).raiseAt (c + 96) 0x76 1 := by
  unfold Domain.splitEffect
  rw [hm, hh, hp, hc]
  rfl

theorem Domain.joinEffect_eq (hp : x.lsc.split = some p) (hph : p ≠ h) : x.joinEffect =
    let z := (((x.joinCores m h p).withRoles p.idx h.idx false LSC_STAT_JOINPEND).setLsc fun l =>
      { l with split := none, forced := false }).raiseAt (c + 96) 0x76 2
    if x.lsc.forced then z.raiseAt (c + 96) 0x76 3 else z := by
  have hcore : ((x.setCore p (x.core p).idle).loadShadow m p).core h = x.core h := by
    rw [Domain.core_loadShadow_other _ m hph.symm, Domain.core_setCore_other _ _ hph.symm]
  unfold Domain.joinEffect
  rw [hm, hh, hp, hc]
  simp only [hcore]
  simp only [Domain.setB_lsc, Domain.setN_lsc, Domain.setCore_lsc, Domain.loadShadow]
  rfl

include hmh hpm hph

/-- What a split leaves (R400). -/
theorem Domain.splitEffect_effect (hp : x.spare = some p) (hy : Counted x.splitEffect y) :
    y.main = some m ∧ y.shadow = some p ∧ y.spare = none ∧ y.lsc.split = some h ∧ y.rgB LSC_STAT_SPLIT = true ∧
      y.rgB LSC_STAT_SPLITPEND = false ∧ y.core m = x.core m ∧
      y.core p = { (x.core p).adopt (x.core m) with
        run := .running, wait := .none, rsv := (x.core m).rsv, retired := (x.core m).retired
        postedErrs := (x.core m).postedErrs } ∧
      y.core h = { x.splitCore with
        stores := (x.core h).stores, posted := (x.core h).posted, seq := (x.core h).seq, lost := (x.core h).lost } ∧
      y.lsc.splitSince = c ∧
      ((x.evq.filter (fun e => e.src == (0x76 : BitVec 7))).length < 4 → sget 0 x.evNext 0x76 ≤ c + 96 →
        ⟨0x76, c + 96, 1⟩ ∈ y.evq) ∧ y.mem = x.mem := by
  rw [Domain.splitEffect_eq hm hh hc hp] at hy
  have hr := ((x.splitCores m h p).roled (engIdx_lt p) (show 3 < 4 by decide) true
    (show LSC_STAT_SPLITPEND.reg = _ ∧ _ by decide)).setLsc fun l =>
      { l with split := some h, splitSince := c, forced := false }
  obtain ⟨hmain, hshadow, hspare, hlsc, hsplit, hpend, hcore, hmem⟩ :=
    hr.counted (by decide) ((Counted.raiseAt _ (c + 96) 0x76 1 (by decide)).trans hy)
  rw [engOf_idx] at hshadow
  refine ⟨?_, hshadow, hspare, ?_, hsplit, hpend, ?_, ?_, ?_, ?_, fun hroom hnext => ?_, ?_⟩
  · rw [hmain, ← hm]
    exact ((x.loadShadow m p).main_setCore _ _).trans (x.main_loadShadow _ _)
  · rw [hlsc]; rfl
  · rw [hcore, Domain.core_setLsc, Domain.splitCores, Domain.core_setCore_other _ _ hmh,
      Domain.core_loadShadow_other _ _ hpm.symm]
  · rw [hcore, Domain.core_setLsc, Domain.splitCores, Domain.core_setCore_other _ _ hph, Domain.core_loadShadow]
  · rw [hcore, Domain.core_setLsc, Domain.splitCores, Domain.core_setCore]
  · rw [hlsc]; rfl
  · refine hy.mem_evq (Domain.mem_raiseAt _ _ 0x76 1 ?_ ?_)
    · rw [hr.evq]
      simpa [Domain.splitCores, Domain.loadShadow] using hroom
    · rw [hr.evNext]
      simpa [Domain.splitCores, Domain.loadShadow] using hnext
  · rw [hmem]
    simp [Domain.splitCores, Domain.loadShadow]

/-- What a join leaves (R401). -/
theorem Domain.joinEffect_effect (hp : x.lsc.split = some p) (hy : Counted x.joinEffect y) :
    y.main = some m ∧ y.shadow = some p ∧ y.spare = some h ∧ y.lsc.split = none ∧ y.rgB LSC_STAT_SPLIT = false ∧
      y.rgB LSC_STAT_JOINPEND = false ∧ y.core m = x.core m ∧
      y.core p = { (x.core p).adopt (x.core m) with
        run := .running, wait := .none, loads := [], rsv := (x.core m).rsv, retired := (x.core m).retired
        postedErrs := (x.core m).postedErrs } ∧
      y.core h = { x.core h with run := .held, wait := .none, loads := [] } ∧
      ((x.evq.filter (fun e => e.src == (0x76 : BitVec 7))).length < 3 → sget 0 x.evNext 0x76 ≤ c + 96 →
        ⟨0x76, c + 96, 2⟩ ∈ y.evq ∧ (x.lsc.forced = true → ⟨0x76, c + 97, 3⟩ ∈ y.evq)) ∧ y.mem = x.mem := by
  rw [Domain.joinEffect_eq hm hh hc hp hph] at hy
  extract_lets z at hy
  have hr := ((x.joinCores m h p).roled (engIdx_lt p) (engIdx_lt h) false
    (show LSC_STAT_JOINPEND.reg = _ ∧ _ by decide)).setLsc fun l => { l with split := none, forced := false }
  have hz : Counted z y := by
    refine .trans ?_ hy
    split
    · exact .raiseAt _ _ 0x76 3 (by decide)
    · exact .refl z
  obtain ⟨hmain, hshadow, hspare, hlsc, hsplit, hpend, hcore, hmem⟩ :=
    hr.counted (by decide) ((Counted.raiseAt _ (c + 96) 0x76 2 (by decide)).trans hz)
  rw [engOf_idx] at hshadow hspare
  refine ⟨?_, hshadow, hspare, ?_, hsplit, hpend, ?_, ?_, ?_, fun hroom hnext => ?_, ?_⟩
  · rw [hmain, ← hm]
    exact (((x.setCore p (x.core p).idle).loadShadow m p).main_setCore _ _).trans
      ((Domain.main_loadShadow _ _ _).trans (x.main_setCore _ _))
  · rw [hlsc]; rfl
  · rw [hcore, Domain.core_setLsc, Domain.joinCores, Domain.core_setCore_other _ _ hmh,
      Domain.core_loadShadow_other _ _ hpm.symm, Domain.core_setCore_other _ _ hpm.symm]
  · rw [hcore, Domain.core_setLsc, Domain.joinCores, Domain.core_setCore_other _ _ hph, Domain.core_loadShadow,
      Domain.core_setCore, Domain.core_setCore_other _ _ hpm.symm]
    rfl
  · rw [hcore, Domain.core_setLsc, Domain.joinCores, Domain.core_setCore]
    rfl
  · have hq : x.evq = (x.joinCores m h p).evq := by simp [Domain.joinCores, Domain.loadShadow]
    have hn : x.evNext = (x.joinCores m h p).evNext := by simp [Domain.joinCores, Domain.loadShadow]
    rw [hq, show (x.joinCores m h p).evq = _ from hr.evq.symm] at hroom
    rw [hn, show (x.joinCores m h p).evNext = _ from hr.evNext.symm] at hnext
    refine ⟨hz.mem_evq (Domain.mem_raiseAt _ _ 0x76 2 (Nat.lt_succ_of_lt hroom) hnext), fun hf => hy.mem_evq ?_⟩
    rw [if_pos hf]
    exact Domain.mem_raiseAt_twice _ _ 0x76 2 3 hroom hnext
  · rw [hmem]
    simp [Domain.joinCores, Domain.loadShadow]

end

/-- A split that finds no spare at its boundary lapses (log 11). -/
theorem Domain.splitEffect_of_no_spare {x : Domain} (h : x.spare = none) (hc : x.effectCycle.isSome = true) :
    x.splitEffect = x.setB LSC_STAT_SPLITPEND false := by
  unfold Domain.splitEffect
  rw [h]
  cases x.main <;> cases x.shadow <;> exact if_pos hc

/-! ## SPLITMAX, overdue checkpoints, the code check and the counters (R398, R401, R407, R409) -/

/-- An overdue split asks for its join as software would, and is noted as forced (R401). -/
theorem Domain.splitmax_effect {x y : Domain} (h : x.splitmaxDue = true) (hy : Counted x.splitmax y) :
    y.rgB LSC_STAT_JOINPEND = true ∧ y.lsc.forced = true ∧ y.lsc.reqAt = x.time ∧ y.mem = x.mem ∧
      ∀ e, y.core e = x.core e := by
  simp only [Domain.splitmaxDue, Bool.and_eq_true, Bool.not_eq_true'] at h
  obtain ⟨⟨⟨hsplit, hpend⟩, -⟩, -⟩ := h
  have hreq := x.rgB_requestJoin hsplit
  have hask := Asked.requestJoin x
  refine ⟨(hy.rgB _ (by decide)).trans hreq, by rw [hy.lsc]; rfl, ?_, hy.mem.trans hask.mem, fun e => ?_⟩
  · have hn : x.lsc.split.isNone = false := by
      rw [← Option.not_isSome, hsplit]
      rfl
    rw [hy.lsc, Domain.splitmax, Domain.requestJoin, hn, hpend]
    rfl
  · rw [hy.core, Domain.splitmax, Domain.core_setLsc, hask.core]

/-- A flag of LSC_STAT that is set, told with its code. -/
theorem Domain.flag_lsDiag {x z y : Domain} {f : Fld} (hf : f.quiet ∧ f.width = 1) {code : Nat} {g : Lsc → Lsc}
    (hz : z = (x.setB f true).setLsc g) (hroom : HasRoom x 0x77) (hy : Counted (z.lsDiag code) y) :
    y.rgB f = true ∧ Waits x y 0x77 code ∧ y.mem = x.mem ∧ ∀ e, y.core e = x.core e := by
  have hc := (Counted.raise z 0x77 code (by decide)).trans hy
  subst hz
  refine ⟨(hc.rgB _ hf.1).trans (x.rgB_setB_same _ true hf.1.1 hf.2), hy.waits (Waits.raise _ x 0x77 code hroom rfl),
    hc.mem, fun e => ?_⟩
  rw [hc.core, Domain.core_setLsc, Domain.core_setB]

theorem Domain.ckptOverdue_effect {x y : Domain} (hroom : HasRoom x 0x77) (hy : Counted x.ckptOverdue y) :
    y.rgB LSC_STAT_CKOLD = true ∧ y.ckptDue = false ∧ Waits x y 0x77 1 ∧ y.mem = x.mem ∧ ∀ e, y.core e = x.core e := by
  obtain ⟨hflag, hwaits, hsame⟩ := Domain.flag_lsDiag (by decide) rfl hroom hy
  refine ⟨hflag, ?_, hwaits, hsame⟩
  have htold : y.lsc.ckTold = true := by
    rw [hy.lsc, Domain.ckptOverdue, Domain.lsDiag, Domain.raise_lsc]
    rfl
  unfold Domain.ckptDue
  rw [htold, Bool.not_true, Bool.and_false, Bool.false_and]

theorem Domain.codeCheck_effect {x y : Domain} (h : x.rgB LSC_CTL_CODECHK = true) (hroom : HasRoom x 0x77)
    (hy : Counted (x.codeCheck true) y) :
    y.rgB LSC_STAT_CODEERR = true ∧ Waits x y 0x77 3 ∧ y.mem = x.mem ∧ ∀ e, y.core e = x.core e := by
  rw [show x.codeCheck true = (x.setB LSC_STAT_CODEERR true).lsDiag 3 by simp only [Domain.codeCheck, h]; rfl] at hy
  exact Domain.flag_lsDiag (g := fun l => l) (by decide) rfl hroom hy

/-- A code check that is off, or finds the code as its header has it, changes nothing (R407). -/
theorem Domain.codeCheck_of_good {x : Domain} (h : let hd := hdr x.mem x.host x.bank
    x.rgB LSC_CTL_CODECHK = false ∨
      BitVec.ofNat 32 (hd 3) = crc32 (memBytes x.mem (bankKey x.bank 0) (min (hd 1) (headerAt x.host)))) :
    x.codeCheck false = x := by
  unfold Domain.codeCheck Domain.when
  extract_lets hd ok
  have hno : (x.rgB LSC_CTL_CODECHK && (false || !ok)) = false := by
    obtain hoff | hgood := h
    · rw [hoff, Bool.false_and]
    · rw [show ok = true from beq_iff_eq.mpr hgood, Bool.not_true, Bool.or_false, Bool.and_false]
  rw [hno]
  rfl

theorem Domain.rgN_clearKey (d : Domain) (f : Fld) : (d.clearKey f.reg).rgN f = 0 := by
  simp [Domain.rgN, Domain.rg, Domain.clearKey, fld, fget]

/-! ## The obligation -/

/-- Settles O12. The requests and the checkpoint go by the core that makes them; a split and a join by the cores and the
roles they write, after which everything is counting only. -/
theorem splitJoinAndChecks : Obligations.SplitJoinAndChecks := by
  unfold Obligations.SplitJoinAndChecks
  refine ⟨fun s k rd rs1 hp => ⟨fun hr hn => ⟨?split, ?join⟩, fun hr => Ready.ckpt_answers rfl rfl hr hp rfl⟩,
    fun s d m h p hu => ⟨?splitEffect, ?lapse, ?joinEffect, ?splitmax, ?overdue, ?mismatch, ?good, ?clear⟩⟩
  case split =>
    refine (Ready.lsRequest_answers (join := false) (f := LSC_STAT_SPLITPEND) rfl hr rfl rfl hp hn rfl (by decide)).imp ?_
    exact fun t ⟨hc, hm, hreq⟩ => ⟨hc, hm, fun h0 => hreq h0 (Domain.rgB_requestSplit _)⟩
  case join =>
    refine (Ready.lsRequest_answers (join := true) (f := LSC_STAT_JOINPEND) rfl hr rfl rfl hp hn rfl (by decide)).imp ?_
    exact fun t ⟨hc, hm, hreq⟩ => ⟨hc, hm, fun h0 hs => hreq h0 (Domain.rgB_requestJoin _ hs)⟩
  case splitEffect =>
    intro hm hh hs hmh hpm hph hpend c hc
    refine .of rfl hu fun y hy => ?_
    simp only [Domain.when, hpend, if_true] at hy
    exact Domain.splitEffect_effect hm hh hmh hpm hph hc hs hy
  case lapse =>
    intro hpend hs hc
    refine .of rfl hu fun y hy => ?_
    simp only [Domain.when, hpend, if_true, Domain.splitEffect_of_no_spare hs hc] at hy
    exact ⟨(hy.rgB _ (by decide)).trans (Domain.rgB_setB_same _ _ false (by decide) rfl), hy.lsc, hy.mem,
      fun e => (hy.core e).trans (Domain.core_setB _ _ _ _)⟩
  case joinEffect =>
    intro hm hh hs hmh hpm hph hpend c hc
    refine .of rfl hu fun y hy => ?_
    simp only [Domain.when, hpend, if_true] at hy
    exact Domain.joinEffect_effect hm hh hmh hpm hph hc hs hy
  case splitmax =>
    intro hdue
    refine .of rfl hu fun y hy => ?_
    simp only [Domain.when, hdue, if_true] at hy
    exact Domain.splitmax_effect hdue hy
  case overdue =>
    intro hdue hroom
    refine .of rfl hu fun y hy => ?_
    simp only [Domain.when, hdue, if_true] at hy
    exact Domain.ckptOverdue_effect hroom hy
  case mismatch => exact fun hon hroom => .of rfl hu fun y hy => Domain.codeCheck_effect hon hroom hy
  case good =>
    intro hd good hgood
    refine .of rfl hu fun y hy => ?_
    rw [Domain.codeCheck_of_good hgood] at hy
    exact ⟨hy.rgB _ (by decide), hy.lsc, hy.same⟩
  case clear =>
    refine .of rfl hu fun y hy => ?_
    have hzero (f : Fld) (hf : f.quiet) (h : f.reg = LSC_CNT_RESTORE.reg) : y.rgN f = 0 := by
      rw [hy.rgN f hf, ← h, Domain.rgN_clearKey]
    exact ⟨hzero _ (by decide) rfl, hzero _ (by decide) rfl, hzero _ (by decide) rfl, hzero _ (by decide) rfl, hy.lsc,
      hy.mem, fun e => (hy.core e).trans (by cases e <;> rfl)⟩

end Sys2Proof.Machine
end

section
/-! PROOF. Requests of a commit (R130, R152, R153, R159). -/

namespace Sys2Proof.Machine

/-! ## Refusals (R159) -/

theorem Channel.decideCommit_locked (c : Channel) (e : Eng) {mask : BitVec 7} (h6 : mask.getLsbD 6 = true)
    (hu : c.rgB SAFE_STAT_UNLOCKED = false) : c.decideCommit (.core e) mask = 3 := by
  unfold Channel.decideCommit
  rw [h6, hu]
  rfl

theorem Channel.decideCommit_parity (c : Channel) (e : Eng) {mask : BitVec 7} (h6 : mask.getLsbD 6 = false)
    (h3 : mask.getLsbD 3 = false) (hbad : c.planBad.any (named mask) = true) : c.decideCommit (.core e) mask = 5 := by
  unfold Channel.decideCommit
  rw [h6, h3, hbad]
  rfl

/-! ## PLAN.COMMIT at a channel core -/

section
variable {s : State} {n : Chan} {e : Eng} {f : Fetch} {rd rs1 : GReg} {imm : BitVec 7}
  (hr : Ready s ⟨.ch n, e, f⟩ [rd, rs1]) (hp : (s.core (.ch n) e).priv = .system)
include hr hp

/-- With a zero mask the core goes on with 0. -/
theorem Ready.planCommit_retires (h0 : (s.core (.ch n) e).commitMask rs1 imm = 0) :
    (s.ch n).dom.planCommit e f rd rs1 imm = (((s.ch n).dom.coreItem e 12
      ((s.ch n).dom.occAt e (s.core (.ch n) e).pc false)).mapCore e fun x => (x.wr rd 0).next).retireAt e
        (s.core (.ch n) e).pc false := by
  refine ((s.ch n).dom.insn_ready e f true _ _ hr.runs hr.wait hr.brk hr.entry hr.fetch (fun _ => hp) hr.uses).trans ?_
  unfold Core.commitMask at h0
  simp only [show (s.ch n).dom.core e = s.core (.ch n) e from rfl, if_pos h0]
  rfl

/-- With any other mask, and outside a replay, it waits for the status. -/
theorem Ready.planCommit_waits (h0 : (s.core (.ch n) e).commitMask rs1 imm ≠ 0) (hn : (s.ch n).dom.replays e = false) :
    (s.ch n).dom.planCommit e f rd rs1 imm =
      ((s.ch n).dom.coreItem e 12 ((s.ch n).dom.occAt e (s.core (.ch n) e).pc false)).await e (.commit rd) := by
  have hc := Counted.coreItem (s.ch n).dom e 12 ((s.ch n).dom.occAt e (s.core (.ch n) e).pc false) (by decide)
  have hrep := ((Recorded.of_counted hc).replays e).trans hn
  refine ((s.ch n).dom.insn_ready e f true _ _ hr.runs hr.wait hr.brk hr.entry hr.fetch (fun _ => hp) hr.uses).trans ?_
  unfold Core.commitMask at h0
  simp only [show (s.ch n).dom.core e = s.core (.ch n) e from rfl, if_neg h0, hrep, Bool.false_eq_true, if_false]

/-- PLAN.COMMIT with a zero mask (R130). -/
theorem Ready.planCommit_zero (h0 : (s.core (.ch n) e).commitMask rs1 imm = 0) :
    Answers (.planCommit ⟨.ch n, e, f⟩ rd rs1 imm) s fun t => t.core (.ch n) e = ((s.core (.ch n) e).wr rd 0).next.retiring ∧
      (t.ch n).cmt = (s.ch n).cmt ∧ (t.ch n).live = (s.ch n).live := by
  have hc := Counted.coreItem (s.ch n).dom e 12 ((s.ch n).dom.occAt e (s.core (.ch n) e).pc false) (by decide)
  have hcore : ((s.ch n).dom.planCommit e f rd rs1 imm).core e = ((s.core (.ch n) e).wr rd 0).next.retiring := by
    rw [hr.planCommit_retires hp h0, Domain.core_retireAt, Domain.core_mapCore, hc.core]
    rfl
  have hch : (s.ch n).planCommit e f rd rs1 imm = (s.ch n).mapDom (·.planCommit e f rd rs1 imm) := by
    unfold Channel.planCommit
    refine if_neg fun ⟨_, hw⟩ => ?_
    rw [Channel.mapDom_dom, hcore] at hw
    cases hw
  have hs := (s.onCh_settled n (·.planCommit e f rd rs1 imm) hr.up).ch
  rw [hch] at hs
  exact ⟨_, rfl, (hs.dom.core e).trans hcore, hs.cmt, hs.live⟩

/-- What a request outside a window leaves: the request itself, with its snapshot and decision (R153, R159). -/
theorem Ready.planCommit_request (h0 : (s.core (.ch n) e).commitMask rs1 imm ≠ 0) (hn : (s.ch n).dom.replays e = false)
    (hw : (s.ch n).cmt = none) : (s.ch n).planCommit e f rd rs1 imm =
      ((s.ch n).mapDom (·.planCommit e f rd rs1 imm)).takeCommit (.core e) ((s.core (.ch n) e).commitMask rs1 imm) := by
  have hcore : (((s.ch n).dom.planCommit e f rd rs1 imm).core e).wait = .commit rd := by
    rw [hr.planCommit_waits hp h0 hn, Domain.core_await]
  have hwin : ((s.ch n).mapDom (·.planCommit e f rd rs1 imm)).inWindow = none := by
    unfold Channel.inWindow
    rw [Channel.mapDom_cmt, hw]
  unfold Channel.planCommit
  refine (if_pos ⟨hr.wait, hcore⟩).trans ?_
  unfold Channel.requestCommit
  rw [hwin]
  rfl

/-- PLAN.COMMIT with a mask, outside a window and a replay (R130, R153). -/
theorem Ready.planCommit_taken {mask : BitVec 7} (hm : (s.core (.ch n) e).commitMask rs1 imm = mask) (h0 : mask ≠ 0)
    (hn : (s.ch n).dom.replays e = false) (hw : (s.ch n).cmt = none) :
    Answers (.planCommit ⟨.ch n, e, f⟩ rd rs1 imm) s fun t => (t.core (.ch n) e).wait = .commit rd ∧
      (t.core (.ch n) e).pc = (s.core (.ch n) e).pc ∧ (t.core (.ch n) e).retired = (s.core (.ch n) e).retired ∧
      (∃ st, (t.ch n).cmt = some ⟨.core e, mask, (s.ch n).now, st, (s.ch n).planThen.filter fun p => named mask p.1⟩ ∧
        (mask.getLsbD 6 = true → (s.ch n).rgB SAFE_STAT_UNLOCKED = false → st = 3) ∧
        (mask.getLsbD 6 = false → mask.getLsbD 3 = false → (s.ch n).planBad.any (named mask) = true → st = 5)) ∧
      (t.ch n).live = (s.ch n).live ∧ (t.ch n).plan = (s.ch n).plan := by
  subst hm
  have hc := Counted.coreItem (s.ch n).dom e 12 ((s.ch n).dom.occAt e (s.core (.ch n) e).pc false) (by decide)
  have hwaits := hr.planCommit_waits hp h0 hn
  have hstep : CoreStep (s.ch n).dom ((s.ch n).dom.planCommit e f rd rs1 imm) e := by
    rw [hwaits]
    exact (CoreStep.of_counted e hc).trans (.await _ e _)
  have hs := (s.onCh_settled n (·.planCommit e f rd rs1 imm) hr.up).ch
  rw [hr.planCommit_request hp h0 hn hw] at hs
  have hcore := hs.dom.core e
  rw [show (Channel.takeCommit _ _ _).dom.core e = ((s.ch n).dom.planCommit e f rd rs1 imm).core e from rfl, hwaits,
    Domain.core_await, hc.core] at hcore
  refine ⟨_, rfl, congrArg Core.wait hcore, (congrArg Core.pc hcore :), (congrArg Core.retired hcore :),
    ⟨((s.ch n).mapDom (·.planCommit e f rd rs1 imm)).decideCommit (.core e) _, hs.cmt.trans ?_,
      fun h6 hu => Channel.decideCommit_locked _ e h6 ?_,
      fun h6 h3 hbad => Channel.decideCommit_parity _ e h6 h3 hbad⟩, hs.live, hs.plan⟩
  · unfold Channel.takeCommit Channel.now
    rw [Channel.mapDom_dom, hstep.time]
    rfl
  · exact (congrArg (· != 0) (hstep.rg SAFE_STAT_UNLOCKED (by decide) (by decide))).trans hu

end

end Sys2Proof.Machine
end

section
/-! PROOF. What the commit controller relies on while the banks swap: none of the blocks that act on their new live bank writes
the live bank, the controller's own state, the commit counts or EV_CMTOK (R149, R154, R160, R161). -/

namespace Sys2Proof.Machine

/-- What the commit controller relies on is in `b` as it is in `a`: time, the live bank, the requests, the commit counts, and
what waits of EV_CMTOK. -/
structure Stands (a b : Channel) : Prop where
  live : b.live = a.live
  cmt : b.cmt = a.cmt
  retiring : b.retiring = a.retiring
  time : b.dom.time = a.dom.time
  counts : rget b.dom.regs EVT_CMTCNT_ACCEPTED.reg = rget a.dom.regs EVT_CMTCNT_ACCEPTED.reg
  waiting : b.dom.evq.filter (fun x => x.src == BitVec.ofNat 7 0x2F) = a.dom.evq.filter fun x => x.src == BitVec.ofNat 7 0x2F
  next : sget 0 b.dom.evNext 0x2F = sget 0 a.dom.evNext 0x2F

theorem Stands.refl (a : Channel) : Stands a a := ⟨rfl, rfl, rfl, rfl, rfl, rfl, rfl⟩

theorem Stands.ite {a x y : Channel} {p : Prop} [Decidable p] (hx : Stands a x) (hy : Stands a y) :
    Stands a (if p then x else y) := by
  split
  · exact hx
  · exact hy

theorem Stands.foldl {α : Type} {a c : Channel} {f : Channel → α → Channel} (hf : ∀ c x, Stands a c → Stands a (f c x))
    (l : List α) (h : Stands a c) : Stands a (l.foldl f c) := by
  induction l generalizing c with
  | nil => exact h
  | cons x l ih => exact ih (hf c x h)

section
variable {a c : Channel} (h : Stands a c)
include h

/-! ## Blocks, registers and events -/

/-- The states of the blocks and the other banks are none of theirs. -/
theorem Stands.block {p rf hp po pb rn rh hb w ps ad pw gd ca sa rt dr} :
    Stands a ⟨c.dom, p, c.live, c.cmt, rf, c.retiring, hp, po, pb, rn, rh, hb, w, ps, ad, pw, gd, ca, sa, rt, dr⟩ :=
  ⟨h.live, h.cmt, h.retiring, h.time, h.counts, h.waiting, h.next⟩

theorem Stands.setSpr (f : Spr → Spr) : Stands a (c.mapDom (·.setSpr f)) :=
  ⟨h.live, h.cmt, h.retiring, h.time, h.counts, h.waiting, h.next⟩

/-- A register of a block is none of the controller's. -/
theorem Stands.set {f : Fld} (v : Word) (hf : 0x20000 ≤ f.reg) : Stands a (c.set f v) :=
  ⟨h.live, h.cmt, h.retiring, h.time,
    ((rget_rput _ _ _ _).trans (if_neg (Nat.ne_of_gt (Nat.lt_of_lt_of_le (by decide) hf)))).trans h.counts, h.waiting, h.next⟩

theorem Stands.setN {f : Fld} (n : Nat) (hf : 0x20000 ≤ f.reg) : Stands a (c.setN f n) := h.set _ hf

theorem Stands.setB {f : Fld} (b : Bool) (hf : 0x20000 ≤ f.reg) : Stands a (c.setB f b) := by
  obtain ⟨hlive, hcmt, hret, htime, hcounts, hwait, hnext⟩ := h.set (ofB b) hf
  exact ⟨hlive, hcmt, hret, htime, hcounts, hwait, hnext⟩

theorem Stands.setBit {f : Fld} {k : Nat} (b : Bool) (hf : 0x20000 ≤ f.reg) : Stands a (c.setB (f.bit k) b) := h.setB b hf

theorem Stands.count {f : Fld} (hf : 0x20000 ≤ f.reg) : Stands a (c.count f) := h.setN _ hf

/-- An event of another source leaves EV_CMTOK. -/
theorem Stands.raise {ev : Nat} (arg : Nat) (hev : ev < 128 ∧ ev ≠ 0x2F := by decide) : Stands a (c.raise ev arg) := by
  obtain ⟨hlt, hne⟩ := hev
  unfold Channel.raise Domain.raise Domain.raiseAt
  split
  · refine ⟨h.live, h.cmt, h.retiring, h.time, h.counts, ?_, ?next⟩
    case next => simpa only [sget_sset_other _ _ _ hne] using h.next
    have hsrc : (BitVec.ofNat 7 ev == BitVec.ofNat 7 0x2F) = false := by
      rw [beq_eq_false_iff_ne]
      intro heq
      have := congrArg BitVec.toNat heq
      rw [BitVec.toNat_ofNat, BitVec.toNat_ofNat, Nat.mod_eq_of_lt hlt] at this
      exact hne this
    simp only [List.filter_append, List.filter_cons, hsrc, Bool.false_eq_true, if_false, List.filter_nil, List.append_nil]
    exact h.waiting
  · have hreg : (0x10030 + 4 * (ev / 32)) ≠ EVT_CMTCNT_ACCEPTED.reg := by
      show 0x10030 + 4 * (ev / 32) ≠ 0x100C8
      omega
    exact ⟨h.live, h.cmt, h.retiring, h.time, ((rget_rput _ _ _ _).trans (if_neg hreg)).trans h.counts, h.waiting, h.next⟩

/-! ## Weir and the position (R193, R203, R212 to R241) -/

theorem Stands.restartThread (t : Thread) : Stands a (c.restartThread t) := h.block

theorem Stands.toAsyncHere : Stands a c.toAsyncHere := h.block

theorem Stands.abandonTransition : Stands a c.abandonTransition := .ite (h.toAsyncHere.raise _) h

theorem Stands.commitWeir (old : List (Nat × Word)) (handover : Bool) : Stands a (c.commitWeir old handover) := by
  have hthreads := h.foldl (f := Channel.commitThread old) (fun c t h => .ite (h.restartThread t) h) [Thread.t0, .t1, .t2, .t3]
  exact .ite hthreads hthreads.abandonTransition

theorem Stands.emUpdate : Stands a c.emUpdate := by
  unfold Channel.emUpdate
  exact .ite (.ite (h.block.setB _ (by decide)) h.block) h

theorem Stands.commitPos (old : List (Nat × Word)) : Stands a (c.commitPos old) := by
  unfold Channel.commitPos
  extract_lets ps rx resync back c1 _ c2 _ c3 _ fresh _ c4 picked _ c5 _ c6 _ c7 _ c8 c9 c10 _
  have h1 : Stands a c1 := h.setB _ (by decide)
  have h2 : Stands a c2 := .ite h1.block h1
  have h3 : Stands a c3 := .ite (h2.block.setB _ (by decide)) h2
  have h4 : Stands a c4 := .ite (h3.block.setB _ (by decide)) h3
  have h5 : Stands a c5 := .ite h4.block h4
  have h6 : Stands a c6 := .ite h5.block h5
  have h7 : Stands a c7 :=
    .ite (.ite h6.block ((h6.block.setB _ (by decide)).setB _ (by decide))) h6
  have h8 : Stands a c8 := h7.block
  have h9 : Stands a c9 := h8.setB _ (by decide)
  have h10 : Stands a c10 := .ite (h9.setB _ (by decide)) h9
  exact .ite h10.block h10.emUpdate

/-! ## Conversions and their spares (R242 to R271, R451, R458) -/

theorem Stands.commitDrift (old : List (Nat × Word)) (p : Nat) : Stands a (Channel.commitDrift old c p) :=
  .ite ((h.setN _ (by exact Nat.le_add_right_of_le (by decide))).setN _ (by exact Nat.le_add_right_of_le (by decide))) h

theorem Stands.setReady (b : Bool) : Stands a (c.setReady b) := h.block.setB _ (by decide)

theorem Stands.refFall : Stands a c.refFall := ((h.setReady false).setB _ (by decide)).raise _

theorem Stands.calError (e : Nat) : Stands a (c.calError e) := ((h.setN _ (by decide)).setB _ (by decide)).raise _

theorem Stands.commitClock (old : List (Nat × Word)) (k : Nat) : Stands a (Channel.commitClock old c k) :=
  .ite (.ite h h.block) h.block

theorem Stands.commitSd (old : List (Nat × Word)) (d : Nat) : Stands a (Channel.commitSd old c d) := .ite h.block h

theorem Stands.commitCmp (old : List (Nat × Word)) (k : Nat) : Stands a (Channel.commitCmp old c k) := .ite h.block h

theorem Stands.commitAdc (old : List (Nat × Word)) : Stands a (c.commitAdc old) := by
  unfold Channel.commitAdc
  extract_lets was _ c1 c2 c3 c4 _
  have h1 : Stands a c1 := .ite h.block h
  have h2 : Stands a c2 := .ite h1.refFall h1
  have h3 : Stands a c3 := (h2.foldl (fun c k h => h.commitClock old k) _).foldl (fun c d h => h.commitSd old d) _
  have h4 : Stands a c4 := h3.foldl (fun c k h => h.commitCmp old k) _
  exact .ite ((h4.block.setB _ (by decide)).calError 5) h4

theorem Stands.cmpTestEnd (k : Nat) : Stands a (c.cmpTestEnd k) :=
  (h.setBit _ (by decide)).setSpr _

theorem Stands.commitCmpTest (old : List (Nat × Word)) : Stands a (c.commitCmpTest old) := by
  unfold Channel.commitCmpTest
  split
  · exact h
  · exact .ite (h.cmpTestEnd _) h

/-! ## The bridge (R272 to R306) -/

theorem Stands.setLeg (k : Nat) (l : Leg) : Stands a (c.setLeg k l) := h.block

theorem Stands.clearCarry (k : Nat) : Stands a (c.clearCarry k) :=
  (h.setLeg k _).set _ (by exact Nat.le_add_right_of_le (by decide))

theorem Stands.clearCarries : Stands a c.clearCarries := h.foldl (fun _ k h => h.clearCarry k) _

theorem Stands.clampMimax (was : Bool) : Stands a (c.clampMimax was) :=
  .ite (.ite (h.setB _ (by decide)) ((h.setB _ (by decide)).raise _)) h

theorem Stands.commitPwm (old : List (Nat × Word)) : Stands a (c.commitPwm old) := by
  unfold Channel.commitPwm
  extract_lets changed c1 c2 _ c3 c4 c5 _
  have h1 : Stands a c1 := .ite h.clearCarries h
  have h2 : Stands a c2 := h1.foldl (fun _ k h => h.setLeg k _) _
  have h3 : Stands a c3 := h2.block
  have h5 : Stands a c5 := (h3.clampMimax _).foldl (fun c k h => .ite (h.clearCarry k) h) _
  exact .ite (h5.block.setB _ (by decide)) h5.block

/-! ## Gate drivers (R364 to R383, R263) -/

theorem Stands.reportLevel (x : Nat) (active : Bool) : Stands a (c.reportLevel x active) := by
  have hset : Stands a (c.setB (GDI_GFIN_ACT.bit x) active) := h.setBit _ (by decide)
  exact .ite hset.block hset

theorem Stands.commitPolarity (old : List (Nat × Word)) : Stands a (c.commitPolarity old) :=
  have hset := h.set _ (by decide)
  .ite (hset.foldl (fun _ x h => h.reportLevel x _) _) hset

theorem Stands.setCmp (k : Nat) (on : Bool) : Stands a (c.setCmp k on) := h.block

theorem Stands.brk (on : Bool) : Stands a (c.brk on) := (h.setB _ (by decide)).block

theorem Stands.stage1On : Stands a c.stage1On := by
  have hset : Stands a ((((c.setCmp 4 true).setB GDI_STAT_OV1 true).count GDI_ERRCNT_OV1).raise 0x03) :=
    (((h.setCmp 4 true).setB _ (by decide)).count (by decide)).raise _
  exact .ite (hset.brk true) hset

theorem Stands.stage1Off : Stands a c.stage1Off := by
  have hset : Stands a (((c.setCmp 4 false).setB GDI_STAT_OV1 false).raise 0x04) :=
    ((h.setCmp 4 false).setB _ (by decide)).raise _
  exact .ite (hset.brk false) hset

theorem Stands.vdcLevel (k : Nat) (on : Bool) : Stands a (c.vdcLevel k on) :=
  .ite h (.ite (.ite h.stage1On h.stage1Off) (.ite (((h.setCmp 5 on).setB _ (by decide)).block) (h.setCmp 6 on).block))

theorem Stands.vdcFollow : Stands a c.vdcFollow := h.foldl (fun _ k h => .ite h (h.vdcLevel k _)) _

theorem Stands.commitVdc (old : List (Nat × Word)) : Stands a (c.commitVdc old) := by
  unfold Channel.commitVdc
  extract_lets hold changed c1 c2 c3 _ c4
  have hhold {c : Channel} (k : Nat) (p : Bool) (h : Stands a c) : Stands a (hold k p c) := .ite h.block h
  have h3 : Stands a c3 := hhold _ _ (hhold _ _ (hhold _ _ h))
  exact .ite h3.vdcFollow (h3.block.foldl (fun _ k h => h.vdcLevel k false) _)

theorem Stands.setFault (x : Nat) : Stands a (c.setFault x) :=
  .ite h ((((h.setBit _ (by decide)).setBit _ (by decide)).count (by decide)).raise _)

theorem Stands.commitFault (x : Nat) : Stands a (c.commitFault x) :=
  .ite (h.setBit _ (by decide)) (.ite (h.setFault x) h)

theorem Stands.commitGdi (old : List (Nat × Word)) : Stands a (c.commitGdi old) := by
  unfold Channel.commitGdi
  extract_lets c1 c2 c3
  have h2 : Stands a c2 := ((h.commitPolarity old).commitVdc old).foldl (fun _ x h => h.commitFault x) _
  have h3 : Stands a c3 := .ite (h2.setB _ (by decide)) h2
  exact .ite (.ite (h3.brk false) h3) (.ite (h3.brk true) h3)

/-! ## Cascade and the supervisor (R307 to R356) -/

theorem Stands.dropPending (bits : Nat) : Stands a (c.dropPending bits) := by
  unfold Channel.dropPending
  split
  · exact ((h.block.setB _ (by decide)).setB _ (by decide)).raise _
  · exact h

theorem Stands.injCommit (old : List (Nat × Word)) : Stands a (c.injCommit old) :=
  .ite (.ite ((h.block.setB _ (by decide)).setN _ (by decide)) (h.setB _ (by decide))) h

theorem Stands.refreshClamps : Stands a c.refreshClamps :=
  .ite ((h.setN _ (by decide)).raise _) (h.setN _ (by decide))

theorem Stands.commitCas (old : List (Nat × Word)) : Stands a (c.commitCas old) := by
  unfold Channel.commitCas
  extract_lets c1 c2 c3 _ c4
  have h1 : Stands a c1 := h.setB _ (by decide)
  have h2 : Stands a c2 := .ite h1 (h1.dropPending _)
  have h3 : Stands a c3 := .ite h2 (h2.setB _ (by decide))
  have h4 : Stands a c4 := .ite h3.block h3
  exact (h4.injCommit old).refreshClamps

theorem Stands.setSup (f : Sup → Sup) : Stands a (c.setSup f) := h.block

theorem Stands.commitSup (old : List (Nat × Word)) : Stands a (c.commitSup old) := by
  refine .ite (.setSup (.set ?_ _ (by decide)) _) h
  exact ((((((h.setN _ (by decide)).setN _ (by decide)).setN _ (by decide)).setB _ (by decide)).setB _ (by decide)).setN _
    (by decide)).set _ (by decide)

/-! ## SAFE (R410 to R440) -/

theorem Stands.setSafe (f : Safe → Safe) : Stands a (c.setSafe f) := h.block
theorem Stands.setConf (k : Nat) (b : Bool) : Stands a (c.setConf k b) := h.block

theorem Stands.commitLog (old : List (Nat × Word)) (who engine o : Nat) : Stands a (Channel.commitLog old who engine c o) :=
  .ite h (.ite (h.count (by decide)) (h.setSafe _))

theorem Stands.kout (k : Nat) (close : Bool) : Stands a (c.kout k close) :=
  .ite h ((h.setBit _ (by decide)).setConf k _)

theorem Stands.dropLegs : Stands a c.dropLegs :=
  (h.foldl (fun _ k h => h.setLeg k _) _).clearCarries.block

theorem Stands.safeEval : Stands a c.safeEval := by
  unfold Channel.safeEval
  extract_lets cond c1 c2 dem c3
  have h1 : Stands a c1 := .ite (h.setB _ (by decide)) h
  have h2 : Stands a c2 := h1.setSafe _
  have h3 : Stands a c3 := h2.setB _ (by decide)
  exact .ite ((h2.setB _ (by decide)).setSafe _).dropLegs (.ite (.ite (h3.setSafe _) (h3.raise _)) h2)

theorem Stands.kFault (k kind : Nat) : Stands a (c.kFault k kind) :=
  ((((h.setBit _ (by decide)).setN _ (by show 0x20000 ≤ 0x80104; decide)).raise _).kout k false).safeEval

theorem Stands.kReport (k : Nat) (closed : Bool) : Stands a (c.kReport k closed) := by
  have hset : Stands a (c.setB (SAFE_STAT_KFB.bit k) closed) := h.setBit _ (by decide)
  exact .ite (.ite (hset.setConf k _) (.ite (hset.kFault k _) hset)) (hset.setConf k _)

theorem Stands.commitContactor (old : List (Nat × Word)) (k : Nat) : Stands a (Channel.commitContactor old c k) := by
  unfold Channel.commitContactor
  extract_lets c1
  have h1 : Stands a c1 := .ite (h.kReport k _) h
  exact .ite h1 (((h1.setBit _ (by decide)).setN _ (by show 0x20000 ≤ 0x80104; decide)).kout k false)

theorem Stands.tpRefresh : Stands a c.tpRefresh := by
  unfold Channel.tpRefresh
  extract_lets s c1 c2
  have h1 : Stands a c1 := .ite (h.setSafe _) h
  have h2 : Stands a c2 := .ite (h1.setSafe _) h1
  exact h2.setB _ (by decide)

theorem Stands.commitSafe (old : List (Nat × Word)) (who engine : Nat) : Stands a (c.commitSafe old who engine) := by
  unfold Channel.commitSafe
  extract_lets c1 c2 tp c3 _ c4
  have h1 : Stands a c1 := h.foldl (fun _ o h => h.commitLog old who engine o) _
  have h2 : Stands a c2 := h1.foldl (fun _ k h => h.commitContactor old k) _
  have h3 : Stands a c3 := .ite (h2.setSafe _) h2
  have h4 : Stands a c4 := .ite h3.block h3
  exact h4.tpRefresh.safeEval

end

/-! ## The swap -/

/-- A swap for a core takes the named banks, and leaves the rest of what the controller relies on (R149, R154). -/
theorem Stands.swapBanks (c : Channel) {r : CommitReq} {e : Eng} (hr : r.by_ = .core e) :
    Stands { c with live := mergeBanks r.mask r.snapshot c.live } (c.swapBanks r) := by
  unfold Channel.swapBanks
  rw [hr]
  extract_lets old c0 at_ c1 c2 c3 c4 c5 c6 who c7
  have h1 : Stands c0 c1 := .ite ((Stands.refl c0).commitWeir old _) (.refl c0)
  have h2 : Stands c0 c2 := .ite (h1.commitPos old) h1
  have h3 : Stands c0 c3 := by
    clear_value c2
    exact .ite (((h2.commitAdc old).commitCmpTest old).foldl (fun _ p h => h.commitDrift old p) _) h2
  have h4 : Stands c0 c4 := .ite (h3.commitPwm old) h3
  have h5 : Stands c0 c5 := .ite ((h4.commitGdi old).commitCmpTest old) h4
  have h6 : Stands c0 c6 := .ite ((h5.commitCas old).commitSup old) h5
  exact .ite (h6.commitSafe old _ _) h6

end Sys2Proof.Machine
end

section
/-! PROOF. The edges of a commit's window (R149, R153 to R156, R160, R161), and the obligation. -/

namespace Sys2Proof.Machine

/-! ## Held plan writes (R155, R156) -/

theorem Channel.foldl_planPut (l : List (Nat × Word)) (c : Channel) :
    ∃ p o, l.foldl (fun c e => c.planPut e.1 e.2) c = { c with plan := p, planOld := o } := by
  induction l generalizing c with
  | nil => exact ⟨c.plan, c.planOld, rfl⟩
  | cons x l ih =>
    obtain ⟨p, o, h⟩ := ih (c.planPut x.1 x.2)
    exact ⟨p, o, h⟩

/-- Held writes go to the plan banks alone. -/
theorem Channel.landHeld_eq (c : Channel) : ∃ p o h, c.landHeld = { c with plan := p, planOld := o, heldPlan := h } := by
  unfold Channel.landHeld
  extract_lets keep land
  obtain ⟨p, o, h⟩ := Channel.foldl_planPut land { c with heldPlan := c.heldPlan.filter fun e => named keep e.1 }
  exact ⟨p, o, _, h⟩

/-! ## What a recorded outcome leaves in the domain (R160, R161) -/

/-- An event writes no register beyond the overrun flags. -/
theorem Domain.rget_raiseAt (d : Domain) (t ev arg : Nat) {k : Nat} (hk : 0x10040 ≤ k) (hev : ev < 128) :
    rget (d.raiseAt t ev arg).regs k = rget d.regs k := by
  unfold Domain.raiseAt
  split
  · rfl
  · refine (rget_rput _ _ _ _).trans (if_neg ?_)
    show 0x10030 + 4 * (ev / 32) ≠ k
    omega

theorem Domain.rget_setN (d : Domain) (f : Fld) (n : Nat) {k : Nat} (hk : f.reg ≠ k) :
    rget (d.setN f n).regs k = rget d.regs k := (rget_rput _ _ _ _).trans (if_neg hk)

/-- The status of a request, once it is written, stays while it is counted and told; the count goes up by one. -/
theorem Domain.recorded_effect {d z : Domain} {status : Word} {q ev : Nat} {f : Fld} (hev : ev < 128)
    (hf : f.reg = EVT_CMTCNT_ACCEPTED.reg ∧ f.hi < 32 ∧ f.width = 16)
    (hstat : rget z.regs EVT_CMTSTAT_RULE.reg = status) (hcount : z.rgN f = d.rgN f) :
    let y := (z.count f).raiseAt q ev 0
    rget y.regs EVT_CMTSTAT_RULE.reg = status ∧ y.rgN f = satN 65535 (d.rgN f + 1) ∧
      ((z.evq.filter (fun x => x.src == BitVec.ofNat 7 ev)).length < 4 → sget 0 z.evNext ev ≤ q →
        ⟨BitVec.ofNat 7 ev, q, 0⟩ ∈ y.evq) := by
  intro y
  obtain ⟨hreg, hhi, hwidth⟩ := hf
  refine ⟨?_, ?_, fun hroom hnext => Domain.mem_raiseAt _ q ev 0 hroom hnext⟩
  · rw [Domain.rget_raiseAt _ q ev 0 (by decide) hev]
    exact (Domain.rget_setN z f _ (by rw [hreg]; decide)).trans hstat
  · have hr : y.rgN f = (z.count f).rgN f := by
      simp only [Domain.rgN, Domain.rg, fld, y, Domain.rget_raiseAt _ q ev 0 (show 0x10040 ≤ f.reg by rw [hreg]; decide) hev]
    rw [hr, Domain.rgN_count_same z f hhi (by omega), hwidth, hcount]
    rfl

/-! ## The edge that ends cycle Q + 10 (R149, R153, R160, R161) -/

theorem fget_reason (w : Word) : fget w 3 0 = w &&& 15 := by
  unfold fget lowMask
  rw [BitVec.ushiftRight_zero]
  rfl

/-- The status and the time of an accepted request, before it is counted and told. -/
def Domain.stampCommit (d : Domain) (r : CommitReq) : Domain :=
  { d with regs := rput d.regs EVT_CMTSTAT_RULE.reg r.status }.setN EVT_CMTTS_TS ((r.q + 10) % 4294967296)

theorem Domain.rget_stampCommit (d : Domain) (r : CommitReq) : rget (d.stampCommit r).regs EVT_CMTSTAT_RULE.reg = r.status :=
  (Domain.rget_setN _ _ _ (by decide)).trans (rget_rput_same _ _ _)

theorem Domain.rget_stampCommit_other (d : Domain) (r : CommitReq) {k : Nat} (hs : EVT_CMTSTAT_RULE.reg ≠ k)
    (ht : EVT_CMTTS_TS.reg ≠ k) : rget (d.stampCommit r).regs k = rget d.regs k :=
  (Domain.rget_setN _ _ _ ht).trans ((rget_rput _ _ _ _).trans (if_neg hs))

theorem Domain.rgN_stampCommit (d : Domain) (r : CommitReq) :
    (d.stampCommit r).rgN EVT_CMTTS_TS = (r.q + 10) % 4294967296 :=
  Domain.rgN_setN_same _ _ _ (by decide) (Nat.mod_lt _ (by decide)) (by decide)

/-- A field goes by its register. -/
theorem Domain.rgN_congr {a b : Domain} {f : Fld} (h : rget b.regs f.reg = rget a.regs f.reg) : b.rgN f = a.rgN f := by
  simp only [Domain.rgN, Domain.rg, fld, h]

section
variable {c : Channel} {r : CommitReq} {e : Eng} (hb : r.by_ = .core e)
include hb

theorem Channel.recordStatus_accepted (h0 : r.status &&& 15 = 0) : c.recordStatus r =
    { c with dom := ((c.dom.stampCommit r).count EVT_CMTCNT_ACCEPTED).raiseAt (r.q + 10) 0x2F 0
             retiring := c.retiring ++ [r] } := by
  unfold Channel.recordStatus
  rw [hb, fget_reason, h0]
  rfl

theorem Channel.recordStatus_refused (h0 : r.status &&& 15 ≠ 0) : c.recordStatus r =
    { c with dom := ({ c.dom with regs := rput c.dom.regs EVT_CMTSTAT_RULE.reg r.status }.count
               EVT_CMTCNT_REFUSED).raiseAt (r.q + 10) 0x2E 0
             retiring := c.retiring ++ [r] } := by
  unfold Channel.recordStatus
  rw [hb, fget_reason, beq_eq_false_iff_ne.mpr h0]
  rfl

end

/-! ## The parts of an edge -/

/-- The request whose window is over ends. -/
def Channel.endDue (c : Channel) : Channel :=
  match c.cmt with
  | some r => if r.q + 10 < c.now then c.endCommit r else c
  | none => c

/-- Each PLAN.COMMIT whose time is over retires. -/
def Channel.retireDue (c : Channel) : Channel :=
  (c.retiring.filter fun r => decide (r.q + 14 ≤ c.now)).foldl Channel.retireCommit
    { c with retiring := c.retiring.filter fun r => decide (c.now < r.q + 14) }

theorem Channel.commitEdge_eq {c : Channel} (h : c.refusals = []) : c.commitEdge = c.endDue.retireDue.landHeld := by
  cases c
  cases h
  rfl

theorem Channel.endDue_of_some {c : Channel} {r : CommitReq} (h : c.cmt = some r) (hq : r.q + 10 < c.now) :
    c.endDue = c.endCommit r := by
  unfold Channel.endDue
  rw [h]
  exact if_pos hq

theorem Channel.endDue_of_none {c : Channel} (h : c.cmt = none) : c.endDue = c := by
  unfold Channel.endDue
  rw [h]

theorem Channel.retireDue_of_early {c : Channel} {r : CommitReq} (h : c.retiring = [r]) (hq : c.now < r.q + 14) :
    c.retireDue = c := by
  have hout : [r].filter (fun r => decide (r.q + 14 ≤ c.now)) = [] := List.filter_cons_of_neg (by simpa using hq)
  have hkeep : [r].filter (fun r => decide (c.now < r.q + 14)) = [r] := List.filter_cons_of_pos (by simpa using hq)
  unfold Channel.retireDue
  rw [h, hout, hkeep, ← h]
  rfl

theorem Channel.retireDue_of_due {c : Channel} {r : CommitReq} (h : c.retiring = [r]) (hq : r.q + 14 ≤ c.now) :
    c.retireDue = { c with retiring := [] }.retireCommit r := by
  have hout : [r].filter (fun r => decide (r.q + 14 ≤ c.now)) = [r] := List.filter_cons_of_pos (by simpa using hq)
  have hkeep : [r].filter (fun r => decide (c.now < r.q + 14)) = [] := List.filter_cons_of_neg (by simpa using hq)
  unfold Channel.retireDue
  rw [h, hout, hkeep]
  rfl

/-! ## What ends with a window -/

/-- A commit of a core that ended: the live bank, the status word, one count and one event. -/
structure Ended (c y : Channel) (r : CommitReq) (live : List (Nat × Word)) (f : Fld) (ev : Nat) : Prop where
  cmt : y.cmt = none
  retiring : y.retiring = [r]
  live : y.live = live
  now : y.now = c.now
  status : rget y.dom.regs EVT_CMTSTAT_RULE.reg = r.status
  count : y.rgN f = satN 65535 (c.rgN f + 1)
  told : (c.dom.evq.filter (fun x => x.src == BitVec.ofNat 7 ev)).length < 4 → sget 0 c.dom.evNext ev ≤ r.q + 10 →
    ⟨BitVec.ofNat 7 ev, r.q + 10, 0⟩ ∈ y.dom.evq

section
variable {c : Channel} {r : CommitReq} {e : Eng} (hb : r.by_ = .core e) (hret : c.retiring = [])
include hb hret

theorem Channel.endCommit_accepted (h0 : r.status &&& 15 = 0) :
    Ended c (c.endCommit r) r (mergeBanks r.mask r.snapshot c.live) EVT_CMTCNT_ACCEPTED 0x2F ∧
      (c.endCommit r).rgN EVT_CMTTS_TS = (r.q + 10) % 4294967296 := by
  have hs := Stands.swapBanks { c with cmt := none } hb
  generalize hw : { c with cmt := none }.swapBanks r = w at hs
  obtain ⟨hlive, hcmt, hretiring, htime, hcounts, hwaiting, hnext⟩ := hs
  have he : c.endCommit r = { w with
      dom := ((w.dom.stampCommit r).count EVT_CMTCNT_ACCEPTED).raiseAt (r.q + 10) 0x2F 0, retiring := w.retiring ++ [r] } := by
    rw [← Channel.recordStatus_accepted hb h0, ← hw, Channel.endCommit, fget_reason, if_pos h0]
  rw [he]
  obtain ⟨hstatus, hcounted, htold⟩ := Domain.recorded_effect (d := c.dom) (q := r.q + 10) (ev := 0x2F) (by decide)
    (show EVT_CMTCNT_ACCEPTED.reg = _ ∧ _ by decide) (w.dom.rget_stampCommit r)
    (Domain.rgN_congr ((w.dom.rget_stampCommit_other r (by decide) (by decide)).trans hcounts))
  refine ⟨⟨hcmt, ?retiring, hlive, ?now, hstatus, hcounted, fun hroom hn => htold ?room ?next⟩, ?time⟩
  case retiring => rw [hretiring, hret, List.nil_append]
  case now => exact (Domain.raiseAt_time _ _ _ _).trans htime
  case room => exact (congrArg List.length hwaiting).trans_lt hroom
  case next => exact (Nat.le_of_eq hnext).trans hn
  case time =>
    rw [← w.dom.rgN_stampCommit r]
    exact Domain.rgN_congr ((Domain.rget_raiseAt _ _ _ _ (by decide) (by decide)).trans (Domain.rget_setN _ _ _ (by decide)))

/-- A refused commit leaves the banks, and what the blocks hold. -/
theorem Channel.endCommit_refused (h0 : r.status &&& 15 ≠ 0) :
    Ended c (c.endCommit r) r c.live EVT_CMTCNT_REFUSED 0x2E ∧
      (c.endCommit r) = { c with cmt := none, dom := (c.endCommit r).dom, retiring := [r] } := by
  have he : c.endCommit r = { c with
      cmt := none
      dom := ({ c.dom with regs := rput c.dom.regs EVT_CMTSTAT_RULE.reg r.status }.count
               EVT_CMTCNT_REFUSED).raiseAt (r.q + 10) 0x2E 0, retiring := [r] } := by
    rw [Channel.endCommit, fget_reason, if_neg h0, Channel.recordStatus_refused hb h0, hret]
    rfl
  rw [he]
  obtain ⟨hstatus, hcounted, htold⟩ := Domain.recorded_effect (d := c.dom) (q := r.q + 10) (ev := 0x2E) (by decide)
    (show EVT_CMTCNT_REFUSED.reg = _ ∧ _ by decide)
    (z := { c.dom with regs := rput c.dom.regs EVT_CMTSTAT_RULE.reg r.status }) (rget_rput_same _ _ _)
    (Domain.rgN_congr ((rget_rput _ _ _ _).trans (if_neg (by decide))))
  exact ⟨⟨rfl, rfl, rfl, Domain.raiseAt_time _ _ _ _, hstatus, hcounted, htold⟩, rfl⟩

end

/-- The edge after a window: the commit ends, no PLAN.COMMIT retires yet, and held plan writes land. -/
theorem Channel.commitEdge_ends {c : Channel} {r : CommitReq} (hrefs : c.refusals = []) (hcmt : c.cmt = some r)
    (hend : r.q + 10 < c.now) (hwait : c.now < r.q + 14) (hret : (c.endCommit r).retiring = [r])
    (hnow : (c.endCommit r).now = c.now) :
    ∃ p o h, c.commitEdge = { c.endCommit r with plan := p, planOld := o, heldPlan := h } := by
  rw [Channel.commitEdge_eq hrefs, Channel.endDue_of_some hcmt hend,
    Channel.retireDue_of_early hret (by rw [hnow]; exact hwait)]
  exact (c.endCommit r).landHeld_eq

/-! ## The edge that begins cycle Q + 14 (R130, R155) -/

/-- PLAN.COMMIT retires with the status of its request. -/
theorem Channel.core_retireCommit {c : Channel} {r : CommitReq} {e : Eng} {rd : GReg} (hb : r.by_ = .core e)
    (hw : (c.dom.core e).wait = .commit rd) (hn : c.dom.replays e = false) :
    (c.retireCommit r).dom.core e = ((c.dom.core e).wr rd r.status).next.retiring := by
  have hfirst := Recorded.logRec hn .effect 1 (r.mask.setWidth 32)
  have hlog : Recorded c.dom (c.dom.logCommit e r.mask r.status) :=
    hfirst.trans (.logRec ((hfirst.replays e).trans hn) .value 1 r.status)
  unfold Channel.retireCommit
  rw [hb]
  simp only [Channel.mapDom_dom, hw, Domain.core_finish, hlog.core]

theorem Channel.retireCommit_frame (c : Channel) (r : CommitReq) :
    (c.retireCommit r).retiring = c.retiring ∧ (c.retireCommit r).live = c.live := by
  unfold Channel.retireCommit
  split <;> exact ⟨rfl, rfl⟩

/-! ## The obligation -/

/-- Settles O13. The request goes by what the core does and by the controller's decision; the edges go by their three parts:
the end of a window, the retirement, and the plan writes that were held. -/
theorem commitRequestsAndEffects : Obligations.CommitRequestsAndEffects := by
  unfold Obligations.CommitRequestsAndEffects
  refine ⟨fun s n e f rd rs1 imm => ?request, fun c e r hrefs hret hcmt hb hend hwait => ?ends,
    fun c e r rd hrefs hret hcmt hb hdue hw hn => ?retires⟩
  case request =>
    intro k x c mask before hr hp hn
    exact ⟨fun h0 => hr.planCommit_zero hp h0, fun h0 hw => hr.planCommit_taken hp rfl h0 hn hw⟩
  case ends =>
    intro y room
    by_cases h0 : r.status &&& 15 = 0
    · obtain ⟨hended, htime⟩ := Channel.endCommit_accepted hb hret h0
      obtain ⟨p, o, h, hy⟩ := Channel.commitEdge_ends hrefs hcmt hend hwait hended.retiring hended.now
      have hy : y = _ := hy
      rw [hy]
      exact ⟨hended.cmt, hended.retiring, hended.status, fun _ => ⟨fun g => congrArg (fld · g) hended.live, hended.count, htime,
        fun hroom => hended.told hroom.1 hroom.2⟩, fun h => absurd h0 h⟩
    · obtain ⟨hended, hrest⟩ := Channel.endCommit_refused hb hret h0
      obtain ⟨p, o, h, hy⟩ := Channel.commitEdge_ends hrefs hcmt hend hwait hended.retiring hended.now
      have hy : y = _ := hy
      rw [hy]
      refine ⟨hended.cmt, hended.retiring, hended.status, fun h => absurd h h0, fun _ => ?_⟩
      refine ⟨hended.live, ?_, ?_, ?_, ?_, ?_, ?_, ?_, hended.count, fun hroom => hended.told hroom.1 hroom.2⟩ <;> rw [hrest]
  case retires =>
    intro y
    obtain ⟨p, o, h, hland⟩ := ({ c with retiring := [] }.retireCommit r).landHeld_eq
    have hy : y = _ := (Channel.commitEdge_eq hrefs).trans <| by
      rw [Channel.endDue_of_none hcmt, Channel.retireDue_of_due hret hdue, hland]
    rw [hy]
    exact ⟨Channel.core_retireCommit (c := { c with retiring := [] }) hb hw hn,
      Channel.retireCommit_frame { c with retiring := [] } r⟩

end Sys2Proof.Machine
end

section
/-! PROOF. What an operation raises and writes in its domain: the sources whose events join the queue, the fields it writes, and
that a channel settles without other events than EV_LLINK (R167, R168, R488). -/

namespace Sys2Proof.Machine

/-- The two fields share no bit. -/
def Fld.Apart (f g : Fld) : Prop := f.reg ≠ g.reg ∨ g.hi < f.lo ∨ f.hi < g.lo

/-- From domain a to b the cycle and the memory stay, and events join the queue whose sources are in E alone. -/
structure Domain.Raised (E : Nat → Prop) (a b : Domain) : Prop where
  time : b.time = a.time
  mem : b.mem = a.mem
  joined : ∃ q, b.evq = a.evq ++ q ∧ ∀ e ∈ q, E e.src.toNat
  next : ∀ ev, ¬E ev → sget 0 b.evNext ev = sget 0 a.evNext ev

/-- Besides, of the registers no field is written but those in W and the overrun flags of R168. -/
structure Domain.Wrote (W : Fld → Prop) (E : Nat → Prop) (a b : Domain) : Prop extends Domain.Raised E a b where
  rg : ∀ g : Fld, g.hi < 32 → ¬(0x10030 ≤ g.reg ∧ g.reg < 0x10040) → (∀ f, W f → f.Apart g) → b.rg g = a.rg g

/-! ## Events -/

namespace Domain.Raised
variable {E : Nat → Prop} {a b c : Domain}

theorem refl (a : Domain) : Raised E a a := ⟨rfl, rfl, ⟨[], (List.append_nil _).symm, nofun⟩, fun _ _ => rfl⟩

section
variable (h : Raised E a b)
include h

theorem trans (g : Raised E b c) : Raised E a c := by
  obtain ⟨q, hq, hE⟩ := h.joined
  obtain ⟨p, hp, gE⟩ := g.joined
  refine ⟨g.time.trans h.time, g.mem.trans h.mem, ⟨q ++ p, by rw [hp, hq, List.append_assoc], fun e he => ?_⟩,
    fun ev hev => (g.next ev hev).trans (h.next ev hev)⟩
  exact (List.mem_append.1 he).elim (hE e) (gE e)

theorem mono {F : Nat → Prop} (hF : ∀ ev, E ev → F ev) : Raised F a b := by
  obtain ⟨q, hq, hE⟩ := h.joined
  exact ⟨h.time, h.mem, ⟨q, hq, fun e he => hF _ (hE e he)⟩, fun ev hev => h.next ev fun he => hev (hF ev he)⟩

/-- A change that reaches neither the cycle, the memory nor the events. -/
theorem silent (ht : c.time = b.time) (hm : c.mem = b.mem) (hq : c.evq = b.evq) (hn : c.evNext = b.evNext) :
    Raised E a c :=
  h.trans ⟨ht, hm, ⟨[], by rw [hq, List.append_nil], nofun⟩, fun _ _ => by rw [hn]⟩

theorem raise {ev : Nat} (arg : Nat) (hE : E ev) (hlt : ev < 128) : Raised E a (b.raise ev arg) := by
  unfold Domain.raise Domain.raiseAt
  split
  · refine h.trans ⟨rfl, rfl, ⟨_, rfl, fun e he => ?_⟩, fun x hx => ?next⟩
    case next =>
      have hne : ev ≠ x := fun hev => hx (hev ▸ hE)
      simp only [sget_sset_other _ _ _ hne]
    rw [List.mem_singleton.1 he]
    simpa only [BitVec.toNat_ofNat, Nat.mod_eq_of_lt hlt] using hE
  · exact h.silent rfl rfl rfl rfl

/-- What waits of a source outside E stays as it was. -/
theorem ofSource {ev : Nat} (hE : ¬E ev) (hlt : ev < 128) :
    b.evq.filter (fun e => e.src == BitVec.ofNat 7 ev) = a.evq.filter fun e => e.src == BitVec.ofNat 7 ev := by
  obtain ⟨q, hq, hqE⟩ := h.joined
  have hnone : q.filter (fun e => e.src == BitVec.ofNat 7 ev) = [] := by
    refine List.filter_eq_nil_iff.2 fun e he hsrc => hE ?_
    have := hqE e he
    rwa [beq_iff_eq.1 hsrc, BitVec.toNat_ofNat, Nat.mod_eq_of_lt hlt] at this
  rw [hq, List.filter_append, hnone, List.append_nil]

theorem hasRoom {ev : Nat} (hr : HasRoom a ev) (hE : ¬E ev) (hlt : ev < 128) : HasRoom b ev := by
  unfold HasRoom
  rw [h.ofSource hE hlt, h.next ev hE, h.time]
  exact hr

theorem waits {x : Domain} {ev arg : Nat} (hw : Waits x a ev arg) : Waits x b ev arg := by
  obtain ⟨q, hq, -⟩ := h.joined
  unfold Waits at *
  rw [hq]
  exact List.mem_append_left _ hw

end

/-! ## What follows in the cycle -/

theorem bump (h : Raised E a b) (x n : Nat) : Raised E a (b.bump x n) := by
  unfold Domain.bump
  extract_lets v d
  split <;> exact h.silent rfl rfl rfl rfl

theorem edge (h : Raised E a b) (i : Nat) (p q : Bool) : Raised E a (b.edge i p q) := by
  unfold Domain.edge
  split
  · exact h
  · extract_lets m
    split
    · exact h.bump _ _
    · exact h

theorem foldl {α : Type} {f : Domain → α → Domain} (hf : ∀ b x, Raised E a b → Raised E a (f b x)) (l : List α)
    (h : Raised E a b) : Raised E a (l.foldl f b) := List.foldlRecOn _ _ h fun b hb x _ => hf b x hb

end Domain.Raised

theorem Channel.settleSignals_raised (E : Nat → Prop) (old new : Channel) :
    new.dom.Raised E (old.settleSignals new).dom := by
  unfold Channel.settleSignals
  split
  · exact .refl _
  · exact .foldl (fun _ i h => h.edge i _ _) _ (.refl _)

theorem State.settleLink_raised (s : State) (n : Chan) : (s.ch n).dom.Raised (· = 0x7F) ((s.settleLink n).ch n).dom := by
  unfold State.settleLink
  extract_lets c lost rtv c'
  have hc : (s.ch n).dom.Raised (· = 0x7F) c'.dom := (Domain.Raised.refl _).silent rfl rfl rfl rfl
  split
  · exact .refl _
  · rw [State.setCh_same]
    split
    · exact hc
    · have hlost : (s.ch n).dom.Raised (· = 0x7F) (c'.setB MBX_STAT_LLOST lost).dom := hc.silent rfl rfl rfl rfl
      exact hlost.raise (ev := 0x7F) _ rfl (by decide)

/-- A settled change of a channel tells the channel of nothing but the link. -/
theorem State.onCh_raised (s : State) (n : Chan) (f : Channel → Channel) (hu : s.up n) :
    (f (s.ch n)).dom.Raised (· = 0x7F) ((s.onCh n f).ch n).dom := by
  unfold State.onCh
  rw [show (s.ch n).dom.inReset = false from hu, if_neg Bool.false_ne_true]
  unfold State.settleOne
  rw [State.setCh_same]
  have hlink := State.settleLink_raised
    (State.settleChan s ((s.setCh n (f (s.ch n))).setCh n ((s.ch n).settleSignals (f (s.ch n)))) n) n
  rw [(Told.settleChan s _ n).ch n, State.setCh_same] at hlink
  exact ((s.ch n).settleSignals_raised _ (f (s.ch n))).trans hlink

/-- A command that is a change of its channel answers with whatever holds of every channel that counts as the changed one and
has been told of nothing but the link. -/
theorem ChAnswers.of_raised {i : Instr} {s : State} {n : Chan} {f : Channel → Channel} {P : Channel → Prop}
    (hi : exec i s = .next (s.onCh n f)) (hu : s.up n)
    (hp : ∀ y, CountedCh (f (s.ch n)) y → (f (s.ch n)).dom.Raised (· = 0x7F) y.dom → P y) : ChAnswers i s n P :=
  have h := State.onCh_settled s n f hu
  ⟨_, hi, hp _ h.ch (s.onCh_raised n f hu), h.outside⟩

/-! ## Registers -/

/-- A field of a block from WEIR to SAFE is quiet. -/
theorem Fld.quiet_of_block {f : Fld} (h : f.hi < 32) (h1 : 0x20000 ≤ f.reg) (h2 : f.reg < 0x90000) : f.quiet :=
  ⟨h, by omega, by omega, by omega, by omega⟩

theorem Channel.rgN_congr {c d : Channel} {g : Fld} (h : d.rg g = c.rg g) : d.rgN g = c.rgN g := congrArg BitVec.toNat h

theorem Channel.rg_raise (c : Channel) (ev arg : Nat) {g : Fld} (hg : g.quiet) (hlt : ev < 128) :
    (c.raise ev arg).rg g = c.rg g := (CountedCh.raise c ev arg hlt).rg g hg

namespace Domain.Wrote
variable {W : Fld → Prop} {E : Nat → Prop} {a b : Domain}

theorem refl (a : Domain) : Wrote W E a a := ⟨.refl a, fun _ _ _ _ => rfl⟩

section
variable (h : Wrote W E a b)
include h

theorem set {f : Fld} (v : Word) (hf : W f) : Wrote W E a (b.set f v) :=
  ⟨h.silent rfl rfl rfl rfl, fun g hg ho hW => (b.rg_set_apart f g v hg (hW f hf)).trans (h.rg g hg ho hW)⟩

theorem setN {f : Fld} (n : Nat) (hf : W f) : Wrote W E a (b.setN f n) := h.set _ hf

theorem setB {f : Fld} (v : Bool) (hf : W f) : Wrote W E a (b.setB f v) :=
  ⟨h.silent rfl rfl rfl rfl, (h.set (ofB v) hf).rg⟩

theorem raise {ev : Nat} (arg : Nat) (hE : E ev) (hlt : ev < 128) : Wrote W E a (b.raise ev arg) := by
  refine ⟨h.toRaised.raise arg hE hlt, fun g hg ho hW => (Eq.trans ?_ (h.rg g hg ho hW))⟩
  unfold Domain.raise Domain.raiseAt
  split
  · rfl
  · rw [Domain.rg_setB]
    exact Domain.rg_set_apart _ _ _ _ hg (.inl fun he => ho (by rw [← he]; simp only [Fld.bit]; omega))

end
end Domain.Wrote

end Sys2Proof.Machine
end

section
/-! PROOF. Commands that name an edge answer the channel's next edge where it has their outcome (log 1). -/

namespace Sys2Proof.Machine

section
variable {i : Instr} {s : State} {n : Chan} {f : Channel → Channel}

/-- A command that is the channel's next edge where that edge has an outcome. -/
theorem ChBecomes.edge {outcome : Bool} (hi : exec i s = .next (s.onCh n f)) (hu : s.up n)
    (hf : f (s.ch n) = (s.ch n).edgeIf outcome) (h : outcome = true) : ChBecomes i s n (s.ch n).tick := by
  refine .of hi hu ?_
  rw [hf, h]
  exact .refl _

/-- A command whose channel is known. -/
theorem ChBecomes.of_eq {c : Channel} (hi : exec i s = .next (s.onCh n f)) (hu : s.up n) (hf : f (s.ch n) = c) :
    ChBecomes i s n c := .of hi hu (hf ▸ .refl _)

end

namespace Channel

/-- A decision of the supervisor in the cycle that ends, where it has this outcome. -/
theorem superWith_eq_edgeIf (c : Channel) (outcome : Channel → Channel → Bool) :
    c.superWith outcome = c.edgeIf (match c.cas.sup.due with
      | some pb => outcome c (c.supervise pb)
      | none => false) := by
  unfold superWith
  cases c.cas.sup.due <;> rfl

theorem lockedRotor_eq_edgeIf (c : Channel) : c.lockedRotor = c.edgeIf (match c.cas.sup.due with
    | some pb => c.lvB CAS_MSCTL_EN && !c.rgB CAS_MSSTAT_LOCKED && ((c.superLink pb).superLocked pb).rgB CAS_MSSTAT_LOCKED
    | none => false) := by
  unfold lockedRotor
  cases c.cas.sup.due <;> rfl

theorem positionLatchDelivery_eq_edgeIf (c : Channel) : c.positionLatchDelivery = c.edgeIf (match c.pos.inFlight with
    | l :: _ => decide (l.due ≤ c.now + 1)
    | [] => false) := by
  unfold positionLatchDelivery
  cases c.pos.inFlight <;> rfl

theorem waitSatisfiedEdge_eq_edgeIf (c : Channel) (t : Thread) :
    c.waitSatisfiedEdge t = c.edgeIf (match (c.weir.th t).st with
      | .waiting w => w.hit
      | .stopped | .running => false) := by
  unfold waitSatisfiedEdge
  cases (c.weir.th t).st <;> rfl

theorem waitExpiry_eq_edgeIf (c : Channel) (t : Thread) : c.waitExpiry t = c.edgeIf (match (c.weir.th t).st with
    | .waiting w => decide (w.limit ≠ 0) && !w.hit && decide (w.cycle + w.limit ≤ c.now)
    | .stopped | .running => false) := by
  unfold waitExpiry
  cases (c.weir.th t).st <;> rfl

theorem liveHoldTimeout_eq_edgeIf (c : Channel) : c.liveHoldTimeout = c.edgeIf (c.begin.1.boundaryDue
    && c.begin.1.rgB EVT_LHOLD_HOLD && !c.begin.1.boundary.rgB EVT_LHOLD_HOLD) :=
  congrArg c.edgeIf (Bool.and_assoc _ _ _).symm

theorem bootstrapCharge_eq_edgeIf (c : Channel) (k : Nat) : c.bootstrapCharge k = c.edgeIf (c.begin.1.boundaryDue
    && decide (k < 6) && !c.begin.1.rgB (GDI_STAT_BSCHG.bit k) && c.begin.1.boundary.rgB (GDI_STAT_BSCHG.bit k)) := by
  unfold bootstrapCharge boundaryWith
  simp only [Bool.and_assoc]

end Channel

/-- Settles O15. Each row is the channel's next edge under its outcome; three also give a ball a voltage first. -/
theorem edgesBringTheirOutcomes : Obligations.EdgesBringTheirOutcomes := by
  unfold Obligations.EdgesBringTheirOutcomes
  intro s n hu c b y phase waits decides
  simp only [List.forall_mem_cons, List.not_mem_nil, false_implies, implies_true, and_true]
  refine ⟨?channel, fun k => ?numbered, fun x => ?switch, fun t => ?thread, fun q v => ?voltage⟩
  case channel =>
    exact ⟨.edge rfl hu rfl, .edge rfl hu rfl, .edge rfl hu rfl, .edge rfl hu (Channel.liveHoldTimeout_eq_edgeIf _),
      .edge rfl hu rfl, .edge rfl hu rfl, .edge rfl hu (Channel.positionLatchDelivery_eq_edgeIf _), .edge rfl hu rfl,
      .edge rfl hu rfl, .edge rfl hu rfl, .edge rfl hu rfl, .edge rfl hu rfl, .edge rfl hu rfl, .edge rfl hu rfl,
      .edge rfl hu rfl, .edge rfl hu rfl, .edge rfl hu rfl, .edge rfl hu rfl,
      .edge rfl hu rfl, .edge rfl hu rfl, .edge rfl hu rfl, .edge rfl hu rfl,
      .edge rfl hu (Channel.superWith_eq_edgeIf _ _), .edge rfl hu (Channel.superWith_eq_edgeIf _ _),
      .edge rfl hu (Channel.lockedRotor_eq_edgeIf _), .edge rfl hu (Channel.superWith_eq_edgeIf _ _),
      .edge rfl hu (Channel.superWith_eq_edgeIf _ _)⟩
  case numbered =>
    exact ⟨.edge rfl hu rfl, .edge rfl hu rfl, .edge rfl hu rfl, .edge rfl hu rfl, .edge rfl hu rfl, .edge rfl hu rfl,
      .edge rfl hu rfl, .edge rfl hu rfl, .edge rfl hu (Channel.bootstrapCharge_eq_edgeIf _ _)⟩
  case switch => exact ⟨.edge rfl hu rfl, .edge rfl hu rfl⟩
  case thread =>
    exact ⟨.edge rfl hu (Channel.waitSatisfiedEdge_eq_edgeIf _ t), .edge rfl hu (Channel.waitExpiry_eq_edgeIf _ t)⟩
  case voltage => exact ⟨.of_eq rfl hu rfl, .of_eq rfl hu rfl, .of_eq rfl hu rfl⟩

end Sys2Proof.Machine
end

section
/-! PROOF. What the operations of SAFE change: its own state, the bridge and three-pin commutation, which an STO demand stops,
and fields and events of the domain (R414, R415, R419 to R424). -/

namespace Sys2Proof.Machine

/-- From channel a to b nothing changes but SAFE, the bridge and the gate interface, fields of W and events of E. -/
structure SafeSide (W : Fld → Prop) (E : Nat → Prop) (a b : Channel) : Prop where
  dom : a.dom.Wrote W E b.dom
  rest : b = { a with dom := b.dom, safe := b.safe, pwm := b.pwm, gdi := b.gdi }

/-- Nothing changes but SAFE, the bridge, the gate interface, and registers and events of the domain. -/
abbrev SafeOnly (a b : Channel) : Prop := SafeSide (fun _ => True) (fun _ => True) a b

/-- What no operation of SAFE touches. -/
def SafeKept (a b : Channel) : Prop := b.pos = a.pos ∧ b.adc = a.adc ∧ b.weir = a.weir ∧ b.live = a.live ∧
  b.cas = a.cas ∧ b.dom.mem = a.dom.mem

theorem SafeKept.counted {a b c : Channel} (h : SafeKept a b) (hc : CountedCh b c) : SafeKept a c := by
  obtain ⟨hpos, hadc, hweir, hlive, hcas, hmem⟩ := h
  exact ⟨hc.pos.trans hpos, hc.adc.trans hadc, hc.weir.trans hweir, hc.live.trans hlive, hc.cas.trans hcas,
    hc.dom.mem.trans hmem⟩

/-! ## Operations -/

namespace SafeSide
variable {W : Fld → Prop} {E : Nat → Prop} {a c d : Channel}

theorem refl (a : Channel) : SafeSide W E a a := ⟨.refl _, rfl⟩

theorem ite {p : Prop} [Decidable p] (hx : SafeSide W E a c) (hy : SafeSide W E a d) :
    SafeSide W E a (if p then c else d) := by
  split
  · exact hx
  · exact hy

theorem foldl {α : Type} {f : Channel → α → Channel} {l : List α}
    (hf : ∀ c, ∀ x ∈ l, SafeSide W E a c → SafeSide W E a (f c x)) (h : SafeSide W E a c) :
    SafeSide W E a (l.foldl f c) :=
  List.foldlRecOn _ _ h fun c hc x hx => hf c x hx hc

section
variable (h : SafeSide W E a c)
include h

theorem kept : SafeKept a c := by
  refine ⟨?_, ?_, ?_, ?_, ?_, h.dom.mem⟩ <;> rw [h.rest]

/-- A change of the domain, SAFE, the bridge and the gate interface. -/
theorem block {d : Domain} (hd : a.dom.Wrote W E d) (s : Safe) (p : Pwm) (g : Gdi) :
    SafeSide W E a { c with dom := d, safe := s, pwm := p, gdi := g } := ⟨hd, by rw [h.rest]⟩

theorem setSafe (f : Safe → Safe) : SafeSide W E a (c.setSafe f) := h.block h.dom _ _ _
theorem setConf (k : Nat) (b : Bool) : SafeSide W E a (c.setConf k b) := h.block h.dom _ _ _
theorem setLeg (k : Nat) (l : Leg) : SafeSide W E a (c.setLeg k l) := h.block h.dom _ _ _
theorem set {f : Fld} (v : Word) (hf : W f) : SafeSide W E a (c.set f v) := h.block (h.dom.set v hf) _ _ _
theorem setN {f : Fld} (n : Nat) (hf : W f) : SafeSide W E a (c.setN f n) := h.block (h.dom.setN n hf) _ _ _
theorem setB {f : Fld} (b : Bool) (hf : W f) : SafeSide W E a (c.setB f b) := h.block (h.dom.setB b hf) _ _ _
theorem raise {ev : Nat} (arg : Nat) (hE : E ev) (hlt : ev < 128) : SafeSide W E a (c.raise ev arg) :=
  h.block (h.dom.raise arg hE hlt) _ _ _

theorem kout (k : Nat) (close : Bool) (hf : W (SAFE_STAT_KCL.bit k)) : SafeSide W E a (c.kout k close) :=
  .ite h ((h.setB _ hf).setConf k _)

end
end SafeSide

/-! ## The STO demand (R414, R415) -/

/-- The fields that an STO demand writes as it begins or ends. -/
def demandFlds : List Fld := [SAFE_STAT_STODEM, SAFE_STAT_RESTWAIT] ++ (List.range 6).map PWM_CARRY_C

section
variable {W : Fld → Prop} {E : Nat → Prop} {a c : Channel} (h : SafeSide W E a c) (hW : ∀ f ∈ demandFlds, W f)
include h hW

theorem SafeSide.dropLegs : SafeSide W E a c.dropLegs := by
  have hlegs : SafeSide W E a ((List.range 6).foldl Channel.dropLeg c) := .foldl (fun _ k _ h => h.setLeg k _) h
  have hcarries : SafeSide W E a ((List.range 6).foldl Channel.dropLeg c).clearCarries := by
    refine .foldl (fun _ k hk h => (h.setLeg k _).set _ (hW _ ?_)) hlegs
    exact List.mem_append_right _ (List.mem_map_of_mem hk)
  exact hcarries.block hcarries.dom _ _ _

theorem SafeSide.safeEval (hE : E 0x70) : SafeSide W E a c.safeEval := by
  have hdem : W SAFE_STAT_STODEM := hW _ (by decide)
  unfold Channel.safeEval
  extract_lets cond c1 c2 dem c3
  have h1 : SafeSide W E a c1 := .ite (h.setB _ (hW _ (by decide))) h
  have h2 : SafeSide W E a c2 := h1.setSafe _
  have h3 : SafeSide W E a c3 := h2.setB _ hdem
  exact .ite (((h2.setB _ hdem).setSafe _).dropLegs hW) (.ite (.ite (h3.setSafe _) (h3.raise _ hE (by decide))) h2)

end

namespace Channel

/-- Where the demand follows its conditions, fields of SAFE other than the demand's own stay. -/
theorem rg_safeEval (c : Channel) {g : Fld} (hhi : g.hi < 32)
    (hg : g.reg = SAFE_STAT_STODEM.reg ∧ g.hi < 27 ∨ g.reg = (SAFE_KSTAT_KIND 0).reg) : c.safeEval.rg g = c.rg g := by
  have hs : SafeSide (· ∈ demandFlds) (· = 0x70) c c.safeEval := (SafeSide.refl c).safeEval (fun _ h => h) rfl
  refine hs.dom.rg g hhi (by simp only at hg; omega) fun f hf => ?_
  have hf : f.reg < 0x80000 ∨ f.reg = 0x80100 ∧ 27 ≤ f.lo := (by decide : ∀ f ∈ demandFlds,
    f.reg < 0x80000 ∨ f.reg = 0x80100 ∧ 27 ≤ f.lo) f hf
  unfold Fld.Apart
  simp only at hg
  omega

theorem rgB_dropLegs_demand (c : Channel) : c.dropLegs.rgB SAFE_STAT_STODEM = c.rgB SAFE_STAT_STODEM :=
  dropLegs_dom_of c (P := fun d => d.rgB SAFE_STAT_STODEM = c.dom.rgB SAFE_STAT_STODEM) rfl fun d k hd hk =>
    (d.rgB_set_apart _ _ _ (by decide) (.inl (by simp only; omega))).trans hd

/-- While a condition of R414 holds, STO is demanded. -/
theorem safeEval_demands {c : Channel} (h : c.stoCond ≠ 0) : c.safeEval.rgB SAFE_STAT_STODEM = true := by
  unfold safeEval
  extract_lets cond c1 c2 dem c3
  have hdem : dem = true := by simp only [dem, cond, bne_iff_ne.2 h, Bool.true_or]
  rw [hdem]
  cases hwas : c2.rgB SAFE_STAT_STODEM with
  | false =>
    simp only [Bool.not_false, Bool.and_true, if_true, rgB_dropLegs_demand]
    exact c2.rgB_setB_same _ true (by decide) rfl
  | true => simpa using hwas

theorem stoCond_ne_zero {c : Channel} (h : c.rgN SAFE_STAT_SS1PH = 2 ∨ c.kTrips = true) : c.stoCond ≠ 0 := by
  have hany : ∀ p q r s t u : Bool, r = true ∨ t = true →
      ([p, q, r, s, t, u].zipIdx.foldl (fun m x => if x.1 then m ||| BitVec.ofNat 6 (2 ^ x.2) else m) 0 : BitVec 6) ≠ 0 := by
    decide
  unfold stoCond
  exact hany _ _ (c.rgN SAFE_STAT_SS1PH == 2) _ c.kTrips _ (h.imp_left beq_iff_eq.2)

theorem elementA_of_demand {c : Channel} (h : c.rgB SAFE_STAT_STODEM = true) : c.elementA = true := by
  simp [elementA, stoInForce, h]

theorem gen_of_demand {c : Channel} (h : c.rgB SAFE_STAT_STODEM = true) : c.gen = false := by
  simp [gen, elementB, stoInForce, h]

end Channel

end Sys2Proof.Machine
end

section
/-! PROOF. Contactors: commands, feedback and faults, and what one KCLR clears (R167, R422 to R424). -/

namespace Sys2Proof.Machine

namespace Channel

/-! ## The registers of the contactors -/

/-- The fields of SAFE_STAT with a bit for each contactor. -/
def contactorFlds : List Fld := [SAFE_STAT_KFAULT, SAFE_STAT_KFB, SAFE_STAT_KCL]

theorem kfault_contactor : SAFE_STAT_KFAULT ∈ contactorFlds := by decide
theorem kfb_contactor : SAFE_STAT_KFB ∈ contactorFlds := by decide
theorem kcl_contactor : SAFE_STAT_KCL ∈ contactorFlds := by decide

theorem contactorFlds_place : ∀ f ∈ contactorFlds, f.reg = 0x80100 ∧ f.lo + 2 < 27 := by decide

section
variable {k : Nat} (hk : k < 3)
include hk

theorem quiet_contactor {f : Fld} (hf : f ∈ contactorFlds) : (f.bit k).quiet := by
  obtain ⟨hreg, hlo⟩ := contactorFlds_place f hf
  exact Fld.quiet_of_block (by simp only [Fld.bit]; omega) (by simp only [Fld.bit]; omega) (by simp only [Fld.bit]; omega)

theorem quiet_kind : (SAFE_KSTAT_KIND k).quiet :=
  Fld.quiet_of_block (by simp only; omega) (by decide : 0x20000 ≤ 0x80104) (by decide : 0x80104 < 0x90000)

variable (c : Channel)

theorem rgB_setB_contactor {f : Fld} (b : Bool) (hf : f ∈ contactorFlds) :
    (c.setB (f.bit k) b).rgB (f.bit k) = b :=
  c.rgB_setB_same _ _ (quiet_contactor hk hf).1 (by simp only [Fld.bit, Fld.width]; omega)

/-- A contactor's bit of one field stays when its bit of another is written. -/
theorem rgB_setB_other {f g : Fld} (b : Bool) (hg : g ∈ contactorFlds) (hne : f.lo ≠ g.lo) :
    (c.setB (f.bit k) b).rgB (g.bit k) = c.rgB (g.bit k) :=
  rgB_apart (c.rg_setB_apart _ _ _ (quiet_contactor hk hg).1 (.inr (by simp only [Fld.bit]; omega)))

theorem rgB_setN_kind {g : Fld} (n : Nat) (hg : g ∈ contactorFlds) :
    (c.setN (SAFE_KSTAT_KIND k) n).rgB (g.bit k) = c.rgB (g.bit k) := by
  refine rgB_apart (c.rg_setN_apart _ _ _ (quiet_contactor hk hg).1 (.inl ?_))
  simp only [Fld.bit, (contactorFlds_place g hg).1]
  decide

theorem rgN_setN_kind {n : Nat} (hn : n < 8) : (c.setN (SAFE_KSTAT_KIND k) n).rgN (SAFE_KSTAT_KIND k) = n := by
  have hwidth : (SAFE_KSTAT_KIND k).width = 3 := by simp only [Fld.width]; omega
  exact c.rgN_setN_same _ _ (quiet_kind hk).1 (by rw [hwidth]; exact hn) (by rw [hwidth]; decide)

theorem rgB_evKmon {g : Fld} (kind : Nat) (hg : g ∈ contactorFlds) :
    (c.evKmon k kind).rgB (g.bit k) = c.rgB (g.bit k) := rgB_apart (c.rg_raise _ _ (quiet_contactor hk hg) (by decide))

theorem rgB_safeEval_contactor {g : Fld} (hg : g ∈ contactorFlds) :
    c.safeEval.rgB (g.bit k) = c.rgB (g.bit k) := by
  obtain ⟨hreg, hlo⟩ := contactorFlds_place g hg
  exact rgB_apart (c.rg_safeEval (quiet_contactor hk hg).1 (.inl ⟨hreg, by simp only [Fld.bit]; omega⟩))

theorem rgN_safeEval_kind : c.safeEval.rgN (SAFE_KSTAT_KIND k) = c.rgN (SAFE_KSTAT_KIND k) :=
  rgN_congr (c.rg_safeEval (quiet_kind hk).1 (.inr rfl))

theorem rgB_kout (close : Bool) : (c.kout k close).rgB (SAFE_STAT_KCL.bit k) = close := by
  unfold kout
  split
  · assumption
  · exact rgB_setB_contactor hk c close kcl_contactor

theorem rgB_kout_other {g : Fld} (close : Bool) (hg : g ∈ contactorFlds)
    (hne : SAFE_STAT_KCL.lo ≠ g.lo) : (c.kout k close).rgB (g.bit k) = c.rgB (g.bit k) := by
  unfold kout
  split
  · rfl
  · exact rgB_setB_other hk c close hg hne

theorem rgN_kout_kind (close : Bool) : (c.kout k close).rgN (SAFE_KSTAT_KIND k) = c.rgN (SAFE_KSTAT_KIND k) := by
  unfold kout
  split
  · rfl
  · exact rgN_congr (c.rg_setB_apart _ _ _ (quiet_kind hk).1 (.inl (by simp only [Fld.bit]; decide)))

end

/-! ## Each contactor in turn -/

/-- Of the three contactors in turn, what holds before its own turn and what its turn makes of it, where the others' turns
keep both. -/
theorem foldl_contactors {f : Channel → Nat → Channel} {P Q : Channel → Prop} {k : Nat} (hk : k < 3)
    (hbefore : ∀ c j, j < 3 → j ≠ k → P c → P (f c j)) (hturn : ∀ c, P c → Q (f c k))
    (hafter : ∀ c j, j < 3 → j ≠ k → Q c → Q (f c j)) {c : Channel} (h : P c) : Q ([0, 1, 2].foldl f c) := by
  obtain rfl | rfl | rfl : k = 0 ∨ k = 1 ∨ k = 2 := by omega
  · exact hafter _ 2 (by decide) (by decide) (hafter _ 1 (by decide) (by decide) (hturn _ h))
  · exact hafter _ 2 (by decide) (by decide) (hturn _ (hbefore _ 0 (by decide) (by decide) h))
  · exact hturn _ (hbefore _ 1 (by decide) (by decide) (hbefore _ 0 (by decide) (by decide) h))

/-! ## Commands (R422) -/

theorem kCmd_of_one {c : Channel} {w : Word} {k : Nat} (hk : k < 3)
    (hw : ∀ j < 3, j ≠ k → bitOf w j = false ∧ bitOf w (3 + j) = false) : c.kCmd w = c.kCmdOne w k := by
  have hother : ∀ x j, j < 3 → j ≠ k → kCmdOne w x j = x := by
    intro x j hj hne
    obtain ⟨hclose, hopen⟩ := hw j hj hne
    rw [kCmdOne, hclose, hopen]
    rfl
  exact foldl_contactors hk (f := kCmdOne w) (P := (· = c)) (Q := (· = kCmdOne w c k))
    (fun x j hj hne h => (hother x j hj hne).trans h) (fun x h => by rw [h])
    (fun x j hj hne h => (hother x j hj hne).trans h) rfl

/-- CLOSEk alone closes contactor k, or is refused while it is faulted. -/
theorem kCmd_close {c : Channel} {k : Nat} (hk : k < 3) (hen : c.lvB (SAFE_KCFG_EN k) = true) :
    c.kCmd (BitVec.ofNat 32 (2 ^ k)) = if c.rgB (SAFE_STAT_KFAULT.bit k) then c.evKmon k 6 else c.kout k true := by
  have hbits : ∀ k < 3, bitOf (BitVec.ofNat 32 (2 ^ k)) k = true ∧ bitOf (BitVec.ofNat 32 (2 ^ k)) (3 + k) = false ∧
      ∀ j < 3, j ≠ k → bitOf (BitVec.ofNat 32 (2 ^ k)) j = false ∧ bitOf (BitVec.ofNat 32 (2 ^ k)) (3 + j) = false := by
    decide
  obtain ⟨hclose, hopen, hothers⟩ := hbits k hk
  rw [kCmd_of_one hk hothers, kCmdOne, hclose, hopen, hen]
  rfl

/-- OPENk alone opens contactor k. -/
theorem kCmd_open {c : Channel} {k : Nat} (hk : k < 3) : c.kCmd (BitVec.ofNat 32 (8 * 2 ^ k)) = c.kout k false := by
  have hbits : ∀ k < 3, bitOf (BitVec.ofNat 32 (8 * 2 ^ k)) (3 + k) = true ∧
      ∀ j < 3, j ≠ k →
        bitOf (BitVec.ofNat 32 (8 * 2 ^ k)) j = false ∧ bitOf (BitVec.ofNat 32 (8 * 2 ^ k)) (3 + j) = false := by
    decide
  obtain ⟨hopen, hothers⟩ := hbits k hk
  rw [kCmd_of_one hk hothers, kCmdOne, hopen]
  rfl

theorem kout_pwm (c : Channel) (k : Nat) (close : Bool) : (c.kout k close).pwm = c.pwm := by
  unfold kout
  split <;> rfl

theorem getLsbD_setConf (c : Channel) {k : Nat} (hk : k < 3) (b : Bool) : (c.setConf k b).safe.conf.getLsbD k = b := by
  have hbit : ∀ k < 3, (BitVec.ofNat 3 (2 ^ k)).getLsbD k = true := by decide
  have hbit := hbit k hk
  cases b
  · show (c.safe.conf &&& ~~~(BitVec.ofNat 3 (2 ^ k))).getLsbD k = false
    rw [BitVec.getLsbD_and, BitVec.getLsbD_not, hbit, Bool.not_true, Bool.and_false, Bool.and_false]
  · show (c.safe.conf ||| BitVec.ofNat 3 (2 ^ k)).getLsbD k = true
    rw [BitVec.getLsbD_or, hbit, Bool.or_true]

/-- A command that changes Cn_KOUTk is confirmed where the feedback already agrees. -/
theorem conf_kout {c : Channel} {k : Nat} (hk : k < 3) {close : Bool} (h : c.rgB (SAFE_STAT_KCL.bit k) ≠ close) :
    (c.kout k close).safe.conf.getLsbD k = (c.rgB (SAFE_STAT_KFB.bit k) == close) := by
  rw [kout, if_neg h, getLsbD_setConf _ hk]

/-! ## Faults (R423) -/

/-- A contactor fault before the STO demand follows. -/
def kFaultSet (c : Channel) (k kind : Nat) : Channel :=
  (((c.setB (SAFE_STAT_KFAULT.bit k) true).setN (SAFE_KSTAT_KIND k) kind).evKmon k kind).kout k false

theorem kFault_eq (c : Channel) (k kind : Nat) : c.kFault k kind = (c.kFaultSet k kind).safeEval := rfl

/-- Contactor k of channel y has been found in a fault of a kind, the channel having been `x`. -/
def KFaulted (x : Channel) (k kind : Nat) (y : Channel) : Prop :=
  y.rgB (SAFE_STAT_KFAULT.bit k) = true ∧ y.rgN (SAFE_KSTAT_KIND k) = kind ∧ y.rgB (SAFE_STAT_KCL.bit k) = false ∧
    Waits x.dom y.dom 0x72 (k + 16 * kind) ∧
    (x.lvB (SAFE_KCFG_KTRIP k) = true → y.rgB SAFE_STAT_STODEM = true ∧ y.elementA = true) ∧ SafeKept x y

theorem KFaulted.counted {x y z : Channel} {k kind : Nat} (hk : k < 3) (h : KFaulted x k kind y) (hz : CountedCh y z) :
    KFaulted x k kind z := by
  obtain ⟨hfault, hkind, hcl, hwaits, htrip, hkept⟩ := h
  refine ⟨(hz.rgB _ (quiet_contactor hk kfault_contactor)).trans hfault, (hz.rgN _ (quiet_kind hk)).trans hkind,
    (hz.rgB _ (quiet_contactor hk kcl_contactor)).trans hcl, hz.waits hwaits, fun ht => ?_, hkept.counted hz⟩
  have hdem : z.rgB SAFE_STAT_STODEM = true := (hz.rgB _ (by decide)).trans (htrip ht).1
  exact ⟨hdem, elementA_of_demand hdem⟩

section
variable (c : Channel) {k : Nat} (hk : k < 3) (kind : Nat)
include hk

theorem rgB_kFaultSet {g : Fld} (hg : g ∈ contactorFlds) (hne : SAFE_STAT_KCL.lo ≠ g.lo) :
    (c.kFaultSet k kind).rgB (g.bit k) = (c.setB (SAFE_STAT_KFAULT.bit k) true).rgB (g.bit k) := by
  rw [kFaultSet, rgB_kout_other hk _ false hg hne, rgB_evKmon hk _ _ hg, rgB_setN_kind hk _ _ hg]

theorem rgB_kFault_fault : (c.kFault k kind).rgB (SAFE_STAT_KFAULT.bit k) = true := by
  rw [kFault_eq, rgB_safeEval_contactor hk _ kfault_contactor, rgB_kFaultSet c hk kind kfault_contactor (by decide),
    rgB_setB_contactor hk c _ kfault_contactor]

theorem rgB_kFault_feedback : (c.kFault k kind).rgB (SAFE_STAT_KFB.bit k) = c.rgB (SAFE_STAT_KFB.bit k) := by
  rw [kFault_eq, rgB_safeEval_contactor hk _ kfb_contactor, rgB_kFaultSet c hk kind kfb_contactor (by decide),
    rgB_setB_other hk c _ kfb_contactor (by decide)]

theorem rgB_kFault_closed : (c.kFault k kind).rgB (SAFE_STAT_KCL.bit k) = false := by
  rw [kFault_eq, rgB_safeEval_contactor hk _ kcl_contactor, kFaultSet, rgB_kout hk]

theorem rgN_kFault_kind (hkind : kind < 8) : (c.kFault k kind).rgN (SAFE_KSTAT_KIND k) = kind := by
  rw [kFault_eq, rgN_safeEval_kind hk, kFaultSet, rgN_kout_kind hk]
  exact (rgN_congr (rg_raise _ _ _ (quiet_kind hk) (by decide))).trans (rgN_setN_kind hk _ hkind)

end

theorem kFaultSet_side (c : Channel) (k kind : Nat) : SafeOnly c (c.kFaultSet k kind) :=
  ((((SafeSide.refl c).setB _ trivial).setN _ trivial).raise _ trivial (by decide)).kout k false trivial

theorem kFault_side (c : Channel) (k kind : Nat) : SafeOnly c (c.kFault k kind) :=
  (kFaultSet_side c k kind).safeEval (fun _ _ => trivial) trivial

theorem kFault_waits {c : Channel} {k kind : Nat} (h : HasRoom c.dom 0x72) :
    Waits c.dom (c.kFault k kind).dom 0x72 (k + 16 * kind) := by
  have hraised : Waits c.dom (((c.setB (SAFE_STAT_KFAULT.bit k) true).setN (SAFE_KSTAT_KIND k) kind).evKmon k kind).dom 0x72
      (k + 16 * kind) := .raise _ _ _ _ h rfl
  have hlater : SafeOnly
      (((c.setB (SAFE_STAT_KFAULT.bit k) true).setN (SAFE_KSTAT_KIND k) kind).evKmon k kind) (c.kFault k kind) :=
    ((SafeSide.refl _).kout k false trivial).safeEval (fun _ _ => trivial) trivial
  exact hlater.dom.waits hraised

theorem kFault_demands {c : Channel} {k kind : Nat} (hk : k < 3) (h : c.lvB (SAFE_KCFG_KTRIP k) = true) :
    (c.kFault k kind).rgB SAFE_STAT_STODEM = true := by
  refine safeEval_demands (stoCond_ne_zero (.inr (List.any_eq_true.2 ⟨k, by simp; omega, ?_⟩)))
  have hlive : (c.kFaultSet k kind).live = c.live := (kFaultSet_side c k kind).kept.2.2.2.1
  have hfault : (c.kFaultSet k kind).rgB (SAFE_STAT_KFAULT.bit k) = true := by
    rw [rgB_kFaultSet c hk kind kfault_contactor (by decide), rgB_setB_contactor hk c _ kfault_contactor]
  have hktrip : (c.kFaultSet k kind).lvB (SAFE_KCFG_KTRIP k) = true := by
    rw [lvB, lv, hlive]
    exact h
  exact Bool.and_eq_true_iff.2 ⟨hfault, hktrip⟩

theorem kFault_faulted {c : Channel} {k kind : Nat} (hk : k < 3) (hkind : kind < 8) (hroom : HasRoom c.dom 0x72) :
    KFaulted c k kind (c.kFault k kind) :=
  ⟨rgB_kFault_fault c hk kind, rgN_kFault_kind c hk kind hkind, rgB_kFault_closed c hk kind, kFault_waits hroom,
    fun h => ⟨kFault_demands hk h, elementA_of_demand (kFault_demands hk h)⟩, (kFault_side c k kind).kept⟩

/-! ## Feedback (R423) -/

/-- What a report makes of an enabled contactor. -/
theorem kReport_eq {c : Channel} {k : Nat} (hk : k < 3) (closed : Bool) (hen : c.lvB (SAFE_KCFG_EN k) = true) :
    c.kReport k closed =
      if c.rgB (SAFE_STAT_KFAULT.bit k) then (c.setB (SAFE_STAT_KFB.bit k) closed).setConf k (!closed)
      else if closed = c.rgB (SAFE_STAT_KCL.bit k) then (c.setB (SAFE_STAT_KFB.bit k) closed).setConf k true
      else if c.safe.conf.getLsbD k then
        (c.setB (SAFE_STAT_KFB.bit k) closed).kFault k (if c.rgB (SAFE_STAT_KCL.bit k) then 3 else 4)
      else c.setB (SAFE_STAT_KFB.bit k) closed := by
  have hfault : (c.setB (SAFE_STAT_KFB.bit k) closed).rgB (SAFE_STAT_KFAULT.bit k) = c.rgB (SAFE_STAT_KFAULT.bit k) :=
    rgB_setB_other hk c closed kfault_contactor (by decide)
  have hcl : (c.setB (SAFE_STAT_KFB.bit k) closed).rgB (SAFE_STAT_KCL.bit k) = c.rgB (SAFE_STAT_KCL.bit k) :=
    rgB_setB_other hk c closed kcl_contactor (by decide)
  have hlv : (c.setB (SAFE_STAT_KFB.bit k) closed).lvB (SAFE_KCFG_EN k) = true := hen
  unfold kReport
  simp only [hfault, hcl, hlv, Bool.true_and]
  cases c.rgB (SAFE_STAT_KFAULT.bit k) <;> rfl

section
variable {c : Channel} {k : Nat} (hk : k < 3) {closed : Bool} (hen : c.lvB (SAFE_KCFG_EN k) = true)
include hk hen

theorem kReport_of_fault (hfault : c.rgB (SAFE_STAT_KFAULT.bit k) = true) :
    c.kReport k closed = (c.setB (SAFE_STAT_KFB.bit k) closed).setConf k (!closed) := by
  rw [kReport_eq hk closed hen, if_pos hfault]

variable (hfault : c.rgB (SAFE_STAT_KFAULT.bit k) = false)
include hfault

theorem kReport_of_agrees (h : closed = c.rgB (SAFE_STAT_KCL.bit k)) :
    c.kReport k closed = (c.setB (SAFE_STAT_KFB.bit k) closed).setConf k true := by
  rw [kReport_eq hk closed hen, hfault, if_neg Bool.false_ne_true, if_pos h]

theorem kReport_of_confirmed (h : closed ≠ c.rgB (SAFE_STAT_KCL.bit k)) (hconf : c.safe.conf.getLsbD k = true) :
    c.kReport k closed =
      (c.setB (SAFE_STAT_KFB.bit k) closed).kFault k (if c.rgB (SAFE_STAT_KCL.bit k) then 3 else 4) := by
  rw [kReport_eq hk closed hen, hfault, if_neg Bool.false_ne_true, if_neg h, if_pos hconf]

theorem kReport_of_unconfirmed (h : closed ≠ c.rgB (SAFE_STAT_KCL.bit k)) (hconf : c.safe.conf.getLsbD k = false) :
    c.kReport k closed = c.setB (SAFE_STAT_KFB.bit k) closed := by
  rw [kReport_eq hk closed hen, hfault, if_neg Bool.false_ne_true, if_neg h, hconf, if_neg Bool.false_ne_true]

end

theorem kReport_side (c : Channel) (k : Nat) (closed : Bool) :
    SafeOnly c (c.kReport k closed) := by
  have hset : SafeOnly c (c.setB (SAFE_STAT_KFB.bit k) closed) :=
    (SafeSide.refl c).setB _ trivial
  have hfault (kind : Nat) : SafeOnly c ((c.setB (SAFE_STAT_KFB.bit k) closed).kFault k kind) :=
    ((((hset.setB _ trivial).setN _ trivial).raise _ trivial (by decide)).kout k false trivial).safeEval
      (fun _ _ => trivial) trivial
  exact .ite (.ite (hset.setConf k _) (.ite (hfault _) hset)) (hset.setConf k _)

theorem rgB_kReport {c : Channel} {k : Nat} (hk : k < 3) (closed : Bool) :
    (c.kReport k closed).rgB (SAFE_STAT_KFB.bit k) = closed := by
  have hset : (c.setB (SAFE_STAT_KFB.bit k) closed).rgB (SAFE_STAT_KFB.bit k) = closed :=
    rgB_setB_contactor hk c closed kfb_contactor
  unfold kReport
  extract_lets c1 cl
  split
  · split
    · exact hset
    · split
      · exact (rgB_kFault_feedback _ hk _).trans hset
      · exact hset
  · exact hset

theorem kFeedback_eq (c : Channel) {k : Nat} (hk : k < 3) (level : Bool) :
    c.kFeedback k level = c.kReport k (level != c.lvB (SAFE_KCFG_FBPOL k)) := by
  rw [kFeedback, decide_eq_true hk, when_true]

theorem kLimit_eq {c : Channel} {k : Nat} (hk : k < 3) (hen : c.lvB (SAFE_KCFG_EN k) = true)
    (hfault : c.rgB (SAFE_STAT_KFAULT.bit k) = false) (hconf : c.safe.conf.getLsbD k = false) :
    c.kLimit k = c.kFault k (if c.rgB (SAFE_STAT_KCL.bit k) then 2 else 1) := by
  rw [kLimit, decide_eq_true hk, hen, hfault, hconf]
  rfl

end Channel

end Sys2Proof.Machine
end

section
/-! PROOF. Safe stop 1, KCLR and the contactors as the commands answer them (R167, R419 to R424). -/

namespace Sys2Proof.Machine

/-! ## SAFE_CMD (R415, R418 to R421) -/

section
variable {W : Fld → Prop} {E : Nat → Prop} {a c : Channel} (h : SafeSide W E a c)
include h

theorem SafeSide.ss1End (hph : W SAFE_STAT_SS1PH) (hE : E 0x71) : SafeSide W E a c.ss1End :=
  .ite ((h.setN 0 hph).raise 6 hE (by decide)) (h.setN 0 hph)

theorem SafeSide.ss1Request (hph : W SAFE_STAT_SS1PH) (hE : E 0x71) : SafeSide W E a c.ss1Request :=
  .ite h (((h.setN 1 hph).setSafe _).raise 2 hE (by decide))

variable (hW : ∀ f ∈ demandFlds, W f)
include hW

theorem SafeSide.stoTest : SafeSide W E a c.stoTest := .ite h ((h.setSafe _).dropLegs hW)

theorem SafeSide.stoRestart (hE : E 0x70) : SafeSide W E a c.stoRestart :=
  .ite h ((h.setB _ (hW _ (by decide))).safeEval hW hE)

theorem SafeSide.ss1Clear (hph : W SAFE_STAT_SS1PH) (hE : E 0x70) (hE' : E 0x71) : SafeSide W E a c.ss1Clear :=
  .ite ((h.ss1End hph hE').safeEval hW hE) h

end

namespace Channel

/-! ## Safe stop 1 (R419 to R421) -/

theorem rgN_safeEval_ss1 (c : Channel) : c.safeEval.rgN SAFE_STAT_SS1PH = c.rgN SAFE_STAT_SS1PH :=
  rgN_congr (c.rg_safeEval (by decide) (by decide))

theorem rgN_setN_ss1 (c : Channel) {n : Nat} (hn : n < 4) : (c.setN SAFE_STAT_SS1PH n).rgN SAFE_STAT_SS1PH = n :=
  c.rgN_setN_same _ n (by decide) hn (by decide)

theorem rgN_raise_ss1 (c : Channel) (ev arg : Nat) (hlt : ev < 128) :
    (c.raise ev arg).rgN SAFE_STAT_SS1PH = c.rgN SAFE_STAT_SS1PH := rgN_congr (c.rg_raise ev arg (by decide) hlt)

theorem rgN_ss1End (c : Channel) : c.ss1End.rgN SAFE_STAT_SS1PH = 0 := by
  unfold ss1End
  extract_lets running c1
  split
  · exact (c1.rgN_raise_ss1 _ _ (by decide)).trans (c.rgN_setN_ss1 (by decide))
  · exact c.rgN_setN_ss1 (by decide)

/-- An SS1 that runs is cancelled with code 6 (R421). -/
theorem ss1End_waits {c : Channel} (h : c.rgN SAFE_STAT_SS1PH = 1) (hroom : HasRoom c.dom 0x71) :
    Waits c.dom c.ss1End.dom 0x71 6 := by
  unfold ss1End
  rw [decide_eq_true h]
  exact .raise (c.setN SAFE_STAT_SS1PH 0).dom _ _ _ hroom rfl

/-- SS1 in its STO phase demands STO (R414, R420). -/
theorem ss1Sto_demands (c : Channel) (code : Nat) : (c.ss1Sto code).rgB SAFE_STAT_STODEM = true :=
  safeEval_demands (stoCond_ne_zero (.inl ((rgN_raise_ss1 _ _ _ (by decide)).trans (c.rgN_setN_ss1 (by decide)))))

theorem rgN_ss1Sto (c : Channel) (code : Nat) : (c.ss1Sto code).rgN SAFE_STAT_SS1PH = 2 :=
  (rgN_safeEval_ss1 _).trans ((rgN_raise_ss1 _ _ _ (by decide)).trans (c.rgN_setN_ss1 (by decide)))

theorem ss1Sto_waits {c : Channel} (code : Nat) (hroom : HasRoom c.dom 0x71) : Waits c.dom (c.ss1Sto code).dom 0x71 code := by
  have hraised : Waits c.dom ((c.setN SAFE_STAT_SS1PH 2).evSs1 code).dom 0x71 code := .raise _ _ _ _ hroom rfl
  have heval : SafeOnly ((c.setN SAFE_STAT_SS1PH 2).evSs1 code) (c.ss1Sto code) :=
    (SafeSide.refl _).safeEval (fun _ _ => trivial) trivial
  exact heval.dom.waits hraised

theorem ss1Sto_kept (c : Channel) (code : Nat) : SafeKept c (c.ss1Sto code) := by
  have hside : SafeOnly c (c.ss1Sto code) :=
    (((SafeSide.refl c).setN 2 trivial).raise code trivial (by decide)).safeEval (fun _ _ => trivial) trivial
  exact hside.kept

/-! ## KCLR (R424) -/

/-- KCLR clears the fault of contactor j: its feedback reports open. -/
def kClears (c : Channel) (j : Nat) : Bool := c.rgB (SAFE_STAT_KFAULT.bit j) && !c.rgB (SAFE_STAT_KFB.bit j)

/-- The fields that KCLR writes for contactor j. -/
def clearFlds (j : Nat) : List Fld := [SAFE_STAT_KFAULT.bit j, SAFE_KSTAT_KIND j]

theorem kClearOne_side {a c : Channel} {W : Fld → Prop} {E : Nat → Prop} (h : SafeSide W E a c) (j : Nat)
    (hW : ∀ f ∈ clearFlds j, W f) (hE : E 0x72) : SafeSide W E a (c.kClearOne j) :=
  have hfault : SafeSide W E a (c.setB (SAFE_STAT_KFAULT.bit j) false) := h.setB false (hW _ (by simp [clearFlds]))
  have hkind : SafeSide W E a ((c.setB (SAFE_STAT_KFAULT.bit j) false).setN (SAFE_KSTAT_KIND j) 0) :=
    hfault.setN 0 (hW _ (by simp [clearFlds]))
  .ite ((hkind.raise _ hE (by decide)).setConf j true) h

theorem kClearOne_of_clears {c : Channel} {j : Nat} (h : c.kClears j = true) : c.kClearOne j =
    (((c.setB (SAFE_STAT_KFAULT.bit j) false).setN (SAFE_KSTAT_KIND j) 0).evKmon j 5).setConf j true := if_pos h

theorem kClearOne_of_not {c : Channel} {j : Nat} (h : c.kClears j = false) : c.kClearOne j = c :=
  if_neg fun hc : c.kClears j = true => by rw [h] at hc; cases hc

section
variable (c : Channel) {j k : Nat} (hj : j < 3) (hk : k < 3)

theorem rg_kClearOne {g : Fld} (hg : g.quiet) (happ : ∀ f ∈ clearFlds j, f.Apart g) : (c.kClearOne j).rg g = c.rg g := by
  have hside : SafeSide (· ∈ clearFlds j) (· = 0x72) c (c.kClearOne j) :=
    kClearOne_side (.refl c) j (fun _ h => h) rfl
  obtain ⟨hhi, -, hovr, -, -⟩ := hg
  exact hside.dom.rg g hhi hovr happ

include hj hk

/-- The turn of another contactor leaves a contactor's bits. -/
theorem rgB_kClearOne_other (hne : j ≠ k) {f : Fld} (hf : f ∈ contactorFlds) :
    (c.kClearOne j).rgB (f.bit k) = c.rgB (f.bit k) := by
  refine rgB_apart (c.rg_kClearOne (quiet_contactor hk hf) fun g hg => ?_)
  have hplace : f.reg = 0x80100 ∧ (f.lo = 12 ∨ f.lo + 2 < 12) :=
    (by decide : ∀ f ∈ contactorFlds, f.reg = 0x80100 ∧ (f.lo = 12 ∨ f.lo + 2 < 12)) f hf
  obtain ⟨hreg, hlo⟩ := hplace
  simp only [clearFlds, List.mem_cons, List.not_mem_nil, or_false] at hg
  obtain rfl | rfl := hg
  · right
    simp only [Fld.bit]
    omega
  · left
    simp only [Fld.bit, hreg]
    decide

theorem kClears_kClearOne (hne : j ≠ k) : (c.kClearOne j).kClears k = c.kClears k := by
  rw [kClears, rgB_kClearOne_other c hj hk hne kfault_contactor, rgB_kClearOne_other c hj hk hne kfb_contactor, kClears]

end

theorem rgN_kClearOne_other (c : Channel) {j k : Nat} (hk : k < 3) (hne : j ≠ k) :
    (c.kClearOne j).rgN (SAFE_KSTAT_KIND k) = c.rgN (SAFE_KSTAT_KIND k) := by
  refine rgN_congr (c.rg_kClearOne (quiet_kind hk) fun g hg => ?_)
  simp only [clearFlds, List.mem_cons, List.not_mem_nil, or_false] at hg
  obtain rfl | rfl := hg
  · left
    simp only [Fld.bit]
    decide
  · right
    simp only
    omega

/-- In its own turn a faulted contactor stays faulted where its feedback reports it closed; else its kind goes too. -/
theorem kClearOne_same {c : Channel} {k : Nat} (hk : k < 3) (h : c.rgB (SAFE_STAT_KFAULT.bit k) = true) :
    (c.kClearOne k).rgB (SAFE_STAT_KFAULT.bit k) = c.rgB (SAFE_STAT_KFB.bit k) ∧
      (c.rgB (SAFE_STAT_KFB.bit k) = false → (c.kClearOne k).rgN (SAFE_KSTAT_KIND k) = 0) := by
  cases hfb : c.rgB (SAFE_STAT_KFB.bit k) with
  | true =>
    rw [kClearOne_of_not (by rw [kClears, h, hfb]; rfl)]
    exact ⟨h, nofun⟩
  | false =>
    rw [kClearOne_of_clears (by rw [kClears, h, hfb]; rfl)]
    refine ⟨(rgB_evKmon hk _ 5 kfault_contactor).trans ?_, fun _ => ?_⟩
    · rw [rgB_setN_kind hk _ _ kfault_contactor, rgB_setB_contactor hk c _ kfault_contactor]
    · exact (rgN_congr (rg_raise _ _ _ (quiet_kind hk) (by decide))).trans (rgN_setN_kind hk _ (by decide))

theorem foldl_kClearOne_same {c : Channel} {k : Nat} (hk : k < 3) (h : c.rgB (SAFE_STAT_KFAULT.bit k) = true) :
    ([0, 1, 2].foldl kClearOne c).rgB (SAFE_STAT_KFAULT.bit k) = c.rgB (SAFE_STAT_KFB.bit k) ∧
      (c.rgB (SAFE_STAT_KFB.bit k) = false → ([0, 1, 2].foldl kClearOne c).rgN (SAFE_KSTAT_KIND k) = 0) := by
  refine foldl_contactors hk (f := kClearOne)
    (P := fun z => z.rgB (SAFE_STAT_KFAULT.bit k) = true ∧ z.rgB (SAFE_STAT_KFB.bit k) = c.rgB (SAFE_STAT_KFB.bit k))
    (Q := fun z => z.rgB (SAFE_STAT_KFAULT.bit k) = c.rgB (SAFE_STAT_KFB.bit k) ∧
      (c.rgB (SAFE_STAT_KFB.bit k) = false → z.rgN (SAFE_KSTAT_KIND k) = 0)) ?before ?turn ?after ⟨h, rfl⟩
  case before =>
    intro z j hj hne hz
    rw [rgB_kClearOne_other z hj hk hne kfault_contactor, rgB_kClearOne_other z hj hk hne kfb_contactor]
    exact hz
  case turn =>
    intro z ⟨hfault, hfb⟩
    rw [← hfb]
    exact kClearOne_same hk hfault
  case after =>
    intro z j hj hne hz
    rw [rgB_kClearOne_other z hj hk hne kfault_contactor, rgN_kClearOne_other z hk hne]
    exact hz

/-! ## The stamps of EV_KMON (R167) -/

end Channel

/-- What waits of EV_KMON. -/
def Domain.kmon (d : Domain) : List Event := d.evq.filter fun e => e.src == 0x72

theorem Domain.Raised.kmon_eq {E : Nat → Prop} {a b : Domain} (h : Domain.Raised E a b) (hE : ¬E 0x72) : b.kmon = a.kmon :=
  h.ofSource hE (by decide)

/-- The stamp that the next EV_KMON takes (R167). -/
def Domain.kmonNext (d : Domain) : Nat := max d.time (sget 0 d.evNext 0x72)

theorem Domain.raise_kmon {d : Domain} (arg : Nat) (h : d.kmon.length < 4) :
    (d.raise 0x72 arg).kmon = d.kmon ++ [⟨0x72, d.kmonNext, BitVec.ofNat 16 arg⟩] ∧
      (d.raise 0x72 arg).kmonNext = d.kmonNext + 1 := by
  constructor
  · exact (congrArg _ (Domain.evq_raiseAt d d.time 0x72 arg h)).trans (List.filter_append _ _)
  · have hnext := Domain.evNext_raiseAt d d.time 0x72 arg h
    unfold Domain.kmonNext
    rw [Domain.raise, hnext, Domain.raiseAt_time]
    omega

namespace Channel

/-- Clearing contactor j tells it with the next stamp. -/
theorem kClearOne_told {c : Channel} {j : Nat} (h : c.kClears j = true) (hroom : c.dom.kmon.length < 4) :
    (c.kClearOne j).dom.kmon.map (·.stamp) = c.dom.kmon.map (·.stamp) ++ [c.dom.kmonNext] ∧
      (c.kClearOne j).dom.kmonNext = c.dom.kmonNext + 1 := by
  have hd : (c.kClearOne j).dom =
      ((c.dom.setB (SAFE_STAT_KFAULT.bit j) false).setN (SAFE_KSTAT_KIND j) 0).raise 0x72 (j + 16 * 5) := by
    rw [kClearOne_of_clears h]
    rfl
  obtain ⟨hkmon, hnext⟩ := Domain.raise_kmon
    (d := (c.dom.setB (SAFE_STAT_KFAULT.bit j) false).setN (SAFE_KSTAT_KIND j) 0) (j + 16 * 5) hroom
  rw [hd]
  exact ⟨by rw [hkmon, List.map_append]; rfl, hnext⟩

/-- The faults that one KCLR clears are told with rising stamps. -/
theorem foldl_kClearOne_told (l : List Nat) (hl : l.Nodup) (h3 : ∀ j ∈ l, j < 3) (c : Channel)
    (hroom : c.dom.kmon.length + l.length ≤ 4) :
    (l.foldl kClearOne c).dom.kmon.map (·.stamp) =
      c.dom.kmon.map (·.stamp) ++ (l.filter c.kClears).zipIdx.map fun p => c.dom.kmonNext + p.2 := by
  induction l generalizing c with
  | nil => simp
  | cons j l ih =>
    obtain ⟨hj, hl⟩ := List.nodup_cons.1 hl
    have hrest : l.filter (c.kClearOne j).kClears = l.filter c.kClears := List.filter_congr fun k hk =>
      kClears_kClearOne c (h3 j (by simp)) (h3 k (by simp [hk])) fun he => hj (he ▸ hk)
    rw [List.length_cons] at hroom
    have ih := ih hl (fun k hk => h3 k (by simp [hk])) (c.kClearOne j)
    rw [hrest] at ih
    cases hc : c.kClears j with
    | false =>
      rw [kClearOne_of_not hc] at ih
      rw [List.foldl_cons, kClearOne_of_not hc, List.filter_cons_of_neg (by rw [hc]; decide)]
      exact ih (by omega)
    | true =>
      obtain ⟨htold, hnext⟩ := kClearOne_told hc (by omega)
      have hlen := congrArg List.length htold
      rw [List.length_map, List.length_append, List.length_map, List.length_singleton] at hlen
      rw [List.foldl_cons, ih (by omega), htold, hnext, List.filter_cons_of_pos hc, List.zipIdx_cons, List.map_cons,
        List.zipIdx_succ, List.map_map, List.append_assoc]
      simp only [Function.comp_def, List.singleton_append, Nat.add_zero, Nat.add_assoc, Nat.add_comm 1]

/-- A write of SAFE_CMD with KCLR: what the bits before it leave, and what follows the contactors' turns. -/
theorem safeCmd_kclr {c : Channel} {w : Word} (h : bitOf w 2 = true) : ∃ z,
    SafeSide (fun f => f ∈ demandFlds ∨ f = SAFE_STAT_SS1PH) (· < 0x72) c z ∧
      SafeSide (fun _ => True) (· < 0x72) ([0, 1, 2].foldl kClearOne z) (c.safeCmd w) := by
  unfold safeCmd
  extract_lets c1 c2 c3 c4 c5
  have hW : ∀ f ∈ demandFlds, f ∈ demandFlds ∨ f = SAFE_STAT_SS1PH := fun f hf => .inl hf
  have h1 : SafeSide (fun f => f ∈ demandFlds ∨ f = SAFE_STAT_SS1PH) (· < 0x72) c c1 :=
    .ite ((SafeSide.refl c).stoTest hW) (.refl c)
  have h2 : SafeSide (fun f => f ∈ demandFlds ∨ f = SAFE_STAT_SS1PH) (· < 0x72) c c2 :=
    .ite (h1.stoRestart hW (by decide)) h1
  have h3 : SafeSide (fun f => f ∈ demandFlds ∨ f = SAFE_STAT_SS1PH) (· < 0x72) c c3 :=
    .ite (h2.ss1Request (.inr rfl) (by decide)) h2
  refine ⟨c4, .ite (h3.ss1Clear hW (.inr rfl) (by decide) (by decide)) h3, ?_⟩
  have h5 : c5 = ([0, 1, 2].foldl kClearOne c4).safeEval := by simp only [c5, h, if_true]
  have hside : SafeSide (fun _ => True) (· < 0x72) ([0, 1, 2].foldl kClearOne c4) c5 := by
    rw [h5]
    exact (SafeSide.refl _).safeEval (fun _ _ => trivial) (by decide)
  exact .ite (.ite hside (hside.setB _ trivial)) hside

/-- The stamps of EV_KMON after a write of SAFE_CMD with KCLR (R167; log 46). -/
theorem safeCmd_kclr_told {c : Channel} {w : Word} (h : bitOf w 2 = true) (hroom : c.dom.kmon.length ≤ 1) :
    (c.safeCmd w).dom.kmon.map (·.stamp) =
      c.dom.kmon.map (·.stamp) ++ ((List.range 3).filter c.kClears).zipIdx.map fun p => c.dom.kmonNext + p.2 := by
  obtain ⟨z, hz, hafter⟩ := safeCmd_kclr h
  have hkmon : z.dom.kmon = c.dom.kmon := hz.dom.kmon_eq (by decide)
  have hnext : z.dom.kmonNext = c.dom.kmonNext := by
    rw [Domain.kmonNext, hz.dom.time, hz.dom.next 0x72 (by decide), Domain.kmonNext]
  have hread (f : Fld) (hf : f ∈ contactorFlds) (k : Nat) (hk : k < 3) : z.rgB (f.bit k) = c.rgB (f.bit k) := by
    have hq := quiet_contactor hk hf
    refine rgB_apart (hz.dom.rg _ hq.1 hq.2.2.1 fun g hg => ?_)
    have hplace := contactorFlds_place f hf
    have hdem : ∀ g ∈ SAFE_STAT_SS1PH :: demandFlds, g.reg < 0x80000 ∨ g.reg = 0x80100 ∧ 24 ≤ g.lo := by decide
    have hg := hdem g (hg.elim (List.mem_cons_of_mem _) (fun he => he ▸ List.mem_cons_self))
    have hlo : f.lo + 2 < 24 := (by decide : ∀ f ∈ contactorFlds, f.lo + 2 < 24) f hf
    simp only [Fld.Apart, Fld.bit]
    omega
  have hclears : (List.range 3).filter z.kClears = (List.range 3).filter c.kClears := List.filter_congr fun k hk => by
    have hk := List.mem_range.1 hk
    rw [kClears, hread SAFE_STAT_KFAULT (by decide) k hk, hread SAFE_STAT_KFB (by decide) k hk, kClears]
  rw [hafter.dom.kmon_eq (by decide)]
  refine (foldl_kClearOne_told [0, 1, 2] (by decide) (by decide) z (by rw [hkmon]; exact Nat.add_le_add_right hroom 3)).trans ?_
  rw [hkmon, hnext]
  exact congrArg (fun l => c.dom.kmon.map (·.stamp) ++ l.zipIdx.map fun p => c.dom.kmonNext + p.2) hclears

end Channel
end Sys2Proof.Machine
end

section
/-! PROOF. Safe stop 1 and the contactors: what each command answers (R167, R419 to R424). -/

namespace Sys2Proof.Machine

theorem close_nonzero {k : Nat} (hk : k < 3) :
    fget (BitVec.ofNat 32 (2 ^ k)) SAFE_KCMD_CLOSE.hi SAFE_KCMD_CLOSE.lo ≠ 0 :=
  (by decide : ∀ k < 3, fget (BitVec.ofNat 32 (2 ^ k)) 2 0 ≠ 0) k hk

theorem open_nonzero {k : Nat} (hk : k < 3) :
    fget (BitVec.ofNat 32 (8 * 2 ^ k)) SAFE_KCMD_OPEN.hi SAFE_KCMD_OPEN.lo ≠ 0 :=
  (by decide : ∀ k < 3, fget (BitVec.ofNat 32 (8 * 2 ^ k)) 5 3 ≠ 0) k hk

section
variable {s : State} {c : Chan} {w : Word} (hu : s.up c)
include hu

/-! ## Safe stop 1 (R419 to R421) -/

theorem ss1req_answers (hph : (s.ch c).rgN SAFE_STAT_SS1PH = 0) (hdem : (s.ch c).rgB SAFE_STAT_STODEM = false)
    (hroom : HasRoom (s.ch c).dom 0x71) : ChAnswers (.ss1req c 0x10) s c (fun y => y.rgN SAFE_STAT_SS1PH = 1 ∧
      y.safe.ss1In = false ∧ y.safe.ss1T = (s.ch c).lvN SAFE_SS1CFG_SS1T ∧ y.safe.ss1Start = (s.ch c).weir.absOmega ∧
      Waits (s.ch c).dom y.dom 0x71 2 ∧ y.pwm = (s.ch c).pwm ∧ SafeKept (s.ch c) y) := by
  have hf : (s.ch c).ss1Request = (s.ch c).ss1Begin false := if_neg (by rw [hph, hdem]; decide)
  have hside : SafeOnly (s.ch c) (s.ch c).ss1Request :=
    (SafeSide.refl _).ss1Request trivial trivial
  have hwaits : Waits (s.ch c).dom ((s.ch c).ss1Begin false).dom 0x71 2 := .raise _ _ _ _ hroom rfl
  have hph1 : ((s.ch c).ss1Begin false).rgN SAFE_STAT_SS1PH = 1 :=
    (Channel.rgN_raise_ss1 _ _ _ (by decide)).trans ((s.ch c).rgN_setN_ss1 (by decide))
  refine .of (f := Channel.ss1Request) rfl hu fun y hy => ?_
  have hkept := hside.kept.counted hy
  rw [hf] at hy
  refine ⟨(hy.rgN _ (by decide)).trans hph1, ?_, ?_, ?_, hy.waits hwaits, hy.pwm, hkept⟩ <;> rw [hy.safe] <;> rfl

theorem ss1req_refused (h : (s.ch c).rgN SAFE_STAT_SS1PH ≠ 0 ∨ (s.ch c).rgB SAFE_STAT_STODEM = true) :
    ChBecomes (.ss1req c 0x10) s c (s.ch c) := .of_eq (f := Channel.ss1Request) rfl hu (if_pos h)

theorem ss1clr_answers (hph : (s.ch c).rgN SAFE_STAT_SS1PH ≠ 0) (hin : (s.ch c).safe.ss1In = false)
    (ha : (s.ch c).rgB SAFE_STAT_STOA = true) (hb : (s.ch c).rgB SAFE_STAT_STOB = true) :
    ChAnswers (.ss1clr c 8) s c (fun y => y.rgN SAFE_STAT_SS1PH = 0 ∧
      ((s.ch c).rgN SAFE_STAT_SS1PH = 1 → HasRoom (s.ch c).dom 0x71 → Waits (s.ch c).dom y.dom 0x71 6) ∧
      SafeKept (s.ch c) y) := by
  have hf : (s.ch c).ss1Clear = (s.ch c).ss1End.safeEval := if_pos ⟨hph, hin, ha, hb⟩
  have hside : SafeOnly (s.ch c) (s.ch c).ss1Clear :=
    (SafeSide.refl _).ss1Clear (fun _ _ => trivial) trivial trivial trivial
  have heval : SafeOnly (s.ch c).ss1End (s.ch c).ss1End.safeEval :=
    (SafeSide.refl _).safeEval (fun _ _ => trivial) trivial
  refine .of (f := Channel.ss1Clear) rfl hu fun y hy => ?_
  have hkept := hside.kept.counted hy
  rw [hf] at hy
  exact ⟨(hy.rgN _ (by decide)).trans ((Channel.rgN_safeEval_ss1 _).trans (Channel.rgN_ss1End _)),
    fun h1 hroom => hy.waits (heval.dom.waits (Channel.ss1End_waits h1 hroom)), hkept⟩

theorem ss1clr_refused (h : (s.ch c).safe.ss1In = true ∨
    ¬((s.ch c).rgB SAFE_STAT_STOA = true ∧ (s.ch c).rgB SAFE_STAT_STOB = true)) :
    ChBecomes (.ss1clr c 8) s c (s.ch c) := by
  refine .of_eq (f := Channel.ss1Clear) rfl hu (if_neg fun ⟨_, hin, hboth⟩ => ?_)
  exact h.elim (fun hin' => by rw [hin] at hin'; cases hin') fun hnot => hnot hboth

theorem ss1TimerExpiry_answers (hph : (s.ch c).rgN SAFE_STAT_SS1PH = 1) (hroom : HasRoom (s.ch c).dom 0x71) :
    ChAnswers (.ss1TimerExpiry c) s c (fun y => y.rgN SAFE_STAT_SS1PH = 2 ∧ y.rgB SAFE_STAT_STODEM = true ∧
      y.elementA = true ∧ y.gen = false ∧ Waits (s.ch c).dom y.dom 0x71 4 ∧ SafeKept (s.ch c) y) := by
  have hf : (s.ch c).ss1Timer = (s.ch c).ss1Sto 4 := by rw [Channel.ss1Timer, decide_eq_true hph, Channel.when_true]
  refine .of (f := Channel.ss1Timer) rfl hu fun y hy => ?_
  rw [hf] at hy
  have hdem : y.rgB SAFE_STAT_STODEM = true := (hy.rgB _ (by decide)).trans (Channel.ss1Sto_demands _ _)
  exact ⟨(hy.rgN _ (by decide)).trans (Channel.rgN_ss1Sto _ _), hdem, Channel.elementA_of_demand hdem,
    Channel.gen_of_demand hdem, hy.waits (Channel.ss1Sto_waits 4 hroom), (Channel.ss1Sto_kept _ _).counted hy⟩

theorem ss1TimerExpiry_idle (hph : (s.ch c).rgN SAFE_STAT_SS1PH ≠ 1) : ChBecomes (.ss1TimerExpiry c) s c (s.ch c) :=
  .of_eq (f := Channel.ss1Timer) rfl hu (by rw [Channel.ss1Timer, decide_eq_false hph, Channel.when_false])

/-! ## Contactor commands (R422) -/

theorem contactorClose_becomes :
    (fget w SAFE_KCMD_CLOSE.hi SAFE_KCMD_CLOSE.lo ≠ 0 → ChBecomes (.contactorClose c w) s c ((s.ch c).kCmd w)) ∧
      (fget w SAFE_KCMD_CLOSE.hi SAFE_KCMD_CLOSE.lo = 0 → ChBecomes (.contactorClose c w) s c (s.ch c)) :=
  ⟨fun h => .of_eq rfl hu (if_pos (bne_iff_ne.2 h)), fun h => .of_eq rfl hu (if_neg fun hn => bne_iff_ne.1 hn h)⟩

theorem contactorOpen_becomes :
    (fget w SAFE_KCMD_OPEN.hi SAFE_KCMD_OPEN.lo ≠ 0 → ChBecomes (.contactorOpen c w) s c ((s.ch c).kCmd w)) ∧
      (fget w SAFE_KCMD_OPEN.hi SAFE_KCMD_OPEN.lo = 0 → ChBecomes (.contactorOpen c w) s c (s.ch c)) :=
  ⟨fun h => .of_eq rfl hu (if_pos (bne_iff_ne.2 h)), fun h => .of_eq rfl hu (if_neg fun hn => bne_iff_ne.1 hn h)⟩

variable {k : Nat} (hk : k < 3)
include hk

theorem contactorClose_closes (hen : (s.ch c).lvB (SAFE_KCFG_EN k) = true)
    (hfault : (s.ch c).rgB (SAFE_STAT_KFAULT.bit k) = false) :
    ChAnswers (.contactorClose c (BitVec.ofNat 32 (2 ^ k))) s c (fun y => y.rgB (SAFE_STAT_KCL.bit k) = true ∧
      ((s.ch c).rgB (SAFE_STAT_KCL.bit k) = false → y.safe.conf.getLsbD k = (s.ch c).rgB (SAFE_STAT_KFB.bit k)) ∧
      y.pwm = (s.ch c).pwm ∧ SafeKept (s.ch c) y) := by
  obtain ⟨t, ht, hy, hout⟩ := (contactorClose_becomes hu).1 (close_nonzero hk)
  rw [Channel.kCmd_close hk hen, hfault] at hy
  have hside : SafeOnly (s.ch c) ((s.ch c).kout k true) :=
    (SafeSide.refl _).kout k true trivial
  refine ⟨t, ht, ⟨(hy.rgB _ (Channel.quiet_contactor hk Channel.kcl_contactor)).trans (Channel.rgB_kout hk _ true),
    fun hcl => ?_, hy.pwm.trans (Channel.kout_pwm _ k true), hside.kept.counted hy⟩, hout⟩
  rw [hy.safe]
  exact (Channel.conf_kout hk (by rw [hcl]; decide)).trans (beq_true _)

theorem contactorClose_refused (hen : (s.ch c).lvB (SAFE_KCFG_EN k) = true)
    (hfault : (s.ch c).rgB (SAFE_STAT_KFAULT.bit k) = true) (hroom : HasRoom (s.ch c).dom 0x72) :
    ChAnswers (.contactorClose c (BitVec.ofNat 32 (2 ^ k))) s c (fun y =>
      y.rgB (SAFE_STAT_KCL.bit k) = (s.ch c).rgB (SAFE_STAT_KCL.bit k) ∧ Waits (s.ch c).dom y.dom 0x72 (k + 0x60) ∧
      y.safe = (s.ch c).safe ∧ SafeKept (s.ch c) y) := by
  obtain ⟨t, ht, hy, hout⟩ := (contactorClose_becomes hu).1 (close_nonzero hk)
  rw [Channel.kCmd_close hk hen, hfault] at hy
  have hside : SafeOnly (s.ch c) ((s.ch c).evKmon k 6) := (SafeSide.refl _).raise _ trivial (by decide)
  have hwaits : Waits (s.ch c).dom ((s.ch c).evKmon k 6).dom 0x72 (k + 0x60) := .raise _ _ _ _ hroom rfl
  exact ⟨t, ht, ⟨(hy.rgB _ (Channel.quiet_contactor hk Channel.kcl_contactor)).trans
    (Channel.rgB_evKmon hk _ 6 Channel.kcl_contactor), hy.waits hwaits, hy.safe, hside.kept.counted hy⟩, hout⟩

theorem contactorOpen_opens : ChAnswers (.contactorOpen c (BitVec.ofNat 32 (8 * 2 ^ k))) s c (fun y =>
    y.rgB (SAFE_STAT_KCL.bit k) = false ∧ y.pwm = (s.ch c).pwm ∧ SafeKept (s.ch c) y) := by
  obtain ⟨t, ht, hy, hout⟩ := (contactorOpen_becomes hu).1 (open_nonzero hk)
  rw [Channel.kCmd_open hk] at hy
  have hside : SafeOnly (s.ch c) ((s.ch c).kout k false) :=
    (SafeSide.refl _).kout k false trivial
  exact ⟨t, ht, ⟨(hy.rgB _ (Channel.quiet_contactor hk Channel.kcl_contactor)).trans (Channel.rgB_kout hk _ false),
    hy.pwm.trans (Channel.kout_pwm _ k false), hside.kept.counted hy⟩, hout⟩

end

/-! ## Contactor feedback and its limits (R423) -/

section
variable {s : State} {c : Chan} {q : BitVec 2} (level : Bool) (hu : s.up c) (hk : q.toNat < 3)
include hu hk

/-- A feedback report once inputs are sampled. -/
theorem contactorFeedback_becomes (hs : 2 ≤ (s.ch c).rgN SYS_BOOTSTAT_PHASE) :
    ChBecomes (.contactorFeedbackChange c q level) s c
      ((s.ch c).kReport q.toNat (level != (s.ch c).lvB (SAFE_KCFG_FBPOL q.toNat))) := by
  refine .of_eq rfl hu ?_
  show (s.ch c).when (s.ch c).sampled (·.kFeedback q.toNat level) = _
  rw [Channel.sampled, decide_eq_true hs, Channel.when_true, Channel.kFeedback_eq _ hk]

theorem contactorFeedback_shown (hs : 2 ≤ (s.ch c).rgN SYS_BOOTSTAT_PHASE) :
    ChAnswers (.contactorFeedbackChange c q level) s c (fun y =>
      y.rgB (SAFE_STAT_KFB.bit q.toNat) = (level != (s.ch c).lvB (SAFE_KCFG_FBPOL q.toNat)) ∧ SafeKept (s.ch c) y) := by
  obtain ⟨t, ht, hy, hout⟩ := contactorFeedback_becomes level hu hk hs
  exact ⟨t, ht, ⟨(hy.rgB _ (Channel.quiet_contactor hk Channel.kfb_contactor)).trans (Channel.rgB_kReport hk _),
    (Channel.kReport_side _ _ _).kept.counted hy⟩, hout⟩

/-- A report that agrees with the command, or of a contactor in fault, leaves all but the report and the confirmation. -/
theorem contactorFeedback_confirms (hs : 2 ≤ (s.ch c).rgN SYS_BOOTSTAT_PHASE) {conf : Bool}
    (hf : (s.ch c).kReport q.toNat (level != (s.ch c).lvB (SAFE_KCFG_FBPOL q.toNat)) =
      ((s.ch c).setB (SAFE_STAT_KFB.bit q.toNat) (level != (s.ch c).lvB (SAFE_KCFG_FBPOL q.toNat))).setConf q.toNat conf) :
    ChAnswers (.contactorFeedbackChange c q level) s c (fun y =>
      y.rgB (SAFE_STAT_KFB.bit q.toNat) = (level != (s.ch c).lvB (SAFE_KCFG_FBPOL q.toNat)) ∧
      y.safe.conf.getLsbD q.toNat = conf ∧ y.rgB (SAFE_STAT_KCL.bit q.toNat) = (s.ch c).rgB (SAFE_STAT_KCL.bit q.toNat) ∧
      y.rgB (SAFE_STAT_KFAULT.bit q.toNat) = (s.ch c).rgB (SAFE_STAT_KFAULT.bit q.toNat) ∧
      y.pwm = (s.ch c).pwm ∧ SafeKept (s.ch c) y) := by
  obtain ⟨t, ht, hy, hout⟩ := contactorFeedback_becomes level hu hk hs
  have hfb := (hy.rgB _ (Channel.quiet_contactor hk Channel.kfb_contactor)).trans (Channel.rgB_kReport hk _)
  have hkept := (Channel.kReport_side _ _ _).kept.counted hy
  rw [hf] at hy
  refine ⟨t, ht, ⟨hfb, ?_, ?_, ?_, hy.pwm, hkept⟩, hout⟩
  · rw [hy.safe]
    exact Channel.getLsbD_setConf _ hk conf
  · exact (hy.rgB _ (Channel.quiet_contactor hk Channel.kcl_contactor)).trans
      (Channel.rgB_setB_other hk _ _ Channel.kcl_contactor (by decide))
  · exact (hy.rgB _ (Channel.quiet_contactor hk Channel.kfault_contactor)).trans
      (Channel.rgB_setB_other hk _ _ Channel.kfault_contactor (by decide))

variable (hen : (s.ch c).lvB (SAFE_KCFG_EN q.toNat) = true)
include hen

omit level in
theorem contactorTimeLimit_faults (hfault : (s.ch c).rgB (SAFE_STAT_KFAULT.bit q.toNat) = false)
    (hconf : (s.ch c).safe.conf.getLsbD q.toNat = false) (hroom : HasRoom (s.ch c).dom 0x72) :
    ChAnswers (.contactorTimeLimit c q) s c
      (Channel.KFaulted (s.ch c) q.toNat (if (s.ch c).rgB (SAFE_STAT_KCL.bit q.toNat) then 2 else 1)) := by
  refine .of (f := (·.kLimit q.toNat)) rfl hu fun y hy => ?_
  rw [Channel.kLimit_eq hk hen hfault hconf] at hy
  exact (Channel.kFault_faulted hk (by split <;> decide) hroom).counted hk hy

/-- A report that contradicts a confirmed command is a fault. -/
theorem contactorFeedback_faults (hs : 2 ≤ (s.ch c).rgN SYS_BOOTSTAT_PHASE)
    (hfault : (s.ch c).rgB (SAFE_STAT_KFAULT.bit q.toNat) = false)
    (hne : (level != (s.ch c).lvB (SAFE_KCFG_FBPOL q.toNat)) ≠ (s.ch c).rgB (SAFE_STAT_KCL.bit q.toNat))
    (hconf : (s.ch c).safe.conf.getLsbD q.toNat = true) (hroom : HasRoom (s.ch c).dom 0x72) :
    ChAnswers (.contactorFeedbackChange c q level) s c (fun y =>
      y.rgB (SAFE_STAT_KFB.bit q.toNat) = (level != (s.ch c).lvB (SAFE_KCFG_FBPOL q.toNat)) ∧
      Channel.KFaulted (s.ch c) q.toNat (if (s.ch c).rgB (SAFE_STAT_KCL.bit q.toNat) then 3 else 4) y) := by
  obtain ⟨t, ht, hy, hout⟩ := contactorFeedback_becomes level hu hk hs
  have hfb := (hy.rgB _ (Channel.quiet_contactor hk Channel.kfb_contactor)).trans (Channel.rgB_kReport hk _)
  rw [Channel.kReport_of_confirmed hk hen hfault hne hconf] at hy
  have hfaulted : Channel.KFaulted (s.ch c) q.toNat (if (s.ch c).rgB (SAFE_STAT_KCL.bit q.toNat) then 3 else 4) _ :=
    Channel.kFault_faulted (c := (s.ch c).setB (SAFE_STAT_KFB.bit q.toNat) (level != (s.ch c).lvB (SAFE_KCFG_FBPOL q.toNat)))
      hk (by split <;> decide) hroom
  exact ⟨t, ht, ⟨hfb, hfaulted.counted hk hy⟩, hout⟩

end

/-! ## KCLR (R424) -/

section
variable {s : State} {c : Chan} {w : Word} (hu : s.up c)
include hu

theorem kclr_told (hw : w.getLsbD 2 = true) (hroom : (s.ch c).dom.kmon.length ≤ 1) :
    ChAnswers (.kclr c w) s c (fun y => y.dom.kmon.map (·.stamp) = (s.ch c).dom.kmon.map (·.stamp) ++
      ((List.range 3).filter (s.ch c).kClears).zipIdx.map fun p => (s.ch c).dom.kmonNext + p.2) := by
  have hf : (s.ch c).when (bitOf w 2) (·.safeCmd w) = (s.ch c).safeCmd w := if_pos hw
  refine .of_raised (f := (·.when (bitOf w 2) (·.safeCmd w))) rfl hu fun y _ hy => ?_
  rw [hf] at hy
  rw [hy.kmon_eq (by decide)]
  exact Channel.safeCmd_kclr_told hw hroom

theorem kclr_clears {k : Nat} (hk : k < 3) (hfault : (s.ch c).rgB (SAFE_STAT_KFAULT.bit k) = true) :
    ChAnswers (.kclr c 4) s c (fun y =>
      y.rgB (SAFE_STAT_KFAULT.bit k) = (s.ch c).rgB (SAFE_STAT_KFB.bit k) ∧
      ((s.ch c).rgB (SAFE_STAT_KFB.bit k) = false → y.rgN (SAFE_KSTAT_KIND k) = 0) ∧ SafeKept (s.ch c) y) := by
  obtain ⟨hcleared, hkind⟩ := Channel.foldl_kClearOne_same hk hfault
  have hside : SafeOnly (s.ch c) ([0, 1, 2].foldl Channel.kClearOne (s.ch c)).safeEval :=
    (SafeSide.foldl (fun _ j _ h => Channel.kClearOne_side h j (fun _ _ => trivial) trivial) (.refl _)).safeEval
      (fun _ _ => trivial) trivial
  refine .of (f := fun x => ([0, 1, 2].foldl Channel.kClearOne x).safeEval) rfl hu fun y hy => ?_
  refine ⟨(hy.rgB _ (Channel.quiet_contactor hk Channel.kfault_contactor)).trans ?_, fun hfb => ?_, hside.kept.counted hy⟩
  · exact (Channel.rgB_safeEval_contactor hk _ Channel.kfault_contactor).trans hcleared
  · exact (hy.rgN _ (Channel.quiet_kind hk)).trans ((Channel.rgN_safeEval_kind hk _).trans (hkind hfb))

end

/-! ## The obligation -/

/-- Settles O39, from what each command of safe stop 1 and of a contactor answers. -/
theorem safeStopAndContactors : Obligations.SafeStopAndContactors := by
  unfold Obligations.SafeStopAndContactors
  intro s c q level w hu x sampled k kept both faulted
  refine ⟨?commands, ss1req_answers hu, ss1req_refused hu, fun hph hin hboth => ss1clr_answers hu hph hin hboth.1 hboth.2,
    ss1clr_refused hu, ss1TimerExpiry_answers hu, ss1TimerExpiry_idle hu, fun hk hen => ?contactor,
    fun hs hk => contactorFeedback_shown level hu hk hs, fun hk => ?none, fun hw hroom => kclr_told hu hw hroom,
    fun hk hfault => kclr_clears hu hk hfault⟩
  case commands =>
    simp only [List.forall_mem_cons, List.not_mem_nil, false_implies, implies_true, and_true]
    exact ⟨contactorClose_becomes hu, contactorOpen_becomes hu⟩
  case contactor =>
    intro fault closed cl
    refine ⟨contactorClose_closes hu hk hen, contactorClose_refused hu hk hen, contactorOpen_opens hu hk, ?agrees,
      fun hs hfault hne hconf hroom => contactorFeedback_faults level hu hk hen hs hfault hne hconf hroom, ?waits, ?inFault,
      contactorTimeLimit_faults hu hk hen⟩
    case agrees =>
      intro hs hfault hagree
      obtain ⟨t, ht, ⟨hfb, hconf, hcl, -, hpwm, hkept⟩, hout⟩ :=
        contactorFeedback_confirms level hu hk hs (Channel.kReport_of_agrees hk hen hfault hagree)
      exact ⟨t, ht, ⟨hfb, hconf, hcl, hpwm, hkept⟩, hout⟩
    case waits =>
      intro hs hfault hne hconf
      exact Channel.kReport_of_unconfirmed hk hen hfault hne hconf ▸ contactorFeedback_becomes level hu hk hs
    case inFault =>
      intro hs hfault
      obtain ⟨t, ht, ⟨hfb, -, hcl, hstill, hpwm, hkept⟩, hout⟩ :=
        contactorFeedback_confirms level hu hk hs (Channel.kReport_of_fault hk hen hfault)
      exact ⟨t, ht, ⟨hfb, hcl, hstill.trans hfault, hpwm, hkept⟩, hout⟩
  case none =>
    have hnot : decide (k < 3) = false := decide_eq_false (by omega)
    simp only [List.forall_mem_cons, List.not_mem_nil, false_implies, implies_true, and_true]
    refine ⟨.of_eq rfl hu ?_, .of_eq rfl hu ?_⟩
    · show x.when x.sampled (fun y => y.when (decide (k < 3)) _) = x
      rw [hnot]
      exact ite_self _
    · show x.when (decide (k < 3) && _ && _ && _) _ = x
      rw [hnot]
      rfl

end Sys2Proof.Machine
end

section
/-! PROOF. What the blocks' parts in a carrier boundary leave as it was: live values and live writes, the live hold, the
boundary that is due, the period, and EV_CBND (R163, R166, R183, R279). -/

namespace Sys2Proof.Machine

/-- From channel a to b a block has played its part in a boundary: the live bank, the live writes and the live hold stand, the
period too, and EV_CBND has not been raised. -/
structure BoundaryKept (a b : Channel) : Prop where
  dom : a.dom.Wrote (fun f => 0x20000 ≤ f.reg) (· ≠ 0x25) b.dom
  live : b.live = a.live
  rwlNext : b.rwlNext = a.rwlNext
  rwlHeld : b.rwlHeld = a.rwlHeld
  held : b.holdBoundaries = a.holdBoundaries
  due : b.pwm.bndDue = a.pwm.bndDue
  per : b.pwm.per = a.pwm.per

theorem Domain.Wrote.setLsc {W : Fld → Prop} {E : Nat → Prop} {a b : Domain} (h : Domain.Wrote W E a b) (f : Lsc → Lsc) :
    Domain.Wrote W E a (b.setLsc f) := ⟨h.silent rfl rfl rfl rfl, h.rg⟩

namespace BoundaryKept
variable {a c d : Channel}

theorem refl (a : Channel) : BoundaryKept a a := ⟨.refl _, rfl, rfl, rfl, rfl, rfl, rfl⟩

theorem ite {p : Prop} [Decidable p] (hx : BoundaryKept a c) (hy : BoundaryKept a d) :
    BoundaryKept a (if p then c else d) := by
  split
  · exact hx
  · exact hy

theorem foldl {α : Type} {f : Channel → α → Channel} {l : List α}
    (hf : ∀ c, ∀ x ∈ l, BoundaryKept a c → BoundaryKept a (f c x)) (h : BoundaryKept a c) :
    BoundaryKept a (l.foldl f c) :=
  List.foldlRecOn _ _ h fun c hc x hx => hf c x hx hc

section
variable (h : BoundaryKept a c)
include h

/-- What a boundary rests on stays; the blocks have the rest to themselves. -/
theorem block {d pl cm rf rt hp po pb w ps ad g ca sa t dr} {p : Pwm}
    (hd : a.dom.Wrote (fun f => 0x20000 ≤ f.reg) (· ≠ 0x25) d) (hdue : p.bndDue = c.pwm.bndDue)
    (hper : p.per = c.pwm.per) :
    BoundaryKept a ⟨d, pl, c.live, cm, rf, rt, hp, po, pb, c.rwlNext, c.rwlHeld, c.holdBoundaries, w, ps, ad, p, g, ca, sa,
      t, dr⟩ :=
  ⟨hd, h.live, h.rwlNext, h.rwlHeld, h.held, hdue.trans h.due, hper.trans h.per⟩

/-- Other blocks than the bridge. -/
theorem blocks {pl cm rf rt hp po pb w ps ad g ca sa t dr} : BoundaryKept a
    ⟨c.dom, pl, c.live, cm, rf, rt, hp, po, pb, c.rwlNext, c.rwlHeld, c.holdBoundaries, w, ps, ad, c.pwm, g, ca, sa,
      t, dr⟩ :=
  h.block h.dom rfl rfl

theorem set {f : Fld} (v : Word) (hf : 0x20000 ≤ f.reg) : BoundaryKept a (c.set f v) := h.block (h.dom.set v hf) rfl rfl
theorem setN {f : Fld} (n : Nat) (hf : 0x20000 ≤ f.reg) : BoundaryKept a (c.setN f n) := h.block (h.dom.setN n hf) rfl rfl
theorem setB {f : Fld} (b : Bool) (hf : 0x20000 ≤ f.reg) : BoundaryKept a (c.setB f b) := h.block (h.dom.setB b hf) rfl rfl
theorem setBit {f : Fld} {k : Nat} (b : Bool) (hf : 0x20000 ≤ f.reg) : BoundaryKept a (c.setB (f.bit k) b) := h.setB b hf
theorem count {f : Fld} (hf : 0x20000 ≤ f.reg) : BoundaryKept a (c.count f) := h.setN _ hf

theorem raise {ev : Nat} (arg : Nat) (hev : ev < 128 ∧ ev ≠ 0x25) : BoundaryKept a (c.raise ev arg) :=
  h.block (h.dom.raise arg hev.2 hev.1) rfl rfl

/-! ## Legs (R272, R288 to R293) -/

theorem setLeg (k : Nat) (l : Leg) : BoundaryKept a (c.setLeg k l) := h.block h.dom rfl rfl
theorem setPair (k i : Nat) (p : Pair) : BoundaryKept a (c.setPair k i p) := h.setLeg k _
theorem note6 (k : Nat) (old new : BitVec 6) (t : Nat) : BoundaryKept a (c.note6 k old new t) := h.block h.dom rfl rfl

theorem clearCarry (k : Nat) : BoundaryKept a (c.clearCarry k) :=
  (h.setLeg k _).set _ (by exact Nat.le_add_right_of_le (by decide))

theorem dropLegs : BoundaryKept a c.dropLegs := by
  have hlegs : BoundaryKept a ((List.range 6).foldl Channel.dropLeg c) := .foldl (fun _ k _ h => h.setLeg k _) h
  have hcarries : BoundaryKept a ((List.range 6).foldl Channel.dropLeg c).clearCarries :=
    .foldl (fun _ k _ h => h.clearCarry k) hlegs
  exact hcarries.block hcarries.dom rfl rfl

theorem maskLeg (k t : Nat) : BoundaryKept a (c.maskLeg k t) := by
  unfold Channel.maskLeg
  extract_lets l s ok c1
  have h1 : BoundaryKept a c1 := .ite ((h.setLeg k _).note6 _ _ _ _) (h.setLeg k _)
  exact .ite (((h1.setB true (by decide)).count (by decide)).raise _ (by decide)) h1

theorem pairSet (k i : Nat) (cmd : BitVec 2) (t : Nat) : BoundaryKept a (c.pairSet k i cmd t) := by
  unfold Channel.pairSet
  extract_lets p c1 c2
  have h1 : BoundaryKept a c1 := h.setPair k i _
  have h2 : BoundaryKept a c2 := .ite (((h1.setB true (by decide)).count (by decide)).raise _ (by decide)) h1
  exact h2.maskLeg k t

theorem noCrossing (k : Nat) (rising : Bool) : BoundaryKept a (c.noCrossing k rising) :=
  .ite ((((h.setLeg k _).setBit true (by decide)).count (by decide)).raise _ (by decide)) (h.setLeg k _)

theorem closeMeas (k : Nat) : BoundaryKept a (c.closeMeas k) := by
  unfold Channel.closeMeas
  split
  · exact .ite (((h.setLeg k _).setLeg k _).noCrossing k _) (h.setLeg k _)
  · exact h

theorem senseFault (k : Nat) (rising : Bool) : BoundaryKept a (c.senseFault k rising) := by
  unfold Channel.senseFault
  extract_lets _ c1 l _ _ l'
  have h1 : BoundaryKept a c1 := (h.setLeg k _).noCrossing k rising
  exact .ite ((((h1.setLeg k l').setB true (by decide)).setBit true (by decide)).raise _ (by decide)) (h1.setLeg k _)

theorem startMeas (k i : Nat) (rising : Bool) (t : Nat) : BoundaryKept a (c.startMeas k i rising t) := by
  unfold Channel.startMeas
  extract_lets c1 l
  have h1 : BoundaryKept a c1 := h.closeMeas k
  exact .ite h1 (.ite (h1.senseFault k rising) (h1.setLeg k _))

theorem pairGo (k i : Nat) (want : BitVec 2) (t : Nat) (fresh : Bool) : BoundaryKept a (c.pairGo k i want t fresh) := by
  unfold Channel.pairGo
  extract_lets p c1 q inc c2 _ j mid rising dt o c3 _
  have h1 : BoundaryKept a c1 := .ite h (h.pairSet k i _ t)
  have h2 : BoundaryKept a c2 := h1.setPair k i _
  have h3 : BoundaryKept a c3 := h1.setPair k i _
  exact .ite h (.ite (.ite (h2.setLeg k _) h2) (.ite (h3.startMeas k i rising t) (.ite (h3.setLeg k _) h3)))

theorem legTarget (k : Nat) (s : BitVec 6) (t : Nat) (fresh : Bool) : BoundaryKept a (c.legTarget k s t fresh) :=
  .foldl (fun _ _ _ h => h.pairGo _ _ _ _ _) (h.setLeg k _)

theorem legPeriod (fresh : Bool) (k : Nat) : BoundaryKept a (Channel.legPeriod fresh c k) := by
  unfold Channel.legPeriod
  extract_lets l neg c1 _ c2 d stays
  have h1 : BoundaryKept a c1 := .ite (h.clearCarry k) h
  have h2 : BoundaryKept a c2 := h1.setLeg k _
  exact .ite (h2.legTarget k _ _ true) (h2.legTarget k _ _ false)

/-! ## The blocks' parts -/

/-- A new threshold of stage 1 holds its level (R372, R376). -/
theorem brkThreshold (old : Word) : BoundaryKept a (Channel.brkThreshold old c) := by
  unfold Channel.brkThreshold
  extract_lets _ c1
  have h1 : BoundaryKept a c1 := .ite h.blocks h
  exact .ite (h1.setB true (by decide)) h1

theorem refreshClamps : BoundaryKept a c.refreshClamps :=
  .ite ((h.setN _ (by decide)).raise _ (by decide)) (h.setN _ (by decide))

theorem clampMimax (was : Bool) : BoundaryKept a (c.clampMimax was) :=
  .ite (.ite (h.setB true (by decide)) ((h.setB true (by decide)).raise _ (by decide))) h

theorem setSup (f : Sup → Sup) : BoundaryKept a (c.setSup f) := h.blocks

theorem setBoot (k : Nat) (b : Boot) : BoundaryKept a (c.setBoot k b) := h.blocks

theorem chargeEnter (k : Nat) : BoundaryKept a (c.chargeEnter k) :=
  ((h.setBit true (by decide)).count (by decide)).raise _ (by decide)

theorem boundaryBoot (k : Nat) : BoundaryKept a (c.boundaryBoot k) := by
  unfold Channel.boundaryBoot
  extract_lets b acc act c1 c2
  have h1 : BoundaryKept a c1 := h.setBoot k _
  have h2 : BoundaryKept a c2 := .ite (h1.setBit false (by decide)) h1
  exact .ite (h2.chargeEnter k) h2

theorem boundaryGdi : BoundaryKept a c.boundaryGdi := by
  unfold Channel.boundaryGdi
  extract_lets _ g c1
  have h1 : BoundaryKept a c1 := h.blocks
  exact .ite h1 (.foldl (fun _ k _ h => h.boundaryBoot k) h1)

theorem boundaryMode : BoundaryKept a c.boundaryMode := by
  unfold Channel.boundaryMode
  extract_lets
  split
  · exact .ite (.ite (h.blocks.raise _ (by decide)) h) h
  · exact .ite (.ite (h.blocks.raise _ (by decide)) h) h
  · exact h.blocks

theorem boundaryPwm : BoundaryKept a c.boundaryPwm := by
  unfold Channel.boundaryPwm
  extract_lets _ _ c1 _ c2 _ c3 fresh _ _ c4
  have h1 : BoundaryKept a c1 := .ite ((h.setN 3 (by decide)).block (h.setN 3 (by decide)).dom rfl rfl) h
  have h2 : BoundaryKept a c2 := .ite h1 (h1.block h1.dom rfl rfl)
  have h3 : BoundaryKept a c3 := by
    refine .ite (.raise ?_ _ (by decide)) h2
    exact h2.block h2.dom rfl rfl
  have h4 : BoundaryKept a c4 := h3.block h3.dom rfl rfl
  exact .ite (.foldl (fun _ k _ h => h.legPeriod fresh k) h4) h3

theorem boundaryTp : BoundaryKept a c.boundaryTp := .ite (h.block h.dom rfl rfl) h

theorem boundarySafe : BoundaryKept a c.boundarySafe := .ite (h.blocks.raise _ (by decide)) h

theorem setLsc (f : Lsc → Lsc) : BoundaryKept a (c.mapDom (·.setLsc f)) := h.block (h.dom.setLsc f) rfl rfl

/-- The committed period comes into use with the other fields that wait for a boundary (R279). -/
theorem takeBoundaryFields :
    BoundaryKept { a with pwm := { a.pwm with per := a.lvN PWM_CPER_PER } } c.takeBoundaryFields := by
  have hdrop (p : Prop) [Decidable p] : BoundaryKept a (if p then c.dropLegs else c) := .ite h.dropLegs h
  unfold Channel.takeBoundaryFields
  extract_lets _ ctl restart c1 _ p _
  have h1 : BoundaryKept a c1 := hdrop _
  refine ⟨h1.dom, h1.live, h1.rwlNext, h1.rwlHeld, h1.held, h1.due, ?_⟩
  show c1.lvN PWM_CPER_PER = a.lvN PWM_CPER_PER
  rw [Channel.lvN, Channel.lv, h1.live]
  rfl

end
end BoundaryKept

end Sys2Proof.Machine
end

section
/-! PROOF. Live writes and the live hold, and what a carrier boundary, a stop and the first held cycle of an extrapolation bring
(R163, R166, R180, R183, R279, R304). -/

namespace Sys2Proof.Machine

/-! ## Lists of live writes (R163, R166) -/

/-- One value for each register: after a run of writes each register has its own. -/
theorem rget_foldl_rput {l : List (Nat × Word)} (hl : (l.map (·.1)).Nodup) (m : List (Nat × Word)) :
    (∀ k, k ∉ l.map (·.1) → rget (l.foldl (fun m e => rput m e.1 e.2) m) k = rget m k) ∧
      ∀ p ∈ l, rget (l.foldl (fun m e => rput m e.1 e.2) m) p.1 = p.2 := by
  induction l generalizing m with
  | nil => exact ⟨fun _ _ => rfl, nofun⟩
  | cons e l ih =>
    obtain ⟨he, hl⟩ := List.nodup_cons.1 hl
    obtain ⟨hother, hown⟩ := ih hl (rput m e.1 e.2)
    refine ⟨fun k hk => ?_, fun p hp => ?_⟩
    · rw [List.map_cons, List.mem_cons, not_or] at hk
      obtain ⟨hne, hk⟩ := hk
      rw [List.foldl_cons, hother k hk, rget_rput, if_neg (Ne.symm hne)]
    · rcases List.mem_cons.1 hp with rfl | hp
      · rw [List.foldl_cons, hother _ he, rget_rput_same]
      · exact hown p hp

/-- A live write that joins others in place of one to its register. -/
def joinWrite (m : List (Nat × Word)) (e : Nat × Word) : List (Nat × Word) := m.filter (fun x => x.1 != e.1) ++ [e]

theorem mem_joinWrite_of_ne {m : List (Nat × Word)} {e p : Nat × Word} (hp : p ∈ m) (hne : p.1 ≠ e.1) :
    p ∈ joinWrite m e :=
  List.mem_append_left _ (List.mem_filter.2 ⟨hp, bne_iff_ne.2 hne⟩)

theorem mem_joinWrite_self (m : List (Nat × Word)) (e : Nat × Word) : e ∈ joinWrite m e :=
  List.mem_append_right _ (List.mem_singleton_self e)

/-- Writes to different registers all join. -/
theorem mem_foldl_joinWrite {l : List (Nat × Word)} (hl : (l.map (·.1)).Nodup) (m : List (Nat × Word)) :
    (∀ p ∈ m, p.1 ∉ l.map (·.1) → p ∈ l.foldl joinWrite m) ∧ ∀ p ∈ l, p ∈ l.foldl joinWrite m := by
  induction l generalizing m with
  | nil => exact ⟨fun p hp _ => hp, nofun⟩
  | cons e l ih =>
    obtain ⟨he, hl⟩ := List.nodup_cons.1 hl
    obtain ⟨hother, hown⟩ := ih hl (joinWrite m e)
    refine ⟨fun p hp hk => ?_, fun p hp => ?_⟩
    · rw [List.map_cons, List.mem_cons, not_or] at hk
      exact hother p (mem_joinWrite_of_ne hp hk.1) hk.2
    · rcases List.mem_cons.1 hp with rfl | hp
      · exact hother p (mem_joinWrite_self m p) he
      · exact hown p hp

/-! ## Writes of an RWL register (R163, R166) -/

/-- A register whose whole word is quiet reads as before once things are counted. -/
theorem Counted.rget {a b : Domain} (h : Counted a b) {k : Nat} (hk : (⟨k, 31, 0⟩ : Fld).quiet) :
    rget b.regs k = rget a.regs k := by
  have hword (w : Word) : fget w 31 0 = w := by
    apply BitVec.eq_of_getLsbD_eq
    intro i hi
    rw [fget_getLsbD]
    simp [hi]
  have hr := h.rg _ hk
  simpa only [Domain.rg, fld, hword] using hr

theorem RwlReg.quiet_key (r : RwlReg) : (⟨RwlReg.key r, 31, 0⟩ : Fld).quiet := by cases r <;> decide

theorem RwlReg.row_key (r : RwlReg) : ∃ row, rowOf (RwlReg.key r) = some row := by cases r <;> exact ⟨_, rfl⟩

/-- A register that reads back a live write at once. -/
def Channel.readsBack (x : Channel) (k : Nat) (v : Word) : Channel :=
  { x with dom := { x.dom with regs := rput x.dom.regs k v } }

section
variable {x : Channel} {k : Nat} {row : RegRow} (hrow : rowOf k = some row) (hk : EVT_LHOLD_HOLD.reg ≠ k) (w : Word)
include hk

theorem Channel.rgB_hold_readsBack (v : Word) : (x.readsBack k v).rgB EVT_LHOLD_HOLD = x.rgB EVT_LHOLD_HOLD := by
  simp only [Channel.readsBack, Channel.rgB, Channel.rg, fld, rget_rput, if_neg (Ne.symm hk)]

include hrow

/-- Without the live hold a live write waits for the boundary. -/
theorem Channel.writeRwl_waits (hhold : x.rgB EVT_LHOLD_HOLD = false) : x.writeRwl k w =
    { x.readsBack k (w &&& BitVec.ofNat 32 row.rwl) with
      rwlNext := joinWrite x.rwlNext (k, w &&& BitVec.ofNat 32 row.rwl) } := by
  unfold Channel.writeRwl
  rw [hrow]
  exact if_neg (by rw [← Channel.rgB_hold_readsBack hk] at hhold; exact ne_true_of_eq_false hhold)

/-- Under the live hold it is collected. -/
theorem Channel.writeRwl_held (hhold : x.rgB EVT_LHOLD_HOLD = true) : x.writeRwl k w =
    { x.readsBack k (w &&& BitVec.ofNat 32 row.rwl) with
      rwlHeld := joinWrite x.rwlHeld (k, w &&& BitVec.ofNat 32 row.rwl) } := by
  unfold Channel.writeRwl
  rw [hrow]
  exact if_pos ((Channel.rgB_hold_readsBack hk _).trans hhold)

end

theorem RwlReg.key_ne (r : RwlReg) : EVT_LHOLD_HOLD.reg ≠ RwlReg.key r := by cases r <;> decide

section
variable {s : State} {c : Chan} {r : RwlReg} {w : Word} {row : RegRow} (hu : s.up c) (hrow : rowOf (RwlReg.key r) = some row)
include hu hrow

theorem rwlWrite_waits (hhold : (s.ch c).rgB EVT_LHOLD_HOLD = false) : ChAnswers (.rwlWrite c r w) s c (fun y =>
    rget y.dom.regs (RwlReg.key r) = w &&& BitVec.ofNat 32 row.rwl ∧
      (RwlReg.key r, w &&& BitVec.ofNat 32 row.rwl) ∈ y.rwlNext ∧
      y.rwlHeld = (s.ch c).rwlHeld ∧ y.live = (s.ch c).live) := by
  refine .of (f := (·.writeRwl (RwlReg.key r) w)) rfl hu fun y hy => ?_
  rw [Channel.writeRwl_waits hrow (RwlReg.key_ne r) w hhold] at hy
  refine ⟨(hy.dom.rget (RwlReg.quiet_key r)).trans (rget_rput_same _ _ _), ?_, hy.rwlHeld, hy.live⟩
  rw [hy.rwlNext]
  exact mem_joinWrite_self _ _

theorem rwlWrite_held (hhold : (s.ch c).rgB EVT_LHOLD_HOLD = true) : ChAnswers (.rwlWrite c r w) s c (fun y =>
    rget y.dom.regs (RwlReg.key r) = w &&& BitVec.ofNat 32 row.rwl ∧
      (RwlReg.key r, w &&& BitVec.ofNat 32 row.rwl) ∈ y.rwlHeld ∧
      y.rwlNext = (s.ch c).rwlNext ∧ y.live = (s.ch c).live) := by
  refine .of (f := (·.writeRwl (RwlReg.key r) w)) rfl hu fun y hy => ?_
  rw [Channel.writeRwl_held hrow (RwlReg.key_ne r) w hhold] at hy
  refine ⟨(hy.dom.rget (RwlReg.quiet_key r)).trans (rget_rput_same _ _ _), ?_, hy.rwlNext, hy.live⟩
  rw [hy.rwlHeld]
  exact mem_joinWrite_self _ _

end

/-! ## The live hold (R165, R166) -/

/-- A write-one-to-clear of TMO leaves HOLD. -/
theorem Channel.rgB_hold_w1c (x : Channel) (w : Word) :
    (x.w1c EVT_LHOLD_TMO.reg (w &&& 0x100)).rgB EVT_LHOLD_HOLD = x.rgB EVT_LHOLD_HOLD := by
  have hbit (v m : Word) : fget (v &&& ~~~(w &&& 0x100 &&& ~~~m)) 0 0 = fget v 0 0 := by
    apply BitVec.eq_of_getLsbD_eq
    intro i hi
    rw [fget_getLsbD, fget_getLsbD]
    cases i with
    | zero => simp
    | succ i => simp
  have hr : (x.w1c EVT_LHOLD_TMO.reg (w &&& 0x100)).rg EVT_LHOLD_HOLD = x.rg EVT_LHOLD_HOLD := by
    simp only [Channel.w1c, Domain.w1c, Channel.rg, fld, rget_rput_same, hbit]
  simp only [Channel.rgB, hr]

/-- HOLD := 0 where the hold is set: what was collected joins what waits for the boundary. -/
theorem Channel.writeLhold_release {x : Channel} {w : Word} (hw : bitOf w 0 = false) (hhold : x.rgB EVT_LHOLD_HOLD = true) :
    ∃ d : Domain, x.writeLhold w = { x with
      dom := d.setB EVT_LHOLD_HOLD false, rwlNext := x.rwlHeld.foldl joinWrite x.rwlNext,
      rwlHeld := [], holdBoundaries := 0 } := by
  unfold Channel.writeLhold
  extract_lets c1 c2
  have hset : c2.rgB EVT_LHOLD_HOLD = true := by
    have hc1 : c1.rgB EVT_LHOLD_HOLD = true := (x.rgB_hold_w1c w).trans hhold
    exact (Channel.rgB_apart (c1.rg_set_apart _ _ _ (by decide) (by decide))).trans hc1
  rw [hw, if_neg Bool.false_ne_true, Channel.holdRelease, if_pos hset]
  exact ⟨c2.dom, rfl⟩

theorem liveHoldRelease_answers {s : State} {c : Chan} {w : Word} (hu : s.up c) (hw : bitOf w 0 = false)
    (hhold : (s.ch c).rgB EVT_LHOLD_HOLD = true) (hkeys : ((s.ch c).rwlHeld.map (·.1)).Nodup) :
    ChAnswers (.liveHoldRelease c w) s c (fun y => y.rgB EVT_LHOLD_HOLD = false ∧ y.rwlHeld = [] ∧
      (∀ p ∈ (s.ch c).rwlHeld, p ∈ y.rwlNext) ∧ y.live = (s.ch c).live) := by
  have hi : exec (.liveHoldRelease c w) s = .next (s.onCh c (·.writeLhold w)) := by
    show Host.Outcome.next (s.when (!bitOf w 0) _) = _
    rw [hw]
    rfl
  obtain ⟨d, hd⟩ := Channel.writeLhold_release hw hhold
  refine .of hi hu fun y hy => ?_
  rw [hd] at hy
  refine ⟨(hy.rgB _ (by decide)).trans (d.rgB_setB_same _ false (by decide) rfl), hy.rwlHeld, fun p hp => ?_, hy.live⟩
  rw [hy.rwlNext]
  exact (mem_foldl_joinWrite hkeys _).2 p hp

theorem cmtcntClear_answers {s : State} {c : Chan} (hu : s.up c) : ChAnswers (.cmtcntClear c) s c (fun y =>
    y.rgN EVT_CMTCNT_ACCEPTED = 0 ∧ y.rgN EVT_CMTCNT_REFUSED = 0 ∧ y.live = (s.ch c).live ∧
      y.dom.mem = (s.ch c).dom.mem) :=
  .of (f := (·.mapDom (·.clearKey EVT_CMTCNT_ACCEPTED.reg))) rfl hu fun _ hy =>
    ⟨(hy.rgN _ (by decide)).trans (Domain.rgN_clearKey _ EVT_CMTCNT_ACCEPTED),
      (hy.rgN _ (by decide)).trans (Domain.rgN_clearKey _ EVT_CMTCNT_REFUSED), hy.live, hy.dom.mem⟩

/-! ## A carrier boundary (R163, R166, R183, R279) -/

namespace Channel

/-- A boundary has come and the waiting live writes come into use. -/
def liveTaken (x : Channel) : Channel :=
  ({ x with pwm := { x.pwm with bndDue := false, cycles := 0 } } : Channel).takeRwl

/-- The hold counts that boundary. -/
def boundaryLive (x : Channel) : Channel := x.liveTaken.holdBoundary

/-- HOLD, given up at a boundary. -/
def holdEnds (x : Channel) : Channel := ((x.setB EVT_LHOLD_HOLD false).setB EVT_LHOLD_TMO true).raise 0x2D

theorem holdEnds_reads (x : Channel) : x.holdEnds.rgB EVT_LHOLD_HOLD = false ∧ x.holdEnds.rgB EVT_LHOLD_TMO = true ∧
    (HasRoom x.dom 0x2D → Waits x.dom x.holdEnds.dom 0x2D 0) := by
  refine ⟨?_, ?_, fun hroom => .raise _ _ _ _ hroom rfl⟩
  · refine (rgB_apart (rg_raise _ _ _ (by decide) (by decide))).trans ?_
    exact (rgB_apart (rg_setB_apart _ _ _ _ (by decide) (by decide))).trans (x.rgB_setB_same _ false (by decide) rfl)
  · exact (rgB_apart (rg_raise _ _ _ (by decide) (by decide))).trans (rgB_setB_same _ _ true (by decide) rfl)

/-- What was collected is discarded: its registers read back the values in use. -/
def discardHeld (x : Channel) : Channel := { x with
  dom := { x.dom with regs := x.rwlHeld.foldl (fun m (e : Nat × Word) => rput m e.1 (x.liveView e.1)) x.dom.regs }
  rwlHeld := [], holdBoundaries := 0 }

theorem holdBoundary_eq (x : Channel) : x.holdBoundary =
    if x.rgB EVT_LHOLD_HOLD then
      if x.rgN EVT_LHOLD_LIMIT ≤ x.holdBoundaries + 1 then x.discardHeld.holdEnds
      else { x with holdBoundaries := x.holdBoundaries + 1 }
    else x := rfl

/-- The hold touches its own state and the registers alone, and raises no event but EV_LHTMO. -/
theorem holdBoundary_rest (x : Channel) : x.dom.Raised (· = 0x2D) x.holdBoundary.dom ∧
    x.holdBoundary.live = x.live ∧ x.holdBoundary.rwlNext = x.rwlNext ∧ x.holdBoundary.pwm = x.pwm := by
  rw [holdBoundary_eq]
  split
  · split
    · have hsilent : x.dom.Raised (· = 0x2D) ((x.discardHeld.setB EVT_LHOLD_HOLD false).setB EVT_LHOLD_TMO true).dom :=
        (Domain.Raised.refl _).silent rfl rfl rfl rfl
      exact ⟨hsilent.raise (ev := 0x2D) 0 rfl (by decide), rfl, rfl, rfl⟩
    · exact ⟨.refl _, rfl, rfl, rfl⟩
  · exact ⟨.refl _, rfl, rfl, rfl⟩

/-- What the blocks make of a boundary before EV_CBND: the period that begins is the live one. -/
theorem boundary_kept (x : Channel) : ∃ z, BoundaryKept { x.boundaryLive with
    pwm := { x.boundaryLive.pwm with per := x.boundaryLive.lvN PWM_CPER_PER } } z ∧
      x.boundary = z.raise 0x25 z.weir.mode.code := by
  have hgdi := ((((BoundaryKept.refl x.boundaryLive).brkThreshold (rget x.live GDI_BRKTH_ON.reg)).refreshClamps.clampMimax
    (miSaturates x.live)).setSup fun s => { s with due := some x.pwm.cycles }).boundaryGdi
  exact ⟨_, (hgdi.takeBoundaryFields.boundaryMode.boundaryPwm.boundaryTp.boundarySafe).setLsc _, rfl⟩

section
variable (x : Channel)

/-- A boundary's own events, and the values that wait for it. -/
theorem boundaryLive_rest : x.dom.Raised (· = 0x2D) x.boundaryLive.dom ∧
    x.boundaryLive.live = x.rwlNext.foldl (fun m (e : Nat × Word) => rput m e.1 e.2) x.live ∧ x.boundaryLive.rwlNext = [] ∧
    x.boundaryLive.pwm.bndDue = false := by
  obtain ⟨hraised, hlive, hnext, hpwm⟩ :=
    holdBoundary_rest x.liveTaken
  exact ⟨hraised, hlive, hnext, by rw [boundaryLive, hpwm]; rfl⟩

/-- The hold has lasted LIMIT boundaries (R166). -/
theorem boundaryLive_expired (hhold : x.rgB EVT_LHOLD_HOLD = true) (hlimit : x.rgN EVT_LHOLD_LIMIT ≤ x.holdBoundaries + 1) :
    x.boundaryLive.rgB EVT_LHOLD_HOLD = false ∧ x.boundaryLive.rgB EVT_LHOLD_TMO = true ∧ x.boundaryLive.rwlHeld = [] ∧
      (HasRoom x.dom 0x2D → Waits x.dom x.boundaryLive.dom 0x2D 0) := by
  have hends : x.boundaryLive =
      x.liveTaken.discardHeld.holdEnds := by
    rw [boundaryLive, holdBoundary_eq]
    exact (if_pos hhold).trans (if_pos hlimit)
  obtain ⟨hgone, htmo, htold⟩ :=
    x.liveTaken.discardHeld.holdEnds_reads
  rw [hends]
  exact ⟨hgone, htmo, rfl, htold⟩

/-- The hold has boundaries left. -/
theorem boundaryLive_counted (hhold : x.rgB EVT_LHOLD_HOLD = true) (hlimit : x.holdBoundaries + 1 < x.rgN EVT_LHOLD_LIMIT) :
    x.boundaryLive.rgB EVT_LHOLD_HOLD = true ∧ x.boundaryLive.rwlHeld = x.rwlHeld ∧
      x.boundaryLive.holdBoundaries = x.holdBoundaries + 1 := by
  have hcounts : x.boundaryLive =
      { x.liveTaken with
        holdBoundaries := x.holdBoundaries + 1 } := by
    rw [boundaryLive, holdBoundary_eq]
    exact (if_pos hhold).trans (if_neg (Nat.not_le.2 hlimit))
  rw [hcounts]
  exact ⟨hhold, rfl, rfl⟩

/-- A boundary performed, over the boundary with its live writes alone. -/
structure Bounded (y : Channel) : Prop where
  live : y.live = x.boundaryLive.live
  rwlNext : y.rwlNext = x.boundaryLive.rwlNext
  rwlHeld : y.rwlHeld = x.boundaryLive.rwlHeld
  held : y.holdBoundaries = x.boundaryLive.holdBoundaries
  due : y.pwm.bndDue = false
  per : y.pwm.per = y.lvN PWM_CPER_PER
  lhold : ∀ f : Fld, f.reg = EVT_LHOLD_HOLD.reg → f.hi < 32 → y.rg f = x.boundaryLive.rg f
  told : HasRoom x.dom 0x25 → Waits x.dom y.dom 0x25 y.weir.mode.code
  later : ∀ ev arg, Waits x.dom x.boundaryLive.dom ev arg → Waits x.dom y.dom ev arg

theorem boundary_bounded : x.Bounded x.boundary := by
  obtain ⟨z, hz, hy⟩ := x.boundary_kept
  obtain ⟨hraised, hlive, hnext, hdue⟩ := x.boundaryLive_rest
  have hquiet (f : Fld) (hr : f.reg = EVT_LHOLD_HOLD.reg) (hhi : f.hi < 32) : f.quiet := by
    simp only at hr
    exact ⟨hhi, by omega, by omega, by omega, by omega⟩
  rw [hy]
  refine ⟨hz.live, hz.rwlNext, hz.rwlHeld, hz.held, hz.due.trans hdue, ?per, fun f hr hhi => ?lhold, fun hroom => ?told,
    fun ev arg hw => (hz.dom.waits hw).later _ _⟩
  case per =>
    have hlive : z.lvN PWM_CPER_PER = x.boundaryLive.lvN PWM_CPER_PER :=
      congrArg (fun l => (fld l PWM_CPER_PER).toNat) hz.live
    exact hz.per.trans hlive.symm
  case lhold =>
    refine (rg_raise _ _ _ (hquiet f hr hhi) (by decide)).trans
      (hz.dom.rg f hhi (by simp only at hr; omega) fun g hg => .inl ?_)
    simp only at hr
    omega
  case told =>
    have hbefore := (hraised.mono (F := (· ≠ 0x25)) (by rintro ev rfl; decide)).trans hz.dom.toRaised
    exact .raise _ _ _ _ (hbefore.hasRoom hroom (by decide) (by decide)) hbefore.time

end

/-! ## Stops, stale extrapolation and edges without a boundary (R180, R279) -/

theorem stopCarrier_stopped (x : Channel) : x.stopCarrier.pwm.running = false ∧
    x.stopCarrier.rgB PWM_STAT_RUNNING = false ∧ x.stopCarrier.pwm.n = 0 ∧ x.stopCarrier.weir.phi = 0 ∧
    x.stopCarrier.weir.mode = .async :=
  ⟨rfl, rgB_setB_same _ _ false (by decide) rfl, rfl, rfl, rfl⟩

theorem stale_told {x : Channel} (h : HasRoom x.dom 0x1D) :
    x.stale.rgB WEIR_STAT_STALE = true ∧ Waits x.dom x.stale.dom 0x1D 0 :=
  ⟨(rgB_apart (rg_raise _ _ _ (by decide) (by decide))).trans (x.rgB_setB_same _ true (by decide) rfl),
    .raise _ _ _ _ h rfl⟩

/-- A stop takes the place of a boundary. -/
theorem stopDue_of_boundaryDue {x : Channel} (h : x.boundaryDue = true) : x.stopDue = false := by
  simp only [boundaryDue, Bool.and_eq_true, Bool.not_eq_true'] at h
  obtain ⟨⟨-, hstop⟩, -⟩ := h
  simp [stopDue, hstop]

theorem atBoundary_of_due {x : Channel} (h : x.boundaryDue = true) : x.atBoundary = x.boundary := by
  rw [atBoundary, stopDue_of_boundaryDue h, if_neg Bool.false_ne_true, if_pos h]

theorem atBoundary_of_none {x : Channel} (hb : x.boundaryDue = false) (hs : x.stopDue = false) : x.atBoundary = x := by
  rw [atBoundary, hs, hb, if_neg Bool.false_ne_true, if_neg Bool.false_ne_true]

end Channel

/-! ## The obligation -/

/-- Settles O14. The blocks' parts in a boundary leave what the live writes and the live hold made of it. -/
theorem liveWritesAndCarrierBoundaries : Obligations.LiveWritesAndCarrierBoundaries := by
  unfold Obligations.LiveWritesAndCarrierBoundaries
  refine ⟨fun s c r w hu => ⟨?write, liveHoldRelease_answers hu, cmtcntClear_answers hu⟩, fun x => ?edge⟩
  case write =>
    obtain ⟨row, hrow⟩ := RwlReg.row_key r
    exact ⟨row, hrow, rwlWrite_waits hu hrow, rwlWrite_held hu hrow⟩
  case edge =>
    intro y z st
    obtain ⟨hlive, hnext, hheld, hcount, hdue, hper, hlhold, htold, hlater⟩ := x.boundary_bounded
    obtain ⟨-, hvalues, hempty, -⟩ := x.boundaryLive_rest
    have hflag (f : Fld) (hr : f.reg = EVT_LHOLD_HOLD.reg) (hhi : f.hi < 32) : y.rgB f = x.boundaryLive.rgB f :=
      Channel.rgB_apart (hlhold f hr hhi)
    refine ⟨⟨hdue, hper, hnext.trans hempty, fun hkeys p hp => ?values, htold⟩, fun hhold hlimit => ?expired,
      fun hhold hlimit => ?counted, x.stopCarrier_stopped, Channel.stale_told,
      fun h => ⟨Channel.stopDue_of_boundaryDue h, Channel.atBoundary_of_due h⟩, Channel.atBoundary_of_none⟩
    case values =>
      rw [show y.live = _ from hlive.trans hvalues]
      exact (rget_foldl_rput hkeys x.live).2 p hp
    case expired =>
      obtain ⟨hgone, htmo, hnone, hwaits⟩ := x.boundaryLive_expired hhold hlimit
      exact ⟨(hflag EVT_LHOLD_HOLD rfl (by decide)).trans hgone, (hflag EVT_LHOLD_TMO rfl (by decide)).trans htmo,
        hheld.trans hnone, fun hroom => hlater _ _ (hwaits hroom)⟩
    case counted =>
      obtain ⟨hstays, hkept, hone⟩ := x.boundaryLive_counted hhold hlimit
      exact ⟨(hflag EVT_LHOLD_HOLD rfl (by decide)).trans hstays, hheld.trans hkept, hcount.trans hone⟩

end Sys2Proof.Machine
end
